-- ==== Sys2Proof/Word.lean ====
section
/-! DEFINITION. The word types of the FQ416 and the plainest arithmetic on them (00 R7: little-endian throughout). -/

namespace Sys2Proof

/-- A byte. -/
abbrev Byte := BitVec 8

/-- A 32-bit register word. -/
abbrev Word := BitVec 32

/-- A string of bytes, lowest address first. -/
abbrev Bytes := List Byte

/-- An edge of a pin. -/
inductive Edge where
  | rise
  | fall
  deriving DecidableEq, Repr

end Sys2Proof
end

