-- ==== Sys2Proof/Syntax.lean ====
section
/-! DEFINITION. The commands the block takes: one constructor per row of spec/opcode_table.json.
A row that is an opcode of the command surface carries the path whose latched command Belrix now carries out:
0 to 31 the mailbox of PF and VF1 to VF31 (10 R193), 32 the Ethernet host path (10 R210).
A row that is an event carries what arrives with it. -/

namespace Sys2Proof

/-- How the CSI-2 ECC judged a packet header (03 R54). -/
inductive HeaderEcc where
  | clean
  | corrected
  | uncorrectable
  deriving DecidableEq, Repr

/-- A CSI-2 packet at a port (03 R54, R58, R62). -/
structure Csi2Packet where
  /-- virtual channel 0 to 3 -/
  vc : Nat
  /-- data type; below 0x10 a short packet -/
  dt : Nat
  hdr : HeaderEcc
  payload : Bytes
  crcOk : Bool
  /-- payload bytes that the decoder took out of the receive buffer while the payload arrived (03 R62) -/
  drained : Nat
  /-- events already produced of the EVEC unit being decoded when a CRC mismatch was found, if one was (03 R54) -/
  begun : Option Nat
  /-- CLK_EVT cycles from the last CLK_AON tick to the stamp point (02 R35) -/
  cycles : Nat
  deriving DecidableEq, Repr

/-- A TDM frame, from its FS edge to the next one (06 R108, R110, R111). -/
structure TdmFrame where
  /-- BCLK cycles between the two FS edges -/
  bits : Nat
  /-- the line at the rising BCLK edges, from the edge that samples FS active; low where the list ends -/
  rise : List Bool
  /-- the line at the falling BCLK edges of the same cycles -/
  fall : List Bool
  /-- ns from the last CLK_AON tick to the FS edge (02 R35) -/
  ns : Nat
  deriving DecidableEq, Repr

/-- The raw codes of one battery string in one sample (17 R329). -/
structure BatCode where
  i : Int
  v : Nat
  t : Nat
  deriving DecidableEq, Repr

/-- A quadrature edge on ENC_A or ENC_B (04 R78, 19 Edges and collisions). -/
inductive QuadEdge where
  | up
  | down
  /-- both lines changed between two samples -/
  | illegal
  deriving DecidableEq, Repr

/-- A quadrature edge with its time: ns from the last CLK_AON tick to the edge (04 R78). -/
structure QuadStep where
  edge : QuadEdge
  ns : Nat
  deriving DecidableEq, Repr

/-- How a sensor-bus transfer ended: the bus (0 and 1 I2C, 2 SPI) and its xfer_status (03 R70). -/
structure XferEnd where
  bus : Nat
  status : Nat
  deriving DecidableEq, Repr

/-- The PTP message types of 02 R44 other than Announce. -/
inductive PtpKind where
  | sync
  | followUp
  | delayReq
  | delayResp
  | pdelayReq
  | pdelayResp
  | pdelayRespFollowUp
  | signaling
  | management
  deriving DecidableEq, Repr

/-- A received PTP message (02 R41, R44, R46). Times are in ns. -/
structure PtpMsg where
  /-- 0 ETH0, 1 ETH1 -/
  port : Nat
  kind : PtpKind
  /-- IEEE 802.1Q tags of the frame -/
  tags : Nat
  domain : Nat
  /-- clockIdentity of the sender -/
  identity : BitVec 64
  seqId : Nat
  twoStep : Bool
  /-- originTimestamp, preciseOriginTimestamp, receiveTimestamp or requestReceiptTimestamp, as total ns -/
  timestamp : Nat
  /-- correctionField in 2^-16 ns -/
  correction : Int
  /-- ns from the last CLK_AON tick to the start-of-frame delimiter at the MAC -/
  ns : Nat
  deriving DecidableEq, Repr

/-- A received Announce message (02 R41, R373). -/
structure Announce where
  port : Nat
  tags : Nat
  domain : Nat
  identity : BitVec 64
  priority1 : Nat
  clockClass : Nat
  clockAccuracy : Nat
  variance : Nat
  priority2 : Nat
  stepsRemoved : Nat
  /-- logMessageInterval of the master -/
  logInterval : Int
  deriving DecidableEq, Repr

/-- A PTP event message committed for egress (02 R47): the headers of its frame up to and with a UDP header, and the PTP
message, as Belrix or the other port hands them over. -/
structure PtpTx where
  port : Nat
  /-- forwarded by a transparent clock from the other port -/
  forwarded : Bool
  /-- transport of a forwarded frame: 0 Layer 2, 1 UDP/IPv4, 2 UDP/IPv6; a message of the device's own takes its port's -/
  transport : Nat
  head : Bytes
  msg : Bytes
  /-- ns from the last CLK_AON tick to the commit -/
  ns : Nat
  deriving DecidableEq, Repr

/-- What members of a group tell each other over Teal (08 R161 to R163, 09 Command pages); log entry 23. -/
inductive TealMsg where
  /-- the sender forms a group of a size -/
  | forming (group size : Nat)
  /-- the sender has bound its slice of a model -/
  | bound (model : BitVec 64)
  /-- a run descriptor with its path, and the input slice of the member that it goes to (08 R163, 09 R174) -/
  | run (model : BitVec 64) (path : Nat) (input : List Int)
  /-- the sender's partial sums of a layer, for the layer's home (08 R162) -/
  | partials (model : BitVec 64) (layer : Nat) (sums : List Int)
  /-- the output-channel slice that a home scatters as the input of a layer; past the last layer, the outputs -/
  | slice (model : BitVec 64) (layer : Nat) (values : List Int)
  /-- a generation-bearing command for the binding of a model, forwarded by member 0 -/
  | command (model : BitVec 64) (opcode : Nat) (block : Bytes)
  /-- a write to an internal address of the member, a read, and its answer (01 R29) -/
  | write (addr : Nat) (data : Bytes)
  | read (addr len : Nat)
  | answer (data : Bytes)
  deriving DecidableEq, Repr

/-- A frame on a Teal link: 64 payload bytes (08 R160, R161). -/
structure TealFrame where
  crcOk : Bool
  /-- member index of the sender and of the destination -/
  source : Nat
  dest : Nat
  /-- low six bits of the master ID that sends (01 R29) -/
  id : Nat
  /-- the message that this frame completes; none for a frame before a message's last -/
  msg : Option TealMsg
  deriving DecidableEq, Repr

/-- An internal request (13 R244 to R247, 01 R16). -/
structure Access where
  master : Nat
  /-- issued by a BAR2 access (10 R192) -/
  bar2 : Bool
  addr : Nat
  /-- bytes read -/
  len : Nat
  /-- bytes written; none makes it a read -/
  write : Option Bytes
  /-- 0 no ECC error, 1 single-bit, 2 double-bit at this read (18 R348) -/
  ecc : Nat
  deriving DecidableEq, Repr

/-- Where a register write comes from (00 R8, 10 R190, R192). -/
inductive Via where
  | bar0 (fn : Nat)
  | bar2
  | internal (master : Nat)
  deriving DecidableEq, Repr

/-- A write of `size` bytes at an offset of BAR0 or BAR2, or at an internal address. -/
structure RegWrite where
  via : Via
  addr : Nat
  size : Nat
  value : BitVec 64
  deriving DecidableEq, Repr

/-- A UDP datagram at the Ethernet host path (10 R210 to R212). -/
structure Datagram where
  /-- the source address is peer_ip -/
  fromPeer : Bool
  srcPort : Nat
  bytes : Bytes
  deriving DecidableEq, Repr

/-- A frame addressed to device_ip that is no PTP frame (10 R210). -/
inductive EthFrame where
  | arp
  | neighbourSolicitation
  | other
  deriving DecidableEq, Repr

/-- The commands of the block, one per row of the spec's table. -/
inductive Instr where
  /-- IDENTIFY (R188), opcode 0x0101: path p's latched command is carried out. -/
  | identify (p : Nat)
  /-- GET_VERSION (R1), opcode 0x0102: path p's latched command is carried out. -/
  | getVersion (p : Nat)
  /-- RESET (R219), opcode 0x0103: path p's latched command is carried out. -/
  | reset (p : Nat)
  /-- FUNC_SET_LIMITS (R203), opcode 0x0104: path p's latched command is carried out. -/
  | funcSetLimits (p : Nat)
  /-- ETH_SET_HOST (R210), opcode 0x0105: path p's latched command is carried out. -/
  | ethSetHost (p : Nat)
  /-- MEM_SET_ECC (R17), opcode 0x0106: path p's latched command is carried out. -/
  | memSetEcc (p : Nat)
  /-- CTX_CREATE (R203), opcode 0x0201: path p's latched command is carried out. -/
  | ctxCreate (p : Nat)
  /-- CTX_DESTROY (R204), opcode 0x0202: path p's latched command is carried out. -/
  | ctxDestroy (p : Nat)
  /-- CTX_SET_RING (R207), opcode 0x0203: path p's latched command is carried out. -/
  | ctxSetRing (p : Nat)
  /-- RING_SET (R206), opcode 0x0204: path p's latched command is carried out. -/
  | ringSet (p : Nat)
  /-- CTX_GET_INFO (R203), opcode 0x0205: path p's latched command is carried out. -/
  | ctxGetInfo (p : Nat)
  /-- CHANGESET_BEGIN (R234), opcode 0x0210: path p's latched command is carried out. -/
  | changesetBegin (p : Nat)
  /-- CHANGESET_COMMIT (R237), opcode 0x0211: path p's latched command is carried out. -/
  | changesetCommit (p : Nat)
  /-- CHANGESET_ABORT (R234), opcode 0x0212: path p's latched command is carried out. -/
  | changesetAbort (p : Nat)
  /-- QUIESCE_COMMIT (R241), opcode 0x0213: path p's latched command is carried out. -/
  | quiesceCommit (p : Nat)
  /-- CHANGESET_GET_STATUS (R239), opcode 0x0214: path p's latched command is carried out. -/
  | changesetGetStatus (p : Nat)
  /-- CHANGESET_SET_POLICY (R235), opcode 0x0215: path p's latched command is carried out. -/
  | changesetSetPolicy (p : Nat)
  /-- STAGE_GENERATION_COMMAND (R234): A generation-bearing command, received while a set is open, is checked against the staged state and staged without being applied. -/
  | stageGenerationCommand (p : Nat)
  /-- SINGLE_COMMAND_COMMIT (R235): A generation-bearing command received with no set open is committed as a change set of one command and armed before it completes. -/
  | singleCommandCommit (p : Nat)
  /-- QUIESCE_DRAIN_END (R241): The end of the QUIESCE_COMMIT drain switches every armed element at T_a, resumes ingest and emits the QUIESCED GAP records. -/
  | quiesceDrainEnd (ctx : Nat)
  /-- QUIESCE_PAUSE_TIMEOUT (R241): The expiry of max_pause_us before the drain ends resumes ingest, leaves the set open and completes the command BUSY. -/
  | quiescePauseTimeout (ctx : Nat)
  /-- TIME_GET (R31), opcode 0x0301: path p's latched command is carried out. -/
  | timeGet (p : Nat)
  /-- TIME_SET_SERVO (R41), opcode 0x0302: path p's latched command is carried out. -/
  | timeSetServo (p : Nat)
  /-- PTP_SET_PORT (R46), opcode 0x0303: path p's latched command is carried out. -/
  | ptpSetPort (p : Nat)
  /-- TIME_STEP (R40), opcode 0x0304: path p's latched command is carried out. -/
  | timeStep (p : Nat)
  /-- TIME_SET_PINS (R48), opcode 0x0305: path p's latched command is carried out. -/
  | timeSetPins (p : Nat)
  /-- TIME_READ_CAPTURES (R49), opcode 0x0306: path p's latched command is carried out. -/
  | timeReadCaptures (p : Nat)
  /-- AMB_SNAP (R50): A write of 1 copies farm time, epoch and steady time into the snapshot registers on the next tick. -/
  | ambSnap (v : Word)
  /-- AMB_SLEW_REQ (R38): A write starts slewing a signed offset, replacing any remainder still to be slewed. -/
  | ambSlewReq (v : Word)
  /-- AMB_STEP_CMD (R39): A write of 1 arms a step to the target time on the next CLK_AON tick. -/
  | ambStepCmd (v : Word)
  /-- AMB_CAP_POP (R50): A read of the pop window returns a capture entry and removes it from its FIFO. -/
  | ambCapPop (input : Nat)
  /-- EPOCH_STEP (R39): On the first tick after an armed step, Amber sets farm time, increments the epoch, discards the slew and emits an anchor. -/
  | epochStep
  /-- TS32_WRAP (R36): TS32 wrapping on a tick asserts source 355 and emits a TIME_ANCHOR with WRAP. -/
  | ts32Wrap
  /-- ANCHOR_PERIOD_EXPIRY (R36): The expiry of AMB_ANCHOR_PERIOD since the last anchor emits a PERIODIC TIME_ANCHOR. -/
  | anchorPeriodExpiry
  /-- SLEW_COMPLETE (R38): The slew remainder reaching zero ends the slew and asserts source 364. -/
  | slewComplete
  /-- SYNC_RECEIVED (R41): A PTP Sync from the selected master updates the servo, and the offset is applied by slew or step. -/
  | syncReceived (m : PtpMsg)
  /-- SERVO_OFFSET_APPLY (R43): The next tick applies the servo's frequency and offset, entering LOCKED from FREERUN or HOLDOVER. -/
  | servoOffsetApply
  /-- ANNOUNCE_RECEIVED (R373): An Announce message feeds foreign-master qualification, the best master clock algorithm and the port state machine. -/
  | announceReceived (m : Announce)
  /-- PTP_EVENT_TRANSMIT (R47): A PTP event message is committed for egress, with one-step timestamp insertion and checksum recomputation. -/
  | ptpEventTransmit (m : PtpTx)
  /-- ANNOUNCE_TIMEOUT (R42): Three announce intervals with no Announce from the selected master enter HOLDOVER. -/
  | announceTimeout
  /-- PPS_IN_EDGE (R41): A PPS_IN edge is stamped, is captured when its edge is selected and, with reference PPS_IN, yields a servo offset. -/
  | ppsInEdge (e : Edge) (ns : Nat)
  /-- PPS_IN_MISSED (R42): An expected PPS_IN pulse passes without an edge, which increments AMB_PPS_IN_MISS and may enter HOLDOVER. -/
  | ppsInMissed
  /-- TS_CAPTURE_EDGE (R49): A selected edge on TS_CAPTURE is stamped into its FIFO, or dropped and counted when the FIFO is full. -/
  | tsCaptureEdge (input : Nat) (e : Edge) (ns : Nat)
  /-- PPS_OUT_SECOND (R48): Farm time plus the offset crossing an integer second raises PPS_OUT, counting repeats after backward steps. -/
  | ppsOutSecond
  /-- PPS_OUT_PULSE_END (R48): The expiry of AMB_PPS_OUT_WIDTH drives PPS_OUT low. -/
  | ppsOutPulseEnd
  /-- EVPORT_ASSIGN (R53), opcode 0x0401: path p's latched command is carried out. -/
  | evportAssign (p : Nat)
  /-- EVPORT_SET_FORMAT (R55), opcode 0x0402: path p's latched command is carried out. -/
  | evportSetFormat (p : Nat)
  /-- EVPORT_SET_FILTERS (R60), opcode 0x0403: path p's latched command is carried out. -/
  | evportSetFilters (p : Nat)
  /-- EVPORT_SET_BLOCKING (R66), opcode 0x0404: path p's latched command is carried out. -/
  | evportSetBlocking (p : Nat)
  /-- EVPORT_GET_STATS (R73), opcode 0x0405: path p's latched command is carried out. -/
  | evportGetStats (p : Nat)
  /-- SENSOR_XFER (R70), opcode 0x0406: path p's latched command is carried out. -/
  | sensorXfer (p : Nat)
  /-- SENSOR_SET_TRIGGER (R71), opcode 0x0407: path p's latched command is carried out. -/
  | sensorSetTrigger (p : Nat)
  /-- OCH_SBUS_GO (R73): A write starts a sensor-bus transfer with the configured selection, address and lengths. -/
  | ochSbusGo (v : Word)
  /-- OCH_SBUS_DATA_POP (R73): A read of OCH_SBUS_DATA pops a received byte, and a write queues a byte to send. -/
  | ochSbusDataPop (w : Option Byte)
  /-- OCH_PN_CNT_CLR (R73): A write clears a port's counters. -/
  | ochPnCntClr (port : Nat) (v : Word)
  /-- CSI2_PACKET_RECEIVED (R54): A CSI-2 packet on an event port is accepted, ignored or discarded and, when accepted, stamped at its header. -/
  | csi2PacketReceived (port : Nat) (pkt : Csi2Packet)
  /-- EVENT_DECODE (R62): A word or unit lying whole in the receive buffer is decoded into events, which pass the range check and the filters of R60. -/
  | eventDecode (port : Nat)
  /-- GAP_CONTINUES (R64): Every 10 ms of an open gap, a GAP record with CONTINUES is emitted. -/
  | gapContinues (tdm : Bool) (port : Nat)
  /-- EVENT_HANDOFF (R63): Ochre grants events from the non-empty FIFOs round-robin to Cobalt, up to 3 per cycle. -/
  | eventHandoff
  /-- BLOCK_TIMEOUT (R66): The expiry of block_timeout_us marks a block boundary and closes any open block. -/
  | blockTimeout (port : Nat)
  /-- FILTER_MAP_SCRUB (R61): The scrubber clears VALID on filter-map cells aged 16,384 µs or more. -/
  | filterMapScrub (port : Nat)
  /-- PORT_SILENT (R72): No packet for OCH_Pn_SILENT_US asserts the silent source once. -/
  | portSilent (port : Nat)
  /-- PORT_ACTIVITY_WINDOW (R72): The end of a 1 ms window compares the admitted events with OCH_Pn_WAKE_THR and asserts the activity source. -/
  | portActivityWindow (port : Nat)
  /-- TRIGGER_FIRE (R71): The start time or the period elapses and EPn_TRIG goes high, asserting source n × 8 + 7. -/
  | triggerFire (n : Nat)
  /-- TRIGGER_PULSE_END (R71): The expiry of width_ns drives the trigger output low. -/
  | triggerPulseEnd (n : Nat)
  /-- PROJ_SET_ROTOR (R78), opcode 0x0501: path p's latched command is carried out. -/
  | projSetRotor (p : Nat)
  /-- PROJ_SET_IMU (R81), opcode 0x0502: path p's latched command is carried out. -/
  | projSetImu (p : Nat)
  /-- PROJ_SET_PORT (R76), opcode 0x0503: path p's latched command is carried out. -/
  | projSetPort (p : Nat)
  /-- PROJ_SET_STACK (R84), opcode 0x0504: path p's latched command is carried out. -/
  | projSetStack (p : Nat)
  /-- PROJ_RELEASE_MAP (R86), opcode 0x0505: path p's latched command is carried out. -/
  | projReleaseMap (p : Nat)
  /-- PROJ_GET_STATE (R79), opcode 0x0506: path p's latched command is carried out. -/
  | projGetState (p : Nat)
  /-- COB_ANG_SNAP (R89): A write latches the angle registers. -/
  | cobAngSnap (v : Word)
  /-- COBALT_PROJECT (R76): An event taken from the FIFO is undistorted, projected, de-rotated and stacked, or dropped under GEOM, RANGE or NOANGLE. -/
  | cobaltProject
  /-- ENCODER_ENTRY (R78): An encoder update writes a history entry, which is a rotor-angle update and an apply point. -/
  | encoderEntry (up : Bool) (ns : Nat)
  /-- ENCODER_INDEX (R78): A Z index realigns the angle and counts a correction larger than one count. -/
  | encoderIndex (ns : Nat)
  /-- SSI_POLL (R78): The expiry of ssi_poll_us reads an SSI frame and writes an entry. -/
  | ssiPoll (frame : Nat) (ns : Nat)
  /-- ANGLE_TICK (R80): 1 ms without a rotor-angle update issues an angle tick, which is an apply point. -/
  | angleTick
  /-- STACK_CLOSE (R84): The expiry of close_delay_us closes the stack and starts its copy to a host buffer. -/
  | stackClose (stack : Nat)
  /-- ROTOR_MAP (R87): Completion of the map copy, or the lack of a buffer, emits ROTOR_MAP. -/
  | rotorMap (stack : Nat)
  /-- IMU_DRDY_EDGE (R81): An IMU_DRDY edge reads the gyro burst and integrates the attitude deviation with clamping. -/
  | imuDrdyEdge (burst : Bytes) (ns : Nat)
  /-- IMU_SILENT (R82): 4 periods without IMU_DRDY keep the last δ and assert source 83. -/
  | imuSilent
  /-- FEAT_SET_SURFACE (R91), opcode 0x0601: path p's latched command is carried out. -/
  | featSetSurface (p : Nat)
  /-- FEAT_SET_CORNER (R97), opcode 0x0602: path p's latched command is carried out. -/
  | featSetCorner (p : Nat)
  /-- FEAT_SET_FLOW (R98), opcode 0x0603: path p's latched command is carried out. -/
  | featSetFlow (p : Nat)
  /-- FEAT_SET_TRACKER (R100), opcode 0x0604: path p's latched command is carried out. -/
  | featSetTracker (p : Nat)
  /-- FEAT_SET_TICK (R96), opcode 0x0605: path p's latched command is carried out. -/
  | featSetTick (p : Nat)
  /-- FEAT_GET_STATS (R106), opcode 0x0606: path p's latched command is carried out. -/
  | featGetStats (p : Nat)
  /-- SEP_SN_CNT_CLR (R106): A write clears a surface's counters. -/
  | sepSnCntClr (surface : Nat) (v : Word)
  /-- SURFACE_UPDATE (R94): A projected event accepted from Cobalt updates its cells in every matching surface and may become a candidate. -/
  | surfaceUpdate
  /-- CORNER_TEST (R97): A candidate at the head of the corner queue is tested on the two rings. -/
  | cornerTest
  /-- FLOW_FIT (R98): A candidate at the head of the flow queue is fitted, or rejected. -/
  | flowFit
  /-- DECAY_TICK (R96): Steady time crossing a multiple of tick_us closes batches, runs housekeeping, frees slots and applies the staged configuration. -/
  | decayTick
  /-- SURFACE_SCRUB (R93): The scrubber clears surface cells aged 16,384 units or more. -/
  | surfaceScrub (surface : Nat)
  /-- SEPIA_STAGING_RESUME (R104): Space returning in the output staging ends Sepia's stall and resumes acceptance from Cobalt. -/
  | sepiaStagingResume
  /-- FILTER_SET_PORT (R108), opcode 0x0701: path p's latched command is carried out. -/
  | filterSetPort (p : Nat)
  /-- FILTER_ASSIGN_CHANNEL (R236), opcode 0x0702: path p's latched command is carried out. -/
  | filterAssignChannel (p : Nat)
  /-- FILTER_SET_DERIVED (R112), opcode 0x0703: path p's latched command is carried out. -/
  | filterSetDerived (p : Nat)
  /-- FILTER_LOAD_COEFFS (R114), opcode 0x0704: path p's latched command is carried out. -/
  | filterLoadCoeffs (p : Nat)
  /-- FILTER_SET_CHAIN (R113), opcode 0x0705: path p's latched command is carried out. -/
  | filterSetChain (p : Nat)
  /-- FILTER_SET_DCBLOCK (R115), opcode 0x0706: path p's latched command is carried out. -/
  | filterSetDcblock (p : Nat)
  /-- FILTER_FREEZE_DC (R115), opcode 0x0707: path p's latched command is carried out. -/
  | filterFreezeDc (p : Nat)
  /-- FILTER_SET_THRESHOLD (R119), opcode 0x0708: path p's latched command is carried out. -/
  | filterSetThreshold (p : Nat)
  /-- FILTER_SET_BAND (R120), opcode 0x0709: path p's latched command is carried out. -/
  | filterSetBand (p : Nat)
  /-- FILTER_SET_SYNC (R118), opcode 0x070A: path p's latched command is carried out. -/
  | filterSetSync (p : Nat)
  /-- FILTER_GET_STATS (R129), opcode 0x070B: path p's latched command is carried out. -/
  | filterGetStats (p : Nat)
  /-- UMB_SYNC_SW (R118): A write of 1 resets the named sync groups. -/
  | umbSyncSw (v : Word)
  /-- TDM_FRAME (R110): An FS edge is stamped, the frame is checked and then buffered or dropped, and T_est is updated. -/
  | tdmFrame (port : Nat) (f : TdmFrame)
  /-- TDM_PORT_SILENT (R111): 16 declared frame periods without FS assert source 136 + p. -/
  | tdmPortSilent (port : Nat)
  /-- DERIVED_TICK (R112): A derived channel's divider expires and samples its internal quantity. -/
  | derivedTick (ch : Nat)
  /-- CHAIN_SAMPLE (R113): The MAC engine runs a buffered input through the DC block and the FIR stages of its channel. -/
  | chainSample (ch : Nat)
  /-- FILTER_BLOCK_TIMEOUT (R124): The expiry of block_timeout_ms closes a FILTER_BLOCK. -/
  | filterBlockTimeout (ch : Nat)
  /-- UMBER_APPLY_FALLBACK (R127): 2 declared output periods without an output apply the group's staged configuration. -/
  | umberApplyFallback (group : Nat)
  /-- SIG_SYNC_EDGE (R118): A SIG_SYNC edge arms a reset of the enabled groups at the next frame at or after its stamp. -/
  | sigSyncEdge (e : Edge) (ns : Nat)
  /-- UMBER_STAGING_RESUME (R126): Space returning in the output staging restarts the MAC engine. -/
  | umberStagingResume
  /-- FUSE_SET_RULE (R131), opcode 0x0801: path p's latched command is carried out. -/
  | fuseSetRule (p : Nat)
  /-- FUSE_FLUSH (R139), opcode 0x0802: path p's latched command is carried out. -/
  | fuseFlush (p : Nat)
  /-- FUSE_GET_STATS (R147), opcode 0x0803: path p's latched command is carried out. -/
  | fuseGetStats (p : Nat)
  /-- VIR_RN_CNT_CLR (R147): A write clears a rule's counters. -/
  | virRnCntClr (rule : Nat) (v : Word)
  /-- MEMBER_ADMIT (R133): A member leaving the admission queue joins every open window that contains its time, or is counted late. -/
  | memberAdmit
  /-- WINDOW_OPEN (R133): A periodic boundary or an anchor member opens a window, which is the rule's apply point. -/
  | windowOpen (rule : Nat)
  /-- WINDOW_CLOSE (R139): Steady time reaching end plus hold closes the window, scores it and decides its emission. -/
  | windowClose (rule : Nat)
  /-- FUSED_RECORD_STAGE (R143): A closed window's FUSED record is staged in close order once staging space exists. -/
  | fusedRecordStage
  /-- COREG_MAP_SCRUB (R136): The scrubber clears co-registration cells aged 16,384 µs or more. -/
  | coregMapScrub
  /-- INFER_LOAD_MODEL (R155), opcode 0x0901: path p's latched command is carried out. -/
  | inferLoadModel (p : Nat)
  /-- INFER_UNLOAD_MODEL (R155), opcode 0x0902: path p's latched command is carried out. -/
  | inferUnloadModel (p : Nat)
  /-- INFER_BIND (R156), opcode 0x0903: path p's latched command is carried out. -/
  | inferBind (p : Nat)
  /-- INFER_RUN (R157), opcode 0x0904: path p's latched command is carried out. -/
  | inferRun (p : Nat)
  /-- INFER_GET_STATS (R167), opcode 0x0905: path p's latched command is carried out. -/
  | inferGetStats (p : Nat)
  /-- BINDING_INPUT (R156): A RULE or CHANNEL input value is quantised into the binding window and may trigger a run. -/
  | bindingInput
  /-- RUN_DISPATCH (R174): Denzewen chooses the run's path and dispatches it on free tiles. -/
  | runDispatch (b : Nat)
  /-- RUN_COMPLETE (R159): The last tile finishing a run emits INFERENCE_RESULT, and the inference boundary applies staged settings. -/
  | runComplete (b : Nat)
  /-- REPLAY_WINDOW_END (R179): At each 1 ms window end, tiles whose replays exceed REPLAY_LIMIT are demoted and a REPLAY_STORM fault is raised. -/
  | replayWindowEnd
  /-- TILE_WSTALL_WINDOW (R165): A tile stalled on weights for a whole 1 ms window asserts source 240 + t. -/
  | tileWstallWindow (t : Nat)
  /-- APPROX_SET_LAYERS (R170), opcode 0x0A01: path p's latched command is carried out. -/
  | approxSetLayers (p : Nat)
  /-- APPROX_SET_BINDING (R174), opcode 0x0A02: path p's latched command is carried out. -/
  | approxSetBinding (p : Nat)
  /-- APPROX_SET_SPECULATION (R176), opcode 0x0A03: path p's latched command is carried out. -/
  | approxSetSpeculation (p : Nat)
  /-- APPROX_SET_VERIFY (R184), opcode 0x0A04: path p's latched command is carried out. -/
  | approxSetVerify (p : Nat)
  /-- APPROX_GET_STATS (R185), opcode 0x0A05: path p's latched command is carried out. -/
  | approxGetStats (p : Nat)
  /-- GROUP_FORM (R160), opcode 0x1201: path p's latched command is carried out. -/
  | groupForm (p : Nat)
  /-- GROUP_DISSOLVE (R161), opcode 0x1202: path p's latched command is carried out. -/
  | groupDissolve (p : Nat)
  /-- GROUP_GET_STATUS (R168), opcode 0x1203: path p's latched command is carried out. -/
  | groupGetStatus (p : Nat)
  /-- TEAL_FRAME_RECEIVED (R161): A Teal frame is checked by CRC and delivered, forwarded or replayed. -/
  | tealFrameReceived (port : Nat) (f : TealFrame)
  /-- TEAL_LOSS_OF_LOCK (R161): A link losing lock begins retraining. -/
  | tealLossOfLock (port : Nat)
  /-- TEAL_RETRAIN_TIMEOUT (R161): Retraining not done within 1 ms declares the unreachable member lost. -/
  | tealRetrainTimeout (port : Nat)
  /-- GROUP_BIND_TIMEOUT (R163): A member not bound within 100 ms of the first bind completes the bind PEER_LOST; the bind is the latched command of path p. -/
  | groupBindTimeout (p : Nat)
  /-- POWER_GET_STATUS (R323), opcode 0x0B01: path p's latched command is carried out. -/
  | powerGetStatus (p : Nat)
  /-- POWER_SET_DOMAIN (R302), opcode 0x0B02: path p's latched command is carried out. -/
  | powerSetDomain (p : Nat)
  /-- POWER_REQUEST_STATE (R314), opcode 0x0B03: path p's latched command is carried out. -/
  | powerRequestState (p : Nat)
  /-- POWER_SET_LATENCY (R312), opcode 0x0B04: path p's latched command is carried out. -/
  | powerSetLatency (p : Nat)
  /-- SCHED_SET_BUDGET (R319), opcode 0x0B05: path p's latched command is carried out. -/
  | schedSetBudget (p : Nat)
  /-- SCHED_SET_THERMAL (R318), opcode 0x0B06: path p's latched command is carried out. -/
  | schedSetThermal (p : Nat)
  /-- SCHED_SET_BINDING (R322), opcode 0x0B07: path p's latched command is carried out. -/
  | schedSetBinding (p : Nat)
  /-- STATE_ENTRY (R307): An armed or automatic entry, once its conditions hold, ends pending runs and takes domains down in order. -/
  | stateEntry
  /-- WAKE_EVENT (R309): A wake source brings the FAST-START domains back up and returns the device to RUN. -/
  | wakeEvent (src : Nat)
  /-- WAKE_TIMER (R310): Steady time reaching the wake timer wakes the device. -/
  | wakeTimer
  /-- ON_DEMAND_ACCESS (R303): A request to a closed ON-DEMAND domain stalls and wakes the domain. -/
  | onDemandAccess (d : Nat)
  /-- DOMAIN_POWER_DOWN (R303): A domain is gated, drained, isolated and powered off. -/
  | domainPowerDown (d : Nat)
  /-- DOMAIN_DRAIN_DONE (R303): The end of the drain engages isolation and drops the domain's power. -/
  | domainDrainDone (d : Nat)
  /-- DOMAIN_POWER_UP (R305): A domain is powered, reset, de-isolated, configured and opened. -/
  | domainPowerUp (d : Nat)
  /-- DOMAIN_IDLE_TIMEOUT (R313): An ON-DEMAND domain idle for idle_down_us is powered down. -/
  | domainIdleTimeout (d : Nat)
  /-- AUTO_DOZE (R313): doze_idle_us of idleness enters DOZE when auto_doze is set. -/
  | autoDoze
  /-- TJ_SAMPLE (R318): A Tj sample every 100 µs updates the thermal factor and acts on the thresholds. -/
  | tjSample (tj : Int)
  /-- BUDGET_WINDOW_BOUNDARY (R320): A 10 ms boundary computes the budget, chooses the point, re-evaluates waiting runs and sheds overdue ones. -/
  | budgetWindowBoundary
  /-- VOUT_READBACK (R316): The 20 µs PMBus readback reaching the target voltage switches the frequency up. -/
  | voutReadback (mv : Nat) (pmbErr : Bool)
  /-- REGULATOR_TIMEOUT (R316): A regulator not within 10 mV after 1 ms sets WAIT_VOUT and asserts source 396. -/
  | regulatorTimeout
  /-- BAT_SET_STRING (R332), opcode 0x0C01: path p's latched command is carried out. -/
  | batSetString (p : Nat)
  /-- BAT_LOAD_TABLES (R331), opcode 0x0C02: path p's latched command is carried out. -/
  | batLoadTables (p : Nat)
  /-- BAT_SET_LEVELS (R336), opcode 0x0C03: path p's latched command is carried out. -/
  | batSetLevels (p : Nat)
  /-- BAT_SET_REPORT (R338), opcode 0x0C04: path p's latched command is carried out. -/
  | batSetReport (p : Nat)
  /-- BAT_SET_SOC (R334), opcode 0x0C05: path p's latched command is carried out. -/
  | batSetSoc (p : Nat)
  /-- BAT_GET_STATUS (R338), opcode 0x0C06: path p's latched command is carried out. -/
  | batGetStatus (p : Nat)
  /-- BATTERY_SAMPLE (R329): A string sample converts current, voltage and temperature and updates charge, levels and battery source. -/
  | batterySample (codes : List BatCode)
  /-- BATTERY_REPORT_PERIOD (R338): The expiry of period_s stages a PERIODIC BATTERY_STATUS record. -/
  | batteryReportPeriod
  /-- ACCESS_SET_ENTRY (R254), opcode 0x0D01: path p's latched command is carried out. -/
  | accessSetEntry (p : Nat)
  /-- ACCESS_READ_TABLE (R245), opcode 0x0D02: path p's latched command is carried out. -/
  | accessReadTable (p : Nat)
  /-- ACCESS_GET_FAULTS (R256), opcode 0x0D03: path p's latched command is carried out. -/
  | accessGetFaults (p : Nat)
  /-- ACCESS_CTX_VIOLATIONS (R255), opcode 0x0D04: path p's latched command is carried out. -/
  | accessCtxViolations (p : Nat)
  /-- GRD_FAULT_LATCH_CLEAR (R256): A write of 1 to LATCHED re-arms a guard's fault latch. -/
  | grdFaultLatchClear (g : Nat) (v : Word)
  /-- GRD_ENTRY_WRITE (R248): An MP write to a guard entry applies to later requests, or is dropped when the entry is locked. -/
  | grdEntryWrite (g : Nat) (i : Nat) (word : Nat) (v : Word)
  /-- INTERNAL_ACCESS (R247): An internal request is decided by its target's guard and served, denied or reported as unmapped. -/
  | internalAccess (a : Access)
  /-- INTR_SET_SOURCE (R281), opcode 0x0E01: path p's latched command is carried out. -/
  | intrSetSource (p : Nat)
  /-- INTR_GET_SOURCE (R300), opcode 0x0E02: path p's latched command is carried out. -/
  | intrGetSource (p : Nat)
  /-- INTR_SETPEND (R295), opcode 0x0E03: path p's latched command is carried out. -/
  | intrSetpend (p : Nat)
  /-- INTR_HOST_PENDING (R298), opcode 0x0E04: path p's latched command is carried out. -/
  | intrHostPending (p : Nat)
  /-- INTR_HOST_ACK (R298), opcode 0x0E05: path p's latched command is carried out. -/
  | intrHostAck (p : Nat)
  /-- INTR_GET_STATS (R300), opcode 0x0E06: path p's latched command is carried out. -/
  | intrGetStats (p : Nat)
  /-- CARM_SETPEND (R295): A register write makes a source pending. -/
  | carmSetpend (v : Word)
  /-- CARM_TN_EOI (R291): A completion write pops the top entry, or is refused with a STACK_ORDER fault. -/
  | carmTnEoi (t : Nat) (v : Word)
  /-- CARM_TN_STACK_RST (R293): A write empties a target's stack and clears STACK_ORDER. -/
  | carmTnStackRst (t : Nat) (v : Word)
  /-- CARM_TN_HOLD (R294): A write of HOLD suspends or resumes delivery to a target. -/
  | carmTnHold (t : Nat) (v : Word)
  /-- SOURCE_LINE_CHANGE (R285): A filtered line change or an internal assertion makes a source pending. -/
  | sourceLineChange (n : Nat) (level : Bool)
  /-- ASYNC_LATCH_EDGE (R284): While the filter clock is stopped, an edge is caught by the asynchronous latch. -/
  | asyncLatchEdge (n : Nat) (e : Edge)
  /-- MODERATION_HOLDOFF_EXPIRY (R287): The holdoff expiring makes a pending source eligible. -/
  | moderationHoldoffExpiry (n : Nat)
  /-- INTERRUPT_ACKNOWLEDGE (R289): The target accepts the winning source at an instruction boundary and opens the entry window. -/
  | interruptAcknowledge (t : Nat)
  /-- INTERRUPT_COMMIT (R289): At the handler's first instruction, the provisional source is pushed and claimed. -/
  | interruptCommit (t : Nat)
  /-- HOST_RELAY (R298): The relay sends the MSI-X message of the most urgent eligible host-routed source. -/
  | hostRelay
  /-- FAULT_GET_STATUS (R343), opcode 0x0F01: path p's latched command is carried out. -/
  | faultGetStatus (p : Nat)
  /-- FAULT_READ_LOG (R347), opcode 0x0F02: path p's latched command is carried out. -/
  | faultReadLog (p : Nat)
  /-- FAULT_ERASE_LOG (R347), opcode 0x0F03: path p's latched command is carried out. -/
  | faultEraseLog (p : Nat)
  /-- DIAG_SELFTEST (R351), opcode 0x0F04: path p's latched command is carried out. -/
  | diagSelftest (p : Nat)
  /-- DEBUG_CHALLENGE (R350), opcode 0x0F05: path p's latched command is carried out. -/
  | debugChallenge (p : Nat)
  /-- DEBUG_UNLOCK (R350), opcode 0x0F06: path p's latched command is carried out. -/
  | debugUnlock (p : Nat)
  /-- DEBUG_LOCK (R350), opcode 0x0F07: path p's latched command is carried out. -/
  | debugLock (p : Nat)
  /-- FAULT_MERGE_RELEASE (R346): 1 ms after the pair's previous record, the pending merged record is staged. -/
  | faultMergeRelease (cls : Nat) (unit : Nat)
  /-- LOG_APPEND_PROGRAM (R347): A queued log entry is programmed to flash once the flash is free, or fails with FLASH_ERROR. -/
  | logAppendProgram (ok : Bool)
  /-- FW_GET_SLOTS (R225), opcode 0x1001: path p's latched command is carried out. -/
  | fwGetSlots (p : Nat)
  /-- FW_BEGIN (R230), opcode 0x1002: path p's latched command is carried out. -/
  | fwBegin (p : Nat)
  /-- FW_WRITE (R220), opcode 0x1003: path p's latched command is carried out. -/
  | fwWrite (p : Nat)
  /-- FW_FINISH (R230), opcode 0x1004: path p's latched command is carried out. -/
  | fwFinish (p : Nat)
  /-- FW_HOST_LOAD (R227), opcode 0x1005: path p's latched command is carried out. -/
  | fwHostLoad (p : Nat)
  /-- FW_COMMIT (R231), opcode 0x1006: path p's latched command is carried out. -/
  | fwCommit (p : Nat)
  /-- COMPAT_OVERRIDE (R229), opcode 0x1007: path p's latched command is carried out. -/
  | compatOverride (p : Nat)
  /-- PORST_N_RELEASE (R232): The release of power-on reset clears all state, samples the straps and boots. -/
  | porstNRelease (straps : Nat) (trained : Bool)
  /-- WRST_N_ASSERT (R219): WRST_N held low for 25 samples performs a warm reset. -/
  | wrstNAssert (samples : Nat) (straps : Nat)
  /-- VOLTAGE_DETECTOR_RESET (R365): VDD_AON or VDD_CORE below its threshold holds the device in power-on reset. -/
  | voltageDetectorReset (aonMv : Nat) (coreMv : Nat)
  /-- QUEUE_GET_STATUS (R260), opcode 0x1101: path p's latched command is carried out. -/
  | queueGetStatus (p : Nat)
  /-- QUEUE_PEEK (R267), opcode 0x1102: path p's latched command is carried out. -/
  | queuePeek (p : Nat)
  /-- FABRIC_GET_STATS (R278), opcode 0x1103: path p's latched command is carried out. -/
  | fabricGetStats (p : Nat)
  /-- COMBINE_RESET (R273), opcode 0x1104: path p's latched command is carried out. -/
  | combineReset (p : Nat)
  /-- SEND_WINDOW_STAGE (R262): A write to a send window's staging words fills the master's staging buffer. -/
  | sendWindowStage (master : Nat) (q : Nat) (off : Nat) (v : Word)
  /-- DESCRIPTOR_COMMIT (R263): A header write commits the staged descriptor after the master's earlier writes complete, or it is refused. -/
  | descriptorCommit (master : Nat) (q : Nat) (header : Word)
  /-- STALLED_COMMIT_ADMIT (R264): A commit waiting at full is admitted once space or a reservation frees. -/
  | stalledCommitAdmit (master : Nat)
  /-- QUEUE_POP (R265): A read of a pop window pops the head descriptor. -/
  | queuePop (master : Nat) (q : Nat) (off : Nat)
  /-- LANDING_WRITE (R266): A landing descriptor and its status word are written to the ring once the ring write can proceed. -/
  | landingWrite
  /-- SLT_QN_ACK (R266): A write consumes landing descriptors up to v, or is ignored. -/
  | sltQnAck (q : Nat) (v : Word)
  /-- CONTRIBUTION_PROCESS (R272): A contribution at the queue head is read and added or stored. -/
  | contributionProcess (c : Nat)
  /-- COMBINE_RESULT_COMMIT (R275): The round's result descriptor is committed to the result queue when it has room. -/
  | combineResultCommit (c : Nat)
  /-- SLT_CN_RELEASE (R275): A write releases a held round buffer. -/
  | sltCnRelease (c : Nat) (v : Word)
  /-- DOORBELL (R193): A DOORBELL write latches the command area, or is ignored. -/
  | doorbell (fn : Nat) (v : Word)
  /-- PARAM_INDIRECT_FETCH_DONE (R196): The completion or failure of a parameter DMA fetch resumes the command's checks. -/
  | paramIndirectFetchDone (p : Nat) (data : Option Bytes)
  /-- RESPONSE_POST (R193): Belrix writes the response area, updates STATUS and, with NOTIFY, sends vector 0. -/
  | responsePost (p : Nat)
  /-- RING_TAIL_WRITE (R208): A write of RINGr_TAIL frees ring space or marks the ring invalid. -/
  | ringTailWrite (fn : Nat) (ring : Nat) (v : Word)
  /-- RECORD_DELIVER (R206): A staged record is written to its ring once space and mastering allow, or goes to the spill buffer. -/
  | recordDeliver (fn : Nat) (ring : Nat)
  /-- RING_MODERATION_HOLDOFF (R209): holdoff_us after the oldest unsignalled record sends the ring's MSI-X. -/
  | ringModerationHoldoff (fn : Nat) (ring : Nat)
  /-- FLR (R205): A function-level reset tears down the function's contexts and resets its mailbox and MSI-X. -/
  | flr (fn : Nat)
  /-- FUNCTION_MASTER_ENABLE (R189): A change of D-state or Bus Master Enable stops or resumes DMA, and releases held messages. -/
  | functionMasterEnable (fn : Nat) (dstate : Nat) (bme : Bool)
  /-- VF_DISABLE (R205): Clearing VF Enable or lowering NumVFs tears the removed VFs down. -/
  | vfDisable (numVfs : Nat)
  /-- ETH_REQUEST (R211): A REQUEST datagram executes a command or resends the cached response. -/
  | ethRequest (g : Datagram)
  /-- ETH_UPLOAD (R212): An UPLOAD datagram writes the upload window and is acknowledged. -/
  | ethUpload (g : Datagram)
  /-- ETH_FRAME_RECEIVED (R210): A frame at device_ip is answered for ARP or neighbour solicitation, or dropped and counted. -/
  | ethFrameReceived (f : EthFrame)
  /-- PCIE_LINK_CHANGE (R214): The PCIe link comes up, goes down or changes speed. -/
  | pcieLinkChange (up : Bool) (speed : Nat) (width : Nat)
  /-- REGISTER_WRITE (R8): A write to a register with no row of its own sets, clears or ignores fields by access code. -/
  | registerWrite (w : RegWrite)
  /-- TEAL_LINK_UP (R161): A Teal link completes training or retraining and comes up, asserting source 416 or 417. -/
  | tealLinkUp (port : Nat)
  /-- ETH_LINK_CHANGE (R214): An Ethernet port's link goes up or down, asserting source 455 or 456. -/
  | ethLinkChange (port : Nat) (up : Bool)
  /-- DPHY_RESYNC_DONE (R53): An event port finishes resynchronising its D-PHY after EVPORT_ASSIGN and resumes receiving. -/
  | dphyResyncDone (port : Nat)
  /-- SENSOR_BUS_TRANSFER_DONE (R70): An I2C or SPI sensor-bus transfer ends, with its xfer_status, and the waiting command resumes. -/
  | sensorBusTransferDone (status : XferEnd) (moved : Nat) (data : Bytes)
  /-- COMMAND_DMA_FETCH_DONE (R197): A DMA fetch of command data (package, grid, hot-pixel list, coefficients, tables, image data) completes or fails and the yielded command resumes. -/
  | commandDmaFetchDone (p : Nat) (data : Option Bytes)
  /-- FLASH_OPERATION_DONE (R220): A flash erase or program finishes or fails, resuming the waiting firmware, settings or log operation. -/
  | flashOperationDone (ok : Bool)
  /-- GROUP_FORM_TIMEOUT (R160): timeout_ms elapses without every member forming, and GROUP_FORM completes PEER_LOST. -/
  | groupFormTimeout
  /-- RESET_DELAY_EXPIRY (R219): delay_ms after a RESET response the warm reset equal to WRST_N takes place. -/
  | resetDelayExpiry
  /-- PORST_N_ASSERT (R369): PORST_N goes low, holding every digital pin high-Z except FAULT_N and DDR_RESET_N low, and losing all state. -/
  | porstNAssert
  /-- VF_ENABLE (R205): Setting VF Enable or raising NumVFs brings VFs into existence with their kept quotas and restores an Ethernet path bound to one. -/
  | vfEnable (numVfs : Nat)
  /-- PTP_MESSAGE_RECEIVED (R44): A Follow_Up, Delay_Req, Delay_Resp, Pdelay_Req, Pdelay_Resp or Pdelay_Resp_Follow_Up message is received, answered, forwarded or fed to the servo. -/
  | ptpMessageReceived (m : PtpMsg)
  /-- ENCODER_COUNT_EDGE (R78): A quadrature A or B edge changes the encoder count, or is an illegal transition, without reaching update_counts. -/
  | encoderCountEdge (d : QuadStep)
  deriving DecidableEq, Repr

end Sys2Proof
end

