-- ==== Sys2Proof/WellFormed.lean ====
section
/-! DEFINITION. Which commands are well formed: the operands lie in the ranges that the spec gives the port, surface,
channel, function or field they name. A command outside them names something the device does not have. -/

namespace Sys2Proof

/-- 03 R54: a packet has a virtual channel of 0 to 3 and an 8-bit data type, and its stamp lies before the next tick. -/
def Csi2Packet.wf (p : Csi2Packet) : Bool := p.vc < 4 && p.dt < 64 && p.drained ≤ p.payload.length && p.cycles < 16 &&
  (match p.begun with | some n => n ≤ 32 | none => true)

/-- 06 R108: at most 8 slots. -/
def TdmFrame.wf (f : TdmFrame) : Bool := f.rise.length ≤ 257 && f.fall.length ≤ 257 && f.ns < 40

/-- 17 R329: 24-bit current codes, 20-bit voltage codes and 16-bit temperature codes at most. -/
def BatCode.wf (b : BatCode) : Bool := -8388608 ≤ b.i && b.i < 8388608 && b.v < 16777216 && b.t < 16777216

def PtpMsg.wf (m : PtpMsg) : Bool := m.port < 2 && m.domain < 256 && m.seqId < 65536 && m.ns < 40

def Announce.wf (m : Announce) : Bool :=
  m.port < 2 && m.domain < 256 && m.priority1 < 256 && m.clockClass < 256 && m.clockAccuracy < 256 &&
  m.variance < 65536 && m.priority2 < 256 && m.stepsRemoved < 65536 && -128 ≤ m.logInterval && m.logInterval < 128

/-- 02 R47: an Ethernet header, with an IP and a UDP header where the transport has them, and a PTP event message. -/
def PtpTx.wf (m : PtpTx) : Bool :=
  m.port < 2 && m.transport < 3 && 14 ≤ m.head.length && 44 ≤ m.msg.length && m.ns < 40

/-- 08 R160: groups of up to four members. -/
def TealFrame.wf (f : TealFrame) : Bool := f.source < 4 && f.dest < 4 && f.id < 64

/-- 01 R15, R28: 40-bit addresses and 12-bit master IDs. -/
def Access.wf (a : Access) : Bool := a.master < 4096 && a.addr < (if a.bar2 then 2 ^ 24 else 2 ^ 40) && a.ecc < 3

def RegWrite.wf (w : RegWrite) : Bool :=
  (match w.via with
   | .bar0 f => f < 32 && w.addr < 0x10000
   | .bar2 => w.addr < 0x1000000
   | .internal m => m < 4096 && w.addr < 2 ^ 40) && (w.size = 1 || w.size = 2 || w.size = 4 || w.size = 8)

/-- A well-formed command. -/
def Instr.wf : Instr → Bool
  | .identify p => p ≤ 32
  | .getVersion p => p ≤ 32
  | .reset p => p ≤ 32
  | .funcSetLimits p => p ≤ 32
  | .ethSetHost p => p ≤ 32
  | .memSetEcc p => p ≤ 32
  | .ctxCreate p => p ≤ 32
  | .ctxDestroy p => p ≤ 32
  | .ctxSetRing p => p ≤ 32
  | .ringSet p => p ≤ 32
  | .ctxGetInfo p => p ≤ 32
  | .changesetBegin p => p ≤ 32
  | .changesetCommit p => p ≤ 32
  | .changesetAbort p => p ≤ 32
  | .quiesceCommit p => p ≤ 32
  | .changesetGetStatus p => p ≤ 32
  | .changesetSetPolicy p => p ≤ 32
  | .stageGenerationCommand p => p ≤ 32
  | .singleCommandCommit p => p ≤ 32
  | .quiesceDrainEnd ctx => ctx < 1024
  | .quiescePauseTimeout ctx => ctx < 1024
  | .timeGet p => p ≤ 32
  | .timeSetServo p => p ≤ 32
  | .ptpSetPort p => p ≤ 32
  | .timeStep p => p ≤ 32
  | .timeSetPins p => p ≤ 32
  | .timeReadCaptures p => p ≤ 32
  | .ambSnap _ => true
  | .ambSlewReq _ => true
  | .ambStepCmd _ => true
  | .ambCapPop input => input < 3
  | .epochStep => true
  | .ts32Wrap => true
  | .anchorPeriodExpiry => true
  | .slewComplete => true
  | .syncReceived m => m.wf
  | .servoOffsetApply => true
  | .announceReceived m => m.wf
  | .ptpEventTransmit m => m.wf
  | .announceTimeout => true
  | .ppsInEdge _ ns => ns < 40
  | .ppsInMissed => true
  | .tsCaptureEdge input _ ns => (1 ≤ input && input ≤ 2) && ns < 40
  | .ppsOutSecond => true
  | .ppsOutPulseEnd => true
  | .evportAssign p => p ≤ 32
  | .evportSetFormat p => p ≤ 32
  | .evportSetFilters p => p ≤ 32
  | .evportSetBlocking p => p ≤ 32
  | .evportGetStats p => p ≤ 32
  | .sensorXfer p => p ≤ 32
  | .sensorSetTrigger p => p ≤ 32
  | .ochSbusGo _ => true
  | .ochSbusDataPop _ => true
  | .ochPnCntClr port _ => port < 8
  | .csi2PacketReceived port pkt => port < 8 && pkt.wf
  | .eventDecode port => port < 8
  | .gapContinues tdm port => port < (if tdm then 4 else 8)
  | .eventHandoff => true
  | .blockTimeout port => port < 8
  | .filterMapScrub port => port < 8
  | .portSilent port => port < 8
  | .portActivityWindow port => port < 8
  | .triggerFire n => n < 8
  | .triggerPulseEnd n => n < 8
  | .projSetRotor p => p ≤ 32
  | .projSetImu p => p ≤ 32
  | .projSetPort p => p ≤ 32
  | .projSetStack p => p ≤ 32
  | .projReleaseMap p => p ≤ 32
  | .projGetState p => p ≤ 32
  | .cobAngSnap _ => true
  | .cobaltProject => true
  | .encoderEntry _ ns => ns < 40
  | .encoderIndex ns => ns < 40
  | .ssiPoll frame ns => frame < 4294967296 && ns < 40
  | .angleTick => true
  | .stackClose stack => stack < 16
  | .rotorMap stack => stack < 16
  | .imuDrdyEdge burst ns => burst.length ≤ 32 && ns < 40
  | .imuSilent => true
  | .featSetSurface p => p ≤ 32
  | .featSetCorner p => p ≤ 32
  | .featSetFlow p => p ≤ 32
  | .featSetTracker p => p ≤ 32
  | .featSetTick p => p ≤ 32
  | .featGetStats p => p ≤ 32
  | .sepSnCntClr surface _ => surface < 16
  | .surfaceUpdate => true
  | .cornerTest => true
  | .flowFit => true
  | .decayTick => true
  | .surfaceScrub surface => surface < 16
  | .sepiaStagingResume => true
  | .filterSetPort p => p ≤ 32
  | .filterAssignChannel p => p ≤ 32
  | .filterSetDerived p => p ≤ 32
  | .filterLoadCoeffs p => p ≤ 32
  | .filterSetChain p => p ≤ 32
  | .filterSetDcblock p => p ≤ 32
  | .filterFreezeDc p => p ≤ 32
  | .filterSetThreshold p => p ≤ 32
  | .filterSetBand p => p ≤ 32
  | .filterSetSync p => p ≤ 32
  | .filterGetStats p => p ≤ 32
  | .umbSyncSw _ => true
  | .tdmFrame port f => port < 4 && f.wf
  | .tdmPortSilent port => port < 4
  | .derivedTick ch => 32 ≤ ch && ch < 40
  | .chainSample ch => ch < 40
  | .filterBlockTimeout ch => ch < 40
  | .umberApplyFallback group => group < 4
  | .sigSyncEdge _ ns => ns < 40
  | .umberStagingResume => true
  | .fuseSetRule p => p ≤ 32
  | .fuseFlush p => p ≤ 32
  | .fuseGetStats p => p ≤ 32
  | .virRnCntClr rule _ => rule < 256
  | .memberAdmit => true
  | .windowOpen rule => rule < 256
  | .windowClose rule => rule < 256
  | .fusedRecordStage => true
  | .coregMapScrub => true
  | .inferLoadModel p => p ≤ 32
  | .inferUnloadModel p => p ≤ 32
  | .inferBind p => p ≤ 32
  | .inferRun p => p ≤ 32
  | .inferGetStats p => p ≤ 32
  | .bindingInput => true
  | .runDispatch b => 1 ≤ b && b ≤ 256
  | .runComplete b => 1 ≤ b && b ≤ 256
  | .replayWindowEnd => true
  | .tileWstallWindow t => t < 16
  | .approxSetLayers p => p ≤ 32
  | .approxSetBinding p => p ≤ 32
  | .approxSetSpeculation p => p ≤ 32
  | .approxSetVerify p => p ≤ 32
  | .approxGetStats p => p ≤ 32
  | .groupForm p => p ≤ 32
  | .groupDissolve p => p ≤ 32
  | .groupGetStatus p => p ≤ 32
  | .tealFrameReceived port f => port < 2 && f.wf
  | .tealLossOfLock port => port < 2
  | .tealRetrainTimeout port => port < 2
  | .groupBindTimeout p => p ≤ 32
  | .powerGetStatus p => p ≤ 32
  | .powerSetDomain p => p ≤ 32
  | .powerRequestState p => p ≤ 32
  | .powerSetLatency p => p ≤ 32
  | .schedSetBudget p => p ≤ 32
  | .schedSetThermal p => p ≤ 32
  | .schedSetBinding p => p ≤ 32
  | .stateEntry => true
  | .wakeEvent src => src < 544 || src = 0x401
  | .wakeTimer => true
  | .onDemandAccess d => d < 16
  | .domainPowerDown d => d < 16
  | .domainDrainDone d => d < 16
  | .domainPowerUp d => d < 16
  | .domainIdleTimeout d => d < 16
  | .autoDoze => true
  | .tjSample _ => true
  | .budgetWindowBoundary => true
  | .voutReadback _ _ => true
  | .regulatorTimeout => true
  | .batSetString p => p ≤ 32
  | .batLoadTables p => p ≤ 32
  | .batSetLevels p => p ≤ 32
  | .batSetReport p => p ≤ 32
  | .batSetSoc p => p ≤ 32
  | .batGetStatus p => p ≤ 32
  | .batterySample codes => codes.length ≤ 4 && codes.all BatCode.wf
  | .batteryReportPeriod => true
  | .accessSetEntry p => p ≤ 32
  | .accessReadTable p => p ≤ 32
  | .accessGetFaults p => p ≤ 32
  | .accessCtxViolations p => p ≤ 32
  | .grdFaultLatchClear g _ => g < 19
  | .grdEntryWrite g i word _ => g < 19 && i < 1536 && word < 4
  | .internalAccess a => a.wf
  | .intrSetSource p => p ≤ 32
  | .intrGetSource p => p ≤ 32
  | .intrSetpend p => p ≤ 32
  | .intrHostPending p => p ≤ 32
  | .intrHostAck p => p ≤ 32
  | .intrGetStats p => p ≤ 32
  | .carmSetpend _ => true
  | .carmTnEoi t _ => t < 6
  | .carmTnStackRst t _ => t < 6
  | .carmTnHold t _ => t < 6
  | .sourceLineChange n _ => n < 544
  | .asyncLatchEdge n _ => 512 ≤ n && n < 544
  | .moderationHoldoffExpiry n => n < 544
  | .interruptAcknowledge t => t < 5
  | .interruptCommit t => t < 5
  | .hostRelay => true
  | .faultGetStatus p => p ≤ 32
  | .faultReadLog p => p ≤ 32
  | .faultEraseLog p => p ≤ 32
  | .diagSelftest p => p ≤ 32
  | .debugChallenge p => p ≤ 32
  | .debugUnlock p => p ≤ 32
  | .debugLock p => p ≤ 32
  | .faultMergeRelease cls unit => 1 ≤ cls && cls ≤ 15 && unit < 1024
  | .logAppendProgram _ => true
  | .fwGetSlots p => p ≤ 32
  | .fwBegin p => p ≤ 32
  | .fwWrite p => p ≤ 32
  | .fwFinish p => p ≤ 32
  | .fwHostLoad p => p ≤ 32
  | .fwCommit p => p ≤ 32
  | .compatOverride p => p ≤ 32
  | .porstNRelease straps _ => straps < 16
  | .wrstNAssert _ straps => straps < 16
  | .voltageDetectorReset _ _ => true
  | .queueGetStatus p => p ≤ 32
  | .queuePeek p => p ≤ 32
  | .fabricGetStats p => p ≤ 32
  | .combineReset p => p ≤ 32
  | .sendWindowStage master q off _ => master < 4096 && q < 4096 && off < 64 && off % 4 = 0
  | .descriptorCommit master q _ => master < 4096 && q < 4096
  | .stalledCommitAdmit master => master < 4096
  | .queuePop master q off => master < 4096 && q < 4096 && off < 32 && off % 4 = 0
  | .landingWrite => true
  | .sltQnAck q _ => q < 4096
  | .contributionProcess c => c < 256
  | .combineResultCommit c => c < 256
  | .sltCnRelease c _ => c < 256
  | .doorbell fn _ => fn < 32
  | .paramIndirectFetchDone _ _ => true
  | .responsePost p => p ≤ 32
  | .ringTailWrite fn ring _ => fn < 32 && ring < 15
  | .recordDeliver fn ring => fn < 32 && ring < 15
  | .ringModerationHoldoff fn ring => fn < 32 && ring < 15
  | .flr fn => fn < 32
  | .functionMasterEnable fn dstate _ => fn < 32 && dstate < 4
  | .vfDisable numVfs => numVfs ≤ 31
  | .ethRequest g => g.srcPort < 65536
  | .ethUpload g => g.srcPort < 65536
  | .ethFrameReceived _ => true
  | .pcieLinkChange _ speed width => speed ≤ 4 && width ≤ 4
  | .registerWrite w => w.wf
  | .tealLinkUp port => port < 2
  | .ethLinkChange port _ => port < 2
  | .dphyResyncDone port => port < 8
  | .sensorBusTransferDone status moved data => status.bus < 3 && status.status < 4 && moved ≤ 512 && data.length ≤ 256
  | .commandDmaFetchDone _ _ => true
  | .flashOperationDone _ => true
  | .groupFormTimeout => true
  | .resetDelayExpiry => true
  | .porstNAssert => true
  | .vfEnable numVfs => numVfs ≤ 31
  | .ptpMessageReceived m => m.wf
  | .encoderCountEdge d => d.ns < 40

end Sys2Proof
end

