-- ==== Sys2Proof/Decode.lean ====
section
/-! DEFINITION. Decoding by the opcode table: no row of spec/opcode_table.json gives bits (every row has `fields: []`),
so no word spells a command. Commands reach the block as operations, not as words. -/

namespace Sys2Proof

/-- The command that a word of `nbits` bits spells by the table: none, as no row gives bits. -/
def decodeTableWord (_nbits _w : Nat) : Option Instr := none

end Sys2Proof
end

