-- ==== Sys2Proof/Config.lean ====
section
/-! DEFINITION. What the spec leaves open: values that a step yields and no rule fixes.
Nothing here has a body, so no proof can lean on a value. -/

namespace Sys2Proof

/-- DESIGN CHOICE (log entry 5). The value drawn at counter `n` of `State.freeCtr`: the servo's frequency (02 R41),
physical timing errors (09 R177, R178), the nonce of DEBUG_CHALLENGE (18). -/
opaque Config.freeValue : Nat → BitVec 64

/-! ## Layer programs (08 R154: microcode that the spec does not give; log entry 22) -/

/-- An operand pair of a dot product: an input element by its index, and a weight with its format. -/
structure MacTerm where
  elem : Nat
  format : Nat
  weight : Int
  deriving DecidableEq, Repr, Inhabited

/-- The activation function of an epilogue; bounds are integers, or binary32 bits in a floating format. -/
inductive Activation where
  | identity
  | relu
  | clamp (lo hi : Int)
  | other (n : Nat)
  deriving DecidableEq, Repr, Inhabited

/-- An epilogue (08 R149): bias, activation function, requantisation by mult / 2^shift, rounded at an offset of round / 2^32
or, where `even` is set, to the nearest with halves to even. -/
structure Epilogue where
  bias : Int
  act : Activation
  mult : Nat
  shift : Nat
  round : BitVec 32
  even : Bool
  zp : Int
  /-- the format of the activation -/
  format : Nat
  deriving DecidableEq, Repr, Inhabited

/-- One output accumulator: its terms in reference order, the tile it lies on, its epilogue. -/
structure AccPlan where
  terms : List MacTerm
  tile : Nat
  epi : Epilogue
  deriving DecidableEq, Repr, Inhabited

/-- A layer as its program and weights make it. -/
structure LayerPlan where
  accs : List AccPlan
  /-- the elements of the layer's whole input that each member of a group takes (08 R162) -/
  takes : List (List Nat)
  deriving DecidableEq, Repr, Inhabited

/-- The plan of a layer of an op class and format from its program and its weights. -/
opaque Config.layerPlan : Nat → Nat → Bytes → Bytes → LayerPlan

/-- What a layer that is no dot product (ELEMENTWISE, POOL, NORM) makes of its input. -/
opaque Config.layerFunction : Nat → Nat → Bytes → Bytes → List Int → List Int

/-- An activation function that is none of identity, ReLU and clamp. -/
opaque Config.activation : Nat → Int → Int

/-- The distance of two elements of a floating format in input LSB (09 R174). -/
opaque Config.lsbDistance : Nat → Int → Int → Nat

/-! ## Other figures -/

/-- The fixed MAC pipeline latency of 02 R46 in ns; the spec gives no figure (log entry 11). -/
opaque Config.macPipelineNs : Nat

/-- The channel of a DRAM address (18 R348): the spec gives no interleave (log entry 25). -/
opaque Config.dramChannel : Nat → BitVec 2

/-- Bytes of the window state that a fusion rule of `n` inputs takes from the shared SRAM heap (01 R374): the spec gives no
size (log entry 21). -/
opaque Config.windowState : Nat → BitVec 16

/-- Bytes of pinned state that a binding to a model of `n` layers takes from the shared SRAM heap (01 R374, 08 INFER_BIND): the
spec gives no size (log entry 22). -/
opaque Config.bindState : Nat → BitVec 16

/-- The internal interrupt sources that Belrix or Denzewen services and so locks (15 R281): the spec lists none
(log entry 38). -/
opaque Config.lockedSource : Nat → Bool

end Sys2Proof
end

