-- ==== Sys2Proof/Machine/AMap.lean ====
section
/-! DEFINITION. Finite maps from numbers as sorted lists in one canonical form, so that equal maps are equal data. -/

namespace Sys2Proof.Machine

/-- A finite map: keys strictly rising. -/
abbrev AMap (α : Type) := List (Nat × α)

/-- The value at a key. -/
def AMap.get? {α : Type} : AMap α → Nat → Option α
  | [], _ => none
  | (k, v) :: m, i => if k = i then some v else AMap.get? m i

/-- The value at a key, or a default. -/
def AMap.getD {α : Type} (m : AMap α) (i : Nat) (d : α) : α := (m.get? i).getD d

/-- The map with a key set. -/
def AMap.set {α : Type} : AMap α → Nat → α → AMap α
  | [], i, v => [(i, v)]
  | (k, w) :: m, i, v =>
    if i < k then (i, v) :: (k, w) :: m
    else if i = k then (k, v) :: m
    else (k, w) :: AMap.set m i v

/-- The map without a key. -/
def AMap.erase {α : Type} : AMap α → Nat → AMap α
  | [], _ => []
  | (k, w) :: m, i => if k = i then m else (k, w) :: AMap.erase m i

/-- The map with a key set, or removed where the value is the default. -/
def AMap.put {α : Type} [DecidableEq α] (m : AMap α) (i : Nat) (v d : α) : AMap α :=
  if v = d then m.erase i else m.set i v

/-- Keys strictly rising. -/
def AMap.sorted {α : Type} : AMap α → Bool
  | [] => true
  | [_] => true
  | (k, _) :: (l, w) :: m => decide (k < l) && AMap.sorted ((l, w) :: m)

/-- No listed value is the default. -/
def AMap.sparse {α : Type} [DecidableEq α] (m : AMap α) (d : α) : Bool :=
  m.all fun e => decide (e.2 ≠ d)

/-- The canonical form of a sparse map with a default. -/
def AMap.wf {α : Type} [DecidableEq α] (m : AMap α) (d : α) : Bool := m.sorted && m.sparse d

end Sys2Proof.Machine
end

