-- ==== Sys2Proof/Machine/State.lean ====
section
/-! DEFINITION. The state of the FQ416 as plain data: the registers of every block, the memories, and what the
blocks hold that no register shows. Times are in ns of steady or farm time unless a comment says otherwise. -/

namespace Sys2Proof.Machine

/-- The machine stops with no fault: 00 R5, 'No behaviour of the device is left undefined.' -/
inductive Fault where
  deriving DecidableEq, Repr

/-- Refusals. -/
inductive Refusal where
  /-- Raised by the dispatch for a command that has no meaning yet. Safe: the machine stops. -/
  | notModelled (mnemonic : String)
  deriving DecidableEq, Repr

/-- Registers, by internal address (01 R15); an unlisted register holds its reset value (00 R8). -/
abbrev RegFile := AMap Word

/-- Byte memory; an unlisted byte reads as zero (DESIGN CHOICE, log entry 2). -/
abbrev Memory := List Host.Cell

/-- A stamp: farm time, epoch, steady time, and whether Amber counted as in holdover (02 R35, R33). -/
structure Stamp where
  sec : Nat
  ns : Nat
  epoch : BitVec 16
  steady : Nat
  holdover : Bool
  deriving DecidableEq, Repr

/-- A record: the common header of 01 R20 and the body from offset 0x20. -/
structure Rec where
  type : Nat
  ctx : Nat
  epoch : BitVec 16
  sec : Nat
  ns : Nat
  gen : BitVec 16
  age : Nat
  flags : Word
  mask : Word
  body : Bytes
  deriving DecidableEq, Repr

/-- Who formed a staged record: the staging buffer it occupies until it leaves for its ring or spill buffer. -/
inductive Producer where
  | ochre (port : Nat)
  | amber
  | cobalt
  | sepia
  | umber
  | viridian
  | indigo
  | sable
  | ivory
  | faults
  deriving DecidableEq, Repr

/-- A record staged for a ring (10 R206, R208). -/
structure Staged where
  fn : Nat
  ring : Nat
  prod : Producer
  recd : Rec
  deriving DecidableEq, Repr

/-- What has left the device on its links and pins. -/
inductive Out where
  /-- an MSI-X message of a function's vector (10 R209) -/
  | msix (fn vector : Nat)
  /-- a datagram of the Ethernet host path: kind, destination port, bytes (10 R210) -/
  | datagram (kind port : Nat) (bytes : Bytes)
  /-- an answer to ARP or to a neighbour solicitation -/
  | resolution
  /-- the frame of a PTP event message with its UDP checksum and FCS (02 R47) -/
  | ptp (port : Nat) (frame : Bytes)
  /-- a PTP general message that answers or follows: port, transport, kind, sequence, timestamp in 2^-8 ns -/
  | ptpReply (port transport : Nat) (kind : PtpKind) (seqId : Nat) (time : Int)
  /-- a message that a transparent clock forwards unchanged (02 R44) -/
  | ptpForward (port : Nat) (kind : PtpKind) (seqId : Nat)
  /-- an Announce of the device, or one that a transparent clock forwards: port, transport, sequence, what it says -/
  | announce (port transport seqId : Nat) (m : Announce)
  /-- a Teal frame sent on a port: source and destination member, low six bits of the sender's master ID, and the message
  that it completes (08 R160, 01 R29) -/
  | teal (port source dest id : Nat) (msg : Option TealMsg)
  /-- a PMBus write of VDD_IDG in mV (16 R316) -/
  | vout (mv : Nat)
  /-- a sensor-bus transfer: bus, target, SPI mode, clock in kHz, bytes written, bytes to read (03 R70) -/
  | sensor (bus target mode khz : Nat) (write : Bytes) (readLen : Nat)
  deriving DecidableEq, Repr

/-- An event in a port FIFO: its word (01 R25) and the whole stamp behind TS32. -/
structure Ev where
  word : BitVec 64
  stamp : Stamp
  deriving DecidableEq, Repr

/-- An open gap (03 R64, R65; 06 R125). -/
structure Gap where
  reason : Nat
  events : Nat
  bytes : Nat
  first : Stamp
  lastSteady : Nat
  /-- steady time of the opening or of the last CONTINUES record -/
  reportAt : Nat
  deriving DecidableEq, Repr

/-! ## Host interface (10) -/

/-- A request as latched (10 R194). -/
structure Cmd where
  path : Nat
  fn : Nat
  opcode : Nat
  flags : Nat
  seq : Word
  ctx : Nat
  reserved : Word
  paramLen : Nat
  block : Bytes
  /-- the DOORBELL value -/
  doorbell : Word
  /-- steady time of the latch -/
  latchedAt : Nat
  deriving DecidableEq, Repr

/-- A response (10 R195). -/
structure Resp where
  status : Nat
  detail : Nat
  gen : BitVec 16
  result : Bytes
  deriving DecidableEq, Repr

/-- How far a latched command has come (10 R193, R196, R197). -/
inductive Stage where
  /-- the PARAM_INDIRECT fetch is outstanding -/
  | fetch
  /-- the general checks passed; Belrix carries the command out next -/
  | ready
  /-- yielded on a DMA fetch, a flash operation, a sensor bus, the drain of a quiesce or the forming of a group -/
  | yielded
  /-- the data of the DMA fetch (none for an error) or the outcome of the flash operation has come -/
  | resumed (data : Option Bytes)
  /-- the response is formed and not yet posted -/
  | answered (r : Resp)
  deriving DecidableEq, Repr

/-- A latched command and how far it has come; abandoned by FLR or reset it posts nothing (10 R205). -/
structure Latch where
  cmd : Cmd
  stage : Stage
  abandoned : Bool
  /-- place among the commands latched on every path (10 R197) -/
  order : Nat
  deriving DecidableEq, Repr

/-- A generation-bearing command as staged: opcode, parameter block, fetched data (12 R234). -/
structure GCmd where
  opcode : Nat
  block : Bytes
  data : Bytes
  ctx : Nat
  /-- what it reserved: the DRAM of a stack, or the handle of a binding that INFER_BIND creates -/
  handle : Nat
  deriving DecidableEq, Repr

/-- An element of 12 R233: block 0 Ochre, 1 Cobalt, 2 Sepia, 3 Umber, 4 Viridian, 5 Indigo, and its number
(Cobalt: port p is p, stack s is 8 + s). -/
structure Elem where
  blk : Nat
  idx : Nat
  deriving DecidableEq, Repr

/-- A shadow armed at an element and not yet applied (12 R237). -/
structure Armed where
  ctx : Nat
  /-- the generation under which the element produces until it applies -/
  gen : BitVec 16
  elem : Elem
  cmds : List GCmd
  /-- steady time of the arming -/
  at_ : Nat
  deriving DecidableEq, Repr

/-- An open change set (12 R234, R236). -/
structure ChangeSet where
  base : BitVec 16
  stale : Bool
  staged : List GCmd
  deriving DecidableEq, Repr

/-- A pause of QUIESCE_COMMIT (12 R241, R242): T_p, the path that waits, the deadline, and drops by source:
key 0 to 7 event ports, 16 to 19 TDM ports, 32 to 39 derived channels. -/
structure Quiesce where
  tp : Stamp
  path : Nat
  deadline : Nat
  drops : AMap Nat
  deriving DecidableEq, Repr

/-- A context (10 R203, 12, 13 ACCESS_CTX_VIOLATIONS, 16 R312). -/
structure Ctx where
  fn : Nat
  gen : BitVec 16
  ring : Nat
  set : Option ChangeSet
  requireSet : Bool
  lastCommit : Nat
  /-- steady time of the last apply of each block, in the fixed order -/
  lastApply : List Nat
  delivered : Nat
  poisoned : Bool
  violations : Nat
  /-- guard, cause and address of the last denial -/
  lastViolation : Option (Nat × Nat × Nat)
  maxWake : Nat
  quiesce : Option Quiesce
  /-- a CTX_DESTROY that waits for the context's records: steady time of the teardown and the command's path (10 R204) -/
  closing : Option (Nat × Nat)
  deriving DecidableEq, Repr

/-- An MSI-X table entry (10 R190). -/
structure Msix where
  addr : BitVec 64
  data : Word
  masked : Bool
  deriving DecidableEq, Repr

/-- A function: PF is 0, VFn is n (10 R189 to R193). -/
structure Func where
  dState : Nat
  bme : Bool
  cmdArea : Bytes
  respArea : Bytes
  respValid : Bool
  dbIgnored : Bool
  respSeq : BitVec 16
  aperture : BitVec 64
  msixEnable : Bool
  msix : AMap Msix
  /-- messages held, one per vector (10 R189, R209) -/
  heldMsix : List Nat
  latch : Option Latch
  /-- commands that an FLR abandoned and that still run to their end, the oldest first (10 R205) -/
  orphans : List Latch
  /-- Function Mask of the MSI-X capability (10 R189, R205) -/
  funcMask : Bool
  /-- Uncorrectable Error Status of the AER capability (10 R188) -/
  aerStatus : Word
  deriving DecidableEq, Repr

/-- What a ring holds beside its registers (10 R208, R209). -/
structure Ring where
  /-- the record that waits (10 R208) -/
  held : Option Staged
  /-- the later records, in the spill buffer -/
  spill : List Staged
  waiting : Bool
  waitSince : Nat
  unsignalled : Nat
  oldestVisible : Nat
  deriving DecidableEq, Repr

/-- The Ethernet host path (10 R210 to R213). -/
structure EthHost where
  /-- the parameter block of the ETH_SET_HOST in force -/
  cfg : Bytes
  /-- sequence of the last executed request and its cached response -/
  last : Option (Word × Bytes)
  replyPort : Nat
  /-- dgram_seq of the next datagram sent, by kind -/
  seqs : AMap Word
  /-- internal address of the upload window in the DRAM heap -/
  uploadBase : Nat
  latch : Option Latch
  deriving DecidableEq, Repr

/-- An extent of a heap (01 R374): what holds it (a code of Ops) and its number. -/
structure Extent where
  base : Nat
  len : Nat
  ctx : Nat
  what : Nat
  idx : Nat
  deriving DecidableEq, Repr

/-- The host interface and what Belrix keeps for it. -/
structure HostIf where
  fns : AMap Func
  rings : AMap Ring
  ctxs : AMap Ctx
  staged : List Staged
  armed : List Armed
  eth : EthHost
  dram : List Extent
  sram : List Extent
  /-- commands latched so far, on every path (10 R197) -/
  latched : Nat
  deriving DecidableEq, Repr

/-! ## Boot, firmware, board (11, 19) -/

/-- NORMAL, RESTRICTED, OVERRIDDEN (11 R228, R229). -/
inductive Mode where
  | normal
  | restricted
  | overridden
  deriving DecidableEq, Repr

/-- What is soldered, fused and programmed (00 R2, 11 R220 to R224, 19 R356). -/
structure Board where
  gradeX : Bool
  serial : BitVec 64
  /-- installed DRAM in MiB -/
  dramMib : Nat
  /-- SHA-384 hash of the signing public key in OTP -/
  keyHash : Bytes
  /-- fuses blown of the rollback counter -/
  rollback : Nat
  /-- the two flash devices: FL_CS0 at 0, FL_CS1 at 2^32; an erased byte reads 0xFF and is not listed -/
  flash : List Host.Cell
  /-- persisted-settings sector: the ETH_SET_HOST block and the ECC choice -/
  ethSaved : Option Bytes
  eccSaved : Option Bool
  deriving DecidableEq, Repr

/-- A flash operation under way: ranges to erase, then bytes to program (11 R220). -/
structure FlashJob where
  erase : List (Nat × Nat)
  prog : List (Nat × Bytes)
  deriving DecidableEq, Repr

/-- Reset, boot and update state (11). -/
structure Sys where
  /-- PORST_N is low, or the voltage detector holds -/
  inPorst : Bool
  ready : Bool
  mode : Mode
  /-- 0 slot A, 1 slot B, 2 host load, 3 ROM (11 FW_GET_SLOTS) -/
  running : Nat
  belrix : Word
  denzewen : Word
  /-- pairs of the booted manifest -/
  pairs : List (Word × Word)
  bootMode : Nat
  verdicts : List Nat
  /-- slot of the open update session -/
  session : Option Nat
  flashJob : Option FlashJob
  /-- outcome of the flash operation that the waiting command takes up -/
  flashDone : Option Bool
  /-- Belrix, Denzewen and pairs of a set that FW_HOST_LOAD verified -/
  hostLoad : Option (Word × Word × List (Word × Word))
  /-- steady time of a warm reset armed by RESET -/
  resetAt : Option Nat
  dramTrained : Bool
  /-- after FAULT_N rises READY has risen once since PORST_N (19 R362) -/
  everReady : Bool
  /-- THERM_N driven low (16 R318) -/
  thermLow : Bool
  /-- PCIE_WAKE_N driven low (19 R369) -/
  wakeLow : Bool
  /-- the Ethernet links, up or not; the PCIe link is HIF_LINK (10 R214) -/
  ethLink : List Bool
  deriving DecidableEq, Repr

/-! ## Amber (02) -/

inductive TimeState where
  | freerun
  | locked
  | holdover
  deriving DecidableEq, Repr

/-- An anchor that waits for the end of its tick (02 R36, R37). -/
structure Anchor where
  wrap : Bool
  periodic : Bool
  step : Bool
  change : Bool
  prevSec : Nat
  prevEpoch : BitVec 16
  prevNs : Nat
  deriving DecidableEq, Repr

/-- A capture (02 R49). -/
structure Capture where
  stamp : Stamp
  edge : Edge
  deriving DecidableEq, Repr

/-- A foreign master (02 R41, R373). -/
structure Foreign where
  msg : Announce
  /-- steady times of its Announce messages inside the qualification window, newest first -/
  heard : List Nat
  deriving DecidableEq, Repr

/-- PTP delay measurement of a port (02 R46), with times in 2^-8 ns, and its state machine (02 R373). -/
structure PtpPort where
  /-- a two-step Sync waiting for its Follow_Up: sequence and ingress time -/
  sync : Option (Nat × Int)
  /-- a Delay_Req or Pdelay_Req sent: sequence and egress time -/
  sent : Option (Nat × Int)
  /-- a two-step Pdelay_Resp: sequence, its receipt timestamp and its ingress time -/
  presp : Option (Nat × Int × Int)
  /-- t2 - t1 of the last Sync -/
  msDiff : Int
  meanPath : Int
  /-- event messages that a transparent clock received here and has not forwarded: kind, sequence, ingress time -/
  transit : List (PtpKind × Nat × Int)
  /-- steady time since which the port listens without an Announce -/
  listenSince : Nat
  /-- steady time at which a port in PRE_MASTER becomes a master -/
  masterAt : Nat
  /-- steady time of the next Announce of a port that acts as master, and its sequence -/
  announceAt : Nat
  announceSeq : Nat
  deriving DecidableEq, Repr

/-- The Time Unit. -/
structure Amber where
  /-- steady time in 2^-16 ns -/
  steadyQ : Nat
  /-- farm time in 2^-16 ns -/
  farmQ : Nat
  epoch : BitVec 16
  state : TimeState
  /-- slew remainder in 2^-16 ns -/
  slewQ : Int
  /-- last offset applied by the servo, in ns -/
  lastOffset : Int
  /-- farm time in 2^-16 ns that the present tick holds but for a step on it -/
  heldQ : Nat
  /-- steady time of the last anchor -/
  lastAnchor : Nat
  /-- reasons gathered on the present tick -/
  anchor : Option Anchor
  /-- the anchor of the present tick has been staged -/
  anchored : Bool
  /-- a step was applied on the present tick, and the blocks have not closed what they hold open -/
  stepped : Bool
  snapArmed : Bool
  snapDue : Bool
  /-- AMB_STEP_CMD written, tick not yet reached -/
  stepArmed : Bool
  stepDue : Bool
  wrapDue : Bool
  slewDue : Bool
  /-- the second that farm time plus the offset crossed on the present tick -/
  ppsDue : Option Int
  /-- offset in ns that Belrix passes after a servo update, applied on the next tick -/
  servo : Option Int
  servoDue : Bool
  priority1 : Nat
  priority2 : Nat
  masters : List Foreign
  /-- the selected master: its identity and the port that hears it -/
  selected : Option (BitVec 64 × Nat)
  /-- steady time of the last Announce from the selected master -/
  lastAnnounce : Nat
  /-- steady time at which the Announce of a master that was dropped with its port or by a restart is overdue -/
  overdueAt : Option Nat
  ptp : AMap PtpPort
  /-- steady time of the last rising edge of PPS_IN since it became the reference -/
  ppsInLast : Option Nat
  ppsMisses : Nat
  ppsOut : Bool
  ppsFallAt : Nat
  /-- ranges of the integer seconds pulsed so far, newest first -/
  ppsSeen : List (Int × Int)
  /-- a second that a change of settings keeps from being crossed again -/
  ppsGuard : Option Int
  /-- settings of TIME_SET_PINS that wait for the next second: width register and offset register -/
  ppsNext : Option (Word × Word)
  caps : AMap (List Capture)
  deriving DecidableEq, Repr

/-! ## Ochre (03) -/

/-- A packet in a receive buffer: what is left of its payload, its T_pkt, the time field of its first event. -/
structure RxPkt where
  rest : Bytes
  stamp : Stamp
  timeFirst : Option Nat
  deriving DecidableEq, Repr

structure OchPort where
  i2c : Option (Nat × Nat)
  spiCs : Option Nat
  resync : Bool
  rx : List RxPkt
  fifo : List Ev
  /-- filter map: cell number to steady µs modulo 32,768 of a VALID entry (03 R61) -/
  map : AMap Nat
  gap : Option Gap
  postGap : Bool
  block : List Ev
  blockSeq : Word
  /-- steady time of the last block boundary or of the admission of the open block's first event -/
  timer : Nat
  silentSaid : Bool
  /-- admitted events in the present 1 ms window and its start -/
  active : Nat
  activeFrom : Nat
  deriving DecidableEq, Repr

structure Trigger where
  level : Bool
  /-- steady time of the next periodic edge -/
  next : Option Nat
  /-- fall of the present pulse, in half ns of steady time -/
  fallAt : Nat
  deriving DecidableEq, Repr

structure Ochre where
  ports : AMap OchPort
  trig : AMap Trigger
  lastGrant : Nat
  /-- events admitted to the FIFO of each port since reset, which EVENT_RATE samples (06 R112) -/
  admits : AMap Nat
  /-- anchor copies that wait for a block boundary of a context: context, stamp, body (03 R69) -/
  anchors : List (Nat × Stamp × Bytes)
  sbusTx : Bytes
  sbusRx : Bytes
  /-- transfers under way: by bus 0 I2C0, 1 I2C1, 2 SPI, the path of the SENSOR_XFER that waits, none for OCH_SBUS_GO -/
  sbusRuns : AMap (Option Nat)
  /-- xfer_status and bytes done of the last transfer of each bus, as OCH_SBUS_STATUS shows them -/
  sbusLast : AMap Word
  deriving DecidableEq, Repr

/-! ## Cobalt (04) -/

/-- A revolution stack being filled, closing or being copied, with the settings under which it started (04 R83 to R87). -/
structure StackRun where
  ctx : Nat
  winW : Nat
  winH : Nat
  winX0 : Nat
  winY0 : Nat
  shift : Nat
  /-- revolutions to cover -/
  span : Nat
  /-- half of the double buffer in DRAM, and the address of that half -/
  half : Nat
  base : Nat
  /-- host address of the first host buffer -/
  host : Nat
  /-- the map as the host DMA engine read it at the close -/
  map : Bytes
  n0 : Int
  revs : Nat
  events : Nat
  oldest : Nat
  startT : Nat
  closeStamp : Option Stamp
  closeAt : Nat
  mask : Word
  flags : Word
  epochs : List (BitVec 16)
  gen : BitVec 16
  mixed : Bool
  status : Nat
  deriving DecidableEq, Repr

structure StackDyn where
  cur : Option StackRun
  closing : Option StackRun
  /-- maps at their copy, oldest first: the host buffer, or none -/
  copying : List (StackRun × Option Nat)
  /-- host buffers free, least recently released first -/
  free : List Nat
  lateSaid : Bool
  /-- revolutions of the stacks already closed, newest first: from, and up to but not with -/
  done : List (Int × Int)
  deriving DecidableEq, Repr

structure Cobalt where
  inq : List Ev
  /-- encoder entries, newest first: steady time and unwrapped angle (04 R78) -/
  hist : List (Nat × Int)
  angleValid : Bool
  /-- quadrature counts since the Z index, or pulses -/
  count : Int
  sinceEntry : Nat
  zSeen : Bool
  maxRev : Option Int
  lastUpdate : Nat
  extrap : Bool
  /-- attitude samples since the IMU was set, newest first: steady time, roll, pitch, yaw in 2^-31 rad -/
  att : List (Nat × Int × Int × Int)
  rawGyro : List Int
  imuSilentSaid : Bool
  stks : AMap StackDyn
  /-- steady time of the last IMU_DRDY edge or of PROJ_SET_IMU -/
  imuAt : Nat
  /-- host buffer address of each stack, 8 bytes -/
  bufs : AMap Bytes
  /-- ports with a grid loaded -/
  gridLoaded : List Nat
  deriving DecidableEq, Repr

/-! ## Sepia (05) -/

/-- A projected event (05 Operation). -/
structure PEv where
  ev : Ev
  x : Nat
  y : Nat
  frame : Nat
  extrap : Bool
  att : Bool
  deriving DecidableEq, Repr

/-- A candidate in a queue (05 R95). -/
structure Cand where
  surface : Nat
  pev : PEv
  deriving DecidableEq, Repr

/-- An open CORNER_BATCH or FLOW_BATCH (05 R102). -/
structure Batch where
  first : Stamp
  oldest : Nat
  flags : Word
  mask : Word
  count : Nat
  entries : Bytes
  deriving DecidableEq, Repr

/-- A track (05 R99 to R101); x, y, vx, vy are binary32. -/
structure Track where
  id : Word
  surface : Nat
  state : Nat
  reason : Nat
  x : Word
  y : Word
  vx : Word
  vy : Word
  last : Stamp
  hits : Nat
  ticks : Nat
  age : Nat
  measured : Bool
  created : Nat
  /-- union over its measurements since the previous tick -/
  flags : Word
  mask : Word
  deriving DecidableEq, Repr

structure SurfDyn where
  /-- cells: plane * 2^22 + row * 2^11 + column to steady units modulo 32,768 of a VALID cell (05 R93) -/
  cells : AMap Nat
  used : Nat
  corner : Option Batch
  flow : Option Batch
  cornerSeq : Word
  flowSeq : Word
  cornerSkipped : Nat
  flowSkipped : Nat
  tests : Nat
  rejects : Nat
  /-- output frame of the lowest port when the surface was configured -/
  frame : Nat
  /-- steady time of the last apply, and whether the next tick is the first after it -/
  applied : Nat
  firstTick : Bool
  deriving DecidableEq, Repr

/-- A corner or an accepted flow vector, decided and not yet applied (05 R97, R98, R107). -/
inductive Meas where
  | corner (surface : Nat) (pev : PEv) (arc1 arc2 : Nat)
  | flow (surface : Nat) (pev : PEv) (vx vy res : Word) (points : Nat)
  deriving DecidableEq, Repr

structure Sepia where
  inq : List PEv
  cornerQ : List Cand
  flowQ : List Cand
  surfaces : AMap SurfDyn
  tracks : AMap Track
  /-- measurements that wait for the end of housekeeping, oldest first (05 R107) -/
  held : List Meas
  lastTick : Nat
  stalled : Bool
  /-- SEP_TICK_US staged by FEAT_SET_TICK -/
  tickNext : Option Word
  deriving DecidableEq, Repr

/-! ## Umber (06) -/

/-- A frame in an input buffer; `left` names the channels that have still to take their sample. -/
structure Frame where
  slots : List Int
  stamp : Stamp
  left : List Nat
  deriving DecidableEq, Repr

structure TdmPort where
  frames : List Frame
  lastFs : Option Nat
  intervals : List Nat
  silentSaid : Bool
  /-- steady time since which the port runs -/
  since : Nat
  gap : Option Gap
  /-- steady times of frames dropped or discarded, newest first, for INPUT_GAP of spans -/
  gapsAt : List Nat
  deriving DecidableEq, Repr

/-- An open FILTER_BLOCK (06 R124). -/
structure FBlock where
  first : Stamp
  oldest : Nat
  flags : Word
  fb : Nat
  samples : List Int
  openedAt : Nat
  deriving DecidableEq, Repr

structure Chan where
  /-- delay line of each stage, newest first -/
  lines : List (List Int)
  phases : List Nat
  m : Int
  /-- outputs of each RMS window, newest first: value, steady validity, flags -/
  rms : List (List (Int × Nat × Word))
  block : Option FBlock
  blockSeq : Word
  syncMark : Bool
  /-- the epochs of its inputs, newest first, each with the steady stamp of the last input before its first -/
  epochs : List (Nat × BitVec 16)
  /-- steady stamp of the last chain input, zero before the first, and what it was at the last apply -/
  lastIn : Nat
  applied : Nat
  queue : List (Int × Stamp)
  lastTick : Nat
  tickCount : Nat
  deriving DecidableEq, Repr

structure Band where
  line : List Int
  n : Nat
  energy : Nat
  peak : Nat
  seq : Word
  first : Nat
  mid : Option Stamp
  flags : Word
  deriving DecidableEq, Repr

/-- A reset of a sync group armed: its steady stamp, the enabled channels it has yet to reach, and whether it has been
counted (06 R118). -/
structure SyncReset where
  stamp : Nat
  left : List Nat
  counted : Bool
  deriving DecidableEq, Repr

/-- The resets a group still owes its channels, oldest first. -/
structure SyncGroup where
  resets : List SyncReset
  deriving DecidableEq, Repr

structure CoefSet where
  ctx : Nat
  base : Nat
  taps : Nat
  deriving DecidableEq, Repr

structure Umber where
  ports : AMap TdmPort
  chans : AMap Chan
  bands : AMap Band
  groups : AMap SyncGroup
  coefs : AMap CoefSet
  stopped : Bool
  deriving DecidableEq, Repr

/-! ## Viridian (07) -/

/-- A member (07 R131, R132). -/
structure Member where
  kind : Nat
  index : Nat
  key : Word
  fields : List Word
  time : Nat
  origin : Int
  stamp : Stamp
  flags : Word
  mask : Word
  gen : BitVec 16
  ctx : Nat
  surface : Nat
  /-- position in cells, binary32 -/
  px : Word
  py : Word
  /-- event coordinates, port, frame -/
  x : Nat
  y : Nat
  port : Nat
  frame : Nat
  deriving DecidableEq, Repr

/-- Incremental reduction of one input (07 R135). -/
structure Entry where
  count : Nat
  acc : Word
  oldest : Int
  deriving DecidableEq, Repr

/-- An open window, with the rule's registers under which it opened. -/
structure Win where
  openT : Nat
  endT : Nat
  seq : Word
  ctx : Nat
  gen : BitVec 16
  /-- the newest generation of the window and its members -/
  top : BitVec 16
  cfg : List Word
  /-- the output frame and the number of the map of an EVENT rule's configuration (07 R136) -/
  frame : Nat
  mapNo : Nat
  entries : List Entry
  flags : Word
  mask : Word
  epochs : List (BitVec 16)
  mixed : Bool
  newest : Option Member
  oldest : Option Member
  coinc : Nat
  gapMark : Bool
  /-- stamps at the middle and at the end, once reached -/
  midStamp : Option Stamp
  endStamp : Option Stamp
  deriving DecidableEq, Repr

structure RuleDyn where
  windows : List Win
  prevTrig : Bool
  seq : Word
  nextOpen : Nat
  firstOpen : Option Nat
  /-- output frame of the ports when an EVENT rule was configured, and the number of its map (07 R136) -/
  frame : Nat
  mapNo : Nat
  /-- spans of a TRIGGERED rule's closed windows, newest first (07 R134) -/
  closed : List (Nat × Nat)
  deriving DecidableEq, Repr

/-- An entry of a FUSED record before its age is known (07 R144). -/
structure FusedEntry where
  input : Nat
  reduce : Nat
  count : Nat
  value : Word
  oldest : Int
  key : Word
  deriving DecidableEq, Repr

/-- A closed window that is to be emitted (07 R143). -/
structure Fused where
  rule : Nat
  ctx : Nat
  level : Nat
  seq : Word
  openT : Nat
  endT : Nat
  score : Word
  outcome : Nat
  tov : Stamp
  oldest : Int
  entries : List FusedEntry
  flags : Word
  mask : Word
  gen : BitVec 16
  /-- sources whose gaps mark it -/
  gapSrcs : List Nat
  irq : Bool
  deriving DecidableEq, Repr

/-- A GAP record seen: its source (0 to 7 event ports, 16 to 19 TDM ports, 32 to 39 derived channels) and its steady span
(07 R141). -/
structure GapSpan where
  src : Nat
  first : Nat
  last : Nat
  deriving DecidableEq, Repr

structure Viridian where
  queue : List Member
  rules : AMap RuleDyn
  /-- co-registration map: (map number * 2^8 + rule) * 2^22 + y * 2^11 + x to port * 2^28 + µs of a VALID cell -/
  map : AMap Nat
  /-- closed windows not yet formed into records, in close order -/
  closing : List Fused
  gaps : List GapSpan
  waiting : Bool
  deriving DecidableEq, Repr

/-! ## Indigo and Teal (08, 09) -/

/-- A layer entry (08 R154). -/
structure Layer where
  op : Nat
  format : Nat
  mode : Byte
  placement : Nat
  home : Nat
  weightOff : Nat
  weightLen : Nat
  progOff : Nat
  progLen : Nat
  deriving DecidableEq, Repr

/-- A loaded model: its package header (08 R153), layers and extent. -/
structure Model where
  ctx : Nat
  header : Bytes
  layers : List Layer
  base : Nat
  len : Nat
  deriving DecidableEq, Repr

/-- One position of an input window: quantised elements, and what the result takes from it. -/
structure Position where
  elems : List Int
  stamp : Stamp
  origin : Int
  flags : Word
  mask : Word
  gen : BitVec 16
  deriving DecidableEq, Repr

/-- What a DELTA or DELTA_TRUNC layer keeps in activation SRAM (09 R172): its accumulators, which are the values before the
epilogue, and x_ref. -/
structure LayerMem where
  acc : List Int
  xref : List Int
  deriving DecidableEq, Repr

/-- What the layers of a run have made so far. -/
structure Calc where
  /-- the run's input and the activations of the layers done, one string of elements -/
  acts : List Int
  /-- what the last layer done answers by output_kind (08 R158) -/
  outs : List Int
  mem : AMap LayerMem
  /-- layers that fell back on saturation (09 R173) -/
  sats : Nat
  /-- MACs, the time that they take in units of 1/2,048 of a cycle, and absorbed product errors of each tile -/
  macs : AMap Nat
  load : AMap Nat
  absorbed : AMap Nat
  deriving DecidableEq, Repr

/-- A run of a group's binding on this member (08 R162, R163). -/
structure GroupRun where
  path : Nat
  work : Calc
  /-- input slices that have come: of the layers below this one -/
  slices : Nat
  /-- layers whose partial sums are formed -/
  formed : Nat
  /-- partial sums that wait at this member as home: layer, member, sums, in arrival order -/
  parts : List (Nat × Nat × List Int)
  /-- the outputs of the last layer, where member 0 has them -/
  done : Option (List Int)
  deriving DecidableEq, Repr

/-- A run: pending, waiting for admission, or in flight. -/
structure Run where
  binding : Nat
  window : List Position
  admitted : Bool
  /-- window boundaries waited through (16 R320) -/
  waited : Nat
  startT : Nat
  point : Nat
  path : Nat
  spec : Bool
  approx : Bool
  gen : BitVec 16
  /-- erring waves so far, in the record's replays field (09 R177) -/
  replays : Nat
  /-- waves of each tile that are past (09 R177) -/
  waves : AMap Nat
  /-- ns that each tile has stalled on weights through whole windows (08 R151) -/
  stalled : AMap Nat
  /-- tiles that have run undemoted at an S-point (09 R178) -/
  lively : BitVec 16
  deriving DecidableEq, Repr

/-- The last computed result, which SKIP reuses (09 R175). -/
structure Computed where
  tov : Stamp
  flags : Word
  oldest : Int
  outputs : List Word
  deriving DecidableEq, Repr

structure Bind where
  ctx : Nat
  cls : Nat
  model : Nat
  kind : Nat
  group : Nat
  source : Nat
  hop : Nat
  tiles : BitVec 16
  window : List Position
  sinceRun : Nat
  everFull : Bool
  overrun : Bool
  runSeq : Word
  modes : Bytes
  predEnable : Bool
  specAllow : Bool
  refreshK : Nat
  maxSkips : Nat
  evWeight : Nat
  l1Weight : Nat
  tSkip : Nat
  tDelta : Nat
  /-- input of the last run that was not SKIP -/
  lastInput : Option (List Int)
  sinceFull : Nat
  skips : Nat
  lastPath : Nat
  mustFull : Bool
  lastD : Nat
  maxD : Nat
  full : Nat
  delta : Nat
  skip : Nat
  satfall : Nat
  replays : Nat
  absorbed : Nat
  demotedRuns : Nat
  wsBytes : Nat
  lastDuration : Nat
  last : Option Computed
  deadline : Nat
  deadlineNext : Option Nat
  stopped : Bool
  poison : Bool
  /-- VERIFY in force for the binding (09 R184) -/
  verify : Bool
  /-- delta state of its layers (09 R172) -/
  layers : AMap LayerMem
  deriving DecidableEq, Repr

/-- An input that waits for a binding: RULE records and CHANNEL outputs. -/
structure BindIn where
  kind : Nat
  source : Nat
  ctx : Nat
  values : List Word
  stamp : Stamp
  origin : Int
  flags : Word
  mask : Word
  gen : BitVec 16
  deriving DecidableEq, Repr

structure Indigo where
  models : AMap Model
  binds : AMap Bind
  inq : List BindIn
  pendingRuns : List Run
  inflight : List Run
  /-- SPEC_EN staged for the next window boundary (09 APPROX_SET_SPECULATION) -/
  specNext : Option Bool
  replayNext : Option Nat
  windowAt : Nat
  /-- path that waits for GROUP_FORM, its deadline -/
  forming : Option (Nat × Nat)
  /-- group and size of the last forming frame of each member -/
  heard : AMap (Nat × Nat)
  /-- model_id and steady time of the last bind notice of each member (08 R163) -/
  bound : AMap (BitVec 64 × Nat)
  /-- paths whose INFER_BIND waits for the other members, and since when -/
  bindWait : AMap Nat
  retrainAt : AMap Nat
  /-- runs of the group's bindings -/
  group : AMap GroupRun
  /-- frames that wait for a link in training: port, source, destination, ID, message (08 R161) -/
  held : List (Nat × Nat × Nat × Nat × Option TealMsg)
  /-- frames sent, by which two links share the traffic (08 R160) -/
  sent : Nat
  deriving DecidableEq, Repr

/-! ## Slate (14) -/

/-- A descriptor (14 R261). -/
structure Desc where
  header : Word
  seq : Word
  addr : BitVec 64
  length : Word
  tag : Word
  arg : BitVec 64
  deriving DecidableEq, Repr

/-- A master's staging buffer (14 R262); `stalled` holds the header of a commit that waits (14 R264). -/
structure StageBuf where
  queue : Nat
  words : AMap Word
  stalled : Option Word
  deriving DecidableEq, Repr

/-- A combining block: the sums of the current round (the bits or the 40-bit sums) are in `acc`, the indices arrived and
the sums of the next round in `arrivedNext` and `accNext` (14 R272, R273). -/
structure Comb where
  acc : List Int
  arrivedNext : BitVec 64
  accNext : List Int
  /-- indices committed in the current and in the next round, for DUPLICATE -/
  seen : BitVec 64
  seenNext : BitVec 64
  /-- rounds whose result buffer is held -/
  held : List Nat
  /-- a completed round whose result waits, and its contributors -/
  result : Option (Nat × BitVec 64)
  deriving DecidableEq, Repr

structure Slate where
  queues : AMap (List Desc)
  staging : AMap StageBuf
  pop : AMap (Nat × Desc)
  landing : List (Nat × Desc)
  combs : AMap Comb
  roundsDone : Nat
  /-- a stall was told (source 320) since SLT_STALL_CYC was read, a saturation (source 322) since SLT_Cn_SAT was -/
  stallSaid : Bool
  satSaid : Bool
  deriving DecidableEq, Repr

/-! ## Carmine (15) -/

structure Src where
  count : Nat
  soft : Bool
  relayed : Bool
  active : Bool
  latched : Bool
  raw : Bool
  filtered : Bool
  /-- consecutive samples that agree against the filtered state -/
  run : Nat
  becameAt : Nat
  lastAt : Nat
  activeSince : Nat
  deriving DecidableEq, Repr

structure Target where
  /-- level and source, top first -/
  stack : List (Nat × Nat)
  prov : Option (Nat × Nat)
  orderPend : Bool
  /-- steady time of the last completion, whose exit window hands the target over (15 R291) -/
  exitAt : Option Nat
  deriving DecidableEq, Repr

structure Carmine where
  srcs : AMap Src
  tgts : AMap Target
  lastRelay : Nat
  deriving DecidableEq, Repr

/-! ## Ivory (16) -/

/-- A POWER_TRANSITION in progress (16 R307, R308, R325). -/
structure Transition where
  toState : Nat
  stamp : Stamp
  before : BitVec 16
  /-- domains still to take down, in order -/
  todo : List Nat
  pnr : Bool
  wake : Option Nat
  cause : Nat
  deriving DecidableEq, Repr

structure Ivory where
  /-- state: 0 RUN, 1 DOZE, 2 SENTINEL, 3 HIBERNATE -/
  state : Nat
  armedCeiling : Option Nat
  trans : Option Transition
  forced : Bool
  safetyOnly : Bool
  p0Removed : Bool
  /-- steady time of the last request to each domain -/
  lastUse : AMap Nat
  /-- domains at the drain, with the stamp at the gate's closing and the cause of 16 R325 -/
  draining : AMap (Stamp × Nat)
  wakeAfter : List Nat
  budgetNext : Option Bytes
  thermNext : Option Word
  windowAt : Nat
  /-- energy charged per class in this and in the previous window, µJ -/
  charged : List Nat
  prevCharged : List Nat
  /-- bindings charged in this and in the previous window -/
  runs : List Nat
  prevRuns : List Nat
  /-- point change that waits for the regulator: target point, mV, steady time of the PMBus write -/
  raising : Option (Nat × Nat × Nat)
  batteryZero : Bool
  /-- SHA-384 digest of the resume image (16 R311) -/
  resume : Option Bytes
  deriving DecidableEq, Repr

/-! ## Sable (17) -/

structure BatString where
  /-- charge in 2^-32 mA·ns (17 R332) -/
  q : Nat
  started : Bool
  quiet : Bool
  quietRun : Nat
  restSince : Option Nat
  rested : Bool
  lastSample : Option Stamp
  /-- samples of the last 10 s: steady time, Δt in ns, mA (binary32) -/
  window : List (Nat × Nat × Word)
  calSoc : Option Word
  calCharge : Int
  discharged : Nat
  ima : Word
  vmv : Word
  temp : Word
  level : Nat
  sflags : Nat
  /-- derating factor, FCC in mAh and remaining above reserve in mAh (binary32) -/
  derate : Word
  fcc : Word
  avail : Word
  atReserve : Bool
  next : Option Bytes
  tablesNext : Option Bytes
  levelsNext : Option Bytes
  socNext : Option Bytes
  deriving DecidableEq, Repr

structure Sable where
  strings : AMap BatString
  onBattery : Bool
  onCount : Nat
  offCount : Nat
  /-- reasons latched in HIBERNATE -/
  latched : Nat
  lastReport : Nat
  reportNext : Option Bytes
  /-- steady time until which self-test 7 pauses the sampling (18 R351) -/
  pausedTo : Nat
  deriving DecidableEq, Repr

/-! ## Faults (18) -/

/-- A FAULT record pending or formed (18 R345, R346). -/
structure FaultRec where
  cls : Nat
  unit : Nat
  master : Nat
  addr : Nat
  args : List Word
  count : Nat
  stamp : Stamp
  logged : Bool
  copyCtx : Option Nat
  seq : Word
  deriving DecidableEq, Repr

structure FaultPair where
  formedAt : Nat
  stagedAt : Nat
  pend : Option FaultRec
  deriving DecidableEq, Repr

structure FaultUnit where
  /-- by class * 1024 + unit -/
  pairs : AMap FaultPair
  /-- entries of the log in flash by log_seq (18 R347) -/
  log : AMap Bytes
  queue : List Bytes
  /-- drops not yet told by a LOG_OVERFLOW entry -/
  drops : Nat
  nonce : Option Bytes
  /-- denials at each guard since its last clear (13 ACCESS_GET_FAULTS) -/
  denied : AMap Nat
  deriving DecidableEq, Repr

/-! ## The whole machine -/

structure State where
  pending : List Instr
  regs : RegFile
  mem : Memory
  hostMem : Memory
  wire : List Out
  readData : Bytes
  readErr : Bool
  board : Board
  sys : Sys
  amber : Amber
  host : HostIf
  ochre : Ochre
  cobalt : Cobalt
  sepia : Sepia
  umber : Umber
  viridian : Viridian
  indigo : Indigo
  slate : Slate
  carmine : Carmine
  ivory : Ivory
  sable : Sable
  faults : FaultUnit
  freeCtr : Nat
  deriving DecidableEq, Repr

/-! ## Reset values -/

def Func.init : Func :=
  { dState := 0, bme := false, cmdArea := List.replicate 512 0, respArea := List.replicate 512 0,
    respValid := false, dbIgnored := false, respSeq := 0, aperture := 0, msixEnable := false,
    msix := [], heldMsix := [], latch := none, orphans := [], funcMask := false, aerStatus := 0 }

/-- 10 R205: a vector at its PCIe reset value: masked, address and data zero. -/
def Msix.init : Msix := { addr := 0, data := 0, masked := true }

def Ring.init : Ring :=
  { held := none, spill := [], waiting := false, waitSince := 0, unsignalled := 0, oldestVisible := 0 }

def EthHost.init : EthHost :=
  { cfg := [], last := none, replyPort := 0, seqs := [], uploadBase := 0,
    latch := none }

def HostIf.init : HostIf :=
  { fns := [], rings := [], ctxs := [], staged := [], armed := [], eth := EthHost.init, dram := [], sram := [], latched := 0 }

/-- DESIGN CHOICE (log entry 3): a bare board of grade I, 8 GiB of DRAM fitted, blank OTP and flash. -/
def Board.init : Board :=
  { gradeX := false, serial := 0, dramMib := 8192, keyHash := List.replicate 48 0, rollback := 0, flash := [],
    ethSaved := none, eccSaved := none }

def Sys.init : Sys :=
  { inPorst := true, ready := false, mode := .normal, running := 3, belrix := 0, denzewen := 0, pairs := [],
    bootMode := 0, verdicts := [0, 0], session := none, flashJob := none, flashDone := none, hostLoad := none, resetAt := none, dramTrained := false, everReady := false,
    thermLow := false, wakeLow := false, ethLink := [false, false] }

def PtpPort.init : PtpPort :=
  { sync := none, sent := none, presp := none, msDiff := 0, meanPath := 0, transit := [], listenSince := 0, masterAt := 0,
    announceAt := 0, announceSeq := 0 }

/-- 02 R34. -/
def Amber.init : Amber :=
  { steadyQ := 0, farmQ := 0, epoch := 0, state := .freerun, slewQ := 0, lastOffset := 0, heldQ := 0,
    lastAnchor := 0, anchor := none, anchored := false, stepped := false, snapArmed := false, snapDue := false, stepArmed := false, stepDue := false,
    wrapDue := false, slewDue := false, ppsDue := none, servo := none, servoDue := false, priority1 := 128,
    priority2 := 128, masters := [], selected := none, lastAnnounce := 0, overdueAt := none, ptp := [], ppsInLast := none,
    ppsMisses := 0, ppsOut := false, ppsFallAt := 0, ppsSeen := [], ppsGuard := none, ppsNext := none, caps := [] }

def OchPort.init : OchPort :=
  { i2c := none, spiCs := none, resync := false, rx := [], fifo := [], map := [], gap := none, postGap := false,
    block := [], blockSeq := 0, timer := 0, silentSaid := false, active := 0, activeFrom := 0 }

def Trigger.init : Trigger := { level := false, next := none, fallAt := 0 }

def Ochre.init : Ochre :=
  { ports := [], trig := [], lastGrant := 7, admits := [], anchors := [], sbusTx := [], sbusRx := [], sbusRuns := [],
    sbusLast := [] }

def StackDyn.init : StackDyn :=
  { cur := none, closing := none, copying := [], free := [], lateSaid := false, done := [] }

def Cobalt.init : Cobalt :=
  { inq := [], hist := [], angleValid := false, count := 0, sinceEntry := 0, zSeen := false, maxRev := none,
    lastUpdate := 0, extrap := false, att := [], rawGyro := [0, 0, 0], imuSilentSaid := false, stks := [],
    imuAt := 0, bufs := [], gridLoaded := [] }

def SurfDyn.init : SurfDyn :=
  { cells := [], used := 0, corner := none, flow := none, cornerSeq := 0, flowSeq := 0, cornerSkipped := 0,
    flowSkipped := 0, tests := 0, rejects := 0, frame := 0, applied := 0, firstTick := false }

def Sepia.init : Sepia :=
  { inq := [], cornerQ := [], flowQ := [], surfaces := [], tracks := [], held := [], lastTick := 0, stalled := false,
    tickNext := none }

def TdmPort.init : TdmPort :=
  { frames := [], lastFs := none, intervals := [], silentSaid := false, since := 0, gap := none, gapsAt := [] }

def Chan.init : Chan :=
  { lines := [[], [], [], []], phases := [0, 0, 0, 0], m := 0, rms := [[], []], block := none, blockSeq := 0, syncMark := false, epochs := [],
    lastIn := 0, applied := 0, queue := [], lastTick := 0, tickCount := 0 }

def Band.init : Band :=
  { line := [], n := 0, energy := 0, peak := 0, seq := 0, first := 0, mid := none, flags := 0 }

def SyncGroup.init : SyncGroup := { resets := [] }

def Umber.init : Umber :=
  { ports := [], chans := [], bands := [], groups := [], coefs := [], stopped := false }

def RuleDyn.init : RuleDyn :=
  { windows := [], prevTrig := false, seq := 0, nextOpen := 0, firstOpen := none, frame := 0, mapNo := 0, closed := [] }

def Viridian.init : Viridian :=
  { queue := [], rules := [], map := [], closing := [], gaps := [], waiting := false }

def Indigo.init : Indigo :=
  { models := [], binds := [], inq := [], pendingRuns := [], inflight := [], specNext := none, replayNext := none,
    windowAt := 0, forming := none, heard := [], bound := [], bindWait := [], retrainAt := [], group := [], held := [],
    sent := 0 }

def StageBuf.init : StageBuf := { queue := 0, words := [], stalled := none }

def Comb.init : Comb :=
  { acc := [], arrivedNext := 0, accNext := [], seen := 0, seenNext := 0, held := [], result := none }

def Slate.init : Slate :=
  { queues := [], staging := [], pop := [], landing := [], combs := [], roundsDone := 0, stallSaid := false,
    satSaid := false }

def Src.init : Src :=
  { count := 0, soft := false, relayed := false, active := false, latched := false, raw := false, filtered := false,
    run := 0, becameAt := 0, lastAt := 0, activeSince := 0 }

def Target.init : Target := { stack := [], prov := none, orderPend := false, exitAt := none }

def Carmine.init : Carmine := { srcs := [], tgts := [], lastRelay := 0 }

def Ivory.init : Ivory :=
  { state := 0, armedCeiling := none, trans := none, forced := false, safetyOnly := false,
    p0Removed := false, lastUse := [], draining := [], wakeAfter := [], budgetNext := none,
    thermNext := none, windowAt := 0, charged := [0, 0, 0, 0], prevCharged := [0, 0, 0, 0], runs := [],
    prevRuns := [], raising := none, batteryZero := false, resume := none }

def BatString.init : BatString :=
  { q := 0, started := false, quiet := true, quietRun := 0, restSince := none, rested := false,
    lastSample := none, window := [], calSoc := none, calCharge := 0, discharged := 0, ima := 0, vmv := 0, temp := 0,
    level := 0, sflags := 0, derate := 0, fcc := 0, avail := 0, atReserve := false, next := none, tablesNext := none,
    levelsNext := none, socNext := none }

def Sable.init : Sable :=
  { strings := [], onBattery := false, onCount := 0, offCount := 0, latched := 0, lastReport := 0,
    reportNext := none, pausedTo := 0 }

def FaultUnit.init : FaultUnit := { pairs := [], log := [], queue := [], drops := 0, nonce := none, denied := [] }

/-- The machine held in power-on reset (11 R219, 19 R369): every register at its Reset column (00 R8), every store
empty, time at 02 R34. PORST_N_RELEASE boots it (log entry 1). -/
def State.reset : State :=
  { pending := [], regs := [], mem := [], hostMem := [], wire := [], readData := [], readErr := false,
    board := Board.init, sys := Sys.init, amber := Amber.init, host := HostIf.init, ochre := Ochre.init,
    cobalt := Cobalt.init, sepia := Sepia.init, umber := Umber.init, viridian := Viridian.init,
    indigo := Indigo.init, slate := Slate.init, carmine := Carmine.init, ivory := Ivory.init, sable := Sable.init,
    faults := FaultUnit.init, freeCtr := 0 }

end Sys2Proof.Machine
end

