-- ==== Sys2Proof/Machine/Regs.lean ====
section
/-! DEFINITION. The register maps of every block: internal addresses, access codes (00 R8) and reset values, from the
register tables 02 R50, 03 R73, 04 R89, 05 R106, 06 R129, 07 R147, 08 R167 and R168, 09 R185, 10 R216, 13 R257, 14 R278,
15 R300, 16 R326, 17 R341 and 18 R353. An `n` in a name is the instance. -/

namespace Sys2Proof.Machine

/-- One register of a block: its offset in the block, the bits a write sets, the bits that a written 1 clears, the bits
that a read clears, and the reset value. Every other bit ignores writes (00 R8, R9). -/
structure RegDef where
  off : Nat
  rw : Word
  w1c : Word
  rc : Word
  rst : Word

/-- A register block and its repeats. -/
structure RegGroup where
  base : Nat
  stride : Nat
  count : Nat
  regs : List RegDef

/-- The definition of the register at offset `o` of a list. -/
def findReg (o : Nat) : List RegDef → Option RegDef
  | [] => none
  | d :: ds => if d.off = o then some d else findReg o ds

/-- The group and register at an address. -/
def findGroup (a : Nat) : List RegGroup → Option RegDef
  | [] => none
  | g :: gs =>
    if g.base ≤ a ∧ a < g.base + g.stride * g.count then
      match findReg ((a - g.base) % g.stride) g.regs with
      | some d => some d
      | none => findGroup a gs
    else findGroup a gs

/-- A read-only register. -/
def dRo (off : Nat) (rst : Word := 0) : RegDef := ⟨off, 0, 0, 0, rst⟩
/-- A read-write register. -/
def dRw (off : Nat) (mask : Word := 0xFFFFFFFF) (rst : Word := 0) : RegDef := ⟨off, mask, 0, 0, rst⟩
/-- A register of bits cleared by writing 1. -/
def dW1c (off : Nat) (mask : Word := 0xFFFFFFFF) : RegDef := ⟨off, 0, mask, 0, 0⟩
/-- A register cleared by reading. -/
def dRc (off : Nat) : RegDef := ⟨off, 0, 0, 0xFFFFFFFF, 0⟩

/-- Registers of the block at 0x20800000. -/
def gAmber : RegGroup := ⟨0x20800000, 0x1000000, 1,
  [dRw 0x0 0xFF1F, dRo 0x4, dRo 0x10, dRo 0x18, dRo 0x1C, dRo 0x20, dRo 0x28, dRo 0x2C,
   dRw 0x40 0xFFFFFFFF 0x280000, dRw 0x44, dRo 0x48, dRo 0x4C] ++
  [dRw 0x50 0xFFFFFFFF 0xF4240, dRw 0x54, dRw 0x58 0xFFFF, dRw 0x5C, dRo 0x60, dRo 0x64,
   dRw 0x70 0xFFFFFFFF 0x3B9ACA00, dRw 0x80 0xFFFFFFFF 0x186A0, dRw 0x84, dRw 0x88 0x3F 0x1, dRo 0x8C,
   dRo 0x90] ++
  [dRc 0x94, dRo 0x98, dRo 0x9C, dRc 0xA0, dRc 0xA4, dRc 0xC0, dRc 0xC4, dRc 0xC8, dRc 0xCC, dRc 0xA8, dRc 0xAC,
   dRc 0xD0] ++
  [dRc 0xD4, dRc 0xD8, dRc 0xDC, dRc 0xB0, dRc 0xB4, dRc 0xB8, dRc 0xBC, dRc 0xE0, dRc 0xE4, dRc 0xE8, dRc 0xEC,
   dW1c 0x200, dRw 0x204]⟩

/-- Registers of the block at 0x20800100, 2 of them 0x40 apart. -/
def gAmbPtp : RegGroup := ⟨0x20800100, 0x40, 2,
  [dRw 0x0, dRw 0x4, dRw 0x8, dRw 0xC 0x7FFF3FFF 0x70002600, dRw 0x10 0xF 0x8, dRo 0x14, dRo 0x18, dRo 0x1C,
   dRo 0x20, dRo 0x24 0x1]⟩

/-- Registers of the block at 0x20000000. -/
def gOchre : RegGroup := ⟨0x20000000, 0x1000000, 1,
  [dRw 0x0 0xFF, dRo 0x4, dW1c 0x40, dW1c 0x44, dRw 0x48, dRw 0x4C, dRw 0x100 0x3, dRw 0x104 0xFFFF377F,
   dRw 0x108 0x1FF01FF, dRo 0x10C, dRo 0x110, dRo 0x114]⟩

/-- Registers of the block at 0x20000800, 8 of them 0x20 apart. -/
def gOchTrig : RegGroup := ⟨0x20000800, 0x20, 8,
  [dRw 0x0 0x3, dRw 0x4, dRw 0x8 0xFFFF, dRw 0xC, dRw 0x10, dRw 0x14, dRo 0x18]⟩

/-- Registers of the block at 0x20001000, 8 of them 0x100 apart. -/
def gOchPort : RegGroup := ⟨0x20001000, 0x100, 8,
  [dRw 0x0 0xFFF0F11 0x9C40110, dRw 0x4 0x7FF 0x30, dRw 0x8 0xF3F0F3F 0xC0C0C00, dRw 0xC 0xF3F3F3F 0x2020,
   dRw 0x10 0x7FF07FF 0x7FF07FF, dRw 0x14 0xFFFFFFFF 0x3E80000, dRw 0x18 0x3FFF3FFF, dRw 0x1C 0x3FFF 0x400,
   dRw 0x20 0xFFFFFFFF 0x3E8, dRw 0x24, dRw 0x28, dRw 0x2C 0xFFFF 0xFFFF] ++
  [dRo 0x30 0x2, dRo 0x34, dRc 0x38, dRw 0x3C 0x3FFF 0x1800, dRo 0x40, dRo 0x44, dRo 0x48, dRo 0x4C, dRo 0x50,
   dRo 0x54, dRo 0x58, dRo 0x5C] ++
  [dRo 0x60, dRo 0x64, dRo 0x68, dRo 0x6C, dRo 0x70, dRo 0x74, dRo 0x78, dRo 0x80, dRo 0x84, dRo 0x88]⟩

/-- Registers of the block at 0x20008000, 2048 of them 0x4 apart. -/
def gOchHot : RegGroup := ⟨0x20008000, 0x4, 2048,
  [dRw 0x0 0x80FFFFFF]⟩

/-- Registers of the block at 0x20100000. -/
def gCobalt : RegGroup := ⟨0x20100000, 0x1000000, 1,
  [dRw 0x0 0xFF, dRo 0x4, dRw 0x10 0x3FF 0x100, dRw 0x14 0x1FFFFFF 0x4000, dRw 0x18 0xFFFFFFFF 0x64000F,
   dRw 0x1C 0x1FF 0x31, dRw 0x20, dRo 0x30, dRo 0x34, dRo 0x38, dRo 0x3C, dRo 0x40] ++
  [dRo 0x44, dRo 0x48, dRo 0x4C, dRo 0x50, dRo 0x54, dRo 0x58, dRo 0x5C, dRw 0x80 0x3FFF3F 0x60008,
   dRw 0x84 0x9F9F9F, dRw 0x88, dRw 0x8C 0x1FFFFFFF 0x3C, dRo 0x90] ++
  [dRo 0x94, dRo 0x98, dRo 0x9C, dRo 0xA0, dRc 0xA4, dRo 0xA8, dRo 0xAC, dRw 0xB0, dRw 0xB4, dRw 0xB8, dRw 0xC0,
   dRw 0xC4] ++
  [dRw 0xC8, dRw 0xCC 0xFFFFFFFF 0x40000000, dRw 0xD0, dRw 0xD4, dRw 0xD8, dRw 0xDC,
   dRw 0xE0 0xFFFFFFFF 0x40000000, dW1c 0xF0, dRw 0xF4]⟩

/-- Registers of the block at 0x20101000, 8 of them 0x100 apart. -/
def gCobPort : RegGroup := ⟨0x20101000, 0x100, 8,
  [dRw 0x0 0x77 0x40, dRw 0x4 0xFFFF, dRw 0x8 0x1FF01FF, dRw 0x10 0xFFFFFFFF 0x40000000, dRw 0x14, dRw 0x18,
   dRw 0x1C, dRw 0x20 0xFFFFFFFF 0x40000000, dRw 0x24, dRw 0x28, dRw 0x2C, dRw 0x30 0xFFFFFFFF 0x40000000] ++
  [dRw 0x34, dRw 0x38, dRw 0x3C, dRw 0x40, dRw 0x44, dRw 0x48, dRw 0x4C, dRw 0x50, dRw 0x54, dRw 0x58, dRw 0x5C,
   dRw 0x60] ++
  [dRw 0x64, dRw 0x68, dRw 0x6C 0xFFFFFFFF 0x1, dRw 0x70 0xFFFFFFFF 0x1, dRw 0x74, dRo 0x80, dRo 0x84, dRo 0x88,
   dRo 0x8C, dRo 0x90]⟩

/-- Registers of the block at 0x20102000, 16 of them 0x40 apart. -/
def gCobStack : RegGroup := ⟨0x20102000, 0x40, 16,
  [dRw 0x0 0xFFFFF01, dRw 0x4 0x7FF07FF, dRw 0x8 0x7FF07FF, dRw 0xC 0xFFFF 0xFFFF, dRw 0x10, dRw 0x14,
   dRw 0x18 0x3FFF 0x1F4, dRo 0x1C, dRo 0x20, dRo 0x24, dRo 0x28, dRo 0x2C]⟩

/-- Registers of the block at 0x20180000, 131072 of them 0x4 apart. -/
def gCobGrid : RegGroup := ⟨0x20180000, 0x4, 131072,
  [dRw 0x0]⟩

/-- Registers of the block at 0x20200000. -/
def gSepia : RegGroup := ⟨0x20200000, 0x1000000, 1,
  [dRw 0x0 0xFFFF, dRw 0x4 0x3FFF 0x3E8, dRo 0x8, dRo 0xC 0xB8, dRo 0x10, dRo 0x14, dRc 0x20, dRc 0x24, dRc 0x28,
   dRc 0x2C, dRo 0x30, dRo 0x34] ++
  [dW1c 0x40, dRw 0x44]⟩

/-- Registers of the block at 0x20201000, 16 of them 0x80 apart. -/
def gSepSurf : RegGroup := ⟨0x20201000, 0x80, 16,
  [dRw 0x0 0xFF077F, dRw 0x4 0x7FF07FF 0x7FF07FF, dRw 0x8 0xFFFF 0xFFFF, dRo 0xC, dRw 0x10 0xFFFFFFF7 0x20125742,
   dRw 0x14 0xFFFFFF 0x4E2088, dRw 0x18 0xFFF 0x200, dRw 0x1C 0xFFFFFFFF 0x437A0000,
   dRw 0x20 0xFFFFFFFF 0x47C35000, dRw 0x24 0xFFFFF7 0x140A30, dRw 0x28 0xFFFFFFFF 0x41000000,
   dRw 0x2C 0xFFFFFFFF 0x40000000] ++
  [dRw 0x30 0xFFFFFFFF 0x20008000, dRw 0x34 0xFFFF 0x4000, dRw 0x38 0x1FFF, dRo 0x40, dRo 0x44, dRo 0x48,
   dRo 0x4C, dRo 0x50, dRo 0x54, dRo 0x58, dRo 0x5C, dRo 0x60]⟩

/-- Registers of the block at 0x20300000. -/
def gUmber : RegGroup := ⟨0x20300000, 0x1000000, 1,
  [dRw 0x0 0xF, dRo 0x4, dRo 0x8 0x8000, dRc 0xC, dRw 0x10 0x3, dRw 0x14, dRw 0x18 0xFF, dRo 0x1C, dRo 0x20,
   dRo 0x24, dRo 0x28, dW1c 0x30] ++
  [dW1c 0x34, dW1c 0x38, dW1c 0x3C, dW1c 0x40, dW1c 0x44, dRw 0x48, dRw 0x4C]⟩

/-- Registers of the block at 0x20300100, 4 of them 0x40 apart. -/
def gUmbPort : RegGroup := ⟨0x20300100, 0x40, 4,
  [dRw 0x0 0x3FB 0x178, dRw 0x4 0x3FFFF 0xBB80, dRw 0x8 0xFF, dRw 0xC 0xFFFFF, dRo 0x10, dRo 0x14, dRo 0x18,
   dRo 0x1C, dRo 0x20, dRo 0x24, dRo 0x28, ⟨0x2C, 0x0, 0x0, 0x7F00, 0x0⟩]⟩

/-- Registers of the block at 0x20301000, 40 of them 0x80 apart. -/
def gUmbChan : RegGroup := ⟨0x20301000, 0x80, 40,
  [dRw 0x0 0xFFFF007F 0xFFFF0000, dRw 0x4 0x3FFF3FFF 0x640400, dRw 0x8 0xFFFFFF77, dRw 0x10 0x1F07FFFF 0x10000000,
   dRo 0x14, dRw 0x18 0x1F07FFFF 0x10000000, dRo 0x1C, dRw 0x20 0x1F07FFFF 0x10000000, dRo 0x24,
   dRw 0x28 0x1F07FFFF 0x10000000, dRo 0x2C, dRw 0x30 0x1F3F 0x1000] ++
  [dRo 0x34, dRo 0x38, dRw 0x40 0x1F03, dRw 0x44, dRw 0x48, dRw 0x4C 0x1F03, dRw 0x50, dRw 0x54, dRo 0x58,
   dRo 0x5C, dRo 0x60, dRo 0x64]⟩

/-- Registers of the block at 0x20304000, 64 of them 0x20 apart. -/
def gUmbBand : RegGroup := ⟨0x20304000, 0x20, 64,
  [dRw 0x0 0x1F077F, dRw 0x4 0xFFFF, dRw 0x8 0x1FFFF 0x1, dRw 0xC 0xFFFF 0xFFFF]⟩

/-- Registers of the block at 0x20380000, 32768 of them 0x4 apart. -/
def gUmbCoef : RegGroup := ⟨0x20380000, 0x4, 32768,
  [dRw 0x0 0x3FFFF]⟩

/-- Registers of the block at 0x20400000. -/
def gViridian : RegGroup := ⟨0x20400000, 0x1000000, 1,
  [dRo 0x0, dRo 0x4, dRo 0x8, dRo 0xC, dRo 0x10, dRo 0x14, dRo 0x18, dRo 0x1C, dRo 0x20 0x10000, dRo 0x24,
   dRc 0x28, dRc 0x2C] ++
  [dRc 0x30, dW1c 0x40, dRw 0x44]⟩

/-- Registers of the block at 0x20401000, 256 of them 0x100 apart. -/
def gVirRule : RegGroup := ⟨0x20401000, 0x100, 256,
  [dRw 0x0 0x1FFFF, dRw 0x4, dRw 0x8, dRw 0xC, dRw 0x10, dRw 0x14, dRw 0x18, dRw 0x1C 0x3FFF, dRw 0x20 0x7FF07FF,
   dRw 0x24 0x7FF07FF, dRw 0x28 0xFFFF 0xFFFF, dRo 0x2C] ++
  [dRw 0x40, dRw 0x44, dRw 0x48, dRw 0x4C, dRw 0x50, dRw 0x54, dRw 0x58, dRw 0x5C, dRw 0x60, dRw 0x64, dRw 0x68,
   dRw 0x6C] ++
  [dRw 0x70, dRw 0x74, dRw 0x78, dRw 0x7C, dRw 0x80, dRw 0x84, dRw 0x88, dRw 0x8C, dRw 0x90, dRw 0x94, dRw 0x98,
   dRw 0x9C] ++
  [dRw 0xA0, dRw 0xA4, dRw 0xA8, dRw 0xAC, dRw 0xB0, dRw 0xB4, dRw 0xB8, dRw 0xBC, dRo 0xC0, dRo 0xC4, dRo 0xC8,
   dRo 0xCC] ++
  [dRo 0xD0, dRo 0xD4, dRo 0xD8, dRo 0xDC, dRo 0xE0, dRo 0xE4, dRo 0xE8, dRo 0xEC, dRo 0xF0]⟩

/-- Registers of the block at 0x20500000. -/
def gIndigo : RegGroup := ⟨0x20500000, 0x1000000, 1,
  [dRo 0x0, dRo 0x4, dRo 0x8, dRo 0xC, dRo 0x10, dW1c 0x40, dW1c 0x44, dRw 0x48, dRw 0x4C, dRw 0x8000 0x3,
   dRw 0x8004 0x3FFF 0xC8, dRo 0x8008] ++
  [dRo 0x800C, dRw 0x8400 0x1FF, dRo 0x8404, dRo 0x8408, dRo 0x840C, dRo 0x8410, dRo 0x8414, dRo 0x8418,
   dRo 0x841C, dRo 0x8420, dRo 0x8424, dRo 0x8428] ++
  [dRo 0x842C]⟩

/-- Registers of the block at 0x20500100, 16 of them 0x40 apart. -/
def gIdgTile : RegGroup := ⟨0x20500100, 0x40, 16,
  [dRo 0x0, dRo 0x4, dRo 0x8, dRo 0xC, dRo 0x10, dRo 0x14, dRc 0x18, dRo 0x1C]⟩

/-- Registers of the block at 0x20501040, 256 of them 0x40 apart. -/
def gIdgBind : RegGroup := ⟨0x20501040, 0x40, 256,
  [dRo 0x0, dRo 0x4, dRo 0x8, dRo 0xC, dRo 0x10, dRo 0x14, dRo 0x18, dRo 0x1C, dRo 0x20, dRo 0x24]⟩

/-- Registers of the block at 0x20508100, 16 of them 0x20 apart. -/
def gIdgApxTile : RegGroup := ⟨0x20508100, 0x20, 16,
  [dRo 0x0, dRo 0x4, dRo 0x8, dRc 0xC, dRc 0x10, dRc 0x14, dRo 0x18, dRo 0x1C]⟩

/-- Registers of the block at 0x20B00000. -/
def gTeal : RegGroup := ⟨0x20B00000, 0x1000000, 1,
  [dRo 0x0, dRo 0x4, dRo 0x8, dW1c 0x40, dRw 0x44]⟩

/-- Registers of the block at 0x20B00100, 2 of them 0x40 apart. -/
def gTealPort : RegGroup := ⟨0x20B00100, 0x40, 2,
  [dRo 0x0, dRc 0x4, dRc 0x8, dRc 0xC, dRo 0x10, dRo 0x14, dRo 0x18, dRo 0x1C, dRo 0x20, dRo 0x24]⟩

/-- Registers of the block at 0x20C00000. -/
def gHif : RegGroup := ⟨0x20C00000, 0x1000000, 1,
  [dRo 0x0, dRo 0x4, dRo 0x8, dRo 0xC, dRo 0x10, dRo 0x14, dW1c 0x40, dRw 0x44, dRo 0xC000, dRo 0xC004, dRo 0xC008,
   dRo 0xC00C] ++
  [dRo 0xC010, dRo 0xC014, dRo 0xC018]⟩

/-- Registers of the block at 0x20C01000, 32 of them 0x40 apart. -/
def gHifFn : RegGroup := ⟨0x20C01000, 0x40, 32,
  [dRo 0x0, dRo 0x4, dRo 0x8, dRo 0xC, dRw 0x10 0x7FF 0x20, dRo 0x14, dRo 0x18, dRo 0x1C]⟩

/-- Registers of the block at 0x20C04000, 480 of them 0x40 apart. -/
def gHifRing : RegGroup := ⟨0x20C04000, 0x40, 480,
  [dRw 0x0, dRw 0x4, dRw 0x8 0x31F, dRo 0xC, dRo 0x10, dRw 0x14, dRw 0x18, dRw 0x1C 0xFFFFFFFF 0x1, dRw 0x20 0x3F,
   dRw 0x24 0x1FFFF 0x400, dRo 0x28, dRo 0x2C] ++
  [dRo 0x30, dRo 0x34]⟩

/-- Registers of the block at 0x20600000. -/
def gSlate : RegGroup := ⟨0x20600000, 0x1000000, 1,
  [dRo 0x0, dRo 0x4, dRo 0x8, dRo 0x10, dRo 0x14, dRo 0x18, dRo 0x1C, dRc 0x20, dRo 0x24, dW1c 0x28 0x10, dRo 0x2C,
   dRo 0x30] ++
  [dRo 0x34, dW1c 0x40, dW1c 0x44, dRw 0x48, dRw 0x4C]⟩

/-- Registers of the block at 0x20604000, 256 of them 0x40 apart. -/
def gSltComb : RegGroup := ⟨0x20604000, 0x40, 256,
  [dRw 0x0 0xFFF07FF, dRw 0x4 0x1FFF 0x1, dRw 0x8, dRw 0xC, dRo 0x10, dRo 0x14, dRo 0x18, dRo 0x1C, dRo 0x20,
   dRo 0x24, dRc 0x28, dRo 0x2C] ++
  [dRw 0x30 0xFFFF]⟩

/-- Registers of the block at 0x20620000, 4096 of them 0x20 apart. -/
def gSltHead : RegGroup := ⟨0x20620000, 0x20, 4096,
  [dRo 0x0, dRo 0x4, dRo 0x8, dRo 0xC, dRo 0x10, dRo 0x14, dRo 0x18, dRo 0x1C]⟩

/-- Registers of the block at 0x20640000, 4096 of them 0x40 apart. -/
def gSltQueue : RegGroup := ⟨0x20640000, 0x40, 4096,
  [dRw 0x0 0xFFFF3FFF 0xFFFF0020, dRw 0x4 0xFFFFFFE0, dRw 0x8 0xFF00FF, dRw 0xC 0xFFFFFFF8, dRw 0x10 0xFF,
   dRw 0x14 0x1FFF 0x1, dRo 0x18, dRo 0x1C, dRo 0x20, dRo 0x24, dRo 0x28, dRc 0x2C] ++
  [dRo 0x30, dRo 0x34, dRo 0x38]⟩

/-- Registers of the block at 0x20680000, 4096 of them 0x40 apart. -/
def gSltSend : RegGroup := ⟨0x20680000, 0x40, 4096,
  [dRo 0x0, dRo 0x4, dRo 0x8, dRo 0xC, dRo 0x10, dRo 0x14, dRo 0x18, dRo 0x1C, dRo 0x20]⟩

/-- Registers of the block at 0x206C0000, 4096 of them 0x40 apart. -/
def gSltPop : RegGroup := ⟨0x206C0000, 0x40, 4096,
  [dRo 0x0, dRo 0x4, dRo 0x8, dRo 0xC, dRo 0x10, dRo 0x14, dRo 0x18, dRo 0x1C]⟩

/-- Registers of the block at 0x20700000. -/
def gCarmine : RegGroup := ⟨0x20700000, 0x1000000, 1,
  [dRo 0x10, dRo 0x100, dRo 0x104, dRo 0x108, dRo 0x10C, dRo 0x110, dRo 0x114, dRo 0x118, dRo 0x11C, dRo 0x120,
   dRo 0x124, dRo 0x128] ++
  [dRo 0x12C, dRo 0x130, dRo 0x134, dRo 0x138, dRo 0x13C, dRo 0x140, dRo 0x180, dRo 0x184, dRo 0x188, dRo 0x18C,
   dRo 0x190, dRo 0x194] ++
  [dRo 0x198, dRo 0x19C, dRo 0x1A0, dRo 0x1A4, dRo 0x1A8, dRo 0x1AC, dRo 0x1B0, dRo 0x1B4, dRo 0x1B8, dRo 0x1BC,
   dRo 0x1C0, dRo 0x200] ++
  [dRo 0x204, dRo 0x208, dRo 0x20C, dRo 0x210, dRo 0x214, dRo 0x218, dRo 0x21C, dRo 0x220, dRo 0x224, dRo 0x228,
   dRo 0x22C, dRo 0x230] ++
  [dRo 0x234, dRo 0x238, dRo 0x23C, dRo 0x240, dRo 0x2A8]⟩

/-- Registers of the block at 0x20700400, 6 of them 0x40 apart. -/
def gCarmTgt : RegGroup := ⟨0x20700400, 0x40, 6,
  [dRo 0x0, dRo 0x4, dRw 0x8 0x1, dRo 0xC, dRo 0x10, dW1c 0x14 0x10000, dRo 0x18, dRo 0x1C, dRo 0x20, dRo 0x24]⟩

/-- Registers of the block at 0x20701000, 544 of them 0x10 apart. -/
def gCarmSrc : RegGroup := ⟨0x20701000, 0x10, 544,
  [dRw 0x0 0xFFFF1FFF 0x1000FF0, dRw 0x4 0x3F1FFFFF, dRo 0x8, dRo 0xC]⟩

/-- Registers of the block at 0x20704000, 544 of them 0x4 apart. -/
def gCarmUs : RegGroup := ⟨0x20704000, 0x4, 544,
  [dRo 0x0]⟩

/-- Registers of the block at 0x20900000. -/
def gIvory : RegGroup := ⟨0x20900000, 0x1000000, 1,
  [dRo 0x0, dRo 0x4 0x7007, dRo 0x8, dRo 0xC, dRw 0x10 0x3FFF0017 0x320010, dRw 0x14, dRw 0x18, dRw 0x1C,
   dRo 0x20 0xFFFFFFFF, dRo 0x24, dRw 0x28 0xFFFFFF 0x786E64, dRw 0x2C] ++
  [dRw 0x30 0xFFFFFFFF 0xE10, dRw 0x34, dRw 0x38 0xFFFFFF7F 0xFF50, dRw 0x3C 0xFF, dW1c 0x40, dRw 0x44, dRo 0x50,
   dRo 0x54, dRo 0x58, dRo 0x60, dRo 0x64, dRo 0x68] ++
  [dRo 0x6C, dRw 0x70 0xFF017F 0x60, dRo 0x74, dRo 0x100, dRo 0x104, dRo 0x108, dRo 0x10C, dRo 0x110, dRo 0x114,
   dRo 0x118, dRo 0x11C, dRo 0x140] ++
  [dRo 0x144, dRo 0x148, dRo 0x14C, dRo 0x150, dRo 0x154, dRo 0x158, dRo 0x15C, dRo 0x160, dRo 0x164, dRo 0x168,
   dRo 0x16C, dRo 0x170] ++
  [dRo 0x174, dRo 0x178, dRo 0x17C]⟩

/-- Registers of the block at 0x20900200, 16 of them 0x8 apart. -/
def gIvrDom : RegGroup := ⟨0x20900200, 0x8, 16,
  [dRw 0x0 0xFFFFFF03, dRc 0x4]⟩

/-- Registers of the block at 0x20A00000. -/
def gSable : RegGroup := ⟨0x20A00000, 0x1000000, 1,
  [dRw 0x0 0xFF, dRw 0x4 0xFFFFF 0x7D0, dRw 0x8 0xFFF 0x3C, dRo 0xC, dW1c 0x40, dRw 0x44]⟩

/-- Registers of the block at 0x20A00100, 4 of them 0x80 apart. -/
def gSblStr : RegGroup := ⟨0x20A00100, 0x80, 4,
  [dRw 0x0 0xFF01, dRw 0x4, dRw 0x8 0xFFFFFFFF 0x10000, dRw 0xC, dRw 0x10 0xFFFFFFFF 0x1F4,
   dRw 0x14 0xFFFFFFFF 0x708, dRw 0x18, dRw 0x1C, dRw 0x20 0xFFFFFFFF 0x2050F1E, dRw 0x24 0x3FFFFF 0xF0BB8,
   dRo 0x28, dRo 0x2C] ++
  [dRo 0x30, dRo 0x34, dRo 0x38, dRo 0x3C, dRo 0x40, dRo 0x44, dRo 0x48, dRo 0x4C, dRo 0x50, dRo 0x54]⟩

/-- Registers of the block at 0x20A01000, 4 of them 0x200 apart. -/
def gSblTab : RegGroup := ⟨0x20A01000, 0x200, 4,
  [dRw 0x0, dRw 0x4, dRw 0x8, dRw 0xC, dRw 0x10, dRw 0x14, dRw 0x18, dRw 0x1C, dRw 0x20, dRw 0x24, dRw 0x28,
   dRw 0x2C] ++
  [dRw 0x30, dRw 0x34, dRw 0x38, dRw 0x3C, dRw 0x40, dRw 0x44, dRw 0x48, dRw 0x4C, dRw 0x50, dRw 0x54, dRw 0x58,
   dRw 0x5C] ++
  [dRw 0x60, dRw 0x64, dRw 0x68, dRw 0x6C, dRw 0x70, dRw 0x74, dRw 0x78, dRw 0x7C, dRw 0x80, dRw 0x84, dRw 0x88,
   dRw 0x8C] ++
  [dRw 0x90, dRw 0x94, dRw 0x98, dRw 0x9C, dRw 0xA0, dRw 0xA4, dRw 0xA8, dRw 0xAC, dRw 0xB0, dRw 0xB4, dRw 0xB8,
   dRw 0xBC] ++
  [dRw 0xC0, dRw 0xC4, dRw 0xC8, dRw 0xCC, dRw 0xD0, dRw 0xD4, dRw 0xD8, dRw 0xDC, dRw 0xE0, dRw 0xE4, dRw 0xE8,
   dRw 0xEC] ++
  [dRw 0xF0, dRw 0xF4, dRw 0xF8, dRw 0xFC, dRw 0x100, dRw 0x104, dRw 0x108, dRw 0x10C, dRw 0x110, dRw 0x114,
   dRw 0x118, dRw 0x11C] ++
  [dRw 0x120, dRw 0x124, dRw 0x128, dRw 0x12C, dRw 0x130, dRw 0x134, dRw 0x138, dRw 0x13C, dRw 0x140, dRw 0x144,
   dRw 0x148, dRw 0x14C] ++
  [dRw 0x150, dRw 0x154, dRw 0x158, dRw 0x15C, dRw 0x160, dRw 0x164, dRw 0x168, dRw 0x16C, dRw 0x170, dRw 0x174,
   dRw 0x178, dRw 0x17C] ++
  [dRw 0x180, dRw 0x184, dRw 0x188, dRw 0x18C, dRw 0x190, dRw 0x194, dRw 0x198, dRw 0x19C, dRw 0x1A0, dRw 0x1A4,
   dRw 0x1A8, dRw 0x1AC] ++
  [dRw 0x1B0, dRw 0x1B4, dRw 0x1B8, dRw 0x1BC, dRw 0x1C0, dRw 0x1C4, dRw 0x1C8, dRw 0x1CC, dRw 0x1D0, dRw 0x1D4,
   dRw 0x1D8, dRw 0x1DC]⟩

/-- Registers of the block at 0x20E00000, 19 of them 0x8000 apart. -/
def gGrd : RegGroup := ⟨0x20E00000, 0x8000, 19,
  [dRo 0x0, dW1c 0x4 0x1, dRo 0x8, dRo 0x10, dRo 0x14, dRo 0x18, dRo 0x1C, dRo 0x20, dRo 0x24, dRo 0x28]⟩

/-- Registers of the block at 0x20EC0000. -/
def gFlt : RegGroup := ⟨0x20EC0000, 0x1000000, 1,
  [dRo 0x0, dRo 0x8, dRo 0xC, dRo 0x10, dRo 0x14, dRo 0x18, dRo 0x1C, dRo 0x20, dRo 0x24, dRo 0x28, dRo 0x2C,
   dRo 0x30] ++
  [dRo 0x34, dRo 0x38, dRo 0x3C, dRo 0x40, dRo 0x80, dRo 0x84, dRo 0x88, dRo 0x8C, dRo 0x90, dRo 0x94,
   dW1c 0xC0 0x1FFF, dRw 0xC4 0x1FFF]⟩

/-- Registers of the block at 0x20ED0000. -/
def gDdr : RegGroup := ⟨0x20ED0000, 0x1000000, 1,
  [dRo 0x0, dRo 0x10, dRo 0x14, dRo 0x18, dRo 0x1C, dRo 0x20, dRo 0x24, dRo 0x28, dRo 0x2C, dRo 0x30, dRo 0x34,
   dRo 0x38] ++
  [dRo 0x3C, dRo 0x40, dRo 0x44, dRo 0x48, dRo 0x4C]⟩

/-- The register at an internal address, none where the address is unmapped or no register (01 R16). -/
def regDef (a : Nat) : Option RegDef :=
  match a / 0x100000 with
  | 0x200 => findGroup a [gOchre, gOchTrig, gOchPort, gOchHot]
  | 0x201 => findGroup a [gCobalt, gCobPort, gCobStack, gCobGrid]
  | 0x202 => findGroup a [gSepia, gSepSurf]
  | 0x203 => findGroup a [gUmber, gUmbPort, gUmbChan, gUmbBand, gUmbCoef]
  | 0x204 => findGroup a [gViridian, gVirRule]
  | 0x205 => findGroup a [gIndigo, gIdgTile, gIdgBind, gIdgApxTile]
  | 0x206 => findGroup a [gSlate, gSltComb, gSltHead, gSltQueue, gSltSend, gSltPop]
  | 0x207 => findGroup a [gCarmine, gCarmTgt, gCarmSrc, gCarmUs]
  | 0x208 => findGroup a [gAmber, gAmbPtp]
  | 0x209 => findGroup a [gIvory, gIvrDom]
  | 0x20A => findGroup a [gSable, gSblStr, gSblTab]
  | 0x20B => findGroup a [gTeal, gTealPort]
  | 0x20C => findGroup a [gHif, gHifFn, gHifRing]
  | 0x20E => findGroup a [gFlt, gDdr, gGrd]
  | _ => none

/-! Addresses of the registers by the manual's names. -/

namespace R

abbrev AMB_CTRL : Nat := 0x20800000
abbrev AMB_STATUS : Nat := 0x20800004
abbrev AMB_SNAP : Nat := 0x20800010
abbrev AMB_SNAP_SEC_LO : Nat := 0x20800018
abbrev AMB_SNAP_SEC_HI : Nat := 0x2080001C
abbrev AMB_SNAP_NS : Nat := 0x20800020
abbrev AMB_SNAP_STEADY_LO : Nat := 0x20800028
abbrev AMB_SNAP_STEADY_HI : Nat := 0x2080002C
abbrev AMB_ADDEND_BASE : Nat := 0x20800040
abbrev AMB_FREQ_ADJ : Nat := 0x20800044
abbrev AMB_SLEW_REQ : Nat := 0x20800048
abbrev AMB_SLEW_REMAIN : Nat := 0x2080004C
abbrev AMB_STEP_THR : Nat := 0x20800050
abbrev AMB_STEP_SEC_LO : Nat := 0x20800054
abbrev AMB_STEP_SEC_HI : Nat := 0x20800058
abbrev AMB_STEP_NS : Nat := 0x2080005C
abbrev AMB_STEP_CMD : Nat := 0x20800060
abbrev AMB_STEP_COUNT : Nat := 0x20800064
abbrev AMB_ANCHOR_PERIOD : Nat := 0x20800070
abbrev AMB_PPS_OUT_WIDTH : Nat := 0x20800080
abbrev AMB_PPS_OUT_OFS : Nat := 0x20800084
abbrev AMB_CAP_EDGE : Nat := 0x20800088
abbrev AMB_PPS_IN_MISS : Nat := 0x2080008C
abbrev AMB_PPS_REPEAT : Nat := 0x20800090
abbrev AMB_CAP_OVF : Nat := 0x20800094
abbrev AMB_CAP_LEVEL : Nat := 0x20800098
abbrev AMB_PPS_SKIP : Nat := 0x2080009C
abbrev AMB_INT_STATUS : Nat := 0x20800200
abbrev AMB_INT_EN : Nat := 0x20800204
abbrev AMB_PTPn_RX_LAT (n : Nat) : Nat := 0x20800100 + 0x40 * n
abbrev AMB_PTPn_TX_LAT (n : Nat) : Nat := 0x20800104 + 0x40 * n
abbrev AMB_PTPn_ASYM (n : Nat) : Nat := 0x20800108 + 0x40 * n
abbrev AMB_PTPn_CFG (n : Nat) : Nat := 0x2080010C + 0x40 * n
abbrev AMB_PTPn_MIN_DELAY (n : Nat) : Nat := 0x20800110 + 0x40 * n
abbrev AMB_PTPn_RX_EVENT (n : Nat) : Nat := 0x20800114 + 0x40 * n
abbrev AMB_PTPn_TX_EVENT (n : Nat) : Nat := 0x20800118 + 0x40 * n
abbrev AMB_PTPn_ANN_TMO (n : Nat) : Nat := 0x2080011C + 0x40 * n
abbrev AMB_PTPn_IGNORED (n : Nat) : Nat := 0x20800120 + 0x40 * n
abbrev AMB_PTPn_PORT_STATE (n : Nat) : Nat := 0x20800124 + 0x40 * n
abbrev OCH_CTRL : Nat := 0x20000000
abbrev OCH_HANDOFF_CNT : Nat := 0x20000004
abbrev OCH_INT_STATUS_LO : Nat := 0x20000040
abbrev OCH_INT_STATUS_HI : Nat := 0x20000044
abbrev OCH_INT_EN_LO : Nat := 0x20000048
abbrev OCH_INT_EN_HI : Nat := 0x2000004C
abbrev OCH_SBUS_SEL : Nat := 0x20000100
abbrev OCH_SBUS_CFG : Nat := 0x20000104
abbrev OCH_SBUS_LEN : Nat := 0x20000108
abbrev OCH_SBUS_GO : Nat := 0x2000010C
abbrev OCH_SBUS_STATUS : Nat := 0x20000110
abbrev OCH_SBUS_DATA : Nat := 0x20000114
abbrev OCH_TRIGn_CFG (n : Nat) : Nat := 0x20000800 + 0x20 * n
abbrev OCH_TRIGn_SEC_LO (n : Nat) : Nat := 0x20000804 + 0x20 * n
abbrev OCH_TRIGn_SEC_HI (n : Nat) : Nat := 0x20000808 + 0x20 * n
abbrev OCH_TRIGn_NS (n : Nat) : Nat := 0x2000080C + 0x20 * n
abbrev OCH_TRIGn_PERIOD (n : Nat) : Nat := 0x20000810 + 0x20 * n
abbrev OCH_TRIGn_WIDTH (n : Nat) : Nat := 0x20000814 + 0x20 * n
abbrev OCH_TRIGn_FIRED (n : Nat) : Nat := 0x20000818 + 0x20 * n
abbrev OCH_Pn_LINK (n : Nat) : Nat := 0x20001000 + 0x100 * n
abbrev OCH_Pn_FMT (n : Nat) : Nat := 0x20001004 + 0x100 * n
abbrev OCH_Pn_XY (n : Nat) : Nat := 0x20001008 + 0x100 * n
abbrev OCH_Pn_TSTYPE (n : Nat) : Nat := 0x2000100C + 0x100 * n
abbrev OCH_Pn_SIZE (n : Nat) : Nat := 0x20001010 + 0x100 * n
abbrev OCH_Pn_TIMING (n : Nat) : Nat := 0x20001014 + 0x100 * n
abbrev OCH_Pn_FILT (n : Nat) : Nat := 0x20001018 + 0x100 * n
abbrev OCH_Pn_BLOCK (n : Nat) : Nat := 0x2000101C + 0x100 * n
abbrev OCH_Pn_BLOCK_TMO (n : Nat) : Nat := 0x20001020 + 0x100 * n
abbrev OCH_Pn_SILENT_US (n : Nat) : Nat := 0x20001024 + 0x100 * n
abbrev OCH_Pn_WAKE_THR (n : Nat) : Nat := 0x20001028 + 0x100 * n
abbrev OCH_Pn_OWNER (n : Nat) : Nat := 0x2000102C + 0x100 * n
abbrev OCH_Pn_CELL_SHIFT (n : Nat) : Nat := 0x20001030 + 0x100 * n
abbrev OCH_Pn_FIFO_LEVEL (n : Nat) : Nat := 0x20001034 + 0x100 * n
abbrev OCH_Pn_FIFO_PEAK (n : Nat) : Nat := 0x20001038 + 0x100 * n
abbrev OCH_Pn_TYPEVAL (n : Nat) : Nat := 0x2000103C + 0x100 * n
abbrev OCH_Pn_ACCEPTED_LO (n : Nat) : Nat := 0x20001040 + 0x100 * n
abbrev OCH_Pn_ACCEPTED_HI (n : Nat) : Nat := 0x20001044 + 0x100 * n
abbrev OCH_Pn_DROP_HOT (n : Nat) : Nat := 0x20001048 + 0x100 * n
abbrev OCH_Pn_DROP_REFR (n : Nat) : Nat := 0x2000104C + 0x100 * n
abbrev OCH_Pn_DROP_BA (n : Nat) : Nat := 0x20001050 + 0x100 * n
abbrev OCH_Pn_DROP_RANGE (n : Nat) : Nat := 0x20001054 + 0x100 * n
abbrev OCH_Pn_DROP_OVF (n : Nat) : Nat := 0x20001058 + 0x100 * n
abbrev OCH_Pn_DROP_BYTES (n : Nat) : Nat := 0x2000105C + 0x100 * n
abbrev OCH_Pn_IGN_DT (n : Nat) : Nat := 0x20001060 + 0x100 * n
abbrev OCH_Pn_IGN_WORD (n : Nat) : Nat := 0x20001064 + 0x100 * n
abbrev OCH_Pn_IGN_PKT (n : Nat) : Nat := 0x20001068 + 0x100 * n
abbrev OCH_Pn_PKT_ERR (n : Nat) : Nat := 0x2000106C + 0x100 * n
abbrev OCH_Pn_HDR_CORR (n : Nat) : Nat := 0x20001070 + 0x100 * n
abbrev OCH_Pn_GAP_COUNT (n : Nat) : Nat := 0x20001074 + 0x100 * n
abbrev OCH_Pn_BLK_DROP (n : Nat) : Nat := 0x20001078 + 0x100 * n
abbrev OCH_Pn_LAST_PKT_LO (n : Nat) : Nat := 0x20001080 + 0x100 * n
abbrev OCH_Pn_LAST_PKT_HI (n : Nat) : Nat := 0x20001084 + 0x100 * n
abbrev OCH_Pn_CNT_CLR (n : Nat) : Nat := 0x20001088 + 0x100 * n
abbrev OCH_HOT (n : Nat) : Nat := 0x20008000 + 0x4 * n
abbrev COB_CTRL : Nat := 0x20100000
abbrev COB_STATUS : Nat := 0x20100004
abbrev COB_ENC_CFG : Nat := 0x20100010
abbrev COB_ENC_CPR : Nat := 0x20100014
abbrev COB_ENC_UPD : Nat := 0x20100018
abbrev COB_ENC_SSI_DIV : Nat := 0x2010001C
abbrev COB_ZERO_OFS : Nat := 0x20100020
abbrev COB_ANG_SNAP : Nat := 0x20100030
abbrev COB_ANG_LO : Nat := 0x20100034
abbrev COB_ANG_HI : Nat := 0x20100038
abbrev COB_RATE_LO : Nat := 0x2010003C
abbrev COB_RATE_HI : Nat := 0x20100040
abbrev COB_ANG_T_LO : Nat := 0x20100044
abbrev COB_ANG_T_HI : Nat := 0x20100048
abbrev COB_ANG_EXP_INT : Nat := 0x2010004C
abbrev COB_ENC_UPDATES : Nat := 0x20100050
abbrev COB_ENC_INDEX : Nat := 0x20100054
abbrev COB_ENC_INDEX_ERR : Nat := 0x20100058
abbrev COB_ANG_TICKS : Nat := 0x2010005C
abbrev COB_IMU_CFG : Nat := 0x20100080
abbrev COB_IMU_MAP : Nat := 0x20100084
abbrev COB_IMU_SCALE : Nat := 0x20100088
abbrev COB_IMU_TIME : Nat := 0x2010008C
abbrev COB_ATT_ROLL : Nat := 0x20100090
abbrev COB_ATT_PITCH : Nat := 0x20100094
abbrev COB_ATT_YAW : Nat := 0x20100098
abbrev COB_IMU_SAMPLES : Nat := 0x2010009C
abbrev COB_IMU_CLAMP : Nat := 0x201000A0
abbrev COB_CACHE_STALL : Nat := 0x201000A4
abbrev COB_IMU_LAST_LO : Nat := 0x201000A8
abbrev COB_IMU_LAST_HI : Nat := 0x201000AC
abbrev COB_PIVOT : Nat := 0x201000B0
abbrev COB_HUB : Nat := 0x201000C0
abbrev COB_AXIS : Nat := 0x201000CC
abbrev COB_AZREF : Nat := 0x201000D8
abbrev COB_INT_STATUS : Nat := 0x201000F0
abbrev COB_INT_EN : Nat := 0x201000F4
abbrev COB_Pn_CFG (n : Nat) : Nat := 0x20101000 + 0x100 * n
abbrev COB_Pn_GRID_BASE (n : Nat) : Nat := 0x20101004 + 0x100 * n
abbrev COB_Pn_GRID_DIM (n : Nat) : Nat := 0x20101008 + 0x100 * n
abbrev COB_Pn_ROT (n : Nat) : Nat := 0x20101010 + 0x100 * n
abbrev COB_Pn_POS (n : Nat) : Nat := 0x20101034 + 0x100 * n
abbrev COB_Pn_PLANE_PT (n : Nat) : Nat := 0x20101040 + 0x100 * n
abbrev COB_Pn_PLANE_U (n : Nat) : Nat := 0x2010104C + 0x100 * n
abbrev COB_Pn_PLANE_V (n : Nat) : Nat := 0x20101058 + 0x100 * n
abbrev COB_Pn_ORG0 (n : Nat) : Nat := 0x20101064 + 0x100 * n
abbrev COB_Pn_ORG1 (n : Nat) : Nat := 0x20101068 + 0x100 * n
abbrev COB_Pn_STEP0 (n : Nat) : Nat := 0x2010106C + 0x100 * n
abbrev COB_Pn_STEP1 (n : Nat) : Nat := 0x20101070 + 0x100 * n
abbrev COB_Pn_AXIAL_OFS (n : Nat) : Nat := 0x20101074 + 0x100 * n
abbrev COB_Pn_IN (n : Nat) : Nat := 0x20101080 + 0x100 * n
abbrev COB_Pn_DROP_GEOM (n : Nat) : Nat := 0x20101084 + 0x100 * n
abbrev COB_Pn_DROP_RANGE (n : Nat) : Nat := 0x20101088 + 0x100 * n
abbrev COB_Pn_DROP_NOANGLE (n : Nat) : Nat := 0x2010108C + 0x100 * n
abbrev COB_Pn_EXTRAP (n : Nat) : Nat := 0x20101090 + 0x100 * n
abbrev COB_Sn_CFG (n : Nat) : Nat := 0x20102000 + 0x40 * n
abbrev COB_Sn_WIN_ORG (n : Nat) : Nat := 0x20102004 + 0x40 * n
abbrev COB_Sn_WIN_SIZE (n : Nat) : Nat := 0x20102008 + 0x40 * n
abbrev COB_Sn_OWNER (n : Nat) : Nat := 0x2010200C + 0x40 * n
abbrev COB_Sn_DRAM_LO (n : Nat) : Nat := 0x20102010 + 0x40 * n
abbrev COB_Sn_DRAM_HI (n : Nat) : Nat := 0x20102014 + 0x40 * n
abbrev COB_Sn_CLOSE_US (n : Nat) : Nat := 0x20102018 + 0x40 * n
abbrev COB_Sn_STATUS (n : Nat) : Nat := 0x2010201C + 0x40 * n
abbrev COB_Sn_LATE (n : Nat) : Nat := 0x20102020 + 0x40 * n
abbrev COB_Sn_SAT (n : Nat) : Nat := 0x20102024 + 0x40 * n
abbrev COB_Sn_NOBUF (n : Nat) : Nat := 0x20102028 + 0x40 * n
abbrev COB_Sn_SKIPFRAME (n : Nat) : Nat := 0x2010202C + 0x40 * n
abbrev COB_GRID (n : Nat) : Nat := 0x20180000 + 0x4 * n
abbrev SEP_CTRL : Nat := 0x20200000
abbrev SEP_TICK_US : Nat := 0x20200004
abbrev SEP_TICK_SEQ : Nat := 0x20200008
abbrev SEP_PAGES_FREE : Nat := 0x2020000C
abbrev SEP_TRK_NEXT_ID : Nat := 0x20200010
abbrev SEP_TRK_ACTIVE : Nat := 0x20200014
abbrev SEP_CORNER_SKIP : Nat := 0x20200020
abbrev SEP_FLOW_SKIP : Nat := 0x20200024
abbrev SEP_STALL_CYC : Nat := 0x20200028
abbrev SEP_TRK_FULL : Nat := 0x2020002C
abbrev SEP_CORNER_QLVL : Nat := 0x20200030
abbrev SEP_FLOW_QLVL : Nat := 0x20200034
abbrev SEP_INT_STATUS : Nat := 0x20200040
abbrev SEP_INT_EN : Nat := 0x20200044
abbrev SEP_Sn_CFG (n : Nat) : Nat := 0x20201000 + 0x80 * n
abbrev SEP_Sn_SIZE (n : Nat) : Nat := 0x20201004 + 0x80 * n
abbrev SEP_Sn_OWNER (n : Nat) : Nat := 0x20201008 + 0x80 * n
abbrev SEP_Sn_PAGES (n : Nat) : Nat := 0x2020100C + 0x80 * n
abbrev SEP_Sn_CORNER (n : Nat) : Nat := 0x20201010 + 0x80 * n
abbrev SEP_Sn_FLOW (n : Nat) : Nat := 0x20201014 + 0x80 * n
abbrev SEP_Sn_FLOW_BATCH (n : Nat) : Nat := 0x20201018 + 0x80 * n
abbrev SEP_Sn_FLOW_MAXRES (n : Nat) : Nat := 0x2020101C + 0x80 * n
abbrev SEP_Sn_FLOW_MAXSPD (n : Nat) : Nat := 0x20201020 + 0x80 * n
abbrev SEP_Sn_TRK (n : Nat) : Nat := 0x20201024 + 0x80 * n
abbrev SEP_Sn_TRK_GATE (n : Nat) : Nat := 0x20201028 + 0x80 * n
abbrev SEP_Sn_TRK_MERGE (n : Nat) : Nat := 0x2020102C + 0x80 * n
abbrev SEP_Sn_TRK_AB (n : Nat) : Nat := 0x20201030 + 0x80 * n
abbrev SEP_Sn_TRK_GAMMA (n : Nat) : Nat := 0x20201034 + 0x80 * n
abbrev SEP_Sn_TRK_QUOTA (n : Nat) : Nat := 0x20201038 + 0x80 * n
abbrev SEP_Sn_EVENTS (n : Nat) : Nat := 0x20201040 + 0x80 * n
abbrev SEP_Sn_SKIPRANGE (n : Nat) : Nat := 0x20201044 + 0x80 * n
abbrev SEP_Sn_SKIPFRAME (n : Nat) : Nat := 0x20201048 + 0x80 * n
abbrev SEP_Sn_CORNERS (n : Nat) : Nat := 0x2020104C + 0x80 * n
abbrev SEP_Sn_FLOWS (n : Nat) : Nat := 0x20201050 + 0x80 * n
abbrev SEP_Sn_FLOW_REJ (n : Nat) : Nat := 0x20201054 + 0x80 * n
abbrev SEP_Sn_TRK_CREATED (n : Nat) : Nat := 0x20201058 + 0x80 * n
abbrev SEP_Sn_TRK_ENDED (n : Nat) : Nat := 0x2020105C + 0x80 * n
abbrev SEP_Sn_CNT_CLR (n : Nat) : Nat := 0x20201060 + 0x80 * n
abbrev UMB_CTRL : Nat := 0x20300000
abbrev UMB_MAC_ALLOC : Nat := 0x20300004
abbrev UMB_COEF_FREE : Nat := 0x20300008
abbrev UMB_STALL_CYC : Nat := 0x2030000C
abbrev UMB_MCLK_CFG : Nat := 0x20300010
abbrev UMB_MCLK_FRAC : Nat := 0x20300014
abbrev UMB_SYNC_CFG : Nat := 0x20300018
abbrev UMB_SYNC_SW : Nat := 0x2030001C
abbrev UMB_SYNC_COUNT : Nat := 0x20300020
abbrev UMB_SYNC_LAST_LO : Nat := 0x20300024
abbrev UMB_SYNC_LAST_HI : Nat := 0x20300028
abbrev UMB_SAT_STATUS_LO : Nat := 0x20300030
abbrev UMB_SAT_STATUS_HI : Nat := 0x20300034
abbrev UMB_THR_STATUS_LO : Nat := 0x20300038
abbrev UMB_THR_STATUS_HI : Nat := 0x2030003C
abbrev UMB_INT_STATUS_LO : Nat := 0x20300040
abbrev UMB_INT_STATUS_HI : Nat := 0x20300044
abbrev UMB_INT_EN_LO : Nat := 0x20300048
abbrev UMB_INT_EN_HI : Nat := 0x2030004C
abbrev UMB_Pn_CFG (n : Nat) : Nat := 0x20300100 + 0x40 * n
abbrev UMB_Pn_RATE (n : Nat) : Nat := 0x20300104 + 0x40 * n
abbrev UMB_Pn_BCLK_DIV (n : Nat) : Nat := 0x20300108 + 0x40 * n
abbrev UMB_Pn_LAT_NS (n : Nat) : Nat := 0x2030010C + 0x40 * n
abbrev UMB_Pn_PERIOD_LO (n : Nat) : Nat := 0x20300110 + 0x40 * n
abbrev UMB_Pn_PERIOD_HI (n : Nat) : Nat := 0x20300114 + 0x40 * n
abbrev UMB_Pn_FRAMES (n : Nat) : Nat := 0x20300118 + 0x40 * n
abbrev UMB_Pn_DROP_OVR (n : Nat) : Nat := 0x2030011C + 0x40 * n
abbrev UMB_Pn_FRAME_ERR (n : Nat) : Nat := 0x20300120 + 0x40 * n
abbrev UMB_Pn_LAST_FS_LO (n : Nat) : Nat := 0x20300124 + 0x40 * n
abbrev UMB_Pn_LAST_FS_HI (n : Nat) : Nat := 0x20300128 + 0x40 * n
abbrev UMB_Pn_BUF (n : Nat) : Nat := 0x2030012C + 0x40 * n
abbrev UMB_CHn_CFG (n : Nat) : Nat := 0x20301000 + 0x80 * n
abbrev UMB_CHn_BLOCK (n : Nat) : Nat := 0x20301004 + 0x80 * n
abbrev UMB_CHn_DERIVED (n : Nat) : Nat := 0x20301008 + 0x80 * n
abbrev UMB_CHn_STG (n : Nat) : Nat := 0x20301010 + 0x80 * n
abbrev UMB_CHn_PHASE (n : Nat) : Nat := 0x20301014 + 0x80 * n
abbrev UMB_CHn_DC (n : Nat) : Nat := 0x20301030 + 0x80 * n
abbrev UMB_CHn_DCEST_LO (n : Nat) : Nat := 0x20301034 + 0x80 * n
abbrev UMB_CHn_DCEST_HI (n : Nat) : Nat := 0x20301038 + 0x80 * n
abbrev UMB_CHn_THR (n : Nat) : Nat := 0x20301040 + 0x80 * n
abbrev UMB_CHn_THR_LEVEL (n : Nat) : Nat := 0x20301044 + 0x80 * n
abbrev UMB_CHn_THR_HYST (n : Nat) : Nat := 0x20301048 + 0x80 * n
abbrev UMB_CHn_GDELAY (n : Nat) : Nat := 0x20301058 + 0x80 * n
abbrev UMB_CHn_SAT (n : Nat) : Nat := 0x2030105C + 0x80 * n
abbrev UMB_CHn_OUT_LO (n : Nat) : Nat := 0x20301060 + 0x80 * n
abbrev UMB_CHn_OUT_HI (n : Nat) : Nat := 0x20301064 + 0x80 * n
abbrev UMB_BANDn_CFG (n : Nat) : Nat := 0x20304000 + 0x20 * n
abbrev UMB_BANDn_FILTER (n : Nat) : Nat := 0x20304004 + 0x20 * n
abbrev UMB_BANDn_WINDOW (n : Nat) : Nat := 0x20304008 + 0x20 * n
abbrev UMB_BANDn_OWNER (n : Nat) : Nat := 0x2030400C + 0x20 * n
abbrev UMB_COEF (n : Nat) : Nat := 0x20380000 + 0x4 * n
abbrev VIR_RULE_EN : Nat := 0x20400000
abbrev VIR_MAP_FREE : Nat := 0x20400020
abbrev VIR_ADMIT_QLVL : Nat := 0x20400024
abbrev VIR_ADMIT_DROP : Nat := 0x20400028
abbrev VIR_STALL_CYC : Nat := 0x2040002C
abbrev VIR_LATE_TOTAL : Nat := 0x20400030
abbrev VIR_INT_STATUS : Nat := 0x20400040
abbrev VIR_INT_EN : Nat := 0x20400044
abbrev VIR_Rn_CFG (n : Nat) : Nat := 0x20401000 + 0x100 * n
abbrev VIR_Rn_LEN (n : Nat) : Nat := 0x20401004 + 0x100 * n
abbrev VIR_Rn_HOP (n : Nat) : Nat := 0x20401008 + 0x100 * n
abbrev VIR_Rn_HOLD (n : Nat) : Nat := 0x2040100C + 0x100 * n
abbrev VIR_Rn_PHASE (n : Nat) : Nat := 0x20401010 + 0x100 * n
abbrev VIR_Rn_SCORE_THR (n : Nat) : Nat := 0x20401014 + 0x100 * n
abbrev VIR_Rn_GATE (n : Nat) : Nat := 0x20401018 + 0x100 * n
abbrev VIR_Rn_COINC (n : Nat) : Nat := 0x2040101C + 0x100 * n
abbrev VIR_Rn_REGION_ORG (n : Nat) : Nat := 0x20401020 + 0x100 * n
abbrev VIR_Rn_REGION_SIZE (n : Nat) : Nat := 0x20401024 + 0x100 * n
abbrev VIR_Rn_OWNER (n : Nat) : Nat := 0x20401028 + 0x100 * n
abbrev VIR_Rn_GEN (n : Nat) : Nat := 0x2040102C + 0x100 * n
abbrev VIR_Rn_IN (n : Nat) : Nat := 0x20401040 + 0x100 * n
abbrev VIR_Rn_WINDOWS (n : Nat) : Nat := 0x204010C0 + 0x100 * n
abbrev VIR_Rn_EMITTED (n : Nat) : Nat := 0x204010C4 + 0x100 * n
abbrev VIR_Rn_EMPTY (n : Nat) : Nat := 0x204010C8 + 0x100 * n
abbrev VIR_Rn_INCOMPLETE (n : Nat) : Nat := 0x204010CC + 0x100 * n
abbrev VIR_Rn_LATE (n : Nat) : Nat := 0x204010D0 + 0x100 * n
abbrev VIR_Rn_GATED (n : Nat) : Nat := 0x204010D4 + 0x100 * n
abbrev VIR_Rn_SKIPFRAME (n : Nat) : Nat := 0x204010D8 + 0x100 * n
abbrev VIR_Rn_ADMITTED (n : Nat) : Nat := 0x204010DC + 0x100 * n
abbrev VIR_Rn_TRIGGERED (n : Nat) : Nat := 0x204010E0 + 0x100 * n
abbrev VIR_Rn_OPEN (n : Nat) : Nat := 0x204010E4 + 0x100 * n
abbrev VIR_Rn_NEXT_OPEN_LO (n : Nat) : Nat := 0x204010E8 + 0x100 * n
abbrev VIR_Rn_NEXT_OPEN_HI (n : Nat) : Nat := 0x204010EC + 0x100 * n
abbrev VIR_Rn_CNT_CLR (n : Nat) : Nat := 0x204010F0 + 0x100 * n
abbrev IDG_TILE_EN : Nat := 0x20500000
abbrev IDG_POINT : Nat := 0x20500004
abbrev IDG_WS_BYTES_LO : Nat := 0x20500008
abbrev IDG_WS_BYTES_HI : Nat := 0x2050000C
abbrev IDG_MODELS : Nat := 0x20500010
abbrev IDG_INT_STATUS_LO : Nat := 0x20500040
abbrev IDG_INT_STATUS_HI : Nat := 0x20500044
abbrev IDG_INT_EN_LO : Nat := 0x20500048
abbrev IDG_INT_EN_HI : Nat := 0x2050004C
abbrev IDG_APX_CTRL : Nat := 0x20508000
abbrev IDG_APX_REPLAY_LIMIT : Nat := 0x20508004
abbrev IDG_APX_DEMOTED : Nat := 0x20508008
abbrev IDG_APX_WINDOW_SEQ : Nat := 0x2050800C
abbrev IDG_APX_BSEL : Nat := 0x20508400
abbrev IDG_APX_B_CFG : Nat := 0x20508404
abbrev IDG_APX_B_WEIGHTS : Nat := 0x20508408
abbrev IDG_APX_B_T_SKIP : Nat := 0x2050840C
abbrev IDG_APX_B_T_DELTA : Nat := 0x20508410
abbrev IDG_APX_B_LAST_D : Nat := 0x20508414
abbrev IDG_APX_B_STATE : Nat := 0x20508418
abbrev IDG_APX_B_LDESC : Nat := 0x2050841C
abbrev IDG_APX_B_FULL : Nat := 0x20508420
abbrev IDG_APX_B_DELTA : Nat := 0x20508424
abbrev IDG_APX_B_SKIP : Nat := 0x20508428
abbrev IDG_APX_B_SATFALL : Nat := 0x2050842C
abbrev IDG_Tn_OWNER (n : Nat) : Nat := 0x20500100 + 0x40 * n
abbrev IDG_Tn_STATE (n : Nat) : Nat := 0x20500104 + 0x40 * n
abbrev IDG_Tn_CYCLES_LO (n : Nat) : Nat := 0x20500108 + 0x40 * n
abbrev IDG_Tn_CYCLES_HI (n : Nat) : Nat := 0x2050010C + 0x40 * n
abbrev IDG_Tn_MACS_LO (n : Nat) : Nat := 0x20500110 + 0x40 * n
abbrev IDG_Tn_MACS_HI (n : Nat) : Nat := 0x20500114 + 0x40 * n
abbrev IDG_Tn_WSTALL (n : Nat) : Nat := 0x20500118 + 0x40 * n
abbrev IDG_Tn_ACT_USED (n : Nat) : Nat := 0x2050011C + 0x40 * n
abbrev IDG_Bn_CFG (n : Nat) : Nat := 0x20501000 + 0x40 * n
abbrev IDG_Bn_MODEL (n : Nat) : Nat := 0x20501004 + 0x40 * n
abbrev IDG_Bn_TILES (n : Nat) : Nat := 0x20501008 + 0x40 * n
abbrev IDG_Bn_RUNS (n : Nat) : Nat := 0x2050100C + 0x40 * n
abbrev IDG_Bn_OK (n : Nat) : Nat := 0x20501010 + 0x40 * n
abbrev IDG_Bn_SHED (n : Nat) : Nat := 0x20501014 + 0x40 * n
abbrev IDG_Bn_FAULT (n : Nat) : Nat := 0x20501018 + 0x40 * n
abbrev IDG_Bn_OVERRUN (n : Nat) : Nat := 0x2050101C + 0x40 * n
abbrev IDG_Bn_REPLAYS (n : Nat) : Nat := 0x20501020 + 0x40 * n
abbrev IDG_Bn_GEN (n : Nat) : Nat := 0x20501024 + 0x40 * n
abbrev IDG_APX_Tn_STATE (n : Nat) : Nat := 0x20508100 + 0x20 * n
abbrev IDG_APX_Tn_WIN_WAVES (n : Nat) : Nat := 0x20508104 + 0x20 * n
abbrev IDG_APX_Tn_WIN_REPLAYS (n : Nat) : Nat := 0x20508108 + 0x20 * n
abbrev IDG_APX_Tn_REPLAYS (n : Nat) : Nat := 0x2050810C + 0x20 * n
abbrev IDG_APX_Tn_SECOND_REPLAYS (n : Nat) : Nat := 0x20508110 + 0x20 * n
abbrev IDG_APX_Tn_ABSORBED (n : Nat) : Nat := 0x20508114 + 0x20 * n
abbrev IDG_APX_Tn_DEMOTIONS (n : Nat) : Nat := 0x20508118 + 0x20 * n
abbrev IDG_APX_Tn_WAVES_TOTAL (n : Nat) : Nat := 0x2050811C + 0x20 * n
abbrev TEAL_CTRL : Nat := 0x20B00000
abbrev TEAL_STATE : Nat := 0x20B00004
abbrev TEAL_PEER_SEEN : Nat := 0x20B00008
abbrev TEAL_INT_STATUS : Nat := 0x20B00040
abbrev TEAL_INT_EN : Nat := 0x20B00044
abbrev TEAL_Pn_LINK (n : Nat) : Nat := 0x20B00100 + 0x40 * n
abbrev TEAL_Pn_REPLAY (n : Nat) : Nat := 0x20B00104 + 0x40 * n
abbrev TEAL_Pn_RETRAIN (n : Nat) : Nat := 0x20B00108 + 0x40 * n
abbrev TEAL_Pn_CRC_ERR (n : Nat) : Nat := 0x20B0010C + 0x40 * n
abbrev TEAL_Pn_TX_LO (n : Nat) : Nat := 0x20B00110 + 0x40 * n
abbrev TEAL_Pn_TX_HI (n : Nat) : Nat := 0x20B00114 + 0x40 * n
abbrev TEAL_Pn_RX_LO (n : Nat) : Nat := 0x20B00118 + 0x40 * n
abbrev TEAL_Pn_RX_HI (n : Nat) : Nat := 0x20B0011C + 0x40 * n
abbrev TEAL_Pn_FWD_LO (n : Nat) : Nat := 0x20B00120 + 0x40 * n
abbrev TEAL_Pn_FWD_HI (n : Nat) : Nat := 0x20B00124 + 0x40 * n
abbrev HIF_LINK : Nat := 0x20C00000
abbrev HIF_NUMVFS : Nat := 0x20C00004
abbrev HIF_ETH_FN : Nat := 0x20C00008
abbrev HIF_AER_COUNT : Nat := 0x20C0000C
abbrev HIF_FLR_COUNT : Nat := 0x20C00010
abbrev HIF_DEV_REC_DISC : Nat := 0x20C00014
abbrev HIF_INT_STATUS : Nat := 0x20C00040
abbrev HIF_INT_EN : Nat := 0x20C00044
abbrev HIF_ETH_RX_REQ : Nat := 0x20C0C000
abbrev HIF_ETH_RX_DUP : Nat := 0x20C0C004
abbrev HIF_ETH_DROP : Nat := 0x20C0C008
abbrev HIF_ETH_TX_DGRAMS : Nat := 0x20C0C00C
abbrev HIF_ETH_UPLOAD_BYTES : Nat := 0x20C0C010
abbrev HIF_ETH_WRITE_BYTES : Nat := 0x20C0C014
abbrev HIF_ETH_RECORD_BYTES : Nat := 0x20C0C018
abbrev HIF_Fn_STATE (n : Nat) : Nat := 0x20C01000 + 0x40 * n
abbrev HIF_Fn_LAST_SEQ (n : Nat) : Nat := 0x20C01004 + 0x40 * n
abbrev HIF_Fn_CMDS (n : Nat) : Nat := 0x20C01008 + 0x40 * n
abbrev HIF_Fn_DB_IGN (n : Nat) : Nat := 0x20C0100C + 0x40 * n
abbrev HIF_Fn_CTX_QUOTA (n : Nat) : Nat := 0x20C01010 + 0x40 * n
abbrev HIF_Fn_CTX_USED (n : Nat) : Nat := 0x20C01014 + 0x40 * n
abbrev HIF_Fn_TEARDOWN_DISC (n : Nat) : Nat := 0x20C01018 + 0x40 * n
abbrev HIF_Fn_DMA_ERR (n : Nat) : Nat := 0x20C0101C + 0x40 * n
abbrev HIF_RINGn_BASE_LO (n : Nat) : Nat := 0x20C04000 + 0x40 * n
abbrev HIF_RINGn_BASE_HI (n : Nat) : Nat := 0x20C04004 + 0x40 * n
abbrev HIF_RINGn_CFG (n : Nat) : Nat := 0x20C04008 + 0x40 * n
abbrev HIF_RINGn_HEAD (n : Nat) : Nat := 0x20C0400C + 0x40 * n
abbrev HIF_RINGn_TAIL (n : Nat) : Nat := 0x20C04010 + 0x40 * n
abbrev HIF_RINGn_SHADOW_LO (n : Nat) : Nat := 0x20C04014 + 0x40 * n
abbrev HIF_RINGn_SHADOW_HI (n : Nat) : Nat := 0x20C04018 + 0x40 * n
abbrev HIF_RINGn_MOD (n : Nat) : Nat := 0x20C0401C + 0x40 * n
abbrev HIF_RINGn_VECTOR (n : Nat) : Nat := 0x20C04020 + 0x40 * n
abbrev HIF_RINGn_SPILL_KIB (n : Nat) : Nat := 0x20C04024 + 0x40 * n
abbrev HIF_RINGn_SPILL_LEVEL (n : Nat) : Nat := 0x20C04028 + 0x40 * n
abbrev HIF_RINGn_RECORDS (n : Nat) : Nat := 0x20C0402C + 0x40 * n
abbrev HIF_RINGn_WAIT_US (n : Nat) : Nat := 0x20C04030 + 0x40 * n
abbrev HIF_RINGn_TAIL_INVALID (n : Nat) : Nat := 0x20C04034 + 0x40 * n
abbrev SLT_QUEUES_EN : Nat := 0x20600000
abbrev SLT_COMB_EN : Nat := 0x20600004
abbrev SLT_LAND_BUF : Nat := 0x20600008
abbrev SLT_COMMIT_REQ_LO : Nat := 0x20600010
abbrev SLT_COMMIT_REQ_HI : Nat := 0x20600014
abbrev SLT_COMMIT_RPY_LO : Nat := 0x20600018
abbrev SLT_COMMIT_RPY_HI : Nat := 0x2060001C
abbrev SLT_STALL_CYC : Nat := 0x20600020
abbrev SLT_REFUSED : Nat := 0x20600024
abbrev SLT_REFUSE_INFO : Nat := 0x20600028
abbrev SLT_REFUSE_QUEUE : Nat := 0x2060002C
abbrev SLT_BAD_ACK : Nat := 0x20600030
abbrev SLT_CFG_ERR : Nat := 0x20600034
abbrev SLT_INT_STATUS_LO : Nat := 0x20600040
abbrev SLT_INT_STATUS_HI : Nat := 0x20600044
abbrev SLT_INT_EN_LO : Nat := 0x20600048
abbrev SLT_INT_EN_HI : Nat := 0x2060004C
abbrev SLT_Cn_CFG (n : Nat) : Nat := 0x20604000 + 0x40 * n
abbrev SLT_Cn_LEN (n : Nat) : Nat := 0x20604004 + 0x40 * n
abbrev SLT_Cn_BUF_LO (n : Nat) : Nat := 0x20604008 + 0x40 * n
abbrev SLT_Cn_BUF_HI (n : Nat) : Nat := 0x2060400C + 0x40 * n
abbrev SLT_Cn_ROUND (n : Nat) : Nat := 0x20604010 + 0x40 * n
abbrev SLT_Cn_ARRIVED_LO (n : Nat) : Nat := 0x20604014 + 0x40 * n
abbrev SLT_Cn_ARRIVED_HI (n : Nat) : Nat := 0x20604018 + 0x40 * n
abbrev SLT_Cn_RELEASE (n : Nat) : Nat := 0x2060401C + 0x40 * n
abbrev SLT_Cn_ROUNDS (n : Nat) : Nat := 0x20604020 + 0x40 * n
abbrev SLT_Cn_DISCARD (n : Nat) : Nat := 0x20604024 + 0x40 * n
abbrev SLT_Cn_SAT (n : Nat) : Nat := 0x20604028 + 0x40 * n
abbrev SLT_Cn_NAN (n : Nat) : Nat := 0x2060402C + 0x40 * n
abbrev SLT_Cn_KIND (n : Nat) : Nat := 0x20604030 + 0x40 * n
abbrev SLT_HEAD (n : Nat) : Nat := 0x20620000 + 0x20 * n
abbrev SLT_Qn_CFG (n : Nat) : Nat := 0x20640000 + 0x40 * n
abbrev SLT_Qn_BASE_LO (n : Nat) : Nat := 0x20640004 + 0x40 * n
abbrev SLT_Qn_BASE_HI (n : Nat) : Nat := 0x20640008 + 0x40 * n
abbrev SLT_Qn_STAT_ADDR_LO (n : Nat) : Nat := 0x2064000C + 0x40 * n
abbrev SLT_Qn_STAT_ADDR_HI (n : Nat) : Nat := 0x20640010 + 0x40 * n
abbrev SLT_Qn_WMARK (n : Nat) : Nat := 0x20640014 + 0x40 * n
abbrev SLT_Qn_OCC (n : Nat) : Nat := 0x20640018 + 0x40 * n
abbrev SLT_Qn_ENQ_SEQ (n : Nat) : Nat := 0x2064001C + 0x40 * n
abbrev SLT_Qn_DEQ_SEQ (n : Nat) : Nat := 0x20640020 + 0x40 * n
abbrev SLT_Qn_ACK (n : Nat) : Nat := 0x20640024 + 0x40 * n
abbrev SLT_Qn_STALLS (n : Nat) : Nat := 0x20640028 + 0x40 * n
abbrev SLT_Qn_PEAK (n : Nat) : Nat := 0x2064002C + 0x40 * n
abbrev SLT_Qn_REFUSED (n : Nat) : Nat := 0x20640030 + 0x40 * n
abbrev SLT_Qn_LAST_LO (n : Nat) : Nat := 0x20640034 + 0x40 * n
abbrev SLT_Qn_LAST_HI (n : Nat) : Nat := 0x20640038 + 0x40 * n
abbrev SLT_SEND (n : Nat) : Nat := 0x20680000 + 0x40 * n
abbrev SLT_POP (n : Nat) : Nat := 0x206C0000 + 0x40 * n
abbrev CARM_SETPEND : Nat := 0x20700010
abbrev CARM_RAW : Nat := 0x20700100
abbrev CARM_PEND : Nat := 0x20700180
abbrev CARM_ACTIVE : Nat := 0x20700200
abbrev CARM_RELAY_WAIT : Nat := 0x207002A8
abbrev CARM_Tn_CLAIM (n : Nat) : Nat := 0x20700400 + 0x40 * n
abbrev CARM_Tn_EOI (n : Nat) : Nat := 0x20700404 + 0x40 * n
abbrev CARM_Tn_HOLD (n : Nat) : Nat := 0x20700408 + 0x40 * n
abbrev CARM_Tn_STACK (n : Nat) : Nat := 0x2070040C + 0x40 * n
abbrev CARM_Tn_STACK_RST (n : Nat) : Nat := 0x20700410 + 0x40 * n
abbrev CARM_Tn_ORDER_INFO (n : Nat) : Nat := 0x20700414 + 0x40 * n
abbrev CARM_Tn_DELIVERED (n : Nat) : Nat := 0x20700418 + 0x40 * n
abbrev CARM_Tn_REPLACED (n : Nat) : Nat := 0x2070041C + 0x40 * n
abbrev CARM_Tn_HANDOFF (n : Nat) : Nat := 0x20700420 + 0x40 * n
abbrev CARM_Tn_ORDER_FAULTS (n : Nat) : Nat := 0x20700424 + 0x40 * n
abbrev CARM_Sn_CFG (n : Nat) : Nat := 0x20701000 + 0x10 * n
abbrev CARM_Sn_MOD (n : Nat) : Nat := 0x20701004 + 0x10 * n
abbrev CARM_Sn_STATE (n : Nat) : Nat := 0x20701008 + 0x10 * n
abbrev CARM_Sn_TAKEN (n : Nat) : Nat := 0x2070100C + 0x10 * n
abbrev CARM_Sn_ASSERT_US (n : Nat) : Nat := 0x20704000 + 0x4 * n
abbrev IVR_STATE : Nat := 0x20900000
abbrev IVR_DOM_UP : Nat := 0x20900004
abbrev IVR_GATE_CLOSED : Nat := 0x20900008
abbrev IVR_ISO : Nat := 0x2090000C
abbrev IVR_REQ : Nat := 0x20900010
abbrev IVR_EXP_RES_MS : Nat := 0x20900014
abbrev IVR_WAKE_TIMER_LO : Nat := 0x20900018
abbrev IVR_WAKE_TIMER_HI : Nat := 0x2090001C
abbrev IVR_LAT_BUDGET : Nat := 0x20900020
abbrev IVR_TJ : Nat := 0x20900024
abbrev IVR_THERM_THR : Nat := 0x20900028
abbrev IVR_PWR_LIMIT : Nat := 0x2090002C
abbrev IVR_RUNTIME_S : Nat := 0x20900030
abbrev IVR_BASE_LOAD_MW : Nat := 0x20900034
abbrev IVR_SCHED_CFG : Nat := 0x20900038
abbrev IVR_DEFER_B : Nat := 0x2090003C
abbrev IVR_INT_STATUS : Nat := 0x20900040
abbrev IVR_INT_EN : Nat := 0x20900044
abbrev IVR_BUDGET_UJ : Nat := 0x20900050
abbrev IVR_CHARGED_UJ : Nat := 0x20900054
abbrev IVR_WINDOW_SEQ : Nat := 0x20900058
abbrev IVR_SHED : Nat := 0x20900060
abbrev IVR_SAFETY_OVER : Nat := 0x2090006C
abbrev IVR_PMB_CFG : Nat := 0x20900070
abbrev IVR_PT_STATUS : Nat := 0x20900074
abbrev IVR_RES_STATE : Nat := 0x20900100
abbrev IVR_RES_PT : Nat := 0x20900140
abbrev IVR_DOMd_CFG (n : Nat) : Nat := 0x20900200 + 0x8 * n
abbrev IVR_DOMd_WAKES (n : Nat) : Nat := 0x20900204 + 0x8 * n
abbrev SBL_CTRL : Nat := 0x20A00000
abbrev SBL_ON_BATT_MA : Nat := 0x20A00004
abbrev SBL_PERIOD_S : Nat := 0x20A00008
abbrev SBL_E_RES_J : Nat := 0x20A0000C
abbrev SBL_INT_STATUS : Nat := 0x20A00040
abbrev SBL_INT_EN : Nat := 0x20A00044
abbrev SBL_Sn_CFG (n : Nat) : Nat := 0x20A00100 + 0x80 * n
abbrev SBL_Sn_SHUNT_UOHM (n : Nat) : Nat := 0x20A00104 + 0x80 * n
abbrev SBL_Sn_VGAIN (n : Nat) : Nat := 0x20A00108 + 0x80 * n
abbrev SBL_Sn_DESIGN_MAH (n : Nat) : Nat := 0x20A0010C + 0x80 * n
abbrev SBL_Sn_IQUIET_MA (n : Nat) : Nat := 0x20A00110 + 0x80 * n
abbrev SBL_Sn_REST_S (n : Nat) : Nat := 0x20A00114 + 0x80 * n
abbrev SBL_Sn_TH_R25 (n : Nat) : Nat := 0x20A00118 + 0x80 * n
abbrev SBL_Sn_TH_BETA (n : Nat) : Nat := 0x20A0011C + 0x80 * n
abbrev SBL_Sn_LEVELS (n : Nat) : Nat := 0x20A00120 + 0x80 * n
abbrev SBL_Sn_LIMITS (n : Nat) : Nat := 0x20A00124 + 0x80 * n
abbrev SBL_Sn_RAW_I (n : Nat) : Nat := 0x20A00128 + 0x80 * n
abbrev SBL_Sn_RAW_V (n : Nat) : Nat := 0x20A0012C + 0x80 * n
abbrev SBL_Sn_RAW_T (n : Nat) : Nat := 0x20A00130 + 0x80 * n
abbrev SBL_Sn_Q_LO (n : Nat) : Nat := 0x20A00134 + 0x80 * n
abbrev SBL_Sn_Q_HI (n : Nat) : Nat := 0x20A00138 + 0x80 * n
abbrev SBL_Sn_FCC_MAH (n : Nat) : Nat := 0x20A0013C + 0x80 * n
abbrev SBL_Sn_A_MAH (n : Nat) : Nat := 0x20A00140 + 0x80 * n
abbrev SBL_Sn_TTR_S (n : Nat) : Nat := 0x20A00144 + 0x80 * n
abbrev SBL_Sn_STATE (n : Nat) : Nat := 0x20A00148 + 0x80 * n
abbrev SBL_Sn_SAT (n : Nat) : Nat := 0x20A0014C + 0x80 * n
abbrev SBL_Sn_LAST_CAL_LO (n : Nat) : Nat := 0x20A00150 + 0x80 * n
abbrev SBL_Sn_LAST_CAL_HI (n : Nat) : Nat := 0x20A00154 + 0x80 * n
abbrev SBL_TAB (n : Nat) : Nat := 0x20A01000 + 0x200 * n
abbrev GRD_CFG (n : Nat) : Nat := 0x20E00000 + 0x8000 * n
abbrev GRD_FAULT_LATCH (n : Nat) : Nat := 0x20E00004 + 0x8000 * n
abbrev GRD_FAULT_INFO (n : Nat) : Nat := 0x20E00008 + 0x8000 * n
abbrev GRD_FAULT_ADDR_LO (n : Nat) : Nat := 0x20E00010 + 0x8000 * n
abbrev GRD_FAULT_ADDR_HI (n : Nat) : Nat := 0x20E00014 + 0x8000 * n
abbrev GRD_FAULT_TIME_LO (n : Nat) : Nat := 0x20E00018 + 0x8000 * n
abbrev GRD_FAULT_TIME_HI (n : Nat) : Nat := 0x20E0001C + 0x8000 * n
abbrev GRD_DENY_RD (n : Nat) : Nat := 0x20E00020 + 0x8000 * n
abbrev GRD_DENY_WR (n : Nat) : Nat := 0x20E00024 + 0x8000 * n
abbrev GRD_LOCK_DROP (n : Nat) : Nat := 0x20E00028 + 0x8000 * n
abbrev FLT_SEQ : Nat := 0x20EC0000
abbrev FLT_CLASS_COUNT : Nat := 0x20EC0008
abbrev FLT_LOG_NEXT : Nat := 0x20EC0080
abbrev FLT_LOG_QLVL : Nat := 0x20EC0084
abbrev FLT_LOG_DROP : Nat := 0x20EC0088
abbrev FLT_DEBUG : Nat := 0x20EC008C
abbrev FLT_SRAM_CE : Nat := 0x20EC0090
abbrev FLT_SRAM_UE : Nat := 0x20EC0094
abbrev FLT_INT_STATUS : Nat := 0x20EC00C0
abbrev FLT_INT_EN : Nat := 0x20EC00C4
abbrev DDR_ECC_CTRL : Nat := 0x20ED0000
abbrev DDR_Cn_CE : Nat := 0x20ED0010
abbrev DDR_Cn_UE : Nat := 0x20ED0014
abbrev DDR_Cn_LAST_LO : Nat := 0x20ED0018
abbrev DDR_Cn_LAST_HI : Nat := 0x20ED001C

end R

end Sys2Proof.Machine
end

