-- ==== Sys2Proof/Machine/Flags.lean ====
section
/-! DEFINITION. Record flags (01 R22), source masks (01 R23), generation and epoch order (01 R27), stamps as times. -/

namespace Sys2Proof.Machine

/-- The outcome type of `exec` and `step`. -/
abbrev Res := Host.Outcome State Fault Refusal

/-! Flag bits of 01 R22. -/
abbrev flHoldover : Word := 0x001
abbrev flMixedGen : Word := 0x002
abbrev flApprox : Word := 0x004
abbrev flInputGap : Word := 0x008
abbrev flEpochCross : Word := 0x010
abbrev flSpeculative : Word := 0x020
abbrev flAngleExtrap : Word := 0x040
abbrev flSkipped : Word := 0x080
abbrev flBattery : Word := 0x100

/-! Source bits of 01 R23. -/
abbrev srcPort (p : Nat) : Word := BitVec.ofNat 32 (2 ^ (p % 8))
abbrev srcTdm (p : Nat) : Word := BitVec.ofNat 32 (2 ^ (8 + p % 4))
abbrev srcDerived : Word := 0x1000
abbrev srcEncoder : Word := 0x2000
abbrev srcImu : Word := 0x4000
abbrev srcSable : Word := 0x8000
abbrev srcMember (d : Nat) : Word := BitVec.ofNat 32 (2 ^ (16 + d % 4))

/-- A flag, where a condition holds. -/
def flagIf (b : Bool) (f : Word) : Word := if b then f else 0

/-- 01 R27: `b` is newer than `a` modulo 2^16. -/
def newer (a b : BitVec 16) : Bool := 1 ≤ (b - a).toNat && (b - a).toNat ≤ 32767

/-- The newer of two generations or epochs. -/
def newerOf (a b : BitVec 16) : BitVec 16 := if newer a b then b else a

/-- Bits `hi` to `lo` of a word. -/
def fld (w : Word) (hi lo : Nat) : Nat := w.toNat / 2 ^ lo % 2 ^ (hi + 1 - lo)

/-- A word with bits `hi` to `lo` set to a value. -/
def setFld (w : Word) (hi lo : Nat) (v : Nat) : Word :=
  BitVec.ofNat 32 (w.toNat - fld w hi lo * 2 ^ lo + v % 2 ^ (hi + 1 - lo) * 2 ^ lo)

/-- A bit of a word as a Bool. -/
def bit (w : Word) (k : Nat) : Bool := w.toNat.testBit k

/-- A word of a natural number. -/
abbrev w32 (n : Nat) : Word := BitVec.ofNat 32 n

/-- A Bool as 0 or 1. -/
def b2n (b : Bool) : Nat := if b then 1 else 0

/-- Two's complement value of the low `k` bits of a number. -/
def sext (k n : Nat) : Int := let m := n % 2 ^ k; if 2 ^ (k - 1) ≤ m then (m : Int) - 2 ^ k else m

/-- A signed number as `k` bits. -/
def wrapBits (k : Nat) (i : Int) : Nat := (i % 2 ^ k).toNat

/-- A signed number clamped to a range. -/
def clampI (lo hi i : Int) : Int := if i < lo then lo else if hi < i then hi else i

/-- Farm time of a stamp in ns. -/
def Stamp.farm (t : Stamp) : Nat := t.sec * 1000000000 + t.ns

/-- TS32 of a stamp (01 R25). -/
def Stamp.ts32 (t : Stamp) : Word := BitVec.ofNat 32 t.farm

/-- The HOLDOVER flag that a stamp gives its contribution (02 R33). -/
def Stamp.flag (t : Stamp) : Word := flagIf t.holdover flHoldover

/-- The stamp of time zero. -/
def Stamp.zero : Stamp := ⟨0, 0, 0, 0, false⟩

/-- EPOCH_CROSS for contributions of these epochs (01 R22). -/
def epochFlag (es : List (BitVec 16)) : Word :=
  match es with
  | [] => 0
  | e :: t => flagIf (t.any fun f => f != e) flEpochCross

/-- An epoch list with an epoch added once. -/
def addEpoch (es : List (BitVec 16)) (e : BitVec 16) : List (BitVec 16) := if es.contains e then es else e :: es

/-- 01 R21: age in µs, saturating, 0 for an oldest stamp in the future. -/
def ageUs (now : Nat) (oldest : Int) : Nat := Nat.min (((now : Int) - oldest).toNat / 1000) 0xFFFFFFFF

/-! Little-endian byte strings (00 R7). -/

/-- The `k` low bytes of a number. -/
def leBytes : Nat → Nat → Bytes
  | 0, _ => []
  | k + 1, n => BitVec.ofNat 8 n :: leBytes k (n / 256)

/-- The number that bytes spell. -/
def leNat : Bytes → Nat
  | [] => 0
  | b :: bs => b.toNat + 256 * leNat bs

/-- The number that bytes spell, highest first. -/
def beNat (b : Bytes) : Nat := b.foldl (fun n x => n * 256 + x.toNat) 0

/-- The `k` low bytes of a number, highest first. -/
def beBytes (k n : Nat) : Bytes := (leBytes k n).reverse

/-- `k` bytes at an offset; bytes past the end read as zero. -/
def slice (b : Bytes) (off k : Nat) : Bytes := ((b.drop off).take k) ++ List.replicate (k - (b.length - off)) 0

/-- Bytes with zeros added up to a length. -/
def padTo (n : Nat) (b : Bytes) : Bytes := b ++ List.replicate (n - b.length) 0

/-- Bytes with a string written over them at an offset. -/
def putBytes (b : Bytes) (off : Nat) (d : Bytes) : Bytes :=
  let c := padTo (off + d.length) b
  c.take off ++ d ++ c.drop (off + d.length)

/-- Unsigned fields of a block. -/
def u8 (b : Bytes) (off : Nat) : Nat := leNat (slice b off 1)
def u16 (b : Bytes) (off : Nat) : Nat := leNat (slice b off 2)
def u32 (b : Bytes) (off : Nat) : Nat := leNat (slice b off 4)
def u48 (b : Bytes) (off : Nat) : Nat := leNat (slice b off 6)
def u64 (b : Bytes) (off : Nat) : Nat := leNat (slice b off 8)

/-- Signed fields of a block. -/
def i8 (b : Bytes) (off : Nat) : Int := sext 8 (u8 b off)
def i16 (b : Bytes) (off : Nat) : Int := sext 16 (u16 b off)
def i32 (b : Bytes) (off : Nat) : Int := sext 32 (u32 b off)

end Sys2Proof.Machine
end

