-- ==== Sys2Proof/Machine/Ops.lean ====
section
/-! DEFINITION. The named operations over registers, memories, time, interrupt sources, records, faults and heaps that
every family of commands shares. -/

namespace Sys2Proof.Machine

/-! ## Registers (00 R8) -/

/-- 13 R244: entries of a guard. -/
def guardEntries (g : Nat) : Nat := if g = 1 then 1280 else if g = 17 then 256 else if g = 18 then 1536 else 64

/-- 13 R244: the window of a guard's target: base and SIZE_LOG2. -/
def guardWindow (g : Nat) : Nat × Nat :=
  if g = 0 then (0, 24) else if g = 1 then (0x10000000, 24)
  else if g < 17 then (0x20000000 + (g - 2) * 0x100000, 20)
  else if g = 17 then (0x40000000, 25) else (0x1000000000, 35)

/-- 13 R249: a word of the entry table of a guard after reset, at its offset in the guard's block: entry 0 admits MP to the
whole target; every other entry is zero but for HOST in the host-managed range (13 R245). -/
def entryReset (g off : Nat) : Word :=
  let w := guardWindow g
  if off < 0x1000 ∨ 0x1000 + 16 * guardEntries g ≤ off then 0
  else match (off - 0x1000) / 4 with
    | 0 => BitVec.ofNat 32 (w.1 % 0x100000000)
    | 1 => BitVec.ofNat 32 (w.1 / 0x100000000 + w.2 * 256)
    | 2 => 0x0FFF0000
    | 3 => 0xFFFF000F
    | k => if k % 4 = 3 ∧ guardEntries g - 32 ≤ k / 4 then 0x10 else 0

/-- The reset value of the register at an address; zero where none is. -/
def regReset (a : Nat) : Word :=
  match regDef a with
  | some d => d.rst
  | none => if 0x20E00000 ≤ a ∧ a < 0x20E98000 then entryReset ((a - 0x20E00000) / 0x8000) (a % 0x8000) else 0

/-- The stored value of a register. -/
def State.reg (s : State) (a : Nat) : Word := s.regs.getD a (regReset a)

/-- The state with a register stored. -/
def State.setReg (s : State) (a : Nat) (v : Word) : State := { s with regs := s.regs.put a v (regReset a) }

/-- A register as a number. -/
def State.regN (s : State) (a : Nat) : Nat := (s.reg a).toNat

/-- A wrapping counter. -/
def State.bump (s : State) (a : Nat) (n : Nat := 1) : State := s.setReg a (w32 (s.regN a + n))

/-- A counter that saturates at 2^32 - 1. -/
def State.bumpSat (s : State) (a : Nat) (n : Nat := 1) : State :=
  s.setReg a (w32 (Nat.min (s.regN a + n) 0xFFFFFFFF))

/-- A 64-bit value held as _LO at `a` and _HI at `a + 4`. -/
def State.reg64 (s : State) (a : Nat) : Nat := s.regN a + s.regN (a + 4) * 0x100000000

def State.setReg64 (s : State) (a : Nat) (v : Nat) : State :=
  (s.setReg a (w32 v)).setReg (a + 4) (w32 (v / 0x100000000))

/-- A field of a register set. -/
def State.setRegFld (s : State) (a hi lo : Nat) (v : Nat) : State := s.setReg a (setFld (s.reg a) hi lo v)

/-- A field of a register. -/
def State.regFld (s : State) (a hi lo : Nat) : Nat := fld (s.reg a) hi lo

/-- A bit of a register. -/
def State.regBit (s : State) (a k : Nat) : Bool := bit (s.reg a) k

/-- Registers at consecutive words set from a list. -/
def State.setRegs (s : State) (a : Nat) : List Word → State
  | [] => s
  | v :: vs => State.setRegs (s.setReg a v) (a + 4) vs

/-- The registers in `[lo, hi)` back at their reset values, but for those that `keep` names. -/
def State.resetRegs (s : State) (lo hi : Nat) (keep : Nat → Bool := fun _ => false) : State :=
  { s with regs := s.regs.filter fun e => !(lo ≤ e.1 && e.1 < hi) || keep e.1 }

/-- The new value of a register after a write (00 R8, R9). -/
def writeVal (d : RegDef) (old v : Word) : Word := ((old &&& ~~~ d.rw) ||| (v &&& d.rw)) &&& ~~~ (v &&& d.w1c)

/-! ## Memories -/

/-- A byte of memory; an unlisted byte reads as zero. -/
def readByte (m : Memory) (a : Nat) : Byte := AMap.getD m a 0

/-- Bytes of a range zeroed. -/
def zeroRange (m : Memory) (a n : Nat) : Memory := m.filter fun e => !(a ≤ e.1 && e.1 < a + n)

/-- A byte written, in the canonical form. -/
def writeByte (m : Memory) (a : Nat) (b : Byte) : Memory := AMap.put m a b 0

/-- `k` bytes from an address. -/
def readBytes (m : Memory) (a : Nat) : Nat → Bytes
  | 0 => []
  | k + 1 => readByte m a :: readBytes m (a + 1) k

/-- Bytes written from an address. -/
def writeBytes (m : Memory) (a : Nat) : Bytes → Memory
  | [] => m
  | b :: bs => writeBytes (writeByte m a b) (a + 1) bs

/-- `Memory.wf` says the canonical form holds: addresses strictly rising, no listed byte zero. -/
def Memory.wf (m : Memory) : Bool := AMap.wf m 0

/-- Device memory and host memory are in canonical form. -/
def State.Mems (s : State) : Prop := Memory.wf s.mem = true ∧ Memory.wf s.hostMem = true

/-! ## Functions, contexts and paths (10 R189, R203) -/

/-- A function's block; an untouched function stands at its initial values. -/
def State.func (s : State) (f : Nat) : Func := s.host.fns.getD f Func.init

def State.modHost (s : State) (f : HostIf → HostIf) : State := { s with host := f s.host }

def State.setFunc (s : State) (f : Nat) (x : Func) : State := { s with host := { s.host with fns := s.host.fns.set f x } }

/-- VFs enabled (HIF_NUMVFS). -/
def State.numVfs (s : State) : Nat := s.regFld R.HIF_NUMVFS 4 0

/-- The function exists: the PF, or a VF that NumVFs covers. -/
def State.fnEnabled (s : State) (f : Nat) : Bool := f ≤ s.numVfs

/-- 10 R189: the function may master. -/
def State.mayMaster (s : State) (f : Nat) : Bool := (s.func f).dState = 0 && (s.func f).bme

def State.ctx? (s : State) (c : Nat) : Option Ctx := s.host.ctxs.get? c

def State.setCtx (s : State) (c : Nat) (x : Ctx) : State := { s with host := { s.host with ctxs := s.host.ctxs.set c x } }

/-- The context's generation; zero for a context that does not exist. -/
def State.ctxGen (s : State) (c : Nat) : BitVec 16 := match s.ctx? c with | some x => x.gen | none => 0

/-- Number of a ring's block: ring `r` of function `f` (10 register map). -/
def ringNo (f r : Nat) : Nat := f * 15 + r

def State.ring (s : State) (f r : Nat) : Ring := s.host.rings.getD (ringNo f r) Ring.init

def State.setRing (s : State) (f r : Nat) (x : Ring) : State :=
  { s with host := { s.host with rings := s.host.rings.set (ringNo f r) x } }

/-- Ring enabled (HIF_RINGn_CFG EN). -/
def State.ringEn (s : State) (f r : Nat) : Bool := s.regBit (R.HIF_RINGn_CFG (ringNo f r)) 8

/-- Ring with target Ethernet (10 R213). -/
def State.ringEth (s : State) (f r : Nat) : Bool := s.regBit (R.HIF_RINGn_CFG (ringNo f r)) 9

/-! ## Time (02 R31, R35) -/

/-- Steady time in ns at the present tick, truncated (02 R31). -/
def State.now (s : State) : Nat := s.amber.steadyQ / 65536

/-- 02 R33: Amber counts as in holdover. -/
def Amber.inHoldover (a : Amber) : Bool := a.state ≠ .locked

/-- A farm count in ns as a stamp. -/
def mkStamp (a : Amber) (farmNs steadyNs : Nat) : Stamp :=
  ⟨farmNs / 1000000000 % 2 ^ 48, farmNs % 1000000000, a.epoch, steadyNs, a.inHoldover⟩

/-- Farm time wraps with its 48-bit seconds (02 R31). -/
abbrev farmModQ : Nat := 2 ^ 48 * 1000000000 * 65536

/-- The target of an armed step (AMB_STEP_SEC, AMB_STEP_NS), in ns. -/
def State.stepTarget (s : State) : Nat :=
  (s.regN R.AMB_STEP_SEC_LO + s.regFld R.AMB_STEP_SEC_HI 15 0 * 0x100000000) * 1000000000 + s.regN R.AMB_STEP_NS

/-- 02 R38, R39: an offset is stepped, not slewed. -/
def State.stepsBy (s : State) (off : Int) : Bool := s.regN R.AMB_STEP_THR < off.natAbs

/-- Farm time moved by an offset in ns, in ns. -/
def Amber.offsetBy (a : Amber) (off : Int) : Nat := (((a.farmQ : Int) + off * 65536) / 65536 % (2 ^ 48 * 1000000000)).toNat

/-- The offset that Belrix passed and that the present tick applies (02 R38, R43). -/
def State.dueOffset (s : State) : Option Int := if s.amber.servoDue then s.amber.servo else none

/-- The farm time in ns to which a step of the present tick sets Amber. Of a servo's step and one that AMB_STEP_CMD armed
for the same tick the servo's is taken (DESIGN CHOICE, log entry 39). -/
def State.dueStep (s : State) : Option Nat :=
  let armed := if s.amber.stepDue then some s.stepTarget else none
  match s.dueOffset with
  | some off => if s.stepsBy off then some (s.amber.offsetBy off) else armed
  | none => armed

/-- Amber as every stamping block sees it from the present tick on: with the step and the LOCKED state that the tick
applies (02 R35, R39, R43), whether or not their own row has come yet. -/
def State.clock (s : State) : Amber :=
  let a := if s.dueOffset.isSome then { s.amber with state := .locked } else s.amber
  match s.dueStep with
  | some t => { a with farmQ := t * 65536 % farmModQ, epoch := a.epoch + 1 }
  | none => a

/-- The stamp of the present tick, truncated (02 R31). -/
def State.tickStamp (s : State) : Stamp := mkStamp s.clock (s.clock.farmQ / 65536) s.now

/-- A stamp `q` 2^-16 ns after the present tick, rounded half up (02 R35). -/
def State.stampQ (s : State) (q : Nat) : Stamp :=
  mkStamp s.clock ((s.clock.farmQ + q + 32768) / 65536) ((s.amber.steadyQ + q + 32768) / 65536)

/-- 02 R35: the stamp of a CLK_EVT edge, `cycles` of 2.5 ns after the tick. -/
def State.stampEvt (s : State) (cycles : Nat) : Stamp := s.stampQ (cycles * 163840)

/-- 02 R35: the stamp of the interpolator, `ns` after the tick. -/
def State.stampNs (s : State) (ns : Nat) : Stamp := s.stampQ (ns * 65536)

/-! ## Free values -/

/-- The next free value: nothing constrains it (log entry 5). -/
def State.free (s : State) : BitVec 64 := Config.freeValue s.freeCtr

/-- The state after `n` free values were taken. -/
def State.tookFree (s : State) (n : Nat := 1) : State := { s with freeCtr := s.freeCtr + n }

/-! ## Interrupt sources (15 R282) -/

/-- The status register and bit of an internal source (15 R280). -/
def intStatus (n : Nat) : Option (Nat × Nat) :=
  if n < 32 then some (R.OCH_INT_STATUS_LO, n)
  else if n < 64 then some (R.OCH_INT_STATUS_HI, n - 32)
  else if n < 96 then some (R.COB_INT_STATUS, n - 64)
  else if n < 128 then some (R.SEP_INT_STATUS, n - 96)
  else if n < 160 then some (R.UMB_INT_STATUS_LO, n - 128)
  else if n < 192 then some (R.UMB_INT_STATUS_HI, n - 160)
  else if n < 224 then some (R.VIR_INT_STATUS, n - 192)
  else if n < 256 then some (R.IDG_INT_STATUS_LO, n - 224)
  else if n < 288 then some (R.IDG_INT_STATUS_HI, n - 256)
  else if n < 320 then some (R.SLT_INT_STATUS_LO, n - 288)
  else if n < 352 then some (R.SLT_INT_STATUS_HI, n - 320)
  else if n < 384 then some (R.AMB_INT_STATUS, n - 352)
  else if n < 400 then some (R.IVR_INT_STATUS, n - 384)
  else if n < 416 then some (R.SBL_INT_STATUS, n - 400)
  else if n < 448 then some (R.TEAL_INT_STATUS, n - 416)
  else if n < 480 then some (R.HIF_INT_STATUS, n - 448)
  else if n < 499 then some (R.GRD_FAULT_LATCH (n - 480), 0)
  else if n < 512 then some (R.FLT_INT_STATUS, n - 499)
  else none

/-- The enable register and bit of an internal source; a guard's latch has none and is always forwarded. -/
def intEnable (n : Nat) : Option (Nat × Nat) :=
  if n < 32 then some (R.OCH_INT_EN_LO, n)
  else if n < 64 then some (R.OCH_INT_EN_HI, n - 32)
  else if n < 96 then some (R.COB_INT_EN, n - 64)
  else if n < 128 then some (R.SEP_INT_EN, n - 96)
  else if n < 160 then some (R.UMB_INT_EN_LO, n - 128)
  else if n < 192 then some (R.UMB_INT_EN_HI, n - 160)
  else if n < 224 then some (R.VIR_INT_EN, n - 192)
  else if n < 256 then some (R.IDG_INT_EN_LO, n - 224)
  else if n < 288 then some (R.IDG_INT_EN_HI, n - 256)
  else if n < 320 then some (R.SLT_INT_EN_LO, n - 288)
  else if n < 352 then some (R.SLT_INT_EN_HI, n - 320)
  else if n < 384 then some (R.AMB_INT_EN, n - 352)
  else if n < 400 then some (R.IVR_INT_EN, n - 384)
  else if n < 416 then some (R.SBL_INT_EN, n - 400)
  else if n < 448 then some (R.TEAL_INT_EN, n - 416)
  else if n < 480 then some (R.HIF_INT_EN, n - 448)
  else if n < 499 then none
  else if n < 512 then some (R.FLT_INT_EN, n - 499)
  else none

/-- 15 R282: a source asserts when its block's status bit is set. -/
def State.assertSource (s : State) (n : Nat) : State :=
  match intStatus n with
  | some (a, k) => s.setReg a (s.reg a ||| w32 (2 ^ k))
  | none => s

def State.assertSourceIf (s : State) (c : Bool) (n : Nat) : State := if c then s.assertSource n else s

/-- 15 R282: the line of an internal source. -/
def State.sourceLine (s : State) (n : Nat) : Bool :=
  match intStatus n with
  | some (a, k) => s.regBit a k && (match intEnable n with | some (b, j) => s.regBit b j | none => true)
  | none => false

/-! ## Records (01 R20, R21) -/

/-- The length of a record: header and body, a multiple of 8. -/
def Rec.length (r : Rec) : Nat := (32 + r.body.length + 7) / 8 * 8

/-- The bytes of a record (01 R20). -/
def Rec.bytes (r : Rec) : Bytes :=
  padTo r.length
    (leBytes 2 r.type ++ leBytes 2 r.length ++ leBytes 2 r.ctx ++ leBytes 2 r.epoch.toNat ++ leBytes 6 r.sec ++
      leBytes 2 r.gen.toNat ++ leBytes 4 r.ns ++ leBytes 4 r.age ++ leBytes 4 r.flags.toNat ++
      leBytes 4 r.mask.toNat ++ r.body)

/-- Bytes that a producer's staged records occupy. -/
def State.stagedBytes (s : State) (p : Producer) : Nat :=
  (s.host.staged.filter fun x => x.prod = p).foldl (fun n x => n + x.recd.length) 0

/-- A record put at the end of the staged records, for a ring. -/
def State.putStaged (s : State) (x : Staged) : State := { s with host := { s.host with staged := s.host.staged ++ [x] } }

/-- Where a record goes: the context's ring, or ring 0 of the PF (10 R207). -/
def State.route (s : State) (ctx : Option Nat) : Option (Nat × Nat) :=
  match ctx with
  | some c => match s.ctx? c with
    | some x => some (x.fn, x.ring)
    | none => none
  | none => some (0, 0)

/-- The flags of a record at its emission: those of its contributions and BATTERY_SOURCE (01 R22). -/
def State.emitFlags (s : State) (f : Word) : Word := f ||| flagIf s.sable.onBattery flBattery

/-- A record is staged for its ring as it stands (10 R207). A device-scope record meets a disabled ring 0 of the PF
discarded and counted; a record of a context that is gone is not formed. -/
def State.stageRec (s : State) (p : Producer) (ctx : Option Nat) (r : Rec) : State :=
  match s.route ctx with
  | none => s
  | some (f, k) =>
    if ctx = none ∧ ¬ s.ringEn 0 0 then s.bumpSat R.HIF_DEV_REC_DISC else s.putStaged ⟨f, k, p, r⟩

/-- A record of a block is emitted: its age and its BATTERY_SOURCE are taken now (01 R21, R22). -/
def State.emit (s : State) (p : Producer) (ctx : Option Nat) (type : Nat) (tov : Stamp) (oldest : Int)
    (flags mask : Word) (gen : BitVec 16) (body : Bytes) : State :=
  s.stageRec p ctx
    { type := type, ctx := ctx.getD 0xFFFF, epoch := tov.epoch, sec := tov.sec, ns := tov.ns, gen := gen,
      age := ageUs s.now oldest, flags := s.emitFlags flags, mask := mask, body := body }

/-- 02 R37: a TIME_ANCHOR record for the PF or, as a copy (03 R69), for a context: age 0, and no flag but HOLDOVER. -/
def anchorRec (ctx : Option Nat) (gen : BitVec 16) (tov : Stamp) (body : Bytes) : Rec :=
  { type := 0x0002, ctx := ctx.getD 0xFFFF, epoch := tov.epoch, sec := tov.sec, ns := tov.ns, gen := gen, age := 0,
    flags := tov.flag, mask := 0, body := body }

/-! ## CRC-32 (18 R347) -/

/-- One bit of the reflected CRC-32. -/
def crcBit (c : Nat) : Nat := if c % 2 = 1 then (c / 2).xor 0xEDB88320 else c / 2

def crcByte (c : Nat) (b : Byte) : Nat :=
  crcBit (crcBit (crcBit (crcBit (crcBit (crcBit (crcBit (crcBit (c.xor b.toNat))))))))

/-- CRC-32 with the IEEE 802.3 polynomial. -/
def crc32 (b : Bytes) : Nat := (b.foldl crcByte 0xFFFFFFFF).xor 0xFFFFFFFF

/-! ## Faults (18 R343 to R347) -/

/-- 18 R343: classes that are appended to the persistent log. -/
def persisted (cls : Nat) : Bool := (4 ≤ cls && cls ≤ 13) || cls = 15

/-- 18 R345. -/
def severity (cls : Nat) : Nat :=
  if cls = 7 ∨ cls = 11 ∨ cls = 15 then 0
  else if (1 ≤ cls ∧ cls ≤ 3) ∨ cls = 6 ∨ cls = 8 ∨ cls = 12 ∨ cls = 14 then 1 else 2

/-- A log entry (18 R347). -/
def logEntry (cls logSeq faultSeq unit master : Nat) (t : Stamp) (addr : Nat) (args : List Word) : Bytes :=
  let a := padTo 16 ((args.take 4).flatMap fun w => leBytes 4 w.toNat)
  let b := leBytes 2 0x4C46 ++ leBytes 2 cls ++ leBytes 4 logSeq ++ leBytes 4 faultSeq ++ leBytes 2 unit ++
    leBytes 2 master ++ leBytes 8 t.steady ++ leBytes 6 t.sec ++ leBytes 2 t.epoch.toNat ++ leBytes 4 t.ns ++
    leBytes 8 addr ++ a
  b ++ leBytes 4 (crc32 b)

/-- The body of a FAULT record (18 R345). -/
def faultBody (r : FaultRec) : Bytes :=
  leBytes 2 r.cls ++ leBytes 1 (severity r.cls) ++ leBytes 1 (b2n r.logged + 2 * b2n r.copyCtx.isSome) ++
  leBytes 4 r.seq.toNat ++ leBytes 2 r.unit ++ leBytes 2 r.master ++ leBytes 4 r.count ++ leBytes 8 r.addr ++
  leBytes 8 r.stamp.steady ++ padTo 32 ((r.args.take 8).flatMap fun w => leBytes 4 w.toNat)

/-- A FAULT record is staged, with its copy (18 R344), and source 499 asserts (18 R352). -/
def State.stageFault (s : State) (r : FaultRec) : State :=
  let s1 := s.emit .faults none 0x0070 r.stamp r.stamp.steady r.stamp.flag 0 0 (faultBody r)
  let s2 := match r.copyCtx with
    | some c => s1.emit .faults (some c) 0x0070 r.stamp r.stamp.steady r.stamp.flag 0 (s1.ctxGen c) (faultBody r)
    | none => s1
  s2.assertSource 499

/-- The log's queue: room for an entry (18 R347). -/
def State.logRoom (s : State) : Bool := s.faults.queue.length < 64

/-- A log entry queued, taking the next log_seq; without room it is a drop (18 R347). -/
def State.queueLog (s : State) (cls faultSeq unit master : Nat) (t : Stamp) (addr : Nat) (args : List Word) : State :=
  if s.logRoom then
    let e := logEntry cls (s.regN R.FLT_LOG_NEXT) faultSeq unit master t addr args
    ({ s with faults := { s.faults with queue := s.faults.queue ++ [e] } }).bump R.FLT_LOG_NEXT
  else (({ s with faults := { s.faults with drops := s.faults.drops + 1 } }).bumpSat R.FLT_LOG_DROP).assertSource 504

/-- Key of a (class, unit) pair. -/
def pairKey (cls unit : Nat) : Nat := cls * 1024 + unit

/-- 18 R346: an occurrence of a fault: counted, and formed, or merged into the pair's pending record. `log` false is
the FLASH_ERROR of a failed append, which is not itself appended. -/
def State.raiseFault (s : State) (cls unit : Nat) (master : Nat := 0xFFFF) (addr : Nat := 0) (args : List Word := [])
    (copyCtx : Option Nat := none) (log : Bool := true) : State :=
  let s1 := (s.bump R.FLT_SEQ).bumpSat (R.FLT_CLASS_COUNT + 4 * (cls - 1))
  let k := pairKey cls unit
  let logged := log && persisted cls && s1.logRoom
  let fresh : FaultRec :=
    { cls := cls, unit := unit, master := master, addr := addr, args := args, count := 1, stamp := s.tickStamp,
      logged := logged, copyCtx := copyCtx, seq := s1.reg R.FLT_SEQ }
  let logIt := fun (t : State) =>
    if log && persisted cls then t.queueLog cls (s1.regN R.FLT_SEQ) unit master s.tickStamp addr args else t
  let store := fun (t : State) (p : FaultPair) => { t with faults := { t.faults with pairs := t.faults.pairs.set k p } }
  match s.faults.pairs.get? k with
  | some p =>
    match p.pend with
    | some r => store s1 { p with pend := some { r with count := r.count + 1 } }
    | none =>
      if s.now - p.formedAt < 1000000 then logIt (store s1 { p with formedAt := s.now, pend := some fresh })
      else logIt ((store s1 { formedAt := s.now, stagedAt := s.now, pend := none }).stageFault fresh)
  | none => logIt ((store s1 { formedAt := s.now, stagedAt := s.now, pend := none }).stageFault fresh)

/-! ## Address map and guards (01 R15, 13 R244) -/

abbrev dramBase : Nat := 0x1000000000
abbrev sramBase : Nat := 0x10000000

/-- Inline ECC in force since the last power-on reset. -/
def State.eccOn (s : State) : Bool := s.regBit R.DDR_ECC_CTRL 0

/-- 01 R17: bytes of the usable DRAM window. -/
def State.dramLen (s : State) : Nat :=
  if !s.sys.dramTrained then 0
  else if s.eccOn then s.board.dramMib * 1048576 / 16 * 15 else s.board.dramMib * 1048576

/-- Address of word `w` of entry `i` of guard `g`. -/
def entryAddr (g i w : Nat) : Nat := R.GRD_CFG g + 0x1000 + 16 * i + 4 * w

/-- The four words of a guard entry (13 R245). -/
def State.guardEntry (s : State) (g i : Nat) : Word × Word × Word × Word :=
  (s.reg (entryAddr g i 0), s.reg (entryAddr g i 1), s.reg (entryAddr g i 2), s.reg (entryAddr g i 3))

def State.setGuardEntry (s : State) (g i : Nat) (a b c d : Word) : State :=
  s.setRegs (entryAddr g i 0) [a, b, c, d]

/-- First entry of the system range without VALID, from entry `i` with `fuel` to go. -/
def State.freeEntry (s : State) (g : Nat) : Nat → Nat → Option Nat
  | 0, _ => none
  | n + 1, i => if s.regBit (entryAddr g i 3) 0 then State.freeEntry s g n (i + 1) else some i

/-- A locked system entry installed for a region (13 R245, R249). Without a free entry nothing is installed. -/
def State.addEntry (s : State) (g base log2 idVal idMask perms owner : Nat) : State :=
  match s.freeEntry g (guardEntries g - 32) 0 with
  | some i => s.setGuardEntry g i (w32 (base % 0x100000000 / 64 * 64)) (w32 (base / 0x100000000 % 256 + log2 * 256))
      (w32 (idVal + idMask * 65536)) (w32 (1 + perms * 2 + owner * 65536))
  | none => s

/-- The largest naturally aligned power of two that starts at `a` and fits in `n` bytes, as its exponent. -/
def alignLog (a n : Nat) : Nat → Nat
  | 0 => 6
  | k + 1 => if a % 2 ^ (k + 7) = 0 ∧ 2 ^ (k + 7) ≤ n then k + 7 else alignLog a n k

/-- Entries over `n` bytes of a region: an ID and a mask, permissions, an owner; at most `k` of them. -/
def State.cover (s : State) (g idVal idMask perms owner base : Nat) : Nat → Nat → State
  | 0, _ => s
  | k + 1, n =>
    if n = 0 then s
    else
      let l := alignLog base n 29
      State.cover (s.addEntry g base l idVal idMask perms owner) g idVal idMask perms owner (base + 2 ^ l) k
        (n - Nat.min n (2 ^ l))

/-- 13 R251: entries that fence a region of a context, with some permissions under the context's own ID. -/
def State.fence (s : State) (g c perms base n : Nat) : State := s.cover g (0x400 + c) 0xFFF perms c base 64 n

/-- 13 R251: the entries of an owner cleared, over a guard's entries from `i`. -/
def State.dropEntries (s : State) (g c : Nat) : Nat → Nat → State
  | 0, _ => s
  | n + 1, i =>
    State.dropEntries
      (if s.regBit (entryAddr g i 3) 0 && s.regFld (entryAddr g i 3) 31 16 = c then s.setGuardEntry g i 0 0 0 0 else s)
      g c n (i + 1)

/-! ## Heaps (01 R374) -/

/-- Extents hold 64-byte units, the smallest region of a guard entry (log entry 8). -/
def align64 (n : Nat) : Nat := (n + 63) / 64 * 64

/-- First fit: the lowest gap of `n` bytes at or above `cur` before `top`. -/
def firstFit (n top : Nat) : Nat → List Extent → Option Nat
  | cur, [] => if cur + n ≤ top then some cur else none
  | cur, e :: es => if cur + n ≤ e.base then some cur else firstFit n top (e.base + e.len) es

/-- An extent put in order of its base. -/
def insExtent (x : Extent) : List Extent → List Extent
  | [] => [x]
  | e :: es => if x.base < e.base then x :: e :: es else e :: insExtent x es

/-- What an extent holds. -/
abbrev exModel : Nat := 1
abbrev exWeights : Nat := 2
abbrev exStack : Nat := 3
abbrev exSpill : Nat := 4
abbrev exBlocks : Nat := 5
abbrev exUpload : Nat := 6
abbrev exState : Nat := 7
abbrev exLayers : Nat := 8
abbrev exWindow : Nat := 9
abbrev exQueue : Nat := 10
abbrev exFixed : Nat := 11
/-- What a reserved extent holds until its command applies. -/
abbrev exPending : Nat := 12
abbrev exComb : Nat := 13

/-- The bounds of the DRAM heap and of the shared SRAM heap; the fixed buffers take the first 256 KiB of bank 1
(log entry 8). -/
def State.dramHeap (s : State) : Nat × Nat := (dramBase + 0x4000000, dramBase + s.dramLen)
def sramHeap : Nat × Nat := (sramBase + 0x100000 + 0x40000, sramBase + 0x1000000)

/-- Permissions that the host DMA engine, the Ethernet DMA and the Slate engine need in a region when they act for its context
(13 R251): READ 1, WRITE 2. A package is written; a revolution stack is read for its ROTOR_MAP; spill buffers, upload windows,
queues and combining buffers are both; what only tiles, Viridian or Belrix reach is neither (log entry 26). A region of DRAM
that a staged command holds is a stack's. -/
def extentPerms (g what : Nat) : Nat :=
  if what = exModel then 2
  else if what = exStack ∨ (g = 18 ∧ what = exPending) then 1
  else if what = exSpill ∨ what = exUpload ∨ what = exQueue ∨ what = exComb then 3 else 0

/-- Allocate from the DRAM heap; a context's region is fenced on guard 18. -/
def State.allocDram (s : State) (len ctx what idx : Nat) : Option (State × Nat) :=
  let n := align64 (Nat.max 1 len)
  match firstFit n s.dramHeap.2 s.dramHeap.1 s.host.dram with
  | some a =>
    let t := { s with host := { s.host with dram := insExtent ⟨a, n, ctx, what, idx⟩ s.host.dram } }
    some (if ctx < 1024 then t.fence 18 ctx (extentPerms 18 what) a n else t, a)
  | none => none

/-- Allocate from the shared SRAM heap; a context's region is fenced on guard 1. -/
def State.allocSram (s : State) (len ctx what idx : Nat) : Option (State × Nat) :=
  let n := align64 (Nat.max 1 len)
  match firstFit n sramHeap.2 sramHeap.1 s.host.sram with
  | some a =>
    let t := { s with host := { s.host with sram := insExtent ⟨a, n, ctx, what, idx⟩ s.host.sram } }
    some (if ctx < 1024 then t.fence 1 ctx (extentPerms 1 what) a n else t, a)
  | none => none

/-- The guard entries that cover an extent's start removed, of its owner. -/
def State.dropFence (s : State) (g c base len : Nat) : Nat → Nat → State
  | 0, _ => s
  | n + 1, i =>
    let (a, b, _, d) := s.guardEntry g i
    let at' := a.toNat / 64 * 64 + b.toNat % 256 * 0x100000000
    State.dropFence
      (if bit d 0 && fld d 31 16 = c && base ≤ at' && at' < base + len then s.setGuardEntry g i 0 0 0 0 else s)
      g c base len n (i + 1)

/-- Release every extent of a kind and number of a heap. -/
def State.freeDram (s : State) (what idx : Nat) : State :=
  let gone := s.host.dram.filter fun e => e.what = what && e.idx = idx
  let t := { s with host := { s.host with dram := s.host.dram.filter fun e => !(e.what = what && e.idx = idx) } }
  gone.foldl (fun t e => if e.ctx < 1024 then t.dropFence 18 e.ctx e.base e.len (guardEntries 18 - 32) 0 else t) t

def State.freeSram (s : State) (what idx : Nat) : State :=
  let gone := s.host.sram.filter fun e => e.what = what && e.idx = idx
  let t := { s with host := { s.host with sram := s.host.sram.filter fun e => !(e.what = what && e.idx = idx) } }
  gone.foldl (fun t e => if e.ctx < 1024 then t.dropFence 1 e.ctx e.base e.len (guardEntries 1 - 32) 0 else t) t

/-- The extent of a kind and number. -/
def findExtent (what idx : Nat) (l : List Extent) : Option Extent := l.find? fun e => e.what = what && e.idx = idx

/-! ## Small list operations -/

/-- A list element or a default. -/
def nth {α : Type} (l : List α) (i : Nat) (d : α) : α := (l[i]?).getD d

/-- The numbers below `n` for which a condition holds. -/
def below (n : Nat) (p : Nat → Bool) : List Nat := (List.range n).filter p

/-- A wire message added. -/
def State.send (s : State) (o : Out) : State := { s with wire := s.wire ++ [o] }

/-- Run an update for each number of a list. -/
def forEach {σ : Type} (l : List Nat) (f : Nat → σ → σ) (s : σ) : σ := l.foldl (fun t i => f i t) s

end Sys2Proof.Machine
end

