-- ==== Sys2Proof/Machine/Access.lean ====
section
/-! DEFINITION. The decision of an access-table guard (13 R244 to R247): which guard an address meets, whether it lies in the
map, which entry matches, and the cause of a denial. -/

namespace Sys2Proof.Machine

/-- 13 R244: the guard that a request to an address passes. -/
def guardOf (a : Nat) : Nat :=
  if a < 0x1000000 then 0
  else if sramBase ≤ a ∧ a < sramBase + 0x1000000 then 1
  else if 0x20000000 ≤ a ∧ a < 0x20E00000 then 2 + (a - 0x20000000) / 0x100000
  else if 0x20E00000 ≤ a ∧ a < 0x20F00000 then 16
  else if 0x40000000 ≤ a ∧ a < 0x42000000 then 17
  else if dramBase ≤ a then 18 else 8

/-- 01 R15: the address lies in a range of the map. -/
def inMap (a : Nat) : Bool :=
  a < 0x1000000 || (sramBase ≤ a && a < sramBase + 0x1000000) || (0x20000000 ≤ a && a < 0x20F00000) ||
  (0x40000000 ≤ a && a < 0x42000000) || (dramBase ≤ a && a < dramBase + 0x800000000)

/-- 01 R28: a master ID that is not reserved. -/
def masterValid (m : Nat) : Bool :=
  m ≤ 4 || (0x10 ≤ m && m ≤ 0x1B) || (0x20 ≤ m && m ≤ 0x30) || m = 0x40 || m = 0x41 || (0x100 ≤ m && m ≤ 0x11F) ||
  (0x200 ≤ m && m ≤ 0x2FF) || (0x400 ≤ m && m ≤ 0x7FF)

/-- 13 R246: an entry matches an address and a master ID. -/
def entryMatches (e : Word × Word × Word × Word) (a m : Nat) : Bool :=
  let size := fld e.2.1 13 8
  let base := e.1.toNat / 64 * 64 + fld e.2.1 7 0 * 0x100000000
  let mask := fld e.2.2.1 27 16
  bit e.2.2.2 0 && a / 2 ^ size * 2 ^ size = base && m &&& mask = fld e.2.2.1 11 0 &&& mask

/-- 13 R247: the first entry from `i` that matches. -/
def State.firstMatch (s : State) (g a m : Nat) : Nat → Nat → Option Word
  | 0, _ => none
  | n + 1, i =>
    let e := s.guardEntry g i
    if entryMatches e a m then some e.2.2.2 else State.firstMatch s g a m n (i + 1)

abbrev causeNoMatch : Nat := 1
abbrev causePermission : Nat := 2
abbrev causeUnmapped : Nat := 3
abbrev causeReserved : Nat := 4
abbrev causeOutside : Nat := 5

/-- 01 R16: an address that holds something: memory, usable DRAM, a register or one of the tables that read as words. -/
def State.mapped (s : State) (a : Nat) : Bool :=
  let g := guardOf a
  if g ≤ 1 ∨ g = 17 then inMap a
  else if g = 18 then dramBase ≤ a && a < dramBase + s.dramLen
  else
    inMap a && ((regDef (a / 4 * 4)).isSome || (0x20280000 ≤ a && a < 0x20280000 + 4096 * 64) ||
      (0x203C0000 ≤ a && a < 0x203C0000 + 4 * 2100) ||
      (0x20E00000 ≤ a && a < 0x20E98000 && 0x1000 ≤ a % 0x8000 &&
        a % 0x8000 < 0x1000 + 16 * guardEntries ((a - 0x20E00000) / 0x8000)))

/-- The decision on a request (13 R246, R247): none passes, some is the cause of its denial. A reserved ID is looked at
before the address (log entry 26). -/
def State.denial (s : State) (a m : Nat) (wr : Bool) : Option Nat :=
  let g := guardOf a
  if !masterValid m then some causeReserved
  else if !inMap a then some causeOutside
  else match s.firstMatch g a m (guardEntries g) 0 with
    | none => some causeNoMatch
    | some w =>
      if !bit w (if wr then 2 else 1) then some causePermission
      else if !s.mapped a then some causeUnmapped
      else none

end Sys2Proof.Machine
end

