-- ==== Sys2Proof/Machine/Operands.lean ====
section
/-! DEFINITION. The command surface: reading parameter blocks, completion codes, the table of opcodes with scope and
length, the checks of 10 R196, and how a page row carries out the latched command of its path. -/

namespace Sys2Proof.Machine

/-! ## Completion codes (10 R201) and details (10 R202) -/

abbrev cOk : Nat := 0x0000
abbrev cAccepted : Nat := 0x0001
abbrev cBadOpcode : Nat := 0x0101
abbrev cBadLength : Nat := 0x0102
abbrev cBadParam : Nat := 0x0103
abbrev cNoPermission : Nat := 0x0104
abbrev cBusy : Nat := 0x0105
abbrev cRestricted : Nat := 0x0106
abbrev cStaleGen : Nat := 0x0107
abbrev cNotInSet : Nat := 0x0108
abbrev cNoResource : Nat := 0x0201
abbrev cBudget : Nat := 0x0202
abbrev cHwFault : Nat := 0x0301
abbrev cAsleep : Nat := 0x0302
abbrev cPeerLost : Nat := 0x0303
abbrev cCompat : Nat := 0x0401
abbrev cSignature : Nat := 0x0402

/-- A completion code other than OK, with its detail. -/
structure CErr where
  code : Nat
  detail : Nat
  deriving DecidableEq, Repr

def badParam (off : Nat) : CErr := ⟨cBadParam, off⟩
def noPermission : CErr := ⟨cNoPermission, 0⟩
def asleep : CErr := ⟨cAsleep, 0⟩
def staleGen : CErr := ⟨cStaleGen, 0⟩
def notInSet : CErr := ⟨cNotInSet, 0⟩
def noResource : CErr := ⟨cNoResource, 0⟩
def busy : CErr := ⟨cBusy, 0⟩
def peerLost : CErr := ⟨cPeerLost, 0⟩
def dmaError : CErr := ⟨cHwFault, 1⟩
def blockFault : CErr := ⟨cHwFault, 3⟩

/-- A check of a command page. -/
abbrev Check := Except CErr Unit

/-- The check that a condition holds. -/
def need (c : Bool) (e : CErr) : Check := if c then .ok () else .error e

/-- The check that a field's value lies in a range; its offset is the detail. -/
def inRange (v lo hi off : Nat) : Check := need (lo ≤ v && v ≤ hi) (badParam off)

/-- The check that a signed field's value lies in a range. -/
def inRangeI (v lo hi : Int) (off : Nat) : Check := need (lo ≤ v && v ≤ hi) (badParam off)

/-- The check that a reserved field is zero (00 R10). -/
def reserved (b : Bytes) (off n : Nat) : Check := need ((slice b off n).all fun x => x = 0) (badParam off)

/-- Checks in order: the first that fails decides. -/
def allOf : List Check → Check
  | [] => .ok ()
  | .ok _ :: cs => allOf cs
  | .error e :: _ => .error e

/-! ## The opcode table (10 R199, R200) -/

inductive Scope where
  | device
  | func
  | context
  deriving DecidableEq, Repr

/-- The param_length a page allows (10 R196): one value, or what a count in the first `need` bytes implies. -/
inductive LenRule where
  | fixed (n : Nat)
  | counted (need : Nat) (rule : Bytes → Nat)

/-- One assigned opcode. -/
structure OpRow where
  opcode : Nat
  scope : Scope
  gen : Bool
  len : LenRule

/-- 03 SENSOR_XFER: 16 bytes and write_len bytes of data. -/
def lenSensor (b : Bytes) : Nat := 16 + u16 b 6
/-- 07 FUSE_SET_RULE. -/
def lenRule (b : Bytes) : Nat := 48 + 16 * u8 b 8
/-- 09 APPROX_SET_LAYERS: rounded up to a multiple of 4. -/
def lenLayers (b : Bytes) : Nat := (8 + u16 b 4 + 3) / 4 * 4
/-- 15 INTR_HOST_ACK: rounded up to a multiple of 4. -/
def lenAck (b : Bytes) : Nat := (4 + 2 * u16 b 0 + 3) / 4 * 4

/-- The assigned opcodes of a group. -/
def opGroup (hi : Nat) : List OpRow :=
  match hi with
  | 0x01 =>
    [⟨0x0101, .func, false, .fixed 0⟩,
     ⟨0x0102, .func, false, .fixed 0⟩,
     ⟨0x0103, .device, false, .fixed 4⟩,
     ⟨0x0104, .device, false, .fixed 4⟩,
     ⟨0x0105, .device, false, .fixed 56⟩,
     ⟨0x0106, .device, false, .fixed 4⟩]
  | 0x02 =>
    [⟨0x0201, .func, false, .fixed 4⟩,
     ⟨0x0202, .context, false, .fixed 0⟩,
     ⟨0x0203, .context, false, .fixed 4⟩,
     ⟨0x0204, .func, false, .fixed 32⟩,
     ⟨0x0205, .context, false, .fixed 0⟩,
     ⟨0x0210, .context, false, .fixed 4⟩,
     ⟨0x0211, .context, false, .fixed 0⟩,
     ⟨0x0212, .context, false, .fixed 0⟩,
     ⟨0x0213, .context, false, .fixed 4⟩,
     ⟨0x0214, .context, false, .fixed 0⟩,
     ⟨0x0215, .context, false, .fixed 4⟩]
  | 0x03 =>
    [⟨0x0301, .func, false, .fixed 0⟩,
     ⟨0x0302, .device, false, .fixed 12⟩,
     ⟨0x0303, .device, false, .fixed 24⟩,
     ⟨0x0304, .device, false, .fixed 12⟩,
     ⟨0x0305, .device, false, .fixed 12⟩,
     ⟨0x0306, .device, false, .fixed 4⟩]
  | 0x04 =>
    [⟨0x0401, .device, false, .fixed 16⟩,
     ⟨0x0402, .context, true, .fixed 24⟩,
     ⟨0x0403, .context, true, .fixed 16⟩,
     ⟨0x0404, .context, true, .fixed 16⟩,
     ⟨0x0405, .context, false, .fixed 4⟩,
     ⟨0x0406, .context, false, .counted 8 lenSensor⟩,
     ⟨0x0407, .context, false, .fixed 20⟩]
  | 0x05 =>
    [⟨0x0501, .device, false, .fixed 56⟩,
     ⟨0x0502, .device, false, .fixed 28⟩,
     ⟨0x0503, .context, true, .fixed 120⟩,
     ⟨0x0504, .context, true, .fixed 32⟩,
     ⟨0x0505, .context, false, .fixed 4⟩,
     ⟨0x0506, .func, false, .fixed 0⟩]
  | 0x06 =>
    [⟨0x0601, .context, true, .fixed 16⟩,
     ⟨0x0602, .context, true, .fixed 12⟩,
     ⟨0x0603, .context, true, .fixed 20⟩,
     ⟨0x0604, .context, true, .fixed 24⟩,
     ⟨0x0605, .device, false, .fixed 4⟩,
     ⟨0x0606, .context, false, .fixed 4⟩]
  | 0x07 =>
    [⟨0x0701, .device, false, .fixed 24⟩,
     ⟨0x0702, .device, false, .fixed 4⟩,
     ⟨0x0703, .context, true, .fixed 8⟩,
     ⟨0x0704, .context, false, .fixed 16⟩,
     ⟨0x0705, .context, true, .fixed 16⟩,
     ⟨0x0706, .context, true, .fixed 8⟩,
     ⟨0x0707, .context, false, .fixed 4⟩,
     ⟨0x0708, .context, true, .fixed 12⟩,
     ⟨0x0709, .context, true, .fixed 12⟩,
     ⟨0x070A, .device, false, .fixed 4⟩,
     ⟨0x070B, .context, false, .fixed 4⟩]
  | 0x08 =>
    [⟨0x0801, .context, true, .counted 9 lenRule⟩,
     ⟨0x0802, .context, false, .fixed 4⟩,
     ⟨0x0803, .context, false, .fixed 4⟩]
  | 0x09 =>
    [⟨0x0901, .context, false, .fixed 16⟩,
     ⟨0x0902, .context, false, .fixed 4⟩,
     ⟨0x0903, .context, true, .fixed 16⟩,
     ⟨0x0904, .context, false, .fixed 32⟩,
     ⟨0x0905, .context, false, .fixed 4⟩]
  | 0x0A =>
    [⟨0x0A01, .context, true, .counted 6 lenLayers⟩,
     ⟨0x0A02, .context, true, .fixed 20⟩,
     ⟨0x0A03, .device, false, .fixed 4⟩,
     ⟨0x0A04, .device, false, .fixed 4⟩,
     ⟨0x0A05, .context, false, .fixed 4⟩]
  | 0x0B =>
    [⟨0x0B01, .func, false, .fixed 0⟩,
     ⟨0x0B02, .device, false, .fixed 8⟩,
     ⟨0x0B03, .device, false, .fixed 16⟩,
     ⟨0x0B04, .context, false, .fixed 4⟩,
     ⟨0x0B05, .device, false, .fixed 20⟩,
     ⟨0x0B06, .device, false, .fixed 4⟩,
     ⟨0x0B07, .context, false, .fixed 8⟩]
  | 0x0C =>
    [⟨0x0C01, .device, false, .fixed 36⟩,
     ⟨0x0C02, .device, false, .fixed 16⟩,
     ⟨0x0C03, .device, false, .fixed 8⟩,
     ⟨0x0C04, .device, false, .fixed 8⟩,
     ⟨0x0C05, .device, false, .fixed 8⟩,
     ⟨0x0C06, .func, false, .fixed 0⟩]
  | 0x0D =>
    [⟨0x0D01, .device, false, .fixed 16⟩,
     ⟨0x0D02, .device, false, .fixed 16⟩,
     ⟨0x0D03, .device, false, .fixed 4⟩,
     ⟨0x0D04, .context, false, .fixed 0⟩]
  | 0x0E =>
    [⟨0x0E01, .device, false, .fixed 16⟩,
     ⟨0x0E02, .device, false, .fixed 4⟩,
     ⟨0x0E03, .device, false, .fixed 4⟩,
     ⟨0x0E04, .func, false, .fixed 4⟩,
     ⟨0x0E05, .func, false, .counted 2 lenAck⟩,
     ⟨0x0E06, .device, false, .fixed 4⟩]
  | 0x0F =>
    [⟨0x0F01, .device, false, .fixed 0⟩,
     ⟨0x0F02, .device, false, .fixed 16⟩,
     ⟨0x0F03, .device, false, .fixed 0⟩,
     ⟨0x0F04, .device, false, .fixed 16⟩,
     ⟨0x0F05, .device, false, .fixed 0⟩,
     ⟨0x0F06, .device, false, .fixed 196⟩,
     ⟨0x0F07, .device, false, .fixed 0⟩]
  | 0x10 =>
    [⟨0x1001, .func, false, .fixed 0⟩,
     ⟨0x1002, .device, false, .fixed 4⟩,
     ⟨0x1003, .device, false, .fixed 24⟩,
     ⟨0x1004, .device, false, .fixed 0⟩,
     ⟨0x1005, .device, false, .fixed 16⟩,
     ⟨0x1006, .device, false, .fixed 4⟩,
     ⟨0x1007, .device, false, .fixed 8⟩]
  | 0x11 =>
    [⟨0x1101, .func, false, .fixed 16⟩,
     ⟨0x1102, .func, false, .fixed 4⟩,
     ⟨0x1103, .device, false, .fixed 4⟩,
     ⟨0x1104, .device, false, .fixed 4⟩]
  | 0x12 =>
    [⟨0x1201, .device, false, .fixed 8⟩,
     ⟨0x1202, .device, false, .fixed 0⟩,
     ⟨0x1203, .func, false, .fixed 0⟩]  | _ => []

/-- The row of an opcode; none where it is unassigned (10 R200). -/
def opRow (op : Nat) : Option OpRow := (opGroup (op / 256)).find? fun r => r.opcode = op

/-- 10 R196 check 3: the commands permitted in RESTRICTED mode. -/
def permittedRestricted (op : Nat) : Bool :=
  op = 0x0101 || op = 0x0102 || op = 0x0103 || op / 256 = 0x0F || op / 256 = 0x10

/-- 11 R227: the commands that the boot ROM accepts. -/
def permittedRom (op : Nat) : Bool := op = 0x0101 || op = 0x0102 || op = 0x0103 || op = 0x1005

/-! ## Paths and latches (10 R193, R210) -/

/-- The Ethernet path. -/
abbrev ethPath : Nat := 32

/-- The function whose mailbox the Ethernet path carries (HIF_ETH_FN). -/
def State.ethFn (s : State) : Nat := s.regFld R.HIF_ETH_FN 4 0

/-- The Ethernet path is enabled. -/
def State.ethOn (s : State) : Bool := s.regBit R.HIF_ETH_FN 7

/-- 10 R191 ETH_OWNED. -/
def State.ethOwned (s : State) (f : Nat) : Bool := s.ethOn && s.ethFn = f

/-- The function behind a path. -/
def State.pathFn (s : State) (p : Nat) : Nat := if p = ethPath then s.ethFn else p

/-- The command of a function's mailbox that runs now: what an FLR abandoned ends first (10 R205). -/
def Func.front (x : Func) : Option Latch :=
  match x.orphans with
  | o :: _ => some o
  | [] => x.latch

/-- The command that a path carries now: one that an FLR abandoned runs to its end first (10 R205). -/
def State.latch (s : State) (p : Nat) : Option Latch :=
  if p = ethPath then s.host.eth.latch else (s.func p).front

def State.setLatch (s : State) (p : Nat) (l : Option Latch) : State :=
  if p = ethPath then { s with host := { s.host with eth := { s.host.eth with latch := l } } }
  else match (s.func p).orphans with
    | _ :: os => s.setFunc p { s.func p with orphans := l.toList ++ os }
    | [] => s.setFunc p { s.func p with latch := l }

/-- The commands that the paths carry now. -/
def State.fronts (s : State) : List Latch := s.host.eth.latch.toList ++ s.host.fns.filterMap fun e => e.2.front

/-- 10 R197: Belrix starts commands in latch order: no other path holds one latched earlier that is ready to start. -/
def State.mayStart (s : State) (l : Latch) : Bool := s.fronts.all fun k => k.stage ≠ .ready || l.order ≤ k.order

/-- The latch moved to a stage. -/
def State.toStage (s : State) (p : Nat) (g : Stage) : State :=
  match s.latch p with
  | some l => s.setLatch p (some { l with stage := g })
  | none => s

/-- The response of a command (10 R195): the generation only for context scope and only past check 4. -/
def State.respGen (s : State) (c : Cmd) : BitVec 16 :=
  match opRow c.opcode with
  | some r => if r.scope = .context then s.ctxGen c.ctx else 0
  | none => 0

/-- What carrying a command out comes to. -/
inductive PageOut where
  /-- OK, with the result bytes -/
  | done (s : State) (result : Bytes)
  /-- ACCEPTED (10 R193) -/
  | accepted (s : State)
  /-- OK for a command that tore its context down: the generation it held (10 R195) -/
  | doneGen (s : State) (g : BitVec 16)
  /-- any other code; the device is unchanged (10 R198) -/
  | fail (e : CErr)
  /-- another code on a page that states an effect for it -/
  | failWith (s : State) (e : CErr)
  /-- the command yields on a transfer and is carried on when it ends (10 R197) -/
  | wait (s : State)

/-- The body of a page: the command, the outcome of the transfer it yielded on, the state. -/
abbrev PageBody := Cmd → Option (Option Bytes) → State → PageOut

/-- 10 R196 checks 1 to 5 on a request; the parameter block is the inline one. -/
def State.generalChecks (s : State) (c : Cmd) : Except CErr Unit :=
  match opRow c.opcode with
  | none => .error ⟨cBadOpcode, 0⟩
  | some r => allOf [
      need (c.flags / 4 = 0 && c.reserved = 0 && c.seq = c.doorbell && (r.scope = .context || c.ctx = 0xFFFF))
        (badParam 0xFFFF),
      need (if s.sys.running = 3 then permittedRom c.opcode
        else s.sys.mode ≠ .restricted || permittedRestricted c.opcode) ⟨cRestricted, 0⟩,
      need (match r.scope with
        | .device => c.fn = 0
        | .func => true
        | .context => (match s.ctx? c.ctx with | some x => x.fn = c.fn | none => false)) noPermission,
      (let ind := c.flags % 2 = 1
       match r.len with
        | .fixed n => need (c.paramLen = n && (ind → 1 ≤ c.paramLen)) ⟨cBadLength, n⟩
        | .counted k f =>
          if ind then need (1 ≤ c.paramLen && c.paramLen ≤ 65532) ⟨cBadLength, 0xFFFF⟩
          else if c.paramLen > 496 then .error ⟨cBadLength, if c.block.length < k then 0xFFFF else f c.block⟩
          else if c.paramLen < k then .error ⟨cBadLength, 0xFFFF⟩
          else need (c.paramLen = f c.block) ⟨cBadLength, f c.block⟩)]

/-- 10 R196 check 7: a poisoned read that the context consumed since its last completion. -/
def State.poisonCheck (s : State) (c : Cmd) : Bool :=
  match opRow c.opcode with
  | some r => r.scope = .context && (match s.ctx? c.ctx with | some x => x.poisoned | none => false)
  | none => false

/-- 10 R196 step 6: the length that a fetched count implies. -/
def fetchedLength (c : Cmd) (b : Bytes) : Check :=
  match opRow c.opcode with
  | some r => (match r.len with
    | .fixed _ => .ok ()
    | .counted k f =>
      if c.paramLen < k then .error ⟨cBadLength, 0xFFFF⟩ else need (c.paramLen = f b) ⟨cBadLength, f b⟩)
  | none => .ok ()

/-- The response formed, waiting to be posted. -/
def State.answer (s : State) (p : Nat) (r : Resp) : State := s.toStage p (.answered r)

/-- A completion with an error code: result_length is zero (10 R195). -/
def State.answerErr (s : State) (p : Nat) (e : CErr) (g : BitVec 16) : State := s.answer p ⟨e.code, e.detail, g, []⟩

/-- 10 R196: errors of checks 1 to 4 carry generation zero. -/
def earlyCode (code : Nat) : Bool := code = cBadOpcode || code = cRestricted || code = cNoPermission

/-- The latched command of a path carried out by its page, when the page's opcode is latched and it is its turn (10 R197);
otherwise nothing happens. -/
def runPage (op : Nat) (body : PageBody) (p : Nat) (s : State) : State :=
  match s.latch p with
  | some l =>
    let go := fun (d : Option (Option Bytes)) =>
      match body l.cmd d s with
      | .done t r => t.answer p ⟨cOk, 0, t.respGen l.cmd, r⟩
      | .accepted t => t.answer p ⟨cAccepted, 0, t.respGen l.cmd, []⟩
      | .doneGen t g => t.answer p ⟨cOk, 0, g, []⟩
      | .fail e => s.answerErr p e (s.respGen l.cmd)
      | .failWith t e => t.answerErr p e (t.respGen l.cmd)
      | .wait t => t.toStage p .yielded
    if l.cmd.opcode = op then
      match l.stage with
      | .ready => if s.mayStart l then go none else s
      | .resumed d => go (some d)
      | _ => s
    else s
  | none => s

/-- A body that checks, then acts at once. -/
def plainPage (check : Cmd → State → Check) (act : Cmd → State → State × Bytes) : PageBody := fun c _ s =>
  match check c s with
  | .error e => .fail e
  | .ok _ => .done (act c s).1 (act c s).2

/-! ## Domains (16 R302, R303) -/

abbrev dAON : Nat := 0
abbrev dCTL : Nat := 1
abbrev dEVTA : Nat := 2
abbrev dEVTB : Nat := 3
abbrev dCOB : Nat := 4
abbrev dSEP : Nat := 5
abbrev dUMB : Nat := 6
abbrev dVIR : Nat := 7
abbrev dIDG0 : Nat := 8
abbrev dFAB : Nat := 12
abbrev dDDR : Nat := 13
abbrev dHOSTETH : Nat := 14
abbrev dTEAL : Nat := 15

/-- Power domains by number (16 R302). -/
def State.domUp (s : State) (d : Nat) : Bool := s.regBit R.IVR_DOM_UP d

/-- Domains that may be taken down in RUN and may be ON-DEMAND (16 R302). -/
def commandable (d : Nat) : Bool := (2 ≤ d && d ≤ 11) || d = dTEAL

def State.domOnDemand (s : State) (d : Nat) : Bool := commandable d && s.regBit (R.IVR_DOMd_CFG d) 0

/-- 16 R315: in a forced SENTINEL an ON-DEMAND domain does not wake for an access. -/
def State.heldAsleep (s : State) : Bool := s.ivory.forced && s.ivory.state = 2

/-- R196 DOMAIN_ASLEEP: a domain that the command must reach is down and not ON-DEMAND. -/
def State.reach (s : State) (d : Nat) : Check := need (s.domUp d || (s.domOnDemand d && !s.heldAsleep)) asleep

/-! ## DMA on behalf of a path (10 R189, R197, R212) -/

/-- Bytes of the upload window (10 R212). -/
def State.uploadLen (s : State) : Nat := u16 s.host.eth.cfg 0x34 * 1048576

/-- The Ethernet DMA (01 R28); the upload window is its own work, for no context (01 R29). -/
abbrev ethMaster : Nat := 0x040

/-- A DMA read of the Ethernet function reads the upload window (10 R212): none past its end, or where the DRAM is down or its
guard turns the Ethernet DMA away. -/
def State.uploadRead (s : State) (a len : Nat) : Option Bytes :=
  let at' := s.host.eth.uploadBase + a
  if a + len ≤ s.uploadLen && s.domUp dDDR && (s.denial at' ethMaster false).isNone then some (readBytes s.mem at' len)
  else none

/-- The outcome of a DMA read: for the Ethernet function the upload window, else what the host gave; a function that may not
master reads nothing. -/
def State.dmaRead (s : State) (p a len : Nat) (d : Option Bytes) : Option Bytes :=
  if s.ethOwned (s.pathFn p) then s.uploadRead a len
  else if s.mayMaster (s.pathFn p) then d.map fun b => slice b 0 len
  else none

/-- A DMA error counted (HIF_Fn_DMA_ERR). -/
def State.countDmaErr (s : State) (f : Nat) : State := s.bumpSat (R.HIF_Fn_DMA_ERR f)

/-- An AER error logged: the bit of Uncorrectable Error Status, HIF_AER_COUNT and source 451 (10 R188, R214, R216). -/
def State.logAer (s : State) (f b : Nat) : State :=
  ((s.setFunc f { s.func f with aerStatus := (s.func f).aerStatus ||| BitVec.ofNat 32 (2 ^ b) }).bumpSat
    R.HIF_AER_COUNT).assertSource 451

/-- A PCIe read that failed is logged as a Completion Timeout, bit 14 (PRESUMED, log entry 12). What was never asked of the
host logs nothing. -/
def State.fetchFailed (s : State) (p : Nat) (d : Option Bytes) : State :=
  if d.isNone && !s.ethOwned (s.pathFn p) && s.mayMaster (s.pathFn p) then s.logAer (s.pathFn p) 14 else s

/-- Datagram of the Ethernet host path sent: transport header, dgram_seq, counter (10 R210). -/
def State.sendDatagram (s : State) (kind seg addr port : Nat) (payload : Bytes) : State :=
  let q := s.host.eth.seqs.getD kind 0
  let h := leBytes 2 0x5A51 ++ leBytes 1 kind ++ leBytes 1 seg ++ leBytes 4 q.toNat ++ leBytes 8 addr
  let t := { s with host := { s.host with eth := { s.host.eth with seqs := s.host.eth.seqs.set kind (q + 1) } } }
  (t.send (.datagram kind port (h ++ payload))).bumpSat R.HIF_ETH_TX_DGRAMS

/-- WRITE datagrams of a DMA write to the Ethernet host (10 R212), `fuel` at most. -/
def State.sendWrites (s : State) (a : Nat) (b : Bytes) : Nat → State
  | 0 => s
  | n + 1 =>
    let m := u16 s.host.eth.cfg 0x30 - 16
    if b = [] ∨ m = 0 then s
    else
      let d := b.take m
      State.sendWrites ((s.sendDatagram 6 0 a (u16 s.host.eth.cfg 0x32) d).bumpSat R.HIF_ETH_WRITE_BYTES d.length)
        (a + d.length) (b.drop m) n

/-- A DMA write to the host of a function; none when it may not master. -/
def State.dmaWrite (s : State) (f a : Nat) (b : Bytes) : Option State :=
  if s.ethOwned f then some (s.sendWrites a b (b.length + 1))
  else if s.mayMaster f then some { s with hostMem := writeBytes s.hostMem a b }
  else none

end Sys2Proof.Machine
end

