-- ==== Sys2Proof/Machine/Power.lean ====
section
/-! DEFINITION. Power domains as every family meets them: a request to a domain, the wake of an ON-DEMAND domain and the
POWER_TRANSITION record (16 R302, R303, R305, R313, R325). -/

namespace Sys2Proof.Machine

/-- 16 R302: the domains that a domain requires. -/
def domParents (d : Nat) : List Nat :=
  if d = 0 then [] else if d = 1 then [0] else if d = 2 then [0, 1] else if d = 3 then [0, 1, 2]
  else if d = 12 then [0, 1] else [0, 1, 12]

/-- 16 R302: the domains that require a domain. -/
def domChildren (d : Nat) : List Nat := below 16 fun e => (domParents e).contains d

/-- The powered domains as a mask. -/
def State.domMask (s : State) : BitVec 16 := BitVec.ofNat 16 (s.regN R.IVR_DOM_UP)

def State.setDom (s : State) (d : Nat) (up : Bool) : State :=
  s.setRegFld R.IVR_DOM_UP d d (b2n up)

/-- 16 R304: isolation engaged and gate closed, or both released. -/
def State.setGate (s : State) (d : Nat) (closed iso : Bool) : State :=
  (s.setRegFld R.IVR_GATE_CLOSED d d (b2n closed)).setRegFld R.IVR_ISO d d (b2n iso)

/-- The array's point (08 R167). -/
def State.arrayPoint (s : State) : Nat := s.regFld R.IDG_POINT 2 0

/-- A POWER_TRANSITION record (16 R325). -/
structure PowerRec where
  kind : Nat
  fromState : Nat
  toState : Nat
  outcome : Nat
  fromPoint : Nat
  toPoint : Nat
  cause : Nat
  wake : Nat
  before : BitVec 16
  start : Stamp

/-- 16 R325: a POWER_TRANSITION record staged, with the domains as they are now. -/
def State.emitPower (s : State) (r : PowerRec) : State :=
  s.emit .ivory none 0x0060 r.start r.start.steady r.start.flag 0 0
    (leBytes 1 r.kind ++ leBytes 1 r.fromState ++ leBytes 1 r.toState ++ leBytes 1 r.outcome ++
     leBytes 1 r.fromPoint ++ leBytes 1 r.toPoint ++ leBytes 1 r.cause ++ leBytes 1 0 ++
     leBytes 2 r.wake ++ leBytes 2 (s.regFld R.IVR_TJ 15 0) ++ leBytes 2 r.before.toNat ++
     leBytes 2 s.domMask.toNat ++ leBytes 4 (Nat.min ((s.now - r.start.steady) / 1000) 0xFFFFFFFF) ++ leBytes 4 0 ++
     leBytes 8 r.start.steady)

/-- 07 R133: the first boundary of a PERIODIC rule at or after a steady time. -/
def State.firstBoundary (s : State) (r t : Nat) : Nat :=
  let hop := s.regN (R.VIR_Rn_HOP r) * 1000
  let ph := s.regN (R.VIR_Rn_PHASE r)
  if t ≤ ph then ph else ph + (t - ph + hop - 1) / hop * hop

/-- 07 Power-down of VIR: after wake, PERIODIC rules open at their next boundary. -/
def State.wokeVir (s : State) : State :=
  { s with viridian := { s.viridian with
    rules := s.viridian.rules.map fun e => (e.1, { e.2 with nextOpen := s.firstBoundary e.1 s.now }) } }

/-- A domain brought up with its parents (16 R305), with a DOMAIN_UP record for the domain itself. -/
def State.powerUp (s : State) (d cause : Nat) : State :=
  if s.domUp d then s
  else
    let t := forEach (domParents d ++ [d]) (fun e t => (t.setDom e true).setGate e false false) s
    let t := if d = dVIR then t.wokeVir else t
    ({ t with ivory := { t.ivory with lastUse := t.ivory.lastUse.set d s.now } }).emitPower
      { kind := 4, fromState := s.ivory.state, toState := s.ivory.state, outcome := 0, fromPoint := s.arrayPoint,
        toPoint := s.arrayPoint, cause := cause, wake := 0xFFFF, before := s.domMask, start := s.tickStamp }

/-- 16 R303, R313: a request to a domain: it is used now, and an ON-DEMAND domain that is down wakes, its wake counted;
the first stall since the counter was read asserts source 393 (16 R324). -/
def State.touch (s : State) (d : Nat) : State :=
  if s.domUp d then { s with ivory := { s.ivory with lastUse := s.ivory.lastUse.set d s.now } }
  else if s.domOnDemand d && !s.heldAsleep then
    ((s.powerUp d 5).assertSourceIf (s.reg (R.IVR_DOMd_WAKES d) = 0) 393).bumpSat (R.IVR_DOMd_WAKES d)
  else s

/-- The domain of an event port (01 R13). -/
def portDomain (p : Nat) : Nat := if p < 2 then dEVTA else dEVTB

end Sys2Proof.Machine
end

