-- ==== Sys2Proof/Machine/Amber.lean ====
section
/-! DEFINITION. Amber, the Time Unit (02): the tick, steps, slews, anchors, the servo, PTP, PPS and captures, and the 0x03
commands. -/

namespace Sys2Proof.Machine

/-- The state with Amber updated. -/
def State.modAmber (s : State) (f : Amber → Amber) : State := { s with amber := f s.amber }

/-! ## Reference and addends -/

abbrev secQ : Nat := 1000000000 * 65536

/-- AMB_FREQ_ADJ, signed. -/
def State.freqAdj (s : State) : Int := sext 32 (s.regN R.AMB_FREQ_ADJ)

/-- 02 R31: what a tick adds to steady time, in 2^-16 ns. -/
def State.steadyAddend (s : State) : Nat := ((s.regN R.AMB_ADDEND_BASE : Int) + s.freqAdj).toNat

/-- 02 R41: the reference that TIME_SET_SERVO selected: 0 NONE, 1 PTP, 2 PPS_IN. -/
def State.reference (s : State) : Nat := s.regFld R.AMB_CTRL 1 0

def State.clockType (s : State) : Nat := s.regFld R.AMB_CTRL 4 2

def State.ptpDomain (s : State) : Nat := s.regFld R.AMB_CTRL 15 8

/-- AMB_PPS_OUT_OFS, signed ns. -/
def State.ppsOfs (s : State) : Int := sext 32 (s.regN R.AMB_PPS_OUT_OFS)

/-- The integer second that farm time plus an offset has reached. -/
def secondOf (farmQ : Nat) (ofs : Int) : Int := ((farmQ : Int) + ofs * 65536) / (secQ : Int)

/-- 02 R33 codes. -/
def TimeState.code : TimeState → Nat
  | .freerun => 0
  | .locked => 1
  | .holdover => 2

/-! ## Anchors (02 R36, R37) -/

def Anchor.none' : Anchor := ⟨false, false, false, false, 0, 0, 0⟩

/-- A reason added to the anchor of the present tick. -/
def State.anchorReason (s : State) (f : Anchor → Anchor) : State :=
  s.modAmber fun a => { a with anchor := some (f (a.anchor.getD Anchor.none')) }

/-- The reasons field. -/
def Anchor.reasons (x : Anchor) : Nat := b2n x.wrap + 2 * b2n x.periodic + 4 * b2n x.step + 8 * b2n x.change

/-- The body of a TIME_ANCHOR record. -/
def State.anchorBody (s : State) (x : Anchor) : Bytes :=
  leBytes 4 s.tickStamp.ts32.toNat ++ leBytes 2 x.reasons ++ leBytes 1 s.amber.state.code ++ leBytes 1 0 ++
  leBytes 8 s.now ++ leBytes 6 x.prevSec ++ leBytes 2 x.prevEpoch.toNat ++ leBytes 4 x.prevNs ++
  leBytes 4 (s.regN R.AMB_FREQ_ADJ)

/-- Contexts whose streams carry EVENT_BLOCK records: owners of ports with the raw stream on (03 R69). -/
def State.blockContexts (s : State) : List Nat :=
  ((below 8 fun p => s.regBit (R.OCH_Pn_LINK p) 0 && s.regBit (R.OCH_Pn_BLOCK p) 13).map
    fun p => s.regN (R.OCH_Pn_OWNER p)).eraseDups

/-- The one anchor of the tick staged for the PF, with copies waiting at Ochre (02 R36, R37, 03 R69). A reason that comes
once the tick's anchor is staged counts for the next tick (DESIGN CHOICE, log entry 39). -/
def State.emitAnchor (s : State) : State :=
  match if s.amber.anchored then none else s.amber.anchor with
  | none => s
  | some x =>
    let b := s.anchorBody x
    let t := s.stageRec .amber none (anchorRec none 0 s.tickStamp b)
    { t with
      amber := { t.amber with anchor := none, lastAnchor := s.now, anchored := true },
      ochre := { t.ochre with anchors := t.ochre.anchors ++ s.blockContexts.map fun c => (c, s.tickStamp, b) } }

/-- A change of time state: the state, its source and STATE_CHANGE (02 R36, R42, R43). -/
def State.setTimeState (s : State) (x : TimeState) : State :=
  let t := (s.modAmber fun a => { a with state := x }).anchorReason fun n => { n with change := true }
  match x with
  | .freerun => t
  | .holdover => t.assertSource 353
  | .locked => t.assertSource 354

/-- 02 R42: from LOCKED to HOLDOVER; from any other state nothing. -/
def State.enterHoldover (s : State) : State := if s.amber.state = .locked then s.setTimeState .holdover else s

/-! ## Steps and slews (02 R38 to R40, R48) -/

/-- 02 R39 and R40: a step on the present tick to a farm time. A second that continuous advance crossed on the very tick
stays due, and a remainder that it consumed still counts as having reached zero (log entry 39). -/
def State.doStep (s : State) (target : Nat) : State :=
  let a := s.amber
  let held := a.heldQ / 65536
  let skipped : Int := secondOf (target * 65536) s.ppsOfs - secondOf a.heldQ s.ppsOfs
  let t := ((s.modAmber fun a => { a with
      farmQ := target * 65536 % farmModQ, epoch := a.epoch + 1, slewQ := 0, stepDue := false, stepped := true,
      ppsGuard := none }).bumpSat R.AMB_STEP_COUNT).assertSource 352
  let u := t.anchorReason fun n => { n with
    step := true, prevSec := held / 1000000000 % 2 ^ 48, prevEpoch := a.epoch, prevNs := held % 1000000000 }
  if 0 < skipped then (u.bumpSat R.AMB_PPS_SKIP skipped.toNat).assertSource 365 else u

/-- 02 R38: a slewed offset replaces the remainder. -/
def State.slewTo (s : State) (ns : Int) : State := s.modAmber fun a => { a with slewQ := ns * 65536 }

/-- The target of a step put into AMB_STEP_SEC and AMB_STEP_NS (02 R39, R40). -/
def State.putTarget (s : State) (ns : Nat) : State :=
  ((s.setReg R.AMB_STEP_SEC_LO (w32 (ns / 1000000000))).setReg R.AMB_STEP_SEC_HI
    (w32 (ns / 1000000000 / 0x100000000 % 65536))).setReg R.AMB_STEP_NS (w32 (ns % 1000000000))

/-- EPOCH_STEP: the step that AMB_STEP_CMD armed, on its tick. -/
def State.epochStep (s : State) : State := if s.amber.stepDue then s.doStep s.stepTarget else s

/-- TS32_WRAP. -/
def State.ts32Wrap (s : State) : State :=
  if s.amber.wrapDue then
    ((s.modAmber fun a => { a with wrapDue := false }).assertSource 355).anchorReason fun n => { n with wrap := true }
  else s

/-- ANCHOR_PERIOD_EXPIRY. Before the first anchor the period counts from steady time 0 (DESIGN CHOICE, log entry 39). -/
def State.anchorPeriod (s : State) : State :=
  if s.amber.lastAnchor + s.regN R.AMB_ANCHOR_PERIOD ≤ s.now then s.anchorReason fun n => { n with periodic := true }
  else s

/-- SLEW_COMPLETE. -/
def State.slewComplete (s : State) : State :=
  if s.amber.slewDue then (s.modAmber fun a => { a with slewDue := false }).assertSource 364 else s

/-- The frequency that the servo sets: its gains are not stated, so a free value within ±500 ppm (log entry 9). -/
def State.freeFreq (s : State) : Int := clampI (-1310) 1310 (sext 32 s.free.toNat)

/-- SERVO_OFFSET_APPLY (02 R38, R39, R43): frequency, slew or step, and LOCKED from a qualified reference. The target of a
step, the farm time of the tick and the offset, stands in AMB_STEP_SEC and AMB_STEP_NS from then on (DESIGN CHOICE, log
entry 39). -/
def State.servoApply (s : State) : State :=
  if s.amber.servoDue then
    match s.amber.servo with
    | none => s
    | some off =>
      let s1 := if s.amber.state = .locked then s else s.setTimeState .locked
      let s2 := (s1.setReg R.AMB_FREQ_ADJ (BitVec.ofInt 32 s.freeFreq)).tookFree
      let s3 := s2.modAmber fun a => { a with servo := none, servoDue := false, lastOffset := off }
      if s.stepsBy off then (s3.doStep (s3.amber.offsetBy off)).putTarget (s3.amber.offsetBy off) else s3.slewTo off
  else s

/-- What the present tick applies to farm time and to the time state, applied. -/
def State.settleClock (s : State) : State := s.servoApply.epochStep

/-- An offset from the servo waits for the next tick. -/
def State.servoOffset (s : State) (off : Int) : State := s.modAmber fun a => { a with servo := some off }

/-- A snapshot taken at the tick on which it is due (AMB_SNAP). -/
def State.snapTake (s : State) : State :=
  if s.amber.snapDue then
    let t := s.tickStamp
    ((((s.modAmber fun a => { a with snapDue := false }).setReg R.AMB_SNAP_SEC_LO (w32 t.sec)).setReg R.AMB_SNAP_SEC_HI
      (w32 (t.sec / 0x100000000 + t.epoch.toNat * 65536))).setReg R.AMB_SNAP_NS (w32 t.ns)).setReg64
      R.AMB_SNAP_STEADY_LO s.now
  else s

/-! ## PPS_OUT (02 R48) -/

/-- Seconds pulsed, with one more. -/
def addSecond (k : Int) : List (Int × Int) → List (Int × Int)
  | [] => [(k, k)]
  | (lo, hi) :: t => if lo ≤ k ∧ k ≤ hi then (lo, hi) :: t else if k = hi + 1 then (lo, k) :: t else (k, k) :: (lo, hi) :: t

def seenSecond (k : Int) (l : List (Int × Int)) : Bool := l.any fun r => r.1 ≤ k && k ≤ r.2

/-- The settings of TIME_SET_PINS that waited take force at a crossing. -/
def State.ppsSwitch (s : State) (k : Int) : State :=
  match s.amber.ppsNext with
  | some (w, o) =>
    ((s.setReg R.AMB_PPS_OUT_WIDTH w).setReg R.AMB_PPS_OUT_OFS o).modAmber fun a =>
      { a with ppsNext := none, ppsGuard := some k }
  | none => s

/-- A second that a change of settings keeps from a second pulse. -/
def State.ppsGuarded (s : State) (k : Int) : Bool := match s.amber.ppsGuard with | some g => k ≤ g | none => false

/-- PPS_OUT_SECOND: the crossing of an integer second on the present tick by continuous advance, on the tick of a step too
(DESIGN CHOICE, log entry 39). At a guarded crossing no pulse comes, and settings that wait take force. -/
def State.ppsSecond (s : State) : State :=
  match s.amber.ppsDue with
  | none => s
  | some k =>
    let s0 := s.modAmber fun a => { a with ppsDue := none }
    if s.ppsGuarded k then s0.ppsSwitch (max k (s.amber.ppsGuard.getD k))
    else
      let s1 := if s.regBit R.AMB_PPS_OUT_WIDTH 31 then
          let rep := seenSecond k s.amber.ppsSeen
          let s2 := if rep then (s0.bumpSat R.AMB_PPS_REPEAT).assertSource 367 else s0
          let s3 := s2.modAmber fun a => { a with ppsSeen := addSecond k a.ppsSeen }
          if s.amber.ppsOut then s3
          else (s3.modAmber fun a => { a with
            ppsOut := true, ppsFallAt := s.now + s.regFld R.AMB_PPS_OUT_WIDTH 30 0 * 1000 }).assertSource 356
        else s0
      (s1.modAmber fun a => { a with ppsGuard := none }).ppsSwitch k

/-- PPS_OUT_PULSE_END. -/
def State.ppsEnd (s : State) : State :=
  if s.amber.ppsOut ∧ s.amber.ppsFallAt ≤ s.now then s.modAmber fun a => { a with ppsOut := false } else s

/-! ## PPS_IN (02 R41, R42) -/

/-- PPS_IN_MISSED: an expected pulse is 0.5 s late (02 R42). -/
def State.ppsMissed (s : State) : State :=
  match s.amber.ppsInLast with
  | some t =>
    if s.reference = 2 ∧ t + (s.amber.ppsMisses + 1) * 1000000000 + 500000000 ≤ s.now then
      let n := s.amber.ppsMisses + 1
      let u := ((s.modAmber fun a => { a with ppsMisses := n }).bumpSat R.AMB_PPS_IN_MISS).assertSource 358
      if 3 ≤ n then u.enterHoldover else u
    else s
  | none => s

/-! ## Masters (02 R41, R42, R373) -/

/-- An announce interval in ns. -/
def announceNs (log : Int) : Nat :=
  if 0 ≤ log then 1000000000 * 2 ^ log.toNat else 1000000000 / 2 ^ (-log).toNat

/-- 02 R41: two Announce messages within four announce intervals. -/
def Foreign.qualified (m : Foreign) (now : Nat) : Bool :=
  2 ≤ (m.heard.filter fun t => now ≤ t + 4 * announceNs m.msg.logInterval).length

/-- The rank of a clock: smaller is better (IEEE 1588-2019 data set comparison, steps removed last). -/
def announceRank (m : Announce) : List Nat :=
  [m.priority1, m.clockClass, m.clockAccuracy, m.variance, m.priority2, m.identity.toNat, m.stepsRemoved]

/-- Lexicographic order. -/
def lexLt : List Nat → List Nat → Bool
  | a :: as, b :: bs => a < b || (a = b && lexLt as bs)
  | _, _ => false

/-- The best of the qualified foreign masters; of one master heard on two ports the lower port. -/
def bestMaster (now : Nat) : List Foreign → Option Foreign
  | [] => none
  | m :: ms =>
    let r := bestMaster now ms
    if m.qualified now then
      match r with
      | some b => if lexLt (announceRank b.msg ++ [b.msg.port]) (announceRank m.msg ++ [m.msg.port]) then some b else some m
      | none => some m
    else r

/-- The device's own data set (02 R44): clockClass 248, clockAccuracy 0xFE, identity the serial (02 R373). -/
def State.ownRank (s : State) : List Nat :=
  [s.amber.priority1, 248, 0xFE, 0xFFFF, s.amber.priority2, s.board.serial.toNat, 0]

def State.ptpEnabled (s : State) (n : Nat) : Bool := s.regBit (R.AMB_PTPn_CFG n) 0

/-- The clock may be a master: OC and BC that are not slave-only (02 R44). -/
def State.masterCapable (s : State) : Bool := s.clockType = 1 || s.clockType = 2

/-- A transparent clock. -/
def State.isTc (s : State) : Bool := s.clockType = 3 || s.clockType = 4

def State.ptpPort (s : State) (n : Nat) : PtpPort := s.amber.ptp.getD n PtpPort.init

def State.setPtp (s : State) (n : Nat) (x : PtpPort) : State := s.modAmber fun a => { a with ptp := a.ptp.set n x }

def State.portState (s : State) (n : Nat) : Nat := s.regFld (R.AMB_PTPn_PORT_STATE n) 3 0

/-- The announce interval of a port, in ns (LOG_ANNOUNCE). -/
def State.announceEvery (s : State) (n : Nat) : Nat := announceNs ((s.regFld (R.AMB_PTPn_CFG n) 13 10 : Int) - 8)

/-- A port enters a state of the state machine (02 R373): listening starts with it, a master's Announce is due, and
PRE_MASTER ends one announce interval for each step that the clock will stand from its grandmaster (PRESUMED, log entry
40). A port that stays in its state goes on. -/
def State.enterPort (s : State) (n st : Nat) (steps : Nat := 1) : State :=
  if s.portState n = st then s
  else (s.setReg (R.AMB_PTPn_PORT_STATE n) (w32 st)).setPtp n { s.ptpPort n with
    listenSince := s.now, masterAt := s.now + steps * s.announceEvery n, announceAt := s.now }

/-- The state that the state decision gives a port (02 R373) from its present one, where `sel` is the selected master and
`own` says that a master is heard but the device is the better one (PRESUMED from IEEE 1588-2019, log entry 40). -/
def State.decidePort (s : State) (sel : Option Foreign) (own : Bool) (n : Nat) : Nat :=
  let st := s.portState n
  if !s.ptpEnabled n then 3
  else match sel with
    | some m =>
      if s.isTc then (if m.msg.port = n then 9 else 7)
      else if m.msg.port = n then (if st = 9 ∧ s.amber.selected = some (m.msg.identity, n) then 9 else 8)
      else if s.clockType = 2 then (if st = 6 then 6 else 5)
      else if s.clockType = 1 then 7 else 4
    | none => if !s.masterCapable then 4 else if own ∨ st = 6 ∨ st = 5 then 6 else 4

/-- The best master clock algorithm and the state decision of both ports run now (02 R41, R373). -/
def State.runBmca (s : State) : State :=
  let heard := bestMaster s.now s.amber.masters
  let best := match heard with
    | some m => if s.masterCapable && lexLt s.ownRank (announceRank m.msg) then none else some m
    | none => none
  let t := forEach [0, 1] (fun n u =>
    u.enterPort n (u.decidePort best heard.isSome n) ((best.map fun m => m.msg.stepsRemoved + 1).getD 0 + 1)) s
  t.modAmber fun a => { a with
    selected := best.map fun m => (m.msg.identity, m.msg.port),
    overdueAt := if best.isSome then none else a.overdueAt,
    lastAnnounce := match best with | some m => m.heard.headD s.now | none => a.lastAnnounce }

/-- The selected foreign master. -/
def State.selectedMaster (s : State) : Option Foreign :=
  match s.amber.selected with
  | some i => s.amber.masters.find? fun m => (m.msg.identity, m.msg.port) = i
  | none => none

/-- When the next Announce of the selected master is overdue: three of its intervals after the last (02 R42). -/
def State.announceDeadline (s : State) : Option Nat :=
  match s.selectedMaster with
  | some m => some (s.amber.lastAnnounce + 3 * announceNs m.msg.logInterval)
  | none => s.amber.overdueAt

/-- The algorithm and the port state machines restarted on both ports (02 R373). No Announce comes any more from a master
that was selected, which HOLDOVER follows at its deadline (02 R42). -/
def State.restartBmca (s : State) : State :=
  let t := s.modAmber fun a => { a with masters := [], selected := none, overdueAt := s.announceDeadline, ptp := [] }
  forEach [0, 1] (fun n u => (u.setReg (R.AMB_PTPn_PORT_STATE n) (if s.ptpEnabled n then 4 else 3)).setPtp n
    { PtpPort.init with listenSince := s.now }) t

/-- Belrix starts the ports at boot (02 R373). -/
def State.startPtp (s : State) : State := s.restartBmca

/-- Three announce intervals without an Announce from the selected master (02 R42): the timeout is counted, its source
asserts, the master is dropped and the algorithm runs again. -/
def State.masterTimeout (s : State) : State :=
  match s.selectedMaster with
  | some m =>
    if s.amber.lastAnnounce + 3 * announceNs m.msg.logInterval ≤ s.now then
      let t := ((s.modAmber fun a => { a with
          masters := a.masters.filter fun x => (x.msg.identity, x.msg.port) ≠ (m.msg.identity, m.msg.port),
          selected := none }).bumpSat (R.AMB_PTPn_ANN_TMO m.msg.port)).assertSource (362 + m.msg.port)
      let u := (if t.masterCapable then t.enterPort m.msg.port 6 else t).runBmca
      if s.reference = 1 then u.enterHoldover else u
    else s
  | none =>
    match s.amber.overdueAt with
    | some d =>
      if d ≤ s.now then
        let t := s.modAmber fun a => { a with overdueAt := none }
        if s.reference = 1 then t.enterHoldover else t
      else s
    | none => s

/-- A port in PRE_MASTER whose time is over acts as master, and so does a master-capable port that listened for three of its
announce intervals and heard nothing, which counts as an announce receipt timeout (PRESUMED, log entry 40). -/
def State.portTimer (s : State) (n : Nat) : State :=
  let x := s.ptpPort n
  if s.portState n = 5 ∧ x.masterAt ≤ s.now then s.enterPort n 6
  else if s.ptpEnabled n ∧ s.portState n = 4 ∧ s.masterCapable ∧ s.amber.selected = none ∧
      x.listenSince + 3 * s.announceEvery n ≤ s.now then
    ((s.enterPort n 6).bumpSat (R.AMB_PTPn_ANN_TMO n)).assertSource (362 + n)
  else s

/-- ANNOUNCE_TIMEOUT: what is overdue for want of an Announce (02 R42, R373). -/
def State.announceTimeout (s : State) : State := (s.masterTimeout.portTimer 0).portTimer 1

/-- What a port that acts as master advertises (02 R44): clockClass 248 and clockAccuracy 0xFE; a boundary clock under a
master names that master's data set otherwise, one step further (PRESUMED, log entry 40). -/
def State.ownAnnounce (s : State) (n : Nat) : Announce :=
  let log : Int := (s.regFld (R.AMB_PTPn_CFG n) 13 10 : Int) - 8
  match s.selectedMaster with
  | some f => { f.msg with
      port := n, tags := 0, clockClass := 248, clockAccuracy := 0xFE, stepsRemoved := f.msg.stepsRemoved + 1,
      logInterval := log }
  | none =>
    { port := n, tags := 0, domain := s.ptpDomain, identity := s.board.serial, priority1 := s.amber.priority1,
      clockClass := 248, clockAccuracy := 0xFE, variance := 0xFFFF, priority2 := s.amber.priority2, stepsRemoved := 0,
      logInterval := log }

/-- AMB_PTPn_CFG TRANSPORT: 0 Layer 2, 1 UDP/IPv4, 2 UDP/IPv6. -/
def State.ptpTransport (s : State) (n : Nat) : Nat := s.regFld (R.AMB_PTPn_CFG n) 2 1

/-- Announce messages of a port that acts as master, one each announce interval; the table has no row for them (DESIGN
CHOICE, log entry 40). -/
def State.announceMaster (s : State) (n : Nat) : State :=
  let x := s.ptpPort n
  if s.ptpEnabled n ∧ s.portState n = 6 ∧ x.announceAt ≤ s.now ∧ s.domUp dHOSTETH ∧ s.ivory.state = 0 then
    (s.setPtp n { x with announceAt := s.now + s.announceEvery n, announceSeq := (x.announceSeq + 1) % 65536 }).send
      (.announce n (s.ptpTransport n) x.announceSeq (s.ownAnnounce n))
  else s

/-! ## The tick (02 R31) -/

/-- What falls due on the present tick, settled before the next: steps, wraps, the servo, pulses, timeouts, and then the
one anchor of the tick (02 R36). -/
def State.settleAmber (s : State) : State :=
  s.settleClock.ts32Wrap.slewComplete.ppsSecond.ppsEnd.ppsMissed.announceTimeout.anchorPeriod.emitAnchor

/-- 02 R31: both clocks advance by their addends, and what this makes due is marked. -/
def State.advanceAmber (s : State) : State :=
  let a := s.amber
  let term := clampI (-524) 524 a.slewQ
  let farm := (((a.farmQ + s.steadyAddend : Nat) : Int) + term).toNat % farmModQ
  let k := secondOf farm s.ppsOfs
  s.modAmber fun _ => { a with
    steadyQ := a.steadyQ + s.steadyAddend,
    farmQ := farm,
    heldQ := farm,
    slewQ := a.slewQ - term,
    slewDue := a.slewQ ≠ 0 && a.slewQ - term = 0,
    wrapDue := farm / 65536 % 2 ^ 32 < a.farmQ / 65536 % 2 ^ 32,
    ppsDue := if secondOf a.farmQ s.ppsOfs < k then some k else none,
    stepDue := a.stepArmed, stepArmed := false,
    snapDue := a.snapArmed, snapArmed := false, anchored := false, stepped := false,
    servoDue := a.servo.isSome }

/-! ## Register triggers -/

/-- AMB_SNAP: a write of 1 arms the snapshot of the next tick. -/
def execAmbSnap (v : Word) (s : State) : Res :=
  .next (if bit v 0 then s.modAmber fun a => { a with snapArmed := true } else s)

/-- AMB_SLEW_REQ: a signed offset in ns replaces the remainder (02 R38). -/
def execAmbSlewReq (v : Word) (s : State) : Res := .next (s.settleClock.slewTo (sext 32 v.toNat))

/-- AMB_STEP_CMD: a write of 1 arms a step on the next tick (02 R39). -/
def execAmbStepCmd (v : Word) (s : State) : Res :=
  .next (if bit v 0 then s.modAmber fun a => { a with stepArmed := true } else s)

/-- The capture FIFO of an input. -/
def State.capsOf (s : State) (i : Nat) : List Capture := s.amber.caps.getD i []

def State.setCaps (s : State) (i : Nat) (l : List Capture) : State :=
  s.modAmber fun a => { a with caps := a.caps.set i l }

/-- AMB_CAP_POP: the oldest entry leaves its FIFO; its words fill the window and the read returns the seconds. An empty
FIFO reads zero (log entry 10). -/
def execAmbCapPop (input : Nat) (s : State) : Res :=
  let w := R.AMB_CTRL + 0xA0 + input * 8
  let x := R.AMB_CTRL + 0xC0 + input * 16
  match s.capsOf input with
  | [] => .next { (s.setRegs w [0, 0]).setRegs x [0, 0, 0] with readData := leBytes 4 0, readErr := false }
  | e :: es =>
    let t := (s.setCaps input es).setRegs w
      [w32 e.stamp.sec, w32 (e.stamp.sec / 0x100000000 + e.stamp.epoch.toNat * 65536)]
    let u := t.setRegs x [w32 e.stamp.ns, w32 e.stamp.steady, w32 (e.stamp.steady / 0x100000000)]
    .next { u with readData := leBytes 4 e.stamp.sec, readErr := false }

/-! ## Events of the tick -/

def execSlewComplete (s : State) : Res := .next s.slewComplete
def execAnnounceTimeout (s : State) : Res := .next s.announceTimeout
def execPpsInMissed (s : State) : Res := .next s.ppsMissed
def execPpsOutSecond (s : State) : Res := .next s.ppsSecond
def execPpsOutPulseEnd (s : State) : Res := .next s.ppsEnd

/-! ## Captures (02 R49) -/

/-- 02 R49: an edge selection of AMB_CAP_EDGE admits an edge. -/
def State.capSelects (s : State) (input : Nat) (e : Edge) : Bool :=
  let m := s.regFld R.AMB_CAP_EDGE (2 * input + 1) (2 * input)
  match e with
  | .rise => m = 1 || m = 3
  | .fall => m = 2 || m = 3

/-- 02 R49: a selected edge is captured, or dropped and counted when the FIFO is full. -/
def State.capture (s : State) (input : Nat) (e : Edge) (t : Stamp) (src : Nat) : State :=
  if !s.capSelects input e then s
  else if (s.capsOf input).length < 16 then (s.setCaps input (s.capsOf input ++ [⟨t, e⟩])).assertSource src
  else (s.setRegFld R.AMB_CAP_OVF (8 * input + 7) (8 * input)
    (Nat.min (s.regFld R.AMB_CAP_OVF (8 * input + 7) (8 * input) + 1) 255)).assertSource 361

/-- 02 R41: the offset that a PPS_IN edge gives. -/
def ppsOffset (ns : Nat) : Int := if ns < 500000000 then -(ns : Int) else 1000000000 - (ns : Int)

/-- PPS_IN_EDGE. -/
def execPpsInEdge (e : Edge) (ns : Nat) (s : State) : Res :=
  let t := s.stampNs ns
  let s1 := s.capture 0 e t 357
  .next (if e = .rise ∧ s.reference = 2 then
      (s1.modAmber fun a => { a with ppsInLast := some t.steady, ppsMisses := 0 }).servoOffset (ppsOffset t.ns)
    else s1)

/-- TS_CAPTURE_EDGE: input 1 TS_CAPTURE0, 2 TS_CAPTURE1. -/
def execTsCaptureEdge (input : Nat) (e : Edge) (ns : Nat) (s : State) : Res :=
  .next (s.capture input e (s.stampNs ns) (358 + input))

/-! ## PTP (02 R44 to R47) -/

/-- 02 R44: a message that is not used is counted. -/
def State.ptpIgnore (s : State) (n : Nat) : State := s.bumpSat (R.AMB_PTPn_IGNORED n)

/-- 2^-8 ns as whole ns, rounded half up: what Belrix passes to Amber, whose offsets are in ns (DESIGN CHOICE, log entry
40). -/
def q8 (n : Int) : Int := (n + 128) / 256

/-- 02 R46: the ingress time of a message on farm time, in 2^-8 ns. -/
def State.ingress (s : State) (n ns : Nat) : Int := ((s.stampNs ns).farm : Int) * 256 - s.regN (R.AMB_PTPn_RX_LAT n)

/-- 02 R46: the egress time of a message committed now, in 2^-8 ns. -/
def State.egress (s : State) (n ns : Nat) : Int :=
  ((s.stampNs ns).farm : Int) * 256 + Config.macPipelineNs * 256 + s.regN (R.AMB_PTPn_TX_LAT n)

/-- AMB_PTPn_ASYM, in 2^-8 ns. -/
def State.asym (s : State) (n : Nat) : Int := sext 32 (s.regN (R.AMB_PTPn_ASYM n))

/-- The peer-to-peer delay mechanism: profiles 1 and 2 (02 R44, R45). -/
def State.ptpPeer (s : State) (n : Nat) : Bool := s.regFld (R.AMB_PTPn_CFG n) 4 3 ≠ 0

/-- 02 R41, R46: a Sync of the selected master gives the offset reference minus farm time; with reference PTP it goes to
the servo, and in any case it is kept for the delay measurement. The port counts as synchronised from it on (02 R373,
log entry 40). Times and the correction are in 2^-8 ns. -/
def State.syncOffset (s : State) (n : Nat) (t1 corr t2 : Int) : State :=
  let d := t2 - t1 - corr
  let x := s.ptpPort n
  let off := -(d - (x.meanPath + s.asym n))
  let t := s.setPtp n { x with sync := none, msDiff := d }
  let u := if t.portState n = 8 then t.enterPort n 9 else t
  if s.reference = 1 then u.servoOffset (q8 off) else u

/-- The message comes from the selected master on the port that hears it. -/
def State.fromMaster (s : State) (m : PtpMsg) : Bool :=
  match s.selectedMaster with
  | some f => f.msg.identity = m.identity && f.msg.port = m.port
  | none => false

/-- 02 R44: tags and domain; a transparent clock forwards another domain's message. -/
def State.ptpAdmit (s : State) (n tags dom : Nat) : Bool := s.ptpEnabled n && tags ≤ 1 && dom = s.ptpDomain

/-- A transparent clock forwards what one port receives to the other (02 R44). -/
def State.forwards (s : State) (n : Nat) : Bool := s.isTc && s.ptpEnabled (1 - n)

/-- A message that is not admitted: counted, and of another domain forwarded by a transparent clock. -/
def State.ptpReject (s : State) (m : PtpMsg) : State :=
  if !s.ptpEnabled m.port then s
  else
    let t := s.ptpIgnore m.port
    if m.tags ≤ 1 ∧ s.forwards m.port then t.send (.ptpForward (1 - m.port) m.kind m.seqId) else t

/-- A message that a transparent clock passes on (02 R44, R47): an event message waits, with its ingress time, for its
commit at the other port; a general one leaves unchanged. A peer-to-peer transparent clock ends the delay messages at its
ports (PRESUMED, log entry 40). -/
def State.ptpTransit (s : State) (m : PtpMsg) : State :=
  let n := m.port
  let event := m.kind = .sync ∨ m.kind = .delayReq ∨ m.kind = .pdelayReq ∨ m.kind = .pdelayResp
  let ends := s.clockType = 4 ∧ m.kind ≠ .sync ∧ m.kind ≠ .followUp ∧ m.kind ≠ .signaling ∧ m.kind ≠ .management
  if !s.forwards n ∨ ends then s
  else if event then
    s.setPtp n { s.ptpPort n with transit := (s.ptpPort n).transit ++ [(m.kind, m.seqId, s.ingress n m.ns)] }
  else s.send (.ptpForward (1 - n) m.kind m.seqId)

/-- A Sync received (02 R41, R46). -/
def State.ptpSync (s : State) (m : PtpMsg) : State :=
  let t := (s.bump (R.AMB_PTPn_RX_EVENT m.port)).ptpTransit m
  if s.fromMaster m then
    let t2 := s.ingress m.port m.ns
    if m.twoStep then t.setPtp m.port { t.ptpPort m.port with sync := some (m.seqId, t2 - m.correction / 256) }
    else t.syncOffset m.port (m.timestamp * 256) (m.correction / 256) t2
  else t

/-- The other received messages (02 R44, R46). A transparent clock passes them on; an end-to-end one answers no
Pdelay_Req. -/
def State.ptpReceive (s : State) (m : PtpMsg) : State :=
  let n := m.port
  let tin := s.ingress n m.ns
  let corr := m.correction / 256
  let ev := fun (t : State) => t.bump (R.AMB_PTPn_RX_EVENT n)
  match m.kind with
  | .sync => s.ptpSync m
  | .followUp =>
    let t := s.ptpTransit m
    match (t.ptpPort n).sync with
    | some (q, t2) => if q = m.seqId ∧ s.fromMaster m then t.syncOffset n (m.timestamp * 256) corr t2 else t
    | none => t
  | .delayReq =>
    let t := (ev s).ptpTransit m
    if s.portState n = 6 ∧ !s.ptpPeer n then t.send (.ptpReply n (s.ptpTransport n) .delayResp m.seqId tin) else t
  | .delayResp =>
    let t := s.ptpTransit m
    let x := t.ptpPort n
    match x.sent with
    | some (q, t3) =>
      if q = m.seqId ∧ !s.ptpPeer n then
        t.setPtp n { x with sent := none, meanPath := (x.msDiff + ((m.timestamp : Int) * 256 - corr - t3)) / 2 }
      else t
    | none => t
  | .pdelayReq =>
    let t := (ev s).ptpTransit m
    if s.ptpPeer n ∧ s.clockType ≠ 3 then t.send (.ptpReply n (s.ptpTransport n) .pdelayResp m.seqId tin) else t
  | .pdelayResp =>
    let t := (ev s).ptpTransit m
    let x := t.ptpPort n
    match x.sent with
    | some (q, t1) =>
      if q = m.seqId then
        if m.twoStep then t.setPtp n { x with presp := some (m.seqId, m.timestamp * 256, tin - corr) }
        else t.setPtp n { x with sent := none, presp := none, meanPath := (tin - t1 - corr) / 2 }
      else t
    | none => t
  | .pdelayRespFollowUp =>
    let t := s.ptpTransit m
    let x := t.ptpPort n
    match x.sent, x.presp with
    | some (q, t1), some (r, t2, t4) =>
      if q = m.seqId ∧ r = m.seqId then
        t.setPtp n { x with
          sent := none, presp := none, meanPath := ((t4 - t1) - ((m.timestamp : Int) * 256 - t2 + corr)) / 2 }
      else t
    | _, _ => t
  | .signaling => (s.ptpIgnore n).ptpTransit m
  | .management => (s.ptpIgnore n).ptpTransit m

/-- SYNC_RECEIVED. -/
def workSyncReceived (m : PtpMsg) (s : State) : Res :=
  .next (if s.ptpAdmit m.port m.tags m.domain then s.ptpSync m else s.ptpReject m)

/-- PTP_MESSAGE_RECEIVED. -/
def workPtpMessageReceived (m : PtpMsg) (s : State) : Res :=
  .next (if s.ptpAdmit m.port m.tags m.domain then s.ptpReceive m else s.ptpReject m)

/-- An Announce message recorded for its master on its port. -/
def State.hearAnnounce (s : State) (m : Announce) : State :=
  let t := s.modAmber fun a =>
    let old := a.masters.find? fun x => (x.msg.identity, x.msg.port) = (m.identity, m.port)
    let heard := s.now :: (match old with | some x => x.heard.take 3 | none => [])
    { a with
      masters := ⟨m, heard⟩ :: a.masters.filter fun x => (x.msg.identity, x.msg.port) ≠ (m.identity, m.port),
      lastAnnounce := if a.selected = some (m.identity, m.port) then s.now else a.lastAnnounce }
  t.setPtp m.port { t.ptpPort m.port with listenSince := s.now }

/-- An Announce that a transparent clock forwards (02 R44). -/
def State.forwardAnnounce (s : State) (m : Announce) : State :=
  if s.forwards m.port ∧ m.tags ≤ 1 then s.send (.announce (1 - m.port) (s.ptpTransport (1 - m.port)) 0 m) else s

/-- ANNOUNCE_RECEIVED (02 R41, R44, R373). -/
def workAnnounceReceived (m : Announce) (s : State) : Res :=
  .next (if !s.ptpEnabled m.port then s
    else if s.ptpAdmit m.port m.tags m.domain then (s.hearAnnounce m).runBmca.forwardAnnounce m
    else (s.ptpIgnore m.port).forwardAnnounce m)

/-! ### The egress pipeline (02 R47); the layout of the messages is PRESUMED from IEEE 1588-2019 (log entry 40) -/

/-- The message type and sequence of a PTP message. -/
def msgKind (b : Bytes) : PtpKind :=
  match u8 b 0 % 16 with
  | 0 => .sync
  | 1 => .delayReq
  | 2 => .pdelayReq
  | _ => .pdelayResp

def msgSeq (b : Bytes) : Nat := beNat (slice b 30 2)

/-- A PTP message with 2^-8 ns added to its correctionField. -/
def addCorrection (b : Bytes) (q : Int) : Bytes :=
  putBytes b 8 (beBytes 8 (wrapBits 64 (sext 64 (beNat (slice b 8 8)) + q * 256)))

/-- A PTP message with its originTimestamp, the fraction in its correctionField. -/
def putOrigin (b : Bytes) (q : Int) : Bytes :=
  let ns := (q / 256).toNat
  addCorrection (putBytes b 34 (beBytes 6 (ns / 1000000000) ++ beBytes 4 (ns % 1000000000))) (q % 256)

/-- Bytes summed as big-endian 16-bit words, an odd one padded. -/
def sum16 : Bytes → Nat
  | a :: b :: l => a.toNat * 256 + b.toNat + sum16 l
  | [a] => a.toNat * 256
  | [] => 0

/-- A sum folded into 16 bits with end-around carry. -/
def fold16 (n : Nat) : Nat := let m := n % 65536 + n / 65536; m % 65536 + m / 65536

/-- The UDP checksum of headers that end with the UDP header, whose checksum field counts as zero, and a message; `alen`
bytes of addresses stand before the UDP header. -/
def udpChecksum (alen : Nat) (head msg : Bytes) : Nat :=
  let udp := (head.drop (head.length - 8)).take 6
  let addrs := (head.drop (head.length - 8 - alen)).take alen
  let n := fold16 (fold16 (sum16 addrs + 17 + beNat (udp.drop 4) + sum16 udp + sum16 msg))
  if 65535 - n = 0 then 65535 else 65535 - n

/-- 02 R47: the frame over the final contents: UDP checksum where the transport has one, then the FCS. -/
def ptpFrame (transport : Nat) (head msg : Bytes) : Bytes :=
  let h := if transport = 0 then head
    else head.take (head.length - 2) ++ beBytes 2 (udpChecksum (if transport = 1 then 8 else 32) head msg)
  h ++ msg ++ leBytes 4 (crc32 (h ++ msg))

/-- 02 R47: an event message that a transparent clock received on the other port leaves with its residence time in its
correctionField; one that it does not hold does not leave. -/
def State.ptpForwarded (s : State) (m : PtpTx) : State :=
  let o := 1 - m.port
  let k := (msgKind m.msg, msgSeq m.msg)
  match (s.ptpPort o).transit.find? fun x => (x.1, x.2.1) = k with
  | some (_, _, tin) =>
    ((s.bump (R.AMB_PTPn_TX_EVENT m.port)).setPtp o { s.ptpPort o with
        transit := (s.ptpPort o).transit.filter fun x => (x.1, x.2.1) ≠ k }).send
      (.ptp m.port (ptpFrame m.transport m.head (addCorrection m.msg (s.egress m.port m.ns - tin))))
  | none => s

/-- 02 R47: an event message of the device's own. A one-step Sync carries t_out; a two-step Sync or Pdelay_Resp is followed
by it; the egress time of a request is kept for its answer. -/
def State.ptpOwn (s : State) (m : PtpTx) : State :=
  let n := m.port
  let tout := s.egress n m.ns
  let oneStep := s.regBit (R.AMB_PTPn_CFG n) 5
  let tr := s.ptpTransport n
  let kind := msgKind m.msg
  let msg := if kind = .sync ∧ oneStep then putOrigin m.msg tout else m.msg
  let t := (s.bump (R.AMB_PTPn_TX_EVENT n)).send (.ptp n (ptpFrame tr m.head msg))
  match kind with
  | .sync => if oneStep then t else t.send (.ptpReply n tr .followUp (msgSeq m.msg) tout)
  | .pdelayResp => if oneStep then t else t.send (.ptpReply n tr .pdelayRespFollowUp (msgSeq m.msg) tout)
  | _ => t.setPtp n { t.ptpPort n with sent := some (msgSeq m.msg, tout) }

/-- PTP_EVENT_TRANSMIT (02 R47): the egress time is known at commit. -/
def workPtpEventTransmit (m : PtpTx) (s : State) : Res :=
  .next (if !s.ptpEnabled m.port then s else if m.forwarded then s.ptpForwarded m else s.ptpOwn m)

/-! ## 0x03 commands -/

/-- A signed value as four bytes, saturated to 32 bits. -/
def sat32 (i : Int) : Nat := wrapBits 32 (clampI (-2147483648) 2147483647 i)

/-- The result of TIME_GET. -/
def State.timeGet (s : State) : Bytes :=
  let t := s.tickStamp
  leBytes 6 t.sec ++ leBytes 2 t.epoch.toNat ++ leBytes 4 t.ns ++ leBytes 1 s.clock.state.code ++
  leBytes 1 s.reference ++ leBytes 2 (s.regN R.AMB_STEP_COUNT) ++ leBytes 8 s.now ++
  leBytes 4 (s.regN R.AMB_FREQ_ADJ) ++ leBytes 4 (sat32 s.amber.lastOffset) ++
  leBytes 8 (s.amber.selected.map Prod.fst |>.getD 0).toNat ++ leBytes 1 (s.regN (R.AMB_PTPn_PORT_STATE 0)) ++
  leBytes 1 (s.regN (R.AMB_PTPn_PORT_STATE 1)) ++ leBytes 6 0

def execTimeGet (p : Nat) (s : State) : Res :=
  .next (runPage 0x0301 (plainPage (fun _ _ => .ok ()) fun _ s => (s, s.timeGet)) p s)

/-- The checks of TIME_SET_SERVO. -/
def timeSetServoCheck (c : Cmd) (s : State) : Check :=
  let b := c.block
  allOf [inRange (u8 b 0) 0 2 0, inRange (u8 b 1) 0 4 1,
    need (u8 b 1 < 2 || (s.ptpEnabled 0 && s.ptpEnabled 1)) (badParam 1),
    reserved b 5 3, inRange (u32 b 8) 1000 1000000000 8]

/-- TIME_SET_SERVO's effect: threshold, priorities, and a change of reference, clock type or domain (02 R42, R373). An
offset that the present tick applies was applied before. -/
def State.setServo (s : State) (ref ty pr1 pr2 dom thr : Nat) : State :=
  let s := s.settleClock
  let restart := ty ≠ s.clockType || dom ≠ s.ptpDomain
  let old := s.reference
  let s1 := ((s.setReg R.AMB_STEP_THR (w32 thr)).setReg R.AMB_CTRL (w32 (ref + ty * 4 + dom * 256))).modAmber fun a =>
    { a with priority1 := pr1, priority2 := pr2 }
  let s2 := if restart then s1.restartBmca else s1
  if ref = old then s2
  else
    let s3 := s2.modAmber fun a => { a with ppsInLast := none, ppsMisses := 0, servo := none, servoDue := false }
    if ref = 0 then (if s.amber.state = .freerun then s3 else s3.setTimeState .freerun)
    else s3.enterHoldover

def execTimeSetServo (p : Nat) (s : State) : Res :=
  .next (runPage 0x0302 (plainPage timeSetServoCheck fun c s =>
    let b := c.block
    (s.setServo (u8 b 0) (u8 b 1) (u8 b 2) (u8 b 3) (u8 b 4) (u32 b 8), [])) p s)

def ptpSetPortCheck (c : Cmd) (_ : State) : Check :=
  let b := c.block
  allOf [inRange (u8 b 0) 0 1 0, inRange (u8 b 1) 0 1 1, inRange (u8 b 2) 0 2 2,
    need (u8 b 3 ≠ 2 || u8 b 2 = 0) (badParam 2), inRange (u8 b 3) 0 2 3, inRange (u8 b 4) 0 1 4,
    inRangeI (i8 b 5) (-7) 4 5, inRangeI (i8 b 6) (-3) 4 6, inRangeI (i8 b 7) (-7) 5 7,
    inRange (u32 b 8) 0 0x0186A000 8, inRange (u32 b 12) 0 0x0186A000 12,
    inRangeI (i32 b 16) (-12800000) 12800000 16, inRange (u16 b 20) 0 4094 20, inRange (u8 b 22) 0 7 22,
    reserved b 23 1]

/-- PTP_SET_PORT's effect; enabling a port starts its state machine, disabling it drops the masters that it heard and runs
the algorithm again (02 R373). -/
def State.setPtpPort (s : State) (b : Bytes) : State :=
  let n := u8 b 0
  let was := s.ptpEnabled n
  let cfg := u8 b 1 + u8 b 2 * 2 + u8 b 3 * 8 + u8 b 4 * 32 + (i8 b 5 + 8).toNat * 64 + (i8 b 6 + 8).toNat * 1024 +
    u16 b 20 * 65536 + u8 b 22 * 0x10000000
  let t := ((((s.setReg (R.AMB_PTPn_RX_LAT n) (w32 (u32 b 8))).setReg (R.AMB_PTPn_TX_LAT n) (w32 (u32 b 12))).setReg
    (R.AMB_PTPn_ASYM n) (w32 (u32 b 16))).setReg (R.AMB_PTPn_CFG n) (w32 cfg)).setReg (R.AMB_PTPn_MIN_DELAY n)
    (w32 (i8 b 7 + 8).toNat)
  if u8 b 1 = 0 then
    (t.modAmber fun a => { a with
      masters := a.masters.filter fun m => m.msg.port ≠ n, ptp := a.ptp.erase n,
      overdueAt := if a.selected.map Prod.snd = some n then t.announceDeadline else a.overdueAt }).runBmca
  else if was then t
  else (t.setReg (R.AMB_PTPn_PORT_STATE n) 4).setPtp n { PtpPort.init with listenSince := s.now }

def execPtpSetPort (p : Nat) (s : State) : Res :=
  .next (runPage 0x0303 (plainPage ptpSetPortCheck fun c s => (s.setPtpPort c.block, [])) p s)

def timeStepCheck (c : Cmd) (s : State) : Check :=
  let b := c.block
  allOf [need (s.reference ≠ 1) (badParam 0), reserved b 6 2, inRange (u32 b 8) 0 999999999 8]

/-- TIME_STEP: Belrix writes the target and AMB_STEP_CMD. -/
def State.timeStep (s : State) (sec ns : Nat) : State :=
  (s.settleClock.putTarget (sec * 1000000000 + ns)).modAmber fun a => { a with stepArmed := true }

def execTimeStep (p : Nat) (s : State) : Res :=
  .next (runPage 0x0304 (plainPage timeStepCheck fun c s => (s.timeStep (u48 c.block 0) (u32 c.block 8), [])) p s)

def timeSetPinsCheck (c : Cmd) (_ : State) : Check :=
  let b := c.block
  allOf [inRange (u8 b 0) 0 1 0, inRange (u8 b 1) 0 3 1, inRange (u8 b 2) 0 3 2, inRange (u8 b 3) 0 3 3,
    inRange (u32 b 4) 1 500000 4, inRangeI (i32 b 8) (-1000000) 1000000 8]

/-- TIME_SET_PINS: edge selections at once, PPS_OUT settings from the next second (02 R48). -/
def State.setPins (s : State) (b : Bytes) : State :=
  (s.setReg R.AMB_CAP_EDGE (w32 (u8 b 1 + u8 b 2 * 4 + u8 b 3 * 16))).modAmber fun a =>
    { a with ppsNext := some (w32 (u32 b 4 + u8 b 0 * 0x80000000), w32 (u32 b 8)) }

def execTimeSetPins (p : Nat) (s : State) : Res :=
  .next (runPage 0x0305 (plainPage timeSetPinsCheck fun c s => (s.setPins c.block, [])) p s)

def timeReadCapturesCheck (c : Cmd) (_ : State) : Check :=
  let b := c.block
  allOf [inRange (u8 b 0) 0 2 0, inRange (u8 b 1) 1 16 1, reserved b 2 2]

/-- A capture entry as TIME_READ_CAPTURES returns it. -/
def Capture.bytes (e : Capture) : Bytes :=
  leBytes 6 e.stamp.sec ++ leBytes 2 e.stamp.epoch.toNat ++ leBytes 4 e.stamp.ns ++
  leBytes 1 (match e.edge with | .rise => 1 | .fall => 2) ++ leBytes 3 0 ++ leBytes 8 e.stamp.steady

/-- TIME_READ_CAPTURES: entries leave the FIFO oldest first; the overflow counter clears. -/
def State.readCaptures (s : State) (i n : Nat) : State × Bytes :=
  let es := (s.capsOf i).take n
  let ovf := s.regFld R.AMB_CAP_OVF (8 * i + 7) (8 * i)
  ((s.setCaps i ((s.capsOf i).drop n)).setRegFld R.AMB_CAP_OVF (8 * i + 7) (8 * i) 0,
    leBytes 2 es.length ++ leBytes 2 ovf ++ leBytes 4 0 ++ es.flatMap Capture.bytes)

def execTimeReadCaptures (p : Nat) (s : State) : Res :=
  .next (runPage 0x0306 (plainPage timeReadCapturesCheck fun c s => s.readCaptures (u8 c.block 0) (u8 c.block 1)) p s)

end Sys2Proof.Machine
end

