-- ==== Sys2Proof/Machine/P384.lean ====
section
/-! DEFINITION. ECDSA over P-384 with SHA-384 (11 R222, R225; 18 R350): the curve of FIPS 186-4, and verification. -/

namespace Sys2Proof.Machine

namespace P384

/-- The field prime. -/
abbrev p : Nat := 2 ^ 384 - 2 ^ 128 - 2 ^ 96 + 2 ^ 32 - 1
/-- The order of the base point. -/
abbrev n : Nat := 0xffffffffffffffffffffffffffffffffffffffffffffffffc7634d81f4372ddf581a0db248b0a77aecec196accc52973
/-- The curve is y² = x³ − 3x + b. -/
abbrev b : Nat := 0xb3312fa7e23ee7e4988e056be3f82d19181d9c6efe8141120314088f5013875ac656398d8a2ed19d2a85c8edd3ec2aef
abbrev gx : Nat := 0xaa87ca22be8b05378eb1c71ef320ad746e1d3b628ba79b9859f741e082542a385502f25dbf55296c3a545e3872760ab7
abbrev gy : Nat := 0x3617de4a96262c6f5d9e98bf9292dc29f8f41dbd289a147ce9da3113b5f0b8c00a60b1ce1d7e819d7a431d7c90ea0e5f

/-- Difference modulo the prime of two residues. -/
def sub (a c : Nat) : Nat := (a + p - c) % p

/-- A power modulo `m`, over `k` bits of the exponent. -/
def powMod (m : Nat) (x e : Nat) : Nat → Nat
  | 0 => 1 % m
  | k + 1 =>
    let r := powMod m x (e / 2) k
    if e % 2 = 1 then r * r % m * x % m else r * r % m

/-- The inverse modulo a prime. -/
def inv (m x : Nat) : Nat := powMod m x (m - 2) 384

/-- A point in Jacobian coordinates: (X / Z², Y / Z³); Z = 0 is the point at infinity. -/
structure Pt where
  x : Nat
  y : Nat
  z : Nat

def inf : Pt := ⟨1, 1, 0⟩

def double (q : Pt) : Pt :=
  if q.z = 0 ∨ q.y = 0 then inf
  else
    let zz := q.z * q.z % p
    let yy := q.y * q.y % p
    let s := 4 * (q.x * yy % p) % p
    let m := 3 * (sub q.x zz * (q.x + zz) % p) % p
    let x := sub (m * m % p) (2 * s % p)
    ⟨x, sub (m * sub s x % p) (8 * (yy * yy % p) % p), 2 * (q.y * q.z % p) % p⟩

def add (a c : Pt) : Pt :=
  if a.z = 0 then c
  else if c.z = 0 then a
  else
    let za := a.z * a.z % p
    let zc := c.z * c.z % p
    let u := a.x * zc % p
    let h := sub (c.x * za % p) u
    let s := a.y * (zc * c.z % p) % p
    let r := sub (c.y * (za * a.z % p) % p) s
    if h = 0 then (if r = 0 then double a else inf)
    else
      let hh := h * h % p
      let hhh := hh * h % p
      let v := u * hh % p
      let x := sub (sub (r * r % p) hhh) (2 * v % p)
      ⟨x, sub (r * sub v x % p) (s * hhh % p), h * (a.z * c.z % p) % p⟩

/-- A multiple of a point, over `k` bits. -/
def mul (e : Nat) (q : Pt) : Nat → Pt
  | 0 => inf
  | k + 1 =>
    let r := double (mul (e / 2) q k)
    if e % 2 = 1 then add r q else r

/-- The point lies on the curve. -/
def onCurve (x y : Nat) : Bool := x < p && y < p && y * y % p = sub ((x * x % p * x + b) % p) (3 * x % p)

/-- Verification of (r, s) over a digest read as a number. -/
def verifies (qx qy r s z : Nat) : Bool :=
  onCurve qx qy && 1 ≤ r && r < n && 1 ≤ s && s < n &&
    (let w := inv n s
     let t := add (mul (z * w % n) ⟨gx, gy, 1⟩ 384) (mul (r * w % n) ⟨qx, qy, 1⟩ 384)
     t.z ≠ 0 && (let i := inv p t.z; t.x * (i * i % p) % p % n = r))

end P384

/-- A signature of 96 bytes over a message, under an uncompressed public key of 97 bytes (11 R222). -/
def signed (key sig msg : Bytes) : Bool :=
  u8 key 0 = 4 && P384.verifies (beNat (slice key 1 48)) (beNat (slice key 49 48)) (beNat (slice sig 0 48))
    (beNat (slice sig 48 48)) (beNat (sha384 msg))

end Sys2Proof.Machine
end

