-- ==== Sys2Proof/Machine/Guard.lean ====
section
/-! DEFINITION. The access-table guards (13): the domain behind an address, what a denial latches and reports, memory on a
master's behalf; the guard entries that the 0x0D commands and MP write. -/

namespace Sys2Proof.Machine

/-- The domain of the target of each guard (01 R13). A target that spans several domains is taken by its first: EVT_A for
Ochre, IDG_Q0 for the tiles (DESIGN CHOICE, log entry 26). -/
def guardDomain (g : Nat) : Nat :=
  nth [dCTL, dFAB, dEVTA, dCOB, dSEP, dUMB, dVIR, dCTL, dFAB, dCTL, dAON, dAON, dAON, dTEAL, dHOSTETH, dHOSTETH, dCTL,
    dIDG0, dDDR] g dAON

/-- 01 R13, 13 R244: the domain of the target behind an address. A guard's own registers lie in the domain of its target,
the registers and hot-pixel entries of Ochre's ports 2 to 7 in EVT_B with those ports. -/
def targetDomain (a : Nat) : Nat :=
  let g := guardOf a
  if g = 17 then dIDG0 + (a - 0x40000000) / 0x800000
  else if g = 16 ∧ (a - 0x20E00000) / 0x8000 < 19 then guardDomain ((a - 0x20E00000) / 0x8000)
  else if 0x20001000 ≤ a ∧ a < 0x20001800 then portDomain ((a - 0x20001000) / 0x100)
  else if 0x20008000 ≤ a ∧ a < 0x2000A000 then portDomain ((a - 0x20008000) / 0x400)
  else guardDomain g

/-- The context of a master ID 0x400 + c, where it exists. -/
def State.masterCtx (s : State) (m : Nat) : Option Nat :=
  if 0x400 ≤ m ∧ m ≤ 0x7FF ∧ (s.ctx? (m - 0x400)).isSome then some (m - 0x400) else none

/-- A denial under a context's ID counted for it (13 ACCESS_CTX_VIOLATIONS). -/
def State.countViolation (s : State) (g cause a m : Nat) : State :=
  match s.masterCtx m with
  | some c => (match s.ctx? c with
    | some x => s.setCtx c { x with violations := Nat.min (x.violations + 1) 0xFFFFFFFF, lastViolation := some (g, cause, a) }
    | none => s)
  | none => s

/-- A denial counted, latched where the latch is clear, and reported (13 R255, R256). -/
def State.deny (s : State) (a m : Nat) (wr : Bool) (cause : Nat) : State :=
  let g := guardOf a
  let t := (s.bumpSat (if wr then R.GRD_DENY_WR g else R.GRD_DENY_RD g)).countViolation g cause a m
  let t := { t with faults := { t.faults with denied := t.faults.denied.set g (t.faults.denied.getD g 0 + 1) } }
  if t.regBit (R.GRD_FAULT_LATCH g) 0 then t
  else
    let t := t.setReg (R.GRD_FAULT_LATCH g) 1
    let t := t.setReg (R.GRD_FAULT_INFO g) (w32 (cause + 8 * b2n wr + m * 65536))
    let t := (t.setReg64 (R.GRD_FAULT_ADDR_LO g) a).setReg64 (R.GRD_FAULT_TIME_LO g) s.now
    t.raiseFault 1 g (master := m) (addr := a) (args := [w32 cause, w32 (b2n wr)]) (copyCtx := t.masterCtx m)

/-- A request at its guard: the state after it, and whether it passed. -/
def State.guarded (s : State) (a m : Nat) (wr : Bool) : State × Bool :=
  match s.denial a m wr with
  | none => (s, true)
  | some c => (s.deny a m wr c, false)

/-! ## Memory on a master's behalf (01 R29, 13 R244) -/

/-- The internal memories: boot ROM and local memory, shared SRAM, tile SRAM, DRAM. -/
def isMemory (a : Nat) : Bool := guardOf a ≤ 1 || guardOf a = 17 || guardOf a = 18

/-- A write by the engine under a master ID: it passes the guard or is dropped and reported. -/
def State.masterWrite (s : State) (m a : Nat) (b : Bytes) : State :=
  let g := s.guarded a m true
  if g.2 && isMemory a then { g.1 with mem := writeBytes g.1.mem a b } else g.1

/-- A read by the engine under a master ID; none for an error response. -/
def State.masterRead (s : State) (m a n : Nat) : State × Option Bytes :=
  let g := s.guarded a m false
  if g.2 && isMemory a then (g.1, some (readBytes g.1.mem a n)) else (g.1, none)

/-- Zeros written by a master over a region, in one request at its guard. -/
def State.masterClear (s : State) (m a n : Nat) : State :=
  let g := s.guarded a m true
  if g.2 && isMemory a then { g.1 with mem := zeroRange g.1.mem a n } else g.1

/-- A block that reaches memory: its domain is used, or wakes for it where it is ON-DEMAND; what a domain that stays down
is asked gets an error (16 R303). -/
def State.forMemory (s : State) (a : Nat) : State × Bool :=
  let t := s.touch (targetDomain a)
  (t, t.domUp (targetDomain a))

/-- A write by a block under its own ID. -/
def State.blockWrite (s : State) (m a : Nat) (b : Bytes) : State :=
  let x := s.forMemory a
  if x.2 then x.1.masterWrite m a b else x.1

/-- A read by a block; an error response gives zeros (13 R255). -/
def State.blockRead (s : State) (m a n : Nat) : State × Bytes :=
  let x := s.forMemory a
  if x.2 then
    let y := x.1.masterRead m a n
    (y.1, y.2.getD (List.replicate n 0))
  else (x.1, List.replicate n 0)

/-- A DMA read begins on a path: of the Ethernet function the Ethernet DMA asks for the upload window (10 R212). -/
def State.dmaAsk (s : State) (p a len : Nat) : State :=
  if s.ethOwned (s.pathFn p) && a + len ≤ s.uploadLen then
    let x := s.forMemory (s.host.eth.uploadBase + a)
    if x.2 then (x.1.guarded (s.host.eth.uploadBase + a) ethMaster false).1 else x.1
  else s

/-- A region zeroed by a block. -/
def State.blockClear (s : State) (m a n : Nat) : State :=
  let x := s.forMemory a
  if x.2 then x.1.masterClear m a n else x.1

/-! ## Entries -/

/-- 13 R245: the region is aligned to its size and lies in the guard's window. -/
def regionOk (g base log2 : Nat) : Bool :=
  let w := guardWindow g
  6 ≤ log2 && base % 2 ^ log2 = 0 && w.1 ≤ base && base + 2 ^ log2 ≤ w.1 + 2 ^ w.2

/-- First host-managed entry of a guard. -/
def hostFirst (g : Nat) : Nat := guardEntries g - 32

/-- GRD_ENTRY_WRITE: MP writes a word of an entry. A locked entry drops the write and counts it; HOST keeps its value and
reserved bits stay zero (13 R245, R248). A write that leaves a VALID entry with a region that R245 rules out is not taken
(log entry 26). -/
def execGrdEntryWrite (g i word : Nat) (v : Word) (s : State) : Res :=
  .next (
    if guardEntries g ≤ i then s
    else
      let (a, b, c, d) := s.guardEntry g i
      if bit d 3 then s.bumpSat (R.GRD_LOCK_DROP g)
      else
        let host := if hostFirst g ≤ i then (0x10 : Word) else 0
        let (a, b, c, d) :=
          match word with
          | 0 => (v &&& 0xFFFFFFC0, b, c, d)
          | 1 => (a, v &&& 0x3FFF, c, d)
          | 2 => (a, b, v &&& 0x0FFF0FFF, d)
          | _ => (a, b, c, v &&& 0xFFFF000F ||| host)
        if bit d 0 && !regionOk g (a.toNat + fld b 7 0 * 0x100000000) (fld b 13 8) then s
        else s.setGuardEntry g i a b c d)

/-- GRD_FAULT_LATCH_CLEAR (13 R256): a 1 written to LATCHED re-arms the latch. -/
def execGrdFaultLatchClear (g : Nat) (v : Word) (s : State) : Res :=
  .next (if bit v 0 then s.setReg (R.GRD_FAULT_LATCH g) 0 else s)

/-! ## Command pages -/

/-- ACCESS_SET_ENTRY (13 R245, R254). -/
def accessSetCheck (c : Cmd) (s : State) : Check :=
  let b := c.block
  let g := u8 b 0
  let v := u16 b 4
  let m := u16 b 6
  allOf [need (1 ≤ g && g ≤ 18 && g ≠ 16) (badParam 0), inRange (u8 b 1) 0 31 1,
    need (!s.regBit (entryAddr g (hostFirst g + u8 b 1) 3) 3) noPermission,
    inRange (u8 b 2) 6 35 2, need (u8 b 3 < 16) (badParam 3),
    need (v < 0x1000 && ((v = 0x100 && m = 0xFFF) || (0x200 ≤ v && v ≤ 0x2FF))) (badParam 4),
    need (m < 0x1000 && (v = 0x100 || m / 256 = 15)) (badParam 6),
    need (regionOk g (u64 b 8) (u8 b 2)) (badParam 8)]

def actAccessSet (c : Cmd) (s : State) : State × Bytes :=
  let b := c.block
  let g := u8 b 0
  (s.setGuardEntry g (hostFirst g + u8 b 1) (w32 (u64 b 8)) (w32 (u64 b 8 / 0x100000000 + u8 b 2 * 256))
    (w32 (u16 b 4 + u16 b 6 * 65536)) (w32 (u8 b 3 + 16 + 0xFFFF0000)), [])

def execAccessSetEntry (p : Nat) (s : State) : Res :=
  .next (runPage 0x0D01 (plainPage accessSetCheck actAccessSet) p s)

/-- The bytes of the entries from `i`. A host-managed entry reads HOST as 1. -/
def State.entryBytes (s : State) (g : Nat) : Nat → Nat → Bytes
  | 0, _ => []
  | n + 1, i =>
    let (a, b, c, d) := s.guardEntry g i
    leBytes 4 a.toNat ++ leBytes 4 b.toNat ++ leBytes 4 c.toNat ++
      leBytes 4 (if hostFirst g ≤ i then d ||| 0x10 else d).toNat ++ State.entryBytes s g n (i + 1)

/-- ACCESS_READ_TABLE. -/
def accessReadBody : PageBody := fun c _ s =>
  let b := c.block
  let g := u8 b 0
  match allOf [inRange g 0 18 0, reserved b 1 1, need (u16 b 2 < guardEntries g) (badParam 2),
      need (1 ≤ u16 b 4 && u16 b 2 + u16 b 4 ≤ guardEntries g) (badParam 4), reserved b 6 2,
      need (u64 b 8 % 8 = 0) (badParam 8)] with
  | .error e => .fail e
  | .ok _ =>
    match s.dmaWrite (s.pathFn c.path) (u64 b 8) (s.entryBytes g (u16 b 4) (u16 b 2)) with
    | some t => .done t []
    | none => .failWith (s.countDmaErr c.fn) dmaError

def execAccessReadTable (p : Nat) (s : State) : Res := .next (runPage 0x0D02 accessReadBody p s)

/-- ACCESS_GET_FAULTS: the snapshot, then the latches named are re-armed and their denials counted from zero. -/
def State.faultBytes (s : State) : Bytes :=
  leBytes 8 ((below 19 fun g => s.regBit (R.GRD_FAULT_LATCH g) 0).foldl (fun n g => n + 2 ^ g) 0) ++
  (List.range 19).flatMap fun g =>
    let l := s.regBit (R.GRD_FAULT_LATCH g) 0
    leBytes 8 (s.reg64 (R.GRD_FAULT_ADDR_LO g)) ++ leBytes 2 (s.regFld (R.GRD_FAULT_INFO g) 27 16) ++
    leBytes 1 (s.regFld (R.GRD_FAULT_INFO g) 2 0) ++ leBytes 1 (b2n l + 2 * s.regFld (R.GRD_FAULT_INFO g) 3 3) ++
    leBytes 4 (Nat.min (s.faults.denied.getD g 0) 0xFFFFFFFF) ++
    leBytes 8 (s.reg64 (R.GRD_FAULT_TIME_LO g))

def State.clearFaults (s : State) (mask : Nat) : State :=
  forEach (below 19 fun g => mask.testBit g)
    (fun g t =>
      let u := t.setReg (R.GRD_FAULT_LATCH g) 0
      { u with faults := { u.faults with denied := u.faults.denied.erase g } }) s

def execAccessGetFaults (p : Nat) (s : State) : Res :=
  .next (runPage 0x0D03 (plainPage (fun c _ => need (u32 c.block 0 < 2 ^ 19) (badParam 0))
    fun c s => (s.clearFaults (u32 c.block 0), s.faultBytes)) p s)

/-- ACCESS_CTX_VIOLATIONS. -/
def violationBytes (x : Ctx) : Bytes :=
  let l := x.lastViolation
  leBytes 4 x.violations ++ leBytes 1 (match l with | some v => v.1 | none => 0xFF) ++
  leBytes 1 (match l with | some v => v.2.1 | none => 0) ++ leBytes 2 0 ++ leBytes 8 (match l with | some v => v.2.2 | none => 0)

def execAccessCtxViolations (p : Nat) (s : State) : Res :=
  .next (runPage 0x0D04 (plainPage (fun _ _ => .ok ()) fun c s =>
    (s, match s.ctx? c.ctx with | some x => violationBytes x | none => [])) p s)

end Sys2Proof.Machine
end

