-- ==== Sys2Proof/Machine/Host.lean ====
section
/-! DEFINITION. The host interface (10): mailboxes, responses, rings, MSI-X, the Ethernet host path and the links. -/

namespace Sys2Proof.Machine

/-! ## MSI-X (10 R189, R209) -/

/-- A vector's table entry. -/
def Func.vector (x : Func) (v : Nat) : Msix := x.msix.getD v Msix.init

/-- The function may send a vector's message now: it may master, MSI-X is enabled, and neither the vector nor the function is
masked (10 R189). -/
def State.msixOpen (s : State) (f v : Nat) : Bool :=
  s.mayMaster f && (s.func f).msixEnable && !(s.func f).funcMask && !((s.func f).vector v).masked

/-- A message falls due: sent, or held with its PBA bit set, one per vector. -/
def State.msix (s : State) (f v : Nat) : State :=
  if s.msixOpen f v then s.send (.msix f v)
  else s.setFunc f { s.func f with heldMsix := if (s.func f).heldMsix.contains v then (s.func f).heldMsix
    else (s.func f).heldMsix ++ [v] }

/-- Held messages that may now go are sent. -/
def State.releaseMsix (s : State) (f : Nat) : State :=
  let go := (s.func f).heldMsix.filter fun v => s.msixOpen f v
  let t := s.setFunc f { s.func f with heldMsix := (s.func f).heldMsix.filter fun v => !s.msixOpen f v }
  go.foldl (fun u v => u.send (.msix f v)) t

/-! ## Configuration space (10 R188) -/

/-- The capabilities of 10 R188. MSI, INTx and the others that the table calls absent have none. -/
inductive PcieCap where
  | powerManagement
  | pciExpress
  | msix
  | aer
  | srIov
  | ari
  | serialNumber
  | secondaryPcie
  | physicalLayer16
  | laneMargining
  deriving DecidableEq, Repr

/-- The capabilities of a function: every one on the PF, four of them on a VF. -/
def pcieCaps (f : Nat) : List PcieCap :=
  if f = 0 then [.powerManagement, .pciExpress, .msix, .aer, .srIov, .ari, .serialNumber, .secondaryPcie, .physicalLayer16,
    .laneMargining]
  else [.pciExpress, .msix, .aer, .ari]

/-- What configuration space shows of a function. -/
structure PcieConfig where
  vendor : Nat
  device : Nat
  classCode : Nat
  revision : Nat
  interruptPin : Nat
  caps : List PcieCap
  /-- log2 of the size of each 64-bit non-prefetchable BAR, by its number -/
  bars : List (Nat × Nat)
  dState : Nat
  busMaster : Bool
  msixEnable : Bool
  functionMask : Bool
  aerStatus : Word
  /-- Device Serial Number -/
  serial : Option (BitVec 64)
  /-- TotalVFs, First VF Offset, VF Stride and NumVFs -/
  srIov : Option (Nat × Nat × Nat × Nat)
  deriving DecidableEq, Repr

/-- 10 R188: the identification values, the capabilities and the settings that the function holds. -/
def State.pcieConfig (s : State) (f : Nat) : PcieConfig :=
  let x := s.func f
  { vendor := 0x1FB4, device := if f = 0 then 0x0416 else 0x0417, classCode := 0x120000, revision := 0xB1, interruptPin := 0
    caps := pcieCaps f, bars := if f = 0 then [(0, 16), (2, 24)] else [(0, 16)]
    dState := x.dState, busMaster := x.bme, msixEnable := x.msixEnable, functionMask := x.funcMask, aerStatus := x.aerStatus
    serial := if f = 0 then some s.board.serial else none
    srIov := if f = 0 then some (31, 1, 1, s.numVfs) else none }

/-! ## Mailbox (10 R191, R193, R194) -/

/-- BUSY: a command is latched and its response is not yet posted. -/
def State.busyFn (s : State) (f : Nat) : Bool := (s.func f).latch.isSome

/-- STATUS (10 R191). -/
def State.status (s : State) (f : Nat) : Word :=
  let x := s.func f
  w32 (b2n (s.busyFn f) + 2 * b2n x.respValid + 4 * b2n x.dbIgnored + 8 * b2n s.sys.ready +
    16 * b2n (s.sys.mode = .restricted) + 32 * b2n (s.ethOwned f) + x.respSeq.toNat * 65536)

/-- The request that a command area or a REQUEST holds (10 R194). -/
def parseCmd (path fn : Nat) (area : Bytes) (doorbell : Word) (now : Nat) : Cmd :=
  let len := u16 area 10
  { path := path, fn := fn, opcode := u16 area 0, flags := u16 area 2, seq := w32 (u32 area 4), ctx := u16 area 8,
    reserved := w32 (u32 area 12), paramLen := len,
    block := if u16 area 2 % 2 = 1 then slice area 16 8 else slice area 16 (Nat.min len 496),
    doorbell := doorbell, latchedAt := now }

/-- Where a request stands once it is latched: answered by a check of 10 R196, fetching its block, or ready. -/
def State.firstStage (s : State) (c : Cmd) : Stage :=
  match s.generalChecks c with
  | .error e =>
    .answered ⟨e.code, e.detail, if earlyCode e.code || (e.code = cBadParam) then 0 else s.respGen c, []⟩
  | .ok _ =>
    if c.flags % 2 = 1 then
      if s.ethOwned c.fn || s.mayMaster c.fn then .fetch else .answered ⟨dmaError.code, dmaError.detail, s.respGen c, []⟩
    else if s.poisonCheck c then .answered ⟨cHwFault, 2, s.respGen c, []⟩
    else .ready

/-- The completion that reports a poisoned read uses it up (18 R348). -/
def State.usePoison (s : State) (c : Cmd) (g : Stage) : State :=
  match g with
  | .answered r =>
    if r.status = cHwFault ∧ r.detail = 2 then
      match s.ctx? c.ctx with
      | some x => s.setCtx c.ctx { x with poisoned := false }
      | none => s
    else s
  | _ => s

/-- A command latched on a path: counted, source 448, and where it stands. -/
def State.latchCmd (s : State) (p : Nat) (c : Cmd) : State :=
  let g := s.firstStage c
  let l : Latch := { cmd := c, stage := g, abandoned := false, order := s.host.latched }
  let s := (if g = .fetch then s.dmaAsk p (u64 c.block 0) c.paramLen else s).modHost fun h => { h with latched := h.latched + 1 }
  let s1 := if p = ethPath then { s with host := { s.host with eth := { s.host.eth with latch := some l } } }
    else s.setFunc p { s.func p with latch := some l, respValid := false, dbIgnored := false }
  let s2 := ((s1.setReg (R.HIF_Fn_LAST_SEQ c.fn) c.seq).bump (R.HIF_Fn_CMDS c.fn)).assertSource 448
  s2.usePoison c g

/-- DOORBELL (10 R193): latch the command area, or ignore the write. -/
def workDoorbell (fn : Nat) (v : Word) (s : State) : Res :=
  if !s.fnEnabled fn then .next s
  else if s.busyFn fn || !s.sys.ready || s.ethOwned fn then
    .next ((s.setFunc fn { s.func fn with dbIgnored := true }).bumpSat (R.HIF_Fn_DB_IGN fn))
  else .next (s.latchCmd fn (parseCmd fn fn (s.func fn).cmdArea v s.now))

/-- PARAM_INDIRECT_FETCH_DONE (10 R196 steps 6 and 7). -/
def execParamIndirectFetchDone (p : Nat) (data : Option Bytes) (s : State) : Res :=
  match s.latch p with
  | some l =>
    if l.stage ≠ .fetch then .next s
    else
      match s.dmaRead p (u64 l.cmd.block 0) l.cmd.paramLen data with
      | none => .next (((s.fetchFailed p data).countDmaErr l.cmd.fn).answerErr p dmaError (s.respGen l.cmd))
      | some b =>
        match fetchedLength l.cmd b with
        | .error e => .next (s.answerErr p e (s.respGen l.cmd))
        | .ok _ =>
          let c := { l.cmd with block := b }
          if s.poisonCheck c then
            .next ((s.usePoison c (.answered ⟨cHwFault, 2, 0, []⟩)).answerErr p ⟨cHwFault, 2⟩ (s.respGen c))
          else .next (s.setLatch p (some { l with cmd := c, stage := .ready }))
  | none => .next s

/-- COMMAND_DMA_FETCH_DONE (10 R197): the yielded command is carried on with its data; the page counts a DMA error. -/
def execCommandDmaFetchDone (p : Nat) (data : Option Bytes) (s : State) : Res :=
  match s.latch p with
  | some l =>
    if l.stage = .yielded then .next ((s.fetchFailed p data).setLatch p (some { l with stage := .resumed data }))
    else .next s
  | none => .next s

/-! ## Ethernet host path (10 R210 to R213) -/

/-- The Ethernet path carries commands: enabled, and its function exists (10 R205, R210). -/
def State.ethLive (s : State) : Bool := s.ethOn && s.fnEnabled s.ethFn

/-- A datagram or frame dropped and counted. -/
def State.ethDrop (s : State) : State := (s.bumpSat R.HIF_ETH_DROP).assertSource 453

/-- ETH_SET_HOST's setting in force (10 R210); its upload window was allocated under number 1 and becomes number 0. -/
def State.applyEth (s : State) (b : Bytes) : State :=
  let en := u8 b 0
  let f := u8 b 2
  let t := (s.freeDram exUpload 0).modHost fun h => { h with
    dram := h.dram.map fun e => if e.what = exUpload then { e with idx := 0 } else e }
  let t := t.setReg R.HIF_ETH_FN (w32 (f * en + 128 * en))
  t.modHost fun h => { h with eth := { h.eth with
    cfg := b, last := none,
    uploadBase := match findExtent exUpload 0 t.host.dram with | some e => e.base | none => 0 } }

/-- The bytes of a response: header and result (10 R195). -/
def respBytes (c : Cmd) (r : Resp) : Bytes :=
  leBytes 2 r.status ++ leBytes 2 r.detail ++ leBytes 4 c.seq.toNat ++ leBytes 2 r.result.length ++
  leBytes 2 r.gen.toNat ++ leBytes 4 0 ++ r.result

/-- A response posted in a mailbox: response area, STATUS, then vector 0 with NOTIFY (10 R193). -/
def State.postMailbox (s : State) (p : Nat) (c : Cmd) (r : Resp) : State :=
  let t := s.setFunc p { s.func p with
                                       latch := none, respArea := padTo 512 (respBytes c r), respValid := true,
                                       respSeq := BitVec.ofNat 16 c.seq.toNat }
  if c.flags / 2 % 2 = 1 then t.msix p 0 else t

/-- A RESPONSE datagram sent, and cached for its sequence (10 R211). -/
def State.postEth (s : State) (c : Cmd) (r : Resp) : State :=
  let b := respBytes c r
  let t := { s with host := { s.host with eth := { s.host.eth with latch := none, last := some (c.seq, b) } } }
  t.sendDatagram 2 0 0 t.host.eth.replyPort b

/-- 10 R210: transport header: magic and kind. -/
def dgramOk (b : Bytes) (kind : Nat) : Bool := u16 b 0 = 0x5A51 && u8 b 2 = kind

/-- ETH_REQUEST (10 R211). -/
def workEthRequest (g : Datagram) (s : State) : Res :=
  if !s.ethOn then .next s
  else if !s.ethLive || !g.fromPeer || !dgramOk g.bytes 1 || !s.sys.ready then .next s.ethDrop
  else
    let s1 := (s.bumpSat R.HIF_ETH_RX_REQ).assertSource 454
    let area := padTo 512 (g.bytes.drop 16)
    let seq := w32 (u32 area 4)
    let again := fun (b : Bytes) => (s1.bumpSat R.HIF_ETH_RX_DUP).sendDatagram 2 0 0 g.srcPort b
    let run :=
      if s1.host.eth.latch.isSome then s1.ethDrop
      else
        let s2 := { s1 with host := { s1.host with eth := { s1.host.eth with replyPort := g.srcPort } } }
        s2.latchCmd ethPath (parseCmd ethPath s2.ethFn area seq s2.now)
    match s1.host.eth.last with
    | some (q, b) => .next (if q = seq then again b else run)
    | none => .next run

/-- ETH_UPLOAD (10 R212): the payload is written to the window and acknowledged with its dgram_seq. One that runs past the
window is dropped and counted (log entry 13). The Ethernet DMA writes under its own ID, past the guard of the DRAM. -/
def workEthUpload (g : Datagram) (s : State) : Res :=
  if !s.ethOn then .next s
  else
    let d := g.bytes.drop 16
    let a := u64 g.bytes 8
    if !s.ethLive || !g.fromPeer || !dgramOk g.bytes 4 || s.uploadLen < a + d.length then
      .next s.ethDrop
    else
      let s1 := s.blockWrite ethMaster (s.host.eth.uploadBase + a) d
      let ack := leBytes 2 0x5A51 ++ leBytes 1 5 ++ leBytes 1 0 ++ slice g.bytes 4 4 ++ leBytes 8 0
      .next (((s1.bumpSat R.HIF_ETH_UPLOAD_BYTES d.length).send (.datagram 5 g.srcPort ack)).bumpSat R.HIF_ETH_TX_DGRAMS)

/-- ETH_FRAME_RECEIVED (10 R210). -/
def workEthFrameReceived (f : EthFrame) (s : State) : Res :=
  if !s.ethOn then .next s
  else match f with
    | .arp => .next (s.send .resolution)
    | .neighbourSolicitation => .next (s.send .resolution)
    | .other => .next s.ethDrop

/-! ## Rings (10 R206 to R209) -/

/-- Ring size in bytes. -/
def State.ringSize (s : State) (f r : Nat) : Nat := 2 ^ s.regFld (R.HIF_RINGn_CFG (ringNo f r)) 4 0

/-- Bytes between TAIL and HEAD, modulo 2^32. -/
def State.ringUsed (s : State) (f r : Nat) : Nat :=
  (s.reg (R.HIF_RINGn_HEAD (ringNo f r)) - s.reg (R.HIF_RINGn_TAIL (ringNo f r))).toNat

/-- 10 R208: the free space. -/
def State.ringFree (s : State) (f r : Nat) : Nat := s.ringSize f r - s.ringUsed f r

def State.modCount (s : State) (f r : Nat) : Nat := s.regFld (R.HIF_RINGn_MOD (ringNo f r)) 15 0
def State.holdoff (s : State) (f r : Nat) : Nat := s.regFld (R.HIF_RINGn_MOD (ringNo f r)) 31 16
def State.ringVector (s : State) (f r : Nat) : Nat := s.regFld (R.HIF_RINGn_VECTOR (ringNo f r)) 5 0

/-- 10 R209: the ring's message when its condition is met. -/
def State.ringSignal (s : State) (f r : Nat) : State :=
  let x := s.ring f r
  if 0 < x.unsignalled ∧ (s.holdoff f r = 0 ∨ s.modCount f r ≤ x.unsignalled ∨
      x.oldestVisible + s.holdoff f r * 1000 ≤ s.now) then
    (s.setRing f r { x with unsignalled := 0 }).msix f (s.ringVector f r)
  else s

/-- A record made visible: counted for the signal and for its context. -/
def State.madeVisible (s : State) (f r ctx : Nat) : State :=
  let x := s.ring f r
  let t := (s.setRing f r { x with
    unsignalled := x.unsignalled + 1, oldestVisible := if x.unsignalled = 0 then s.now else x.oldestVisible }).bump
      (R.HIF_RINGn_RECORDS (ringNo f r))
  let u := match t.ctx? ctx with
    | some c => t.setCtx ctx { c with delivered := c.delivered + 1 }
    | none => t
  u.ringSignal f r

/-- The writes of a record's bytes to a ring: from HEAD on, and from offset 0 where the end is reached (10 R206). -/
def ringPieces (base size head : Nat) (b : Bytes) : List (Nat × Bytes) :=
  let n := size - head % size
  (base + head % size, b.take n) :: if b.length ≤ n then [] else [(base, b.drop n)]

/-- A DMA write that the function may make; of the Ethernet function it goes out as WRITE datagrams (10 R212). -/
def State.hostPut (s : State) (f a : Nat) (b : Bytes) : State := (s.dmaWrite f a b).getD s

/-- A record written to a host-memory ring: bytes, then HEAD, then the shadow (10 R206). -/
def State.writeRing (s : State) (f r : Nat) (x : Rec) : State :=
  let n := ringNo f r
  let head := s.regN (R.HIF_RINGn_HEAD n)
  let s1 := (ringPieces (s.reg64 (R.HIF_RINGn_BASE_LO n)) (s.ringSize f r) head x.bytes).foldl
    (fun t w => t.hostPut f w.1 w.2) s
  let s2 := s1.bump (R.HIF_RINGn_HEAD n) x.length
  let sh := s.reg64 (R.HIF_RINGn_SHADOW_LO n)
  if sh = 0 then s2 else s2.hostPut f sh (leBytes 4 (s2.regN (R.HIF_RINGn_HEAD n)))

/-- RECORDS datagrams of a record, split where it is longer than a datagram (10 R213). -/
def State.sendRecord (s : State) (r : Nat) (first : Bool) (b : Bytes) : Nat → State
  | 0 => s
  | n + 1 =>
    let m := u16 s.host.eth.cfg 0x30 - 16
    if b = [] ∨ m = 0 then s
    else
      let d := b.take m
      let lastOne := b.length ≤ m
      State.sendRecord ((s.sendDatagram 3 (b2n first + 2 * b2n lastOne) r (u16 s.host.eth.cfg 0x32) d).bumpSat
        R.HIF_ETH_RECORD_BYTES d.length) r false (b.drop m) n

/-- The first staged record of a ring, and the staged records without it. -/
def takeStaged (f r : Nat) : List Staged → Option (Staged × List Staged)
  | [] => none
  | x :: xs =>
    if x.fn = f ∧ x.ring = r then some (x, xs)
    else match takeStaged f r xs with
      | some (y, ys) => some (y, x :: ys)
      | none => none

/-- Bytes in a spill buffer. -/
def spillBytes (l : List Staged) : Nat := l.foldl (fun n x => n + x.recd.length) 0

/-- A ring's spill buffer set, with its level register. -/
def State.setSpill (s : State) (f r : Nat) (l : List Staged) : State :=
  (s.setRing f r { s.ring f r with spill := l }).setReg (R.HIF_RINGn_SPILL_LEVEL (ringNo f r)) (w32 (spillBytes l))

def State.setStaged (s : State) (l : List Staged) : State := { s with host := { s.host with staged := l } }

/-- A record fits its ring now: Ethernet rings always take one, and a host-memory ring of the Ethernet function is written by
datagrams (10 R212). -/
def State.ringTakes (s : State) (f r : Nat) (x : Rec) : Bool :=
  if s.ringEth f r then s.ethLive
  else (if s.ethOwned f then s.ethLive else s.mayMaster f) && x.length ≤ s.ringFree f r

/-- A record delivered to its ring. -/
def State.deliver (s : State) (f r : Nat) (x : Rec) : State :=
  let t := if s.ringEth f r then s.sendRecord r true x.bytes (x.length + 1) else s.writeRing f r x
  (t.setRing f r { t.ring f r with waiting := false }).madeVisible f r x.ctx

/-- A ring begins to wait: WAITING and source 452 (10 R208, R214). -/
def State.ringWaits (s : State) (f r : Nat) : State :=
  if (s.ring f r).waiting then s
  else (s.setRing f r { s.ring f r with waiting := true, waitSince := s.now }).assertSource 452

/-- The oldest record not yet written to a ring, and the state without it: the one that waits, then the spill buffer, then
staging. -/
def State.nextRecord (s : State) (f r : Nat) : Option (Staged × State) :=
  match (s.ring f r).held, (s.ring f r).spill, takeStaged f r s.host.staged with
  | some x, _, _ => some (x, s.setRing f r { s.ring f r with held := none })
  | none, x :: xs, _ => some (x, s.setSpill f r xs)
  | none, [], some (y, ys) => some (y, s.setStaged ys)
  | none, [], none => none

/-- A staged record that reaches a ring that waits: the first of all waits itself, the later ones go to the spill buffer while
it has room, and stay staged where it has none (10 R208). -/
def State.spillNext (s : State) (f r : Nat) : State :=
  match takeStaged f r s.host.staged with
  | none => s
  | some (y, ys) =>
    let x := s.ring f r
    if x.held.isNone && x.spill.isEmpty then (s.setStaged ys).setRing f r { x with held := some y }
    else if spillBytes x.spill + y.recd.length ≤ s.regFld (R.HIF_RINGn_SPILL_KIB (ringNo f r)) 16 0 * 1024 then
      (s.setStaged ys).setSpill f r (x.spill ++ [y])
    else s

/-- RECORD_DELIVER (10 R206, R208): the oldest record of the ring is written once it fits; one that does not fit waits, and
later records move to the spill buffer. -/
def State.recordDeliver (s : State) (f r : Nat) : State :=
  if !s.ringEn f r || !s.domUp dHOSTETH || !s.domUp dFAB then s
  else
    match s.nextRecord f r with
    | none => s
    | some (x, t) => if s.ringTakes f r x.recd then t.deliver f r x.recd else (s.ringWaits f r).spillNext f r

def workRecordDeliver (fn ring : Nat) (s : State) : Res := .next (s.recordDeliver fn ring)

/-- RING_MODERATION_HOLDOFF (10 R209). -/
def workRingModerationHoldoff (fn ring : Nat) (s : State) : Res :=
  .next (if s.ringEn fn ring then s.ringSignal fn ring else s)

/-- RING_TAIL_WRITE (10 R190, R208): bits [2:0] read as zero; a TAIL that leaves more than the ring's size used is
counted. A ring with target Ethernet has no TAIL. -/
def State.tailWrite (s : State) (f r : Nat) (v : Word) : State :=
  if s.ringEth f r then s
  else
    let t := s.setReg (R.HIF_RINGn_TAIL (ringNo f r)) (v &&& 0xFFFFFFF8)
    if t.ringEn f r ∧ t.ringSize f r < t.ringUsed f r then
      (t.bumpSat (R.HIF_RINGn_TAIL_INVALID (ringNo f r))).assertSource 457
    else t

def workRingTailWrite (fn ring : Nat) (v : Word) (s : State) : Res := .next (s.tailWrite fn ring v)

/-! ## Function states and links (10 R189, R214) -/

/-- FUNCTION_MASTER_ENABLE: D-state and Bus Master Enable; held messages go when both allow it. The MSI-X capability is
enabled with Bus Master Enable (log entry 12). -/
def workFunctionMasterEnable (fn dstate : Nat) (bme : Bool) (s : State) : Res :=
  if !s.fnEnabled fn then .next s
  else
    let t := s.setFunc fn { s.func fn with dState := dstate, bme := bme, msixEnable := (s.func fn).msixEnable || bme }
    .next (t.releaseMsix fn)

/-- PCIE_LINK_CHANGE: HIF_LINK and source 450 (10 R214, R216); a link that comes up releases PCIE_WAKE_N (19 R369). -/
def execPcieLinkChange (up : Bool) (speed width : Nat) (s : State) : Res :=
  let t := { s with sys := { s.sys with wakeLow := s.sys.wakeLow && !up } }
  .next ((t.setReg R.HIF_LINK (if up then w32 (1 + speed * 2 + width * 16) else 0)).assertSource 450)

/-- ETH_LINK_CHANGE: sources 455 and 456 (10 R214). -/
def execEthLinkChange (port : Nat) (up : Bool) (s : State) : Res :=
  .next (({ s with sys := { s.sys with ethLink := s.sys.ethLink.set port up } }).assertSource (455 + port))

end Sys2Proof.Machine
end

