-- ==== Sys2Proof/Machine/Carmine.lean ====
section
/-! DEFINITION. Carmine (15): sensing, pending state, moderation, the priority stacks, the host relay and the 0x0E
commands. Target codes: 0 MP, 1 to 4 SQ0 to SQ3, 5 HOST, 7 NONE. -/

namespace Sys2Proof.Machine

def State.modCarmine (s : State) (f : Carmine → Carmine) : State := { s with carmine := f s.carmine }
def State.src (s : State) (n : Nat) : Src := s.carmine.srcs.getD n Src.init
def State.setSrc (s : State) (n : Nat) (x : Src) : State := s.modCarmine fun c => { c with srcs := c.srcs.put n x Src.init }
def State.tgt (s : State) (t : Nat) : Target := s.carmine.tgts.getD t Target.init
def State.setTgt (s : State) (t : Nat) (x : Target) : State := s.modCarmine fun c => { c with tgts := c.tgts.put t x Target.init }

/-- Pseudo-source of STACK_ORDER (15 R292). -/
abbrev srcOrder : Nat := 0x3FF

/-! ## Configuration of a source -/

def State.srcEn (s : State) (n : Nat) : Bool := s.regBit (R.CARM_Sn_CFG n) 0
def State.sense (s : State) (n : Nat) : Nat := s.regFld (R.CARM_Sn_CFG n) 3 1
def State.prio (s : State) (n : Nat) : Nat := s.regFld (R.CARM_Sn_CFG n) 8 4
def State.target (s : State) (n : Nat) : Nat := s.regFld (R.CARM_Sn_CFG n) 11 9
def State.wakes (s : State) (n : Nat) : Bool := s.regBit (R.CARM_Sn_CFG n) 12
def State.srcLocked (s : State) (n : Nat) : Bool := s.regBit (R.CARM_Sn_CFG n) 13
def State.filt (s : State) (n : Nat) : Nat := s.regFld (R.CARM_Sn_CFG n) 23 16
def State.thresh (s : State) (n : Nat) : Nat := s.regFld (R.CARM_Sn_CFG n) 31 24
def State.holdoffUs (s : State) (n : Nat) : Nat := s.regFld (R.CARM_Sn_MOD n) 15 0
def State.relayFn (s : State) (n : Nat) : Nat := s.regFld (R.CARM_Sn_MOD n) 20 16
def State.relayVector (s : State) (n : Nat) : Nat := s.regFld (R.CARM_Sn_MOD n) 29 24
/-- A level sense. -/
def State.isLevel (s : State) (n : Nat) : Bool := s.sense n < 2

/-! ## Lines (15 R282) -/

/-- The domain whose block drives an internal source (15 R280, 01 R13). -/
def sourceDomain (n : Nat) : Nat :=
  if n < 64 then dEVTA else if n < 96 then dCOB else if n < 128 then dSEP else if n < 192 then dUMB
  else if n < 224 then dVIR else if n < 288 then dCTL else if n < 352 then dFAB else if n < 416 then dAON
  else if n < 448 then dTEAL else if n < 480 then dHOSTETH
  else if n < 499 then guardDomain (n - 480) else dCTL

/-- The raw level of a line: an isolated domain's line is clamped inactive (16 R304). -/
def State.rawLine (s : State) (n : Nat) : Bool :=
  if n < 512 then s.sourceLine n && s.domUp (sourceDomain n) else (s.src n).raw

/-- The level that detection sees: internal lines have no filter. -/
def State.seenLine (s : State) (n : Nat) : Bool := if n < 512 then s.rawLine n else (s.src n).filtered

/-- A level is the active state of a sense. -/
def activeLevel (sense : Nat) (l : Bool) : Bool := if sense = 1 ∨ sense = 3 then !l else l

def State.lineActive (s : State) (n : Nat) : Bool := activeLevel (s.sense n) (s.seenLine n)

/-- An edge that a sense detects; for a level sense, the change into the active state (15 R282, R284). -/
def edgeMatches (sense : Nat) (rise : Bool) : Bool :=
  match sense with
  | 0 => rise
  | 1 => !rise
  | 2 => rise
  | 3 => !rise
  | _ => true

/-- 15 R283: the filter clock runs in RUN and SENTINEL. -/
def State.filterRuns (s : State) : Bool := s.ivory.state = 0 || s.ivory.state = 2

/-! ## Pending state (15 R285) -/

/-- What makes a source pending: an edge count, an active level or SOFT. -/
def State.srcRaised (s : State) (n : Nat) : Bool :=
  (s.src n).soft || (if s.isLevel n then s.lineActive n else 0 < (s.src n).count)

/-- A source on a stack or relayed stays pending. -/
def State.srcPending (s : State) (n : Nat) : Bool := s.srcRaised n || (s.src n).active || (s.src n).relayed

/-- One detected edge of an edge sense. -/
def State.countEdge (s : State) (n : Nat) : State :=
  let x := s.src n
  s.setSrc n { x with count := Nat.min (x.count + 1) 255, becameAt := if x.count = 0 then s.now else x.becameAt }

/-- Detection on a change of the filtered level. -/
def State.detect (s : State) (n : Nat) (level : Bool) : State :=
  let x := s.src n
  let t := s.setSrc n { x with filtered := level, run := 0 }
  if s.isLevel n then
    if activeLevel (s.sense n) level then t.setSrc n { t.src n with becameAt := s.now } else t
  else if edgeMatches (s.sense n) level then t.countEdge n
  else t

/-- The start of the line's active state kept, for the continuous-assert counter (15 R297). -/
def State.trackActive (s : State) (n : Nat) (was now' : Bool) : State :=
  if !was && now' then s.setSrc n { s.src n with activeSince := s.now } else s

/-- The level of a line that the continuous-assert counter follows: an internal line from the sample that takes notice of
it. -/
def State.trackedLine (s : State) (n : Nat) : Bool := if n < 512 then (s.src n).filtered else (s.src n).raw

/-- CARM_Sn_ASSERT_US (15 R297). -/
def State.assertUs (s : State) (n : Nat) : Nat :=
  if activeLevel (s.sense n) (s.trackedLine n) then Nat.min ((s.now - (s.src n).activeSince) / 1000) 0xFFFFFFFF else 0

/-- An internal line that Carmine has not yet taken notice of (`filtered` holds the level last seen). -/
def State.noticeLine (s : State) (n : Nat) : State :=
  let l := s.rawLine n
  if l = (s.src n).filtered then s
  else (s.detect n l).trackActive n (activeLevel (s.sense n) (s.src n).filtered) (activeLevel (s.sense n) l)

/-- An edge while the filter clock is stopped: the latch catches one that the sense asks for (15 R284). -/
def State.latchEdge (s : State) (n : Nat) (rise : Bool) : State :=
  if edgeMatches (s.sense n) rise then s.setSrc n { s.src n with latched := true } else s

/-- SOURCE_LINE_CHANGE: an internal source's line is taken notice of; the ball of an external source changes. -/
def execSourceLineChange (n : Nat) (level : Bool) (s : State) : Res :=
  .next (
    if n < 512 then s.noticeLine n
    else
      let x := s.src n
      if x.raw = level then s
      else
        let t := (s.setSrc n { x with raw := level }).trackActive n (activeLevel (s.sense n) x.raw)
          (activeLevel (s.sense n) level)
        if s.filterRuns then t else t.latchEdge n level)

/-- ASYNC_LATCH_EDGE (15 R284): a pulse of at least 20 ns while the filter clock is stopped. -/
def execAsyncLatchEdge (n : Nat) (e : Edge) (s : State) : Res :=
  .next (if s.filterRuns then s else s.latchEdge n (decide (e = .rise)))

/-- 15 R283: one sample of the glitch filter. -/
def State.filterSample (s : State) (n : Nat) : State :=
  let x := s.src n
  if x.raw = x.filtered then (if x.run = 0 then s else s.setSrc n { x with run := 0 })
  else if s.filt n ≤ x.run then s.detect n x.raw
  else s.setSrc n { x with run := x.run + 1 }

/-- 15 R284: the filter clock returns: latched edges are replayed and filtering resumes from the sampled state. -/
def State.replayLatch (s : State) (n : Nat) : State :=
  let x := s.src n
  let t := s.setSrc n { x with latched := false, filtered := x.raw, run := 0 }
  let active := activeLevel (s.sense n) x.raw
  if s.isLevel n then
    if active then (if activeLevel (s.sense n) x.filtered then t else t.setSrc n { t.src n with becameAt := s.now })
    else if x.latched then t.setSrc n { t.src n with soft := true, becameAt := s.now }
    else t
  else if x.latched then t.countEdge n
  else t

def State.replayLatches (s : State) : State := forEach ((List.range 32).map fun i => 512 + i) (fun n t => t.replayLatch n) s

/-! ## Eligibility (15 R286, R287) -/

/-- A processor target waits for interrupt: free, as the firmware that runs on it is not the device's (log entry 28);
never while a handler runs. -/
def State.targetIdle (s : State) (t : Nat) : Bool :=
  t < 5 && (s.tgt t).stack = [] && (s.tgt t).prov.isNone && (s.tgt t).exitAt ≠ some s.now && s.free.toNat.testBit t

def State.hold (s : State) (t : Nat) : Bool := s.regBit (R.CARM_Tn_HOLD t) 0

/-- 15 R287. -/
def State.moderated (s : State) (n : Nat) : Bool :=
  let x := s.src n
  let count := if s.isLevel n || x.soft then 1 else x.count
  s.thresh n ≤ count || x.becameAt + s.holdoffUs n * 1000 ≤ s.now || s.targetIdle (s.target n)

/-- 15 R286. -/
def State.eligible (s : State) (n : Nat) : Bool :=
  s.srcRaised n && s.srcEn n && !(s.src n).active && !(s.src n).relayed && s.target n ≤ 5 && !s.hold (s.target n) &&
  s.moderated n

/-- The most urgent of a list of (level, source): lowest level, then lowest number. -/
def urgent : List (Nat × Nat) → Option (Nat × Nat)
  | [] => none
  | a :: l => match urgent l with
    | none => some a
    | some b => if b.1 < a.1 ∨ (b.1 = a.1 ∧ b.2 < a.2) then some b else some a

/-- The most urgent eligible source of a target, with STACK_ORDER (15 R288, R292). -/
def State.candidate (s : State) (t : Nat) : Option (Nat × Nat) :=
  let l := (below 544 fun n => s.target n = t && s.eligible n).map fun n => (s.prio n, n)
  urgent (l ++ if (s.tgt t).orderPend && !s.hold t then [(0, srcOrder)] else [])

/-- A level is strictly more urgent than the top of a stack, or the stack is empty. -/
def beats (level : Nat) : List (Nat × Nat) → Bool
  | [] => true
  | e :: _ => level < e.1

/-! ## Delivery (15 R289, R290) -/

/-- 15 R290: a source that wins in the entry window takes the provisional source's place. -/
def State.replaceProv (s : State) (t : Nat) : State :=
  match (s.tgt t).prov, s.candidate t with
  | some p, some c =>
    if c.1 < p.1 then (s.setTgt t { s.tgt t with prov := some c }).bumpSat (R.CARM_Tn_REPLACED t) else s
  | _, _ => s

/-- 15 R289 step 3: a source is committed to a target at a level. -/
def State.commitSource (s : State) (t level n : Nat) : State :=
  let x := s.src n
  let u := s.setTgt t { s.tgt t with
    stack := (level, n) :: (s.tgt t).stack, prov := none, exitAt := none,
    orderPend := (s.tgt t).orderPend && n ≠ srcOrder }
  let u := (u.setReg (R.CARM_Tn_CLAIM t) (w32 (n + level * 65536 + (if n = srcOrder then 0 else x.count) * 0x1000000))).bumpSat
    (R.CARM_Tn_DELIVERED t)
  if n = srcOrder then u
  else (u.setSrc n { x with active := true, count := 0, soft := false, lastAt := s.now }).bumpSat (R.CARM_Sn_TAKEN n)

/-- An exit handoff (15 R291): a source that is more urgent than the new top gets the target without an acknowledge. -/
def State.handoff (s : State) (t : Nat) : State :=
  match (s.tgt t).prov, s.candidate t with
  | none, some c =>
    if beats c.1 (s.tgt t).stack then (s.commitSource t c.1 c.2).bumpSat (R.CARM_Tn_HANDOFF t) else s
  | _, _ => s

/-- INTERRUPT_ACKNOWLEDGE (15 R288 to R291): the winner becomes provisional; in an entry window already open, a more urgent
winner replaces it; in the exit window, the tick of a completion (log entry 28), a winner is handed the target. -/
def workInterruptAcknowledge (t : Nat) (s : State) : Res :=
  .next (
    if !s.domUp dCTL then s
    else if (s.tgt t).prov.isSome then s.replaceProv t
    else if (s.tgt t).exitAt = some s.now then s.handoff t
    else match s.candidate t with
      | none => s
      | some c =>
        if beats c.1 (s.tgt t).stack then (s.setTgt t { s.tgt t with prov := some c }).tookFree else s)

/-- INTERRUPT_COMMIT (15 R289, R290): the source that is provisional at the handler's first instruction is committed. -/
def workInterruptCommit (t : Nat) (s : State) : Res :=
  .next (
    let u := s.replaceProv t
    match (u.tgt t).prov with
    | some p => u.commitSource t p.1 p.2
    | none => s)

/-! ## Completion (15 R291 to R293) -/

/-- A source's ACTIVE bit cleared; a level source whose line is still active becomes pending now. -/
def State.released (s : State) (n : Nat) : State :=
  if n = srcOrder then s
  else
    let x := s.src n
    s.setSrc n { x with active := false, becameAt := if s.isLevel n && s.lineActive n then s.now else x.becameAt }

/-- 15 R292: a refused completion. -/
def State.refuseEoi (s : State) (t offered : Nat) : State :=
  let st := (s.tgt t).stack
  let expected := match st with | e :: _ => e.1 | [] => 31
  let u := s.setReg (R.CARM_Tn_ORDER_INFO t) (w32 (expected + offered * 256 + 65536 + 131072 * b2n (st = [])))
  let u := (u.bumpSat (R.CARM_Tn_ORDER_FAULTS t)).setTgt t { s.tgt t with orderPend := true }
  u.raiseFault 2 t (args := [w32 expected, w32 offered, w32 (b2n (st = []))])

/-- CARM_TN_EOI (15 R291, R292): the completion applies first, and the exit window opens. -/
def execCarmTnEoi (t : Nat) (v : Word) (s : State) : Res :=
  .next (
    if 5 ≤ t ∨ !s.domUp dCTL then s
    else match (s.tgt t).stack with
      | e :: es =>
        if e.1 = v.toNat % 32 then ((s.setTgt t { s.tgt t with stack := es, exitAt := some s.now }).released e.2).handoff t
        else s.refuseEoi t (v.toNat % 32)
      | [] => s.refuseEoi t (v.toNat % 32))

/-- CARM_TN_STACK_RST (15 R293). -/
def execCarmTnStackRst (t : Nat) (v : Word) (s : State) : Res :=
  .next (
    if 5 ≤ t ∨ !bit v 0 ∨ !s.domUp dCTL then s
    else
      let st := (s.tgt t).stack
      st.foldl (fun u e => u.released e.2) (s.setTgt t { s.tgt t with stack := [], orderPend := false }))

/-- CARM_TN_HOLD (15 R294). -/
def execCarmTnHold (t : Nat) (v : Word) (s : State) : Res :=
  .next (if s.domUp dCTL then s.setReg (R.CARM_Tn_HOLD t) (v &&& 1) else s)

/-! ## SETPEND, moderation and the relay (15 R287, R295, R298) -/

/-- 15 R295; it is a moment of becoming pending (15 R287). -/
def State.setPend (s : State) (n : Nat) : State :=
  if 544 ≤ n then s
  else
    let t := if s.isLevel n then s.setSrc n { s.src n with soft := true } else s.countEdge n
    t.setSrc n { t.src n with becameAt := s.now }

/-- CARM_SETPEND. -/
def execCarmSetpend (v : Word) (s : State) : Res := .next (s.setPend (v.toNat % 1024))

/-- 15 R298: the relay's winner is sent. -/
def State.hostRelay (s : State) : State :=
  match s.candidate 5 with
  | none => s
  | some c =>
    if s.now < s.carmine.lastRelay + 100 then s
    else
      let x := s.src c.2
      let t := s.msix (s.relayFn c.2) (s.relayVector c.2)
      let t := t.setSrc c.2 { x with relayed := true, count := 0, soft := false, lastAt := s.now }
      (t.bumpSat (R.CARM_Sn_TAKEN c.2)).modCarmine fun k => { k with lastRelay := s.now }

/-- HOST_RELAY: at most one message per 100 ns. -/
def workHostRelay (s : State) : Res := .next (if s.domUp dCTL then s.hostRelay else s)

/-- MODERATION_HOLDOFF_EXPIRY (15 R287): the holdoff of a source has run out. Eligibility is judged from the time the
source became pending; a source for the relay is taken up at once. -/
def execModerationHoldoffExpiry (n : Nat) (s : State) : Res :=
  .next (
    if (s.src n).becameAt + s.holdoffUs n * 1000 ≤ s.now ∧ s.target n = 5 ∧ s.eligible n ∧ s.domUp dCTL then s.hostRelay else s)

/-- CARM_RELAY_WAIT: relay messages that wait for their function (15 R298). -/
def State.relayWait (s : State) : Nat :=
  (below 544 fun n => (s.src n).relayed && !s.mayMaster (s.relayFn n) &&
    (s.func (s.relayFn n)).heldMsix.contains (s.relayVector n)).length

/-- The relay's completion of a source (15 R298, R291). -/
def State.ackRelay (s : State) (n : Nat) : State :=
  let x := s.src n
  if x.relayed then
    s.setSrc n { x with
      relayed := false, becameAt := if s.isLevel n && s.lineActive n then s.now else x.becameAt }
  else s

/-- 15 R298: FLR clears RELAYED on every source routed to a function. -/
def State.flrRelay (s : State) (f : Nat) : State :=
  forEach (below 544 fun n => s.target n = 5 && s.relayFn n = f && (s.src n).relayed)
    (fun n t => t.setSrc n { t.src n with relayed := false }) s

/-- 15 R299: CTL powers down: stacks, claims, HOLD and target counters are lost. ACTIVE goes with the stacks. -/
def State.carmDown (s : State) : State :=
  let t := (s.resetRegs (R.CARM_Tn_CLAIM 0) (R.CARM_Tn_CLAIM 6)).modCarmine fun c => { c with tgts := [] }
  forEach (below 544 fun n => (s.src n).active) (fun n t => t.setSrc n { t.src n with active := false }) t

/-! ## Command pages -/

/-- The configuration that a source takes from a written word: LOCK stays; a sense, a filter or a target that R281 and R282
give no meaning for the source leaves that field as it was (log entry 28). -/
def acceptedCfg (n : Nat) (old v : Word) : Word :=
  let sense := fld v 3 1
  let v := if (if n < 512 then sense = 0 ∨ sense = 2 else sense ≤ 4) then v else setFld v 3 1 (fld old 3 1)
  let v := if n < 512 then setFld v 23 16 0 else v
  let v := if fld v 11 9 = 6 then setFld v 11 9 (fld old 11 9) else v
  (v &&& 0xFFFF1FFF) ||| (old &&& 0x2000)

/-- 15 R285: a new configuration of a source; a change of sense or target clears COUNT, SOFT and RELAYED. -/
def State.configSource (s : State) (n : Nat) (cfg mod : Word) : State :=
  let t := (s.setReg (R.CARM_Sn_CFG n) (acceptedCfg n (s.reg (R.CARM_Sn_CFG n)) cfg)).setReg (R.CARM_Sn_MOD n)
    (mod &&& 0x3F1FFFFF)
  let t := if t.sense n ≠ s.sense n ∨ t.target n ≠ s.target n then
      t.setSrc n { s.src n with count := 0, soft := false, relayed := false }
    else t
  let t := if t.srcRaised n && !s.srcRaised n then t.setSrc n { t.src n with becameAt := s.now } else t
  t.trackActive n (activeLevel (s.sense n) (s.trackedLine n)) (activeLevel (t.sense n) (t.trackedLine n))

def intrSetCheck (c : Cmd) (s : State) : Check :=
  let b := c.block
  let n := u16 b 0
  let tg := u8 b 3
  allOf [inRange n 0 543 0, need (!s.srcLocked n) noPermission, inRange (u8 b 2) 0 1 2, need (tg ≤ 5 || tg = 7) (badParam 3),
    inRange (u8 b 4) 0 31 4, need (u8 b 5 ≤ 4 && (512 ≤ n || u8 b 5 = 0 || u8 b 5 = 2)) (badParam 5),
    need (512 ≤ n || u8 b 6 = 0) (badParam 6), need (1 ≤ u8 b 7) (badParam 7),
    need (tg ≠ 5 || (u8 b 0x0A ≤ 31 && s.fnEnabled (u8 b 0x0A))) (badParam 0x0A),
    need (tg ≠ 5 || (1 ≤ u8 b 0x0B && u8 b 0x0B ≤ 63)) (badParam 0x0B), inRange (u8 b 0x0C) 0 1 0x0C, reserved b 0x0D 3]

def actIntrSet (c : Cmd) (s : State) : State × Bytes :=
  let b := c.block
  (s.configSource (u16 b 0)
    (w32 (u8 b 2 + u8 b 5 * 2 + u8 b 4 * 16 + u8 b 3 * 512 + u8 b 0x0C * 4096 + u8 b 6 * 65536 + u8 b 7 * 0x1000000))
    (w32 (u16 b 8 + u8 b 0x0A * 65536 + u8 b 0x0B * 0x1000000)), [])

def execIntrSetSource (p : Nat) (s : State) : Res := .next (runPage 0x0E01 (plainPage intrSetCheck actIntrSet) p s)

/-- CARM_Sn_STATE (15 R300). -/
def State.srcState (s : State) (n : Nat) : Nat :=
  let x := s.src n
  x.count + 256 * b2n (s.srcPending n) + 512 * b2n x.active + 1024 * b2n x.relayed + 2048 * b2n x.soft +
  4096 * b2n (s.rawLine n) + 8192 * b2n (s.seenLine n) + 16384 * b2n x.latched + 32768 * b2n (s.eligible n)

/-- CARM_Tn_STACK (15 R300). -/
def State.stackReg (s : State) (t : Nat) : Nat :=
  if t = 5 then 0
  else
    let x := s.tgt t
    x.stack.length + (match x.stack with | e :: _ => e.1 | [] => 0) * 256 + 65536 * b2n (s.targetIdle t) +
      131072 * b2n x.orderPend

def execIntrGetSource (p : Nat) (s : State) : Res :=
  .next (runPage 0x0E02 (plainPage (fun c _ => allOf [inRange (u16 c.block 0) 0 543 0, reserved c.block 2 2])
    fun c s =>
      let n := u16 c.block 0
      (s, leBytes 4 (s.regN (R.CARM_Sn_CFG n)) ++ leBytes 4 (s.regN (R.CARM_Sn_MOD n)) ++ leBytes 4 (s.srcState n) ++
        leBytes 4 (s.regN (R.CARM_Sn_TAKEN n)) ++ leBytes 4 (s.assertUs n) ++ leBytes 4 0 ++ leBytes 8 (s.src n).lastAt)) p s)

def execIntrSetpend (p : Nat) (s : State) : Res :=
  .next (runPage 0x0E03 (plainPage (fun c s =>
      allOf [inRange (u16 c.block 0) 0 543 0, need (!s.srcLocked (u16 c.block 0)) noPermission, reserved c.block 2 2])
    fun c s => (s.setPend (u16 c.block 0), [])) p s)

/-- A result rounded up to a multiple of 4 with zeros. -/
def pad4 (b : Bytes) : Bytes := padTo ((b.length + 3) / 4 * 4) b

def execIntrHostPending (p : Nat) (s : State) : Res :=
  .next (runPage 0x0E04 (plainPage (fun c _ => allOf [inRange (u16 c.block 0) 1 246 0, reserved c.block 2 2])
    fun c s =>
      let l := (below 544 fun n => s.target n = 5 && s.relayFn n = c.fn && (s.src n).relayed).take (u16 c.block 0)
      (s, pad4 (leBytes 2 l.length ++ leBytes 2 0 ++ l.flatMap fun n => leBytes 2 n))) p s)

/-- The sources that INTR_HOST_ACK names. -/
def ackList (b : Bytes) : List Nat := (List.range (u16 b 0)).map fun i => u16 b (4 + 2 * i)

/-- INTR_HOST_ACK: nothing is acknowledged unless every source is routed to the function. -/
def intrAckCheck (c : Cmd) (s : State) : Check :=
  let l := ackList c.block
  allOf [inRange (u16 c.block 0) 1 246 0, reserved c.block 2 2,
    (match (List.range l.length).find? fun i => 543 < nth l i 0 with
      | some i => .error (badParam (4 + 2 * i))
      | none => .ok ()),
    need (l.all fun n => s.target n = 5 && s.relayFn n = c.fn) noPermission]

def execIntrHostAck (p : Nat) (s : State) : Res :=
  .next (runPage 0x0E05 (plainPage intrAckCheck fun c s => ((ackList c.block).foldl (fun t n => t.ackRelay n) s, [])) p s)

def execIntrGetStats (p : Nat) (s : State) : Res :=
  .next (runPage 0x0E06 (plainPage (fun c _ =>
      allOf [inRange (u8 c.block 0) 0 5 0, inRange (u8 c.block 1) 0 1 1, reserved c.block 2 2])
    fun c s =>
      let t := u8 c.block 0
      let r := leBytes 4 (s.stackReg t) ++ leBytes 4 (if t = 5 then 0 else s.regN (R.CARM_Tn_ORDER_INFO t)) ++
        leBytes 4 (s.regN (R.CARM_Tn_DELIVERED t)) ++ leBytes 4 (s.regN (R.CARM_Tn_REPLACED t)) ++
        leBytes 4 (s.regN (R.CARM_Tn_HANDOFF t)) ++ leBytes 4 (s.regN (R.CARM_Tn_ORDER_FAULTS t)) ++
        leBytes 4 (if t = 5 then s.relayWait else 0) ++ leBytes 4 (b2n (s.hold t))
      (if u8 c.block 1 = 1 then s.resetRegs (R.CARM_Tn_DELIVERED t) (R.CARM_Tn_ORDER_FAULTS t + 4) else s, r)) p s)

end Sys2Proof.Machine
end

