-- ==== Sys2Proof/Machine/Float32.lean ====
section
/-! DEFINITION. IEEE 754 binary32 with round-to-nearest-even at every operation, as 04 R76, 05, 07 and 17 use it. A value
is its bit pattern. -/

namespace Sys2Proof.Machine

/-- A binary32 value. -/
abbrev F32 := Word

namespace F

abbrev nan : F32 := 0x7FC00000
abbrev inf : F32 := 0x7F800000
abbrev one : F32 := 0x3F800000
abbrev half : F32 := 0x3F000000

def neg? (w : F32) : Bool := bit w 31
def isNan (w : F32) : Bool := 0x7F800000 < w.toNat % 0x80000000
def isInf (w : F32) : Bool := w.toNat % 0x80000000 = 0x7F800000
def isZero (w : F32) : Bool := w.toNat % 0x80000000 = 0
/-- Neither NaN nor infinite. -/
def finite (w : F32) : Bool := w.toNat % 0x80000000 < 0x7F800000

/-- Significand and exponent of a finite value: m × 2^e. -/
def mant (w : F32) : Nat := let n := w.toNat % 0x80000000; if n < 0x800000 then n else n % 0x800000 + 0x800000
def expo (w : F32) : Int := let n := w.toNat % 0x80000000; if n < 0x800000 then -149 else (n / 0x800000 : Nat) - 150

def signBit (s : Bool) : Nat := if s then 0x80000000 else 0

/-- (m, and a little more when sticky) × 2^e rounded to nearest even. -/
def round (s : Bool) (m : Nat) (e : Int) (sticky : Bool) : F32 :=
  if m = 0 then w32 (signBit s)
  else
    let q := max (e + (Nat.log2 m : Int) - 23) (-149)
    let n :=
      if q ≤ e then m * 2 ^ (e - q).toNat
      else
        let d := (q - e).toNat
        let k := m / 2 ^ d
        let r := m % 2 ^ d
        let h := 2 ^ (d - 1)
        if h < r ∨ (r = h ∧ (sticky ∨ k % 2 = 1)) then k + 1 else k
    let b := (q + 149).toNat * 0x800000 + n
    w32 (signBit s + Nat.min b 0x7F800000)

/-- A signed integer times 2^e. -/
def ofScaled (i : Int) (e : Int) : F32 := round (i < 0) i.natAbs e false

def ofInt (i : Int) : F32 := ofScaled i 0
def ofNat (n : Nat) : F32 := ofScaled n 0

def neg (a : F32) : F32 := a ^^^ 0x80000000
def abs (a : F32) : F32 := a &&& 0x7FFFFFFF

/-- The signed significand. -/
def sm (w : F32) : Int := if neg? w then -(mant w : Int) else mant w

def add (a b : F32) : F32 :=
  if isNan a || isNan b then nan
  else if isInf a then (if isInf b && neg? a != neg? b then nan else a)
  else if isInf b then b
  else
    let e := min (expo a) (expo b)
    let i := sm a * 2 ^ (expo a - e).toNat + sm b * 2 ^ (expo b - e).toNat
    if i = 0 then (if neg? a && neg? b then 0x80000000 else 0) else ofScaled i e

def sub (a b : F32) : F32 := if isNan b then nan else add a (neg b)

def mul (a b : F32) : F32 :=
  let s := neg? a != neg? b
  if isNan a || isNan b then nan
  else if isInf a || isInf b then (if isZero a || isZero b then nan else w32 (signBit s + 0x7F800000))
  else round s (mant a * mant b) (expo a + expo b) false

/-- a + w × (x − y) with the difference and the product exact, rounded once (08 R149, 09 R172). -/
def fmaDiff (a w x y : F32) : F32 :=
  if !(finite a && finite w && finite x && finite y) then add a (mul w (sub x y))
  else
    let e := min (expo x) (expo y)
    let d := sm x * 2 ^ (expo x - e).toNat - sm y * 2 ^ (expo y - e).toNat
    let k := min (expo a) (expo w + e)
    let i := sm a * 2 ^ (expo a - k).toNat + sm w * d * 2 ^ (expo w + e - k).toNat
    let minus := neg? w != (if d = 0 then neg? x && !neg? y else decide (d < 0))
    if i = 0 then (if neg? a && minus && isZero a then 0x80000000 else 0) else ofScaled i k

def div (a b : F32) : F32 :=
  let s := neg? a != neg? b
  if isNan a || isNan b then nan
  else if isInf a then (if isInf b then nan else w32 (signBit s + 0x7F800000))
  else if isInf b then w32 (signBit s)
  else if isZero b then (if isZero a then nan else w32 (signBit s + 0x7F800000))
  else
    let n := mant a * 2 ^ 64
    round s (n / mant b) (expo a - expo b - 64) (n % mant b ≠ 0)

/-- The integer square root of `n` by bits from `2^k` down. -/
def isqrt (n : Nat) : Nat → Nat → Nat
  | 0, r => if (r + 1) * (r + 1) ≤ n then r + 1 else r
  | k + 1, r => isqrt n k (let t := r + 2 ^ (k + 1); if t * t ≤ n then t else r)

def sqrt (a : F32) : F32 :=
  if isNan a then nan
  else if isZero a then a
  else if neg? a then nan
  else if isInf a then a
  else
    let odd := (expo a) % 2 ≠ 0
    let m := mant a * (if odd then 2 else 1) * 2 ^ 64
    let e := (if odd then expo a - 1 else expo a) - 64
    let r := isqrt m 48 0
    round false r (e / 2) (r * r ≠ m)

/-- Order of values: minus and plus zero are equal. -/
def key (w : F32) : Int := let n : Int := (w.toNat % 0x80000000 : Nat); if neg? w then -n else n

def lt (a b : F32) : Bool := !isNan a && !isNan b && key a < key b
def le (a b : F32) : Bool := !isNan a && !isNan b && key a ≤ key b
def eq (a b : F32) : Bool := !isNan a && !isNan b && key a = key b

def max2 (a b : F32) : F32 := if lt a b then b else a
def min2 (a b : F32) : F32 := if lt b a then b else a

/-- The integer nearest to the value × 2^k, halves to even; the value is finite. -/
def toIntRne (w : F32) (k : Int) : Int :=
  let e := expo w + k
  if 0 ≤ e then sm w * 2 ^ e.toNat
  else
    let d := 2 ^ (-e).toNat
    let m := mant w
    let q := m / d
    let r := m % d
    let n := if d < 2 * r ∨ (2 * r = d ∧ q % 2 = 1) then q + 1 else q
    if neg? w then -(n : Int) else n

/-- The floor of the value × 2^k; the value is finite. -/
def toIntFloor (w : F32) (k : Int) : Int :=
  let e := expo w + k
  if 0 ≤ e then sm w * 2 ^ e.toNat else sm w / (2 ^ (-e).toNat : Nat)

/-- The value × 2^k truncated toward zero; the value is finite. -/
def toIntTrunc (w : F32) (k : Int) : Int :=
  let e := expo w + k
  if 0 ≤ e then sm w * 2 ^ e.toNat
  else
    let n : Int := (mant w / 2 ^ (-e).toNat : Nat)
    if neg? w then -n else n

/-- Sum of a list, left to right. -/
def sum : List F32 → F32
  | [] => 0
  | [a] => a
  | a :: b :: l => (b :: l).foldl add a

/-! ## Arc tangent in revolutions, correctly rounded (04 R76) -/

/-- Fraction bits of the arc tangent. -/
abbrev atanBits : Nat := 700

/-- Euler's series: the sum of terms from term `t` number `k`, for (n / d)² over 1 + (n / d)². -/
def atanSum (n2 d2 : Nat) : Nat → Nat → Nat → Nat
  | 0, _, _ => 0
  | f + 1, k, t => t + atanSum n2 d2 f (k + 1) (t * (2 * k + 2) * n2 / ((2 * k + 3) * (n2 + d2)))

/-- The arc tangent of n / d in radians × 2^700, for 0 < n ≤ d. -/
def atanFix (n d : Nat) : Nat := atanSum (n * n) (d * d) 760 0 (n * d * 2 ^ atanBits / (n * n + d * d))

/-- π × 2^700 (Machin). -/
def piFix : Nat := 16 * atanFix 1 5 - 4 * atanFix 1 239

/-- 2^400 × the arc tangent of n / d in revolutions, for 0 < n ≤ d; n = d is exact. -/
def turnFix (n d : Nat) : Nat := if n = d then 2 ^ 397 else atanFix n d * 2 ^ 400 / (2 * piFix)

/-- atan2r(y, x): revolutions in (−0.5, 0.5], correctly rounded. -/
def atan2r (y x : F32) : F32 :=
  if isNan y || isNan x then nan
  else
    let e := min (expo y) (expo x)
    let ay := if isInf y then (if isInf x then 1 else 1) else if isInf x then 0 else mant y * 2 ^ (expo y - e).toNat
    let ax := if isInf x then 1 else if isInf y then 0 else mant x * 2 ^ (expo x - e).toNat
    if ay = 0 then (if neg? x && !(isZero x) then half else y &&& 0x80000000)
    else if ax = 0 then (if neg? y then 0xBE800000 else 0x3E800000)
    else
      -- first-quadrant angle × 2^400
      let t := if ay ≤ ax then turnFix ay ax else 2 ^ 398 - turnFix ax ay
      let v := if neg? x then 2 ^ 399 - t else t
      round (neg? y) v (-400) (ay ≠ ax)

end F

end Sys2Proof.Machine
end

