-- ==== Sys2Proof/Machine/Sets.lean ====
section
/-! DEFINITION. Elements, armed shadows and generation-bearing pages as every family meets them (12 R233 to R238), and the
gap spans that later stages look at. -/

namespace Sys2Proof.Machine

/-- The shadow armed at an element. -/
def State.armedAt (s : State) (e : Elem) : Option Armed := s.host.armed.find? fun a => a.elem = e

/-- 12 R238: the generation that an element of a context produces under: until it applies, the one before the commit. -/
def State.elemGen (s : State) (ctx : Nat) (e : Elem) : BitVec 16 :=
  match s.armedAt e with
  | some a => if a.ctx = ctx then a.gen else s.ctxGen ctx
  | none => s.ctxGen ctx

/-- The shadow of an element discarded. -/
def State.dropArmed (s : State) (e : Elem) : State :=
  { s with host := { s.host with armed := s.host.armed.filter fun a => a.elem ≠ e } }

/-- The steady time of a block's last apply recorded for a context (CHANGESET_GET_STATUS). -/
def State.markApply (s : State) (ctx blk : Nat) : State :=
  match s.ctx? ctx with
  | some x => s.setCtx ctx { x with lastApply := (padTo' x.lastApply).set blk s.now }
  | none => s
where
  /-- six entries, one for each block -/
  padTo' (l : List Nat) : List Nat := l ++ List.replicate (6 - l.length) 0

/-- 12 R237: an element applies its armed shadow. -/
def State.applyElem (s : State) (e : Elem) (apply : GCmd → State → State) : State :=
  match s.armedAt e with
  | some a => (a.cmds.foldl (fun t c => apply c t) (s.dropArmed e)).markApply a.ctx e.blk
  | none => s

/-- A generation-bearing page (12 R233, R234): its element, the checks of 10 R196 step 8 in their groups, the data it
fetches, the capacity it claims at staging. `access` and `params` see the state that would result from the armed shadows and
the context's own set. -/
structure GPage where
  op : Nat
  elem : Cmd → State → Elem
  /-- element ranges, ownership, domain -/
  access : Cmd → State → Check
  /-- every other field -/
  params : Cmd → State → Check
  /-- host address and length of the data the command fetches -/
  fetch : Cmd → State → Option (Nat × Nat)
  /-- the check of the fetched data -/
  data : Cmd → Bytes → State → Check
  /-- capacity: given the context, the state that its own set would give and the one that every open set would give, the
  state with it reserved and the handle it got -/
  reserve : GCmd → Nat → State → State → State → Except CErr (State × Nat)
  /-- the reservation given back when the staged command is replaced or discarded -/
  release : GCmd → State → State
  /-- result bytes from the handle -/
  result : Nat → Bytes

/-- Units of a resource that the elements of a list would hold: a context's own as its set leaves them, those of others as
much as they hold or claim, for their sets may yet be aborted (12 R234). -/
def claimed (own : Nat → Bool) (v w : State) (held : State → Nat → Nat) (l : List Nat) : Nat :=
  l.foldl (fun n i => n + if own i then held v i else Nat.max (held v i) (held w i)) 0

/-- A page that fetches and claims nothing. -/
def GPage.plain (op : Nat) (elem : Cmd → State → Elem) (access params : Cmd → State → Check) : GPage :=
  { op := op, elem := elem, access := access, params := params, fetch := fun _ _ => none, data := fun _ _ _ => .ok (),
    reserve := fun _ _ _ _ s => .ok (s, 0), release := fun _ s => s, result := fun _ => [] }

/-- The context is paused by QUIESCE_COMMIT (12 R241 step 1). -/
def State.paused (s : State) (ctx : Nat) : Bool := match s.ctx? ctx with | some x => x.quiesce.isSome | none => false

/-- Drops of a source counted in a pause (12 R242). -/
def State.countPaused (s : State) (ctx key n : Nat) : State :=
  match s.ctx? ctx with
  | some x => (match x.quiesce with
    | some q => s.setCtx ctx { x with quiesce := some { q with drops := q.drops.set key (q.drops.getD key 0 + n) } }
    | none => s)
  | none => s

def State.modViridian (s : State) (f : Viridian → Viridian) : State := { s with viridian := f s.viridian }

/-- The span of a gap told to the stages that mark INPUT_GAP (04 R87, 07 R141). -/
def State.noteGap (s : State) (src first last : Nat) : State :=
  { s with viridian := { s.viridian with gaps := s.viridian.gaps ++ [⟨src, first, last⟩] } }

/-- 12 R236: a command resets an element of a context: its generation increments and an open set becomes stale. -/
def State.bumpGen (s : State) (ctx : Nat) : State :=
  match s.ctx? ctx with
  | some x => s.setCtx ctx { x with gen := x.gen + 1, set := x.set.map fun c => { c with stale := true } }
  | none => s

/-- A rule's registers as a window keeps them: ten words from VIR_Rn_CFG, then four for each input. -/
def State.ruleCfg (s : State) (r : Nat) : List Word :=
  ((List.range 10).map fun i => s.reg (R.VIR_Rn_CFG r + 4 * i)) ++ (List.range 32).map fun i => s.reg (R.VIR_Rn_IN r + 4 * i)

/-- An enabled configuration names a source of a kind and index (07 R131); for INFERENCE the binding is the key. -/
def cfgNames (cfg : List Word) (kind index : Nat) : Bool :=
  bit (nth cfg 0 0) 0 && (List.range (fld (nth cfg 0 0) 14 11)).any fun i =>
    fld (nth cfg (10 + 4 * i) 0) 7 0 = kind && fld (nth cfg (10 + 4 * i) 0) 15 8 = index

def State.rule (s : State) (r : Nat) : RuleDyn := s.viridian.rules.getD r RuleDyn.init

/-- The rules that take members of a context's source, by their registers or by a window still open. -/
def State.rulesFor (s : State) (kind index ctx : Nat) : List Nat :=
  below 256 fun r => (s.regN (R.VIR_Rn_OWNER r) = ctx && cfgNames (s.ruleCfg r) kind index) ||
    (s.rule r).windows.any fun w => w.ctx = ctx && cfgNames w.cfg kind index

/-- Members that wait in the queue of 4,096 (07 R142). -/
def State.admitLevel (s : State) : Nat := s.viridian.queue.length

/-- A member offered to Viridian's admission queue, where a rule takes its source; a full queue drops it, counts it and
asserts source 194 (07 R142). The drop marks every window that is open (07 R141). -/
def State.offerMember (s : State) (m : Member) : State :=
  let rules := s.rulesFor m.kind m.index m.ctx
  let s := if rules.isEmpty then s else s.touch dVIR
  if !s.domUp dVIR || rules.isEmpty then s
  else if s.admitLevel < 4096 then
    { s with viridian := { s.viridian with queue := s.viridian.queue ++ [m] } }
  else
    let mark := fun (x : RuleDyn) => { x with windows := x.windows.map fun w => { w with gapMark := true } }
    let t := s.modViridian fun v => { v with rules := v.rules.map fun e => (e.1, mark e.2) }
    (t.bumpSat R.VIR_ADMIT_DROP).assertSource 194

/-- An input position offered to the bindings whose source it is (08 R156). -/
def State.offerInput (s : State) (x : BindIn) : State :=
  if s.indigo.binds.any fun e => e.2.kind = x.kind && e.2.source = x.source && e.2.ctx = x.ctx then
    { s with indigo := { s.indigo with inq := s.indigo.inq ++ [x] } }
  else s

/-- An extent of the DRAM heap freed by its base. -/
def State.freeDramAt (s : State) (base : Nat) : State :=
  match s.host.dram.find? fun e => e.base = base with
  | some e =>
    let t := { s with host := { s.host with dram := s.host.dram.filter fun e => e.base ≠ base } }
    if e.ctx < 1024 then t.dropFence 18 e.ctx e.base e.len (guardEntries 18 - 32) 0 else t
  | none => s

/-- An extent of the DRAM heap given what it holds and its number. -/
def State.retagDram (s : State) (base what idx : Nat) : State :=
  s.modHost fun h => { h with
    dram := h.dram.map fun e => if e.base = base then { e with what := what, idx := idx } else e }

/-- An extent of the shared SRAM heap freed by its base. -/
def State.freeSramAt (s : State) (base : Nat) : State :=
  match s.host.sram.find? fun e => e.base = base with
  | some e =>
    let t := s.modHost fun h => { h with sram := h.sram.filter fun e => e.base ≠ base }
    if e.ctx < 1024 then t.dropFence 1 e.ctx e.base e.len (guardEntries 1 - 32) 0 else t
  | none => s

/-- An extent of the shared SRAM heap given what it holds and its number. -/
def State.retagSram (s : State) (base what idx : Nat) : State :=
  s.modHost fun h => { h with
    sram := h.sram.map fun e => if e.base = base then { e with what := what, idx := idx } else e }

/-- A GAP record's body (03 R65). -/
def gapBody (kind index reason events bytes flags first last : Nat) : Bytes :=
  leBytes 2 kind ++ leBytes 1 index ++ leBytes 1 reason ++ leBytes 4 (Nat.min events 0xFFFFFFFF) ++
  leBytes 4 (Nat.min bytes 0xFFFFFFFF) ++ leBytes 2 flags ++ leBytes 2 0 ++ leBytes 8 first ++ leBytes 8 last

end Sys2Proof.Machine
end

