-- ==== Sys2Proof/Machine/Ochre.lean ====
section
/-! DEFINITION. Ochre (03): reception, decoding, stamps, filters, port FIFOs, gaps, event blocks, the sensor buses, the
trigger outputs and the 0x04 commands. -/

namespace Sys2Proof.Machine

def State.modOchre (s : State) (f : Ochre → Ochre) : State := { s with ochre := f s.ochre }

def State.port (s : State) (p : Nat) : OchPort := s.ochre.ports.getD p OchPort.init

def State.setPort (s : State) (p : Nat) (x : OchPort) : State :=
  s.modOchre fun o => { o with ports := o.ports.set p x }

/-- The port's owner; 0xFFFF is none. -/
def State.portOwner (s : State) (p : Nat) : Nat := s.regN (R.OCH_Pn_OWNER p)

abbrev noOwner : Nat := 0xFFFF

/-- The element of a port (12 R233). -/
abbrev ochElem (p : Nat) : Elem := ⟨0, p⟩

/-- 03 R53: the port is enabled, powered and in lock. -/
def State.portReceives (s : State) (p : Nat) : Bool :=
  s.regBit (R.OCH_Pn_LINK p) 0 && s.regBit R.OCH_CTRL p && s.domUp (portDomain p) && !(s.port p).resync

/-! ## Applying configuration -/

/-- 03 R61: the cell shift of a sensor size, the smallest of `k`, `k + 1`, … that fits. -/
def cellShift (w h : Nat) : Nat → Nat → Nat
  | 0, k => k
  | n + 1, k =>
    if ((w + 2 ^ k - 1) / 2 ^ k) * ((h + 2 ^ k - 1) / 2 ^ k) ≤ 262144 then k else cellShift w h n (k + 1)

/-- A sensor size configured (03 R61): a change of it recomputes k and clears the filter map. -/
def State.setSize (s : State) (p : Nat) (size : Word) : State :=
  if size = s.reg (R.OCH_Pn_SIZE p) then s
  else ((s.setReg (R.OCH_Pn_SIZE p) size).setReg (R.OCH_Pn_CELL_SHIFT p)
    (w32 (cellShift (fld size 10 0 + 1) (fld size 26 16 + 1) 12 0))).setPort p { s.port p with map := [] }

/-- EVPORT_SET_FORMAT at its apply point (03 R55 to R61). -/
def applyFormat (b : Bytes) (s : State) : State :=
  let p := u8 b 0
  let t := s.setRegFld (R.OCH_Pn_LINK p) 11 8 (u8 b 0x03)
  let t := t.setReg (R.OCH_Pn_FMT p) (w32 (u8 b 0x02 + u8 b 0x01 * 0x100 + u8 b 0x04 * 0x200 + u8 b 0x05 * 0x400))
  let t := t.setReg (R.OCH_Pn_XY p)
    (w32 (u8 b 0x0C + u8 b 0x0D * 0x100 + u8 b 0x0E * 0x10000 + u8 b 0x0F * 0x1000000))
  let t := t.setReg (R.OCH_Pn_TSTYPE p)
    (w32 (u8 b 0x11 + u8 b 0x12 * 0x100 + u8 b 0x13 * 0x10000 + u8 b 0x14 * 0x1000000))
  let t := t.setReg (R.OCH_Pn_TIMING p) (w32 (u16 b 0x06 + u16 b 0x16 * 0x10000))
  let t := t.setReg (R.OCH_Pn_TYPEVAL p) (w32 (u8 b 0x15 + u8 b 0x10 * 0x100))
  t.setSize p (w32 (u16 b 0x08 - 1 + (u16 b 0x0A - 1) * 0x10000))

/-- Address of hot-pixel entry `i` of port `p`. -/
abbrev hotAddr (p i : Nat) : Nat := 0x20008000 + p * 0x400 + 4 * i

/-- EVPORT_SET_FILTERS at its apply point: the list replaces the old one whole. -/
def applyFilters (b d : Bytes) (s : State) : State :=
  let p := u8 b 0
  let n := u16 b 0x06
  let t := s.setReg (R.OCH_Pn_FILT p) (w32 (u16 b 0x02 + u16 b 0x04 * 0x10000))
  forEach (List.range 256) (fun i t =>
    t.setReg (hotAddr p i) (if i < n then w32 (u32 d (4 * i) % 0x1000000 + 0x80000000) else 0)) t

/-- EVPORT_SET_BLOCKING at its apply point. -/
def applyBlocking (b : Bytes) (s : State) : State :=
  let p := u8 b 0
  ((((s.setReg (R.OCH_Pn_BLOCK p) (w32 (u16 b 0x02 + u8 b 0x01 * 0x2000))).setReg (R.OCH_Pn_BLOCK_TMO p)
    (w32 (u32 b 0x04))).setReg (R.OCH_Pn_SILENT_US p) (w32 (u32 b 0x08))).setReg (R.OCH_Pn_WAKE_THR p) (w32 (u32 b 0x0C)))

/-- A generation-bearing 0x04 command applied. -/
def applyOchre (c : GCmd) (s : State) : State :=
  if c.opcode = 0x0402 then applyFormat c.block s
  else if c.opcode = 0x0403 then applyFilters c.block c.data s
  else if c.opcode = 0x0404 then applyBlocking c.block s
  else s

/-! ## Event words (01 R25) -/

abbrev evVec : Nat := 2 ^ 60
abbrev evSensorTime : Nat := 2 ^ 61
abbrev evPostGap : Nat := 2 ^ 62
abbrev evHoldover : Nat := 2 ^ 63

def evWord (ts32 : Word) (x y : Nat) (pol : Bool) (port flags : Nat) : BitVec 64 :=
  BitVec.ofNat 64 (ts32.toNat + x % 4096 * 2 ^ 32 + y % 4096 * 2 ^ 44 + b2n pol * 2 ^ 56 + port % 8 * 2 ^ 57 + flags)

def Ev.x (e : Ev) : Nat := e.word.toNat / 2 ^ 32 % 4096
def Ev.y (e : Ev) : Nat := e.word.toNat / 2 ^ 44 % 4096
def Ev.pol (e : Ev) : Bool := e.word.toNat.testBit 56
def Ev.port (e : Ev) : Nat := e.word.toNat / 2 ^ 57 % 8
def Ev.flag (e : Ev) (k : Nat) : Bool := e.word.toNat.testBit k

/-! ## Blocks and boundaries (03 R66 to R69) -/

/-- Bytes of closed blocks that wait in a port's raw-stream buffer (03 R68). -/
def State.rawBytes (s : State) (p : Nat) : Nat :=
  (s.host.staged.filter fun x => x.prod = .ochre p && x.recd.type = 0x0001).foldl (fun n x => n + x.recd.length) 0

/-- The body of an EVENT_BLOCK record (03 R67). -/
def blockBody (p : Nat) (seq : Word) (l : List Ev) (first : Stamp) : Bytes :=
  leBytes 1 p ++ leBytes 1 0 ++ leBytes 2 l.length ++ leBytes 4 seq.toNat ++ leBytes 8 first.steady ++
  l.flatMap fun e => leBytes 8 e.word.toNat

/-- The open block of a port closes: staged, or discarded where the raw-stream buffer has no room (03 R68). -/
def State.closeBlock (s : State) (p : Nat) : State :=
  let x := s.port p
  match x.block with
  | [] => s
  | e :: _ =>
    let t := s.setPort p { x with block := [], blockSeq := x.blockSeq + 1 }
    if s.rawBytes p + (48 + 8 * x.block.length) ≤ 65536 then
      t.emit (.ochre p) (some (s.portOwner p)) 0x0001 e.stamp e.stamp.steady
        (flagIf (x.block.any fun e => e.flag 63) flHoldover ||| flagIf (e.flag 62) flInputGap) (srcPort p)
        (s.elemGen (s.portOwner p) (ochElem p)) (blockBody p x.blockSeq x.block e.stamp)
    else t.bumpSat (R.OCH_Pn_BLK_DROP p)

/-- 03 R69: the anchor copies that wait for a context's next block boundary, with that context and its generation. -/
def State.copyAnchors (s : State) (p : Nat) : State :=
  let c := s.portOwner p
  if s.regBit (R.OCH_Pn_BLOCK p) 13 then
    let mine := s.ochre.anchors.filter fun a => a.1 = c
    mine.foldl (fun t a => t.stageRec (.ochre p) (some c) (anchorRec (some c) (t.ctxGen c) a.2.1 a.2.2))
      (s.modOchre fun o => { o with anchors := o.anchors.filter fun a => a.1 ≠ c })
  else s

/-- 03 R66: a block boundary: the block closes, anchor copies follow it, and the armed shadow applies. -/
def State.boundary (s : State) (p : Nat) : State :=
  let t := (((s.closeBlock p).copyAnchors p).applyElem (ochElem p) applyOchre)
  t.setPort p { t.port p with timer := s.now }

/-! ## Gaps (03 R64, R65) -/

/-- The GAP record of a port's open gap; `cont` for CONTINUES. -/
def State.emitGap (s : State) (p : Nat) (g : Gap) (cont : Bool) : State :=
  (s.noteGap p g.first.steady g.lastSteady).emit (.ochre p) (some (s.portOwner p)) 0x0003 g.first
    g.first.steady (flInputGap ||| g.first.flag) (srcPort p) (s.elemGen (s.portOwner p) (ochElem p))
    (gapBody 0 p g.reason g.events g.bytes (b2n cont) g.first.steady g.lastSteady)

/-- A drop on a port: it opens a gap, which is a block boundary, or adds to the open one. -/
def State.portDrop (s : State) (p reason events bytes : Nat) (t : Stamp) : State :=
  match (s.port p).gap with
  | some g =>
    s.setPort p { s.port p with
      gap := some { g with events := g.events + events, bytes := g.bytes + bytes, lastSteady := t.steady } }
  | none =>
    let u := s.boundary p
    ((u.setPort p { u.port p with gap := some ⟨reason, events, bytes, t, t.steady, s.now⟩ }).bumpSat
      (R.OCH_Pn_GAP_COUNT p)).assertSource (p * 8)

/-- The gap of a port closes: its record is staged and source p × 8 + 1 asserts. -/
def State.closeGap (s : State) (p : Nat) : State :=
  match (s.port p).gap with
  | some g => ((s.setPort p { s.port p with gap := none, postGap := true }).emitGap p g false).assertSource (p * 8 + 1)
  | none => s

/-! ## The path of one event (03 R57 to R64) -/

/-- The filter map's present time: steady time in whole µs modulo 32,768 (03 R61). -/
def State.mapNow (s : State) : Nat := s.now / 1000 % 32768

/-- Age of a map entry. -/
def mapAge (now e : Nat) : Nat := (now + 32768 - e) % 32768

/-- Key of a cell. -/
def cellKey (cx cy : Nat) : Nat := cy * 4096 + cx

/-- A cell of the filter map holds a valid entry younger than `us`. -/
def OchPort.young (x : OchPort) (now cx cy us : Nat) : Bool :=
  match x.map.get? (cellKey cx cy) with
  | some e => mapAge now e < us
  | none => false

/-- 03 R60 step 1. -/
def State.isHot (s : State) (p x y : Nat) : Bool :=
  (List.range 256).any fun i =>
    let w := s.reg (hotAddr p i)
    bit w 31 && fld w 11 0 = x && fld w 23 12 = y

/-- The eight neighbours of a cell that lie in the sensor area, `cols` by `rows` cells. -/
def neighbours (cols rows cx cy : Nat) : List (Nat × Nat) :=
  ([(0, 0), (1, 0), (2, 0), (0, 1), (2, 1), (0, 2), (1, 2), (2, 2)].filterMap fun d =>
    let a := cx + d.1
    let b := cy + d.2
    if 1 ≤ a && a ≤ cols && 1 ≤ b && b ≤ rows then some (a - 1, b - 1) else none)

/-- No EVENT_BLOCK spans two epochs (03 Edges): an event of another epoch, one of a packet stamped before a step, finds
the open block closed (DESIGN CHOICE, log entry 41). -/
def State.splitBlock (s : State) (p : Nat) (e : BitVec 16) : State :=
  match (s.port p).block with
  | [] => s
  | b :: _ => if b.stamp.epoch = e then s else s.closeBlock p

/-- 03 R60 step 5 and R64: a surviving event is offered to the FIFO. -/
def State.admitEvent (s : State) (p : Nat) (mk : Nat → BitVec 64) (t : Stamp) : State :=
  let c := s.portOwner p
  if s.paused c then s.countPaused c p 1
  else if 65536 ≤ (s.port p).fifo.length then (s.bumpSat (R.OCH_Pn_DROP_OVF p)).portDrop p 0x01 1 0 t
  else
    let s1 := (s.closeGap p).splitBlock p t.epoch
    let x := s1.port p
    let e : Ev := ⟨mk (if x.postGap then evPostGap else 0), t⟩
    let raw := s1.regBit (R.OCH_Pn_BLOCK p) 13
    let s2 := s1.setPort p { x with
      fifo := x.fifo ++ [e], postGap := false, active := x.active + 1,
      timer := if raw && x.block.isEmpty then s.now else x.timer,
      block := if raw then x.block ++ [e] else x.block }
    let s3 := s2.setReg64 (R.OCH_Pn_ACCEPTED_LO p) (s2.reg64 (R.OCH_Pn_ACCEPTED_LO p) + 1)
    let s3 := s3.modOchre fun o => { o with admits := o.admits.set p (o.admits.getD p 0 + 1) }
    let lvl := (s3.port p).fifo.length
    let s4 := if s3.regN (R.OCH_Pn_FIFO_PEAK p) < lvl then s3.setReg (R.OCH_Pn_FIFO_PEAK p) (w32 lvl) else s3
    if raw ∧ s4.regFld (R.OCH_Pn_BLOCK p) 12 0 ≤ (s4.port p).block.length then s4.boundary p else s4

/-- 03 R57, R60: one decoded event through the range check and the filters. -/
def State.filterEvent (s : State) (p x y : Nat) (pol : Bool) (t : Stamp) (flags : Nat) : State :=
  let sz := s.reg (R.OCH_Pn_SIZE p)
  let w := fld sz 10 0 + 1
  let h := fld sz 26 16 + 1
  if w ≤ x ∨ h ≤ y then (s.bumpSat (R.OCH_Pn_DROP_RANGE p)).assertSource (p * 8 + 4)
  else if s.isHot p x y then s.bumpSat (R.OCH_Pn_DROP_HOT p)
  else
    let k := s.regN (R.OCH_Pn_CELL_SHIFT p)
    let cx := x / 2 ^ k
    let cy := y / 2 ^ k
    let refr := s.regFld (R.OCH_Pn_FILT p) 13 0
    let ba := s.regFld (R.OCH_Pn_FILT p) 29 16
    if (s.port p).young s.mapNow cx cy refr then s.bumpSat (R.OCH_Pn_DROP_REFR p)
    else
      let s1 := s.setPort p { s.port p with map := (s.port p).map.set (cellKey cx cy) s.mapNow }
      let near := (neighbours ((w + 2 ^ k - 1) / 2 ^ k) ((h + 2 ^ k - 1) / 2 ^ k) cx cy).any fun c =>
        (s1.port p).young s.mapNow c.1 c.2 ba
      if ba ≠ 0 && !near then s1.bumpSat (R.OCH_Pn_DROP_BA p)
      else s1.admitEvent p (fun f => evWord t.ts32 x y pol p (flags + f)) t

/-! ## Decoding (03 R55, R56, R58, R62) -/

/-- A stamp moved by a signed number of ns, held at zero (03 R58). -/
def Stamp.shift (t : Stamp) (d : Int) : Stamp :=
  let f := ((t.farm : Int) + d).toNat
  { t with sec := f / 1000000000 % 2 ^ 48, ns := f % 1000000000, steady := ((t.steady : Int) + d).toNat }

/-- A bit field of a 64-bit word. -/
def wordField (w lsb width : Nat) : Nat := w / 2 ^ lsb % 2 ^ width

/-- Bytes of a word or unit. -/
def State.unitBytes (s : State) (p : Nat) : Nat := if s.regBit (R.OCH_Pn_FMT p) 8 then 12 else 8

/-- 03 R58: the stamp of an event of a packet. -/
def State.eventStamp (s : State) (p : Nat) (k : RxPkt) (time first : Nat) : Stamp :=
  if s.regBit (R.OCH_Pn_FMT p) 9 then
    let d := sext (s.regFld (R.OCH_Pn_TSTYPE p) 13 8) (time + 2 ^ 32 - first)
    k.stamp.shift (d * (s.regFld (R.OCH_Pn_TIMING p) 31 16 : Int))
  else k.stamp

/-- The events of a word or unit: the offsets that the mask of an EVEC unit sets in ascending order, or the one of a word;
none where its type is not that of an event. -/
def State.unitMask (s : State) (p : Nat) (u : Bytes) : Option (List Nat) :=
  let w := leNat (slice u 0 8)
  let tt := s.reg (R.OCH_Pn_TSTYPE p)
  if fld tt 27 24 = 0 || wordField w (fld tt 21 16) (fld tt 27 24) = fld (s.reg (R.OCH_Pn_TYPEVAL p)) 7 0 then
    some (if s.regBit (R.OCH_Pn_FMT p) 8 then below 32 fun i => (leNat (slice u 8 4)).testBit i else [0])
  else none

/-- Events of a word or unit of a packet, at the given offsets. -/
def State.produce (s : State) (p : Nat) (k : RxPkt) (u : Bytes) (offs : List Nat) : State × RxPkt :=
  let w := leNat (slice u 0 8)
  let xy := s.reg (R.OCH_Pn_XY p)
  let tt := s.reg (R.OCH_Pn_TSTYPE p)
  let time := wordField w (fld tt 5 0) (fld tt 13 8)
  let first := k.timeFirst.getD time
  let x := wordField w (fld xy 5 0) (fld xy 11 8)
  let y := wordField w (fld xy 21 16) (fld xy 27 24)
  let pol := (wordField w (fld (s.reg (R.OCH_Pn_TYPEVAL p)) 13 8) 1 = 1) != s.regBit (R.OCH_Pn_FMT p) 10
  let st := s.eventStamp p k time first
  let flags := (if s.regBit (R.OCH_Pn_FMT p) 8 then evVec else 0) +
    (if s.regBit (R.OCH_Pn_FMT p) 9 then evSensorTime else 0) + (if k.stamp.holdover then evHoldover else 0)
  if offs = [] then (s, k)
  else (forEach offs (fun i t => t.filterEvent p (x + i) y pol st flags) s, { k with timeFirst := some first })

/-- One word or unit of a packet turned into events. -/
def State.decodeUnit (s : State) (p : Nat) (k : RxPkt) (u : Bytes) : State × RxPkt :=
  match s.unitMask p u with
  | none => (s.bumpSat (R.OCH_Pn_IGN_WORD p), k)
  | some offs => s.produce p k u offs

/-- EVENT_DECODE: the word, unit or trailing bytes at the front of the receive buffer. A port without an owner decodes
nothing (03 R53). -/
def State.decodeOne (s : State) (p : Nat) : State :=
  match (s.port p).rx with
  | [] => s
  | k :: ks =>
    if s.portOwner p = noOwner then s
    else
      let n := s.unitBytes p
      if k.rest = [] then s.setPort p { s.port p with rx := ks }
      else if k.rest.length < n then (s.setPort p { s.port p with rx := ks }).bumpSat (R.OCH_Pn_IGN_WORD p)
      else
        let r := s.decodeUnit p k (k.rest.take n)
        let k' := { r.2 with rest := k.rest.drop n }
        r.1.setPort p { r.1.port p with rx := if k'.rest = [] then ks else k' :: ks }

/-- Decode while at least `bytes` are still to be drained. -/
def State.drain (s : State) (p : Nat) : Nat → Nat → State
  | 0, _ => s
  | n + 1, bytes =>
    match (s.port p).rx with
    | k :: _ =>
      let m := Nat.min (s.unitBytes p) k.rest.length
      if m ≤ bytes ∧ 0 < bytes then State.drain (s.decodeOne p) p n (bytes - m) else s
    | [] => s

/-! ## Reception (03 R53, R54, R58, R62) -/

/-- Bytes in the receive buffer. -/
def State.rxBytes (s : State) (p : Nat) : Nat := (s.port p).rx.foldl (fun n k => n + k.rest.length) 0

/-- A packet discarded for an error (03 R54): the events and the payload bytes that it did not yield. -/
def State.packetError (s : State) (p events bytes : Nat) (t : Stamp) : State :=
  ((((s.bumpSat (R.OCH_Pn_PKT_ERR p)).bumpSat (R.OCH_Pn_DROP_BYTES p) bytes).assertSource (p * 8 + 2))).portDrop p 0x03
    events bytes t

/-- 03 R54: what a CRC mismatch finds of its packet in the receive buffer leaves it. Of an EVEC unit at the front whose
decoding had begun the `begun` events already produced are kept, and the others count as dropped events; all other bytes
count as dropped bytes. -/
def State.crcError (s : State) (p : Nat) (begun : Option Nat) (t : Stamp) : State :=
  match (s.port p).rx.getLast? with
  | some r =>
    if r.stamp = t then
      let u := s.setPort p { s.port p with rx := (s.port p).rx.dropLast }
      match (if (s.port p).rx.length = 1 ∧ s.regBit (R.OCH_Pn_FMT p) 8 ∧ 12 ≤ r.rest.length then begun else none),
          s.unitMask p (r.rest.take 12) with
      | some n, some offs =>
        (u.produce p r (r.rest.take 12) (offs.take n)).1.packetError p (offs.length - n) (r.rest.length - 12) t
      | _, _ => u.packetError p 0 r.rest.length t
    else s.packetError p 0 0 t
  | none => s.packetError p 0 0 t

/-- A long packet that the port accepts: its payload comes into the receive buffer while `drained` bytes leave it
(03 R62), and a CRC mismatch discards what was not yet decoded (03 R54). -/
def State.acceptPacket (s : State) (p : Nat) (k : Csi2Packet) (t : Stamp) : State :=
  let n := s.unitBytes p
  let room := 32768 - s.rxBytes p + k.drained
  let whole := k.payload.length ≤ room
  let kept := if whole then k.payload.length else room / n * n
  let cut := k.payload.length - kept
  let pkt : RxPkt := ⟨k.payload.take kept, t, none⟩
  let s1 := s.setPort p { s.port p with rx := (s.port p).rx ++ [pkt] }
  let s2 := s1.drain p (k.drained + 1) k.drained
  let s3 := if whole then s2 else (s2.bumpSat (R.OCH_Pn_DROP_BYTES p) cut).portDrop p 0x02 0 cut t
  if k.crcOk then s3 else s3.crcError p k.begun t

/-- CSI2_PACKET_RECEIVED. -/
def workCsi2PacketReceived (port : Nat) (k : Csi2Packet) (s : State) : Res :=
  .next (
    if port < 8 ∧ s.portReceives port then
      let raw := s.stampEvt k.cycles
      let s1 := s.setReg64 (R.OCH_Pn_LAST_PKT_LO port) raw.steady
      let s2 := s1.setPort port { s1.port port with silentSaid := false }
      let t := raw.shift (-(s.regFld (R.OCH_Pn_TIMING port) 15 0 : Int))
      if s.portOwner port = noOwner then s2.bumpSat (R.OCH_Pn_IGN_PKT port)
      else match k.hdr with
        | .uncorrectable => s2.packetError port 0 k.payload.length t
        | h =>
          let s3 := if h = .corrected then s2.bumpSat (R.OCH_Pn_HDR_CORR port) else s2
          if k.dt < 4 then s3
          else if k.dt = s.regFld (R.OCH_Pn_FMT port) 7 0 ∧ s.regBit (R.OCH_Pn_LINK port) (8 + k.vc % 4) then
            s3.acceptPacket port k t
          else (s3.bumpSat (R.OCH_Pn_IGN_DT port)).assertSource (port * 8 + 3)
    else s)

/-- EVENT_DECODE. -/
def workEventDecode (port : Nat) (s : State) : Res :=
  .next (if port < 8 ∧ s.domUp (portDomain port) then s.decodeOne port else s)

/-- GAP_CONTINUES of an event port: 10 ms of an open gap since its opening or its last record (03 R64). Every record of one
gap carries the stamp of the gap's first drop (DESIGN CHOICE, log entry 41). -/
def State.gapContinue (s : State) (p : Nat) : State :=
  match (s.port p).gap with
  | some g =>
    if g.reportAt + 10000000 ≤ s.now then
      (s.setPort p { s.port p with
        gap := some { g with events := 0, bytes := 0, reportAt := g.reportAt + 10000000 } }).emitGap p g true
    else s
  | none => s

/-! ## Hand-off (03 R63) -/

/-- One event granted from a port to Cobalt. -/
def State.grantEvent (s : State) (p : Nat) : State :=
  match (s.port p).fifo with
  | e :: es =>
    let t := (s.setPort p { s.port p with fifo := es }).modOchre fun o => { o with lastGrant := p }
    ({ t with cobalt := { t.cobalt with inq := t.cobalt.inq ++ [e] } }).bump R.OCH_HANDOFF_CNT
  | [] => s

/-- The ports that one cycle grants, starting after the last port granted: those with an event, at most `n`. -/
def State.grantPorts (s : State) (n : Nat) : List Nat :=
  (((List.range 8).map fun i => (s.ochre.lastGrant + 1 + i) % 8).filter fun p => !(s.port p).fifo.isEmpty).take n

/-- EVENT_HANDOFF: one CLK_EVT cycle. Cobalt's three lanes take what they have free (log entry 14). -/
def workEventHandoff (s : State) : Res :=
  .next (if s.domUp dCOB then forEach (s.grantPorts (3 - s.cobalt.inq.length)) (fun p t => t.grantEvent p) s else s)

/-! ## Timers (03 R61, R66, R72) -/

/-- BLOCK_TIMEOUT. -/
def workBlockTimeout (port : Nat) (s : State) : Res :=
  .next (if port < 8 ∧ (s.port port).timer + s.regN (R.OCH_Pn_BLOCK_TMO port) * 1000 ≤ s.now then s.boundary port else s)

/-- FILTER_MAP_SCRUB. -/
def workFilterMapScrub (port : Nat) (s : State) : Res :=
  .next (if port < 8 then
    s.setPort port { s.port port with map := (s.port port).map.filter fun e => mapAge s.mapNow e.2 < 16384 } else s)

/-- PORT_SILENT: once per silence. -/
def workPortSilent (port : Nat) (s : State) : Res :=
  let us := s.regN (R.OCH_Pn_SILENT_US port)
  .next (if port < 8 ∧ us ≠ 0 ∧ ¬ (s.port port).silentSaid ∧ s.reg64 (R.OCH_Pn_LAST_PKT_LO port) + us * 1000 ≤ s.now then
    (s.setPort port { s.port port with silentSaid := true }).assertSource (port * 8 + 6) else s)

/-- PORT_ACTIVITY_WINDOW. -/
def workPortActivityWindow (port : Nat) (s : State) : Res :=
  let x := s.port port
  let thr := s.regN (R.OCH_Pn_WAKE_THR port)
  .next (if port < 8 ∧ x.activeFrom + 1000000 ≤ s.now then
    (s.setPort port { x with active := 0, activeFrom := s.now / 1000000 * 1000000 }).assertSourceIf
      (thr ≠ 0 && thr ≤ x.active) (port * 8 + 5)
    else s)

/-- DPHY_RESYNC_DONE. -/
def execDphyResyncDone (port : Nat) (s : State) : Res :=
  .next (if port < 8 ∧ (s.port port).resync then s.setPort port { s.port port with resync := false } else s)

/-- OCH_PN_CNT_CLR: the counters from +0x40 to +0x78. -/
def State.clearPortCounters (s : State) (p : Nat) : State :=
  s.resetRegs (R.OCH_Pn_ACCEPTED_LO p) (R.OCH_Pn_BLK_DROP p + 4)

def execOchPnCntClr (port : Nat) (v : Word) (s : State) : Res :=
  .next (if port < 8 ∧ bit v 0 then s.clearPortCounters port else s)

/-! ## Trigger outputs (03 R71) -/

def State.trig (s : State) (n : Nat) : Trigger := s.ochre.trig.getD n Trigger.init

def State.setTrig (s : State) (n : Nat) (x : Trigger) : State :=
  s.modOchre fun o => { o with trig := o.trig.set n x }

/-- Start time of a trigger, ns of farm time. -/
def State.trigStart (s : State) (n : Nat) : Nat :=
  (s.regN (R.OCH_TRIGn_SEC_LO n) + s.regFld (R.OCH_TRIGn_SEC_HI n) 15 0 * 0x100000000) * 1000000000 +
    s.regN (R.OCH_TRIGn_NS n)

/-- A mode takes force: OFF low, HIGH high, ONE_SHOT and PERIODIC armed (03 R71). -/
def State.armTrig (s : State) (n : Nat) : State :=
  let m := s.regFld (R.OCH_TRIGn_CFG n) 1 0
  (s.setTrig n { level := m = 1, next := none, fallAt := 0 }).setRegFld (R.OCH_TRIGn_CFG n) 2 2 (b2n (2 ≤ m))

/-- A firing at steady time `at'`: high for width_ns rounded down to 2.5 ns. -/
def State.fireTrig (s : State) (n at' : Nat) : State :=
  let per := s.regFld (R.OCH_TRIGn_CFG n) 1 0 = 3
  (((s.setTrig n
      { level := true, next := if per then some (at' + s.regN (R.OCH_TRIGn_PERIOD n)) else none,
        fallAt := 2 * at' + s.regN (R.OCH_TRIGn_WIDTH n) * 2 / 5 * 5 }).setRegFld (R.OCH_TRIGn_CFG n) 2 2 0).bump
    (R.OCH_TRIGn_FIRED n)).assertSource (n * 8 + 7)

/-- TRIGGER_FIRE: the start time reached while armed, or the period elapsed. -/
def workTriggerFire (n : Nat) (s : State) : Res :=
  .next (
    if n < 8 ∧ s.domUp dEVTA then
      if s.regBit (R.OCH_TRIGn_CFG n) 2 then
        if s.trigStart n ≤ s.clock.farmQ / 65536 then s.fireTrig n s.now else s
      else match (s.trig n).next with
        | some t => if t ≤ s.now then s.fireTrig n t else s
        | none => s
    else s)

/-- TRIGGER_PULSE_END. -/
def workTriggerPulseEnd (n : Nat) (s : State) : Res :=
  .next (if n < 8 ∧ 2 ≤ s.regFld (R.OCH_TRIGn_CFG n) 1 0 ∧ (s.trig n).level ∧ (s.trig n).fallAt ≤ 2 * s.now then
    s.setTrig n { s.trig n with level := false } else s)

/-! ## Sensor buses (03 R70) -/

/-- A transfer occupies a bus. -/
def State.sbusBusy (s : State) (bus : Nat) : Bool := (s.ochre.sbusRuns.get? bus).isSome

/-- A transfer starts on a bus: target, SPI mode, clock, bytes to write and number to read. -/
def State.sbusStart (s : State) (bus target mode khz : Nat) (w : Bytes) (rd : Nat) (path : Option Nat) : State :=
  (s.modOchre fun o => { o with sbusRuns := o.sbusRuns.set bus path }).send (.sensor bus target mode khz w rd)

/-- OCH_SBUS_GO: the selected bus, address, mode, clock and lengths, and the queued bytes. A busy bus ignores it (log entry
15). -/
def execOchSbusGo (v : Word) (s : State) : Res :=
  let bus := s.regFld R.OCH_SBUS_SEL 1 0
  .next (
    if bit v 0 ∧ ¬ s.sbusBusy bus ∧ bus < 3 then
      let tgt := if bus = 2 then s.regFld R.OCH_SBUS_CFG 10 8 else s.regFld R.OCH_SBUS_CFG 6 0
      let n := s.regFld R.OCH_SBUS_LEN 8 0
      (s.modOchre fun o => { o with sbusTx := o.sbusTx.drop n, sbusRx := [] }).sbusStart bus tgt
        (if bus = 2 then s.regFld R.OCH_SBUS_CFG 13 12 else 0) (s.regFld R.OCH_SBUS_CFG 31 16) (slice s.ochre.sbusTx 0 n)
        (s.regFld R.OCH_SBUS_LEN 24 16) none
    else s)

/-- OCH_SBUS_STATUS shows the bus that OCH_SBUS_SEL names (DEDUCED, log entry 15). -/
def State.sbusStatus (s : State) : Word :=
  let bus := s.regFld R.OCH_SBUS_SEL 1 0
  if s.sbusBusy bus then 1 else s.ochre.sbusLast.getD bus 0

/-- OCH_SBUS_DATA: a write queues a byte to send, a read pops a received byte; what an empty FIFO
reads is free (log entry 15). -/
def execOchSbusDataPop (w : Option Byte) (s : State) : Res :=
  .next (match w with
    | some b => s.modOchre fun o => { o with sbusTx := o.sbusTx ++ [b] }
    | none =>
      match s.ochre.sbusRx with
      | [] => { s.tookFree with readData := [s.free.setWidth 8], readErr := false }
      | x :: xs => { (s.modOchre fun o => { o with sbusRx := xs }) with readData := [x], readErr := false })

/-- SENSOR_BUS_TRANSFER_DONE: the transfer of a bus ends with xfer_status, the bytes moved, the bytes read. -/
def execSensorBusTransferDone (status : XferEnd) (moved : Nat) (data : Bytes) (s : State) : Res :=
  .next (
    match s.ochre.sbusRuns.get? status.bus with
    | none => s
    | some path =>
      let t := s.modOchre fun o => { o with
        sbusRuns := o.sbusRuns.erase status.bus,
        sbusLast := o.sbusLast.set status.bus (w32 (status.status % 4 * 2 + moved % 512 * 0x10000)) }
      match path with
      | some p => t.toStage p (.resumed (some (leBytes 1 status.status ++ leBytes 1 0 ++ leBytes 2 moved ++ data)))
      | none => t.modOchre fun o => { o with sbusRx := data })

/-! ## Command pages (03 Control surface) -/

/-- The checks of a context-scope command on a port: range, ownership, domain. -/
def portAccess (p : Nat) (ctx : Nat) (s : State) : Check :=
  allOf [inRange p 0 7 0, need (s.portOwner p = ctx) noPermission, s.reach (portDomain p)]

/-- An I2C address or SPI chip select registered to a port other than `p`. -/
def State.i2cTaken (s : State) (p bus addr : Nat) : Bool :=
  (List.range 8).any fun q => q ≠ p && (s.port q).i2c = some (bus, addr)
def State.spiTaken (s : State) (p cs : Nat) : Bool := (List.range 8).any fun q => q ≠ p && (s.port q).spiCs = some cs

/-- 10 R197: a yielded command of another function holds a port: SENSOR_XFER, EVPORT_SET_FILTERS, PROJ_SET_PORT. -/
def State.portHeld (s : State) (p fn : Nat) : Bool :=
  (List.range 33).any fun q => match s.latch q with
    | some l => l.cmd.fn ≠ fn && u8 l.cmd.block 0 = p &&
      (l.cmd.opcode = 0x0403 || l.cmd.opcode = 0x0406 || l.cmd.opcode = 0x0503) &&
      (match l.stage with | .yielded => true | .resumed _ => true | _ => false)
    | none => false

/-- EVPORT_ASSIGN. With i2c_bus 0xFF there is no address to check (DESIGN CHOICE, log entry 41). -/
def checkAssign (c : Cmd) (s : State) : Check :=
  let b := c.block
  let p := u8 b 0
  allOf [inRange p 0 7 0, s.reach (portDomain p), inRange (u8 b 1) 0 1 1,
    need (u16 b 2 = noOwner || (s.ctx? (u16 b 2)).isSome) (badParam 2), inRange (u8 b 4) 1 2 4,
    need (u8 b 5 ≤ 1 || u8 b 5 = 0xFF) (badParam 5),
    need (u8 b 5 = 0xFF || (8 ≤ u8 b 6 && u8 b 6 ≤ 0x77 && !s.i2cTaken p (u8 b 5) (u8 b 6))) (badParam 6),
    need (u8 b 7 = 0xFF || (u8 b 7 ≤ 7 && !s.spiTaken p (u8 b 7))) (badParam 7),
    inRange (u16 b 8) 80 2500 8, reserved b 0x0A 6, need (!s.portHeld p c.fn) busy]

/-- 03 EVPORT_ASSIGN: the settings that a new owner starts with: the 0x04 defaults, the trigger output off, and Cobalt's
per-port registers at R89 with the grid released. -/
def State.resetPortSettings (s : State) (p : Nat) : State :=
  let keep := fun a => a = R.OCH_Pn_LINK p || a = R.OCH_Pn_OWNER p || a = R.OCH_Pn_FIFO_LEVEL p ||
    (R.OCH_Pn_FIFO_PEAK p = a) || (R.OCH_Pn_ACCEPTED_LO p ≤ a)
  let t := s.resetRegs (R.OCH_Pn_LINK p) (R.OCH_Pn_LINK p + 0x100) keep
  let t := t.setRegFld (R.OCH_Pn_LINK p) 11 8 1
  let t := t.resetRegs (hotAddr p 0) (hotAddr p 256)
  let t := (t.resetRegs (R.OCH_TRIGn_CFG p) (R.OCH_TRIGn_FIRED p)).setTrig p Trigger.init
  let t := t.resetRegs (R.COB_Pn_CFG p) (R.COB_Pn_CFG p + 0x80)
  let t := t.setRegFld R.COB_CTRL p p 0
  let t := { t with cobalt := { t.cobalt with gridLoaded := t.cobalt.gridLoaded.filter fun q => q ≠ p } }
  ((t.dropArmed (ochElem p)).dropArmed ⟨1, p⟩).setPort p { t.port p with map := [], blockSeq := 0 }

/-- The port stops ingress (03 EVPORT_ASSIGN, 11, 16): the undecoded bytes are discarded into a PORT_STOPPED gap, whose
stamp is the present tick's where nothing else has opened it (DESIGN CHOICE, log entry 41). -/
def State.stopPort (s : State) (p : Nat) : State :=
  let n := s.rxBytes p
  ((s.setPort p { s.port p with rx := [] }).bumpSat (R.OCH_Pn_DROP_BYTES p) n).portDrop p 0x04 0 n s.tickStamp

/-- EVPORT_ASSIGN carried out; block_seq starts at 0 on every assignment (03 R67). -/
def actAssign (c : Cmd) (s : State) : State × Bytes :=
  let b := c.block
  let p := u8 b 0
  let old := s.portOwner p
  let new := u16 b 2
  let t := s.boundary p
  let t := if old = new then t else ((t.closeGap p).resetPortSettings p)
  let t := t.setReg (R.OCH_Pn_OWNER p) (w32 new)
  let t := t.stopPort p
  let t := if old = noOwner then t else t.bumpGen old
  let t := t.setReg (R.OCH_Pn_LINK p)
    (setFld (setFld (setFld (t.reg (R.OCH_Pn_LINK p)) 0 0 (u8 b 1)) 4 4 (u8 b 4 - 1)) 27 16 (u16 b 8))
  let t := t.setRegFld R.OCH_CTRL p p (u8 b 1)
  let x := t.port p
  ((t.setPort p { x with
      i2c := if u8 b 5 = 0xFF then none else some (u8 b 5, u8 b 6),
      spiCs := if u8 b 7 = 0xFF then none else some (u8 b 7), blockSeq := 0,
      resync := u8 b 1 = 1, silentSaid := false }).touch (portDomain p), [])

def execEvportAssign (p : Nat) (s : State) : Res := .next (runPage 0x0401 (plainPage checkAssign actAssign) p s)

/-- Two bit fields overlap; a field of width 0 overlaps nothing. -/
def overlap (l₁ w₁ l₂ w₂ : Nat) : Bool := 0 < w₁ && 0 < w₂ && l₁ < l₂ + w₂ && l₂ < l₁ + w₁

/-- EVPORT_SET_FORMAT: the fields in ascending offset; a field that reaches past bit 63 or overlaps an earlier one is
named by its least significant bit. -/
def formatPage : GPage :=
  GPage.plain 0x0402 (fun c _ => ochElem (u8 c.block 0)) (fun c s => portAccess (u8 c.block 0) c.ctx s) fun c _ =>
    let b := c.block
    let x := (u8 b 0x0C, u8 b 0x0D)
    let y := (u8 b 0x0E, u8 b 0x0F)
    let q := (u8 b 0x10, 1)
    let t := (u8 b 0x11, u8 b 0x12)
    let k := (u8 b 0x13, u8 b 0x14)
    let clear := fun (f : Nat × Nat) (l : List (Nat × Nat)) =>
      f.1 + f.2 ≤ 64 && !(l.any fun g => overlap f.1 f.2 g.1 g.2)
    allOf [inRange (u8 b 1) 0 1 1, inRange (u8 b 2) 0x30 0x37 2, inRange (u8 b 3) 1 15 3, inRange (u8 b 4) 0 1 4,
      inRange (u8 b 5) 0 1 5, inRange (u16 b 8) 1 2048 8, inRange (u16 b 0x0A) 1 2048 0x0A,
      inRange x.1 0 63 0x0C, need (clear x []) (badParam 0x0C), inRange x.2 1 12 0x0D,
      inRange y.1 0 63 0x0E, need (clear y [x]) (badParam 0x0E), inRange y.2 1 12 0x0F,
      inRange q.1 0 63 0x10, need (clear q [x, y]) (badParam 0x10),
      inRange t.1 0 63 0x11, need (clear t [x, y, q]) (badParam 0x11), inRange t.2 0 32 0x12,
      need (u8 b 4 = 0 || t.2 ≠ 0) (badParam 0x12),
      inRange k.1 0 63 0x13, need (clear k [x, y, q, t]) (badParam 0x13), inRange k.2 0 8 0x14,
      need (u8 b 0x15 < 2 ^ k.2) (badParam 0x15), need (1 ≤ u16 b 0x16) (badParam 0x16)]

/-- EVPORT_SET_FILTERS. -/
def filtersPage : GPage :=
  { op := 0x0403, elem := fun c _ => ochElem (u8 c.block 0), access := fun c s => portAccess (u8 c.block 0) c.ctx s,
    params := fun c _ =>
      let b := c.block
      allOf [reserved b 1 1, inRange (u16 b 2) 0 16383 2, inRange (u16 b 4) 0 16383 4, inRange (u16 b 6) 0 256 6,
        need (u64 b 8 % 8 = 0) (badParam 8)],
    fetch := fun c _ => if u16 c.block 6 = 0 then none else some (u64 c.block 8, 4 * u16 c.block 6),
    data := fun c d s =>
      let sz := s.reg (R.OCH_Pn_SIZE (u8 c.block 0))
      need ((List.range (u16 c.block 6)).all fun i =>
        let w := u32 d (4 * i)
        w / 0x1000000 = 0 && w % 4096 < fld sz 10 0 + 1 && w / 4096 % 4096 < fld sz 26 16 + 1) (badParam 8),
    reserve := fun _ _ _ _ s => .ok (s, 0), release := fun _ s => s, result := fun _ => [] }

/-- EVPORT_SET_BLOCKING. -/
def blockingPage : GPage :=
  GPage.plain 0x0404 (fun c _ => ochElem (u8 c.block 0)) (fun c s => portAccess (u8 c.block 0) c.ctx s) fun c _ =>
    let b := c.block
    allOf [inRange (u8 b 1) 0 1 1, inRange (u16 b 2) 1 4096 2, inRange (u32 b 4) 10 100000 4,
      inRange (u32 b 8) 0 10000000 8, inRange (u32 b 12) 0 200000 12]

/-- EVPORT_GET_STATS. -/
def checkPortStats (c : Cmd) (s : State) : Check :=
  allOf [portAccess (u8 c.block 0) c.ctx s, inRange (u8 c.block 1) 0 1 1, reserved c.block 2 2]

def actPortStats (c : Cmd) (s : State) : State × Bytes :=
  let p := u8 c.block 0
  let t := s.touch (portDomain p)
  let r := (List.range 13).flatMap fun i => leBytes 4 (t.regN (R.OCH_Pn_DROP_HOT p + 4 * i))
  let out := leBytes 8 (t.reg64 (R.OCH_Pn_ACCEPTED_LO p)) ++ r ++ leBytes 4 (t.port p).fifo.length ++
    leBytes 4 (t.regN (R.OCH_Pn_FIFO_PEAK p)) ++ leBytes 4 (t.regN (R.OCH_Pn_CELL_SHIFT p)) ++
    leBytes 8 (t.reg64 (R.OCH_Pn_LAST_PKT_LO p)) ++ leBytes 16 0
  let u := t.setReg (R.OCH_Pn_FIFO_PEAK p) 0
  (if u8 c.block 1 = 1 then u.clearPortCounters p else u, out)

def execEvportGetStats (p : Nat) (s : State) : Res := .next (runPage 0x0405 (plainPage checkPortStats actPortStats) p s)

/-- SENSOR_XFER. -/
def checkXfer (c : Cmd) (s : State) : Check :=
  let b := c.block
  let p := u8 b 0
  let khz := u16 b 4
  allOf [inRange p 0 7 0, need (s.portOwner p = c.ctx) noPermission, s.reach dEVTA, inRange (u8 b 1) 0 2 1,
    need (match (s.port p).i2c with
      | some (bus, _) => u8 b 1 = bus || (u8 b 1 = 2 && (s.port p).spiCs.isSome)
      | none => u8 b 1 = 2 && (s.port p).spiCs.isSome) (badParam 1),
    need (u8 b 1 ≠ 2 || u8 b 2 ≤ 3) (badParam 2), reserved b 3 1,
    need (if u8 b 1 = 2 then 1000 ≤ khz && khz ≤ 25000 else khz = 100 || khz = 400 || khz = 1000) (badParam 4),
    inRange (u16 b 6) 0 256 6, inRange (u16 b 8) 0 256 8, reserved b 0x0A 6, need (!s.sbusBusy (u8 b 1)) busy]

/-- SENSOR_XFER: the transfer starts and the command yields; its end carries status, count and the bytes read. -/
def sensorXferBody : PageBody := fun c d s =>
  let b := c.block
  match d with
  | none =>
    match checkXfer c s with
    | .error e => .fail e
    | .ok _ =>
      let x := s.port (u8 b 0)
      let tgt := if u8 b 1 = 2 then x.spiCs.getD 0 else match x.i2c with | some (_, a) => a | none => 0
      .wait ((s.touch dEVTA).sbusStart (u8 b 1) tgt (if u8 b 1 = 2 then u8 b 2 else 0) (u16 b 4) (slice b 16 (u16 b 6))
        (u16 b 8) (some c.path))
  | some r =>
    let r := r.getD []
    .done s (slice r 0 4 ++ slice r 4 (u16 b 8))

def execSensorXfer (p : Nat) (s : State) : Res := .next (runPage 0x0406 sensorXferBody p s)

/-- SENSOR_SET_TRIGGER. -/
def checkTrigger (c : Cmd) (s : State) : Check :=
  let b := c.block
  allOf [inRange (u8 b 0) 0 7 0, need (s.portOwner (u8 b 0) = c.ctx) noPermission, s.reach dEVTA,
    inRange (u8 b 1) 0 3 1, inRange (u32 b 8) 0 999999999 8, inRange (u32 b 12) 1000 1000000000 12,
    inRange (u32 b 16) 5 (u32 b 12 - 5) 16]

def actTrigger (c : Cmd) (s : State) : State × Bytes :=
  let b := c.block
  let n := u8 b 0
  let t := ((((((s.touch dEVTA).setReg (R.OCH_TRIGn_CFG n) (w32 (u8 b 1))).setReg (R.OCH_TRIGn_SEC_LO n)
    (w32 (u48 b 2))).setReg (R.OCH_TRIGn_SEC_HI n) (w32 (u48 b 2 / 0x100000000))).setReg (R.OCH_TRIGn_NS n)
    (w32 (u32 b 8))).setReg (R.OCH_TRIGn_PERIOD n) (w32 (u32 b 12))).setReg (R.OCH_TRIGn_WIDTH n) (w32 (u32 b 16))
  (t.armTrig n, [])

def execSensorSetTrigger (p : Nat) (s : State) : Res := .next (runPage 0x0407 (plainPage checkTrigger actTrigger) p s)

end Sys2Proof.Machine
end

