-- ==== Sys2Proof/Machine/Cobalt.lean ====
section
/-! DEFINITION. Cobalt (04): the projection chain, the rotor angle, the attitude, the revolution stacks and the 0x05
commands. -/

namespace Sys2Proof.Machine

def State.modCobalt (s : State) (f : Cobalt → Cobalt) : State := { s with cobalt := f s.cobalt }

/-- Elements of 12 R233. -/
abbrev cobPortElem (p : Nat) : Elem := ⟨1, p⟩
abbrev cobStackElem (k : Nat) : Elem := ⟨1, 8 + k⟩

/-! ## Fixed point to binary32 (04 R76) -/

/-- A signed register as Q(31-k).k. -/
def State.fixQ (s : State) (a k : Nat) : F32 := F.ofScaled (sext 32 (s.regN a)) (-(k : Int))

/-- A vector of binary32. -/
structure V3 where
  x : F32
  y : F32
  z : F32

def V3.dot (a b : V3) : F32 := F.add (F.add (F.mul a.x b.x) (F.mul a.y b.y)) (F.mul a.z b.z)
def V3.add (a b : V3) : V3 := ⟨F.add a.x b.x, F.add a.y b.y, F.add a.z b.z⟩
def V3.sub (a b : V3) : V3 := ⟨F.sub a.x b.x, F.sub a.y b.y, F.sub a.z b.z⟩
def V3.scale (k : F32) (a : V3) : V3 := ⟨F.mul k a.x, F.mul k a.y, F.mul k a.z⟩
def V3.cross (a b : V3) : V3 :=
  ⟨F.sub (F.mul a.y b.z) (F.mul a.z b.y), F.sub (F.mul a.z b.x) (F.mul a.x b.z),
   F.sub (F.mul a.x b.y) (F.mul a.y b.x)⟩
def V3.finite (a : V3) : Bool := F.finite a.x && F.finite a.y && F.finite a.z

/-- Rows of a matrix. -/
structure M3 where
  a : V3
  b : V3
  c : V3

def M3.mul (m : M3) (v : V3) : V3 := ⟨m.a.dot v, m.b.dot v, m.c.dot v⟩
def M3.transpose (m : M3) : M3 := ⟨⟨m.a.x, m.b.x, m.c.x⟩, ⟨m.a.y, m.b.y, m.c.y⟩, ⟨m.a.z, m.b.z, m.c.z⟩⟩

/-- Three consecutive registers as a vector. -/
def State.vecQ (s : State) (a k : Nat) : V3 := ⟨s.fixQ a k, s.fixQ (a + 4) k, s.fixQ (a + 8) k⟩

/-! ## The undistortion grid (04 R77) -/

def State.gridShift (s : State) (p : Nat) : Nat := s.regFld (R.COB_Pn_CFG p) 6 4
def State.gridCols (s : State) (p : Nat) : Nat := s.regFld (R.COB_Pn_GRID_DIM p) 8 0
def State.gridRows (s : State) (p : Nat) : Nat := s.regFld (R.COB_Pn_GRID_DIM p) 24 16

/-- Word `w` (0 u, 1 v) of a node, Q3.28. -/
def State.gridWord (s : State) (p i j w : Nat) : F32 :=
  s.fixQ (0x20180000 + 8 * (s.regN (R.COB_Pn_GRID_BASE p) + j * s.gridCols p + i) + 4 * w) 28

/-- Linear interpolation with weights 1 − t and t. -/
def lerp (a b t : F32) : F32 := F.add (F.mul a (F.sub F.one t)) (F.mul b t)

/-- The ray (u, v) of a pixel; none where a node lies outside the loaded grid. -/
def State.gridAt (s : State) (p x y : Nat) : Option (F32 × F32) :=
  let g := s.gridShift p
  let i := x / 2 ^ g
  let j := y / 2 ^ g
  if s.cobalt.gridLoaded.contains p && i + 1 < s.gridCols p && j + 1 < s.gridRows p then
    let wx := F.ofScaled (x % 2 ^ g : Nat) (-(g : Int))
    let wy := F.ofScaled (y % 2 ^ g : Nat) (-(g : Int))
    let f := fun w => lerp (lerp (s.gridWord p i j w) (s.gridWord p (i + 1) j w) wx)
      (lerp (s.gridWord p i (j + 1) w) (s.gridWord p (i + 1) (j + 1) w) wx) wy
    some (f 0, f 1)
  else none

/-! ## The rotor angle (04 R78 to R80) -/

def State.angleSource (s : State) : Nat := s.regFld R.COB_ENC_CFG 1 0

/-- The history lost and the angle invalid until R78 is met again; revolutions are counted anew. -/
def Cobalt.angleLost (c : Cobalt) : Cobalt :=
  { c with
    hist := [], angleValid := false, count := 0, sinceEntry := 0, zSeen := false, maxRev := none, extrap := false
    stks := c.stks.map fun e => (e.1, { e.2 with done := [] }) }

/-- The rate between two entries, 2^-64 revolution per ns; zero where the entries bear one time. -/
def rateOf (t₀ : Nat) (θ₀ : Int) (t₁ : Nat) (θ₁ : Int) : Int := (θ₁ - θ₀) * 4294967296 / ((t₁ : Int) - t₀)

/-- The rate over the newest two entries; zero with fewer. -/
def State.angleRate (s : State) : Int :=
  match s.cobalt.hist with
  | (t₁, θ₁) :: (t₀, θ₀) :: _ => rateOf t₀ θ₀ t₁ θ₁
  | _ => 0

/-- The expected interval (04 R79); zero with fewer than two entries. -/
def State.expectedInterval (s : State) : Nat :=
  match s.cobalt.hist with
  | (t₁, _) :: (t₀, _) :: _ => t₁ - t₀
  | _ => 0

/-- The angle between or before the entries of a history, newest first. -/
def angleIn (t : Nat) : List (Nat × Int) → Int
  | (t₁, θ₁) :: (t₀, θ₀) :: l =>
    if t₀ ≤ t then (if t₁ = t₀ then θ₁ else θ₀ + (θ₁ - θ₀) * ((t : Int) - t₀) / ((t₁ : Int) - t₀))
    else match l with
      | [] => θ₀ + rateOf t₀ θ₀ t₁ θ₁ * ((t : Int) - t₀) / 4294967296
      | _ => angleIn t ((t₀, θ₀) :: l)
  | [(_, θ)] => θ
  | [] => 0

/-- 04 R79: θ(t), in 2^-32 revolution. -/
def State.angleAt (s : State) (t : Nat) : Int :=
  match s.cobalt.hist with
  | (tn, θn) :: _ =>
    if tn ≤ t then θn + s.angleRate * ((t : Int) - tn) / 4294967296 else angleIn t s.cobalt.hist
  | [] => 0

/-- 04 R80: extrapolated beyond twice the expected interval. -/
def State.angleStale (s : State) (t : Nat) : Bool :=
  match s.cobalt.hist with
  | (tn, _) :: _ => tn + 2 * s.expectedInterval < t
  | [] => false

/-- COB_STATUS. The spec does not say which stall STALL shows; here it is the back-pressure of Sepia's output (DESIGN CHOICE,
log entry 18). -/
def State.cobStatus (s : State) : Nat :=
  b2n s.cobalt.angleValid + 2 * b2n s.cobalt.extrap + 4 * b2n (s.regBit R.COB_IMU_CFG 5) +
    8 * b2n s.cobalt.imuSilentSaid + 16 * b2n s.sepia.stalled

/-! ## The attitude (04 R81) -/

/-- A component of δ at a time, in rad. -/
def attComponent (t t₀ t₁ : Nat) (a b : Int) : F32 :=
  let x := F.ofScaled a (-31)
  let y := F.ofScaled b (-31)
  if t₁ ≤ t then y else if t ≤ t₀ then x
  else F.add x (F.mul (F.sub y x) (F.div (F.ofNat (t - t₀)) (F.ofNat (t₁ - t₀))))

/-- δ at a time from the samples, newest first: between the two samples around it, held at the newest after it and at the
oldest before it. -/
def attIn (t : Nat) : List (Nat × Int × Int × Int) → V3
  | (t₁, r₁, p₁, y₁) :: (t₀, r₀, p₀, y₀) :: l =>
    if t₀ ≤ t ∨ l = [] then ⟨attComponent t t₀ t₁ r₀ r₁, attComponent t t₀ t₁ p₀ p₁, attComponent t t₀ t₁ y₀ y₁⟩
    else attIn t ((t₀, r₀, p₀, y₀) :: l)
  | [(_, r, p, y)] => ⟨F.ofScaled r (-31), F.ofScaled p (-31), F.ofScaled y (-31)⟩
  | [] => ⟨0, 0, 0⟩

/-- A = I + [δ]× at a stamp. -/
def State.attitudeAt (s : State) (t : Nat) : M3 :=
  let d := attIn t s.cobalt.att
  ⟨⟨F.one, F.neg d.z, d.y⟩, ⟨d.z, F.one, F.neg d.x⟩, ⟨F.neg d.y, d.x, F.one⟩⟩

/-! ## The projection chain (04 R76) -/

/-- Why an event goes no further. -/
inductive Drop where
  | geom
  | range
  | noangle
  deriving DecidableEq, Repr

/-- Q23.8 mm, to nearest even, saturating; the value is finite. -/
def toQ8 (f : F32) : Int := clampI (-2147483648) 2147483647 (F.toIntRne f 8)

/-- 04 R75: the frame and mount of a port differ, so the attitude applies. -/
def State.attApplies (s : State) (p : Nat) : Bool :=
  let o := s.regFld (R.COB_Pn_CFG p) 1 0
  let m := s.regBit (R.COB_Pn_CFG p) 2
  (o = 1 && !m) || (o = 2 && m)

/-- The event's ray met with the port's plane: the frame's two coordinates before the grid of the output. -/
def State.rayPoint (s : State) (p : Nat) (u v : F32) (t : Nat) : Except Drop (V3 × F32) :=
  let polar := s.regFld (R.COB_Pn_CFG p) 1 0 = 2
  let rot : M3 := ⟨s.vecQ (R.COB_Pn_ROT p) 30, s.vecQ (R.COB_Pn_ROT p + 12) 30, s.vecQ (R.COB_Pn_ROT p + 24) 30⟩
  let d₀ := rot.mul ⟨u, v, F.one⟩
  let c₀ := s.vecQ (R.COB_Pn_POS p) 8
  let a := if polar then (s.attitudeAt t).transpose else s.attitudeAt t
  let piv := s.vecQ R.COB_PIVOT 8
  let att := s.attApplies p
  let d := if att then a.mul d₀ else d₀
  let c := if att then piv.add (a.mul (c₀.sub piv)) else c₀
  let axis := s.vecQ R.COB_AXIS 30
  let q := if polar then (s.vecQ R.COB_HUB 8).add (V3.scale (s.fixQ (R.COB_Pn_AXIAL_OFS p) 8) axis)
    else s.vecQ (R.COB_Pn_PLANE_PT p) 8
  let n := if polar then axis else (s.vecQ (R.COB_Pn_PLANE_U p) 30).cross (s.vecQ (R.COB_Pn_PLANE_V p) 30)
  let den := n.dot d
  let lam := F.div (n.dot (q.sub c)) den
  if F.isZero den || !F.finite den then .error .geom
  else if !F.lt 0 lam || !F.finite lam then .error .geom
  else
    let w := (c.add (V3.scale lam d)).sub q
    if w.finite then .ok (w, lam) else .error .geom

/-- The output coordinate of an event of a port whose frame is not SENSOR. -/
def State.projectPixel (s : State) (p x y t : Nat) : Except Drop (Nat × Nat) :=
  let polar := s.regFld (R.COB_Pn_CFG p) 1 0 = 2
  if polar && !s.cobalt.angleValid then .error .noangle
  else match s.gridAt p x y with
    | none => .error .range
    | some (u, v) =>
      match s.rayPoint p u v t with
      | .error e => .error e
      | .ok (w, _) =>
        let axis := s.vecQ R.COB_AXIS 30
        let e1 := s.vecQ R.COB_AZREF 30
        let phi := F.atan2r ((axis.cross e1).dot w) (e1.dot w)
        let b := if polar then F.sqrt (w.dot w) else (s.vecQ (R.COB_Pn_PLANE_V p) 30).dot w
        let a := if polar then phi else (s.vecQ (R.COB_Pn_PLANE_U p) 30).dot w
        if !F.finite a || !F.finite b then .error .geom
        else
          let ox : Int := if polar then
              (F.toIntRne phi 32 - s.angleAt t - (s.regN (R.COB_Pn_ORG0 p) : Int)) % 4294967296 /
                (s.regN (R.COB_Pn_STEP0 p) : Int)
            else (toQ8 a - sext 32 (s.regN (R.COB_Pn_ORG0 p))) / (s.regN (R.COB_Pn_STEP0 p) : Int)
          let oy : Int := (toQ8 b - sext 32 (s.regN (R.COB_Pn_ORG1 p))) / (s.regN (R.COB_Pn_STEP1 p) : Int)
          if 0 ≤ ox ∧ ox ≤ 2047 ∧ 0 ≤ oy ∧ oy ≤ 2047 then .ok (ox.toNat, oy.toNat) else .error .range

/-! ## Revolution stacks (04 R83 to R87) -/

def State.stk (s : State) (k : Nat) : StackDyn := s.cobalt.stks.getD k StackDyn.init

def State.setStk (s : State) (k : Nat) (x : StackDyn) : State :=
  s.modCobalt fun c => { c with stks := c.stks.set k x }

def State.stkEn (s : State) (k : Nat) : Bool := s.regBit (R.COB_Sn_CFG k) 0
def State.stkOwner (s : State) (k : Nat) : Nat := s.regN (R.COB_Sn_OWNER k)
def State.stkRevs (s : State) (k : Nat) : Nat := s.regFld (R.COB_Sn_CFG k) 23 16 + 1
def State.stkW (s : State) (k : Nat) : Nat := s.regFld (R.COB_Sn_WIN_SIZE k) 10 0 + 1
def State.stkH (s : State) (k : Nat) : Nat := s.regFld (R.COB_Sn_WIN_SIZE k) 26 16 + 1

/-- The master ID of Cobalt (01 R28). -/
abbrev idCobalt : Nat := 0x018

/-- Host address of a stack's first buffer; it lies with the configuration in the free words of the block. -/
def State.stkHost (s : State) (k : Nat) : Nat := u64 ((s.cobalt.bufs).getD k []) 0

/-- Bytes of a run's map: 32-bit bins, row-major (04 R85). -/
def StackRun.size (r : StackRun) : Nat := r.winW * r.winH * 4

/-- A revolution that a run covers. -/
def StackRun.covers (r : StackRun) (rev : Int) : Bool := r.n0 ≤ rev && rev < r.n0 + (r.span : Int)

/-- A stack started at revolution `n` in a half of the double buffer, under the settings in force. -/
def State.newRun (s : State) (k : Nat) (n : Int) (t half : Nat) : StackRun :=
  { ctx := s.stkOwner k, winW := s.stkW k, winH := s.stkH k, winX0 := s.regFld (R.COB_Sn_WIN_ORG k) 10 0,
    winY0 := s.regFld (R.COB_Sn_WIN_ORG k) 26 16, shift := s.regFld (R.COB_Sn_CFG k) 25 24, span := s.stkRevs k,
    half := half, base := s.reg64 (R.COB_Sn_DRAM_LO k) + half * (s.stkW k * s.stkH k * 4), host := s.stkHost k, map := [],
    n0 := n, revs := 0, events := 0, oldest := 0, startT := t, closeStamp := none, closeAt := 0, mask := 0, flags := 0,
    epochs := [], gen := s.elemGen (s.stkOwner k) (cobStackElem k), mixed := false, status := 0 }

/-- A new stack opens on cleared bins. -/
def State.stkOpen (s : State) (k : Nat) (n : Int) (t half : Nat) : State :=
  let r := s.newRun k n t half
  let u := s.blockClear idCobalt r.base r.size
  u.setStk k { u.stk k with cur := some r }

/-- Revolutions added to those of the stacks already closed. -/
def addRevs (lo hi : Int) : List (Int × Int) → List (Int × Int)
  | (a, b) :: l => if b = lo then (a, hi) :: l else (lo, hi) :: (a, b) :: l
  | [] => [(lo, hi)]

/-- A run closes: the host DMA engine takes its map under the context's ID, into the host buffer released least recently,
or there is none (04 R86). -/
def State.stkClose (s : State) (k : Nat) (r : StackRun) : State :=
  let d := s.blockRead (0x400 + r.ctx) r.base r.size
  let x := d.1.stk k
  d.1.setStk k { x with
    copying := x.copying ++ [({ r with map := d.2 }, x.free.head?)], free := x.free.drop 1, lateSaid := false,
    done := addRevs r.n0 (r.n0 + (r.span : Int)) x.done }

/-- The generation of a run whose last revolution ends now (12 R238). -/
def State.runGen (s : State) (k : Nat) (r : StackRun) : BitVec 16 :=
  let g := s.elemGen (s.stkOwner k) (cobStackElem k)
  if r.mixed then newerOf g r.gen else g

/-- A run that covers its last revolution starts to close; one still closing closes now, for a stack has two buffers. -/
def State.stkRoll (s : State) (k : Nat) (r : StackRun) (t : Stamp) : State :=
  let u := match (s.stk k).closing with
    | some c => s.stkClose k c
    | none => s
  u.setStk k { u.stk k with
    closing := some { r with
      revs := r.span, gen := s.runGen k r, closeStamp := some t, closeAt := t.steady + s.regN (R.COB_Sn_CLOSE_US k) * 1000 } }

/-- A boundary at revolution `n` seen by a stack (04 R84). -/
def State.stkBoundary (s : State) (k : Nat) (n : Int) (t : Stamp) : State :=
  let x := s.stk k
  if !s.stkEn k then s
  else match x.cur with
    | none => s.stkOpen k n t.steady 0
    | some r =>
      if r.n0 + (r.span : Int) ≤ n then (s.stkRoll k r t).stkOpen k n t.steady (1 - r.half)
      else s.setStk k { x with cur := some { r with revs := (n - r.n0).toNat } }

/-- The address of the bin of an output coordinate; none outside the window (04 R83, R85). -/
def StackRun.bin (r : StackRun) (x y : Nat) : Option Nat :=
  let bx := x / 2 ^ r.shift
  let bY := y / 2 ^ r.shift
  if r.winX0 ≤ bx ∧ bx < r.winX0 + r.winW ∧ r.winY0 ≤ bY ∧ bY < r.winY0 + r.winH then
    some (r.base + 4 * ((bY - r.winY0) * r.winW + (bx - r.winX0)))
  else none

/-- A bin with one event more: ON in the low half, OFF in the high one, both saturating (04 R85). -/
def binAdd (v : Nat) (on : Bool) : Nat :=
  if on then Nat.min (v % 65536 + 1) 65535 + v / 65536 * 65536 else v % 65536 + Nat.min (v / 65536 + 1) 65535 * 65536

/-- A count of the bin stands at 0xFFFF. -/
def binFull (v : Nat) : Bool := v % 65536 = 65535 || v / 65536 = 65535

/-- An event added to an open stack: its bin in the stack's DRAM buffer is read and written by Cobalt. -/
def State.stkAdd (s : State) (k : Nat) (r : StackRun) (e : PEv) : State × StackRun :=
  match r.bin e.x e.y with
  | none => (s, r)
  | some a =>
    let d := s.blockRead idCobalt a 4
    let v := u32 d.2 0
    let t := d.1.blockWrite idCobalt a (leBytes 4 (binAdd v e.ev.pol))
    (if binFull (binAdd v e.ev.pol) && !binFull v then t.bumpSat (R.COB_Sn_SAT k) else t,
      { r with
        events := r.events + 1,
        oldest := if r.events = 0 then e.ev.stamp.steady else Nat.min r.oldest e.ev.stamp.steady,
        mask := r.mask ||| srcPort e.ev.port ||| srcEncoder ||| flagIf e.att srcImu,
        flags := r.flags ||| e.ev.stamp.flag ||| flagIf e.extrap flAngleExtrap ||| flagIf (e.ev.flag 62) flInputGap,
        epochs := addEpoch r.epochs e.ev.stamp.epoch })

/-- An event whose stack has already closed, source 85 at the first of a stack (04 R84, R88). -/
def State.stkLate (s : State) (k : Nat) : State :=
  ((s.bumpSat (R.COB_Sn_LATE k)).assertSourceIf (!(s.stk k).lateSaid) 85).setStk k { s.stk k with lateSaid := true }

/-- An event of the stack's revolutions offered to it: to the open stack, the closing one, or too late (04 R84). -/
def State.stkJoin (s : State) (k : Nat) (e : PEv) (rev : Int) : State :=
  let x := s.stk k
  match x.cur.filter fun r => r.covers rev, x.closing.filter fun r => r.covers rev with
  | some r, _ =>
    let q := s.stkAdd k r e
    q.1.setStk k { x with cur := some q.2 }
  | none, some c =>
    let q := s.stkAdd k c e
    q.1.setStk k { x with closing := some q.2 }
  | none, none => if x.done.any fun d => d.1 ≤ rev && rev < d.2 then s.stkLate k else s

/-- An event offered to one stack (04 R83, R84). -/
def State.stkEvent (s : State) (k : Nat) (e : PEv) : State :=
  if s.stkEn k && s.regBit (R.COB_Sn_CFG k) (8 + e.ev.port) then
    if e.frame ≠ 2 then s.bumpSat (R.COB_Sn_SKIPFRAME k)
    else s.stkJoin k e (s.angleAt e.ev.stamp.steady / 4294967296)
  else s

/-- STACK_CLOSE. -/
def workStackClose (stack : Nat) (s : State) : Res :=
  .next (match (s.stk stack).closing with
    | some r => if r.closeAt ≤ s.now then (s.setStk stack { s.stk stack with closing := none }).stkClose stack r else s
    | none => s)

/-- An open stack closes at once with status INTERRUPTED (04 Power-down of COB, 12 R241 step 3). -/
def State.stkInterrupt (s : State) (k : Nat) : State :=
  let x := s.stk k
  let t := s.setStk k { x with cur := none, closing := none }
  let t := match x.closing with
    | some r => t.stkClose k { r with status := 2 }
    | none => t
  match x.cur with
  | some r => t.stkClose k { r with status := 2, gen := s.runGen k r, closeStamp := some s.tickStamp }
  | none => t

/-- A gap still open, from its first drop to its last, overlaps a span. -/
def Gap.overlaps (g : Gap) (lo hi : Nat) : Bool := g.first.steady ≤ hi && lo ≤ g.lastSteady

/-- A gap of a source overlaps a span: one recorded, or one of an event port still open (04 R87, 07 R141). -/
def State.gapOverlaps (s : State) (hit : Nat → Bool) (lo hi : Nat) : Bool :=
  (s.viridian.gaps.any fun g => hit g.src && g.first ≤ hi && lo ≤ g.last) ||
  ((List.range 8).any fun p => hit p && (match (s.port p).gap with | some g => g.overlaps lo hi | none => false))

/-- Bins of a map with a count at 0xFFFF. -/
def fullBins (m : Bytes) : Nat := ((List.range (m.length / 4)).filter fun i => binFull (u32 m (4 * i))).length

/-- The ROTOR_MAP record (04 R87): the generation of the stack, or a newer one that a projection applied in mid-stack. -/
def State.emitMap (s : State) (k : Nat) (r : StackRun) (buf : Option Nat) : State :=
  let t := r.closeStamp.getD s.tickStamp
  let st := if buf = none then 1 else r.status
  let body := leBytes 1 k ++ leBytes 1 (buf.getD 0xFF) ++ leBytes 2 r.revs ++ leBytes 2 r.winW ++ leBytes 2 r.winH ++
    leBytes 2 r.winX0 ++ leBytes 2 r.winY0 ++ leBytes 1 r.shift ++ leBytes 1 st ++ leBytes 2 0 ++ leBytes 8 r.events ++
    leBytes 4 (fullBins r.map) ++ leBytes 4 (s.regN (R.COB_Sn_LATE k)) ++ leBytes 8 r.startT ++
    leBytes 8 t.steady ++ leBytes 4 (wrapBits 32 r.n0) ++ leBytes 4 0 ++
    leBytes 8 (match buf with | some b => r.host + b * r.size | none => 0)
  (s.emit .cobalt (some r.ctx) 0x0013 t (if r.events = 0 then t.steady else r.oldest)
    (r.flags ||| epochFlag r.epochs ||| flagIf r.mixed flMixedGen |||
      flagIf (s.gapOverlaps (fun p => p < 8 && srcPort p &&& r.mask ≠ 0) r.startT t.steady) flInputGap)
    (r.mask ||| srcEncoder) r.gen body).assertSource (64 + k)

/-- ROTOR_MAP: the copy of the oldest closed map ends and its record is staged, or it had no buffer (04 R86). -/
def workRotorMap (stack : Nat) (s : State) : Res :=
  .next (
    let x := s.stk stack
    match x.copying with
    | [] => s
    | (r, none) :: l =>
      (((s.setStk stack { x with copying := l }).bumpSat (R.COB_Sn_NOBUF stack)).assertSource 86).emitMap stack r none
    | (r, some b) :: l =>
      match s.ctx? r.ctx with
      | none => s.setStk stack { x with copying := l }
      | some c =>
        match s.dmaWrite c.fn (r.host + b * r.size) r.map with
        | none => s
        | some t =>
          ((t.setStk stack { x with copying := l }).setRegFld (R.COB_Sn_STATUS stack) (10 + b) (10 + b) 1).emitMap
            stack r (some b))

/-! ## One event (04 R76) -/

/-- Update slots that an event of a port costs: one in every surface that takes the port (05 R94). -/
def State.updateSlots (s : State) (p : Nat) : Nat :=
  ((List.range 16).filter fun k => s.regBit (R.SEP_Sn_CFG k) 0 && s.regBit (R.SEP_Sn_CFG k) (16 + p)).length

/-- The events that wait at Sepia leave one of the three slots of a cycle (05 R94). -/
def State.slotsLeft (s : State) : Bool :=
  s.sepia.inq.length < 3 && s.sepia.inq.foldl (fun n e => n + s.updateSlots e.ev.port) 0 < 3

/-- Sepia accepts an event (05 R94, R104). -/
def State.sepiaRoom (s : State) : Bool := !s.sepia.stalled && s.slotsLeft

/-- The event word of a projected event: its output coordinates in place of the sensor's (04 R75). -/
def PEv.out (e : PEv) : PEv :=
  let w := e.ev.word.toNat
  { e with ev := { e.ev with word := BitVec.ofNat 64 (w % 2 ^ 32 + e.x % 4096 * 2 ^ 32 + e.y % 4096 * 2 ^ 44 +
    w / 2 ^ 56 * 2 ^ 56) } }

/-- A projected event offered to Sepia. -/
def State.toSepia (s : State) (e : PEv) : State :=
  if s.domUp dSEP then { s with sepia := { s.sepia with inq := s.sepia.inq ++ [e] } } else s

/-- A projected event as a member of fusion (07 R131). -/
def State.eventMember (s : State) (e : PEv) : Member :=
  let p := e.ev.port
  { kind := 0, index := p, key := 0, fields := [], time := e.ev.stamp.steady, origin := e.ev.stamp.steady,
    stamp := e.ev.stamp,
    flags := flagIf (e.ev.flag 63) flHoldover ||| flagIf (e.ev.flag 62) flInputGap ||| flagIf e.extrap flAngleExtrap,
    mask := srcPort p ||| flagIf (e.frame = 2) srcEncoder ||| flagIf e.att srcImu,
    gen := s.elemGen (s.portOwner p) (cobPortElem p), ctx := s.portOwner p, surface := 0, px := 0, py := 0,
    x := e.x, y := e.y, port := p, frame := e.frame }

/-- A projected event goes to the stacks, to Sepia and to Viridian. -/
def State.passEvent (s : State) (e : PEv) : State :=
  ((forEach (List.range 16) (fun k t => t.stkEvent k e.out) s).toSepia e.out).offerMember (s.eventMember e.out)

/-- The event at the front of Cobalt's input through the chain. -/
def State.projectHead (s : State) (e : Ev) : State :=
  let p := e.port
  let s1 := s.bumpSat (R.COB_Pn_IN p)
  let o := s.regFld (R.COB_Pn_CFG p) 1 0
  if o = 0 then s1.passEvent ⟨e, e.x, e.y, 0, false, false⟩
  else
    let t := e.stamp.steady
    let stale := o = 2 && s.cobalt.angleValid && s.angleStale t
    match s1.projectPixel p e.x e.y t with
    | .error .geom => s1.bumpSat (R.COB_Pn_DROP_GEOM p)
    | .error .range => s1.bumpSat (R.COB_Pn_DROP_RANGE p)
    | .error .noangle => s1.bumpSat (R.COB_Pn_DROP_NOANGLE p)
    | .ok (x, y) =>
      let s2 := if stale then
          ((s1.bumpSat (R.COB_Pn_EXTRAP p)).assertSourceIf (!s1.cobalt.extrap) 80).modCobalt fun c =>
            { c with extrap := true }
        else s1
      s2.passEvent ⟨e, x, y, o, stale, s.attApplies p⟩

/-- COBALT_PROJECT: the event at the front; it waits while Sepia withholds acceptance (05 R94, R104). A cycle withheld for
over-demand is counted; those of an output stall are counted as they pass (log entry 14). -/
def workCobaltProject (s : State) : Res :=
  .next (match s.cobalt.inq with
    | [] => s
    | e :: es =>
      if !s.domUp dCOB then s
      else if ¬ s.domUp dSEP ∨ s.sepiaRoom then (s.modCobalt fun c => { c with inq := es }).projectHead e
      else if s.sepia.stalled then s
      else s.bumpSat R.SEP_STALL_CYC)

/-! ## Applying configuration at a rotor-angle update (04 R80) -/

/-- Nodes of a port's loaded grid. -/
def State.gridNodes (s : State) (p : Nat) : Nat :=
  if s.cobalt.gridLoaded.contains p then s.gridCols p * s.gridRows p else 0

/-- The words of a port's loaded grid. -/
def State.gridWords (s : State) (p : Nat) : List Word :=
  (List.range (2 * s.gridNodes p)).map fun i => s.reg (0x20180000 + 8 * s.regN (R.COB_Pn_GRID_BASE p) + 4 * i)

/-- A grid loaded for a port: the grids lie one after another in port order (log entry 18). -/
def State.loadGrid (s : State) (p cols rows : Nat) (d : Bytes) : State :=
  let words := fun q => if q = p then (List.range (2 * cols * rows)).map fun i => w32 (u32 d (4 * i)) else s.gridWords q
  let t := s.modCobalt fun c => { c with gridLoaded := if c.gridLoaded.contains p then c.gridLoaded else p :: c.gridLoaded }
  let t := t.setReg (R.COB_Pn_GRID_DIM p) (w32 (cols + rows * 0x10000))
  (forEach (List.range 8) (fun q (a : State × Nat) =>
    if t.cobalt.gridLoaded.contains q then
      ((a.1.setReg (R.COB_Pn_GRID_BASE q) (w32 a.2)).setRegs (0x20180000 + 8 * a.2) (words q),
       a.2 + (words q).length / 2)
    else a) (t, 0)).1

/-- Columns and rows of a grid for a sensor size (04 R77). -/
def gridDim (size : Word) (g : Nat) : Nat × Nat := (fld size 10 0 / 2 ^ g + 2, fld size 26 16 / 2 ^ g + 2)

/-- PROJ_SET_PORT at its apply point, with the data of a grid and its columns and rows as they were fetched; the stacks of
the port's mask go on and become mixed (04 Projection changed mid-stack). -/
def applyProjPort (b d : Bytes) (dims : Nat) (s : State) : State :=
  let p := u8 b 0
  let words := fun off n => (List.range n).map fun i => w32 (u32 b (off + 4 * i))
  let t := s.setReg (R.COB_Pn_CFG p) (w32 (u8 b 1 + u8 b 2 * 4 + u8 b 3 * 16))
  let t := t.setRegFld R.COB_CTRL p p (b2n (u8 b 1 ≠ 0))
  let t := t.setRegs (R.COB_Pn_ROT p) (words 0x04 9)
  let t := t.setRegs (R.COB_Pn_POS p) (words 0x28 3)
  let t := t.setRegs (R.COB_Pn_PLANE_PT p) (words 0x34 9)
  let t := t.setRegs (R.COB_Pn_ORG0 p) (words 0x5C 4)
  let t := t.setReg (R.COB_Pn_AXIAL_OFS p) (w32 (u32 b 0x58))
  let t := if d = [] then t else t.loadGrid p (dims % 1024) (dims / 1024) d
  let g := s.elemGen (s.portOwner p) (cobPortElem p)
  let mix := fun (r : StackRun) => { r with mixed := true, gen := newerOf r.gen g }
  t.modCobalt fun c => { c with
    stks := c.stks.map fun e =>
      if s.regBit (R.COB_Sn_CFG e.1) (8 + p) then
        (e.1, { e.2 with cur := e.2.cur.map mix, closing := e.2.closing.map mix }) else e }

/-- PROJ_SET_STACK at its apply point: a partial stack is discarded, while one in its close delay, which has all its
revolutions, closes now and maps at their copy go on (DEDUCED, log entry 18); a disabled stack gives its DRAM back. -/
def applyStack (b : Bytes) (dram : Nat) (s : State) : State :=
  let k := u8 b 0
  let s := match (s.stk k).closing with
    | some r => s.stkClose k r
    | none => s
  let x := s.stk k
  let keep := { StackDyn.init with copying := x.copying, lateSaid := x.lateSaid, done := x.done }
  let s := s.freeDram exStack k
  if u8 b 1 = 0 then
    (((s.resetRegs (R.COB_Sn_CFG k) (R.COB_Sn_STATUS k + 4))).setStk k keep).modCobalt fun c =>
      { c with bufs := c.bufs.erase k }
  else
    let t := s.retagDram dram exStack k
    let t := t.setReg (R.COB_Sn_CFG k)
      (w32 (1 + u8 b 2 * 0x100 + (u16 b 4 - 1) * 0x10000 + u8 b 3 * 0x1000000 + (u8 b 0x10 - 1) * 0x4000000))
    let t := t.setReg (R.COB_Sn_WIN_ORG k) (w32 (u16 b 8 + u16 b 0x0A * 0x10000))
    let t := t.setReg (R.COB_Sn_WIN_SIZE k) (w32 (u16 b 0x0C - 1 + (u16 b 0x0E - 1) * 0x10000))
    let t := t.setReg64 (R.COB_Sn_DRAM_LO k) dram
    let t := t.setReg (R.COB_Sn_CLOSE_US k) (w32 (u16 b 6))
    let t := t.setReg (R.COB_Sn_STATUS k) 0
    (t.setStk k { keep with
      free := (List.range (u8 b 0x10)).filter fun i => !x.copying.any fun e => e.2 = some i }).modCobalt fun c =>
      { c with bufs := c.bufs.set k (slice b 0x18 8) }

/-- A generation-bearing 0x05 command applied. -/
def applyCobalt (c : GCmd) (s : State) : State :=
  if c.opcode = 0x0503 then applyProjPort c.block c.data c.handle s
  else if c.opcode = 0x0504 then
    applyStack c.block c.handle (s.setReg (R.COB_Sn_OWNER (u8 c.block 0)) (w32 c.ctx))
  else s

/-- Cobalt's apply point: every rotor-angle update. -/
def State.angleUpdate (s : State) : State :=
  forEach (List.range 24) (fun i t => t.applyElem ⟨1, i⟩ applyCobalt)
    (s.modCobalt fun c => { c with lastUpdate := s.now })

/-! ## Encoder entries (04 R78 to R80, R83) -/

/-- A boundary of the rotor where the revolution index exceeds the largest value reached. -/
def State.revCheck (s : State) (θ : Int) (t : Stamp) : State :=
  let n := θ / 4294967296
  if !s.cobalt.angleValid then s
  else match s.cobalt.maxRev with
    | none => s.modCobalt fun c => { c with maxRev := some n }
    | some m =>
      if m < n then
        forEach (List.range 16) (fun k u => u.stkBoundary k n t) (s.modCobalt fun c => { c with maxRev := some n })
      else s

/-- An entry written: history, extrapolation ended, the revolution boundary, and the apply point. -/
def State.angleEntry (s : State) (θ : Int) (t : Stamp) : State :=
  let s1 := (s.bumpSat R.COB_ENC_UPDATES).modCobalt fun c => { c with
    hist := ((t.steady, θ) :: c.hist).take 16, sinceEntry := 0, extrap := false }
  ((s1.assertSourceIf s.cobalt.extrap 81).revCheck θ t).angleUpdate

/-- The unwrapped angle of a count of `cpr` to the revolution, with zero_offset. -/
def State.countAngle (s : State) (n : Int) (cpr : Nat) : Int := n * 4294967296 / (cpr : Int) + (s.regN R.COB_ZERO_OFS : Int)

/-- One count up or down, negated by DIR_INV. -/
def State.encStep (s : State) (up : Bool) : Int := if up != s.regBit R.COB_ENC_CFG 2 then 1 else -1

/-- A quadrature edge: a count, and at update_counts an entry. -/
def State.quadCount (s : State) (up : Bool) (t : Stamp) : State :=
  if s.angleSource = 1 ∧ s.domUp dCOB then
    let s1 := s.modCobalt fun c => { c with count := c.count + s.encStep up, sinceEntry := c.sinceEntry + 1 }
    if s.regFld R.COB_ENC_UPD 15 0 < s1.cobalt.sinceEntry then
      s1.angleEntry (s1.countAngle s1.cobalt.count (s.regN R.COB_ENC_CPR)) t
    else s1
  else s

/-- ENCODER_ENTRY. -/
def workEncoderEntry (up : Bool) (ns : Nat) (s : State) : Res := .next (s.quadCount up (s.stampNs ns))

/-- ENCODER_COUNT_EDGE: an illegal transition leaves the count unchanged (19 Edges and collisions). -/
def workEncoderCountEdge (d : QuadStep) (s : State) : Res :=
  .next (match d.edge with
    | .up => s.quadCount true (s.stampNs d.ns)
    | .down => s.quadCount false (s.stampNs d.ns)
    | .illegal => s)

/-- The whole revolution nearest to a count. -/
def nearestRev (n : Int) (cpr : Nat) : Int := (2 * n + cpr) / (2 * cpr : Int)

/-- ENCODER_INDEX: QUADRATURE realigns to a whole revolution; INDEX_ONLY advances by 1 / pulses (04 R78). -/
def workEncoderIndex (ns : Nat) (s : State) : Res :=
  .next (
    let t := s.stampNs ns
    let cpr := s.regN R.COB_ENC_CPR
    if ¬ s.domUp dCOB then s
    else if s.angleSource = 1 then
      let r := nearestRev s.cobalt.count cpr
      let off := (s.cobalt.count - r * cpr).natAbs
      let s1 := (s.bumpSat R.COB_ENC_INDEX).modCobalt fun c =>
        { c with count := r * cpr, zSeen := true, angleValid := true }
      let s2 := if 1 < off then (s1.bumpSat R.COB_ENC_INDEX_ERR).assertSource 82 else s1
      s2.angleEntry (s2.countAngle (r * cpr) cpr) t
    else if s.angleSource = 2 then
      let s1 := (s.bumpSat R.COB_ENC_INDEX).modCobalt fun c => { c with
        count := c.count + s.encStep true, angleValid := c.zSeen, zSeen := true }
      s1.angleEntry (s1.countAngle s1.cobalt.count cpr) t
    else s)

/-- A Gray-coded number. -/
def grayDecode (n : Nat) : Nat → Nat
  | 0 => n
  | k + 1 => n.xor (grayDecode (n / 2) k)

/-- SSI_POLL: a frame read when ssi_poll_us has passed since the last one, unwrapped against it. The spec does not relate
ssi_bits to counts_per_rev: a frame is taken to span one revolution, and counts_per_rev is not looked at (DESIGN CHOICE, log
entry 18). -/
def workSsiPoll (frame : Nat) (ns : Nat) (s : State) : Res :=
  .next (
    let due : Bool := match s.cobalt.hist with
      | (t, _) :: _ => t + s.regFld R.COB_ENC_UPD 31 16 * 1000 ≤ s.now + ns
      | [] => true
    if s.angleSource = 3 ∧ s.domUp dCOB ∧ due then
      let n := s.regFld R.COB_ENC_CFG 9 4
      let raw := frame % 2 ^ n
      let pos := if s.regBit R.COB_ENC_CFG 3 then grayDecode raw n else raw
      let dir : Int := if s.regBit R.COB_ENC_CFG 2 then -1 else 1
      let d := sext n (wrapBits n (dir * pos - s.cobalt.count))
      let s1 := s.modCobalt fun c => { c with
        count := if c.zSeen then c.count + d else wrapBits n (dir * pos), angleValid := c.zSeen, zSeen := true }
      s1.angleEntry (s1.countAngle s1.cobalt.count (2 ^ n)) (s.stampNs ns)
    else s)

/-- ANGLE_TICK: 1 ms of steady time without a rotor-angle update. -/
def workAngleTick (s : State) : Res :=
  .next (if s.domUp dCOB ∧ s.cobalt.lastUpdate + 1000000 ≤ s.now then (s.bumpSat R.COB_ANG_TICKS).angleUpdate else s)

/-- COB_ANG_SNAP. -/
def State.angSnap (s : State) : State :=
  let t := s.setReg64 R.COB_ANG_LO (wrapBits 64 (s.angleAt s.now))
  let t := t.setReg64 R.COB_RATE_LO (wrapBits 64 s.angleRate)
  let t := t.setReg64 R.COB_ANG_T_LO (match s.cobalt.hist with | (a, _) :: _ => a | [] => 0)
  t.setReg R.COB_ANG_EXP_INT (w32 (Nat.min s.expectedInterval 0xFFFFFFFF))

def execCobAngSnap (v : Word) (s : State) : Res := .next (if bit v 0 then s.angSnap else s)

/-! ## The IMU (04 R81, R82) -/

/-- ±0.1 rad in 2^-31 rad. -/
abbrev attMax : Int := 214748364

/-- n / d to the nearest integer, halves to even. -/
def divRne (n d : Int) : Int :=
  let q := n / d
  let r := 2 * (n - q * d)
  if d < r ∨ (r = d ∧ q % 2 = 1) then q + 1 else q

/-- δ × (1 − Δt / τ) + ω × Δt, in 2^-31 rad: ω in nrad/s, Δt in ns, τ in s (log entry 17). -/
def leak (δ ω : Int) (dt τ : Nat) : Int :=
  let d : Int := (τ : Int) * 10 ^ 18
  divRne (δ * (d - (dt : Int) * 10 ^ 9) + ω * dt * 2 ^ 31 * τ) d

/-- One axis of the gyro burst (COB_IMU_MAP). -/
def State.gyro (s : State) (burst : Bytes) (a : Nat) : Int :=
  let g := i16 burst (s.regFld R.COB_IMU_MAP (8 * a + 4) (8 * a))
  if s.regBit R.COB_IMU_MAP (8 * a + 7) then -g else g

/-- IMU_DRDY_EDGE. -/
def workImuDrdyEdge (burst : Bytes) (ns : Nat) (s : State) : Res :=
  .next (
    if s.domUp dCOB ∧ s.regBit R.COB_IMU_CFG 5 then
      let t := (s.stampNs ns).steady
      let old := match s.cobalt.att with | x :: _ => x | [] => (t, 0, 0, 0)
      let g := [s.gyro burst 0, s.gyro burst 1, s.gyro burst 2]
      let nxt := fun (d w : Int) => leak d (w * s.regN R.COB_IMU_SCALE) (t - old.1) (s.regFld R.COB_IMU_TIME 15 0)
      let r := nxt old.2.1 (nth g 0 0)
      let p := nxt old.2.2.1 (nth g 1 0)
      let y := nxt old.2.2.2 (nth g 2 0)
      let c := clampI (-attMax) attMax
      let clamps := ([r, p, y].filter fun d => c d ≠ d).length
      let s1 := ((s.bumpSat R.COB_IMU_SAMPLES).bumpSat R.COB_IMU_CLAMP clamps).assertSourceIf (clamps ≠ 0) 84
      let s2 := s1.setRegs R.COB_ATT_ROLL [BitVec.ofInt 32 (c r), BitVec.ofInt 32 (c p), BitVec.ofInt 32 (c y)]
      (s2.setReg64 R.COB_IMU_LAST_LO t).modCobalt fun x => { x with
        att := (t, c r, c p, c y) :: x.att, rawGyro := g, imuSilentSaid := false, imuAt := t }
    else s)

/-- IMU_SILENT: 4 periods of sample_rate_hz without an edge. -/
def workImuSilent (s : State) : Res :=
  let hz := s.regFld R.COB_IMU_TIME 28 16
  .next (if s.domUp dCOB ∧ s.regBit R.COB_IMU_CFG 5 ∧ ¬ s.cobalt.imuSilentSaid ∧ hz ≠ 0 ∧
      s.cobalt.imuAt + 4000000000 / hz ≤ s.now then
    (s.modCobalt fun c => { c with imuSilentSaid := true }).assertSource 83 else s)

/-! ## Power-down of COB (04 Edges and collisions) -/

def State.cobDown (s : State) : State :=
  let s := s.cobalt.inq.foldl (fun t e => t.projectHead e) (s.modCobalt fun c => { c with inq := [] })
  ((forEach (List.range 16) (fun k t => t.stkInterrupt k) s).setRegs R.COB_ATT_ROLL [0, 0, 0]).modCobalt fun c =>
    { c.angleLost with att := [] }

/-! ## Command pages -/

/-- |Σ a b| is within 2^-20 of a value, all in Q1.30. -/
def q30 (b : Bytes) (off i : Nat) : Int := i32 b (off + 4 * i)
def dot30 (b : Bytes) (o₁ o₂ : Nat) : Int := (List.range 3).foldl (fun n i => n + q30 b o₁ i * q30 b o₂ i) 0
/-- The norm of a Q1.30 vector is within 2^-20 of one. -/
def unit30 (b : Bytes) (off : Nat) : Bool :=
  (2 ^ 30 - 2 ^ 10) ^ 2 ≤ dot30 b off off && dot30 b off off ≤ (2 ^ 30 + 2 ^ 10) ^ 2
def orth30 (b : Bytes) (o₁ o₂ : Nat) : Bool := (dot30 b o₁ o₂).natAbs ≤ 2 ^ 40
/-- rot · rotᵀ − I has no element above 2^-20. -/
def rot30 (b : Bytes) (off : Nat) : Bool :=
  (List.range 3).all fun i => (List.range 3).all fun j =>
    (dot30 b (off + 12 * i) (off + 12 * j) - (if i = j then 2 ^ 60 else 0)).natAbs ≤ 2 ^ 40

/-- PROJ_SET_ROTOR. -/
def checkRotor (c : Cmd) (s : State) : Check :=
  let b := c.block
  allOf [inRange (u8 b 0) 0 3 0, s.reach dCOB, inRange (u8 b 1) 0 1 1, inRange (u8 b 2) 0 1 2, inRange (u8 b 3) 12 32 3,
    (if u8 b 0 = 2 then inRange (u32 b 4) 1 16 4 else inRange (u32 b 4) 16 16777216 4), inRange (u16 b 8) 1 65535 8,
    inRange (u16 b 0x0A) 5 10000 0x0A, inRange (u32 b 0x0C) 100 10000 0x0C, need (unit30 b 0x20) (badParam 0x20),
    need (unit30 b 0x2C && orth30 b 0x20 0x2C) (badParam 0x2C)]

def actRotor (c : Cmd) (s : State) : State × Bytes :=
  let b := c.block
  let words := fun off n => (List.range n).map fun i => w32 (u32 b (off + 4 * i))
  let t := (s.touch dCOB).setReg R.COB_ENC_CFG (w32 (u8 b 0 + u8 b 1 * 4 + u8 b 2 * 8 + u8 b 3 * 16))
  let t := t.setReg R.COB_ENC_CPR (w32 (u32 b 4))
  let t := t.setReg R.COB_ENC_UPD (w32 (u16 b 8 - 1 + u16 b 0x0A * 0x10000))
  let t := t.setReg R.COB_ENC_SSI_DIV (w32 ((50000 + u32 b 0x0C - 1) / u32 b 0x0C - 1))
  let t := t.setReg R.COB_ZERO_OFS (w32 (u32 b 0x10))
  let t := t.setRegs R.COB_HUB (words 0x14 9)
  (t.modCobalt Cobalt.angleLost, [])

def execProjSetRotor (p : Nat) (s : State) : Res := .next (runPage 0x0501 (plainPage checkRotor actRotor) p s)

/-- PROJ_SET_IMU. -/
def checkImu (c : Cmd) (s : State) : Check :=
  let b := c.block
  allOf [s.reach dCOB, inRange (u8 b 0) 0 1 0, inRange (u8 b 1) 1 24 1, inRange (u8 b 3) 6 32 3,
    need ((List.range 3).all fun i => u8 b (4 + i) % 32 + 2 ≤ u8 b 3 && u8 b (4 + i) / 32 % 4 = 0) (badParam 4),
    reserved b 7 1, inRange (u32 b 8) 1 100000000 8, inRange (u16 b 0x0C) 1 1000 0x0C, inRange (u16 b 0x0E) 1 8000 0x0E]

def actImu (c : Cmd) (s : State) : State × Bytes :=
  let b := c.block
  let t := (s.touch dCOB).setReg R.COB_IMU_CFG (w32 (u8 b 1 + u8 b 0 * 32 + u8 b 2 * 0x100 + u8 b 3 * 0x10000))
  let t := t.setReg R.COB_IMU_MAP (w32 (u32 b 4 % 0x1000000))
  let t := t.setReg R.COB_IMU_SCALE (w32 (u32 b 8))
  let t := t.setReg R.COB_IMU_TIME (w32 (u16 b 0x0C + u16 b 0x0E * 0x10000))
  let t := t.setRegs R.COB_PIVOT ((List.range 3).map fun i => w32 (u32 b (0x10 + 4 * i)))
  ((t.setRegs R.COB_ATT_ROLL [0, 0, 0]).modCobalt fun x =>
    { x with att := [], imuSilentSaid := false, imuAt := s.now }, [])

def execProjSetImu (p : Nat) (s : State) : Res := .next (runPage 0x0502 (plainPage checkImu actImu) p s)

/-- PROJ_SET_PORT. The plane's vectors are checked where the frame uses them (log entry 18). -/
def projPortPage : GPage :=
  { op := 0x0503, elem := fun c _ => cobPortElem (u8 c.block 0),
    access := fun c s => allOf [inRange (u8 c.block 0) 0 7 0, need (s.portOwner (u8 c.block 0) = c.ctx) noPermission,
      s.reach dCOB],
    params := fun c s =>
      let b := c.block
      let q := gridDim (s.reg (R.OCH_Pn_SIZE (u8 b 0))) (u8 b 3)
      let others := (List.range 8).foldl (fun n p => if p = u8 b 0 then n else n + s.gridNodes p) 0
      allOf [inRange (u8 b 1) 0 2 1,
        need (u8 b 1 = 0 || u64 b 0x70 ≠ 0 || s.cobalt.gridLoaded.contains (u8 b 0)) (badParam 1),
        inRange (u8 b 2) 0 1 2, inRange (u8 b 3) 3 7 3, need (rot30 b 4) (badParam 4),
        need (u8 b 1 ≠ 1 || unit30 b 0x40) (badParam 0x40),
        need (u8 b 1 ≠ 1 || (unit30 b 0x4C && orth30 b 0x40 0x4C)) (badParam 0x4C),
        need (1 ≤ u32 b 0x64) (badParam 0x64), need (1 ≤ u32 b 0x68) (badParam 0x68), reserved b 0x6C 4,
        need (u64 b 0x70 % 8 = 0) (badParam 0x70),
        need (u64 b 0x70 = 0 || others + q.1 * q.2 ≤ 65536) noResource],
    fetch := fun c s =>
      let q := gridDim (s.reg (R.OCH_Pn_SIZE (u8 c.block 0))) (u8 c.block 3)
      if u64 c.block 0x70 = 0 then none else some (u64 c.block 0x70, 8 * q.1 * q.2),
    data := fun _ _ _ => .ok (),
    reserve := fun g ctx v w s =>
      let b := g.block
      let q := gridDim (v.reg (R.OCH_Pn_SIZE (u8 b 0))) (u8 b 3)
      if u64 b 0x70 = 0 ∨ claimed (fun p => s.portOwner p = ctx) v w State.gridNodes
          ((List.range 8).filter fun p => p ≠ u8 b 0) + q.1 * q.2 ≤ 65536 then .ok (s, q.1 + q.2 * 1024)
      else .error noResource,
    release := fun _ s => s, result := fun _ => [] }

/-- PROJ_SET_STACK. -/
def stackPage : GPage :=
  { op := 0x0504, elem := fun c _ => cobStackElem (u8 c.block 0),
    access := fun c s =>
      let b := c.block
      allOf [inRange (u8 b 0) 0 15 0,
        need (s.stkOwner (u8 b 0) = noOwner || s.stkOwner (u8 b 0) = c.ctx) noPermission,
        need (u8 b 1 = 0 || (List.range 8).all fun p => !(u8 b 2).testBit p || s.portOwner p = c.ctx) noPermission, s.reach dCOB],
    params := fun c _ =>
      let b := c.block
      let m := 2047 / 2 ^ u8 b 3
      allOf [inRange (u8 b 1) 0 1 1, need (u8 b 2 ≠ 0) (badParam 2), inRange (u8 b 3) 0 3 3, inRange (u16 b 4) 1 256 4,
        inRange (u16 b 6) 0 10000 6, inRange (u16 b 8) 0 m 8, inRange (u16 b 0x0A) 0 m 0x0A, inRange (u16 b 0x0C) 1 1024 0x0C,
        inRange (u16 b 0x0E) 1 1024 0x0E, inRange (u8 b 0x10) 1 4 0x10, reserved b 0x11 7,
        need (u64 b 0x18 % 64 = 0) (badParam 0x18)],
    fetch := fun _ _ => none, data := fun _ _ _ => .ok (),
    reserve := fun g ctx _ _ s =>
      let b := g.block
      if u8 b 1 = 0 then .ok (s, 0)
      else match s.allocDram (2 * u16 b 0x0C * u16 b 0x0E * 4) ctx exPending (u8 b 0) with
        | some r => .ok r
        | none => .error noResource,
    release := fun g s => if g.handle = 0 then s else s.freeDramAt g.handle,
    result := fun _ => [] }

/-- PROJ_RELEASE_MAP. -/
def checkReleaseMap (c : Cmd) (s : State) : Check :=
  let b := c.block
  allOf [inRange (u8 b 0) 0 15 0, need (s.stkOwner (u8 b 0) = c.ctx) noPermission, s.reach dCOB,
    need (u8 b 1 ≤ 3 && s.regBit (R.COB_Sn_STATUS (u8 b 0)) (10 + u8 b 1)) (badParam 1), reserved b 2 2]

def actReleaseMap (c : Cmd) (s : State) : State × Bytes :=
  let k := u8 c.block 0
  let n := u8 c.block 1
  let t := (s.touch dCOB).setRegFld (R.COB_Sn_STATUS k) (10 + n) (10 + n) 0
  (if n ≤ t.regFld (R.COB_Sn_CFG k) 27 26 then t.setStk k { t.stk k with free := (t.stk k).free ++ [n] } else t, [])

def execProjReleaseMap (p : Nat) (s : State) : Res := .next (runPage 0x0505 (plainPage checkReleaseMap actReleaseMap) p s)

/-- PROJ_GET_STATE. -/
def actProjState (_ : Cmd) (s : State) : State × Bytes :=
  let t := s.touch dCOB
  (t, leBytes 8 (wrapBits 64 (t.angleAt t.now)) ++ leBytes 8 (wrapBits 64 t.angleRate) ++
    leBytes 8 (match t.cobalt.hist with | (a, _) :: _ => a | [] => 0) ++
    leBytes 4 (Nat.min t.expectedInterval 0xFFFFFFFF) ++ leBytes 4 t.cobStatus ++ leBytes 4 (t.regN R.COB_ATT_ROLL) ++
    leBytes 4 (t.regN R.COB_ATT_PITCH) ++ leBytes 4 (t.regN R.COB_ATT_YAW) ++ leBytes 4 (t.regN R.COB_ENC_UPDATES) ++
    leBytes 4 (t.regN R.COB_ENC_INDEX) ++ leBytes 4 (t.regN R.COB_ENC_INDEX_ERR) ++ leBytes 8 0)

def execProjGetState (p : Nat) (s : State) : Res :=
  .next (runPage 0x0506 (plainPage (fun _ s => s.reach dCOB) actProjState) p s)

end Sys2Proof.Machine
end

