-- ==== Sys2Proof/Machine/Layers.lean ====
section
/-! DEFINITION. The arithmetic of a layer (08 R149, R156, R158; 09 R172, R173, R178): elements and their formats, dot
products in full and by deltas, epilogues. What a layer program says is `Config.layerPlan` (log entry 22). An accumulator or
an activation of a floating format is an integer that holds its bits. -/

namespace Sys2Proof.Machine

/-! ## Elements -/

/-- Element formats of 08 R153: 0 INT8, 1 INT4; 2 FP8 E4M3, 3 FP8 E5M2, 4 BF16. -/
def intFmt (fmt : Nat) : Bool := fmt ≤ 1

/-- The integer formats' range. -/
def fmtRange (fmt : Nat) : Int × Int := if fmt = 0 then (-128, 127) else (-8, 7)

/-- A finite or infinite value as a code of a floating format of `m` fraction bits and bias `k`, at most `top`. -/
def fpCode (v : F32) (m k : Nat) (top : F32) : Int :=
  if F.isNan v then 0
  else
    let a := if F.lt top (F.abs v) then top else F.abs v
    let qmin : Int := 1 - (k : Int) - m
    let q := if F.isZero a then qmin else max (F.expo a + (Nat.log2 (F.mant a) : Int) - m) qmin
    let n := F.toIntRne a (-q)
    let c := (q - qmin) * 2 ^ m + n
    if F.neg? v then c + 2 ^ (if m = 7 then 15 else 7) else c

/-- A value as a code of a floating format (08 R156). -/
def fpElem (fmt : Nat) (v : F32) : Int :=
  if fmt = 2 then fpCode v 3 7 0x43E00000
  else if fmt = 3 then fpCode v 2 15 0x47600000
  else fpCode v 7 127 0x7F7F0000

/-- A code of a floating format of `m` fraction bits and bias `k` as a value, without its specials. -/
def fpFrom (c m k e : Nat) : F32 :=
  let x := c / 2 ^ m % 2 ^ e
  let f := c % 2 ^ m
  F.round (c.testBit (m + e)) (if x = 0 then f else f + 2 ^ m) ((if x = 0 then (1 : Int) else x) - k - m) false

/-- A code of a floating format as a value: E4M3 has no infinity, E5M2 and BF16 are IEEE 754's. -/
def fpValue (fmt : Nat) (i : Int) : F32 :=
  let c := i.toNat
  if fmt = 4 then w32 (c * 0x10000)
  else if fmt = 2 then (if c % 128 = 127 then F.nan else fpFrom c 3 7 4)
  else if c % 128 = 124 then (if c.testBit 7 then 0xFF800000 else F.inf)
  else if 124 < c % 128 then F.nan
  else fpFrom c 2 15 5

/-! ## Accumulators (08 R149) -/

/-- INT32 with saturation. -/
def satAcc (i : Int) : Int := clampI (-2147483648) 2147483647 i

/-- The binary32 value that an integer holds. -/
def accF (i : Int) : F32 := w32 i.toNat

/-- The product of a term and an input, as integers. -/
def termInt (x : List Int) (t : MacTerm) : Int := nth x t.elem 0 * t.weight

/-- A product whose bits [1:0] came out wrong at the positions set in `e` (09 R178). -/
def absorb (p : Int) (e : Nat) : Int := p - p % 4 + (((p % 4).toNat ^^^ e % 4 : Nat) : Int)

/-- One MAC of an accumulator with w × (x − y) for elements x and y; code 0 is +0. -/
def macFp (fmt : Nat) (a x y : Int) (t : MacTerm) : Int :=
  ((F.fmaDiff (accF a) (fpValue t.format t.weight) (fpValue fmt x) (fpValue fmt y)).toNat : Int)

/-- An accumulator from its input in reference order. -/
def fullAcc (fmt : Nat) (x : List Int) (terms : List MacTerm) : Int :=
  if intFmt fmt then terms.foldl (fun a t => satAcc (a + termInt x t)) 0
  else terms.foldl (fun a t => macFp fmt a (nth x t.elem 0) 0 t) 0

/-- An accumulator of a TOLERANT layer on an undemoted tile at an S-point: which low product bits come out wrong is physical
and free. With it the products absorbed. -/
def tolerantAcc (ctr : Nat) (x : List Int) : List MacTerm → Int × Nat → Int × Nat
  | [], a => a
  | t :: ts, a =>
    let e := (Config.freeValue ctr).toNat % 4
    tolerantAcc (ctr + 1) x ts (satAcc (a.1 + absorb (termInt x t) e), a.2 + b2n (e ≠ 0))

/-- The difference of an element is dropped: zero, or at most θ in magnitude (09 R172). -/
def smallDelta (fmt theta : Nat) (x y : Int) : Bool :=
  if intFmt fmt then decide ((x - y).natAbs ≤ theta) else F.eq (fpValue fmt x) (fpValue fmt y)

/-- The elements whose difference counts, in ascending order. -/
def changedElems (fmt theta : Nat) (x xref : List Int) : List Nat :=
  below x.length fun i => !smallDelta fmt theta (nth x i 0) (nth xref i 0)

/-- The terms that the changed elements feed, in ascending element order. -/
def changedTerms (ch : List Nat) (terms : List MacTerm) : List MacTerm := ch.flatMap fun i => terms.filter fun t => t.elem = i

/-- An INT32 accumulator updated; none where it would saturate (09 R173). -/
def deltaInt (x xref : List Int) : List MacTerm → Int → Option Int
  | [], a => some a
  | t :: ts, a =>
    let b := a + t.weight * (nth x t.elem 0 - nth xref t.elem 0)
    if satAcc b = b then deltaInt x xref ts b else none

/-- An accumulator updated by the differences of its input. -/
def deltaAcc (fmt : Nat) (x xref : List Int) (terms : List MacTerm) (a : Int) : Option Int :=
  if intFmt fmt then deltaInt x xref terms a
  else some (terms.foldl (fun a t => macFp fmt a (nth x t.elem 0) (nth xref t.elem 0) t) a)

/-- x_ref after a DELTA run: skipped elements keep their value. -/
def nextRef (ch : List Nat) (x xref : List Int) : List Int :=
  (List.range x.length).map fun i => if ch.contains i then nth x i 0 else nth xref i 0

/-! ## A layer's accumulators (09 R170, R172) -/

/-- What one accumulator came to: its value, MACs done, products absorbed. -/
structure AccOut where
  value : Int
  macs : Nat
  absorbed : Nat
  deriving DecidableEq, Repr

/-- What a layer's accumulators came to, the delta state it keeps, whether it fell back, and free values drawn. -/
structure LayerOut where
  accs : List AccOut
  mem : Option LayerMem
  fellBack : Bool
  drawn : Nat
  deriving DecidableEq, Repr

/-- Every accumulator in full; `lively` tells the tiles whose lanes are tolerant. -/
def fullLayer (fmt : Nat) (lively : Nat → Bool) (ctr : Nat) (x : List Int) : List AccPlan → List AccOut
  | [] => []
  | p :: ps =>
    if intFmt fmt && lively p.tile then
      let v := tolerantAcc ctr x p.terms (0, 0)
      ⟨v.1, p.terms.length, v.2⟩ :: fullLayer fmt lively (ctr + p.terms.length) x ps
    else ⟨fullAcc fmt x p.terms, p.terms.length, 0⟩ :: fullLayer fmt lively (ctr + p.terms.length) x ps

/-- Every accumulator by deltas; none where one would saturate. -/
def deltaLayer (fmt : Nat) (ch : List Nat) (x : List Int) (old : LayerMem) (accs : List AccPlan) : Option (List AccOut) :=
  (List.zip accs old.acc).mapM fun p =>
    let terms := changedTerms ch p.1.terms
    (deltaAcc fmt x old.xref terms p.2).map fun v => ⟨v, terms.length, 0⟩

/-- A layer in a mode (09 R170): `delta` where the run's path is DELTA, with the state that the layer kept. -/
def runLayer (fmt : Nat) (mode : Byte) (delta : Bool) (lively : Nat → Bool) (ctr : Nat) (x : List Int) (accs : List AccPlan)
    (old : Option LayerMem) : LayerOut :=
  let k := mode.toNat % 4
  let n := accs.foldl (fun n p => n + p.terms.length) 0
  let keep := fun (l : List AccOut) (r : List Int) => some (LayerMem.mk (l.map fun o => o.value) r)
  if k = 1 ∨ k = 2 then
    let full := fullLayer fmt (fun _ => false) ctr x accs
    match delta, old with
    | true, some o =>
      let ch := changedElems fmt (if k = 2 then mode.toNat / 16 else 0) x o.xref
      match deltaLayer fmt ch x o accs with
      | some l => ⟨l, keep l (nextRef ch x o.xref), false, 0⟩
      | none => ⟨full, keep full x, true, 0⟩
    | _, _ => ⟨full, keep full x, false, 0⟩
  else if k = 3 then ⟨fullLayer fmt lively ctr x accs, none, false, n⟩
  else ⟨fullLayer fmt (fun _ => false) ctr x accs, none, false, 0⟩

/-! ## Epilogues (08 R149, 09 R182) -/

/-- The activation function on an accumulator. -/
def activate (fp : Bool) (f : Activation) (v : Int) : Int :=
  match f with
  | .identity => v
  | .relu => if fp then (if F.lt (accF v) 0 then 0 else v) else max v 0
  | .clamp lo hi => if fp then ((F.max2 (accF lo) (F.min2 (accF v) (accF hi))).toNat : Int) else clampI lo hi v
  | .other n => Config.activation n v

/-- Bias and activation function. -/
def biased (fp : Bool) (e : Epilogue) (v : Int) : Int :=
  activate fp e.act (if fp then ((F.add (accF v) (accF e.bias)).toNat : Int) else satAcc (v + e.bias))

/-- v × mult / 2^shift rounded as the epilogue rounds. -/
def rescale (e : Epilogue) (v : Int) : Int :=
  let n := v * e.mult
  let d : Int := 2 ^ e.shift
  if e.even then
    let q := n / d
    let r := n % d
    if d < 2 * r ∨ (2 * r = d ∧ q % 2 = 1) then q + 1 else q
  else (n * 2 ^ 32 + e.round.toNat * d) / (d * 2 ^ 32)

/-- An activation in its format. -/
def requantise (fp : Bool) (e : Epilogue) (v : Int) : Int :=
  if fp then
    let y := F.mul (accF v) (w32 e.mult)
    if intFmt e.format then clampI (fmtRange e.format).1 (fmtRange e.format).2 (if F.finite y then F.toIntRne y 0 + e.zp else e.zp)
    else fpElem e.format y
  else if intFmt e.format then clampI (fmtRange e.format).1 (fmtRange e.format).2 (rescale e v + e.zp)
  else fpElem e.format (F.ofScaled (v * e.mult) (-(e.shift : Int)))

/-! ## Rates (08 R149) -/

/-- MACs of a tile in a cycle. -/
def macRate (fmt : Nat) : Nat := if fmt = 1 then 2048 else if fmt = 4 then 256 else 1024

end Sys2Proof.Machine
end

