-- ==== Sys2Proof/Machine/Slate.lean ====
section
/-! DEFINITION. Slate (14): queues, sending, receiving, refusals, combining, and the 0x11 commands. -/

namespace Sys2Proof.Machine

def State.modSlate (s : State) (f : Slate → Slate) : State := { s with slate := f s.slate }

/-! ## Queues (14 R259, R260) -/

def State.qEn (s : State) (q : Nat) : Bool := s.regBit (R.SLT_Qn_CFG q) 0
/-- 0 POPPED, 1 LANDING, 2 COMBINING. -/
def State.qType (s : State) (q : Nat) : Nat := s.regFld (R.SLT_Qn_CFG q) 2 1
/-- 0 REQ, 1 RPY. -/
def State.qNet (s : State) (q : Nat) : Nat := s.regFld (R.SLT_Qn_CFG q) 3 3
def State.qDepth (s : State) (q : Nat) : Nat := 2 ^ s.regFld (R.SLT_Qn_CFG q) 7 4
def State.qOwner (s : State) (q : Nat) : Nat := s.regFld (R.SLT_Qn_CFG q) 31 16
def State.qBase (s : State) (q : Nat) : Nat :=
  s.regN (R.SLT_Qn_BASE_LO q) / 32 * 32 + s.regFld (R.SLT_Qn_BASE_HI q) 7 0 * 0x100000000
def State.queue (s : State) (q : Nat) : List Desc := s.slate.queues.getD q []
def State.occupancy (s : State) (q : Nat) : Nat := (s.queue q).length
def State.reservedIn (s : State) (q : Nat) : Nat := s.regFld (R.SLT_Qn_OCC q) 28 16

/-- 14 R259: the master ID of Slate's accesses for a queue. -/
def State.qMaster (s : State) (q : Nat) : Nat := if s.qOwner q < 1024 then 0x400 + s.qOwner q else 0x030

/-- 14 R260: occupancy and reservations fill the depth. -/
def State.qFull (s : State) (q : Nat) : Bool := s.qDepth q ≤ s.occupancy q + s.reservedIn q

/-- A queue's descriptors set, with occupancy and the peak; a rise to the watermark asserts 288 + line (14 R267). -/
def State.setQueue (s : State) (q : Nat) (l : List Desc) : State :=
  let old := s.occupancy q
  let w := s.regFld (R.SLT_Qn_WMARK q) 12 0
  let t := (s.modSlate fun x => { x with queues := if l = [] then x.queues.erase q else x.queues.set q l }).setRegFld
    (R.SLT_Qn_OCC q) 12 0 l.length
  let t := if t.regN (R.SLT_Qn_PEAK q) < l.length then t.setReg (R.SLT_Qn_PEAK q) (w32 l.length) else t
  t.assertSourceIf (old < w && w ≤ l.length && t.regBit (R.SLT_Qn_CFG q) 13) (288 + t.regFld (R.SLT_Qn_CFG q) 12 8)

def State.setReserved (s : State) (q n : Nat) : State := s.setRegFld (R.SLT_Qn_OCC q) 28 16 n

/-- The head consumed: DEQ_SEQ advances (14 R260). -/
def State.consume (s : State) (q n : Nat) : State :=
  (s.setQueue q ((s.queue q).drop n)).bump (R.SLT_Qn_DEQ_SEQ q) n

/-- The bytes of a descriptor (14 R261). -/
def Desc.bytes (d : Desc) : Bytes :=
  leBytes 4 d.header.toNat ++ leBytes 4 d.seq.toNat ++ leBytes 8 d.addr.toNat ++ leBytes 4 d.length.toNat ++
  leBytes 4 d.tag.toNat ++ leBytes 8 d.arg.toNat

def Desc.zero : Desc := ⟨0, 0, 0, 0, 0, 0⟩

/-! ## Memory on a queue's behalf (14 R259) -/

/-- A write under a queue's master ID. -/
def State.engineWrite (s : State) (q a : Nat) (b : Bytes) : State := s.masterWrite (s.qMaster q) a b

/-- A read under a queue's master ID. -/
def State.engineRead (s : State) (q a n : Nat) : State × Option Bytes := s.masterRead (s.qMaster q) a n

/-! ## Combining blocks (14 R271 to R275) -/

def State.comb (s : State) (c : Nat) : Comb := s.slate.combs.getD c Comb.init
def State.setComb (s : State) (c : Nat) (x : Comb) : State := s.modSlate fun t => { t with combs := t.combs.set c x }

def State.cEn (s : State) (c : Nat) : Bool := s.regBit (R.SLT_Cn_CFG c) 0
def State.cFp (s : State) (c : Nat) : Bool := s.regBit (R.SLT_Cn_CFG c) 1
def State.cOrdered (s : State) (c : Nat) : Bool := s.regBit (R.SLT_Cn_CFG c) 2
def State.cCount (s : State) (c : Nat) : Nat := s.regFld (R.SLT_Cn_CFG c) 10 4
def State.cResultQ (s : State) (c : Nat) : Nat := s.regFld (R.SLT_Cn_CFG c) 27 16
def State.cLen (s : State) (c : Nat) : Nat := s.regFld (R.SLT_Cn_LEN c) 12 0
def State.cBuf (s : State) (c : Nat) : Nat := s.reg64 (R.SLT_Cn_BUF_LO c)
def State.cRound (s : State) (c : Nat) : Nat := s.regFld (R.SLT_Cn_ROUND c) 15 0
def State.cArrived (s : State) (c : Nat) : BitVec 64 := BitVec.ofNat 64 (s.reg64 (R.SLT_Cn_ARRIVED_LO c))
/-- Bytes of one round in the buffer. -/
def State.cRoundSize (s : State) (c : Nat) : Nat := s.cLen c * 4 * (if s.cOrdered c then s.cCount c else 1)

/-- The block that a COMBINING queue feeds. -/
def State.combOf (s : State) (q : Nat) : Nat := s.regFld (R.SLT_Qn_BASE_HI q) 23 16
/-- The round after one, modulo 2^16. -/
def nextRound (r : Nat) : Nat := (r + 1) % 65536
def prevRound (r : Nat) : Nat := (r + 65535) % 65536

/-- SLT_Cn_ROUND brought up to date: the current round, and bit 16 while the previous round's result is held. -/
def State.showComb (s : State) (c r : Nat) : State :=
  s.setReg (R.SLT_Cn_ROUND c) (w32 (r + 65536 * b2n ((s.comb c).held.contains (prevRound r))))

/-! ## Commits (14 R262 to R264, R270) -/

abbrev causeDisabled : Nat := 1
abbrev causeNetwork : Nat := 2
abbrev causeUnreserved : Nat := 3
abbrev causeBadReply : Nat := 4
abbrev causeBadLength : Nat := 5
abbrev causeDuplicate : Nat := 6
abbrev causeStray : Nat := 7
abbrev causeBadIndex : Nat := 8

def State.stage (s : State) (m : Nat) : StageBuf := s.slate.staging.getD m StageBuf.init

/-- The staged words of a commit; bytes not written are zero. -/
def StageBuf.word (b : StageBuf) (off : Nat) : Word := b.words.getD off 0
def StageBuf.dword (b : StageBuf) (off : Nat) : BitVec 64 :=
  BitVec.ofNat 64 ((b.word off).toNat + (b.word (off + 4)).toNat * 0x100000000)

/-- SEND_REPLY asks for a reservation in a reply queue (14 R268). -/
def StageBuf.reply (b : StageBuf) : Option Nat :=
  if bit (b.word 0x20) 15 then some (fld (b.word 0x20) 11 0) else none

/-- 14 R270: the contribution checks of a COMBINING queue. -/
def State.combRefusal (s : State) (q : Nat) (b : StageBuf) : Option Nat :=
  let c := s.combOf q
  let i := (b.word 0x18).toNat % 256
  let r := (b.word 0x18).toNat / 65536
  let cur := s.cRound c
  if (b.word 0x10).toNat ≠ s.cLen c * 4 then some causeBadLength
  else if (r = cur ∧ (s.comb c).seen.toNat.testBit i) ∨ (r = nextRound cur ∧ (s.comb c).seenNext.toNat.testBit i) then
    some causeDuplicate
  else if r ≠ cur ∧ r ≠ nextRound cur then some causeStray
  else if s.cCount c ≤ i then some causeBadIndex
  else none

/-- 14 R270: why a commit is refused. -/
def State.refusal (s : State) (q : Nat) (header : Word) (b : StageBuf) : Option Nat :=
  if !s.qEn q then some causeDisabled
  else if fld header 30 28 ≠ s.qNet q then some causeNetwork
  else if s.qNet q = 1 ∧ s.reservedIn q = 0 then some causeUnreserved
  else if (match b.reply with | some r => !(s.qEn r && s.qNet r = 1) | none => false) then some causeBadReply
  else if s.qType q = 2 then s.combRefusal q b
  else none

/-- 14 R264, R266, R268, R273: a commit has to wait. A contribution waits while the result of the round two before its own, whose
buffer it would use, has not been released. -/
def State.mustStall (s : State) (q : Nat) (b : StageBuf) : Bool :=
  (s.qNet q = 0 && s.qFull q) ||
  (match b.reply with | some r => s.qNet q = 0 && s.qFull r | none => false) ||
  (s.qType q = 1 && 256 ≤ s.slate.landing.length) ||
  (s.qType q = 2 &&
    (s.comb (s.combOf q)).held.contains (prevRound (prevRound ((b.word 0x18).toNat / 65536))))

/-- A refusal counted, and latched where the latch is clear (14 R270). -/
def State.refuse (s : State) (m q cause : Nat) : State :=
  let t := (s.bumpSat (R.SLT_Qn_REFUSED q)).bumpSat R.SLT_REFUSED
  let t := { t with readErr := true }
  let t := t.modSlate fun x => { x with staging := x.staging.erase m }
  if t.regBit R.SLT_REFUSE_INFO 4 then t
  else ((t.setReg R.SLT_REFUSE_INFO (w32 (cause + 16 + m % 4096 * 65536))).setReg R.SLT_REFUSE_QUEUE (w32 q)).assertSource 321

/-- The level of the landing buffer shown, with its peak. -/
def State.showLanding (s : State) : State :=
  let n := s.slate.landing.length
  s.setReg R.SLT_LAND_BUF (w32 (n + Nat.max n (s.regFld R.SLT_LAND_BUF 24 16) * 65536))

/-- The descriptor of a commit (14 R261). -/
def State.descOf (s : State) (m q : Nat) (header : Word) (b : StageBuf) : Desc :=
  ⟨setFld header 27 16 m, s.reg (R.SLT_Qn_ENQ_SEQ q), b.dword 0x08, b.word 0x10, b.word 0x14, b.dword 0x18⟩

/-- 14 R268: an RPY commit uses up a reservation, RESERVE takes a slot. -/
def State.settleReply (s : State) (q : Nat) (b : StageBuf) : State :=
  if s.qNet q = 1 then s.setReserved q (s.reservedIn q - 1)
  else match b.reply with
    | some r => s.setReserved r (s.reservedIn r + 1)
    | none => s

/-- A commit counted (R278). -/
def State.countCommit (s : State) (q : Nat) : State :=
  let t := (s.bump (R.SLT_Qn_ENQ_SEQ q)).setReg64 (R.SLT_Qn_LAST_LO q) s.now
  if s.qNet q = 1 then t.setReg64 R.SLT_COMMIT_RPY_LO (s.reg64 R.SLT_COMMIT_RPY_LO + 1)
  else t.setReg64 R.SLT_COMMIT_REQ_LO (s.reg64 R.SLT_COMMIT_REQ_LO + 1)

/-- A contribution's index marked as committed in its round. -/
def State.markSeen (s : State) (c : Nat) (arg : BitVec 64) : State :=
  let x := s.comb c
  let k := BitVec.ofNat 64 (2 ^ (arg.toNat % 256))
  if arg.toNat / 65536 % 65536 = s.cRound c then s.setComb c { x with seen := x.seen ||| k }
  else s.setComb c { x with seenNext := x.seenNext ||| k }

/-- Where a queue stores the descriptor of a sequence number: its storage in shared SRAM, or its ring (14 R259, R266). -/
def State.descAt (s : State) (q : Nat) (seq : Word) : Nat := s.qBase q + seq.toNat % s.qDepth q * 32

/-- A descriptor admitted to a queue (14 R260, R261, R268): one of a POPPED or COMBINING queue stands in the queue's storage
from then on. -/
def State.admitCommit (s : State) (m q : Nat) (header : Word) (b : StageBuf) : State :=
  let d := s.descOf m q header b
  let t := ((s.settleReply q b).setQueue q (s.queue q ++ [d])).countCommit q
  if s.qType q = 1 then (t.modSlate fun x => { x with landing := x.landing ++ [(q, d)] }).showLanding
  else
    let t := t.engineWrite q (s.descAt q d.seq) d.bytes
    if s.qType q = 2 then t.markSeen (s.combOf q) d.arg else t

/-- A commit that begins to wait: counted, source 320 for the first since SLT_STALL_CYC was read. -/
def State.stall (s : State) (m q : Nat) (header : Word) (b : StageBuf) : State :=
  let t := (s.bumpSat (R.SLT_Qn_STALLS q)).assertSourceIf (!s.slate.stallSaid) 320
  t.modSlate fun x => { x with stallSaid := true, staging := x.staging.set m { b with queue := q, stalled := some header } }

/-- SEND_WINDOW_STAGE (14 R262): a word staged by a master. A master whose commit waits issues nothing. -/
def execSendWindowStage (master q off : Nat) (v : Word) (s : State) : Res :=
  .next (
    if (s.stage master).stalled.isSome ∨ !s.domUp dFAB then s
    else
      let g := s.guarded (R.SLT_SEND q + off) master true
      if !g.2 then { g.1 with readErr := true }
      else if off = 0 ∨ 0x20 < off then s
      else
        let b := if (s.stage master).queue = q then s.stage master else { StageBuf.init with queue := q }
        s.modSlate fun x => { x with staging := x.staging.set master { b with words := b.words.set off v } })

/-- DESCRIPTOR_COMMIT (14 R262 to R264): a write of the header word. FAB asleep answers with an error (16 R303). -/
def execDescriptorCommit (master q : Nat) (header : Word) (s : State) : Res :=
  .next (
    if (s.stage master).stalled.isSome then s
    else if !s.domUp dFAB then { s with readErr := true }
    else
      let g := s.guarded (R.SLT_SEND q) master true
      if !g.2 then { g.1 with readErr := true }
      else
        let b := if (s.stage master).queue = q then s.stage master else { StageBuf.init with queue := q }
        let t := { s with readErr := false }
        if !bit header 31 then t.modSlate fun x => { x with staging := x.staging.erase master }
        else match t.refusal q header b with
          | some c => t.refuse master q c
          | none =>
            if t.mustStall q b then t.stall master q header b
            else (t.admitCommit master q header b).modSlate fun x => { x with staging := x.staging.erase master })

/-- STALLED_COMMIT_ADMIT (14 R264): the waiting commit of a master is tried again. -/
def State.admitStalled (s : State) (m : Nat) : State :=
  let b := s.stage m
  match b.stalled with
  | none => s
  | some h =>
    match s.refusal b.queue h b with
    | some c => s.refuse m b.queue c
    | none =>
      if s.mustStall b.queue b then s
      else ({ s with readErr := false }.admitCommit m b.queue h b).modSlate fun x => { x with staging := x.staging.erase m }

def workStalledCommitAdmit (master : Nat) (s : State) : Res :=
  .next (if s.domUp dFAB && master < 4096 then s.admitStalled master else s)

/-! ## Receiving (14 R265, R266) -/

/-- QUEUE_POP (14 R265): the word at an offset of a pop window; offset 0 pops. -/
def execQueuePop (master q off : Nat) (s : State) : Res :=
  .next (
    if !s.domUp dFAB then { s with readErr := true, readData := leBytes 4 0 }
    else
      let g := s.guarded (R.SLT_POP q + off) master false
      if !g.2 then { g.1 with readErr := true, readData := leBytes 4 0 }
      else if off = 0 then
        match s.queue q with
        | d :: _ =>
          if s.qEn q && s.qType q = 0 then
            let t := (s.consume q 1).modSlate fun x => { x with pop := x.pop.set master (q, d) }
            { t with readErr := false, readData := leBytes 4 d.header.toNat }
          else { s with readErr := false, readData := leBytes 4 0 }
        | [] => { s with readErr := false, readData := leBytes 4 0 }
      else
        { s with
          readErr := false
          readData := match s.slate.pop.get? master with
            | some (k, d) => if k = q ∧ s.qType q = 0 then slice d.bytes off 4 else leBytes 4 0
            | none => leBytes 4 0 })

/-- The domain behind an address is powered, or wakes for a request. -/
def State.reachable (s : State) (a : Nat) : Bool :=
  s.domUp (targetDomain a) || (s.domOnDemand (targetDomain a) && !s.heldAsleep)

/-- The address of a LANDING queue's status word (14 R266). -/
def State.statusAt (s : State) (q : Nat) : Nat := s.reg64 (R.SLT_Qn_STAT_ADDR_LO q) % 2 ^ 40 / 8 * 8

/-- Both writes of a landing entry can proceed: the ring's and the status word's. -/
def State.landable (s : State) (q : Nat) : Bool := s.reachable (s.qBase q) && s.reachable (s.statusAt q)

/-- The first entry of the landing buffer that can land, with no earlier entry of its queue, and the others. -/
def takeLanding (ok : Nat → Bool) : List (Nat × Desc) → Option ((Nat × Desc) × List (Nat × Desc))
  | [] => none
  | e :: es =>
    if ok e.1 then some (e, es)
    else match takeLanding (fun q => ok q && q ≠ e.1) es with
      | some (x, xs) => some (x, e :: xs)
      | none => none

/-- Descriptors of a LANDING queue that its ring does not yet hold. -/
def State.inLanding (s : State) (q : Nat) : Nat := (s.slate.landing.filter fun e => e.1 = q).length

/-- SLT_QN_ACK (14 R266). -/
def execSltQnAck (q : Nat) (v : Word) (s : State) : Res :=
  .next (
    if !s.qEn q ∨ s.qType q ≠ 1 ∨ !s.domUp dFAB then s
    else
      let n := (v - s.reg (R.SLT_Qn_DEQ_SEQ q)).toNat
      if n ≤ s.occupancy q - s.inLanding q then s.consume q n
      else (s.bumpSat R.SLT_BAD_ACK).assertSource 324)

/-! ## The combining engine (14 R272 to R275) -/

/-- The elements of a vector. -/
def vectorOf (fp : Bool) (b : Bytes) (n : Nat) : List Int :=
  (List.range n).map fun i => if fp then (u32 b (4 * i) : Int) else i32 b (4 * i)

/-- A contribution added to an accumulator: exact for INT32, binary32 for FP32. -/
def addVector (fp : Bool) (acc v : List Int) : List Int :=
  List.zipWith (fun a x => if fp then ((F.add (w32 a.toNat) (w32 x.toNat)).toNat : Int) else a + x)
    (if acc = [] then v.map fun _ => 0 else acc) v

/-- The numbers of the enabled queues, read from the registers that are not at their reset values. -/
def State.enabledQueues (s : State) : List Nat :=
  (s.regs.filter fun e => R.SLT_Qn_CFG 0 ≤ e.1 && e.1 < R.SLT_Qn_CFG 4096 && (e.1 - R.SLT_Qn_CFG 0) % 64 = 0 && bit e.2 0).map
    fun e => (e.1 - R.SLT_Qn_CFG 0) / 64

/-- The master ID of a block's accesses to its buffer: that of its queue (14 R259). -/
def State.combMaster (s : State) (c : Nat) : Nat :=
  match s.enabledQueues.find? fun q => s.qType q = 2 && s.combOf q = c with
  | some q => s.qMaster q
  | none => 0x030

/-- The ordered sum over the slots of a round (14 R274); a read that receives an error response counts as zeros. -/
def State.orderedSum (s : State) (c r : Nat) : State × List Int :=
  let l := s.cLen c
  let m := s.combMaster c
  (List.range (s.cCount c)).foldl (fun acc i =>
    let x := acc.1.masterRead m (s.cBuf c + r % 2 * s.cRoundSize c + i * l * 4) (l * 4)
    (x.1, addVector true acc.2 (vectorOf true (x.2.getD (List.replicate (l * 4) 0)) l))) (s, [])

/-- A NaN of binary32. -/
def isNan32 (w : Nat) : Bool := 0x7F800000 < w % 0x80000000

/-- 14 R273 to R275: a round whose indices have all arrived: the sums are written, the result waits for its commit, and the
next round becomes current. -/
def State.combDone (s : State) (c : Nat) : State :=
  let n := s.cCount c
  let r := s.cRound c
  let x := s.comb c
  if x.result.isSome ∨ s.cArrived c ≠ BitVec.ofNat 64 (2 ^ n - 1) ∨ n = 0 then s
  else
    let got := if s.cFp c && s.cOrdered c then s.orderedSum c r else (s, x.acc)
    let sums := got.2
    let nans := if s.cFp c then (sums.filter fun v => isNan32 v.toNat).length else 0
    let sats := if s.cFp c then 0 else (sums.filter fun v => v < -2147483648 || 2147483647 < v).length
    let out := sums.flatMap fun v =>
      leBytes 4 (if s.cFp c then (if isNan32 v.toNat then 0x7FC00000 else v.toNat)
        else wrapBits 32 (clampI (-2147483648) 2147483647 v))
    let t := got.1.masterWrite (s.combMaster c) (s.cBuf c + r % 2 * s.cRoundSize c) out
    let t := ((t.bumpSat (R.SLT_Cn_NAN c) nans).assertSourceIf (nans ≠ 0) 323).bumpSat (R.SLT_Cn_SAT c) sats
    let t := t.assertSourceIf (sats ≠ 0 && !t.slate.satSaid) 322
    let t := t.modSlate fun y => { y with
      satSaid := y.satSaid || sats ≠ 0, roundsDone := y.roundsDone + 1 }
    let t := t.setComb c
      { acc := x.accNext, arrivedNext := 0, accNext := [], seen := x.seenNext, seenNext := 0, held := x.held ++ [r],
        result := some (r, s.cArrived c) }
    ((t.setReg64 (R.SLT_Cn_ARRIVED_LO c) x.arrivedNext.toNat).bump (R.SLT_Cn_ROUNDS c)).showComb c (nextRound r)

/-- The enabled COMBINING queue of a block. -/
def State.combQueue (s : State) (c : Nat) : Option Nat :=
  (s.slate.queues.map fun e => e.1).find? fun q => s.qEn q && s.qType q = 2 && s.combOf q = c

/-- CONTRIBUTION_PROCESS (14 R272, R274): the contribution at the head is read and added or stored. A read that receives an
error response counts as zeros. -/
def workContributionProcess (c : Nat) (s : State) : Res :=
  .next (
    if !s.domUp dFAB ∨ !s.cEn c ∨ (s.comb c).result.isSome then s
    else match s.combQueue c with
      | none => s
      | some q => match s.queue q with
        | [] => s
        | d :: _ =>
          let l := s.cLen c
          let i := d.arg.toNat % 256
          let r := d.arg.toNat / 65536 % 65536
          let rd := s.engineRead q (d.addr.toNat % 2 ^ 40) (l * 4)
          let b := rd.2.getD (List.replicate (l * 4) 0)
          let t := rd.1.consume q 1
          let x := t.comb c
          let store := t.cFp c && t.cOrdered c
          let t := if store then t.engineWrite q (t.cBuf c + r % 2 * t.cRoundSize c + i * l * 4) b else t
          let sum := fun (acc : List Int) => if store then acc else addVector (t.cFp c) acc (vectorOf (t.cFp c) b l)
          let k := BitVec.ofNat 64 (2 ^ i)
          if r = t.cRound c then
            ((t.setComb c { x with acc := sum x.acc }).setReg64 (R.SLT_Cn_ARRIVED_LO c) (t.cArrived c ||| k).toNat).combDone c
          else t.setComb c { x with accNext := sum x.accNext, arrivedNext := x.arrivedNext ||| k })

/-- Key under which a block's waiting result is counted as a stalled commit. -/
def combStage (c : Nat) : Nat := 0x10000 + c

/-- COMBINE_RESULT_COMMIT (14 R275): the result descriptor is committed under 0x030, or the engine stalls. -/
def workCombineResultCommit (c : Nat) (s : State) : Res :=
  .next (
    match (s.comb c).result with
    | none => s
    | some (r, bm) =>
      if !s.domUp dFAB then s
      else
        let q := s.cResultQ c
        let a := s.cBuf c + r % 2 * s.cRoundSize c
        let h := w32 (0x80000000 + s.qNet q * 0x10000000 + s.regFld (R.SLT_Cn_KIND c) 15 0)
        let b : StageBuf := { queue := q, stalled := none, words :=
          [(0x08, w32 a), (0x0C, w32 (a / 0x100000000)), (0x10, w32 (s.cLen c * 4)), (0x14, w32 r),
            (0x18, w32 bm.toNat), (0x1C, w32 (bm.toNat / 0x100000000))] }
        if !s.qEn q ∨ s.qNet q ≠ 0 ∨ 1 < s.qType q ∨ s.mustStall q b then
          (if (s.stage (combStage c)).stalled.isSome then s else s.stall (combStage c) q h b)
        else
          let t := (s.admitCommit 0x030 q h b).modSlate fun x => { x with staging := x.staging.erase (combStage c) }
          (t.setComb c { t.comb c with result := none }).combDone c)

/-- SLT_CN_RELEASE (14 R275): the buffer of a held round is released. -/
def execSltCnRelease (c : Nat) (v : Word) (s : State) : Res :=
  .next (
    let r := v.toNat % 65536
    if !s.domUp dFAB ∨ !(s.comb c).held.contains r then s
    else
      let x := s.comb c
      (s.setComb c { x with held := x.held.erase r }).showComb c (s.cRound c))

/-! ## Enabling and disabling -/

/-- Commits that wait for a queue are refused with a cause. -/
def State.refuseStalled (s : State) (q cause : Nat) : State :=
  ((s.slate.staging.filter fun e => e.1 < 4096 && e.2.queue = q && e.2.stalled.isSome).map fun e => e.1).foldl
    (fun t m => t.refuse m q cause) s

/-- The number of enabled queues and blocks shown. -/
def State.showEnabled (s : State) (comb : Bool) (was now : Bool) : State :=
  let a := if comb then R.SLT_COMB_EN else R.SLT_QUEUES_EN
  if was = now then s else if now then s.bump a else s.setReg a (w32 (s.regN a - 1))

/-- A queue's descriptors and reservations discarded (14 Edges): each descriptor counts as refused, waiting commits are
refused with DISABLED. -/
def State.emptyQueue (s : State) (q : Nat) : State :=
  let t := s.bumpSat (R.SLT_Qn_REFUSED q) (s.occupancy q)
  let t := (t.modSlate fun x => { x with landing := x.landing.filter fun e => e.1 ≠ q }).showLanding
  ((t.setQueue q []).setReserved q 0).refuseStalled q causeDisabled

/-- An extent that Belrix has placed in the shared SRAM heap taken out of it, where it is free (01 R374). -/
def State.takeSram (s : State) (base len ctx what idx : Nat) : State :=
  let n := align64 len
  if sramHeap.1 ≤ base ∧ base + n ≤ sramHeap.2 ∧ s.host.sram.all (fun e => e.base + e.len ≤ base || base + n ≤ e.base) then
    let t := { s with host := { s.host with sram := insExtent ⟨base, n, ctx, what, idx⟩ s.host.sram } }
    if ctx < 1024 then t.fence 1 ctx (extentPerms 1 what) base n else t
  else s

/-- The storage of a queue that is enabled taken out of the heap; that of one disabled back in it. -/
def State.placeQueue (s : State) (q : Nat) (was : Bool) : State :=
  if was = s.qEn q then s
  else if was then s.freeSram exQueue q
  else if s.qType q = 1 then s else s.takeSram (s.qBase q) (s.qDepth q * 32) (s.qOwner q) exQueue q

/-- The buffer of a combining block likewise, under the owner of its queue. -/
def State.placeComb (s : State) (c : Nat) (was : Bool) : State :=
  if was = s.cEn c then s
  else if was then s.freeSram exComb c
  else s.takeSram (s.cBuf c) (2 * s.cRoundSize c)
    (match s.enabledQueues.find? fun q => s.qType q = 2 && s.combOf q = c with | some q => s.qOwner q | none => 0xFFFF) exComb c

/-- A write of SLT_Qn_CFG: enabling starts the sequences at 0, disabling discards (14 R260, Edges). -/
def State.writeQueueCfg (s : State) (q : Nat) (v : Word) : State :=
  let was := s.qEn q
  let t := if was && !bit v 0 then s.emptyQueue q else s
  let t := t.setReg (R.SLT_Qn_CFG q) (v &&& 0xFFFF3FFF)
  let t := if !was && bit v 0 then ((t.setReg (R.SLT_Qn_ENQ_SEQ q) 0).setReg (R.SLT_Qn_DEQ_SEQ q) 0).setReserved q 0 else t
  (t.showEnabled false was (bit v 0)).placeQueue q was

/-- A write of SLT_Cn_CFG (14 R271): discarded whole for ORDERED FP32 of more than 16, or for a result queue that is not an
enabled REQ queue of type POPPED or LANDING. Enabling starts the rounds at 0. -/
def State.writeCombCfg (s : State) (c : Nat) (v : Word) : State :=
  let q := fld v 27 16
  if (bit v 1 && bit v 2 && 16 < fld v 10 4) || !(s.qEn q && s.qNet q = 0 && s.qType q ≤ 1) then
    s.bumpSat R.SLT_CFG_ERR
  else
    let was := s.cEn c
    let t := s.setReg (R.SLT_Cn_CFG c) (v &&& 0x0FFF07F7)
    let t := if !was && bit v 0 then ((t.setComb c Comb.init).setReg64 (R.SLT_Cn_ARRIVED_LO c) 0).showComb c 0 else t
    (t.showEnabled true was (bit v 0)).placeComb c was

/-- A queue disabled (10 R204). -/
def State.disableQueue (s : State) (q : Nat) : State := s.writeQueueCfg q (s.reg (R.SLT_Qn_CFG q) &&& 0xFFFFFFFE)

/-! ## Power (14 R276) -/

/-- The whole storage of a queue lies in shared SRAM banks 0 to 3. -/
def State.qRetained (s : State) (q : Nat) : Bool :=
  sramBase ≤ s.qBase q && s.qBase q + s.qDepth q * 32 ≤ sramBase + 0x400000

/-- A combining round is open. -/
def State.roundOpen (s : State) (c : Nat) : Bool :=
  s.cEn c && (s.cArrived c ≠ 0 || (s.comb c).arrivedNext ≠ 0 || (s.comb c).result.isSome)

/-- 14 R276: the FAB gate may close. -/
def State.fabIdle (s : State) : Bool :=
  s.slate.landing = [] && s.slate.combs.all (fun e => !s.roundOpen e.1) &&
  s.enabledQueues.all fun q => s.qRetained q || s.queue q = []

/-- 14 R276: FAB powers down: queues stored elsewhere wake disabled; pop latches are lost, and staging buffers but those of the
commits that wait: these are neither refused nor dropped (14 R264) unless their queue is disabled. -/
def State.slateDown (s : State) : State :=
  let t := (s.enabledQueues.filter fun q => !s.qRetained q).foldl (fun t q => t.disableQueue q) s
  t.modSlate fun x => { x with staging := x.staging.filter fun e => e.2.stalled.isSome, pop := [] }

/-! ## Command pages -/

/-- The function may see a queue: the PF all, a VF those of its contexts. -/
def State.seesQueue (s : State) (f q : Nat) : Bool :=
  f = 0 || (match s.ctx? (s.qOwner q) with | some x => x.fn = f | none => false)

/-- The 32-byte entry of QUEUE_GET_STATUS. -/
def State.queueEntry (s : State) (f q : Nat) : Bytes :=
  if s.seesQueue f q then
    leBytes 4 (s.regN (R.SLT_Qn_CFG q)) ++ leBytes 4 (s.regN (R.SLT_Qn_OCC q)) ++ leBytes 4 (s.regN (R.SLT_Qn_ENQ_SEQ q)) ++
    leBytes 4 (s.regN (R.SLT_Qn_DEQ_SEQ q)) ++ leBytes 4 (s.regN (R.SLT_Qn_STALLS q)) ++
    leBytes 4 (s.regN (R.SLT_Qn_REFUSED q)) ++ leBytes 8 (s.reg64 (R.SLT_Qn_LAST_LO q))
  else List.replicate 32 0

/-- QUEUE_GET_STATUS. -/
def queueStatusBody : PageBody := fun c _ s =>
  let b := c.block
  match allOf [inRange (u16 b 0) 0 4095 0, s.reach dFAB, need (1 ≤ u16 b 2 && u16 b 2 ≤ 4096 - u16 b 0) (badParam 2),
      reserved b 4 4, need (u64 b 8 % 8 = 0) (badParam 8)] with
  | .error e => .fail e
  | .ok _ =>
    match s.dmaWrite (s.pathFn c.path) (u64 b 8) ((List.range (u16 b 2)).flatMap fun i => s.queueEntry c.fn (u16 b 0 + i)) with
    | some t => .done t []
    | none => .failWith (s.countDmaErr c.fn) dmaError

def execQueueGetStatus (p : Nat) (s : State) : Res := .next (runPage 0x1101 queueStatusBody p s)

/-- QUEUE_PEEK. -/
def execQueuePeek (p : Nat) (s : State) : Res :=
  .next (runPage 0x1102 (plainPage (fun c s =>
      allOf [inRange (u16 c.block 0) 0 4095 0, need (s.seesQueue c.fn (u16 c.block 0)) noPermission, s.reach dFAB,
        inRange (u16 c.block 2) 0 4095 2])
    fun c s =>
      let q := u16 c.block 0
      (s, leBytes 4 (s.regN (R.SLT_Qn_CFG q)) ++ leBytes 4 (s.regN (R.SLT_Qn_OCC q)) ++
        leBytes 4 (s.regN (R.SLT_Qn_ENQ_SEQ q)) ++ leBytes 4 (s.regN (R.SLT_Qn_DEQ_SEQ q)) ++
        (nth (s.queue q) (u16 c.block 2) Desc.zero).bytes)) p s)

/-- Sum of a register over the combining blocks, saturating. -/
def State.sumComb (s : State) (a : Nat → Nat) : Nat := Nat.min ((List.range 256).foldl (fun n c => n + s.regN (a c)) 0) 0xFFFFFFFF

/-- FABRIC_GET_STATS: the counters it clears: RC and saturating ones, and the refusal latch. -/
def State.clearFabric (s : State) : State :=
  let keep := fun (a : Nat) =>
    if a < 0x20604000 then
      !(a = R.SLT_STALL_CYC || a = R.SLT_REFUSED || a = R.SLT_REFUSE_INFO || a = R.SLT_REFUSE_QUEUE || a = R.SLT_BAD_ACK ||
        a = R.SLT_CFG_ERR)
    else if a < 0x20620000 then !(0x24 ≤ a % 64 && a % 64 ≤ 0x2C)
    else if R.SLT_Qn_CFG 0 ≤ a ∧ a < R.SLT_Qn_CFG 4096 then !(0x28 ≤ a % 64 && a % 64 ≤ 0x30)
    else true
  (s.resetRegs 0x20600000 0x20700000 keep).modSlate fun x => { x with stallSaid := false, satSaid := false }

def execFabricGetStats (p : Nat) (s : State) : Res :=
  .next (runPage 0x1103 (plainPage (fun c s => allOf [s.reach dFAB, inRange (u8 c.block 0) 0 1 0, reserved c.block 1 3])
    fun c s =>
      (if u8 c.block 0 = 1 then s.clearFabric else s,
       leBytes 8 (s.reg64 R.SLT_COMMIT_REQ_LO) ++ leBytes 8 (s.reg64 R.SLT_COMMIT_RPY_LO) ++
       leBytes 4 (s.regN R.SLT_STALL_CYC) ++ leBytes 4 (s.regN R.SLT_REFUSED) ++ leBytes 4 (s.regN R.SLT_REFUSE_INFO) ++
       leBytes 4 (s.regN R.SLT_REFUSE_QUEUE) ++ leBytes 8 s.slate.roundsDone ++ leBytes 4 (s.regN R.SLT_LAND_BUF) ++
       leBytes 4 (s.regN R.SLT_BAD_ACK) ++ leBytes 4 (s.sumComb R.SLT_Cn_SAT) ++ leBytes 4 (s.sumComb R.SLT_Cn_NAN) ++
       leBytes 2 (s.regN R.SLT_QUEUES_EN) ++ leBytes 2 (s.regN R.SLT_COMB_EN) ++ leBytes 4 0)) p s)

/-- Bits set in a word of 64. -/
def popcount64 (b : BitVec 64) : Nat := (below 64 fun i => b.toNat.testBit i).length

/-- COMBINE_RESET: queued contributions and open rounds are discarded and counted, held buffers released, waiting commits
refused with STRAY_ROUND. -/
def State.combineReset (s : State) (c round : Nat) : State :=
  let x := s.comb c
  let open' := popcount64 (s.cArrived c) + popcount64 x.arrivedNext
  let t := match s.combQueue c with
    | some q => ((s.bumpSat (R.SLT_Cn_DISCARD c) (s.occupancy q)).consume q (s.occupancy q))
    | none => s
  let t := (t.bumpSat (R.SLT_Cn_DISCARD c) open').setComb c Comb.init
  let t := (t.setReg64 (R.SLT_Cn_ARRIVED_LO c) 0).showComb c round
  let t := t.modSlate fun y => { y with staging := y.staging.erase (combStage c) }
  (t.slate.staging.filter fun e =>
      e.1 < 4096 && e.2.stalled.isSome && t.qType e.2.queue = 2 && t.combOf e.2.queue = c).foldl
    (fun u e => u.refuse e.1 e.2.queue causeStray) t

def execCombineReset (p : Nat) (s : State) : Res :=
  .next (runPage 0x1104 (plainPage (fun c s =>
      allOf [need (s.cEn (u8 c.block 0)) (badParam 0), s.reach dFAB, reserved c.block 1 1])
    fun c s => (s.combineReset (u8 c.block 0) (u16 c.block 2), [])) p s)

end Sys2Proof.Machine
end

