-- ==== Sys2Proof/Machine/Link.lean ====
section
/-! DEFINITION. Teal links as their senders meet them (08 R160, R161): the members of the group, the port toward each, frames
sent, frames that wait for a link in training, and the access entries of the peers (13 R253). How many bytes a message takes is the model's own (log entry 23). -/

namespace Sys2Proof.Machine

abbrev tealNone : Nat := 0
abbrev tealForming : Nat := 1
abbrev tealFormed : Nat := 2
abbrev tealLost : Nat := 3

/-- GROUP, SIZE, INDEX and DUAL of TEAL_CTRL, and TEAL_STATE (08 R168). -/
def State.groupNo (s : State) : Nat := s.regFld R.TEAL_CTRL 7 0
def State.groupSize (s : State) : Nat := s.regFld R.TEAL_CTRL 10 8
def State.groupIndex (s : State) : Nat := s.regFld R.TEAL_CTRL 13 11
def State.groupDual (s : State) : Bool := s.regBit R.TEAL_CTRL 14
def State.tealState (s : State) : Nat := s.regFld R.TEAL_STATE 1 0

/-- TEAL_Pn_LINK: 0 DOWN, 1 TRAINING, 2 UP. -/
def State.linkOf (s : State) (p : Nat) : Nat := s.regFld (R.TEAL_Pn_LINK p) 1 0
def State.linkUp (s : State) (p : Nat) : Bool := s.linkOf p = 2

/-- The other members of the group. -/
def State.peers (s : State) : List Nat := below s.groupSize fun d => d ≠ s.groupIndex

/-- 08 R160: the port toward a member: port 0 to the next one and to the one two places away, port 1 to the one before. With
two members it is a link that is up, by turns where both are fitted and up, else one in training. -/
def State.tealPort (s : State) (d : Nat) : Nat :=
  let n := s.groupSize
  if n = 2 then
    if s.linkUp 0 && s.linkUp 1 then (if s.groupDual then s.indigo.sent % 2 else 0)
    else if s.linkUp 0 then 0
    else if s.linkUp 1 then 1
    else if s.linkOf 0 = 0 then 1 else 0
  else if (d + n - s.groupIndex) % n = n - 1 then 1 else 0

/-- A frame put on a port: sent, held while the link trains, lost on a link that is down (08 R161). A forwarded one counts at
the port where it came in, and not as sent. -/
def State.putFrame (s : State) (p source dest id : Nat) (m : Option TealMsg) : State :=
  if s.linkUp p then
    (s.send (.teal p source dest id m)).setReg64 (R.TEAL_Pn_TX_LO p)
      (s.reg64 (R.TEAL_Pn_TX_LO p) + (if source = s.groupIndex then 64 else 0))
  else if s.linkOf p = 1 then { s with indigo := { s.indigo with held := s.indigo.held ++ [(p, source, dest, id, m)] } }
  else s

/-- Payload bytes of a message. -/
def tealBytes : TealMsg → Nat
  | .forming _ _ => 2
  | .bound _ => 8
  | .run _ _ l => 16 + 2 * l.length
  | .partials _ _ l => 16 + 4 * l.length
  | .slice _ _ l => 16 + 2 * l.length
  | .command _ _ b => 16 + b.length
  | .write _ b => 16 + b.length
  | .read _ _ => 16
  | .answer b => b.length

def State.modIndigo (s : State) (f : Indigo → Indigo) : State := { s with indigo := f s.indigo }

/-- A frame of this member toward another; two links take the frames by turns. -/
def State.sendFrame (s : State) (d id : Nat) (m : Option TealMsg) : State :=
  (s.putFrame (s.tealPort d) s.groupIndex d id m).modIndigo fun i => { i with sent := i.sent + 1 }

/-- `n` frames before the last of a message, then the last. -/
def State.sendFrames (s : State) (d id : Nat) (m : TealMsg) : Nat → State
  | 0 => s.sendFrame d id (some m)
  | n + 1 => State.sendFrames (s.sendFrame d id none) d id m n

/-- A message sent to a member in frames of 64 bytes, under the low six bits of the sender's master ID (01 R29). -/
def State.sendTeal (s : State) (d id : Nat) (m : TealMsg) : State := s.sendFrames d (id % 64) m ((tealBytes m - 1) / 64)

/-- A message sent to every other member. -/
def State.tealAll (s : State) (id : Nat) (m : TealMsg) : State := s.peers.foldl (fun t d => t.sendTeal d id m) s

/-- Frames held for a port go out when its link is up again, or are lost when retraining failed. -/
def State.releaseFrames (s : State) (p : Nat) : State :=
  (s.indigo.held.filter fun f => f.1 = p).foldl (fun t f => t.putFrame f.1 f.2.1 f.2.2.1 f.2.2.2.1 f.2.2.2.2)
    (s.modIndigo fun i => { i with held := i.held.filter fun f => f.1 ≠ p })

/-- A binding of the group. -/
def State.groupBind (s : State) (b : Nat) : Bool := match s.indigo.binds.get? b with | some x => x.group ≠ 0 | none => false

/-! ## Access entries of the peers (13 R253) -/

def peerId (d : Nat) : Nat := 0x200 + d * 0x40

/-- What a peer's entries cover, by guard: the combining queues with their buffers and the fixed buffers that partial sums
are written to, their send windows, and the tile windows of the group's bindings (log entry 23). -/
def State.peerRegions (s : State) : List (Nat × Nat × Nat) :=
  let tiles := s.indigo.binds.foldl (fun (m : BitVec 16) e => if e.2.group ≠ 0 then m ||| e.2.tiles else m) 0
  [(1, sramBase + 0x100000, 0x40000)] ++
  ((below 256 s.cEn).map fun c => (1, s.cBuf c, 2 * s.cRoundSize c)) ++
  ((s.enabledQueues.filter fun q => s.qType q = 2).map fun q => (8, R.SLT_SEND q, 64)) ++
  ((below 16 fun t => tiles.toNat.testBit t).map fun t => (17, 0x40000000 + t * 0x200000, 0x200000))

/-- The entries of peers removed from a guard. -/
def State.dropPeerEntries (s : State) (g : Nat) : State :=
  forEach (List.range (guardEntries g - 32)) (fun i u =>
    let w := (u.guardEntry g i).2.2.1
    if 0x200 ≤ fld w 11 0 && fld w 11 0 < 0x300 && fld w 27 16 = 0xFC0 then u.setGuardEntry g i 0 0 0 0 else u) s

def State.removePeers (s : State) : State := ((s.dropPeerEntries 1).dropPeerEntries 8).dropPeerEntries 17

def State.installPeers (s : State) : State :=
  s.peers.foldl (fun t d => s.peerRegions.foldl (fun u g => u.cover g.1 (peerId d) 0xFC0 3 0xFFFF g.2.1 64 g.2.2) t) s

/-- The peers' entries brought up to date while a group is formed, a lost peer's among them. -/
def State.refreshPeers (s : State) : State := if 2 ≤ s.tealState then s.removePeers.installPeers else s

/-- 08 R163: inputs are taken and runs are triggered here: a binding of no group, or of the group on member 0. -/
def State.leads (s : State) (b : Nat) : Bool := !s.groupBind b || s.groupIndex = 0

end Sys2Proof.Machine
end

