-- ==== Sys2Proof/Machine/FilterLib.lean ====
section
/-! DEFINITION. The standard filter library of Umber (06 R122, R123): identities, taps, decimations and coefficients. Each
filter is symmetric, so its first half with the middle tap is listed. -/

namespace Sys2Proof.Machine

/-- Coefficients of 0x0000: 1 taps up to the middle one. -/
def lib00 : List Int :=
  [65536]

/-- Coefficients of 0x0001: 31 taps up to the middle one. -/
def lib01 : List Int :=
  [0, 5, -12, -66, 23, 271, 73, -718, -533, 1434, 1859, -2288, -5262, 2999, 20238, 29490]

/-- Coefficients of 0x0002: 63 taps up to the middle one. -/
def lib02 : List Int :=
  [0, 0, 3, 5, 3, -9, -29, -44, -34, 14, 91, 157, 155, 41, -172, -391, -470, -284, 178, 750, 1118, 958, 128,
   -1166, -2352, -2659, -1436, 1506, 5708, 10131, 13492, 14752]

/-- Coefficients of 0x0003: 127 taps up to the middle one. -/
def lib03 : List Int :=
  [0, 0, 0, 0, 1, 2, 3, 3, 3, 2, -1, -5, -11, -17, -22, -25, -24, -19, -8, 8, 27, 49, 69, 84, 90, 82, 60, 21,
   -30, -90, -151, -203, -237, -243, -214, -146, -42, 91, 239, 383, 500, 569, 568, 486, 316, 65, -247, -588] ++
  [-916, -1184, -1339, -1336, -1137, -721, -84, 755, 1755, 2858, 3989, 5068, 6012, 6747, 7214, 7378]

/-- Coefficients of 0x0004: 191 taps up to the middle one. -/
def lib04 : List Int :=
  [0, 0, 0, 0, 0, 0, 0, 0, 1, 1, 2, 2, 3, 4, 5, 6, 7, 8, 8, 8, 8, 7, 5, 3, 0, -4, -9, -14, -20, -26, -32, -38,
   -44, -48, -51, -53, -53, -50, -44, -36, -25, -11, 6, 25, 47, 69, 93, 117] ++
  [139, 159, 176, 189, 196, 197, 190, 174, 150, 117, 75, 25, -33, -98, -167, -239, -312, -382, -448, -506,
   -553, -585, -601, -596, -569, -517, -439, -333, -200, -39, 148, 359, 592, 845, 1112, 1389, 1673, 1956,
   2235, 2503, 2755, 2985, 3190, 3363, 3502, 3604, 3666, 3688]

/-- Coefficients of 0x0005: 255 taps up to the middle one. -/
def lib05 : List Int :=
  [0, 0, 0, 0, 0, 0, 0, 0, -1, -1, -1, -1, -1, -1, -1, -1, -1, -1, -1, 0, 0, 0, 1, 2, 2, 3, 4, 5, 7, 8, 9, 11,
   13, 14, 16, 18, 20, 22, 24, 25, 27, 28, 29, 30, 31, 31, 31, 31] ++
  [30, 28, 26, 23, 20, 16, 11, 6, -1, -8, -15, -24, -33, -43, -53, -64, -75, -87, -99, -111, -123, -135, -147,
   -159, -169, -179, -188, -196, -203, -208, -211, -213, -212, -209, -203, -195, -184, -170, -153, -132, -108,
   -81, -51, -16, 21, 63, 107, 155] ++
  [206, 261, 318, 378, 440, 505, 572, 641, 710, 781, 853, 925, 996, 1068, 1138, 1207, 1275, 1340, 1403, 1463,
   1519, 1572, 1622, 1666, 1707, 1742, 1773, 1798, 1817, 1832, 1840, 1842]

/-- Coefficients of 0x0006: 383 taps up to the middle one. -/
def lib06 : List Int :=
  [0, 0, 0, 0, 0, 0, 0, 0, 0, 0, 0, 0, 0, 0, 1, 1, 1, 1, 1, 1, 1, 1, 1, 2, 2, 2, 2, 2, 2, 2, 2, 2, 2, 2, 3, 3,
   3, 3, 2, 2, 2, 2, 2, 2, 2, 1, 1, 1] ++
  [0, 0, -1, -1, -2, -2, -3, -4, -5, -6, -6, -7, -9, -10, -11, -12, -13, -15, -16, -18, -19, -21, -23, -24,
   -26, -28, -30, -32, -34, -36, -37, -39, -41, -43, -45, -47, -49, -51, -53, -54, -56, -58, -59, -61, -62,
   -63, -64, -65] ++
  [-66, -66, -67, -67, -67, -66, -66, -65, -64, -63, -61, -59, -57, -54, -51, -48, -44, -40, -35, -30, -25,
   -19, -13, -6, 1, 8, 16, 25, 34, 43, 53, 63, 74, 85, 97, 109, 122, 134, 148, 162, 176, 191, 206, 221, 237,
   253, 269, 286] ++
  [303, 320, 338, 355, 373, 391, 409, 428, 446, 465, 483, 501, 520, 538, 557, 575, 593, 610, 628, 645, 662,
   679, 696, 712, 727, 743, 757, 772, 785, 799, 811, 824, 835, 846, 856, 866, 874, 883, 890, 897, 903, 908,
   912, 916, 919, 921, 922, 924]

/-- Coefficients of 0x0011: 63 taps up to the middle one. -/
def lib11 : List Int :=
  [0, -1, 0, 6, 5, -16, -22, 27, 58, -28, -118, 0, 201, 80, -293, -241, 360, 506, -346, -881, 175, 1354, 256,
   -1886, -1098, 2414, 2654, -2865, -5965, 3169, 20517, 29492]

/-- Coefficients of 0x0012: 127 taps up to the middle one. -/
def lib12 : List Int :=
  [0, 0, 0, -1, -1, 0, 2, 4, 5, 3, -2, -10, -15, -13, -2, 15, 30, 32, 16, -15, -48, -64, -48, 0, 62, 107, 104,
   42, -59, -153, -187, -126, 19, 186, 290, 260, 83, -177, -397, -450, -271, 89, 476, 687, 573, 129, -475,
   -951] ++
  [-1018, -553, 315, 1213, 1670, 1331, 167, -1436, -2756, -2986, -1556, 1585, 5875, 10260, 13534, 14748]

/-- Coefficients of 0x0013: 255 taps up to the middle one. -/
def lib13 : List Int :=
  [0, 0, 0, 0, 0, 0, 0, 0, -1, -1, 0, 0, 0, 1, 2, 2, 3, 3, 3, 2, 1, -1, -3, -5, -7, -8, -8, -7, -4, -1, 3, 8,
   12, 16, 17, 17, 14, 8, 1, -8, -17, -25, -31, -33, -31, -25, -14, 0] ++
  [16, 32, 46, 55, 58, 53, 41, 22, -3, -30, -56, -78, -92, -95, -86, -64, -31, 9, 53, 95, 128, 147, 149, 132,
   95, 42, -22, -90, -152, -201, -228, -227, -196, -137, -54, 45, 147, 240, 310, 346, 340, 288, 194, 65, -85,
   -239, -376, -478] ++
  [-527, -511, -427, -277, -75, 158, 396, 608, 764, 836, 807, 667, 420, 84, -310, -718, -1093, -1379, -1527,
   -1494, -1249, -778, -89, 793, 1822, 2938, 4066, 5130, 6053, 6767, 7218, 7368]

/-- Coefficients of 0x0014: 383 taps up to the middle one. -/
def lib14 : List Int :=
  [0, 0, 0, 0, 0, 0, 0, 0, 0, 0, 0, 0, 0, 0, 0, 0, 0, -1, -1, -1, -1, -1, -2, -2, -2, -2, -2, -2, -1, -1, -1,
   0, 1, 1, 2, 3, 4, 4, 5, 6, 6, 6, 6, 6, 6, 5, 4, 3] ++
  [1, 0, -2, -4, -7, -9, -11, -13, -14, -15, -16, -17, -16, -16, -14, -12, -9, -6, -2, 2, 7, 11, 16, 21, 25,
   29, 32, 34, 36, 36, 35, 33, 29, 24, 18, 11, 3, -6, -15, -25, -34, -43, -52, -59, -64, -68, -70, -69] ++
  [-67, -61, -54, -44, -32, -17, -2, 15, 32, 50, 67, 83, 97, 109, 118, 124, 126, 124, 118, 107, 92, 73, 51,
   25, -3, -33, -64, -94, -124, -151, -175, -194, -209, -217, -219, -213, -201, -180, -153, -119, -78, -33,
   17, 69, 122, 175, 225, 271] ++
  [311, 344, 367, 380, 381, 370, 346, 308, 258, 196, 122, 39, -51, -146, -244, -342, -436, -523, -600, -664,
   -711, -739, -745, -726, -682, -610, -510, -382, -226, -44, 163, 392, 639, 903, 1177, 1459, 1742, 2023,
   2297, 2557, 2800, 3021, 3216, 3381, 3513, 3609, 3667, 3704]

/-- Coefficients of 0x0020: 31 taps up to the middle one. -/
def lib20 : List Int :=
  [0, 0, 27, 0, -146, 0, 465, 0, -1174, 0, 2628, 0, -5905, 0, 20489, 32768]

/-- Coefficients of 0x0021: 63 taps up to the middle one. -/
def lib21 : List Int :=
  [0, -1, -2, 0, 9, 20, 22, 0, -46, -89, -84, 0, 144, 260, 232, 0, -360, -625, -539, 0, 793, 1354, 1157, 0,
   -1710, -2984, -2654, 0, 4733, 10256, 14688, 16388]

/-- Coefficients of 0x0022: 127 taps up to the middle one. -/
def lib22 : List Int :=
  [0, 0, 0, 0, 0, -1, -1, -3, -4, -6, -9, -11, -15, -18, -21, -25, -27, -29, -30, -29, -26, -20, -12, 0, 15,
   33, 55, 81, 109, 139, 171, 203, 234, 263, 288, 306, 316, 316, 304, 278, 236, 176, 98, 0, -118, -256, -413,
   -588] ++
  [-780, -985, -1202, -1426, -1655, -1883, -2108, -2323, -2526, -2712, -2876, -3016, -3129, -3211, -3261,
   62268]

/-- A library filter: identity, log2 of its decimation, half of its coefficients. -/
structure LibFilter where
  id : Nat
  dLog : Nat
  half : List Int

/-- The library in ID order (06 R123). -/
def library : List LibFilter :=
  [⟨0x0000, 0, lib00⟩,
   ⟨0x0001, 1, lib01⟩,
   ⟨0x0002, 2, lib02⟩,
   ⟨0x0003, 3, lib03⟩,
   ⟨0x0004, 4, lib04⟩,
   ⟨0x0005, 5, lib05⟩,
   ⟨0x0006, 6, lib06⟩,
   ⟨0x0011, 1, lib11⟩,
   ⟨0x0012, 2, lib12⟩,
   ⟨0x0013, 3, lib13⟩,
   ⟨0x0014, 4, lib14⟩,
   ⟨0x0020, 0, lib20⟩,
   ⟨0x0021, 0, lib21⟩,
   ⟨0x0022, 0, lib22⟩]

/-- All coefficients, c[0] first. -/
def LibFilter.coefs (f : LibFilter) : List Int := f.half ++ (f.half.reverse.drop 1)

end Sys2Proof.Machine
end

