-- ==== Sys2Proof/Machine/Sepia.lean ====
section
/-! DEFINITION. Sepia (05): time surfaces, corner tests, flow fits, the tracker, the decay tick and the 0x06 commands. -/

namespace Sys2Proof.Machine

def State.modSepia (s : State) (f : Sepia → Sepia) : State := { s with sepia := f s.sepia }

abbrev sepElem (k : Nat) : Elem := ⟨2, k⟩

def State.surf (s : State) (k : Nat) : SurfDyn := s.sepia.surfaces.getD k SurfDyn.init

def State.setSurf (s : State) (k : Nat) (x : SurfDyn) : State :=
  s.modSepia fun p => { p with surfaces := p.surfaces.set k x }

def State.surfOwner (s : State) (k : Nat) : Nat := s.regN (R.SEP_Sn_OWNER k)
def State.surfEn (s : State) (k : Nat) : Bool := s.regBit (R.SEP_Sn_CFG k) 0
def State.surfShift (s : State) (k : Nat) : Nat := s.regFld (R.SEP_Sn_CFG k) 3 2
def State.surfRes (s : State) (k : Nat) : Nat := s.regFld (R.SEP_Sn_CFG k) 6 4
def State.surfW (s : State) (k : Nat) : Nat := s.regFld (R.SEP_Sn_SIZE k) 10 0 + 1
def State.surfH (s : State) (k : Nat) : Nat := s.regFld (R.SEP_Sn_SIZE k) 26 16 + 1

/-- Cells in a row and rows of a surface. -/
def cellsOf (n k : Nat) : Nat := (n + 2 ^ k - 1) / 2 ^ k
def State.surfCols (s : State) (k : Nat) : Nat := cellsOf (s.surfW k) (s.surfShift k)
def State.surfRows (s : State) (k : Nat) : Nat := cellsOf (s.surfH k) (s.surfShift k)

/-- Key of a cell of a plane. -/
def cellAt (plane cx cy : Nat) : Nat := plane * 4194304 + cy * 2048 + cx

/-- 05 R93: steady time in the units of a surface, modulo 32,768. -/
def surfUnits (t r : Nat) : Nat := t / (1000 * 2 ^ r) % 32768

/-- The age of a cell; 16,384 outside the surface, and for an empty cell. -/
def State.cellAge (s : State) (k plane : Nat) (cx cy : Int) : Nat :=
  if 0 ≤ cx ∧ cx < s.surfCols k ∧ 0 ≤ cy ∧ cy < s.surfRows k then
    match (s.surf k).cells.get? (cellAt plane cx.toNat cy.toNat) with
    | some e => Nat.min (mapAge (surfUnits s.now (s.surfRes k)) e) 16384
    | none => 16384
  else 16384

/-! ## Staging (05 R104) -/

/-- A record staged by Sepia; a full staging begins a stall. -/
def State.sepStall (s : State) : State :=
  if !s.sepia.stalled && 131072 ≤ s.stagedBytes .sepia then
    (s.modSepia fun p => { p with stalled := true }).assertSource 115
  else s

/-- SEPIA_STAGING_RESUME. -/
def workSepiaStagingResume (s : State) : Res :=
  .next (if s.sepia.stalled ∧ s.stagedBytes .sepia < 131072 then s.modSepia fun p => { p with stalled := false } else s)

/-! ## Marks of an event -/

/-- eflags of an entry (05 R102). -/
def PEv.eflags (e : PEv) : Nat :=
  b2n e.ev.pol + 2 * b2n (e.ev.flag 62) + 4 * b2n (e.ev.flag 63) + 8 * b2n e.extrap + 16 * b2n e.att

/-- Record flags that an event gives. -/
def PEv.recFlags (e : PEv) : Word :=
  flagIf (e.ev.flag 63) flHoldover ||| flagIf (e.ev.flag 62) flInputGap ||| flagIf e.extrap flAngleExtrap

/-- Source bits that an event gives. -/
def PEv.srcMask (e : PEv) : Word := srcPort e.ev.port ||| flagIf (e.frame = 2) srcEncoder ||| flagIf e.att srcImu

/-- A coordinate in cells, binary32: the worked case of 05 keeps the fraction. -/
def inCells (x k : Nat) : F32 := F.ofScaled (x : Int) (-(k : Int))

/-- A member that a surface offers (07 R131, R132). -/
def State.surfMember (s : State) (k kind : Nat) (key : Word) (fields : List Word) (e : PEv) (px py : F32) : Member :=
  { kind := kind, index := k, key := key, fields := fields, time := e.ev.stamp.steady, origin := e.ev.stamp.steady,
    stamp := e.ev.stamp, flags := e.recFlags, mask := e.srcMask, gen := s.elemGen (s.surfOwner k) (sepElem k),
    ctx := s.surfOwner k, surface := k, px := px, py := py, x := e.x, y := e.y, port := e.ev.port, frame := e.frame }

/-! ## Batches (05 R102) -/

/-- A gap opened on a port of a mask within a span. -/
def State.gapOpened (s : State) (mask : Word) (lo hi : Nat) : Bool :=
  (s.viridian.gaps.any fun g => g.src < 8 && srcPort g.src &&& mask ≠ 0 && lo ≤ g.first && g.first ≤ hi) ||
  ((List.range 8).any fun p => srcPort p &&& mask ≠ 0 &&
    (match (s.port p).gap with | some g => lo ≤ g.first.steady && g.first.steady ≤ hi | none => false))

/-- The record of an open batch; `flow` for FLOW_BATCH. -/
def State.emitBatch (s : State) (k : Nat) (flow : Bool) (b : Batch) : State :=
  let x := s.surf k
  let seq := if flow then x.flowSeq else x.cornerSeq
  let skipped := if flow then x.flowSkipped else x.cornerSkipped
  let tests := if flow then x.rejects else x.tests
  let body := leBytes 1 k ++ leBytes 1 (s.surfShift k) ++ leBytes 2 b.count ++ leBytes 4 seq.toNat ++
    leBytes 8 b.first.steady ++ leBytes 4 skipped ++ leBytes 4 tests ++ b.entries
  (s.emit .sepia (some (s.surfOwner k)) (if flow then 0x0011 else 0x0010) b.first b.oldest
    (b.flags ||| flagIf (s.gapOpened (b.mask &&& 0xFF) b.first.steady s.now) flInputGap) b.mask
    (s.elemGen (s.surfOwner k) (sepElem k)) body).sepStall

/-- The open batch of a surface closes. -/
def State.closeBatch (s : State) (k : Nat) (flow : Bool) : State :=
  let x := s.surf k
  match (if flow then x.flow else x.corner) with
  | none => s
  | some b =>
    let y := if flow then { x with flow := none, flowSeq := x.flowSeq + 1, flowSkipped := 0, rejects := 0 }
      else { x with corner := none, cornerSeq := x.cornerSeq + 1, cornerSkipped := 0, tests := 0 }
    (s.emitBatch k flow b).setSurf k y

/-- An entry into the open batch of a surface. -/
def State.batchAdd (s : State) (k : Nat) (flow : Bool) (e : PEv) (entry : Bytes) (max : Nat) : State :=
  let st := e.ev.stamp
  let s1 := match (if flow then (s.surf k).flow else (s.surf k).corner) with
    | some b => if b.first.epoch ≠ st.epoch then s.closeBatch k flow else s
    | none => s
  let x := s1.surf k
  let b := match (if flow then x.flow else x.corner) with
    | some b => { b with
        oldest := Nat.min b.oldest st.steady, flags := b.flags ||| e.recFlags, mask := b.mask ||| e.srcMask,
        count := b.count + 1, entries := b.entries ++ entry }
    | none => ⟨st, st.steady, e.recFlags, e.srcMask, 1, entry⟩
  let s2 := s1.setSurf k (if flow then { x with flow := some b } else { x with corner := some b })
  if max ≤ b.count then s2.closeBatch k flow else s2

/-! ## The tracker (05 R99 to R101) -/

abbrev tTentative : Nat := 0
abbrev tConfirmed : Nat := 1
abbrev tCoasting : Nat := 2
abbrev tEnded : Nat := 3

/-- 1e-9f and 1e6f. -/
abbrev nano : F32 := 0x3089705F
abbrev mega : F32 := 0x49742400

/-- dt of a track to a time. -/
def Track.dt (t : Track) (now : Nat) : F32 := F.mul (F.ofInt ((now : Int) - t.last.steady)) nano

/-- The position predicted to a time. -/
def Track.pred (t : Track) (now : Nat) : F32 × F32 :=
  let d := t.dt now
  (F.add t.x (F.mul t.vx d), F.add t.y (F.mul t.vy d))

/-- Squared distance. -/
def dist2 (a b : F32 × F32) : F32 :=
  let dx := F.sub a.1 b.1
  let dy := F.sub a.2 b.2
  F.add (F.mul dx dx) (F.mul dy dy)

/-- Tracks of a surface that can take a measurement: TENTATIVE, CONFIRMED or COASTING (05 R100). -/
def State.liveTracks (s : State) (k : Nat) : List (Nat × Track) :=
  s.sepia.tracks.filter fun e => e.2.surface = k && e.2.state ≠ tEnded

/-- The nearest of candidates within a squared gate; ties go to the lower slot. -/
def nearest (z : F32 × F32) (now : Nat) (gate2 : F32) : List (Nat × Track) → Option (Nat × Track × F32)
  | [] => none
  | (i, t) :: l =>
    let d := dist2 (t.pred now) z
    let r := nearest z now gate2 l
    if F.le d gate2 then
      match r with
      | some (j, u, e) => if F.lt e d then some (j, u, e) else some (i, t, d)
      | none => some (i, t, d)
    else r

def State.setTrack (s : State) (i : Nat) (t : Track) : State :=
  s.modSepia fun p => { p with tracks := p.tracks.set i t }

/-- Q0.16 as binary32. -/
def q16 (n : Nat) : F32 := F.ofScaled (n : Int) (-16)

/-- A measurement put into a track: position, velocity, one more hit for a corner. -/
def State.measure (s : State) (k i : Nat) (t : Track) (e : PEv) (x y vx vy : F32) (corner : Bool) : State :=
  let hits := if corner then Nat.min (t.hits + 1) 0xFFFFFFFF else t.hits
  let st := if t.state = tCoasting then tConfirmed
    else if t.state = tTentative ∧ s.regFld (R.SEP_Sn_TRK k) 7 4 ≤ hits then tConfirmed else t.state
  let u := { t with
    x := x, y := y, vx := vx, vy := vy, hits := hits, state := st, last := e.ev.stamp, ticks := 0, measured := true,
    flags := t.flags ||| e.recFlags, mask := t.mask ||| e.srcMask }
  let speed := F.sqrt (F.add (F.mul vx vx) (F.mul vy vy))
  (s.setTrack i u).offerMember
    (s.surfMember k 3 u.id [speed, x, y, vx, vy, F.ofNat hits] e x y)

/-- The lowest free track slot. -/
def freeSlot (m : AMap Track) : Nat → Nat → Option Nat
  | 0, _ => none
  | n + 1, i => if (m.get? i).isSome then freeSlot m n (i + 1) else some i

/-- A corner at `z` in cells: associated, or a new TENTATIVE track; with it the identity of its track. -/
def State.trackCorner (s : State) (k : Nat) (e : PEv) (z : F32 × F32) : State × Word :=
  if !s.regBit (R.SEP_Sn_TRK k) 0 then (s, 0xFFFFFFFF)
  else
    let g := s.reg (R.SEP_Sn_TRK_GATE k)
    let now := e.ev.stamp.steady
    match nearest z now (F.mul g g) (s.liveTracks k) with
    | some (i, t, _) =>
      let p := t.pred now
      let a := q16 (s.regFld (R.SEP_Sn_TRK_AB k) 15 0)
      let b := q16 (s.regFld (R.SEP_Sn_TRK_AB k) 31 16)
      let ex := F.sub z.1 p.1
      let ey := F.sub z.2 p.2
      let d := t.dt now
      let up := fun v r => if F.lt 0 d then F.add v (F.div (F.mul b r) d) else v
      (s.measure k i t e (F.add p.1 (F.mul a ex)) (F.add p.2 (F.mul a ey)) (up t.vx ex) (up t.vy ey) true, t.id)
    | none =>
      let used := (s.sepia.tracks.filter fun q => q.2.surface = k).length
      match (if used < s.regN (R.SEP_Sn_TRK_QUOTA k) then freeSlot s.sepia.tracks 4096 0 else none) with
      | some i =>
        let id := s.reg R.SEP_TRK_NEXT_ID
        let nid := if id + 1 = 0xFFFFFFFF then 0 else id + 1
        let t : Track :=
          { id := id, surface := k, state := tTentative, reason := 0, x := z.1, y := z.2, vx := 0, vy := 0,
            last := e.ev.stamp, hits := 0, ticks := 0, age := 0, measured := true, created := now, flags := 0, mask := 0 }
        (((s.setReg R.SEP_TRK_NEXT_ID nid).bumpSat (R.SEP_Sn_TRK_CREATED k)).measure k i t e z.1 z.2 0 0 true, id)
      | none => ((s.bumpSat R.SEP_TRK_FULL).assertSource 114, 0xFFFFFFFF)

/-- An accepted flow vector: the nearest track takes it, or it is discarded. -/
def State.trackFlow (s : State) (k : Nat) (e : PEv) (z : F32 × F32) (vx vy : F32) : State :=
  if !s.regBit (R.SEP_Sn_TRK k) 0 then s
  else
    let g := s.reg (R.SEP_Sn_TRK_GATE k)
    let now := e.ev.stamp.steady
    match nearest z now (F.mul g g) (s.liveTracks k) with
    | some (i, t, _) =>
      let p := t.pred now
      let c := q16 (s.regN (R.SEP_Sn_TRK_GAMMA k))
      s.measure k i t e p.1 p.2 (F.add t.vx (F.mul c (F.sub vx t.vx))) (F.add t.vy (F.mul c (F.sub vy t.vy))) false
    | none => s

/-! ## Surfaces and candidates (05 R91 to R95) -/

/-- A candidate offered to a queue of 1,024; a full queue skips it. -/
def State.enqueue (s : State) (k : Nat) (flow : Bool) (e : PEv) : State :=
  let q := if flow then s.sepia.flowQ else s.sepia.cornerQ
  if q.length < 1024 then
    s.modSepia fun p =>
      if flow then { p with flowQ := p.flowQ ++ [⟨k, e⟩] } else { p with cornerQ := p.cornerQ ++ [⟨k, e⟩] }
  else
    let a := if flow then R.SEP_FLOW_SKIP else R.SEP_CORNER_SKIP
    let x := s.surf k
    let y := if flow then { x with flowSkipped := x.flowSkipped + 1 } else { x with cornerSkipped := x.cornerSkipped + 1 }
    ((s.assertSourceIf (s.reg a = 0) (if flow then 113 else 112)).bumpSat a).setSurf k y

/-- An event used by one surface. -/
def State.surfUse (s : State) (k : Nat) (e : PEv) : State :=
  if !(s.surfEn k && s.regBit (R.SEP_Sn_CFG k) (16 + e.ev.port) && s.portOwner e.ev.port = s.surfOwner k) then s
  else if e.frame ≠ (s.surf k).frame then s.bumpSat (R.SEP_Sn_SKIPFRAME k)
  else if s.surfW k ≤ e.x ∨ s.surfH k ≤ e.y then s.bumpSat (R.SEP_Sn_SKIPRANGE k)
  else
    let x := s.surf k
    let plane := if s.regBit (R.SEP_Sn_CFG k) 1 then b2n e.ev.pol else 0
    let n := s.surfShift k
    let t := (s.bump (R.SEP_Sn_EVENTS k)).setSurf k { x with
      cells := x.cells.set (cellAt plane (e.x / 2 ^ n) (e.y / 2 ^ n)) (surfUnits e.ev.stamp.steady (s.surfRes k)),
      used := x.used + 1 }
    if (x.used + 1) % 2 ^ s.regFld (R.SEP_Sn_CFG k) 10 8 ≠ 0 then t
    else
      let u := if s.regBit (R.SEP_Sn_CORNER k) 0 then t.enqueue k false e else t
      if s.regBit (R.SEP_Sn_FLOW k) 0 then u.enqueue k true e else u

/-- SURFACE_UPDATE: the event at the front of what Cobalt passed on. -/
def workSurfaceUpdate (s : State) : Res :=
  .next (match s.sepia.inq with
    | [] => s
    | e :: es => forEach (List.range 16) (fun k t => t.surfUse k e) (s.modSepia fun p => { p with inq := es }))

/-- SURFACE_SCRUB. -/
def workSurfaceScrub (surface : Nat) (s : State) : Res :=
  let x := s.surf surface
  let now := surfUnits s.now (s.surfRes surface)
  .next (s.setSurf surface { x with cells := x.cells.filter fun c => mapAge now c.2 < 16384 })

/-! ## Corners (05 R97) -/

def ring1 : List (Int × Int) :=
  [(0, -3), (1, -3), (2, -2), (3, -1), (3, 0), (3, 1), (2, 2), (1, 3), (0, 3), (-1, 3), (-2, 2), (-3, 1), (-3, 0),
   (-3, -1), (-2, -2), (-1, -3)]

def ring2 : List (Int × Int) :=
  [(0, -4), (1, -4), (2, -3), (3, -2), (4, -1), (4, 0), (4, 1), (3, 2), (2, 3), (1, 4), (0, 4), (-1, 4), (-2, 3),
   (-3, 2), (-4, 1), (-4, 0), (-4, -1), (-3, -2), (-2, -3), (-1, -4)]

/-- Some cyclic run of `l` ages has its largest strictly below the smallest of the others. -/
def arcPasses (ages : List Nat) (l : Nat) : Bool :=
  (List.range ages.length).any fun i =>
    let r := ages.drop i ++ ages.take i
    (r.take l).foldl Nat.max 0 < (r.drop l).foldl Nat.min 65536

/-- The smallest passing length from `lo`, of `n` lengths. -/
def arcOf (ages : List Nat) : Nat → Nat → Option Nat
  | 0, _ => none
  | n + 1, l => if arcPasses ages l then some l else arcOf ages n (l + 1)

/-- The plane and the cell of an event in a surface. -/
def State.cellOf (s : State) (k : Nat) (e : PEv) : Nat × Nat × Nat :=
  (if s.regBit (R.SEP_Sn_CFG k) 1 then b2n e.ev.pol else 0, e.x / 2 ^ s.surfShift k, e.y / 2 ^ s.surfShift k)

/-- The ages on a ring around a cell. -/
def State.ringAges (s : State) (k : Nat) (c : Nat × Nat × Nat) (r : List (Int × Int)) : List Nat :=
  r.map fun d => s.cellAge k c.1 (c.2.1 + d.1) (c.2.2 + d.2)

/-- The corner decision: arc1 and arc2, arc2 zero with ring 2 off. -/
def State.cornerArcs (s : State) (k : Nat) (e : PEv) : Option (Nat × Nat) :=
  let w := s.reg (R.SEP_Sn_CORNER k)
  let c := s.cellOf k e
  match arcOf (s.ringAges k c ring1) (fld w 11 8 + 1 - fld w 7 4) (fld w 7 4) with
  | none => none
  | some a =>
    if bit w 1 then
      match arcOf (s.ringAges k c ring2) (fld w 21 17 + 1 - fld w 16 12) (fld w 16 12) with
      | some b => some (a, b)
      | none => none
    else some (a, 0)

/-! ## Flow (05 R98) -/

/-- Cells of the fit: dx, dy and dt. -/
def State.flowCells (s : State) (k : Nat) (e : PEv) : List (F32 × F32 × F32) :=
  let w := s.reg (R.SEP_Sn_FLOW k)
  let c := s.cellOf k e
  let n := fld w 3 2
  let off := List.range (2 * n + 1)
  off.flatMap fun j => off.filterMap fun i =>
    let dx : Int := (i : Int) - n
    let dy : Int := (j : Int) - n
    let a := s.cellAge k c.1 (c.2.1 + dx) (c.2.2 + dy)
    if (a < 16384 ∧ a ≤ fld w 23 10) ∨ (dx = 0 ∧ dy = 0) then
      some (F.ofInt dx, F.ofInt dy, F.ofInt (-((a % 16384 * 2 ^ s.surfRes k : Nat) : Int)))
    else none

/-- The fit: speeds, residual and number of cells; none where it is rejected. -/
def flowFit (cells : List (F32 × F32 × F32)) (minPts : Nat) (maxRes maxSpd : F32) : Option (F32 × F32 × F32 × Nat) :=
  let m := cells.length
  if m < minPts then none
  else
    let n := F.ofNat m
    let mean := fun (f : F32 × F32 × F32 → F32) => F.div (F.sum (cells.map f)) n
    let mx := mean fun c => c.1
    let my := mean fun c => c.2.1
    let mt := mean fun c => c.2.2
    let d := cells.map fun c => (F.sub c.1 mx, F.sub c.2.1 my, F.sub c.2.2 mt)
    let tot := fun (f : F32 × F32 × F32 → F32) => F.sum (d.map f)
    let cxx := tot fun c => F.mul c.1 c.1
    let cxy := tot fun c => F.mul c.1 c.2.1
    let cyy := tot fun c => F.mul c.2.1 c.2.1
    let cxt := tot fun c => F.mul c.1 c.2.2
    let cyt := tot fun c => F.mul c.2.1 c.2.2
    let det := F.sub (F.mul cxx cyy) (F.mul cxy cxy)
    if F.isZero det then none
    else
      let a := F.div (F.sub (F.mul cyy cxt) (F.mul cxy cyt)) det
      let b := F.div (F.sub (F.mul cxx cyt) (F.mul cxy cxt)) det
      let g2 := F.add (F.mul a a) (F.mul b b)
      if F.isZero g2 then none
      else
        let vx := F.mul (F.div a g2) mega
        let vy := F.mul (F.div b g2) mega
        let sq := fun x => F.mul x x
        let res := F.sqrt (F.div (tot fun c => sq (F.sub (F.sub c.2.2 (F.mul a c.1)) (F.mul b c.2.1))) n)
        if F.lt maxRes res then none
        else if F.lt maxSpd (F.sqrt (F.add (F.mul vx vx) (F.mul vy vy))) then none
        else some (vx, vy, res, m)

/-! ## Measurements (05 R100, R107) -/

/-- A measurement applied: the tracker takes it, Viridian gets it, and with emission on it enters its batch. -/
def State.applyMeas (s : State) : Meas → State
  | .corner k e a b =>
    let c := s.cellOf k e
    let z := (inCells e.x (s.surfShift k), inCells e.y (s.surfShift k))
    let r := s.trackCorner k e z
    let t := r.1.offerMember (r.1.surfMember k 1 r.2 [F.one] e z.1 z.2)
    if s.regBit (R.SEP_Sn_CORNER k) 2 then
      t.batchAdd k false e (leBytes 4 e.ev.stamp.ts32.toNat ++ leBytes 2 c.2.1 ++ leBytes 2 c.2.2 ++ leBytes 1 a ++
        leBytes 1 b ++ leBytes 1 e.eflags ++ leBytes 1 e.ev.port ++ leBytes 4 r.2.toNat)
        (s.regFld (R.SEP_Sn_CORNER k) 31 20)
    else t
  | .flow k e vx vy res m =>
    let c := s.cellOf k e
    let z := (inCells e.x (s.surfShift k), inCells e.y (s.surfShift k))
    let r := s.trackFlow k e z vx vy
    let t := r.offerMember (r.surfMember k 2 0 [F.sqrt (F.add (F.mul vx vx) (F.mul vy vy)), vx, vy] e z.1 z.2)
    if s.regBit (R.SEP_Sn_FLOW k) 1 then
      t.batchAdd k true e (leBytes 4 e.ev.stamp.ts32.toNat ++ leBytes 2 c.2.1 ++ leBytes 2 c.2.2 ++ leBytes 4 vx.toNat ++
        leBytes 4 vy.toNat ++ leBytes 4 res.toNat ++ leBytes 1 m ++ leBytes 1 e.eflags ++ leBytes 1 e.ev.port ++ leBytes 1 0)
        (s.regFld (R.SEP_Sn_FLOW_BATCH k) 11 0)
    else t

def Meas.surface : Meas → Nat
  | .corner k _ _ _ => k
  | .flow k _ _ _ _ _ => k

/-- The last multiple of tick_us that steady time has crossed. -/
def State.tickAt (s : State) : Nat := s.now / (s.regN R.SEP_TICK_US * 1000) * (s.regN R.SEP_TICK_US * 1000)

/-- A decay tick has fallen and its housekeeping has not ended. -/
def State.housekeeping (s : State) : Bool := s.domUp dSEP && s.regN R.SEP_TICK_US ≠ 0 && s.sepia.lastTick < s.tickAt

/-- A measurement decided: one that arrives during housekeeping waits in order (05 R107). -/
def State.measured (s : State) (m : Meas) : State :=
  if s.housekeeping then s.modSepia fun p => { p with held := p.held ++ [m] } else s.applyMeas m

/-- The measurements that waited for housekeeping, in order; those of a surface no longer enabled are lost with it. -/
def State.releaseHeld (s : State) : State :=
  s.sepia.held.foldl (fun t m => if t.surfEn m.surface then t.applyMeas m else t) (s.modSepia fun p => { p with held := [] })

/-- A candidate of the corner queue tested. -/
def State.testCorner (s : State) (c : Cand) : State :=
  let k := c.surface
  if !s.surfEn k then s
  else
    let t := s.setSurf k { s.surf k with tests := (s.surf k).tests + 1 }
    match t.cornerArcs k c.pev with
    | none => t
    | some (a, b) => (t.bumpSat (R.SEP_Sn_CORNERS k)).measured (.corner k c.pev a b)

/-- CORNER_TEST. -/
def workCornerTest (s : State) : Res :=
  .next (match s.sepia.cornerQ with
    | [] => s
    | c :: q => (s.modSepia fun p => { p with cornerQ := q }).testCorner c)

/-- A candidate of the flow queue fitted. -/
def State.fitFlow (s : State) (c : Cand) : State :=
  let k := c.surface
  if !s.surfEn k then s
  else
    match flowFit (s.flowCells k c.pev) (s.regFld (R.SEP_Sn_FLOW k) 9 4) (s.reg (R.SEP_Sn_FLOW_MAXRES k))
        (s.reg (R.SEP_Sn_FLOW_MAXSPD k)) with
    | none => (s.setSurf k { s.surf k with rejects := (s.surf k).rejects + 1 }).bumpSat (R.SEP_Sn_FLOW_REJ k)
    | some (vx, vy, res, m) => (s.bumpSat (R.SEP_Sn_FLOWS k)).measured (.flow k c.pev vx vy res m)

/-- FLOW_FIT. -/
def workFlowFit (s : State) : Res :=
  .next (match s.sepia.flowQ with
    | [] => s
    | c :: q => (s.modSepia fun p => { p with flowQ := q }).fitFlow c)

/-! ## Housekeeping and reports (05 R96, R101, R103) -/

/-- A track ends. -/
def Track.end' (t : Track) (reason : Nat) : Track := { t with state := tEnded, reason := reason }

/-- 05 R101 steps 1 to 3 on one track, and a RECONFIGURED end that was due. -/
def State.ageTrack (s : State) (t : Track) : Track :=
  let w := s.reg (R.SEP_Sn_TRK t.surface)
  let u := { t with age := t.age + 1, ticks := if t.measured then t.ticks else t.ticks + 1, measured := false }
  if t.state ≠ tEnded ∧ t.reason ≠ 0 then { u with state := tEnded }
  else if t.state = tTentative ∧ fld w 15 8 ≤ u.age then u.end' 3
  else
    let v := if t.state = tConfirmed ∧ !t.measured then { u with state := tCoasting } else u
    if v.state = tCoasting ∧ fld w 23 16 ≤ v.ticks then v.end' 1 else v

/-- Identity `a` is later than `b`. -/
def laterId (a b : Word) : Bool := 1 ≤ (a - b).toNat && (a - b).toNat < 0x80000000

/-- 05 R101 step 4 for one pair of slots. -/
def State.mergePair (s : State) (at' i j : Nat) : State :=
  match s.sepia.tracks.get? i, s.sepia.tracks.get? j with
  | some a, some b =>
    let m := s.reg (R.SEP_Sn_TRK_MERGE a.surface)
    let ok := fun (t : Track) => t.state = tConfirmed || t.state = tCoasting
    if ok a && ok b && a.surface = b.surface && !F.isZero m && F.le (dist2 (a.pred at') (b.pred at')) (F.mul m m) then
      if laterId a.id b.id then s.setTrack i (a.end' 2) else s.setTrack j (b.end' 2)
    else s
  | _, _ => s

/-- Pairs of a list, in ascending order of the first. -/
def pairsOf : List Nat → List (Nat × Nat)
  | [] => []
  | a :: l => (l.map fun b => (a, b)) ++ pairsOf l

/-- An entry of a TRACK_UPDATE (05 R103), with the position predicted to a time. -/
def Track.entry (t : Track) (slot : Nat) (p : F32 × F32) : Bytes :=
  leBytes 4 t.id.toNat ++ leBytes 2 slot ++ leBytes 1 t.state ++ leBytes 1 (if t.state = tEnded then t.reason else 0) ++
  leBytes 4 p.1.toNat ++ leBytes 4 p.2.toNat ++ leBytes 4 t.vx.toNat ++ leBytes 4 t.vy.toNat ++ leBytes 4 t.hits ++
  leBytes 2 t.ticks ++ leBytes 2 0 ++ leBytes 8 t.last.steady

/-- Pieces of at most `n`. -/
def chunks {α : Type} (n : Nat) : Nat → List α → List (List α)
  | 0, _ => []
  | f + 1, l => if l.isEmpty then [] else l.take n :: chunks n f (l.drop n)

/-- TRACK_UPDATE records of a surface at a tick, for the tracks listed. -/
def State.report (s : State) (k : Nat) (t : Stamp) (l : List (Nat × Track)) : State :=
  let parts := chunks 1636 4 l
  let all := s.sepia.tracks.filter fun e => e.2.surface = k
  let act := (all.filter fun e => e.2.state ≠ tEnded).length
  let conf := (all.filter fun e => e.2.state = tConfirmed || e.2.state = tCoasting).length
  let x := s.surf k
  let mixed := x.firstTick && l.any fun e => e.2.created < x.applied
  let one := fun (i : Nat) (p : List (Nat × Track)) (s : State) =>
    let body := leBytes 1 k ++ leBytes 1 (s.surfShift k) ++ leBytes 2 p.length ++ leBytes 4 (s.regN R.SEP_TICK_SEQ) ++
      leBytes 8 t.steady ++ leBytes 2 act ++ leBytes 2 conf ++ leBytes 1 i ++ leBytes 1 (b2n (i + 1 = parts.length)) ++
      leBytes 2 0 ++ p.flatMap fun e => e.2.entry e.1 (e.2.pred t.steady)
    let fl := p.foldl (fun (f : Word) e => f ||| e.2.flags) 0
    (s.emit .sepia (some (s.surfOwner k)) 0x0012 t ((p.foldl (fun n e => Nat.min n e.2.last.steady) t.steady : Nat) : Int)
      (fl ||| flagIf (p.any fun e => e.2.last.epoch ≠ t.epoch) flEpochCross ||| flagIf mixed flMixedGen)
      (p.foldl (fun (f : Word) e => f ||| e.2.mask) 0) (s.elemGen (s.surfOwner k) (sepElem k)) body).sepStall
  if parts.isEmpty then s
  else ((List.range parts.length).foldl (fun s i => one i (nth parts i []) s) s).assertSource (96 + k)

/-- What a surface reports at a tick. -/
def State.reported (s : State) (k : Nat) : List (Nat × Track) :=
  s.sepia.tracks.filter fun e => e.2.surface = k &&
    (e.2.state ≠ tTentative || s.regBit (R.SEP_Sn_TRK k) 2)

/-- Sepia's tracks freed where a condition holds, each counted in SEP_Sn_TRK_ENDED. -/
def State.freeTracks (s : State) (p : Track → Bool) : State :=
  (s.sepia.tracks.filter fun e => p e.2).foldl (fun t e => t.bumpSat (R.SEP_Sn_TRK_ENDED e.2.surface))
    (s.modSepia fun x => { x with tracks := x.tracks.filter fun e => !p e.2 })

/-- Tracks of a surface to end with reason RECONFIGURED at the next tick. -/
def State.endAll (s : State) (k : Nat) : State :=
  s.modSepia fun p => { p with
    tracks := p.tracks.map fun e =>
      if e.2.surface = k && e.2.state ≠ tEnded then (e.1, { e.2 with reason := 4 }) else e }

/-! ## Applying configuration (05 R96 step 4) -/

/-- Pages of 05 R92. -/
def pagesOf (w h k split : Nat) : Nat := (cellsOf w k * cellsOf h k * 2 * (split + 1) + 65535) / 65536

/-- SEP_PAGES_FREE. -/
def State.freePages (s : State) : State :=
  s.setReg R.SEP_PAGES_FREE (w32 (184 - (List.range 16).foldl (fun n k => n + s.regN (R.SEP_Sn_PAGES k)) 0))

/-- The lowest port of a mask. -/
def lowestPort (m : Nat) : Nat := ((List.range 8).find? fun p => m.testBit p).getD 0

/-- FEAT_SET_SURFACE at its apply point, with the frame that its lowest port has when the surface is configured. -/
def applySurface (b : Bytes) (ctx frame : Nat) (s : State) : State :=
  let k := u8 b 0
  if u8 b 1 = 0 then
    let t := (s.endAll k).resetRegs (R.SEP_Sn_CFG k) (R.SEP_Sn_PAGES k + 4)
    let t := (t.setReg (R.SEP_Sn_TRK_QUOTA k) 0).setRegFld R.SEP_CTRL k k 0
    (t.setSurf k SurfDyn.init).freePages
  else
    let cfg := w32 (1 + u8 b 3 * 2 + u8 b 4 * 4 + u8 b 5 * 16 + u8 b 6 * 0x100 + u8 b 2 * 0x10000)
    let size := w32 (u16 b 8 - 1 + (u16 b 0x0A - 1) * 0x10000)
    let geom := cfg &&& 0xFF007F ≠ s.reg (R.SEP_Sn_CFG k) &&& 0xFF007F ∨ size ≠ s.reg (R.SEP_Sn_SIZE k)
    let t := (s.setReg (R.SEP_Sn_CFG k) cfg).setReg (R.SEP_Sn_SIZE k) size
    let t := (t.setReg (R.SEP_Sn_OWNER k) (w32 ctx)).setReg (R.SEP_Sn_PAGES k)
      (w32 (pagesOf (u16 b 8) (u16 b 0x0A) (u8 b 4) (u8 b 3)))
    let t := (t.setReg (R.SEP_Sn_TRK_QUOTA k) (w32 (u16 b 0x0C))).setRegFld R.SEP_CTRL k k 1
    let x := t.surf k
    let y := { x with used := 0, cornerSeq := 0, flowSeq := 0, frame := frame }
    let t := if geom then ((t.endAll k).setSurf k { y with cells := [] }).assertSourceIf (s.surfEn k) 117
      else t.setSurf k y
    t.freePages

/-- FEAT_SET_TRACKER at its apply point; with enable 0 every track ends with reason RECONFIGURED. -/
def applyTracker (b : Bytes) (s : State) : State :=
  let k := u8 b 0
  let t := s.setReg (R.SEP_Sn_TRK k)
    (w32 (u8 b 1 + u8 b 2 * 2 + u8 b 3 * 4 + u8 b 0x12 * 16 + u8 b 0x13 * 0x100 + u8 b 0x14 * 0x10000))
  let t := (t.setReg (R.SEP_Sn_TRK_GATE k) (w32 (u32 b 4))).setReg (R.SEP_Sn_TRK_MERGE k) (w32 (u32 b 8))
  let t := (t.setReg (R.SEP_Sn_TRK_AB k) (w32 (u32 b 0x0C))).setReg (R.SEP_Sn_TRK_GAMMA k) (w32 (u16 b 0x10))
  if u8 b 1 = 0 then t.endAll k else t

/-- A generation-bearing 0x06 command applied. -/
def applySepia (c : GCmd) (s : State) : State :=
  let b := c.block
  let k := u8 b 0
  if c.opcode = 0x0601 then applySurface b c.ctx c.handle s
  else if c.opcode = 0x0602 then
    s.setReg (R.SEP_Sn_CORNER k) (w32 (u8 b 1 + u8 b 3 * 2 + u8 b 2 * 4 + u8 b 4 * 16 + u8 b 5 * 0x100 +
      u8 b 6 * 0x1000 + u8 b 7 * 0x20000 + u16 b 8 * 0x100000))
  else if c.opcode = 0x0603 then
    let t := s.setReg (R.SEP_Sn_FLOW k) (w32 (u8 b 1 + u8 b 2 * 2 + u8 b 3 * 4 + u8 b 4 * 16 + u16 b 6 * 0x400))
    ((t.setReg (R.SEP_Sn_FLOW_MAXRES k) (w32 (u32 b 8))).setReg (R.SEP_Sn_FLOW_MAXSPD k) (w32 (u32 b 0x0C))).setReg
      (R.SEP_Sn_FLOW_BATCH k) (w32 (u16 b 0x10))
  else if c.opcode = 0x0604 then applyTracker b s
  else s

/-- An armed surface applies, and its next tick is the first after it. -/
def State.sepApply (s : State) (k : Nat) : State :=
  match s.armedAt (sepElem k) with
  | some _ =>
    let t := s.applyElem (sepElem k) applySepia
    t.setSurf k { t.surf k with applied := s.now, firstTick := true }
  | none => s

/-! ## The decay tick (05 R96) -/

/-- The tick of steady time `T`, at stamp `t`: all of it is housekeeping, and the measurements that arrived since the tick
fell follow it (05 R107). -/
def State.decayTick (s : State) (t : Stamp) : State :=
  -- 1. batches
  let s1 := forEach (List.range 16) (fun k u => (u.closeBatch k false).closeBatch k true)
    (s.modSepia fun p => { p with lastTick := t.steady })
  -- 2. housekeeping and reports
  let s2 := (s1.bump R.SEP_TICK_SEQ).modSepia fun p => { p with tracks := p.tracks.map fun e => (e.1, s.ageTrack e.2) }
  let s3 := (pairsOf (s2.sepia.tracks.map fun e => e.1)).foldl (fun u p => u.mergePair t.steady p.1 p.2) s2
  let s4 := forEach (List.range 16) (fun k u =>
    let r := if u.surfEn k && u.regBit (R.SEP_Sn_TRK k) 1 then u.report k t (u.reported k) else u
    r.setSurf k { r.surf k with firstTick := false }) s3
  -- 3. slots freed
  let s5 := (s4.freeTracks fun x => x.state = tEnded).modSepia fun p => { p with
    tracks := p.tracks.map fun e => (e.1, { e.2 with flags := 0, mask := 0 }) }
  -- 4. staged configuration
  let s6 := match s5.sepia.tickNext with
    | some w => (s5.setReg R.SEP_TICK_US w).modSepia fun p => { p with tickNext := none }
    | none => s5
  -- 5. source 116
  ((forEach (List.range 16) (fun k u => u.sepApply k) s6).assertSource 116).releaseHeld

/-- DECAY_TICK: steady time has crossed a multiple of tick_us. -/
def workDecayTick (s : State) : Res :=
  .next (if s.housekeeping then s.decayTick (s.tickStamp.shift (-((s.now - s.tickAt : Nat) : Int))) else s)

/-! ## Power-down and the switch of a quiesce -/

/-- Events already accepted finish their updates and tests, and measurements are applied. -/
def State.sepDrain (s : State) : State :=
  let t := s.sepia.inq.foldl (fun t e => forEach (List.range 16) (fun k u => u.surfUse k e) t)
    (s.modSepia fun p => { p with inq := [] })
  let t := t.sepia.cornerQ.foldl (fun t c => t.testCorner c) (t.modSepia fun p => { p with cornerQ := [] })
  (t.sepia.flowQ.foldl (fun t c => t.fitFlow c) (t.modSepia fun p => { p with flowQ := [] })).releaseHeld

/-- 05 Power-down of SEP: accepted events finish, batches close and every live track is reported ENDED with reason
POWER_DOWN. -/
def State.sepDown (s : State) : State :=
  let s1 := forEach (List.range 16) (fun k u => (u.closeBatch k false).closeBatch k true) s.sepDrain
  let s2 := s1.modSepia fun p => { p with
    tracks := p.tracks.map fun e => (e.1, if e.2.state = tEnded then e.2 else e.2.end' 5) }
  let s3 := forEach (List.range 16) (fun k u =>
    if u.surfEn k && u.regBit (R.SEP_Sn_TRK k) 1 then
      u.report k s.tickStamp (u.sepia.tracks.filter fun e => e.2.surface = k) else u) s2
  let s4 := s3.freeTracks fun _ => true
  s4.modSepia fun p => { p with
    inq := [], cornerQ := [], flowQ := [], surfaces := p.surfaces.map fun e => (e.1, { e.2 with cells := [] }) }

/-- 12 R241 step 3: a surface of a context clears and its live tracks end with reason RECONFIGURED. -/
def State.sepSwitch (s : State) (k : Nat) : State :=
  (s.endAll k).setSurf k { s.surf k with cells := [], applied := s.now, firstTick := false }

/-! ## Command pages -/

/-- A surface: range, not held by another context, domain. -/
def surfAccess (k ctx : Nat) (s : State) : Check :=
  allOf [inRange k 0 15 0, need (s.surfOwner k = noOwner || s.surfOwner k = ctx) noPermission, s.reach dSEP]

/-- FEAT_SET_SURFACE. Port ownership is asked for when the surface is enabled (log entry 19). -/
def surfacePage : GPage :=
  { GPage.plain 0x0601 (fun c _ => sepElem (u8 c.block 0))
      (fun c s => allOf [inRange (u8 c.block 0) 0 15 0,
        need (s.surfOwner (u8 c.block 0) = noOwner || s.surfOwner (u8 c.block 0) = c.ctx) noPermission,
        need (u8 c.block 1 = 0 || (List.range 8).all fun p => !(u8 c.block 2).testBit p || s.portOwner p = c.ctx)
          noPermission, s.reach dSEP])
      (fun c s =>
        let b := c.block
        let m := u8 b 2
        allOf [inRange (u8 b 1) 0 1 1,
          need (m ≠ 0 && (s.regFld (R.COB_Pn_CFG (lowestPort m)) 1 0 ≠ 0 || m = 2 ^ lowestPort m)) (badParam 2),
          inRange (u8 b 3) 0 1 3, inRange (u8 b 4) 0 3 4, inRange (u8 b 5) 0 6 5, inRange (u8 b 6) 0 7 6, reserved b 7 1,
          inRange (u16 b 8) 1 2048 8, inRange (u16 b 0x0A) 1 2048 0x0A, inRange (u16 b 0x0C) 0 4096 0x0C,
          reserved b 0x0E 2]) with
    reserve := fun g ctx v w s =>
      let b := g.block
      let others := fun (a : Nat → Nat) => claimed (fun j => s.surfOwner j = ctx || v.surfOwner j = ctx) v w
        (fun t j => t.regN (a j)) ((List.range 16).filter fun j => j ≠ u8 b 0)
      if u8 b 1 = 0 then .ok (s, 0)
      else if others R.SEP_Sn_PAGES + pagesOf (u16 b 8) (u16 b 0x0A) (u8 b 4) (u8 b 3) ≤ 184 ∧
          others R.SEP_Sn_TRK_QUOTA + u16 b 0x0C ≤ 4096 then
        .ok (s, v.regFld (R.COB_Pn_CFG (lowestPort (u8 b 2))) 1 0)
      else .error noResource }

/-- FEAT_SET_CORNER. -/
def cornerPage : GPage :=
  GPage.plain 0x0602 (fun c _ => sepElem (u8 c.block 0)) (fun c s => surfAccess (u8 c.block 0) c.ctx s) fun c _ =>
    let b := c.block
    allOf [inRange (u8 b 1) 0 1 1, inRange (u8 b 2) 0 1 2, inRange (u8 b 3) 0 1 3, inRange (u8 b 4) 3 13 4,
      inRange (u8 b 5) (u8 b 4) 13 5, inRange (u8 b 6) 4 17 6, inRange (u8 b 7) (u8 b 6) 17 7, inRange (u16 b 8) 1 4000 8,
      reserved b 0x0A 2]

/-- A finite binary32 above zero. -/
def posFinite (w : Nat) : Bool := F.finite (w32 w) && F.lt 0 (w32 w)
/-- A binary32 in a range. -/
def inF (w lo hi : F32) : Bool := F.le lo w && F.le w hi

/-- FEAT_SET_FLOW. -/
def flowPage : GPage :=
  GPage.plain 0x0603 (fun c _ => sepElem (u8 c.block 0)) (fun c s => surfAccess (u8 c.block 0) c.ctx s) fun c _ =>
    let b := c.block
    allOf [inRange (u8 b 1) 0 1 1, inRange (u8 b 2) 0 1 2, inRange (u8 b 3) 1 3 3,
      inRange (u8 b 4) 4 ((2 * u8 b 3 + 1) ^ 2) 4, reserved b 5 1, inRange (u16 b 6) 1 16383 6,
      need (posFinite (u32 b 8)) (badParam 8), need (posFinite (u32 b 0x0C)) (badParam 0x0C),
      inRange (u16 b 0x10) 1 2728 0x10, reserved b 0x12 2]

/-- FEAT_SET_TRACKER: gate 0.5 to 256.0, merge 0.0 to 64.0. -/
def trackerPage : GPage :=
  GPage.plain 0x0604 (fun c _ => sepElem (u8 c.block 0)) (fun c s => surfAccess (u8 c.block 0) c.ctx s) fun c _ =>
    let b := c.block
    allOf [inRange (u8 b 1) 0 1 1, inRange (u8 b 2) 0 1 2, inRange (u8 b 3) 0 1 3,
      need (inF (w32 (u32 b 4)) F.half 0x43800000) (badParam 4), need (inF (w32 (u32 b 8)) 0 0x42800000) (badParam 8),
      inRange (u8 b 0x12) 2 15 0x12, inRange (u8 b 0x13) 1 255 0x13, inRange (u8 b 0x14) 1 255 0x14, reserved b 0x15 3]

/-- FEAT_SET_TICK. -/
def execFeatSetTick (p : Nat) (s : State) : Res :=
  .next (runPage 0x0605 (plainPage
    (fun c s => allOf [s.reach dSEP, inRange (u16 c.block 0) 100 10000 0, reserved c.block 2 2])
    (fun c s => ((s.touch dSEP).modSepia fun x => { x with tickNext := some (w32 (u16 c.block 0)) }, []))) p s)

/-- The counters of a surface zeroed. -/
def State.clearSurf (s : State) (k : Nat) : State := s.resetRegs (R.SEP_Sn_EVENTS k) (R.SEP_Sn_TRK_ENDED k + 4)

/-- FEAT_GET_STATS. -/
def actSurfStats (c : Cmd) (s : State) : State × Bytes :=
  let k := u8 c.block 0
  let t := s.touch dSEP
  let l := t.sepia.tracks.filter fun e => e.2.surface = k
  let out := ((List.range 8).flatMap fun i => leBytes 4 (t.regN (R.SEP_Sn_EVENTS k + 4 * i))) ++
    leBytes 2 (t.regN (R.SEP_Sn_PAGES k)) ++ leBytes 2 (l.filter fun e => e.2.state ≠ tEnded).length ++
    leBytes 2 (l.filter fun e => e.2.state = tConfirmed || e.2.state = tCoasting).length ++ leBytes 10 0
  (if u8 c.block 1 = 1 then t.clearSurf k else t, out)

def execFeatGetStats (p : Nat) (s : State) : Res :=
  .next (runPage 0x0606 (plainPage
    (fun c s => allOf [surfAccess (u8 c.block 0) c.ctx s, inRange (u8 c.block 1) 0 1 1, reserved c.block 2 2])
    actSurfStats) p s)

/-- SEP_SN_CNT_CLR. -/
def execSepSnCntClr (surface : Nat) (v : Word) (s : State) : Res :=
  .next (if bit v 0 then s.clearSurf surface else s)

end Sys2Proof.Machine
end

