-- ==== Sys2Proof/Machine/Umber.lean ====
section
/-! DEFINITION. Umber (06): TDM ports, derived channels, the stage chain, thresholds, bands, sync groups, and the 0x07
commands. -/

namespace Sys2Proof.Machine

def State.modUmber (s : State) (f : Umber → Umber) : State := { s with umber := f s.umber }

abbrev umbElem (g : Nat) : Elem := ⟨3, g⟩

def State.tdm (s : State) (p : Nat) : TdmPort := s.umber.ports.getD p TdmPort.init
def State.setTdm (s : State) (p : Nat) (x : TdmPort) : State := s.modUmber fun u => { u with ports := u.ports.set p x }
def State.chan (s : State) (c : Nat) : Chan := s.umber.chans.getD c Chan.init
def State.setChan (s : State) (c : Nat) (x : Chan) : State := s.modUmber fun u => { u with chans := u.chans.set c x }
def State.band (s : State) (b : Nat) : Band := s.umber.bands.getD b Band.init
def State.setBand (s : State) (b : Nat) (x : Band) : State := s.modUmber fun u => { u with bands := u.bands.set b x }
def State.group (s : State) (g : Nat) : SyncGroup := s.umber.groups.getD g SyncGroup.init
def State.setGroup (s : State) (g : Nat) (x : SyncGroup) : State :=
  s.modUmber fun u => { u with groups := u.groups.set g x }

/-! ## Configuration as the registers show it (06 R129) -/

def State.chEn (s : State) (c : Nat) : Bool := s.regBit (R.UMB_CHn_CFG c) 0
def State.chStages (s : State) (c : Nat) : Nat := s.regFld (R.UMB_CHn_CFG c) 3 1
def State.chGroup (s : State) (c : Nat) : Nat := s.regFld (R.UMB_CHn_CFG c) 5 4
def State.chOwner (s : State) (c : Nat) : Nat := s.regFld (R.UMB_CHn_CFG c) 31 16
def State.stgReg (s : State) (c k : Nat) : Word := s.reg (R.UMB_CHn_STG c + 8 * k)
def State.stgD (s : State) (c k : Nat) : Nat := 2 ^ fld (s.stgReg c k) 18 16
def State.thrReg (s : State) (c k : Nat) : Word := s.reg (R.UMB_CHn_THR c + 12 * k)
def State.chSource (s : State) (c : Nat) : Nat := s.regFld (R.UMB_CHn_DERIVED c) 2 0
def State.chDiv (s : State) (c : Nat) : Nat := s.regFld (R.UMB_CHn_DERIVED c) 31 8

/-- The coefficients that a library ID or a handle names; none where it names nothing. -/
def State.filterCoefs (s : State) (id : Nat) : List Int :=
  if id < 0x100 then match library.find? fun f => f.id = id with
    | some f => f.coefs
    | none => []
  else match s.umber.coefs.get? id with
    | some k => (List.range k.taps).map fun i => sext 18 (s.regN (R.UMB_COEF (k.base + i)))
    | none => []

def State.stgCoefs (s : State) (c k : Nat) : List Int := s.filterCoefs (fld (s.stgReg c k) 15 0)

/-- Taps that an ID names. -/
def State.taps (s : State) (id : Nat) : Nat :=
  if id < 0x100 then match library.find? fun f => f.id = id with
    | some f => 2 * f.half.length - 1
    | none => 0
  else match s.umber.coefs.get? id with
    | some k => k.taps
    | none => 0

/-- Product of the decimations of the first `k` stages. -/
def State.preD (s : State) (c : Nat) : Nat → Nat
  | 0 => 1
  | k + 1 => State.preD s c k * s.stgD c k

/-- 06 R116: the group delay of the first `k` stages, in half input samples. -/
def State.preG (s : State) (c : Nat) : Nat → Nat
  | 0 => 0
  | k + 1 => State.preG s c k + (s.taps (fld (s.stgReg c k) 15 0) - 1) * s.preD c k

/-- The declared input rate of a channel in Hz. -/
def State.chRate (s : State) (c : Nat) : Rat :=
  if c < 32 then (s.regN (R.UMB_Pn_RATE (c / 8)) : Rat)
  else if s.chSource c = 0 ∨ s.chDiv c = 0 then 0 else 200000000 / (s.chDiv c : Rat)

/-- The declared rate at the output of the first `k` stages. -/
def State.rateAt (s : State) (c k : Nat) : Rat := s.chRate c / (s.preD c k : Rat)

/-- The period estimate of a channel in 2^-16 ns (06 R110, R112). -/
def State.chPeriod (s : State) (c : Nat) : Nat :=
  if c < 32 then s.reg64 (R.UMB_Pn_PERIOD_LO (c / 8)) else s.chDiv c * 5 * 65536

/-- Source bits of a channel's records (06 R112, R124). -/
def State.chMask (s : State) (c : Nat) : Word :=
  if c < 32 then srcTdm (c / 8)
  else
    let k := s.chSource c
    srcDerived ||| flagIf (k = 2) srcEncoder ||| flagIf (k = 3) srcImu ||| flagIf (k = 4) srcSable

/-! ## TDM clocks and frames (06 R108, R109) -/

/-- Bits of a slot as configured. -/
def State.slotBits (s : State) (p : Nat) : Nat := if s.regBit (R.UMB_Pn_CFG p) 6 then 32 else 24

/-- Slots of a frame as configured. -/
def State.slots (s : State) (p : Nat) : Nat := s.regFld (R.UMB_Pn_CFG p) 5 3 + 1

/-- BCLK cycles of a frame as configured. -/
def State.frameBits (s : State) (p : Nat) : Nat := s.slots p * s.slotBits p

/-- Umber drives TDM_MCLK. -/
def State.mclkOut (s : State) : Bool := s.regBit R.UMB_MCLK_CFG 0 && s.regBit R.UMB_MCLK_CFG 1

/-- The frequency of TDM_MCLK in Hz where Umber drives it, 4,800 MHz × mclk_frac / 2^32. -/
def State.mclkHz (s : State) : Rat := if s.mclkOut then 4800000000 * (s.regN R.UMB_MCLK_FRAC : Rat) / 4294967296 else 0

/-- The port drives TDMn_BCLK and TDMn_FS. -/
def State.tdmMaster (s : State) (p : Nat) : Bool := s.regBit (R.UMB_Pn_CFG p) 1

/-- BCLK of a master port in Hz, out of an MCLK of `mclk` Hz. -/
def State.bclkHz (s : State) (p : Nat) (mclk : Rat) : Rat := mclk / ((s.regFld (R.UMB_Pn_BCLK_DIV p) 7 0 + 1 : Nat) : Rat)

/-- The frame rate of a master port in Hz, out of an MCLK of `mclk` Hz. -/
def State.frameHz (s : State) (p : Nat) (mclk : Rat) : Rat := s.bclkHz p mclk / (s.frameBits p : Rat)

/-- TDMn_FS as a master port drives it in a BCLK cycle of its frame: high for one cycle, or for one slot. -/
def State.fsLevel (s : State) (p cycle : Nat) : Bool :=
  decide (cycle < if s.regBit (R.UMB_Pn_CFG p) 7 then s.slotBits p else 1)

/-- A master port has an MCLK to divide: the pin's as an input, or one that Umber drives. -/
def State.tdmClocked (s : State) (p : Nat) : Bool :=
  !s.tdmMaster p || !s.regBit R.UMB_MCLK_CFG 0 || (s.mclkOut && s.regN R.UMB_MCLK_FRAC ≠ 0)

/-- BCLK cycles from the FS of a frame to the next FS: a master port drives them itself. -/
def State.frameLen (s : State) (p : Nat) (f : TdmFrame) : Nat := if s.tdmMaster p then s.frameBits p else f.bits

/-- The first 24 bits of a slot: sampled on the BCLK edge that `bclk_edge` selects, `data_delay` cycles late, MSB first. -/
def State.slotValue (s : State) (p : Nat) (f : TdmFrame) (k : Nat) : Int :=
  let line := if s.regBit (R.UMB_Pn_CFG p) 9 then f.fall else f.rise
  let at' := s.regFld (R.UMB_Pn_CFG p) 8 8 + k * s.slotBits p
  sext 24 ((List.range 24).foldl (fun n i => 2 * n + b2n (line.getD (at' + i) false)) 0)

/-- The samples of a frame, slot by slot. -/
def State.frameSlots (s : State) (p : Nat) (f : TdmFrame) : List Int := (List.range (s.slots p)).map (s.slotValue p f)

/-! ## MAC budget (06 R121) -/

def State.bandEn (s : State) (b : Nat) : Bool := s.regBit (R.UMB_BANDn_CFG b) 0
def State.bandChan (s : State) (b : Nat) : Nat := s.regFld (R.UMB_BANDn_CFG b) 6 1
def State.bandTap (s : State) (b : Nat) : Nat := s.regFld (R.UMB_BANDn_CFG b) 10 8

/-- Cost of a channel with its band units, MAC/s. -/
def State.chCost (s : State) (c : Nat) : Rat :=
  if !s.chEn c then 0
  else
    let n := s.chStages c
    let stages := (List.range n).foldl (fun (a : Rat) k =>
      a + (s.taps (fld (s.stgReg c k) 15 0) : Rat) * s.rateAt c (k + 1)) 0
    let dc := s.reg (R.UMB_CHn_DC c)
    let dcCost : Rat := if bit dc 0 then 2 * s.rateAt c (fld dc 3 1) else 0
    let rms : Rat := (([0, 1].filter fun k => fld (s.thrReg c k) 1 0 = 2).length : Rat) * s.rateAt c n
    let bands := ((List.range 64).filter fun b => s.bandEn b && s.bandChan b = c).foldl (fun (a : Rat) b =>
      a + ((s.taps (s.regN (R.UMB_BANDn_FILTER b)) + 1 : Nat) : Rat) * s.rateAt c (s.bandTap b)) 0
    stages + dcCost + rms + bands

/-- The committed cost of the device, MAC/s. -/
def State.macCost (s : State) : Rat := (List.range 40).foldl (fun a c => a + s.chCost c) 0

def macBudget : Rat := 3200000000

/-- UMB_MAC_ALLOC, kMAC/s rounded up as in the worked case of 06. -/
def State.macAlloc (s : State) : Nat := (s.macCost / 1000).ceil.toNat

/-- UMB_COEF_FREE. -/
def State.coefFree (s : State) : Nat := 32768 - s.umber.coefs.foldl (fun n e => n + e.2.taps) 0

/-! ## Staging (06 R126) -/

/-- A full staging stops the MAC engine. -/
def State.umbStall (s : State) : State :=
  if !s.umber.stopped && 65536 ≤ s.stagedBytes .umber then
    (s.modUmber fun u => { u with stopped := true }).assertSource 145
  else s

/-- UMBER_STAGING_RESUME. -/
def workUmberStagingResume (s : State) : Res :=
  .next (if s.umber.stopped ∧ s.stagedBytes .umber < 65536 then s.modUmber fun u => { u with stopped := false } else s)

/-- The generation of a channel (06 R124). -/
def State.chGen (s : State) (c : Nat) : BitVec 16 := s.elemGen (s.chOwner c) (umbElem (s.chGroup c))

/-- A record of a channel staged. -/
def State.umbEmit (s : State) (c type : Nat) (tov : Stamp) (oldest : Nat) (flags : Word) (body : Bytes) : State :=
  (s.emit .umber (some (s.chOwner c)) type tov oldest flags (s.chMask c) (s.chGen c) body).umbStall

/-! ## Filter blocks (06 R124) -/

/-- The open FILTER_BLOCK of a channel closes. -/
def State.closeFBlock (s : State) (c : Nat) : State :=
  let x := s.chan c
  match x.block with
  | none => s
  | some b =>
    let body := leBytes 1 c ++ leBytes 1 (s.chStages c) ++ leBytes 2 b.samples.length ++ leBytes 4 x.blockSeq.toNat ++
      leBytes 8 b.first.steady ++ leBytes 8 (s.chPeriod c * s.preD c (s.chStages c)) ++ leBytes 8 b.fb ++
      b.samples.flatMap fun y => leBytes 4 (wrapBits 32 y)
    (s.setChan c { x with block := none, blockSeq := x.blockSeq + 1 }).umbEmit c 0x0020 b.first b.oldest b.flags body

/-- An output into the block of its channel. -/
def State.blockAdd (s : State) (c : Nat) (y : Int) (t : Stamp) (flags : Word) (sat : Bool) : State :=
  if !s.regBit (R.UMB_CHn_CFG c) 6 then s
  else
    let s1 := match (s.chan c).block with
      | some b => if b.first.epoch ≠ t.epoch then s.closeFBlock c else s
      | none => s
    let x := s1.chan c
    let fb := 2 * b2n sat + 4 * b2n (s.regBit (R.UMB_CHn_DC c) 6)
    let b := match x.block with
      | some b => { b with
          oldest := Nat.min b.oldest t.steady, flags := b.flags ||| flags, fb := b.fb ||| fb, samples := b.samples ++ [y] }
      | none => ⟨t, t.steady, flags, fb + b2n x.syncMark, [y], s.now⟩
    let s2 := s1.setChan c { x with block := some b, syncMark := false }
    if s.regFld (R.UMB_CHn_BLOCK c) 13 0 ≤ b.samples.length then s2.closeFBlock c else s2

/-- FILTER_BLOCK_TIMEOUT. -/
def workFilterBlockTimeout (ch : Nat) (s : State) : Res :=
  .next (match (s.chan ch).block with
    | some b =>
      if b.openedAt + s.regFld (R.UMB_CHn_BLOCK ch) 29 16 * 1000000 ≤ s.now then s.closeFBlock ch else s
    | none => s)

/-! ## The stage (06 R113) -/

def sat24 (n : Int) : Int := clampI (-8388608) 8388607 n
def sat48 (n : Int) : Int := clampI (-140737488355328) 140737488355327 n

/-- The accumulator over taps and delay line, and whether it saturated. -/
def mac (cs xs : List Int) : Int × Bool :=
  (cs.zip xs).foldl (fun a p => let v := a.1 + p.1 * p.2; (sat48 v, a.2 || sat48 v ≠ v)) (0, false)

/-- The output of a stage. -/
def firOut (cs xs : List Int) (sh : Nat) : Int × Bool :=
  let a := mac cs xs
  let y := if sh = 0 then a.1 else (a.1 + 2 ^ (sh - 1)) / 2 ^ sh
  (sat24 y, a.2 || sat24 y ≠ y)

/-- A saturation in a channel (06 R113). -/
def State.chSat (s : State) (c : Nat) : State :=
  let first := s.reg R.UMB_SAT_STATUS_LO = 0 && s.reg R.UMB_SAT_STATUS_HI = 0
  let a := if c < 32 then R.UMB_SAT_STATUS_LO else R.UMB_SAT_STATUS_HI
  let t := ((s.setReg a (s.reg a ||| w32 (2 ^ (c % 32)))).bumpSat (R.UMB_CHn_SAT c)).assertSourceIf first 141
  match (t.chan c).block with
  | some b => t.setChan c { t.chan c with block := some { b with fb := b.fb ||| 2 } }
  | none => t

/-! ## Validity and flags of an output (06 R116, R117) -/

/-- The stamp at which the sample is valid, for a group delay of `g` half input samples. -/
def State.validity (s : State) (c : Nat) (t : Stamp) (g : Nat) : Stamp :=
  t.shift (-(((g * s.chPeriod c + 65536) / 131072 : Nat) : Int))

/-- A steady time lies in the span of an output. Of an epoch step and of an apply the span holds what is on both sides when
it holds the last input before. -/
def State.inSpan (s : State) (c : Nat) (t : Stamp) (g x : Nat) : Bool :=
  x ≤ t.steady && t.steady * 65536 ≤ x * 65536 + g * s.chPeriod c

/-- The flags of an output over its span. -/
def State.spanFlags (s : State) (c : Nat) (t : Stamp) (g : Nat) : Word :=
  let x := s.chan c
  let gaps := if c < 32 then (s.tdm (c / 8)).gapsAt else []
  t.flag ||| flagIf (x.epochs.dropLast.any fun e => s.inSpan c t g e.1) flEpochCross |||
    flagIf (gaps.any fun a => s.inSpan c t g a) flInputGap |||
    flagIf (x.applied ≠ 0 && s.inSpan c t g x.applied) flMixedGen

/-! ## Thresholds and bands (06 R119, R120) -/

/-- A threshold transition (06 R119, R124). -/
def State.cross (s : State) (c u : Nat) (up : Bool) (value : Int) (ms : Nat) (t : Stamp) (oldest : Nat) (flags : Word) :
    State :=
  let kind := fld (s.thrReg c u) 1 0
  let a := if c < 32 then R.UMB_THR_STATUS_LO else R.UMB_THR_STATUS_HI
  let s1 := (s.setRegFld (R.UMB_CHn_THR c + 12 * u) 16 16 (b2n up)).setReg a (s.reg a ||| w32 (2 ^ (c % 32)))
  let body := leBytes 1 c ++ leBytes 1 u ++ leBytes 1 kind ++ leBytes 1 (b2n up) ++ leBytes 4 (wrapBits 32 value) ++
    leBytes 4 (s.regN (R.UMB_CHn_THR_LEVEL c + 12 * u)) ++ leBytes 4 (s.regN (R.UMB_CHn_THR_HYST c + 12 * u)) ++
    leBytes 8 ms ++ leBytes 8 t.steady
  ((s1.umbEmit c 0x0021 t oldest flags body).assertSource 142).offerMember
    { kind := 5, index := c, key := w32 u, fields := [F.ofInt value, F.ofNat (b2n up)], time := t.steady, origin := oldest,
      stamp := t, flags := flags, mask := s.chMask c, gen := s.chGen c, ctx := s.chOwner c, surface := 0, px := 0, py := 0,
      x := 0, y := 0, port := 0, frame := 0 }

/-- The integer square root. -/
def floorSqrt (n : Nat) : Nat := F.isqrt n 32 0

/-- An output tested by one threshold unit. -/
def State.threshold (s : State) (c u : Nat) (y : Int) (t : Stamp) (flags : Word) : State :=
  let w := s.thrReg c u
  let lvl := s.regN (R.UMB_CHn_THR_LEVEL c + 12 * u)
  let hys := s.regN (R.UMB_CHn_THR_HYST c + 12 * u)
  let above := bit w 16
  if fld w 1 0 = 1 then
    let v := y.natAbs
    if !above && lvl ≤ v then s.cross c u true y 0 t t.steady flags
    else if above && v < lvl - hys then s.cross c u false y 0 t t.steady flags
    else s
  else if fld w 1 0 = 2 then
    let n := 2 ^ fld w 12 8
    let x := s.chan c
    let r := ((y, t.steady, flags) :: nth x.rms u []).take n
    let s1 := s.setChan c { x with rms := x.rms.set u r }
    if r.length < n then s1
    else
      let ms := (r.foldl (fun (a : Nat) e => a + e.1.natAbs ^ 2) 0) / n
      let oldest := r.foldl (fun (a : Nat) e => Nat.min a e.2.1) t.steady
      let fl := r.foldl (fun (a : Word) e => a ||| e.2.2) 0
      if !above && lvl ^ 2 ≤ ms then s1.cross c u true (floorSqrt ms) ms t oldest fl
      else if above && ms < (lvl - hys) ^ 2 then s1.cross c u false (floorSqrt ms) ms t oldest fl
      else s1
  else s

/-- A sample into one band-energy unit, at completing frame `t` of group delay `g` before its tap (06 R120). -/
def State.bandSample (s : State) (b c : Nat) (v : Int) (t : Stamp) (g d : Nat) : State :=
  let id := s.regN (R.UMB_BANDn_FILTER b)
  let cs := s.filterCoefs id
  let x := s.band b
  let line := (v :: x.line).take cs.length
  let o := firOut cs line (s.regFld (R.UMB_BANDn_CFG b) 20 16)
  let y := o.1
  let s0 := if o.2 then s.chSat c else s
  let g' := g + (cs.length - 1) * d
  let at' := s.validity c t g'
  let n := s.regN (R.UMB_BANDn_WINDOW b)
  let z := { x with
    line := line, n := x.n + 1, energy := x.energy + y.natAbs ^ 2, peak := Nat.max x.peak y.natAbs,
    first := if x.n = 0 then at'.steady else x.first, mid := if x.n = n / 2 then some at' else x.mid,
    flags := x.flags ||| s.spanFlags c t g' }
  if z.n < n then s0.setBand b z
  else
    let m := z.mid.getD at'
    let e := z.energy % 2 ^ 64
    let body := leBytes 1 b ++ leBytes 1 c ++ leBytes 1 (s.bandTap b) ++ leBytes 1 0 ++ leBytes 4 n ++ leBytes 8 e ++
      leBytes 4 z.peak ++ leBytes 4 x.seq.toNat ++ leBytes 8 z.first
    (((s0.setBand b { Band.init with line := line, seq := x.seq + 1 }).umbEmit c 0x0022 m z.first z.flags body).assertSource
      143).offerMember
      { kind := 6, index := b, key := 0, fields := [F.ofNat e, F.ofNat z.peak], time := m.steady, origin := z.first,
        stamp := m, flags := z.flags, mask := s.chMask c, gen := s.chGen c, ctx := s.chOwner c, surface := 0, px := 0,
        py := 0, x := 0, y := 0, port := 0, frame := 0 }

/-! ## Sync groups (06 R118) -/

/-- A reset of a group counted. -/
def State.countReset (s : State) (stamp : Nat) : State :=
  ((s.bumpSat R.UMB_SYNC_COUNT).setReg64 R.UMB_SYNC_LAST_LO stamp).assertSource 140

/-- A channel leaves the resets of a group that `gone` picks; one that had reached no channel is counted. -/
def State.leaveResets (s : State) (g c : Nat) (gone : SyncReset → Bool) (takes : Bool) : State :=
  let mine := fun (r : SyncReset) => r.left.contains c && gone r
  let after := fun (r : SyncReset) => { r with left := r.left.filter fun k => k ≠ c }
  let tells := fun (r : SyncReset) => mine r && !r.counted && (takes || (after r).left.isEmpty)
  let rs := (s.group g).resets
  let t := s.setGroup g
    { resets := (rs.map fun r => if mine r then { after r with counted := r.counted || tells r } else r).filter fun r =>
        !r.left.isEmpty }
  (rs.filter tells).foldl (fun t r => t.countReset r.stamp) t

/-- A channel that is disabled or starts afresh has no reset to take any more. -/
def State.dropResets (s : State) (c : Nat) : State :=
  forEach (List.range 4) (fun g t => t.leaveResets g c (fun _ => true) false) s

/-- A reset of a group at a steady stamp: owed to every enabled channel; in a group without one it takes effect at once. -/
def State.resetGroup (s : State) (g t : Nat) : State :=
  let cs := below 40 fun c => s.chEn c && s.chGroup c = g
  if cs.isEmpty then s.countReset t else s.setGroup g { resets := (s.group g).resets ++ [⟨t, cs, false⟩] }

/-! ## Applying configuration (06 R127) -/

/-- The enabled channel of a group with the lowest declared output rate; ties go to the lowest number. -/
def State.slowest (s : State) (g : Nat) : Option Nat :=
  ((List.range 40).filter fun c => s.chEn c && s.chGroup c = g && s.chRate c ≠ 0).foldl (fun (a : Option Nat) c =>
    match a with
    | some b => if s.rateAt c (s.chStages c) < s.rateAt b (s.chStages b) then some c else some b
    | none => some c) none

/-- FILTER_SET_CHAIN: a stage whose N and D are unchanged keeps its line and phase; the others start zeroed. -/
def applyChain (b : Bytes) (s : State) : State :=
  let c := u8 b 0
  let old := s.chan c
  let n := u8 b 2
  let stg := fun k => w32 (u16 b (8 + 8 * k) + u8 b (0x0A + 8 * k) * 0x10000 + u8 b (0x0B + 8 * k) * 0x1000000)
  let same := fun k => s.chEn c && k < s.chStages c &&
    s.taps (fld (s.stgReg c k) 15 0) = s.taps (fld (stg k) 15 0) && fld (s.stgReg c k) 18 16 = fld (stg k) 18 16
  let keep := fun k => k < n && u8 b 1 = 1 && same k
  let t := s.setReg (R.UMB_CHn_CFG c) (setFld (setFld (setFld (s.reg (R.UMB_CHn_CFG c)) 0 0 (u8 b 1)) 3 1 n) 6 6 (u8 b 3))
  let t := t.setReg (R.UMB_CHn_BLOCK c) (w32 (u16 b 4 + u16 b 6 * 0x10000))
  let t := forEach (List.range 4) (fun k t => t.setReg (R.UMB_CHn_STG c + 8 * k) (stg k)) t
  let on := u8 b 1 = 1 && s.chEn c
  let x := { old with
    lines := (List.range 4).map fun k => if keep k then nth old.lines k [] else [],
    phases := (List.range 4).map fun k => if keep k then nth old.phases k 0 else 0,
    m := if on then old.m else 0, rms := if on then old.rms else [[], []], lastIn := if on then old.lastIn else 0,
    epochs := if on then old.epochs else [], lastTick := if on then old.lastTick else s.now,
    tickCount := if on then old.tickCount else s.ochre.admits.getD (s.regFld (R.UMB_CHn_DERIVED c) 6 4) 0 }
  let t := t.setChan c x
  if on then t
  else (forEach [0, 1] (fun u t => t.setRegFld (R.UMB_CHn_THR c + 12 * u) 16 16 0) t).dropResets c

/-- A generation-bearing 0x07 command applied. -/
def applyUmber (g : GCmd) (s : State) : State :=
  let b := g.block
  let c := u8 b 0
  if g.opcode = 0x0703 then
    let t := s.setReg (R.UMB_CHn_DERIVED c) (w32 (u8 b 1 + u8 b 2 * 16 + u32 b 4 * 0x100))
    t.setChan c { t.chan c with
      lastTick := s.now, queue := [], tickCount := s.ochre.admits.getD (u8 b 2) 0 }
  else if g.opcode = 0x0705 then applyChain b s
  else if g.opcode = 0x0706 then
    let old := s.reg (R.UMB_CHn_DC c)
    let t := s.setReg (R.UMB_CHn_DC c)
      (setFld (setFld (setFld (setFld old 0 0 (u8 b 1)) 3 1 (u8 b 2)) 4 4 (u8 b 4)) 12 8 (u8 b 3))
    if bit old 0 then t else t.setChan c { t.chan c with m := 0 }
  else if g.opcode = 0x0708 then
    let u := u8 b 1
    let t := s.setReg (R.UMB_CHn_THR c + 12 * u) (w32 (u8 b 2 + u8 b 3 * 0x100))
    let t := (t.setReg (R.UMB_CHn_THR_LEVEL c + 12 * u) (w32 (u32 b 4))).setReg (R.UMB_CHn_THR_HYST c + 12 * u)
      (w32 (u32 b 8))
    t.setChan c { t.chan c with rms := (t.chan c).rms.set u [] }
  else if g.opcode = 0x0709 then
    if u8 b 1 = 0 then (s.resetRegs (R.UMB_BANDn_CFG c) (R.UMB_BANDn_CFG c + 0x20)).setBand c Band.init
    else
      let t := s.setReg (R.UMB_BANDn_CFG c) (w32 (1 + u8 b 2 * 2 + u8 b 3 * 0x100 + u8 b 6 * 0x10000))
      let t := (t.setReg (R.UMB_BANDn_FILTER c) (w32 (u16 b 4))).setReg (R.UMB_BANDn_WINDOW c) (w32 (u32 b 8))
      (t.setReg (R.UMB_BANDn_OWNER c) (w32 g.ctx)).setBand c Band.init
  else s

/-- The apply point of a sync group passes: open blocks close, the staged configuration applies, source 144. -/
def State.umbApply (s : State) (g : Nat) : State :=
  match s.armedAt (umbElem g) with
  | none => s
  | some a =>
    let mine := below 40 fun c => s.chGroup c = g && s.chOwner c = a.ctx
    let t := forEach (below 40 fun c => s.chGroup c = g) (fun c t => t.closeFBlock c) s
    let t := t.applyElem (umbElem g) applyUmber
    (forEach mine (fun c t => t.setChan c { t.chan c with applied := (t.chan c).lastIn }) t).assertSource 144

/-- UMBER_APPLY_FALLBACK: 2 declared output periods of the slowest channel without its output. -/
def workUmberApplyFallback (group : Nat) (s : State) : Res :=
  .next (match s.armedAt (umbElem group) with
    | none => s
    | some a => match s.slowest group with
      | none => s.umbApply group
      | some c =>
        if (2000000000 : Rat) ≤ ((s.now - a.at_ : Nat) : Rat) * s.rateAt c (s.chStages c) then s.umbApply group else s)

/-! ## One input sample (06 R113, R115, R118) -/

/-- The last stage's output: thresholds, block, Viridian, bindings, and the apply point of the group. -/
def State.chOutput (s : State) (c : Nat) (y : Int) (t : Stamp) (sat : Bool) : State :=
  let g := s.preG c (s.chStages c)
  let at' := s.validity c t g
  let fl := s.spanFlags c t g
  let s1 := s.setReg64 (R.UMB_CHn_OUT_LO c) (s.reg64 (R.UMB_CHn_OUT_LO c) + 1)
  let s2 := (s1.threshold c 0 y at' fl).threshold c 1 y at' fl
  let s3 := s2.blockAdd c y at' fl sat
  let v := F.ofInt y
  let s4 := s3.offerMember
    { kind := 4, index := c, key := 0, fields := [v], time := at'.steady, origin := at'.steady, stamp := at', flags := fl,
      mask := s.chMask c, gen := s.chGen c, ctx := s.chOwner c, surface := 0, px := 0, py := 0, x := 0, y := 0, port := 0,
      frame := 0 }
  let s5 := s4.offerInput ⟨2, c, s.chOwner c, [v], at', at'.steady, fl, s.chMask c, s.chGen c⟩
  if s5.slowest (s5.chGroup c) = some c then s5.umbApply (s5.chGroup c) else s5

/-- The DC block of a channel sits at tap `k`. -/
def State.tapHere (s : State) (c k : Nat) : Bool :=
  s.regBit (R.UMB_CHn_DC c) 0 && s.regFld (R.UMB_CHn_DC c) 3 1 = k

/-- A value behind the DC block of its tap. -/
def State.tapValue (s : State) (c k : Nat) (v : Int) : Int :=
  if s.tapHere c k then sat24 (v - ((s.chan c).m + 8388608) / 16777216) else v

/-- The mean of the DC block takes a value, unless it is frozen. -/
def State.tapDc (s : State) (c k : Nat) (v : Int) : State :=
  if s.tapHere c k && !s.regBit (R.UMB_CHn_DC c) 6 then
    s.setChan c { s.chan c with m := (s.chan c).m + (v * 16777216 - (s.chan c).m) / 2 ^ s.regFld (R.UMB_CHn_DC c) 12 8 }
  else s

/-- The band units of a tap take a value. -/
def State.tapBands (s : State) (c : Nat) (t : Stamp) (k : Nat) (y : Int) : State :=
  forEach (below 64 fun b => s.bandEn b && s.bandChan b = c && s.bandTap b = k)
    (fun b u => u.bandSample b c y t (s.preG c k) (s.preD c k)) s

/-- The delay line of stage `k` with a value put in. -/
def State.stageLine (s : State) (c k : Nat) (y : Int) : List Int :=
  (y :: nth (s.chan c).lines k []).take (s.stgCoefs c k).length

/-- A value put into stage `k`: its delay line and its phase. -/
def State.stageIn (s : State) (c k : Nat) (y : Int) : State :=
  s.setChan c { s.chan c with
    lines := (s.chan c).lines.set k (s.stageLine c k y),
    phases := (s.chan c).phases.set k ((nth (s.chan c).phases k 0 + 1) % s.stgD c k) }

/-- A saturation counted, where there is one. -/
def State.chSatIf (s : State) (c : Nat) (b : Bool) : State := if b then s.chSat c else s

/-- A value at tap `k` of a channel: the DC block where it sits, the band units, then the next stage. -/
def State.runTap (s : State) (c : Nat) (t : Stamp) : Nat → Nat → Int → Bool → State
  | 0, _, _, _ => s
  | f + 1, k, v, sat =>
    let y := s.tapValue c k v
    let u := (s.tapDc c k v).tapBands c t k y
    if s.chStages c ≤ k then u.chOutput c y t sat
    else if nth (u.chan c).phases k 0 = 0 then
      let o := firOut (s.stgCoefs c k) (u.stageLine c k y) (fld (s.stgReg c k) 28 24)
      State.runTap ((u.stageIn c k y).chSatIf c o.2) c t f (k + 1) o.1 (sat || o.2)
    else u.stageIn c k y

/-- A reset that this input of the channel is the first to reach (06 R118). -/
def SyncReset.due (r : SyncReset) (c : Nat) (t : Stamp) : Bool := r.left.contains c && r.stamp ≤ t.steady

/-- The input of channel `c` and an input of channel `w` come with one frame. -/
def oneFrame (c w : Nat) : Bool := c = w || (decide (c < 32) && c / 8 = w / 8)

/-- The resets that an input of a channel reaches. Every channel of the group has an output at that frame, the slowest too:
an armed configuration applies first, on the frame of the slowest, and the resets then zero the phases (06 Edges). -/
def State.takeReset (s : State) (c : Nat) (t : Stamp) : State :=
  let g := s.chGroup c
  if (s.group g).resets.any fun r => r.due c t then
    let first := match s.slowest g with | some w => oneFrame c w | none => false
    let s0 := if first then s.umbApply g else s
    let s1 := s0.closeFBlock c
    (s1.setChan c { s1.chan c with phases := [0, 0, 0, 0], syncMark := true }).leaveResets g c (fun r => r.stamp ≤ t.steady) true
  else s

/-- The frozen state of the DC block at an input (06 R115); a block that is not enabled is not frozen. -/
def State.freezeCheck (s : State) (c : Nat) : State :=
  let dc := s.reg (R.UMB_CHn_DC c)
  let f := bit dc 0 && (bit dc 5 || (bit dc 4 && (bit (s.thrReg c 0) 16 || bit (s.thrReg c 1) 16)))
  if f != bit dc 6 then (s.setRegFld (R.UMB_CHn_DC c) 6 6 (b2n f)).assertSource 146 else s

/-- A channel takes an input sample, unless the apply on its frame disabled it. -/
def State.chInput (s : State) (c : Nat) (v : Int) (t : Stamp) : State :=
  let s0 := s.takeReset c t
  if !s0.chEn c then s0 else
  let s1 := s0.freezeCheck c
  let x := s1.chan c
  let ep := match x.epochs with
    | (_, e) :: _ => if e = t.epoch then x.epochs else (x.lastIn, t.epoch) :: x.epochs
    | [] => [(x.lastIn, t.epoch)]
  (s1.setChan c { x with lastIn := t.steady, epochs := ep }).runTap c t 5 0 v false

/-- The oldest buffered input of a channel taken out. -/
def State.takeInput (s : State) (c : Nat) : Option (Int × Stamp × State) :=
  if 32 ≤ c then match (s.chan c).queue with
    | (v, t) :: q => some (v, t, s.setChan c { s.chan c with queue := q })
    | [] => none
  else
    let x := s.tdm (c / 8)
    match x.frames.find? fun f => f.left.contains c with
    | some f =>
      let fs := x.frames.map fun g => if g = f then { g with left := g.left.filter fun k => k ≠ c } else g
      some (nth f.slots (c % 8) 0, f.stamp, s.setTdm (c / 8) { x with frames := fs.filter fun g => !g.left.isEmpty })
    | none => none

/-- CHAIN_SAMPLE: a buffered input of the channel through its chain; not while the engine is stopped (06 R126). -/
def workChainSample (ch : Nat) (s : State) : Res :=
  .next (
    if s.domUp dUMB ∧ ¬ s.umber.stopped then
      match s.takeInput ch with
      | some (v, t, u) => if s.chEn ch then u.chInput ch v t else u
      | none => s
    else s)

/-! ## TDM ports (06 R110, R111, R125) -/

/-- Contexts that own a channel on a port. -/
def State.tdmOwners (s : State) (p : Nat) : List Nat :=
  (((List.range 8).map fun k => s.chOwner (8 * p + k)).filter fun c => c ≠ noOwner).eraseDups

/-- A GAP record to each context that owns a channel on the port. -/
def State.emitTdmGap (s : State) (p : Nat) (g : Gap) (cont : Bool) : State :=
  let t := s.noteGap (16 + p) g.first.steady g.lastSteady
  (s.tdmOwners p).foldl (fun t c =>
    (t.emit .umber (some c) 0x0003 g.first g.first.steady (flInputGap ||| g.first.flag) (srcTdm p) (t.ctxGen c)
      (gapBody 1 p g.reason g.events 0 (b2n cont) g.first.steady g.lastSteady)).umbStall) t

/-- A frame lost on a port: it opens a gap, which closes the blocks of the port's channels, or adds to the open one. -/
def State.tdmDrop (s : State) (p reason n : Nat) (t : Stamp) : State :=
  let s1 := if n = 0 then s else s.setTdm p { s.tdm p with gapsAt := t.steady :: (s.tdm p).gapsAt }
  match (s1.tdm p).gap with
  | some g => s1.setTdm p { s1.tdm p with gap := some { g with events := g.events + n, lastSteady := t.steady } }
  | none =>
    let u := forEach (List.range 8) (fun k u => u.closeFBlock (8 * p + k)) s1
    (u.setTdm p { u.tdm p with gap := some ⟨reason, n, 0, t, t.steady, s.now⟩ }).assertSourceIf (reason = 0x10) (128 + p)

/-- The gap of a TDM port closes. -/
def State.tdmCloseGap (s : State) (p : Nat) : State :=
  match (s.tdm p).gap with
  | some g => (s.setTdm p { s.tdm p with gap := none }).emitTdmGap p g false
  | none => s

/-- GAP_CONTINUES of a TDM port. -/
def State.tdmContinue (s : State) (p : Nat) : State :=
  match (s.tdm p).gap with
  | some g =>
    if g.reportAt + 10000000 ≤ s.now then
      (s.setTdm p { s.tdm p with gap := some { g with events := 0, reportAt := g.reportAt + 10000000 } }).emitTdmGap p g true
    else s
  | none => s

/-- GAP_CONTINUES. -/
def workGapContinues (tdm : Bool) (port : Nat) (s : State) : Res :=
  .next (if tdm then s.tdmContinue port else s.gapContinue port)

/-- The declared period in 2^-16 ns. -/
def State.declaredPeriod (s : State) (p : Nat) : Nat := 1000000000 * 65536 / s.regN (R.UMB_Pn_RATE p)

/-- T_est from the kept intervals (06 R110). -/
def State.setPeriod (s : State) (p : Nat) : State :=
  let l := (s.tdm p).intervals
  s.setReg64 (R.UMB_Pn_PERIOD_LO p)
    (if l.length < 2 then s.declaredPeriod p else l.foldl (fun a n => a + n) 0 * 65536 / l.length)

/-- TDM_FRAME. -/
def workTdmFrame (port : Nat) (f : TdmFrame) (s : State) : Res :=
  .next (
    if port < 4 ∧ s.domUp dUMB ∧ s.regBit (R.UMB_Pn_CFG port) 0 ∧ s.tdmClocked port then
      let raw := s.stampNs f.ns
      let t := raw.shift (-(s.regN (R.UMB_Pn_LAT_NS port) : Int))
      let good := s.frameLen port f = s.frameBits port
      let x := s.tdm port
      let iv := match x.lastFs with
        | some a => if good then ((raw.steady - a) :: x.intervals).take 256 else x.intervals
        | none => x.intervals
      let s1 := (s.setTdm port { x with
        lastFs := if good then some raw.steady else none, intervals := iv, silentSaid := false }).setReg64
          (R.UMB_Pn_LAST_FS_LO port) raw.steady
      let s2 := s1.setPeriod port
      if ¬ good then ((s2.bumpSat (R.UMB_Pn_FRAME_ERR port)).assertSource (132 + port)).tdmDrop port 0x11 1 t
      else if 64 ≤ x.frames.length then (s2.bumpSat (R.UMB_Pn_DROP_OVR port)).tdmDrop port 0x10 1 t
      else
        let s3 := (s2.tdmCloseGap port).bump (R.UMB_Pn_FRAMES port)
        let chans := (below (s.slots port) fun k => s.chEn (8 * port + k)).map fun k => 8 * port + k
        let owners := (chans.map fun c => s.chOwner c).eraseDups
        let s4 := (owners.filter fun c => s.paused c).foldl (fun u c => u.countPaused c (16 + port) 1) s3
        let live := chans.filter fun c => !s.paused (s.chOwner c)
        let y := s4.tdm port
        let s5 := if live.isEmpty then s4 else
          s4.setTdm port { y with frames := y.frames ++ [⟨s.frameSlots port f, t, live⟩] }
        let lvl := (s5.tdm port).frames.length
        if s5.regFld (R.UMB_Pn_BUF port) 14 8 < lvl then s5.setRegFld (R.UMB_Pn_BUF port) 14 8 lvl else s5
    else s)

/-- TDM_PORT_SILENT: 16 declared frame periods without FS, once per silence. -/
def workTdmPortSilent (port : Nat) (s : State) : Res :=
  let x := s.tdm port
  .next (if port < 4 ∧ s.domUp dUMB ∧ s.regBit (R.UMB_Pn_CFG port) 0 ∧ ¬ x.silentSaid ∧
      (Nat.max x.since (s.reg64 (R.UMB_Pn_LAST_FS_LO port))) * 65536 + 16 * s.declaredPeriod port ≤ s.now * 65536 then
    (s.setTdm port { x with silentSaid := true }).assertSource (136 + port) else s)

/-! ## Derived channels (06 R112) -/

/-- The sample of a derived channel, and the running count it leaves. -/
def State.derivedValue (s : State) (c : Nat) : Int × Nat :=
  let i := s.regFld (R.UMB_CHn_DERIVED c) 6 4
  let k := s.chSource c
  if k = 1 then
    let n := s.ochre.admits.getD i 0
    (if s.domUp (portDomain i) then sat24 ((n - (s.chan c).tickCount : Nat) : Int) else 0, n)
  else if k = 2 then
    (if s.cobalt.angleValid then sat24 (s.angleRate * 1000000000 / 17592186044416) else 0, 0)
  else if k = 3 then (nth s.cobalt.rawGyro i 0 * 256, 0)
  else (sat24 (sext 32 (s.regN (R.SBL_Sn_RAW_I i)) * 256), 0)

/-- DERIVED_TICK: the divider of a channel expires. -/
def workDerivedTick (ch : Nat) (s : State) : Res :=
  .next (
    let x := s.chan ch
    let due := x.lastTick + s.chDiv ch * 5
    if 32 ≤ ch ∧ ch < 40 ∧ s.domUp dUMB ∧ s.chEn ch ∧ s.chSource ch ≠ 0 ∧ s.chDiv ch ≠ 0 ∧ due ≤ s.now then
      let v := s.derivedValue ch
      let t := s.tickStamp.shift (-((s.now - due : Nat) : Int))
      let s1 := s.setChan ch { x with lastTick := due, tickCount := v.2 }
      if s.paused (s.chOwner ch) then s1.countPaused (s.chOwner ch) ch 1
      else s1.setChan ch { s1.chan ch with queue := x.queue ++ [(v.1, t)] }
    else s)

/-- UMB_SYNC_SW. -/
def execUmbSyncSw (v : Word) (s : State) : Res :=
  .next (forEach (below 4 fun g => bit v g) (fun g t => t.resetGroup g s.now) s)

/-- SIG_SYNC_EDGE. -/
def workSigSyncEdge (e : Edge) (ns : Nat) (s : State) : Res :=
  .next (if s.domUp dUMB then
    forEach (below 4 fun g => s.regBit R.UMB_SYNC_CFG g && (s.regBit R.UMB_SYNC_CFG (4 + g) = decide (e = .fall)))
      (fun g t => t.resetGroup g (s.stampNs ns).steady) s
    else s)

/-! ## Power-down and the switch of a quiesce -/

/-- One buffered input of a channel through its chain. -/
def State.drainInput (s : State) (c : Nat) : State :=
  match s.takeInput c with
  | some (v, st, w) => if w.chEn c then w.chInput c v st else w
  | none => s

/-- Every buffered input of every channel through its chain. -/
def State.umbDrain (s : State) (only : Nat → Bool) : State :=
  forEach (below 40 fun c => only c) (fun c t =>
    (List.range ((t.tdm (c / 8)).frames.length + (t.chan c).queue.length)).foldl (fun u _ => u.drainInput c) t) s

/-- 06 Power-down of UMB. -/
def State.umbDown (s : State) : State :=
  let s1 := s.umbDrain fun _ => true
  let s2 := forEach (List.range 40) (fun c t => t.closeFBlock c) s1
  let s3 := forEach (below 4 fun p => s.regBit (R.UMB_Pn_CFG p) 0)
    (fun p t => (t.tdmDrop p 0x12 0 s.tickStamp).tdmCloseGap p) s2
  let s4 := s3.modUmber fun u => { u with
    ports := [], bands := u.bands.map fun e => (e.1, { e.2 with line := [], n := 0, energy := 0, peak := 0 }),
    chans := u.chans.map fun e => (e.1, { e.2 with
      lines := [[], [], [], []], phases := [0, 0, 0, 0], m := 0, rms := [[], []], epochs := [], lastIn := 0, applied := 0,
      queue := [] }) }
  forEach (List.range 4) (fun p t => t.setPeriod p) s4

/-- The band units of a channel restart with zeroed lines and a new window. -/
def State.bandSwitch (s : State) (c : Nat) : State :=
  forEach (below 64 fun b => s.bandEn b && s.bandChan b = c) (fun b t => t.setBand b { Band.init with seq := (t.band b).seq }) s

/-- 12 R241 step 3: a channel restarts with zeroed lines, zero phases and empty RMS windows, and its band units with it. -/
def State.umbSwitch (s : State) (c : Nat) : State :=
  let t := (s.closeFBlock c).bandSwitch c
  t.setChan c { t.chan c with
    lines := [[], [], [], []], phases := [0, 0, 0, 0], rms := [[], []], epochs := [], lastIn := 0, applied := 0 }

/-! ## Command pages -/

/-- A channel: range, ownership, domain. -/
def chanAccess (lo c ctx : Nat) (s : State) : Check :=
  allOf [inRange c lo 39 0, need (s.chOwner c = ctx) noPermission, s.reach dUMB]

/-- A handle that exists and that the context does not own. -/
def State.foreignCoefs (s : State) (id ctx : Nat) : Bool :=
  match s.umber.coefs.get? id with
  | some k => k.ctx ≠ ctx
  | none => false

/-- The cost of the device: of a context's own channels as `v` leaves them, of every other the most it has or claims, for
the sets of other contexts may yet be aborted (06 R121, 12 R234). -/
def macClaim (own : Nat → Bool) (v w : State) : Rat :=
  (List.range 40).foldl (fun (a : Rat) c =>
    a + if own c then v.chCost c else if v.chCost c < w.chCost c then w.chCost c else v.chCost c) 0

/-- 06 R121: the projected state with the command applied stays within the budget. -/
def reserveMac (g : GCmd) (ctx : Nat) (v w s : State) : Except CErr (State × Nat) :=
  if macClaim (fun c => v.chOwner c = ctx) (applyUmber g v) w ≤ macBudget then .ok (s, 0) else .error noResource

/-- A generation-bearing page of Umber. -/
def umbPage (op : Nat) (ch : Bytes → Nat) (access params : Cmd → State → Check) : GPage :=
  { GPage.plain op (fun c s => umbElem (s.chGroup (ch c.block))) access params with reserve := reserveMac }

/-- FILTER_SET_PORT, checked against the costs of now and of the projected state `v`. -/
def checkTdm (v : State) (c : Cmd) (s : State) : Check :=
  let b := c.block
  let frac := u32 b 0x10
  let after := fun (u : State) => u.setReg (R.UMB_Pn_RATE (u8 b 0)) (w32 (u32 b 8))
  allOf [inRange (u8 b 0) 0 3 0, s.reach dUMB, inRange (u8 b 1) 0 1 1, inRange (u8 b 2) 0 1 2, inRange (u8 b 3) 1 8 3,
    need (u8 b 4 = 24 || u8 b 4 = 32) (badParam 4), inRange (u8 b 5) 0 1 5, inRange (u8 b 6) 0 1 6, inRange (u8 b 7) 0 1 7,
    inRange (u32 b 8) 8000 192000 8, need (u32 b 8 * u8 b 3 * u8 b 4 ≤ 50000000) (badParam 8),
    inRange (u16 b 0x0C) 1 256 0x0C, inRange (u8 b 0x0E) 0 1 0x0E, reserved b 0x0F 1,
    need (u8 b 0x0E = 0 || (2 * 2 ^ 32 ≤ 4800 * frac && 4800 * frac ≤ 50 * 2 ^ 32)) (badParam 0x10),
    inRange (u32 b 0x14) 0 1000000 0x14, need (macClaim (fun _ => false) (after s) (after v) ≤ macBudget) noResource]

def actTdm (c : Cmd) (s : State) : State × Bytes :=
  let b := c.block
  let p := u8 b 0
  let t := (s.touch dUMB).tdmDrop p 0x12 0 s.tickStamp
  let t := t.setReg (R.UMB_Pn_CFG p) (w32 (u8 b 1 + u8 b 2 * 2 + (u8 b 3 - 1) * 8 + b2n (u8 b 4 = 32) * 64 +
    u8 b 5 * 128 + u8 b 6 * 256 + u8 b 7 * 512))
  let t := (t.setReg (R.UMB_Pn_RATE p) (w32 (u32 b 8))).setReg (R.UMB_Pn_BCLK_DIV p) (w32 (u16 b 0x0C - 1))
  let t := (t.setReg (R.UMB_Pn_LAT_NS p) (w32 (u32 b 0x14))).setRegFld R.UMB_CTRL p p (u8 b 1)
  let t := (t.setReg R.UMB_MCLK_CFG (w32 (u8 b 0x0E * 3))).setReg R.UMB_MCLK_FRAC (w32 (u32 b 0x10))
  ((t.setTdm p { t.tdm p with lastFs := none, intervals := [], silentSaid := false, since := s.now }).setPeriod p, [])

/-- FILTER_ASSIGN_CHANNEL. -/
def checkAssignCh (c : Cmd) (s : State) : Check :=
  let b := c.block
  allOf [inRange (u8 b 0) 0 39 0, s.reach dUMB, inRange (u8 b 1) 0 3 1,
    need (u16 b 2 = noOwner || (s.ctx? (u16 b 2)).isSome) (badParam 2)]

/-- A channel back at its reset defaults, with its band units and what was armed for it. -/
def State.resetChannel (s : State) (c : Nat) : State :=
  let t := (s.closeFBlock c).dropResets c
  let bands := below 64 fun b => t.bandEn b && t.bandChan b = c
  let t := forEach bands (fun b t => (t.resetRegs (R.UMB_BANDn_CFG b) (R.UMB_BANDn_CFG b + 0x20)).setBand b Band.init) t
  let t := t.resetRegs (R.UMB_CHn_CFG c) (R.UMB_CHn_CFG c + 0x80)
  let t := t.modHost fun h => { h with
    armed := (h.armed.map fun a =>
      if a.elem.blk = 3 then { a with cmds := a.cmds.filter fun g =>
        (if g.opcode = 0x0709 then u8 g.block 2 else u8 g.block 0) ≠ c } else a).filter fun a => !a.cmds.isEmpty }
  let x := s.tdm (c / 8)
  let t := if c < 32 then t.setTdm (c / 8) { x with
      frames := (x.frames.map fun f => { f with left := f.left.filter fun k => k ≠ c }).filter fun f => !f.left.isEmpty }
    else t
  t.setChan c Chan.init

def actAssignCh (c : Cmd) (s : State) : State × Bytes :=
  let b := c.block
  let ch := u8 b 0
  let old := s.chOwner ch
  let t := ((s.touch dUMB).resetChannel ch).setReg (R.UMB_CHn_CFG ch) (w32 (u8 b 1 * 16 + u16 b 2 * 0x10000))
  (if old = noOwner then t else t.bumpGen old, [])

def execFilterAssignChannel (p : Nat) (s : State) : Res := .next (runPage 0x0702 (plainPage checkAssignCh actAssignCh) p s)

/-- FILTER_SET_DERIVED. -/
def derivedPage : GPage :=
  umbPage 0x0703 (fun b => u8 b 0) (fun c s => chanAccess 32 (u8 c.block 0) c.ctx s) fun c _ =>
    let b := c.block
    let hi := if u8 b 1 = 3 then 2 else if u8 b 1 = 4 then 3 else 7
    allOf [inRange (u8 b 1) 0 4 1, inRange (u8 b 2) 0 hi 2, reserved b 3 1, inRange (u32 b 4) 1042 200000 4]

/-- FILTER_SET_CHAIN. -/
def chainPage : GPage :=
  let stages := fun (b : Bytes) => List.range (Nat.min (u8 b 2) 4)
  umbPage 0x0705 (fun b => u8 b 0)
    (fun c s => allOf [inRange (u8 c.block 0) 0 39 0, need (s.chOwner (u8 c.block 0) = c.ctx) noPermission,
      need ((stages c.block).all fun k => !s.foreignCoefs (u16 c.block (8 + 8 * k)) c.ctx) noPermission, s.reach dUMB])
    fun c s =>
      let b := c.block
      let stage := fun k =>
        let id := u16 b (8 + 8 * k)
        let used := k < u8 b 2
        let lib := library.find? fun f => f.id = id
        allOf [need (!used || s.taps id ≠ 0) (badParam (8 + 8 * k)), inRange (u8 b (0x0A + 8 * k)) 0 6 (0x0A + 8 * k),
          need (!used || (match lib with | some f => f.dLog = u8 b (0x0A + 8 * k) | none => true)) (badParam (0x0A + 8 * k)),
          need (!used || ((List.range (k + 1)).foldl (fun n j => n + u8 b (0x0A + 8 * j)) 0) ≤ 12)
            (badParam (0x0A + 8 * k)),
          inRange (u8 b (0x0B + 8 * k)) 0 31 (0x0B + 8 * k), reserved b (0x0C + 8 * k) 4]
      allOf ([inRange (u8 b 1) 0 1 1, inRange (u8 b 2) 0 4 2, inRange (u8 b 3) 0 1 3, inRange (u16 b 4) 1 16366 4,
        inRange (u16 b 6) 1 10000 6] ++ [0, 1, 2, 3].map stage)

/-- FILTER_SET_DCBLOCK. -/
def dcPage : GPage :=
  umbPage 0x0706 (fun b => u8 b 0) (fun c s => chanAccess 0 (u8 c.block 0) c.ctx s) fun c s =>
    let b := c.block
    allOf [inRange (u8 b 1) 0 1 1, inRange (u8 b 2) 0 (s.chStages (u8 b 0)) 2, inRange (u8 b 3) 4 24 3,
      inRange (u8 b 4) 0 1 4, reserved b 5 3]

/-- FILTER_SET_THRESHOLD. -/
def thresholdPage : GPage :=
  umbPage 0x0708 (fun b => u8 b 0)
    (fun c s => allOf [inRange (u8 c.block 0) 0 39 0, inRange (u8 c.block 1) 0 1 1,
      need (s.chOwner (u8 c.block 0) = c.ctx) noPermission, s.reach dUMB])
    fun c _ =>
      let b := c.block
      allOf [inRange (u8 b 2) 0 2 2, inRange (u8 b 3) 0 16 3, inRange (u32 b 4) 1 8388607 4,
        inRange (u32 b 8) 0 (u32 b 4) 8]

/-- FILTER_SET_BAND. -/
def bandPage : GPage :=
  umbPage 0x0709 (fun b => u8 b 2)
    (fun c s =>
      let b := c.block
      let o := s.regN (R.UMB_BANDn_OWNER (u8 b 0))
      allOf [inRange (u8 b 0) 0 63 0, inRange (u8 b 2) 0 39 2, need (o = noOwner || o = c.ctx) noPermission,
        need (s.chOwner (u8 b 2) = c.ctx) noPermission, need (!s.foreignCoefs (u16 b 4) c.ctx) noPermission, s.reach dUMB])
    fun c s =>
      let b := c.block
      let d1 := match library.find? fun f => f.id = u16 b 4 with | some f => f.dLog = 0 | none => true
      allOf [inRange (u8 b 1) 0 1 1, inRange (u8 b 3) 0 (s.chStages (u8 b 2)) 3,
        need (s.taps (u16 b 4) ≠ 0 && d1) (badParam 4), inRange (u8 b 6) 0 31 6, reserved b 7 1,
        inRange (u32 b 8) 1 65536 8]

/-- FILTER_FREEZE_DC. -/
def execFilterFreezeDc (p : Nat) (s : State) : Res :=
  .next (runPage 0x0707 (plainPage
    (fun c s => allOf [chanAccess 0 (u8 c.block 0) c.ctx s, inRange (u8 c.block 1) 0 1 1, reserved c.block 2 2])
    (fun c s => ((s.touch dUMB).setRegFld (R.UMB_CHn_DC (u8 c.block 0)) 5 5 (u8 c.block 1), []))) p s)

/-- FILTER_SET_SYNC. -/
def execFilterSetSync (p : Nat) (s : State) : Res :=
  .next (runPage 0x070A (plainPage
    (fun c s =>
      let b := c.block
      allOf [inRange (u8 b 0) 0 3 0, s.reach dUMB, inRange (u8 b 1) 0 1 1, inRange (u8 b 2) 0 1 2, inRange (u8 b 3) 0 1 3])
    (fun c s =>
      let b := c.block
      let g := u8 b 0
      let t := ((s.touch dUMB).setRegFld R.UMB_SYNC_CFG g g (u8 b 1)).setRegFld R.UMB_SYNC_CFG (4 + g) (4 + g) (u8 b 2)
      (if u8 b 3 = 1 then t.resetGroup g s.now else t, []))) p s)

/-- The counters of a channel zeroed. -/
def State.clearChan (s : State) (c : Nat) : State := s.resetRegs (R.UMB_CHn_SAT c) (R.UMB_CHn_OUT_HI c + 4)

/-- FILTER_GET_STATS. -/
def actChanStats (c : Cmd) (s : State) : State × Bytes :=
  let ch := u8 c.block 0
  let t := s.touch dUMB
  let p := ch / 8
  let port := fun a => if ch < 32 then t.regN a else 0
  let out := leBytes 8 (t.reg64 (R.UMB_CHn_OUT_LO ch)) ++ leBytes 4 (t.regN (R.UMB_CHn_SAT ch)) ++
    leBytes 4 (port (R.UMB_Pn_DROP_OVR p)) ++ leBytes 4 (port (R.UMB_Pn_FRAME_ERR p)) ++
    leBytes 4 (t.preG ch (t.chStages ch)) ++ ((List.range 4).flatMap fun k => leBytes 1 (nth (t.chan ch).phases k 0)) ++
    leBytes 8 (t.chPeriod ch) ++ leBytes 8 (t.chCost ch).ceil.toNat ++ leBytes 4 0
  (if u8 c.block 1 = 1 then t.clearChan ch else t, out)

def execFilterGetStats (p : Nat) (s : State) : Res :=
  .next (runPage 0x070B (plainPage
    (fun c s => allOf [chanAccess 0 (u8 c.block 0) c.ctx s, inRange (u8 c.block 1) 0 1 1, reserved c.block 2 2])
    actChanStats) p s)

/-- A handle is in use by a chain or a band unit of a state. -/
def State.coefsUsed (v : State) (h : Nat) : Bool :=
  ((List.range 40).any fun c => (List.range (v.chStages c)).any fun k => fld (v.stgReg c k) 15 0 = h) ||
  ((List.range 64).any fun b => v.bandEn b && v.regN (R.UMB_BANDn_FILTER b) = h)

/-- The pool with its sets one after another in handle order (log entry 20). -/
def State.packCoefs (s : State) (sets : AMap (Nat × List Word)) : State :=
  (sets.foldl (fun (a : State × Nat) e =>
    ((a.1.setRegs (R.UMB_COEF a.2) e.2.2).modUmber fun u => { u with
      coefs := u.coefs.set e.1 ⟨e.2.1, a.2, e.2.2.length⟩ }, a.2 + e.2.2.length))
    ((s.resetRegs (R.UMB_COEF 0) (R.UMB_COEF 32768)).modUmber fun u => { u with coefs := [] }, 0)).1

/-- The sets as words. -/
def State.coefSets (s : State) : AMap (Nat × List Word) :=
  s.umber.coefs.map fun e => (e.1, e.2.ctx, (List.range e.2.taps).map fun i => s.reg (R.UMB_COEF (e.2.base + i)))

/-- The lowest free handle. -/
def State.freeHandle (s : State) : Option Nat :=
  ((List.range 1024).find? fun i => (s.umber.coefs.get? (0x100 + i)).isNone).map fun i => 0x100 + i

/-- FILTER_LOAD_COEFFS, where `v` is the projected state: a handle freed, or a set fetched and loaded. -/
def coeffsBody (v : State) : PageBody := fun c d s =>
  let b := c.block
  let h := u16 b 0
  let n := u16 b 2
  let held := s.umber.coefs.get? h
  let chk := allOf [need (h = 0 || (0x100 ≤ h && h ≤ 0x4FF)) (badParam 0), need (!s.foreignCoefs h c.ctx) noPermission,
    s.reach dUMB, need (h = 0 || (held.isSome && !s.coefsUsed h && !v.coefsUsed h)) (badParam 0),
    need (if h = 0 then 1 ≤ n && n ≤ 384 else n = 0) (badParam 2), reserved b 4 4, need (u64 b 8 % 4 = 0) (badParam 8),
    need (h ≠ 0 || (s.freeHandle.isSome && n ≤ s.coefFree)) noResource]
  match chk with
  | .error e => .fail e
  | .ok _ =>
    if h ≠ 0 then .done ((s.touch dUMB).packCoefs (s.coefSets.erase h)) (leBytes 4 h)
    else match d with
      | none => .wait (s.dmaAsk c.path (u64 b 8) (4 * n))
      | some r => match s.dmaRead c.path (u64 b 8) (4 * n) r with
        | none => .failWith (s.countDmaErr c.fn) dmaError
        | some data =>
          let ws := (List.range n).map fun i => u32 data (4 * i)
          if ws.all fun w => sext 32 w = sext 18 w then
            let k := s.freeHandle.getD 0
            .done ((s.touch dUMB).packCoefs (s.coefSets.set k (c.ctx, ws.map fun w => w32 (w % 0x40000)))) (leBytes 4 k)
          else .fail (badParam 8)

end Sys2Proof.Machine
end

