-- ==== Sys2Proof/Machine/Viridian.lean ====
section
/-! DEFINITION. Viridian (07): admission, windows, association, scores, FUSED records and the 0x08 commands. -/

namespace Sys2Proof.Machine

abbrev virElem (r : Nat) : Elem := ⟨4, r⟩

def State.setRule (s : State) (r : Nat) (x : RuleDyn) : State :=
  s.modViridian fun v => { v with rules := v.rules.set r x }

def State.ruleEn (s : State) (r : Nat) : Bool := s.regBit (R.VIR_Rn_CFG r) 0
def State.rulePeriodic (s : State) (r : Nat) : Bool := !s.regBit (R.VIR_Rn_CFG r) 3
def State.ruleOwner (s : State) (r : Nat) : Nat := s.regN (R.VIR_Rn_OWNER r)

/-! ## A window's configuration -/

abbrev virEvent : Nat := 0
abbrev virCorner : Nat := 1
abbrev virFlow : Nat := 2
abbrev virTrack : Nat := 3
abbrev virFilter : Nat := 4
abbrev virThreshold : Nat := 5
abbrev virBand : Nat := 6
abbrev virInference : Nat := 7
abbrev virFused : Nat := 8

def cfgInputs (cfg : List Word) : Nat := fld (nth cfg 0 0) 14 11
def cfgAnchor (cfg : List Word) : Nat := fld (nth cfg 0 0) 10 8
def cfgLevel (cfg : List Word) : Nat := fld (nth cfg 0 0) 2 1
/-- Word `k` of input `i`. -/
def cfgIn (cfg : List Word) (i k : Nat) : Word := nth cfg (10 + 4 * i + k) 0
def cfgKind (cfg : List Word) (i : Nat) : Nat := fld (cfgIn cfg i 0) 7 0
def cfgIndex (cfg : List Word) (i : Nat) : Nat := fld (cfgIn cfg i 0) 15 8
def cfgField (cfg : List Word) (i : Nat) : Nat := fld (cfgIn cfg i 0) 31 24
/-- 07 R135: EVENT inputs always use COUNT. -/
def cfgReduce (cfg : List Word) (i : Nat) : Nat := if cfgKind cfg i = virEvent then 6 else fld (cfgIn cfg i 0) 23 16

/-- The kinds whose key selects members (07 R131). -/
def keyedKind (k : Nat) : Bool := k = virCorner || k = virTrack || k = virThreshold || k = virInference

/-- Surface kinds, which have a position. -/
def placedKind (k : Nat) : Bool := k = virCorner || k = virFlow || k = virTrack

/-- 07 R131: a member of an input. A result without the element named is none. -/
def inputTakes (cfg : List Word) (m : Member) (i : Nat) : Bool :=
  cfgKind cfg i = m.kind && cfgIndex cfg i = m.index &&
  (!keyedKind m.kind || cfgIn cfg i 1 = 0xFFFFFFFF || cfgIn cfg i 1 = m.key) &&
  (m.kind = virEvent || cfgField cfg i < m.fields.length)

/-! ## Reduction (07 R135) -/

/-- A value into an entry. -/
def Entry.add (e : Entry) (reduce : Nat) (v : F32) (origin : Int) : Entry :=
  { count := e.count + 1
    oldest := if e.count = 0 then origin else min e.oldest origin
    acc := match reduce with
      | 0 => v
      | 1 => if e.count = 0 then v else e.acc
      | 2 => F.add e.acc v
      | 3 => F.add e.acc v
      | 4 => if e.count = 0 then v else F.min2 e.acc v
      | 5 => if e.count = 0 then v else F.max2 e.acc v
      | 7 => F.add e.acc (F.mul v v)
      | _ => 0 }

/-- The value of an entry; 0.0 without members. -/
def Entry.value (e : Entry) (reduce : Nat) : F32 :=
  if e.count = 0 then 0
  else match reduce with
    | 3 => F.div e.acc (F.ofNat e.count)
    | 6 => F.ofNat e.count
    | 7 => F.sqrt (F.div e.acc (F.ofNat e.count))
    | _ => e.acc

/-- 07 R137: a member passes the gate of a window for an input. -/
def Win.gate (w : Win) (i : Nat) (m : Member) : Bool :=
  let g := nth w.cfg 6 0
  let a := cfgAnchor w.cfg
  if F.isZero g || !placedKind m.kind || i = a then true
  else match w.newest with
    | none => false
    | some n =>
      placedKind (cfgKind w.cfg a) && cfgIndex w.cfg a = m.surface && F.le (dist2 (m.px, m.py) (n.px, n.py)) (F.mul g g)

/-- A member into an input of a window. Newest and oldest anchor members go by membership time (log entry 21). -/
def Win.add (w : Win) (i : Nat) (m : Member) : Win :=
  let anchor := i = cfgAnchor w.cfg
  { w with
    entries := w.entries.set i
      ((nth w.entries i ⟨0, 0, 0⟩).add (cfgReduce w.cfg i) (nth m.fields (cfgField w.cfg i) 0) m.origin)
    flags := w.flags ||| m.flags
    mask := w.mask ||| m.mask
    epochs := addEpoch w.epochs m.stamp.epoch
    mixed := w.mixed || m.gen ≠ w.gen
    top := newerOf w.top m.gen
    newest := if anchor then
        (match w.newest with | some n => if m.time < n.time then some n else some m | none => some m) else w.newest
    oldest := if anchor then
        (match w.oldest with | some n => if m.time < n.time then some m else some n | none => some m) else w.oldest }

/-! ## Opening and applying (07 R133, R145) -/

/-- A window opens. -/
def State.openWindow (s : State) (r t : Nat) : State :=
  let x := s.rule r
  let cfg := s.ruleCfg r
  let g := s.elemGen (s.ruleOwner r) (virElem r)
  let w : Win :=
    { openT := t, endT := t + s.regN (R.VIR_Rn_LEN r) * 1000, seq := x.seq + 1, ctx := s.ruleOwner r, gen := g, top := g,
      cfg := cfg, frame := x.frame, mapNo := x.mapNo, entries := List.replicate (cfgInputs cfg) ⟨0, 0, 0⟩, flags := 0, mask := 0, epochs := [], mixed := false,
      newest := none, oldest := none, coinc := 0, gapMark := false, midStamp := none, endStamp := none }
  ((s.setRule r { x with
    windows := x.windows ++ [w], seq := x.seq + 1, firstOpen := some (x.firstOpen.getD t) }).bump
      (R.VIR_Rn_WINDOWS r)).setReg (R.VIR_Rn_GEN r) (w32 g.toNat)

/-- Map cells that the registers of a rule take (07 R136). -/
def State.ruleCells (s : State) (r : Nat) : Nat :=
  if s.ruleEn r && s.regFld (R.VIR_Rn_CFG r) 2 1 = 1 then
    (s.regFld (R.VIR_Rn_REGION_SIZE r) 10 0 + 1) * (s.regFld (R.VIR_Rn_REGION_SIZE r) 26 16 + 1) else 0

/-- VIR_MAP_FREE. -/
def State.mapFree (s : State) : Nat := 65536 - (List.range 256).foldl (fun n r => n + s.ruleCells r) 0

/-- VIR_RULE_EN0 to 7. -/
def State.ruleEnWord (s : State) (k : Nat) : Word :=
  w32 ((List.range 32).foldl (fun n i => n + b2n (s.ruleEn (32 * k + i)) * 2 ^ i) 0)

/-- The map cells of a rule go but for those of its configuration and of the windows still open under an earlier one. -/
def State.pruneMap (s : State) (r : Nat) : State :=
  let x := s.rule r
  let used := (if s.ruleEn r then [x.mapNo] else []) ++ x.windows.map fun w => w.mapNo
  s.modViridian fun v => { v with
    map := v.map.filter fun e => e.1 / 4194304 % 256 ≠ r || used.contains (e.1 / 1073741824) }

/-- The bookkeeping of a rule anew, as at its enable or after its disable: the windows still open finish (07 R145). -/
def RuleDyn.fresh (x : RuleDyn) : RuleDyn := { RuleDyn.init with windows := x.windows, mapNo := x.mapNo + 1 }

/-- A rule under a new configuration: its next boundary, the frame of its events, and clear cells where they are new. -/
def State.startRule (s : State) (r frame : Nat) (enabled newMap : Bool) : State :=
  let x := if enabled then (s.rule r).fresh else s.rule r
  (s.setRule r { x with
    frame := frame, mapNo := if newMap then x.mapNo + 1 else x.mapNo, nextOpen := s.firstBoundary r s.now }).pruneMap r

/-- What a staged FUSE_SET_RULE holds: the frame of its events, and the offset of its window state in shared SRAM. -/
def ruleHandle (frame off : Nat) : Nat := frame + 4 * off
def handleFrame (g : GCmd) : Nat := g.handle % 4
def handleWindow (g : GCmd) : Nat := g.handle / 4

/-- FUSE_SET_RULE applied. A disabled rule gives back its cells and its window state; a window still open finishes. -/
def applyViridian (g : GCmd) (s : State) : State :=
  let b := g.block
  let r := u16 b 0
  let was := s.ruleEn r
  let t := ((s.freeSram exWindow r).resetRegs (R.VIR_Rn_CFG r) (R.VIR_Rn_GEN r)).resetRegs (R.VIR_Rn_IN r) (R.VIR_Rn_IN r + 0x80)
  if u8 b 2 = 0 then (t.setRule r (s.rule r).fresh).pruneMap r
  else
    let n := u8 b 8
    let t := if handleWindow g = 0 then t else t.retagSram (sramBase + handleWindow g) exWindow r
    let t := t.setRegs (R.VIR_Rn_CFG r) [w32 (1 + u8 b 3 * 2 + u8 b 4 * 8 + u8 b 5 * 16 + u8 b 6 * 64 + u8 b 7 * 0x100 +
        n * 0x800 + u8 b 9 * 0x8000 + u8 b 0x2C * 0x10000), w32 (u32 b 0x0C), w32 (u32 b 0x10), w32 (u32 b 0x14),
      w32 (u32 b 0x18), w32 (u32 b 0x1C), w32 (u32 b 0x20), w32 (u16 b 0x0A), w32 (u16 b 0x24 + u16 b 0x26 * 0x10000),
      w32 ((u16 b 0x28 - 1) % 2048 + (u16 b 0x2A - 1) % 2048 * 0x10000), w32 g.ctx]
    let t := t.setRegs (R.VIR_Rn_IN r) ((List.range (4 * n)).map fun i => w32 (u32 b (0x30 + 4 * i)))
    t.startRule r (handleFrame g) (!was)
      (s.reg (R.VIR_Rn_REGION_ORG r) ≠ t.reg (R.VIR_Rn_REGION_ORG r) ||
        s.reg (R.VIR_Rn_REGION_SIZE r) ≠ t.reg (R.VIR_Rn_REGION_SIZE r))

/-- A register write that enables a rule starts it; any other takes effect as the register is next read. -/
def State.writeRuleCfg (s : State) (r : Nat) (v : Word) : State :=
  let t := s.setReg (R.VIR_Rn_CFG r) (v &&& 0x1FFFF)
  if t.ruleEn r && !s.ruleEn r then
    t.startRule r (t.regFld (R.COB_Pn_CFG (t.regFld (R.VIR_Rn_IN r) 15 8)) 1 0) true false
  else t

/-- A rule applies what is armed for it, and source 196 asserts. -/
def State.virApply (s : State) (r : Nat) : State :=
  match s.armedAt (virElem r) with
  | some _ => (s.applyElem (virElem r) applyViridian).assertSource 196
  | none => s

/-- 07 R145: a command applies at once: the rule is being enabled or disabled, or it has no window. -/
def State.virAtOnce (s : State) (r : Nat) (cmds : List GCmd) : Bool :=
  !s.ruleEn r || (s.rule r).windows.isEmpty || cmds.any fun g => u8 g.block 2 = 0

/-- WINDOW_OPEN: the next boundary of a PERIODIC rule is reached; the armed configuration applies first. -/
def workWindowOpen (rule : Nat) (s : State) : Res :=
  .next (
    let due := fun (t : State) => t.ruleEn rule && t.rulePeriodic rule && t.domUp dVIR
    let b := (s.rule rule).nextOpen
    if due s && b ≤ s.now then
      let t := match s.armedAt (virElem rule) with
        | some _ =>
          let u := s.virApply rule
          u.setRule rule { u.rule rule with nextOpen := u.firstBoundary rule b }
        | none => s
      if due t && (t.rule rule).nextOpen = b then
        let u := t.openWindow rule b
        u.setRule rule { u.rule rule with nextOpen := u.firstBoundary rule (b + 1) }
      else t
    else s)

/-! ## Closing (07 R138 to R141) -/

/-- The source of a channel's inputs: its TDM port, or the derived channel itself. -/
def chSrc (c : Nat) : Nat := if c < 32 then 16 + c / 8 else c

/-- The sources whose gaps mark a window (07 R141). -/
def State.inputSrcs (s : State) (cfg : List Word) (i : Nat) : List Nat :=
  let k := cfgKind cfg i
  let n := cfgIndex cfg i
  if k = virEvent then [n]
  else if placedKind k then below 8 fun p => s.regBit (R.SEP_Sn_CFG n) (16 + p)
  else if k = virFilter ∨ k = virThreshold then [chSrc n]
  else if k = virBand then [chSrc (s.bandChan n)]
  else []

/-- 07 R138: the score, left to right in input order. -/
def scoreOf (cfg : List Word) (vals : List F32) : F32 :=
  F.sum ((List.range vals.length).map fun i =>
    if cfgLevel cfg = 3 then (if F.le (cfgIn cfg i 3) (nth vals i 0) then cfgIn cfg i 2 else 0)
    else F.mul (cfgIn cfg i 2) (nth vals i 0))

/-- The stamp at a steady time at or before the present tick (07 R140, 02 R35): on the first CLK_EVT edge from it. An edge
on the tick sees the step that falls due there, one before it does not. -/
def State.stampAt (s : State) (t : Nat) : Stamp :=
  let e := (2 * t + 4) / 5 * 163840
  let a := if e < s.amber.steadyQ then s.amber else s.clock
  mkStamp a ((a.farmQ + 32768 + e - a.steadyQ) / 65536) ((e + 32768) / 65536)

/-- 07 R140: time of validity of a closed window. A flushed window ends now, an interrupted one now if its end is not
reached (log entry 21). -/
def State.winTov (s : State) (w : Win) (cut : Nat) : Option Stamp :=
  match fld (nth w.cfg 0 0) 7 6 with
  | 0 => w.newest.map fun m => m.stamp
  | 1 => w.oldest.map fun m => m.stamp
  | 2 => some (if cut = 2 ∨ s.now < w.endT then s.tickStamp else w.endStamp.getD (s.stampAt w.endT))
  | _ => some (w.midStamp.getD s.tickStamp)

/-- A window of a rule closes; `cut` is 2 for a flush and 4 for an interruption, 0 otherwise. -/
def State.closeWindow (s : State) (r : Nat) (w : Win) (cut : Nat) : State :=
  let n := cfgInputs w.cfg
  let counts := w.entries.map fun e => e.count
  let endT := if cut = 2 then s.now else if cut = 4 then Nat.min w.endT s.now else w.endT
  let x := s.rule r
  let s0 := if bit (nth w.cfg 0 0) 3 then s.setRule r { x with closed := (w.openT, endT) :: x.closed } else s
  match s.winTov w cut with
  | tov =>
    if counts.all fun c => c = 0 then s0.bumpSat (R.VIR_Rn_EMPTY r)
    else if (bit (nth w.cfg 0 0) 15 && counts.any fun c => c = 0) || tov.isNone then
      (s0.bumpSat (R.VIR_Rn_INCOMPLETE r)).assertSource 197
    else
      let t := tov.getD Stamp.zero
      let vals := (List.range n).map fun i => (nth w.entries i ⟨0, 0, 0⟩).value (cfgReduce w.cfg i)
      let score := scoreOf w.cfg vals
      let trig := F.le (nth w.cfg 5 0) score
      let mode := fld (nth w.cfg 0 0) 5 4
      let out := mode = 0 || (mode = 1 && trig) || (mode = 2 && trig != x.prevTrig)
      let s1 := s0.setRule r { s0.rule r with prevTrig := trig }
      let s2 := if trig then s1.bumpSat (R.VIR_Rn_TRIGGERED r) else s1
      if !out then s2
      else
        let entry := fun i =>
          let e := nth w.entries i ⟨0, 0, 0⟩
          FusedEntry.mk i (cfgReduce w.cfg i) e.count (nth vals i 0) e.oldest (cfgIn w.cfg i 1)
        let extra := if cfgLevel w.cfg = 1 then [FusedEntry.mk 0xFF 6 w.coinc (F.ofNat w.coinc) 0 0] else []
        let used := w.entries.filter fun e => e.count ≠ 0
        let rec' : Fused :=
          { rule := r, ctx := w.ctx, level := cfgLevel w.cfg, seq := w.seq, openT := w.openT, endT := endT, score := score,
            outcome := b2n trig + cut, tov := t, entries := (List.range n).map entry ++ extra,
            flags := w.flags ||| flagIf (w.epochs.any fun e => e ≠ t.epoch) flEpochCross |||
              flagIf w.gapMark flInputGap ||| flagIf w.mixed flMixedGen,
            mask := w.mask, gen := w.top,
            gapSrcs := (List.range n).flatMap (s.inputSrcs w.cfg),
            irq := trig && bit (nth w.cfg 0 0) 16,
            oldest := used.foldl (fun k e => min k e.oldest) ((used.map fun e => e.oldest).headD 0) }
        (s2.bumpSat (R.VIR_Rn_EMITTED r)).modViridian fun v => { v with closing := v.closing ++ [rec'] }

/-- A rule whose windows have all closed is at its apply point (07 R145). -/
def State.virRest (s : State) (r : Nat) : State := if (s.rule r).windows.isEmpty then s.virApply r else s

/-- Every open window of a rule closes now. -/
def State.cutRule (s : State) (r cut : Nat) : State :=
  let x := s.rule r
  (x.windows.foldl (fun t w => t.closeWindow r w cut) (s.setRule r { x with windows := [] })).virRest r

/-! ## Admission (07 R132 to R137) -/

/-- A member late for a rule (07 R134): before the first window, or in windows that have closed. -/
def State.lateFor (s : State) (r t : Nat) : Bool :=
  let x := s.rule r
  match x.firstOpen with
  | none => !s.rulePeriodic r || t < x.nextOpen
  | some f => t < f || (if s.rulePeriodic r then t < x.nextOpen else x.closed.any fun c => c.1 ≤ t && t < c.2)

/-- A member meets one window: the new window, whether it joined, and refusals at the gate. -/
def Win.meet (w : Win) (m : Member) (coinc : Bool) : Win × Bool × Nat :=
  (List.range (cfgInputs w.cfg)).foldl (fun a i =>
    if inputTakes w.cfg m i then (if a.1.gate i m then (a.1.add i m, true, a.2.2) else (a.1, a.2.1, a.2.2 + 1)) else a)
    ({ w with coinc := w.coinc + b2n coinc }, false, 0)

/-- A configuration of a rule: its registers, and the frame and the map of an EVENT rule. -/
abbrev RuleCfg : Type := List Word × Nat × Nat

/-- The configuration that a rule's next window opens under. -/
def State.cfgNow (s : State) (r : Nat) : RuleCfg := (s.ruleCfg r, (s.rule r).frame, (s.rule r).mapNo)

def Win.cfgOf (w : Win) : RuleCfg := (w.cfg, w.frame, w.mapNo)

/-- A member into a rule. `sees` says whether a configuration takes it, and with a coincidence or without. -/
def State.joinRule (s : State) (r : Nat) (m : Member) (sees : RuleCfg → Option Bool) : State :=
  let cfg := s.ruleCfg r
  let own := s.ruleEn r && s.ruleOwner r = m.ctx && (sees (s.cfgNow r)).isSome
  let s1 := if own && !s.rulePeriodic r && (s.rule r).windows.isEmpty && inputTakes cfg m (cfgAnchor cfg)
    then s.openWindow r m.time else s
  let x := s1.rule r
  let within := fun (w : Win) => w.ctx = m.ctx && w.openT ≤ m.time && m.time < w.endT
  let met := x.windows.map fun w => match sees w.cfgOf with
    | some c => if within w then w.meet m c else (w, false, 0)
    | none => (w, false, 0)
  let s2 := (s1.setRule r { x with windows := met.map fun a => a.1 }).bumpSat (R.VIR_Rn_GATED r)
    (met.foldl (fun n a => n + a.2.2) 0)
  if met.any fun a => a.2.1 then s2.bump (R.VIR_Rn_ADMITTED r)
  else if own && (List.range (cfgInputs cfg)).any (inputTakes cfg m) && !(x.windows.any within) && s1.lateFor r m.time then
    ((s2.assertSourceIf (s2.reg R.VIR_LATE_TOTAL = 0) 193).bumpSat R.VIR_LATE_TOTAL).bumpSat (R.VIR_Rn_LATE r)
  else s2

/-- Key of a co-registration cell. -/
def mapCell (no r x y : Nat) : Nat := (no * 256 + r) * 4194304 + y * 2048 + x

/-- An event comes from a port that a configuration lists. -/
def RuleCfg.lists (c : RuleCfg) (m : Member) : Bool := (List.range (cfgInputs c.1)).any (inputTakes c.1 m)

/-- An event is a member under a configuration: its port, its frame, its region (07 R136). -/
def RuleCfg.takes (c : RuleCfg) (m : Member) : Bool :=
  let o := nth c.1 8 0
  let z := nth c.1 9 0
  c.lists m && m.frame = c.2.1 && fld o 10 0 ≤ m.x && m.x ≤ fld o 10 0 + fld z 10 0 &&
    fld o 26 16 ≤ m.y && m.y ≤ fld o 26 16 + fld z 26 16

/-- Steady µs modulo 2^28, as a map cell stores them. -/
def mapUs (t : Nat) : Nat := t / 1000 % 268435456

/-- An event under a configuration of a rule: none, or a member with a coincidence or without (07 R136 step 1). -/
def State.eventSeen (s : State) (r : Nat) (m : Member) (c : RuleCfg) : Option Bool :=
  if !c.takes m then none
  else
    let win := fld (nth c.1 7 0) 13 0
    match s.viridian.map.get? (mapCell c.2.2 r m.x m.y) with
    | some e => some (win ≠ 0 && e / 268435456 ≠ m.port && (mapUs m.time + 268435456 - e % 268435456) % 268435456 ≤ win)
    | none => some false

/-- An event into an EVENT rule, under its configuration and those of the windows that opened before an apply: another frame
is counted once, the coincidence test goes before the cells are overwritten (07 R136, R145). -/
def State.eventRule (s : State) (r : Nat) (m : Member) : State :=
  let cfgs := ((if s.ruleEn r && s.ruleOwner r = m.ctx then [s.cfgNow r] else []) ++
    ((s.rule r).windows.filter fun w => w.ctx = m.ctx).map Win.cfgOf).filter fun c => c.lists m
  let cells := (cfgs.filter fun c => c.takes m).map fun c => mapCell c.2.2 r m.x m.y
  let skipped := (cfgs.take 1).any fun c => m.frame ≠ c.2.1
  let s1 := if skipped then s.bumpSat (R.VIR_Rn_SKIPFRAME r) else s
  if cells.isEmpty then s1
  else
    let s2 := s1.modViridian fun v => { v with map := cells.foldl (fun q k => q.set k (m.port * 268435456 + mapUs m.time)) v.map }
    s2.joinRule r m (s.eventSeen r m)

/-- A member admitted to every rule that takes it. INFERENCE and FUSED members are dated by their admission; the queue
holds their age in place of an origin (07 R132). -/
def State.admitMember (s : State) (m : Member) : State :=
  let m := if m.kind = virInference ∨ m.kind = virFused then
      { m with time := s.now, origin := (s.now : Int) - m.origin * 1000 } else m
  (s.rulesFor m.kind m.index m.ctx).foldl
    (fun t r => if m.kind = virEvent then t.eventRule r m else t.joinRule r m fun _ => some false) s

/-- The member at the front of the queue admitted. -/
def State.admitFront (s : State) : State :=
  match s.viridian.queue with
  | [] => s
  | m :: q => (s.modViridian fun v => { v with queue := q }).admitMember m

/-- MEMBER_ADMIT. -/
def workMemberAdmit (s : State) : Res := .next s.admitFront

/-- Every queued member admitted. -/
def State.admitAll (s : State) : State := s.viridian.queue.foldl (fun t _ => t.admitFront) s

/-- WINDOW_CLOSE: the oldest window whose end and hold have passed. A member that has reached Viridian is admitted first
(07 R133). -/
def workWindowClose (rule : Nat) (s : State) : Res :=
  .next (
    let due := fun (w : Win) => w.endT + (nth w.cfg 3 0).toNat * 1000 ≤ s.now
    if !s.domUp dVIR then s
    else match (s.rule rule).windows.find? due with
      | none => s
      | some _ =>
        let t := s.admitAll
        let x := t.rule rule
        match x.windows.find? due with
        | none => t
        | some w => ((t.setRule rule { x with windows := x.windows.erase w }).closeWindow rule w 0).virRest rule)

/-! ## Staging (07 R143, R144) -/

/-- Gaps of what 04 R87 looks at, and of TDM ports still open. -/
def State.winGap (s : State) (srcs : List Nat) (lo hi : Nat) : Bool :=
  s.gapOverlaps srcs.contains lo hi ||
  ((List.range 4).any fun p => srcs.contains (16 + p) &&
    (match (s.tdm p).gap with | some g => g.overlaps lo hi | none => false))

/-- The body of a FUSED record (07 R144). -/
def Fused.body (f : Fused) (now : Nat) : Bytes :=
  leBytes 2 f.rule ++ leBytes 1 f.level ++ leBytes 1 f.entries.length ++ leBytes 4 f.seq.toNat ++ leBytes 8 f.openT ++
  leBytes 8 f.endT ++ leBytes 4 f.score.toNat ++ leBytes 1 f.outcome ++ leBytes 3 0 ++
  f.entries.flatMap fun e =>
    leBytes 1 e.input ++ leBytes 1 e.reduce ++ leBytes 2 (Nat.min e.count 0xFFFF) ++ leBytes 4 e.value.toNat ++
    leBytes 4 (if e.count = 0 ∨ e.input = 0xFF then 0 else ageUs now e.oldest) ++ leBytes 4 e.key.toNat

/-- A FUSED record staged, and offered to rules of higher number and to bindings. -/
def State.stageFused (s : State) (f : Fused) : State :=
  let fl := s.emitFlags (f.flags ||| flagIf (s.winGap f.gapSrcs f.openT (f.endT - 1)) flInputGap)
  let t := (s.emit .viridian (some f.ctx) 0x0030 f.tov f.oldest fl f.mask f.gen (f.body s.now)).assertSourceIf f.irq 192
  let t := t.offerMember
    { kind := virFused, index := f.rule, key := 0, fields := [f.score, F.ofNat f.outcome], time := 0,
      origin := ageUs s.now f.oldest, stamp := f.tov, flags := fl, mask := f.mask, gen := f.gen, ctx := f.ctx,
      surface := 0, px := 0, py := 0, x := 0, y := 0, port := 0, frame := 0 }
  t.offerInput ⟨1, f.rule, f.ctx, f.score :: f.entries.map (fun e => e.value), f.tov, f.oldest, fl, f.mask, f.gen⟩

/-- The closed window at the front formed and staged. -/
def State.stageFront (s : State) : State :=
  match s.viridian.closing with
  | [] => s
  | f :: l => (s.modViridian fun v => { v with closing := l, waiting := false }).stageFused f

/-- FUSED_RECORD_STAGE: with no space the closes wait, and source 195 asserts at the start of the wait. -/
def workFusedRecordStage (s : State) : Res :=
  .next (match s.viridian.closing with
    | [] => s
    | f :: _ =>
      if s.stagedBytes .viridian + 64 + 16 * f.entries.length ≤ 65536 then s.stageFront
      else if s.viridian.waiting then s
      else (s.modViridian fun v => { v with waiting := true }).assertSource 195)

/-- COREG_MAP_SCRUB (07 R136). -/
def workCoregMapScrub (s : State) : Res :=
  .next (s.modViridian fun v => { v with
    map := v.map.filter fun e => (s.now / 1000 + 268435456 - e.2 % 268435456) % 268435456 < 16384 })

/-! ## Time, power-down -/

/-- The farm time at the middle and at the end of a window, once steady time reaches them (07 R140). -/
def State.virTick (s : State) : State :=
  let mark := fun (w : Win) =>
    let mid := w.openT + (nth w.cfg 1 0).toNat * 500
    { w with
      midStamp := if w.midStamp.isNone && mid ≤ s.now then some (s.stampAt mid) else w.midStamp
      endStamp := if w.endStamp.isNone && w.endT ≤ s.now then some (s.stampAt w.endT) else w.endStamp }
  s.modViridian fun v => { v with rules := v.rules.map fun e => (e.1, { e.2 with windows := e.2.windows.map mark }) }

/-- 07 Power-down of VIR. -/
def State.virDown (s : State) : State :=
  let t := (List.range 256).foldl (fun t r => t.cutRule r 4) s.admitAll
  let t := t.viridian.closing.foldl (fun t _ => t.stageFront) t
  t.modViridian fun v => { v with map := [], waiting := false }

/-- 12 R241 step 2: the open windows of a context close as under FUSE_FLUSH. -/
def State.virFlush (s : State) (ctx : Nat) : State :=
  (below 256 fun r => s.ruleOwner r = ctx || (s.rule r).windows.any fun w => w.ctx = ctx).foldl (fun t r => t.cutRule r 2) s

/-! ## Command pages -/

def ruleAccess (r ctx : Nat) (s : State) : Check :=
  allOf [inRange r 0 255 0, need (s.ruleOwner r = noOwner || s.ruleOwner r = ctx) noPermission, s.reach dVIR]

/-- 07 R131: the highest index and field of a kind. EVENT has no field. -/
def kindIndex (k : Nat) : Nat := nth [7, 15, 15, 15, 39, 39, 63, 0, 255] k 0
def kindField (k : Nat) : Nat := nth [255, 0, 2, 5, 0, 1, 1, 255, 1] k 0

/-- The levels that take a kind. -/
def kindLevel (k level : Nat) : Bool :=
  if k = virEvent then level = 1 else if k ≤ virBand then level = 2 || level = 3 else k ≤ virFused && level = 3

/-- A context owns or holds the source of an input. -/
def State.holdsSource (s : State) (ctx k i : Nat) (key : Word) : Bool :=
  if k = virEvent then s.portOwner i = ctx
  else if placedKind k then s.surfOwner i = ctx
  else if k = virFilter ∨ k = virThreshold then s.chOwner i = ctx
  else if k = virBand then s.regN (R.UMB_BANDn_OWNER i) = ctx
  else if k = virInference then
    key = 0xFFFFFFFF || (match s.indigo.binds.get? key.toNat with | some b => b.ctx = ctx | none => false)
  else s.ruleOwner i = ctx

/-- The output frame of the first port of a FUSE_SET_RULE block. -/
def ruleFrame (b : Bytes) (v : State) : Nat := if u8 b 3 = 1 then v.regFld (R.COB_Pn_CFG (u8 b 0x31)) 1 0 else 0

/-- FUSE_SET_RULE. -/
def rulePage : GPage :=
  let inputs := fun (b : Bytes) => List.range (Nat.min (u8 b 8) 8)
  let at' := fun i => 0x30 + 16 * i
  { GPage.plain 0x0801 (fun c _ => virElem (u16 c.block 0))
      (fun c s =>
        let b := c.block
        let r := u16 b 0
        allOf [inRange r 0 255 0,
          allOf ((inputs b).map fun i =>
            need (8 < u8 b (at' i) || u8 b (at' i + 1) ≤ kindIndex (u8 b (at' i))) (badParam (at' i + 1))),
          need (s.ruleOwner r = noOwner || s.ruleOwner r = c.ctx) noPermission,
          need ((inputs b).all fun i => 8 < u8 b (at' i) ||
            s.holdsSource c.ctx (u8 b (at' i)) (u8 b (at' i + 1)) (w32 (u32 b (at' i + 4)))) noPermission,
          s.reach dVIR])
      (fun c s =>
        let b := c.block
        let lvl := u8 b 3
        let n := u8 b 8
        let len := u32 b 0x0C
        let hop := u32 b 0x10
        let per := u8 b 4 = 0
        let frame := fun i => s.regFld (R.COB_Pn_CFG (u8 b (at' i + 1))) 1 0
        let one := fun i =>
          let k := u8 b (at' i)
          allOf [need (k ≤ 8 && kindLevel k lvl) (badParam (at' i)),
            need (u8 b (at' i + 1) ≤ kindIndex k && (k ≠ virFused || u8 b (at' i + 1) < u16 b 0) &&
              (k ≠ virEvent || (frame i = frame 0 && (n = 1 || frame i ≠ 0)))) (badParam (at' i + 1)),
            inRange (u8 b (at' i + 2)) 0 7 (at' i + 2), inRange (u8 b (at' i + 3)) 0 (kindField k) (at' i + 3),
            need (F.finite (w32 (u32 b (at' i + 8)))) (badParam (at' i + 8)),
            need (lvl ≠ 3 || F.finite (w32 (u32 b (at' i + 12)))) (badParam (at' i + 12))]
        allOf ([inRange (u8 b 2) 0 1 2, inRange lvl 1 3 3, inRange (u8 b 4) 0 1 4, inRange (u8 b 5) 0 2 5,
          inRange (u8 b 6) 0 3 6, need (u8 b 7 < n) (badParam 7), inRange n 1 8 8, inRange (u8 b 9) 0 1 9,
          need (lvl ≠ 1 || u16 b 0x0A ≤ 16383) (badParam 0x0A), inRange len 10 10000000 0x0C,
          need (!per || (len ≤ 16 * hop && hop ≤ len)) (badParam 0x10), inRange (u32 b 0x14) 0 1000000 0x14,
          need (!per || u32 b 0x18 < hop * 1000) (badParam 0x18), need (F.finite (w32 (u32 b 0x1C))) (badParam 0x1C),
          need (inF (w32 (u32 b 0x20)) 0 0x43800000) (badParam 0x20),
          need (lvl ≠ 1 || u16 b 0x24 ≤ 2047) (badParam 0x24), need (lvl ≠ 1 || u16 b 0x26 ≤ 2047) (badParam 0x26),
          need (lvl ≠ 1 || (1 ≤ u16 b 0x28 && u16 b 0x24 + u16 b 0x28 ≤ 2048)) (badParam 0x28),
          need (lvl ≠ 1 || (1 ≤ u16 b 0x2A && u16 b 0x26 + u16 b 0x2A ≤ 2048)) (badParam 0x2A),
          inRange (u8 b 0x2C) 0 1 0x2C, reserved b 0x2D 3] ++ (inputs b).map one)) with
    reserve := fun g ctx v w s =>
      let b := g.block
      let r := u16 b 0
      let mine := fun q => q = r || v.ruleOwner q = ctx
      if 65536 < claimed mine (applyViridian g v) w State.ruleCells (List.range 256) then .error noResource
      else if u8 b 2 = 0 then .ok (s, 0)
      else match s.allocSram (Config.windowState (u8 b 8)).toNat ctx exPending r with
        | some (t, a) => .ok (t, ruleHandle (ruleFrame b v) (a - sramBase))
        | none => .error noResource
    release := fun g s => if handleWindow g = 0 then s else s.freeSramAt (sramBase + handleWindow g) }

/-- FUSE_FLUSH. -/
def execFuseFlush (p : Nat) (s : State) : Res :=
  .next (runPage 0x0802 (plainPage
    (fun c s => allOf [ruleAccess (u16 c.block 0) c.ctx s, need (s.ruleEn (u16 c.block 0)) (badParam 0),
      reserved c.block 2 2])
    (fun c s => ((s.touch dVIR).cutRule (u16 c.block 0) 2, []))) p s)

/-- The counters of a rule zeroed. -/
def State.clearRule (s : State) (r : Nat) : State := s.resetRegs (R.VIR_Rn_WINDOWS r) (R.VIR_Rn_TRIGGERED r + 4)

/-- The steady time of a rule's next window opening; zero for TRIGGERED and for a disabled rule. -/
def State.ruleNext (s : State) (r : Nat) : Nat := if s.ruleEn r && s.rulePeriodic r then (s.rule r).nextOpen else 0

/-- FUSE_GET_STATS. -/
def execFuseGetStats (p : Nat) (s : State) : Res :=
  .next (runPage 0x0803 (plainPage
    (fun c s => allOf [ruleAccess (u16 c.block 0) c.ctx s, inRange (u8 c.block 2) 0 1 2, reserved c.block 3 1])
    (fun c s =>
      let r := u16 c.block 0
      let t := s.touch dVIR
      (if u8 c.block 2 = 1 then t.clearRule r else t,
        ((List.range 9).flatMap fun i => leBytes 4 (t.regN (R.VIR_Rn_WINDOWS r + 4 * i))) ++
        leBytes 4 (t.rule r).windows.length ++ leBytes 8 (t.ruleNext r)))) p s)

/-- VIR_RN_CNT_CLR. -/
def execVirRnCntClr (rule : Nat) (v : Word) (s : State) : Res :=
  .next (if bit v 0 then s.clearRule rule else s)

end Sys2Proof.Machine
end

