-- ==== Sys2Proof/Machine/Indigo.lean ====
section
/-! DEFINITION. Indigo (08, 09): packages, bindings, input windows, runs, the predictor, shadow-latch replays and the 0x09
and 0x0A commands, with the admission of runs (16 R320). -/

namespace Sys2Proof.Machine

abbrev idgElem (b : Nat) : Elem := ⟨5, b⟩

def State.bind? (s : State) (b : Nat) : Option Bind := s.indigo.binds.get? b
def State.setBind (s : State) (b : Nat) (x : Bind) : State := s.modIndigo fun i => { i with binds := i.binds.set b x }
def State.model? (s : State) (m : Nat) : Option Model := s.indigo.models.get? m

/-- A binding changed, where it exists. -/
def State.onBind (s : State) (b : Nat) (f : Bind → Bind) : State :=
  match s.bind? b with
  | some x => s.setBind b (f x)
  | none => s

/-! ## Packages (08 R153 to R155) -/

def Model.tiles (m : Model) : Nat := u8 m.header 0x0C
def Model.inFmt (m : Model) : Nat := u8 m.header 0x0D
def Model.layerCount (m : Model) : Nat := u16 m.header 0x0E
def Model.id (m : Model) : BitVec 64 := BitVec.ofNat 64 (u64 m.header 0x18)
def Model.actBytes (m : Model) : Nat := u32 m.header 0x20
def Model.positions (m : Model) : Nat := u32 m.header 0x24
def Model.features (m : Model) : Nat := u16 m.header 0x28
def Model.outputs (m : Model) : Nat := u16 m.header 0x2A
def Model.inScale (m : Model) : F32 := w32 (u32 m.header 0x2C)
def Model.outScale (m : Model) : F32 := w32 (u32 m.header 0x30)
def Model.inZp (m : Model) : Int := i16 m.header 0x34
def Model.outZp (m : Model) : Int := i16 m.header 0x36
def Model.weightBytes (m : Model) : Nat := u64 m.header 0x38
/-- Energy of a run at a point, µJ rounded up, and its tile cycles. -/
def Model.energyUj (m : Model) (p : Nat) : Nat := (u32 m.header (0x40 + 8 * p) + 999) / 1000
def Model.cycles (m : Model) (p : Nat) : Nat := u32 m.header (0x44 + 8 * p)
def Model.outKind (m : Model) : Nat := u8 m.header 0x88

/-- 09 R170: a layer's mode byte is allowed for its class and format. -/
def modeOk (op fmt byte : Nat) : Bool :=
  let mode := byte % 4
  byte / 4 % 4 = 0 && (byte / 16 = 0 || mode = 2) && (mode = 0 || (1 ≤ op && op ≤ 4 && (mode = 1 || fmt ≤ 1)))

/-- Entry `i` of a package's layer table (08 R154). -/
def layerEntry (b : Bytes) (i : Nat) : Bytes := slice b (u64 b 0x80 + 32 * i) 32

def layerOf (e : Bytes) : Layer :=
  { op := u8 e 0, format := u8 e 1, mode := BitVec.ofNat 8 (u8 e 2), placement := u8 e 3, home := u8 e 4,
    weightOff := u64 e 8, weightLen := u64 e 16, progOff := u32 e 24, progLen := u32 e 28 }

/-- The first check of 08 R155 on a layer entry. -/
def layerOk (group bodyEnd : Nat) (e : Bytes) : Bool :=
  modeOk (u8 e 0) (u8 e 1) (u8 e 2) && u8 e 3 ≤ 1 && u8 e 4 < group && u8 e 5 = 0 && u16 e 6 = 0 &&
  u64 e 8 + u64 e 16 ≤ bodyEnd && u32 e 24 + u32 e 28 ≤ bodyEnd

/-- A binary32 above zero. -/
def scaleOk (w : Nat) : Bool := F.lt 0 (w32 w)

/-- The checks of 08 R155 on a fetched package, in their order. -/
def packageCheck (b : Bytes) (len : Nat) : Check :=
  let n := u16 b 0x0E
  let bodyEnd := len - 48
  let entries := (List.range n).map (layerEntry b)
  let header := u32 b 0 = 0x504D5A51 && u16 b 4 = 1 && 1 ≤ u8 b 0x0A && u8 b 0x0A ≤ 4 && u8 b 0x0B < u8 b 0x0A &&
    1 ≤ u8 b 0x0C && u8 b 0x0C ≤ 16 && u8 b 0x0D ≤ 4 && 1 ≤ n && n ≤ 4096 && u64 b 0x10 = len &&
    u32 b 0x20 ≤ 2097152 && 1 ≤ u32 b 0x24 && u32 b 0x24 ≤ 65535 && 1 ≤ u16 b 0x28 && 1 ≤ u16 b 0x2A &&
    u16 b 0x2A ≤ 16366 && scaleOk (u32 b 0x2C) && (u8 b 0x88 = 1 || scaleOk (u32 b 0x30)) && u8 b 0x88 ≤ 2 &&
    (slice b 0x89 119).all (fun x => x = 0) && 256 ≤ u64 b 0x80 && u64 b 0x80 + 32 * n ≤ bodyEnd
  allOf [need (header && entries.all (layerOk (u8 b 0x0A) bodyEnd)) (badParam 0),
    need (sha384 (b.take bodyEnd) = slice b bodyEnd 48) ⟨cSignature, 0⟩,
    need (u16 b 6 ≤ 0x0207 && 0x0207 ≤ u16 b 8) ⟨cCompat, 0⟩,
    need (entries.all fun e => 1 ≤ u8 e 0 && u8 e 0 ≤ 7 && u8 e 1 ≤ 4) (badParam 0)]

/-- The lowest free model handle. -/
def State.freeModel (s : State) : Option Nat :=
  ((List.range 64).map fun i => i + 1).find? fun h => (s.model? h).isNone

def State.countModels (s : State) : State := s.setReg R.IDG_MODELS (w32 s.indigo.models.length)

/-- INFER_LOAD_MODEL. -/
def loadModelBody : PageBody := fun c d s =>
  let b := c.block
  let len := u64 b 8
  match allOf [need (u64 b 0 % 64 = 0) (badParam 0), need (512 ≤ len && len ≤ 4294967296) (badParam 8)] with
  | .error e => .fail e
  | .ok _ => match d with
    | none => .wait (s.dmaAsk c.path (u64 b 0) len)
    | some r => match s.dmaRead c.path (u64 b 0) len r with
      | none => .failWith (s.countDmaErr c.fn) dmaError
      | some p => match packageCheck p len with
        | .error e => .fail e
        | .ok _ => match s.freeModel with
          | none => .fail noResource
          | some h => match s.allocDram len c.ctx exModel h with
            | none => .fail noResource
            | some (t, a) =>
              let m : Model :=
                { ctx := c.ctx, header := p.take 256, layers := (List.range (u16 p 0x0E)).map fun i => layerOf (layerEntry p i),
                  base := a, len := len }
              .done ((t.blockWrite (0x400 + c.ctx) a p).modIndigo fun i => { i with models := i.models.set h m }).countModels
                (leBytes 4 h)

def execInferLoadModel (p : Nat) (s : State) : Res := .next (runPage 0x0901 loadModelBody p s)

/-- A command that binds a model. -/
def bindsModel (h : Nat) (g : GCmd) : Bool := g.opcode = 0x0903 && u8 g.block 2 = 1 && u16 g.block 4 = h

/-- A binding uses a model, or one staged or armed will. -/
def State.modelUsed (s : State) (h : Nat) : Bool :=
  (s.indigo.binds.any fun e => e.2.model = h) || (s.host.armed.any fun a => a.cmds.any (bindsModel h)) ||
  s.host.ctxs.any fun e => match e.2.set with | some k => k.staged.any (bindsModel h) | none => false

/-- A model unloaded. -/
def State.dropModel (s : State) (h : Nat) : State :=
  ((s.freeDram exModel h).modIndigo fun i => { i with models := i.models.erase h }).countModels

/-- A model named by a command. -/
def modelAccess (h off ctx : Nat) (s : State) : Check :=
  match s.model? h with
  | some m => need (m.ctx = ctx) noPermission
  | none => .error (badParam off)

/-- INFER_UNLOAD_MODEL. -/
def execInferUnloadModel (p : Nat) (s : State) : Res :=
  .next (runPage 0x0902 (plainPage
    (fun c s => allOf [modelAccess (u16 c.block 0) 0 c.ctx s, reserved c.block 2 2,
      need (!s.modelUsed (u16 c.block 0)) busy])
    (fun c s => (s.dropModel (u16 c.block 0), []))) p s)

/-! ## Quantisation (08 R156) -/

/-- A value as an element of an input format. -/
def quantise (m : Model) (v : F32) : Int :=
  if m.inFmt ≤ 1 then
    let r := fmtRange m.inFmt
    let x := F.add (F.div v m.inScale) (F.ofInt m.inZp)
    if F.isNan x then clampI r.1 r.2 m.inZp
    else if F.isInf x then (if F.neg? x then r.1 else r.2)
    else clampI r.1 r.2 (F.toIntRne x 0)
  else fpElem m.inFmt v

/-- Bytes of `n` elements of a format. -/
def elemBytes (fmt n : Nat) : Nat := if fmt = 1 then (n + 1) / 2 else if fmt = 4 then 2 * n else n

/-- Element `i` of a host tensor; INT4 elements lie two to a byte, the low nibble first (log entry 22). -/
def tensorElem (fmt : Nat) (b : Bytes) (i : Nat) : Int :=
  if fmt = 0 then i8 b i
  else if fmt = 1 then sext 4 (u8 b (i / 2) / (if i % 2 = 0 then 1 else 16))
  else if fmt = 4 then u16 b (2 * i)
  else u8 b i

/-! ## Results (08 R158, R159, 09 R175) -/

/-- Tiles of a mask. -/
def tilesOf (m : BitVec 16) : List Nat := below 16 fun t => m.toNat.testBit t

/-- The flags that a window gives its result. -/
def windowFlags (r : Run) : Word :=
  r.window.foldl (fun (f : Word) p => f ||| p.flags) 0 ||| epochFlag (r.window.map fun p => p.stamp.epoch) |||
  flagIf (r.window.any fun p => p.gen ≠ r.gen) flMixedGen

/-- The newest of a run's generations. -/
def Run.top (r : Run) : BitVec 16 := r.window.foldl (fun g p => newerOf g p.gen) r.gen

/-- The oldest origin of a run's window. -/
def Run.oldest (r : Run) : Int :=
  r.window.foldl (fun k p => min k p.origin) ((r.window.map fun p => p.origin).headD 0)

/-- What a result says beside its run. -/
structure Result where
  status : Nat
  startT : Nat
  point : Nat
  path : Nat
  energy : Nat
  replays : Nat
  tov : Stamp
  oldest : Int
  flags : Word
  outputs : List Word

/-- The energy-table entry of a binding's package at a point, µJ (08 R159). -/
def State.tableEnergy (s : State) (b p : Nat) : Nat :=
  match s.bind? b with
  | some x => (match s.model? x.model with | some m => m.energyUj p | none => 0)
  | none => 0

/-- An INFERENCE_RESULT staged, counted, kept for SKIP where it was computed (09 R175), and offered to the rules that take it. -/
def State.emitResult (s : State) (r : Run) (z : Result) : State :=
  match s.bind? r.binding with
  | none => s
  | some x =>
    let b := r.binding
    let ok := z.status = 0
    let fl := s.emitFlags (z.flags ||| flagIf x.overrun flInputGap)
    let mask := r.window.foldl (fun (f : Word) p => f ||| p.mask) 0 |||
      (if ok && x.group ≠ 0 then (List.range s.groupSize).foldl (fun (f : Word) d => f ||| srcMember d) 0 else 0)
    let seq := x.runSeq + 1
    let body := leBytes 2 b ++ leBytes 2 x.model ++ leBytes 4 seq.toNat ++ leBytes 1 z.status ++ leBytes 1 z.point ++
      leBytes 2 z.outputs.length ++ leBytes 4 z.energy ++ leBytes 8 z.startT ++ leBytes 4 (Nat.min z.replays 0xFFFFFFFF) ++
      leBytes 1 z.path ++ leBytes 3 0 ++ z.outputs.flatMap fun w => leBytes 4 w.toNat
    let t := s.setBind b { x with
      overrun := false, runSeq := seq
      last := if ok && z.path ≠ 2 then some ⟨z.tov, fl, z.oldest, z.outputs⟩ else x.last }
    let t := (t.emit .indigo (some x.ctx) 0x0040 z.tov z.oldest fl mask r.top body).assertSource (if ok then 224 else 225)
    let t := t.bump (R.IDG_Bn_RUNS b)
    let t := if ok then t.bumpSat (R.IDG_Bn_OK b) else if z.status = 1 then t.bumpSat (R.IDG_Bn_SHED b)
      else if z.status = 3 then t.bumpSat (R.IDG_Bn_FAULT b) else t
    t.offerMember
      { kind := virInference, index := 0, key := w32 b, fields := z.outputs.take 256, time := 0,
        origin := ageUs s.now z.oldest, stamp := z.tov, flags := fl, mask := mask, gen := r.top, ctx := x.ctx, surface := 0,
        px := 0, py := 0, x := 0, y := 0, port := 0, frame := 0 }

/-- The stamp of a run's newest input position. -/
def Run.tov (r : Run) : Stamp := ((r.window.getLast?).map fun p => p.stamp).getD Stamp.zero

/-- A run ends without outputs, with the energy-table entry of the point and the replays so far; a run that was shed has used
nothing (08 R159, 16 R321). -/
def State.endRun (s : State) (r : Run) (status startT point : Nat) : State :=
  s.emitResult r
    { status := status, startT := startT, point := point, path := if r.startT = 0 then 0 else r.path
      energy := if status = 1 then 0 else s.tableEnergy r.binding point
      replays := r.replays, tov := r.tov, oldest := r.oldest, flags := windowFlags r ||| flagIf r.spec flSpeculative, outputs := [] }

/-- IDG_POINT (08 R159 coding). -/
def State.idgPoint (s : State) : Nat := s.regFld R.IDG_POINT 2 0

/-- Pending runs of a binding, ended with a status where they are not dispatched. -/
def State.endPending (s : State) (which : Run → Bool) (status : Nat) : State :=
  (s.indigo.pendingRuns.filter which).foldl (fun t r => t.endRun r status s.now s.idgPoint)
    (s.modIndigo fun i => { i with pendingRuns := i.pendingRuns.filter fun r => !which r })

/-- The state tiles show (08 R167). -/
def State.setTiles (s : State) (tiles : BitVec 16) (v : Nat) : State :=
  forEach (tilesOf tiles) (fun t u => u.setReg (R.IDG_Tn_STATE t) (w32 v)) s

/-- The tiles of a binding. -/
def State.bindTiles (s : State) (b : Nat) : BitVec 16 := match s.bind? b with | some x => x.tiles | none => 0

/-- A run leaves its tiles: they are IDLE. -/
def State.vacate (s : State) (r : Run) : State :=
  (s.modIndigo fun i => { i with
    inflight := i.inflight.erase r, group := i.group.erase r.binding }).setTiles (s.bindTiles r.binding) 0

/-- Runs in flight ended with a status; on a member other than 0 a run of the group ends without a record (08 R163). -/
def State.endInflight (s : State) (which : Run → Bool) (status : Nat) : State :=
  (s.indigo.inflight.filter which).foldl (fun t r =>
    if s.leads r.binding then (t.vacate r).endRun r status r.startT r.point else t.vacate r) s

/-! ## Applying configuration (08 R157, 09 R172) -/

/-- A binding's registers. -/
def State.showBind (s : State) (b : Nat) : State :=
  match s.bind? b with
  | some x =>
    ((s.setReg (R.IDG_Bn_CFG b) (w32 (1 + x.cls * 2 + x.kind * 8 + x.group * 0x100 + x.source * 0x10000))).setReg
      (R.IDG_Bn_MODEL b) (w32 (x.model + x.ctx * 0x10000))).setRegFld (R.IDG_Bn_TILES b) 15 0 x.tiles.toNat
  | none => s

/-- The binding that holds a tile. -/
def State.tileHolder (s : State) (t : Nat) : Option (Nat × Bind) := s.indigo.binds.find? fun e => e.2.tiles.toNat.testBit t

/-- A tile's owner and the activation memory that its binding's model takes. -/
def State.showTile (s : State) (t : Nat) : State :=
  match s.tileHolder t with
  | some (b, x) => (s.setReg (R.IDG_Tn_OWNER t) (w32 b)).setReg (R.IDG_Tn_ACT_USED t)
      (w32 (match s.model? x.model with | some m => m.actBytes | none => 0))
  | none => (s.setReg (R.IDG_Tn_OWNER t) 0).setReg (R.IDG_Tn_ACT_USED t) 0

/-- The tiles' registers and IDG_TILE_EN, from the bindings. -/
def State.showTiles (s : State) : State :=
  (forEach (List.range 16) (fun t u => u.showTile t) s).setReg R.IDG_TILE_EN
    (w32 ((List.range 16).foldl (fun n t => n + b2n (s.tileHolder t).isSome * 2 ^ t) 0))

/-- The address of a binding's layer-mode bytes; zero without them. -/
def State.modesAt (s : State) (b : Nat) : Nat :=
  match findExtent exLayers b s.host.sram with
  | some e => e.base
  | none => 0

/-- A binding's layer-mode bytes put by Belrix where IDG_APX_B_LDESC points (09 R185). -/
def State.storeModes (s : State) (b : Nat) : State :=
  match s.bind? b with
  | some x => if s.modesAt b = 0 then s else s.blockWrite 0 (s.modesAt b) x.modes
  | none => s

/-- The number of the extent that holds the weights of a binding's layer. -/
def pinIdx (b i : Nat) : Nat := b * 4096 + i

/-- A layer of a model. -/
def Model.layer (m : Model) (i : Nat) : Layer := nth m.layers i (layerOf [])

/-- The weights of an SRAM_PREFERRED layer copied by Belrix. -/
def State.pinLayer (s : State) (b : Nat) (m : Model) (i : Nat) : State :=
  let l := m.layer i
  if l.placement = 1 ∧ l.weightLen ≠ 0 then
    match s.allocSram l.weightLen m.ctx exWeights (pinIdx b i) with
    | some (u, a) =>
      let w := u.blockRead 0 (m.base + l.weightOff) l.weightLen
      w.1.blockWrite 0 a w.2
    | none => s
  else s

/-- 08 R152: weights of SRAM_PREFERRED layers copied into shared SRAM where there is room. -/
def State.pinWeights (s : State) (b : Nat) (m : Model) : State :=
  forEach (List.range m.layers.length) (fun i t => t.pinLayer b m i) s

/-- The copies of a binding's weights released. -/
def State.freeWeights (s : State) (b : Nat) : State :=
  ((s.host.sram.filter fun e => e.what = exWeights && e.idx / 4096 = b).map fun e => e.idx).foldl
    (fun t i => t.freeSram exWeights i) s

def modeBytes (m : Model) : Bytes := m.layers.map fun l => l.mode

/-- A binding deleted: its runs not dispatched end INTERRUPTED, its tiles and SRAM are free (log entry 22). -/
def State.dropBind (s : State) (b : Nat) : State :=
  let t := s.endPending (fun r => r.binding = b) 4
  let t := ((t.freeSram exLayers b).freeSram exState b).freeWeights b
  let t := t.modIndigo fun i => { i with binds := i.binds.erase b }
  let t := (((t.setReg (R.IDG_Bn_CFG b) 0).setReg (R.IDG_Bn_MODEL b) 0).setReg (R.IDG_Bn_TILES b) 0).showTiles
  if s.groupBind b then t.refreshPeers else t

/-- What a staged INFER_BIND holds: the binding, its tiles, and the offsets in shared SRAM of its layer-mode bytes and of its
pinned state. -/
def bindHandle (b tiles base pinned : Nat) : Nat := b + tiles * 0x10000 + base * 0x100000000 + pinned * 0x10000000000000000

def handleBind (g : GCmd) : Nat := g.handle % 0x10000
def handleTiles (g : GCmd) : Nat := g.handle / 0x10000 % 0x10000
def handleBase (g : GCmd) : Nat := g.handle / 0x100000000 % 0x100000000
def handlePinned (g : GCmd) : Nat := g.handle / 0x10000000000000000

/-- The settings of a new binding (09 command pages). -/
def newBind (ctx : Nat) : Bind :=
  { ctx := ctx, cls := 0, model := 0, kind := 0, group := 0, source := 0, hop := 1, tiles := 0, window := [], sinceRun := 0,
    everFull := false, overrun := false, runSeq := 0, modes := [], predEnable := false, specAllow := true, refreshK := 32,
    maxSkips := 8, evWeight := 0x100, l1Weight := 0x100, tSkip := 0, tDelta := 0, lastInput := none, sinceFull := 0,
    skips := 0, lastPath := 0, mustFull := true, lastD := 0, maxD := 0, full := 0, delta := 0, skip := 0, satfall := 0,
    replays := 0, absorbed := 0, demotedRuns := 0, wsBytes := 0, lastDuration := 0, last := none, deadline := 0,
    deadlineNext := none, stopped := false, poison := false, verify := false, layers := [] }

/-- INFER_BIND applied. -/
def applyBind (g : GCmd) (s : State) : State :=
  let b := g.block
  let h := handleBind g
  if u8 b 2 = 0 then s.dropBind h
  else
    match s.model? (u16 b 4) with
    | none => s
    | some m =>
      let old := s.bind? h
      let x := old.getD { newBind g.ctx with verify := s.regBit R.IDG_APX_CTRL 0 }
      let fresh := decide (x.model ≠ u16 b 4)
      let empty := fresh || decide (x.kind ≠ u8 b 6) || decide (x.source ≠ u16 b 8)
      let y := { x with
        cls := u8 b 3, model := u16 b 4, kind := u8 b 6, group := u8 b 7, source := u16 b 8, hop := u16 b 0x0A,
        tiles := BitVec.ofNat 16 (handleTiles g)
        modes := if fresh then modeBytes m else x.modes
        mustFull := x.mustFull || fresh
        last := if fresh then none else x.last
        lastInput := if fresh then none else x.lastInput
        layers := if fresh then [] else x.layers
        window := if empty then [] else x.window
        sinceRun := if empty then 0 else x.sinceRun
        everFull := if empty then false else x.everFull }
      let t := (s.freeSram exLayers h).retagSram (sramBase + handleBase g) exLayers h
      let t := ((t.freeSram exState h).retagSram (sramBase + handlePinned g) exState h).setBind h y
      let t := if fresh then (t.freeWeights h).pinWeights h m else t
      let t := ((t.storeModes h).showBind h).showTiles
      if y.group ≠ 0 then t.refreshPeers else t

/-- The layer-mode byte a command sets: DEFAULT restores the package's (09 R170). -/
def modeFrom (m : Model) (i : Nat) (v : Byte) : Byte := if v = 4 then nth (modeBytes m) i 0 else v

/-- A generation-bearing command of Indigo applied. -/
def applyIndigo (g : GCmd) (s : State) : State :=
  let b := g.block
  let h := u16 b 0
  if g.opcode = 0x0903 then applyBind g s
  else if g.opcode = 0x0A01 then
    match s.bind? h with
    | none => s
    | some x => match s.model? x.model with
      | none => s
      | some m =>
        let first := u16 b 2
        let modes := (List.range x.modes.length).map fun i =>
          if first ≤ i ∧ i < first + u16 b 4 then modeFrom m i (nth b (8 + i - first) 0) else nth x.modes i 0
        (s.setBind h { x with modes := modes, mustFull := true }).storeModes h
  else if g.opcode = 0x0A02 then
    s.onBind h fun x => { x with
      predEnable := u8 b 2 = 1, specAllow := u8 b 3 = 1, refreshK := u8 b 4, maxSkips := u8 b 5, evWeight := u16 b 8,
      l1Weight := u16 b 0x0A, tSkip := u32 b 0x0C, tDelta := u32 b 0x10, mustFull := true }
  else s

/-- A run of the binding is in progress. -/
def State.running (s : State) (b : Nat) : Bool := s.indigo.inflight.any fun r => r.binding = b

/-- The VERIFY choice in force taken up by a binding: the first run under it, and the first after it, is FULL (09 R184). -/
def Bind.verified (x : Bind) (v : Bool) : Bind := { x with verify := v, mustFull := x.mustFull || v != x.verify }

/-- 08 R157: the inference boundary of a binding: what is armed for it applies, and VERIFY takes effect. -/
def State.idgBoundary (s : State) (b : Nat) : State :=
  if s.running b then s
  else (s.applyElem (idgElem b) applyIndigo).onBind b fun x => x.verified (s.regBit R.IDG_APX_CTRL 0)

/-- IDG_APX_CTRL written: a binding without a run is at its boundary and takes VERIFY up at once (09 R184). -/
def State.writeApxCtrl (s : State) (v : Word) : State :=
  let t := s.setReg R.IDG_APX_CTRL v
  t.modIndigo fun i => { i with
    binds := i.binds.map fun e => if s.running e.1 then e else (e.1, e.2.verified (bit v 0)) }

/-! ## Admission of runs (16 R320) -/

/-- Energy charged to a class in this or in the previous window. -/
def chargedOf (l : List Nat) (c : Nat) : Nat := nth l c 0

/-- R of 16 R320: what the classes ranked above hold back. -/
def State.heldBack (s : State) (c : Nat) : Nat :=
  (List.range c).foldl (fun n k => n + (chargedOf s.ivory.prevCharged k - chargedOf s.ivory.charged k)) 0

/-- The energy charged so far in this window. -/
def State.chargedAll (s : State) : Nat := s.ivory.charged.foldl (fun n k => n + k) 0

/-- The cost of a run of a binding at the window's point, µJ (log entry 22). -/
def State.runCost (s : State) (b : Nat) : Nat := s.tableEnergy b s.idgPoint

def State.classOf (s : State) (b : Nat) : Nat := match s.bind? b with | some x => x.cls | none => 3

/-- A cost of a class fits: C + R + cost within B, and not into the battery's reserve. -/
def State.fits (s : State) (c cost : Nat) : Bool :=
  c = 0 || (!s.ivory.safetyOnly && s.chargedAll + s.heldBack c + cost ≤ s.regN R.IVR_BUDGET_UJ &&
    (!s.sable.onBattery || s.chargedAll + cost ≤ s.regN R.SBL_E_RES_J * 1000000))

/-- A run waits whose class is `c` or ranks above it. -/
def State.waitsAhead (s : State) (c : Nat) : Bool :=
  s.indigo.pendingRuns.any fun r => !r.admitted && s.classOf r.binding ≤ c

/-- A cost charged to its class; SAFETY charges that pass B assert source 392. -/
def State.charge (s : State) (b cost : Nat) : State :=
  let c := s.classOf b
  let i := s.ivory
  let was := chargedOf i.charged 0
  let t := { s with ivory := { i with charged := i.charged.set c (chargedOf i.charged c + cost), runs := i.runs ++ [b] } }
  let t := t.setReg R.IVR_CHARGED_UJ (w32 t.chargedAll)
  if c = 0 ∧ was ≤ s.regN R.IVR_BUDGET_UJ ∧ s.regN R.IVR_BUDGET_UJ < was + cost then
    (t.bumpSat R.IVR_SAFETY_OVER).assertSource 392
  else t

/-- Runs of a binding that are pending: not yet ended (08 R157, log entry 22). -/
def State.pendingOf (s : State) (b : Nat) : Nat :=
  (s.indigo.pendingRuns.filter fun r => r.binding = b).length + (s.indigo.inflight.filter fun r => r.binding = b).length

/-- A trigger: a run queued and submitted for admission, or dropped when two are pending (08 R157). -/
def State.trigger (s : State) (b : Nat) (w : List Position) : State :=
  match s.bind? b with
  | none => s
  | some x =>
    if 2 ≤ s.pendingOf b then
      ((s.setBind b { x with overrun := true }).bumpSat (R.IDG_Bn_OVERRUN b)).assertSource 226
    else
      let cost := s.runCost b
      let adm := x.cls = 0 || (!s.waitsAhead x.cls && s.fits x.cls cost)
      let r : Run :=
        { binding := b, window := w, admitted := adm, waited := 0, startT := 0, point := 0, path := 0,
          spec := false, approx := false, gen := s.elemGen x.ctx (idgElem b), replays := 0, waves := [], stalled := [], lively := 0 }
      let t := s.modIndigo fun i => { i with pendingRuns := i.pendingRuns ++ [r] }
      if adm then t.charge b cost else t

/-! ## Inputs (08 R156) -/

/-- A position into a binding's window; a full window triggers, and then every hop positions. -/
def State.takePosition (s : State) (b : Nat) (p : Position) : State :=
  match s.bind? b with
  | none => s
  | some x => match s.model? x.model with
    | none => s
    | some m =>
      let w := (x.window ++ [p]).drop (x.window.length + 1 - m.positions)
      let full := w.length = m.positions
      let n := x.sinceRun + 1
      let go := full && (!x.everFull || x.hop ≤ n)
      let t := s.setBind b { x with
        window := w, everFull := x.everFull || full, sinceRun := if go then 0 else n }
      if go then t.trigger b w else t

/-- The position that an input gives a binding's model. A value that a FUSED record does not have is free (log entry 22). -/
def State.positionOf (s : State) (i : BindIn) (m : Model) : Position :=
  let f := fun k => if k < i.values.length then nth i.values k 0 else (Config.freeValue (s.freeCtr + k)).setWidth 32
  { elems := (List.range m.features).map fun k => quantise m (f k), stamp := i.stamp, origin := i.origin,
    flags := i.flags, mask := i.mask, gen := i.gen }

/-- An input taken by a binding. -/
def State.bindTakes (s : State) (i : BindIn) (b h : Nat) : State :=
  match s.model? h with
  | none => s
  | some m => (s.tookFree (if i.values.length < m.features then m.features else 0)).takePosition b (s.positionOf i m)

/-- BINDING_INPUT: the input at the front is quantised for every binding whose source it is; a group's bindings take inputs on
member 0 (08 R163). -/
def workBindingInput (s : State) : Res :=
  .next (match s.indigo.inq with
    | [] => s
    | i :: q =>
      (s.indigo.binds.filter fun e => e.2.kind = i.kind && e.2.source = i.source && e.2.ctx = i.ctx && !e.2.stopped && s.leads e.1).foldl
        (fun t e => t.bindTakes i e.1 e.2.model) (s.modIndigo fun x => { x with inq := q }))

/-! ## Dispatch (09 R174 to R180) -/

/-- A run's input as one string of elements. -/
def Run.input (r : Run) : List Int := r.window.flatMap fun p => p.elems

/-- The distance of two elements in input LSB (09 R174, log entry 22). -/
def lsbDist (fmt : Nat) (a b : Int) : Nat := if fmt ≤ 1 then (a - b).natAbs else Config.lsbDistance fmt a b

/-- D of 09 R174. -/
def predictorD (x : Bind) (m : Model) (a b : List Int) : Nat :=
  let pairs := (List.zip a b).filter fun p => p.1 ≠ p.2
  let ev := pairs.length
  let l1 := pairs.foldl (fun n p => n + lsbDist m.inFmt p.1 p.2) 0
  Nat.min ((x.evWeight * ev + x.l1Weight * l1) % 2 ^ 64 / 256) 0xFFFFFFFF

/-- 09 R174: the path of a run: 0 FULL, 1 DELTA, 2 SKIP. -/
def choosePath (x : Bind) (d : Nat) (epoch : BitVec 16) : Nat :=
  if !x.predEnable || x.verify || x.mustFull || x.lastInput.isNone || x.refreshK ≤ x.sinceFull + 1 then 0
  else if d < x.tSkip && x.skips < x.maxSkips && (match x.last with | some z => z.tov.epoch = epoch | none => false) then 2
  else if d < x.tDelta then 1 else 0

/-- Quads that a binding's tiles lie in, as domains. -/
def quadsOf (tiles : BitVec 16) : List Nat := (below 4 fun q => (tilesOf tiles).any fun t => t / 4 = q).map fun q => dIDG0 + q

/-- The modes in force: VERIFY makes every layer EXACT (09 R184). -/
def Bind.modesNow (x : Bind) : Bytes := if x.verify then x.modes.map fun _ => 0 else x.modes

/-- Any layer in a mode other than EXACT (09 R171). -/
def Bind.approx (x : Bind) : Bool := x.modesNow.any fun v => v.toNat % 4 ≠ 0
def Bind.tolerant (x : Bind) : Bool := x.modesNow.any fun v => v.toNat % 4 = 3

/-- The first pending run of a binding removed from the pending ones, where it is admitted: runs of one binding go in trigger
order (08 R157). -/
def State.takeRun (s : State) (b : Nat) : Option (Run × State) :=
  match s.indigo.pendingRuns.find? fun r => r.binding = b with
  | some r => if r.admitted then some (r, s.modIndigo fun i => { i with pendingRuns := i.pendingRuns.erase r }) else none
  | none => none

/-- A SKIP run: the last computed result again (09 R175). -/
def State.skipRun (s : State) (r : Run) (z : Computed) : State :=
  s.emitResult r
    { status := 0, startT := s.now, point := s.idgPoint, path := 2, energy := 0, replays := 0, tov := z.tov, oldest := z.oldest,
      flags := z.flags ||| flSkipped ||| flagIf (4 ≤ s.idgPoint) flSpeculative, outputs := z.outputs }

/-- The predictor compares the input with the last one. -/
def Bind.compares (x : Bind) : Bool := x.predEnable && x.lastInput.isSome

/-- The predictor's D for an input; the last D where it does not compare (09 R174). -/
def Bind.predictD (x : Bind) (m : Model) (inp : List Int) : Nat :=
  if x.compares then predictorD x m (x.lastInput.getD []) inp else x.lastD

/-- A binding after the choice of a path: 0 FULL, 1 DELTA, 2 SKIP. -/
def Bind.took (x : Bind) (path d : Nat) (inp : List Int) : Bind :=
  { x with
    lastD := d, maxD := Nat.max x.maxD (if x.compares then d else 0), lastPath := path
    skips := if path = 2 then x.skips + 1 else 0
    lastInput := if path = 2 then x.lastInput else some inp
    sinceFull := if path = 0 then 0 else x.sinceFull + 1
    mustFull := if path = 0 then false else x.mustFull
    full := if path = 0 then Nat.min (x.full + 1) 0xFFFFFFFF else x.full
    delta := if path = 1 then Nat.min (x.delta + 1) 0xFFFFFFFF else x.delta
    skip := if path = 2 then Nat.min (x.skip + 1) 0xFFFFFFFF else x.skip }

/-! ## Tiles at work (09 R176 to R178) -/

/-- The binding of a tile does not allow speculation. -/
def State.specBarred (s : State) (t : Nat) : Bool := match s.tileHolder t with | some e => !e.2.specAllow | none => false

/-- A tile is demoted: by REPLAY_LIMIT, or its binding does not allow speculation (09 R176). -/
def State.demoted (s : State) (t : Nat) : Bool := s.regBit R.IDG_APX_DEMOTED t || s.specBarred t

/-- An undemoted tile at an S-point: its shadow latches are active. -/
def State.tileLive (s : State) (t : Nat) : Bool := 4 ≤ s.idgPoint && !s.demoted t

/-- MHz of a point. -/
def pointMhz (p : Nat) : Nat := nth [1200, 960, 800, 600] (p % 4) 0

/-- MHz of a tile: the point's, or the divided clock of a demoted tile at an S-point (09 R176). -/
def State.tileMhz (s : State) (t : Nat) : Nat :=
  if 4 ≤ s.idgPoint && s.demoted t then nth [960, 800, 600, 300] (s.idgPoint % 4) 0 else pointMhz s.idgPoint

/-- Waves of 64 cycles of a tile in a run. -/
def Model.waves (m : Model) (p : Nat) : Nat := (m.cycles p + 63) / 64

/-- `k` waves more of a run on a tile. Which of them err and how often a half-clock replay follows is physical and free; none
where the shadow latches are not active (09 R176, R177). Each erring wave takes 72 cycles more and each half-clock replay 136
(09 R186). -/
def State.passWaves (s : State) (r : Run) (t k : Nat) : State × Run :=
  let live := s.tileLive t
  let e := if live then (Config.freeValue s.freeCtr).toNat % (k + 1) else 0
  let h := if e = 0 then 0 else (Config.freeValue (s.freeCtr + 1)).toNat % 0x100000000
  let u := ((s.tookFree 2).bump (R.IDG_APX_Tn_WIN_WAVES t) k).bump (R.IDG_APX_Tn_WAVES_TOTAL t) k
  let u := (u.bump (R.IDG_APX_Tn_WIN_REPLAYS t) e).bumpSat (R.IDG_APX_Tn_REPLAYS t) e
  let u := u.bumpSat (R.IDG_APX_Tn_SECOND_REPLAYS t) h
  let u := u.setReg64 (R.IDG_Tn_CYCLES_LO t) (u.reg64 (R.IDG_Tn_CYCLES_LO t) + 72 * e + 136 * h)
  let u := if k = 0 then u else u.setReg (R.IDG_Tn_STATE t) 1
  (u, { r with waves := r.waves.set t (r.waves.getD t 0 + k), replays := r.replays + e })

/-- Waves that a run has passed by now on a tile: how many is a matter of time, and free. -/
def State.passSome (s : State) (r : Run) (m : Model) (t : Nat) : State × Run :=
  let left := m.waves r.point - r.waves.getD t 0
  (s.tookFree 1).passWaves r t ((Config.freeValue s.freeCtr).toNat % (left + 1))

/-- The progress of a run on its tiles. -/
def State.progressRun (s : State) (r : Run) : State :=
  match s.bind? r.binding with
  | some x => (match s.model? x.model with
    | some m =>
      let z := (tilesOf x.tiles).foldl (fun a t => a.1.passSome a.2 m t) (s, r)
      z.1.modIndigo fun i => { i with inflight := i.inflight.map fun q => if q = r then z.2 else q }
    | none => s)
  | none => s

/-- The progress of every run, counted before the state of its tiles changes. -/
def State.progress (s : State) : State := s.indigo.inflight.foldl (fun t r => t.progressRun r) s

/-- Tiles that are undemoted at an S-point noted in the runs on them (09 R178). -/
def State.noteLive (s : State) : State :=
  let live := BitVec.ofNat 16 ((List.range 16).foldl (fun n t => n + b2n (s.tileLive t) * 2 ^ t) 0)
  s.modIndigo fun i => { i with
    inflight := i.inflight.map fun r => { r with lively := r.lively ||| (s.bindTiles r.binding &&& live) } }

/-! ## A run's layers (08 R149, 09 R172) -/

/-- The master under which the tiles of a binding read: the lowest of them (01 R28, log entry 22). -/
def Bind.master (x : Bind) : Nat := 0x20 + (tilesOf x.tiles).headD 0

/-- The tile of a binding that a program numbers `t`. -/
def Bind.tileAt (x : Bind) (t : Nat) : Nat :=
  let l := tilesOf x.tiles
  nth l (t % Nat.max 1 l.length) 0

/-- A layer's program and weights fetched, the weights from their copy in shared SRAM where there is one (08 R151, R152):
the layer's plan, its program, its weights. -/
def State.fetchLayer (s : State) (b : Nat) (x : Bind) (m : Model) (i : Nat) : State × LayerPlan × Bytes × Bytes :=
  let l := m.layer i
  let at' := match findExtent exWeights (pinIdx b i) s.host.sram with | some e => e.base | none => m.base + l.weightOff
  let w := s.blockRead x.master at' l.weightLen
  let p := w.1.blockRead x.master (m.base + l.progOff) l.progLen
  (p.1, Config.layerPlan l.op l.format p.2 w.2, p.2, w.2)

/-- What an accumulator adds to a map of its tile. -/
def tallyTile (x : Bind) (f : AccOut → Nat) (m : AMap Nat) (p : AccPlan × AccOut) : AMap Nat :=
  m.set (x.tileAt p.1.tile) (m.getD (x.tileAt p.1.tile) 0 + f p.2)

/-- The accumulators of a layer counted. -/
def Calc.tally (c : Calc) (x : Bind) (fmt : Nat) (l : List (AccPlan × AccOut)) : Calc :=
  { c with
    macs := l.foldl (tallyTile x fun o => o.macs) c.macs
    load := l.foldl (tallyTile x fun o => o.macs * (2048 / macRate fmt)) c.load
    absorbed := l.foldl (tallyTile x fun o => o.absorbed) c.absorbed }

/-- A run's work as it starts on its input. -/
def Bind.startWork (x : Bind) (inp : List Int) : Calc :=
  { acts := inp, outs := [], mem := x.layers, sats := 0, macs := [], load := [], absorbed := [] }

/-- The accumulators of a layer before the epilogue, from the elements so far; a layer that is no dot product hands its input
on (09 R170, R172, R178). -/
def State.formLayer (s : State) (r : Run) (x : Bind) (m : Model) (i : Nat) (p : LayerPlan) (c : Calc) :
    State × Calc × List Int :=
  let l := m.layer i
  if l.op ≤ 4 then
    let o := runLayer l.format (nth x.modesNow i 0) (r.path = 1) (fun t => r.lively.toNat.testBit (x.tileAt t)) s.freeCtr c.acts
      p.accs (c.mem.get? i)
    let d := c.tally x l.format (List.zip p.accs o.accs)
    (s.tookFree o.drawn,
      { d with
        mem := match o.mem with | some y => c.mem.set i y | none => c.mem.erase i
        sats := c.sats + b2n o.fellBack },
      o.accs.map fun a => a.value)
  else (s, c, c.acts)

/-- The epilogue of a layer on its accumulators: what output_kind asks for, and the activations. -/
def closeLayer (m : Model) (i : Nat) (p : LayerPlan) (prog weights : Bytes) (sums : List Int) : List Int × List Int :=
  let l := m.layer i
  if l.op ≤ 4 then
    let fp := !intFmt l.format
    let pre := (List.zip p.accs sums).map fun a => biased fp a.1.epi a.2
    let act := (List.zip p.accs pre).map fun a => requantise fp a.1.epi a.2
    (if m.outKind = 2 then act else pre, act)
  else
    let y := Config.layerFunction l.op l.format prog weights sums
    (y, y)

/-- A layer of a run on one device. -/
def State.runOneLayer (r : Run) (x : Bind) (m : Model) (a : State × Calc) (i : Nat) : State × Calc :=
  let f := a.1.fetchLayer r.binding x m i
  let o := f.1.formLayer r x m i f.2.1 a.2
  let y := closeLayer m i f.2.1 f.2.2.1 f.2.2.2 o.2.2
  (o.1, { o.2.1 with acts := o.2.1.acts ++ y.2, outs := y.1 })

/-- Every layer of a run on one device. -/
def State.runLayers (s : State) (r : Run) (x : Bind) (m : Model) : State × Calc :=
  (List.range m.layers.length).foldl (State.runOneLayer r x m) (s, x.startWork r.input)

/-- One output (08 R158). -/
def outputOf (m : Model) (q : Int) : Word :=
  if m.outKind = 1 then accF q else F.mul (F.ofInt (q - m.outZp)) m.outScale

/-- The outputs of a run. -/
def outputsOf (m : Model) (l : List Int) : List Word := (List.range m.outputs).map fun k => outputOf m (nth l k 0)

/-! ## A run of the group (08 R162, R163) -/

/-- The elements of a list at some places. -/
def pick (l : List Int) (at' : List Nat) : List Int := at'.map fun i => nth l i 0

/-- Master ID under which Denzewen sends (01 R28). -/
abbrev sqId : Nat := 1

/-- A run of the group entered on this member with its slice of the input. -/
def State.enterGroup (s : State) (b : Nat) (x : Bind) (path : Nat) (slice : List Int) : State :=
  s.modIndigo fun i => { i with
    group := i.group.set b { path := path, work := x.startWork slice, slices := 1, formed := 0, parts := [], done := none } }

/-- Partial sums of a layer on their way to its home member. -/
def State.sendPart (s : State) (b : Nat) (x : Bind) (m : Model) (i : Nat) (sums : List Int) : State :=
  if (m.layer i).home = s.groupIndex then
    s.modIndigo fun d => { d with group := match d.group.get? b with
      | some g => d.group.set b { g with parts := g.parts ++ [(i, s.groupIndex, sums)] }
      | none => d.group }
  else s.sendTeal (m.layer i).home x.master (.partials m.id i sums)

/-- The next layer whose slice has come: its partial sums formed and sent to the home. -/
def State.formPart (s : State) (r : Run) (x : Bind) (m : Model) (g : GroupRun) : State :=
  let f := s.fetchLayer r.binding x m g.formed
  let o := f.1.formLayer r x m g.formed f.2.1 g.work
  (o.1.modIndigo fun i => { i with
    group := i.group.set r.binding { g with work := o.2.1, formed := g.formed + 1 } }).sendPart r.binding x m g.formed o.2.2

/-- Sums of partials: INT32 with saturation, binary32 in the order given, from zero (08 R162, 14 R272). A layer that is no dot
product takes its slices side by side. -/
def combineParts (op fmt : Nat) (l : List (List Int)) : List Int :=
  if 5 ≤ op then l.flatten
  else (List.range (l.headD []).length).map fun k =>
    if intFmt fmt then satAcc (l.foldl (fun a p => a + nth p k 0) 0)
    else l.foldl (fun a p => ((F.add (accF a) (accF (nth p k 0))).toNat : Int)) 0

/-- The partial sums of a layer at its home: by contributor index where the layer is EXACT, else as they arrived. -/
def GroupRun.partsOf (g : GroupRun) (i n : Nat) (ordered : Bool) : List (List Int) :=
  let l := g.parts.filter fun p => p.1 = i
  if ordered then (List.range n).flatMap fun d => (l.filter fun p => p.2.1 = d).map fun p => p.2.2
  else l.map fun p => p.2.2

/-- The lowest layer whose home this member is and whose partial sums have come from every member. -/
def State.fullLayerOf (s : State) (m : Model) (g : GroupRun) : Option Nat :=
  (List.range m.layers.length).find? fun i =>
    (m.layer i).home = s.groupIndex && (List.range s.groupSize).all fun d => g.parts.any fun p => p.1 = i && p.2.1 = d

/-- The input slice of a layer, or past the last layer the outputs, taken by this member. -/
def GroupRun.takeSlice (g : GroupRun) (m : Model) (i : Nat) (v : List Int) : GroupRun :=
  if i = m.layers.length then { g with done := some v }
  else { g with slices := i + 1, work := { g.work with acts := g.work.acts ++ v } }

/-- The home of a layer combines, applies the epilogue once, and scatters the slices of the next layer; the outputs of the
last layer go to member 0. -/
def State.homeLayer (s : State) (r : Run) (x : Bind) (m : Model) (g : GroupRun) (i : Nat) : State :=
  let b := r.binding
  let f := s.fetchLayer b x m i
  let l := m.layer i
  let sums := combineParts l.op l.format (g.partsOf i s.groupSize ((nth x.modesNow i 0).toNat % 4 = 0))
  let y := closeLayer m i f.2.1 f.2.2.1 f.2.2.2 sums
  let h := { g with parts := g.parts.filter fun p => p.1 ≠ i }
  if i + 1 = m.layers.length then
    if s.groupIndex = 0 then f.1.modIndigo fun d => { d with group := d.group.set b (h.takeSlice m (i + 1) y.1) }
    else (f.1.modIndigo fun d => { d with group := d.group.set b h }).sendTeal 0 sqId (.slice m.id (i + 1) y.1)
  else
    let n := f.1.fetchLayer b x m (i + 1)
    let part := fun d => pick y.2 (nth n.2.1.takes d [])
    let t := n.1.modIndigo fun e => { e with group := e.group.set b (h.takeSlice m (i + 1) (part s.groupIndex)) }
    s.peers.foldl (fun t d => t.sendTeal d sqId (.slice m.id (i + 1) (part d))) t

/-- What a member of the group can do now on a run: combine a layer, or form partial sums. -/
def State.groupStep (s : State) (b : Nat) : Nat → State
  | 0 => s
  | n + 1 =>
    match s.indigo.group.get? b, s.indigo.inflight.find? fun r => r.binding = b, s.bind? b with
    | some g, some r, some x => (match s.model? x.model with
      | some m => (match s.fullLayerOf m g with
        | some i => State.groupStep (s.homeLayer r x m g i) b n
        | none =>
          if g.formed < g.slices ∧ g.formed < m.layers.length then State.groupStep (s.formPart r x m g) b n else s)
      | none => s)
    | _, _, _ => s

/-- Steps enough for every layer. -/
def State.groupSteps (s : State) (b : Nat) : State := s.groupStep b 8194

/-- Member 0 sends the run descriptor with the path and each member's input slice (08 R163, 09 R174). -/
def State.sendRun (s : State) (b path : Nat) (x : Bind) (m : Model) (inp : List Int) : State :=
  let f := s.fetchLayer b x m 0
  let part := fun d => if path = 2 then [] else pick inp (nth f.2.1.takes d [])
  let t := if path = 2 then f.1 else f.1.enterGroup b x path (part s.groupIndex)
  s.peers.foldl (fun t d => t.sendTeal d sqId (.run m.id path (part d))) t

/-! ## Dispatch (09 R174 to R180) -/

/-- A run as it starts now on a path. -/
def State.launched (s : State) (r : Run) (x : Bind) (path : Nat) : Run :=
  { r with
    startT := s.now, point := s.idgPoint, path := path, spec := 4 ≤ s.idgPoint, approx := x.approx,
    gen := s.elemGen x.ctx (idgElem r.binding) }

/-- A run put in flight on its binding's tiles. -/
def State.launch (s : State) (r : Run) (x : Bind) : State :=
  ((s.modIndigo fun i => { i with inflight := i.inflight ++ [r] }).setTiles x.tiles 1).noteLive

/-- A run dispatched: its path is chosen and it starts, or SKIP answers it; a group's members are told. -/
def State.startRun (s : State) (r : Run) (x : Bind) (m : Model) : State :=
  let d := x.predictD m r.input
  let path := choosePath x d r.tov.epoch
  let y := x.took path d r.input
  let q := s.launched r y path
  let t := s.setBind r.binding y
  let t := if s.groupBind r.binding then t.sendRun r.binding path y m r.input else t
  match y.last with
  | some z => if path = 2 then (t.skipRun q z).idgBoundary r.binding else (t.launch q x).groupSteps r.binding
  | none => (t.launch q x).groupSteps r.binding

/-- A run of another binding holds a tile. -/
def State.tilesBusy (s : State) (b : Nat) (tiles : BitVec 16) : Bool :=
  s.indigo.inflight.any fun r => r.binding ≠ b && s.bindTiles r.binding &&& tiles ≠ 0

/-- A quad's gate is closed or the quad is down. -/
def State.quadShut (s : State) (d : Nat) : Bool := !s.domUp d || s.regBit R.IVR_GATE_CLOSED d

/-- RUN_DISPATCH. A quad that is down wakes when it is ON-DEMAND, outside a forced SENTINEL; a gate that is still draining
holds the run and asks for the wake; otherwise the run ends with status DOMAIN_ASLEEP (08 Edges, 16 R303, R315). -/
def workRunDispatch (b : Nat) (s : State) : Res :=
  .next (
    if s.running b || s.tilesBusy b (s.bindTiles b) then s
    else match s.takeRun b, s.bind? b with
      | some (r, t), some x => (match s.model? x.model with
        | none => s
        | some m =>
          let shut := (quadsOf x.tiles).filter s.quadShut
          if shut.all fun d => s.domOnDemand d && !s.ivory.forced then
            if shut.any fun d => s.domUp d then
              { s with ivory := { s.ivory with
                wakeAfter := s.ivory.wakeAfter ++ shut.filter fun d => !s.ivory.wakeAfter.contains d } }
            else (forEach (quadsOf x.tiles) (fun d u => u.touch d) t).startRun r x m
          else (t.endRun r 5 s.now s.idgPoint).idgBoundary b)
      | _, _ => s)

/-! ## Completion -/

/-- Cycles that a tile has stalled on weights beside the whole windows it was told: free within the run's time (08 R151). -/
def State.stallCycles (s : State) (r : Run) (t : Nat) : Nat :=
  (Config.freeValue s.freeCtr).toNat % ((s.now - r.startT - r.stalled.getD t 0) * s.tileMhz t / 1000 + 1)

/-- The rest of a run on a tile counted: its waves, busy cycles of at least what its MACs take, stalls (08 R149, R167). -/
def State.tileDone (m : Model) (c : Calc) (a : State × Run) (t : Nat) : State × Run :=
  let r := a.2
  let z := a.1.passWaves r t (m.waves r.point - r.waves.getD t 0)
  let w := z.1.stallCycles r t
  let u := (z.1.tookFree 1).bumpSat (R.IDG_Tn_WSTALL t) w
  let u := u.setReg64 (R.IDG_Tn_CYCLES_LO t)
    (u.reg64 (R.IDG_Tn_CYCLES_LO t) + Nat.max (m.cycles r.point) ((c.load.getD t 0 + 2047) / 2048))
  let u := u.setReg64 (R.IDG_Tn_MACS_LO t) (u.reg64 (R.IDG_Tn_MACS_LO t) + c.macs.getD t 0)
  (u.bumpSat (R.IDG_APX_Tn_ABSORBED t) (c.absorbed.getD t 0), z.2)

/-- Every tile of a run. -/
def State.tilesDone (s : State) (r : Run) (x : Bind) (m : Model) (c : Calc) : State × Run :=
  (tilesOf x.tiles).foldl (State.tileDone m c) (s, r)

/-- What a run made: the whole of it on one device, this member's part on a group's. -/
def State.workOf (s : State) (r : Run) (x : Bind) (m : Model) : State × Calc :=
  match s.indigo.group.get? r.binding with
  | some g => (s, { g.work with outs := g.done.getD [] })
  | none => s.runLayers r x m

/-- A binding's counters and delta state after a run. -/
def Bind.ran (x : Bind) (m : Model) (r : Run) (c : Calc) (took : Nat) (demoted : Bool) : Bind :=
  { x with
    satfall := Nat.min (x.satfall + c.sats) 0xFFFFFFFF, replays := x.replays + r.replays
    absorbed := x.absorbed + c.absorbed.foldl (fun n e => n + e.2) 0
    demotedRuns := x.demotedRuns + b2n demoted, wsBytes := x.wsBytes + m.weightBytes, lastDuration := took, poison := false
    layers := c.mem }

/-- A run in flight finishes; a poisoned weight read ends it with status HW_FAULT. Only the member that leads emits a record
(08 R163). -/
def State.finishRun (s : State) (r : Run) (x : Bind) (m : Model) : State :=
  let b := r.binding
  let w := if x.poison then (s, x.startWork []) else s.workOf r x m
  let z := w.1.tilesDone r x m w.2
  let q := z.2
  let t := z.1.vacate r
  let t := t.setReg64 R.IDG_WS_BYTES_LO (t.reg64 R.IDG_WS_BYTES_LO + m.weightBytes)
  let t := t.bumpSat (R.IDG_Bn_REPLAYS b) q.replays
  let y := x.ran m q w.2 (s.now - r.startT) (r.spec && (tilesOf x.tiles).any s.demoted)
  let y := if x.poison then { y with mustFull := true, layers := [] } else y
  let fl := windowFlags r ||| flagIf r.spec flSpeculative
  if !s.leads b then t.setBind b y
  else if x.poison then (t.setBind b y).endRun q 3 r.startT r.point
  else
    (t.setBind b y).emitResult q
      { status := 0, startT := r.startT, point := r.point, path := r.path, energy := m.energyUj r.point, replays := q.replays,
        tov := r.tov, oldest := r.oldest, flags := fl ||| flagIf r.approx flApprox, outputs := outputsOf m w.2.outs }

/-- The last tile can finish: on a group every layer's partial sums are formed, and on member 0 the outputs are there. -/
def State.canFinish (s : State) (b : Nat) (m : Model) : Bool :=
  match s.indigo.group.get? b with
  | some g => g.formed = m.layers.length && g.parts.isEmpty && (s.groupIndex ≠ 0 || g.done.isSome)
  | none => true

/-- The run in flight of a binding finishes, and the inference boundary follows. -/
def State.runDone (s : State) (b : Nat) : State :=
  match s.indigo.inflight.find? fun r => r.binding = b, s.bind? b with
  | some r, some x => (match s.model? x.model with
    | some m => if x.poison || s.canFinish b m then (s.finishRun r x m).idgBoundary b else s
    | none => s)
  | _, _ => s

/-- RUN_COMPLETE: the last tile finishes. -/
def workRunComplete (b : Nat) (s : State) : Res := .next (s.runDone b)

/-- A run on a tile. -/
def State.runOn (s : State) (t : Nat) : Option Run :=
  s.indigo.inflight.find? fun r => (s.bindTiles r.binding).toNat.testBit t

/-- TILE_WSTALL_WINDOW: tile `t` has stalled on weights for the whole of a 1 ms window (08 R151, R165). -/
def workTileWstallWindow (t : Nat) (s : State) : Res :=
  .next (match s.runOn t with
    | some r =>
      ((((s.setReg (R.IDG_Tn_STATE t) 2).bumpSat (R.IDG_Tn_WSTALL t) (s.tileMhz t * 1000)).assertSource (240 + t)).modIndigo
        fun i => { i with
          inflight := i.inflight.map fun q =>
            if q = r then { q with stalled := q.stalled.set t (q.stalled.getD t 0 + 1000000) } else q })
    | none => s)

/-- An undemoted tile at an S-point whose erring waves exceed the limit is demoted; its counts start again (09 R179). -/
def State.replayTest (s : State) (limit t : Nat) : State :=
  let w := s.regN (R.IDG_APX_Tn_WIN_WAVES t)
  let e := s.regN (R.IDG_APX_Tn_WIN_REPLAYS t)
  let fails := s.tileLive t && w * limit < e * 10000 && w ≠ 0
  let v := if fails then
      (((s.setRegFld R.IDG_APX_DEMOTED t t 1).bumpSat (R.IDG_APX_Tn_DEMOTIONS t)).assertSource (256 + t)).raiseFault
        3 t (args := [w32 e, w32 w, w32 limit])
    else s
  (v.setReg (R.IDG_APX_Tn_WIN_WAVES t) 0).setReg (R.IDG_APX_Tn_WIN_REPLAYS t) 0

/-- A staged limit holds from here. -/
def State.nextLimit (s : State) : State :=
  match s.indigo.replayNext with
  | some v => s.setReg R.IDG_APX_REPLAY_LIMIT (w32 v)
  | none => s

/-- A 1 ms window ends, once: the waves of runs in flight count in it, each tile is tested, and a staged limit holds from
here (09 R179). -/
def State.endWindow (s : State) : State :=
  let at' := s.now / 1000000 * 1000000
  if at' ≤ s.indigo.windowAt then s
  else
    ((forEach (List.range 16) (fun t u => u.replayTest (s.regN R.IDG_APX_REPLAY_LIMIT) t) s.progress).bump
      R.IDG_APX_WINDOW_SEQ).nextLimit.modIndigo fun i => { i with windowAt := at', replayNext := none }

/-- REPLAY_WINDOW_END. -/
def workReplayWindowEnd (s : State) : Res := .next s.endWindow

/-- 09 Loss of delta state: a quad has powered down. -/
def State.quadLost (s : State) (d : Nat) : State :=
  s.modIndigo fun i => { i with
    binds := i.binds.map fun e =>
      if (quadsOf e.2.tiles).contains d then (e.1, { e.2 with mustFull := true, lastInput := none, layers := [] }) else e }

/-! ## Command pages -/

/-- A binding named by a command: it exists and the context holds it. -/
def bindAccess (b off ctx : Nat) (s : State) : Check :=
  match s.bind? b with
  | some x => need (x.ctx = ctx) noPermission
  | none => .error (badParam off)

/-- The group of a binding has lost a peer (08 R161). -/
def State.bindLost (s : State) (b : Nat) : Bool :=
  match s.bind? b with
  | some x => x.group ≠ 0 && s.regFld R.TEAL_STATE 1 0 = 3
  | none => false

/-- A binding that a staged or armed INFER_BIND will make. -/
def State.bindClaimed (s : State) (h : Nat) : Bool :=
  let mine := fun (g : GCmd) => g.opcode = 0x0903 && handleBind g = h
  (s.host.armed.any fun a => a.cmds.any mine) ||
  s.host.ctxs.any fun e => match e.2.set with | some k => k.staged.any mine | none => false

/-- The lowest free binding handle. -/
def State.freeBind (s : State) : Nat :=
  (((List.range 256).map fun i => i + 1).find? fun h => (s.bind? h).isNone && !s.bindClaimed h).getD 0

/-- The binding that an INFER_BIND names or would create. -/
def bindTarget (b : Bytes) (v : State) : Nat := if u16 b 0 = 0 then v.freeBind else u16 b 0

/-- Tiles held by the bindings that a condition takes. -/
def State.tilesHeld (s : State) (p : Nat × Bind → Bool) : BitVec 16 :=
  s.indigo.binds.foldl (fun (m : BitVec 16) e => if p e then m ||| e.2.tiles else m) 0

/-- Tiles that binding `h` of a context cannot have: those of the context's other bindings as its own set leaves them, and
those that other contexts hold or claim (12 R234). -/
def tilesTaken (ctx h : Nat) (v w s : State) : BitVec 16 :=
  let others := fun (e : Nat × Bind) => e.1 ≠ h && e.2.ctx ≠ ctx
  v.tilesHeld (fun e => e.1 ≠ h && e.2.ctx = ctx) ||| s.tilesHeld others ||| w.tilesHeld others

/-- The tiles that an INFER_BIND gets beside those taken: those it names, or the lowest free ones; none where they are not
free. -/
def State.chooseTiles (v : State) (used : BitVec 16) (b : Bytes) (h : Nat) : Option (BitVec 16) :=
  let want := BitVec.ofNat 16 (u16 b 0x0C)
  if want ≠ 0 then (if want &&& used = 0 then some want else none)
  else
    let n := match v.model? (u16 b 4) with | some m => m.tiles | none => 0
    let keep := match v.bind? h with | some x => x.tiles | none => 0
    if (tilesOf keep).length = n ∧ keep &&& used = 0 then some keep
    else
      let free := (below 16 fun t => !used.toNat.testBit t).take n
      if free.length = n then some (BitVec.ofNat 16 (free.foldl (fun k t => k + 2 ^ t) 0)) else none

/-- A context owns or holds the source of a binding. -/
def bindSource (b : Bytes) (ctx : Nat) (v : State) : Bool :=
  if u8 b 6 = 1 then v.ruleOwner (u16 b 8) = ctx else if u8 b 6 = 2 then v.chOwner (u16 b 8) = ctx else true

/-- INFER_BIND; the wait for the other members of a group is Teal's. -/
def bindPage : GPage :=
  { GPage.plain 0x0903 (fun c v => idgElem (bindTarget c.block v))
      (fun c v =>
        let b := c.block
        let on := u8 b 2 ≠ 0
        let hi := if u8 b 6 = 1 then 255 else 39
        allOf [inRange (u16 b 0) 0 256 0, need (u16 b 0 = 0 || (v.bind? (u16 b 0)).isSome) (badParam 0),
          need (!on || (v.model? (u16 b 4)).isSome) (badParam 4),
          need (!on || u8 b 6 = 0 || 2 < u8 b 6 || u16 b 8 ≤ hi) (badParam 8),
          (match v.bind? (u16 b 0) with | some x => need (x.ctx = c.ctx) noPermission | none => .ok ()),
          (match v.model? (u16 b 4) with | some m => need (!on || m.ctx = c.ctx) noPermission | none => .ok ()),
          need (!on || bindSource b c.ctx v) noPermission,
          need (!on || (match v.chooseTiles (tilesTaken c.ctx (bindTarget b v) v v v) b (bindTarget b v) with
            | some k => (quadsOf k).all fun d => v.domUp d || v.domOnDemand d
            | none => true)) asleep,
          need (!on || u8 b 7 = 0 || v.domUp dTEAL || v.domOnDemand dTEAL) asleep])
      (fun c v =>
        let b := c.block
        let on := u8 b 2 = 1
        let m := (v.model? (u16 b 4)).getD ⟨0, [], [], 0, 0⟩
        allOf [need (u8 b 2 = 1 || (u8 b 2 = 0 && u16 b 0 ≠ 0)) (badParam 2), inRange (u8 b 3) 0 3 3,
          inRange (u8 b 6) 0 2 6, need (!on || u8 b 6 ≠ 2 || m.features = 1) (badParam 6),
          need (!on || (if u8 b 7 = 0 then u8 m.header 0x0A = 1
            else 2 ≤ v.regFld R.TEAL_STATE 1 0 && v.regFld R.TEAL_CTRL 7 0 = u8 b 7 && u8 m.header 0x0A = v.groupSize &&
              u8 m.header 0x0B = v.groupIndex)) (badParam 7),
          need (!on || (1 ≤ u16 b 0x0A && u16 b 0x0A ≤ m.positions)) (badParam 0x0A),
          need (!on || u16 b 0x0C = 0 || (tilesOf (BitVec.ofNat 16 (u16 b 0x0C))).length = m.tiles) (badParam 0x0C),
          reserved b 0x0E 2]) with
    reserve := fun g ctx v w s =>
      let b := g.block
      let h := bindTarget b v
      if u8 b 2 = 0 then .ok (s, bindHandle h 0 0 0)
      else if h = 0 then .error noResource
      else match v.chooseTiles (tilesTaken ctx h v w s) b h, v.model? (u16 b 4) with
        | some k, some m => (match s.allocSram m.layerCount ctx exPending h with
          | some (t, a) => (match t.allocSram (Config.bindState m.layerCount).toNat ctx exPending h with
            | some (u, d) => .ok (u, bindHandle h k.toNat (a - sramBase) (d - sramBase))
            | none => .error noResource)
          | none => .error noResource)
        | _, _ => .error noResource
    release := fun g s => if u8 g.block 2 = 0 then s else
      (s.freeSramAt (sramBase + handleBase g)).freeSramAt (sramBase + handlePinned g)
    result := fun h => leBytes 4 (h % 0x10000) }

/-- INFER_RUN: the tensor is fetched, then the run is queued (ACCEPTED). Runs of a group's binding are triggered on member 0
(08 R163): on another member the binding is no HOST binding that the command can name (DESIGN CHOICE, log entry 23). -/
def inferRunBody : PageBody := fun c d s =>
  let b := c.block
  let h := u16 b 0
  let x := (s.bind? h).getD (newBind 0)
  match allOf [bindAccess h 0 c.ctx s, need (x.kind = 0 && s.leads h) (badParam 0), reserved b 0x0A 2, inRange (u32 b 0x0C) 0 999999999 0x0C,
      need (u32 b 0x14 / 0x100000 = 0) (badParam 0x14), need (u64 b 0x18 % 64 = 0) (badParam 0x18),
      need (s.pendingOf h < 2) busy, need (!s.bindLost h) peerLost] with
  | .error e => .fail e
  | .ok _ => match s.model? x.model, d with
    | none, _ => .fail (badParam 0)
    | some m, none => .wait (s.dmaAsk c.path (u64 b 0x18) (elemBytes m.inFmt (m.positions * m.features)))
    | some m, some r => match s.dmaRead c.path (u64 b 0x18) (elemBytes m.inFmt (m.positions * m.features)) r with
      | none => .failWith (s.countDmaErr c.fn) dmaError
      | some t =>
        let p := fun i => Position.mk ((List.range m.features).map fun k => tensorElem m.inFmt t (i * m.features + k))
          ⟨u48 b 4, u32 b 0x0C, BitVec.ofNat 16 (u16 b 2), c.latchedAt, false⟩ ((c.latchedAt : Int) - u32 b 0x10 * 1000) 0
          (w32 (u32 b 0x14)) (s.elemGen x.ctx (idgElem h))
        .accepted (s.trigger h ((List.range m.positions).map p))

def execInferRun (p : Nat) (s : State) : Res := .next (runPage 0x0904 inferRunBody p s)

/-- INFER_GET_STATS. -/
def execInferGetStats (p : Nat) (s : State) : Res :=
  .next (runPage 0x0905 (plainPage
    (fun c s => allOf [bindAccess (u16 c.block 0) 0 c.ctx s, inRange (u8 c.block 2) 0 1 2, reserved c.block 3 1])
    (fun c s =>
      let b := u16 c.block 0
      let x := (s.bind? b).getD (newBind 0)
      let t := (s.resetRegs (R.IDG_Bn_RUNS b) (R.IDG_Bn_REPLAYS b + 4)).setBind b { x with wsBytes := 0, lastDuration := 0 }
      (if u8 c.block 2 = 1 then t else s,
        ((List.range 6).flatMap fun i => leBytes 4 (s.regN (R.IDG_Bn_RUNS b + 4 * i))) ++ leBytes 8 x.wsBytes ++
        leBytes 8 x.lastDuration ++ leBytes 8 0))) p s)

/-- APPROX_SET_LAYERS. -/
def layersPage : GPage :=
  GPage.plain 0x0A01 (fun c _ => idgElem (u16 c.block 0)) (fun c v => bindAccess (u16 c.block 0) 0 c.ctx v) fun c v =>
    let b := c.block
    let n := u16 b 4
    let m := match v.bind? (u16 b 0) with | some x => v.model? x.model | none => none
    let layers := match m with | some m => m.layers | none => []
    let one := fun i =>
      let l := nth layers (u16 b 2 + i) (layerOf [])
      let y := u8 b (8 + i)
      need (y = 4 || modeOk l.op l.format y) (badParam (8 + i))
    allOf ([inRange (u16 b 2) 0 4095 2, need (1 ≤ n && n ≤ 1024 && u16 b 2 + n ≤ layers.length) (badParam 4), reserved b 6 2] ++
      (List.range n).map one ++ [reserved b (8 + n) (b.length - (8 + n)), need (!v.bindLost (u16 b 0)) peerLost])

/-- APPROX_SET_BINDING. -/
def approxBindPage : GPage :=
  GPage.plain 0x0A02 (fun c _ => idgElem (u16 c.block 0)) (fun c v => bindAccess (u16 c.block 0) 0 c.ctx v) fun c v =>
    let b := c.block
    allOf [inRange (u8 b 2) 0 1 2, inRange (u8 b 3) 0 1 3, inRange (u8 b 4) 1 255 4, reserved b 6 2,
      need (u32 b 0x0C ≤ u32 b 0x10) (badParam 0x10), need (!v.bindLost (u16 b 0)) peerLost]

/-- APPROX_SET_SPECULATION. -/
def execApproxSetSpeculation (p : Nat) (s : State) : Res :=
  .next (runPage 0x0A03 (plainPage
    (fun c _ => allOf [inRange (u8 c.block 0) 0 1 0, reserved c.block 1 1, inRange (u16 c.block 2) 1 10000 2])
    (fun c s => (s.modIndigo fun i => { i with
      specNext := some (u8 c.block 0 = 1), replayNext := some (u16 c.block 2) }, []))) p s)

/-- APPROX_SET_VERIFY: each binding takes it up at its next inference boundary (09 R184). -/
def execApproxSetVerify (p : Nat) (s : State) : Res :=
  .next (runPage 0x0A04 (plainPage
    (fun c _ => allOf [inRange (u8 c.block 0) 0 1 0, reserved c.block 1 3])
    (fun c s => (s.writeApxCtrl (setFld (s.reg R.IDG_APX_CTRL) 0 0 (u8 c.block 0)), []))) p s)

/-- APPROX_GET_STATS. -/
def execApproxGetStats (p : Nat) (s : State) : Res :=
  .next (runPage 0x0A05 (plainPage
    (fun c s => allOf [bindAccess (u16 c.block 0) 0 c.ctx s, inRange (u8 c.block 2) 0 1 2, reserved c.block 3 1])
    (fun c s =>
      let b := u16 c.block 0
      let x := (s.bind? b).getD (newBind 0)
      let t := s.setBind b { x with
        full := 0, delta := 0, skip := 0, satfall := 0, maxD := 0, replays := 0, absorbed := 0, demotedRuns := 0 }
      (if u8 c.block 2 = 1 then t else s,
        leBytes 4 x.full ++ leBytes 4 x.delta ++ leBytes 4 x.skip ++ leBytes 4 x.satfall ++ leBytes 4 x.maxD ++
        leBytes 4 x.lastD ++ leBytes 2 x.skips ++ leBytes 2 0 ++ leBytes 8 x.replays ++ leBytes 8 x.absorbed ++
        leBytes 4 x.demotedRuns ++ leBytes 16 0))) p s)

end Sys2Proof.Machine
end

