-- ==== Sys2Proof/Machine/Teal.lean ====
section
/-! DEFINITION. Teal (08 R160 to R163): forming and losing a group, links, the wait of a group's INFER_BIND, frames received
and the 0x12 commands. -/

namespace Sys2Proof.Machine

/-! ## Forming and losing a group -/

/-- Every other member has formed with an equal group and size. -/
def State.allFormed (s : State) : Bool :=
  s.peers.all fun d => s.indigo.heard.get? d = some (s.groupNo, s.groupSize)

/-- The group is formed. -/
def State.groupUp (s : State) : State :=
  ((s.setReg R.TEAL_STATE tealFormed).installPeers.modIndigo fun i => { i with forming := none }).assertSource 419

/-- No group. -/
def State.groupGone (s : State) : State :=
  ((s.setReg R.TEAL_STATE tealNone).setReg R.TEAL_CTRL 0).modIndigo fun i => { i with
    forming := none, heard := [], bound := [], group := [], held := [] }

/-- 08 R161: members declared lost: runs on the group end PEER_LOST, contributions that wait are discarded, and its bindings
stop triggering. -/
def State.losePeers (s : State) (lost : List Nat) : State :=
  if lost.isEmpty || s.tealState ≠ tealFormed then s
  else
    let t := (s.setReg R.TEAL_STATE tealLost).assertSource 418
    let t := lost.foldl (fun t d => t.raiseFault 14 d (args := [w32 s.groupNo])) t
    let t := (t.endInflight (fun r => s.groupBind r.binding) 2).endPending (fun r => s.groupBind r.binding) 2
    t.modIndigo fun i => { i with
      binds := i.binds.map fun e => if e.2.group ≠ 0 then (e.1, { e.2 with stopped := true }) else e }

/-- Members that no link reaches: the links toward them are down (08 R160). -/
def State.unreachable (s : State) : List Nat :=
  s.peers.filter fun d =>
    if s.groupSize = 2 then s.linkOf 0 = 0 && s.linkOf 1 = 0 else s.linkOf (s.tealPort d) = 0

/-! ## Links -/

/-- TEAL_LINK_UP: frames that waited go out. -/
def execTealLinkUp (port : Nat) (s : State) : Res :=
  .next (
    if s.domUp dTEAL && !s.linkUp port then
      (((s.setReg (R.TEAL_Pn_LINK port) 2).assertSource (416 + port)).modIndigo fun i => { i with
        retrainAt := i.retrainAt.erase port }).releaseFrames port
    else s)

/-- TEAL_LOSS_OF_LOCK: retraining begins. -/
def execTealLossOfLock (port : Nat) (s : State) : Res :=
  .next (
    if s.linkUp port then
      ((((s.setReg (R.TEAL_Pn_LINK port) 1).bumpSat (R.TEAL_Pn_RETRAIN port)).assertSource 421).assertSource
        (416 + port)).modIndigo fun i => { i with retrainAt := i.retrainAt.set port s.now }
    else s)

/-- TEAL_RETRAIN_TIMEOUT: retraining has not succeeded within 1 ms. -/
def execTealRetrainTimeout (port : Nat) (s : State) : Res :=
  .next (match s.indigo.retrainAt.get? port with
    | some t =>
      if t + 1000000 ≤ s.now then
        let u := ((s.setReg (R.TEAL_Pn_LINK port) 0).modIndigo fun i => { i with
          retrainAt := i.retrainAt.erase port }).releaseFrames port
        u.losePeers u.unreachable
      else s
    | none => s)

/-- TEAL loses power: links that were up go down (R166), and the group loses the members behind them. -/
def State.tealDown (s : State) : State :=
  let t := forEach [0, 1] (fun p u =>
    ((u.setReg (R.TEAL_Pn_LINK p) 0).assertSourceIf (s.linkUp p) (416 + p)).releaseFrames p) s
  (t.losePeers t.unreachable).modIndigo fun i => { i with retrainAt := [] }

/-! ## The bind of a slice (08 R163) -/

/-- What the wait of a group's INFER_BIND comes to. -/
inductive BindGate where
  | go (s : State)
  | wait (s : State)
  | fail (e : CErr)

/-- The model_id of a bind's package. -/
def bindModelId (b : Bytes) (s : State) : BitVec 64 := match s.model? (u16 b 4) with | some m => m.id | none => 0

/-- Every member binds its slice: equal model_ids let the bind go on, a missing one makes it wait. -/
def State.bindGate (s : State) (c : Cmd) : BindGate :=
  let b := c.block
  if c.opcode ≠ 0x0903 ∨ u8 b 2 = 0 ∨ u8 b 7 = 0 then .go s
  else if s.tealState = tealLost then .fail peerLost
  else
    let told := s.peers.filterMap fun d => s.indigo.bound.get? d
    let id := bindModelId b s
    if told.any fun e => e.1 ≠ id then .fail (badParam 4)
    else
      let t := s.tealAll 0 (.bound id)
      if told.length = s.peers.length then
        .go (t.modIndigo fun i => { i with bound := [], bindWait := i.bindWait.erase c.path })
      else .wait (t.modIndigo fun i => { i with bindWait := i.bindWait.set c.path s.now })

/-- Waiting binds go on when every member has bound. -/
def State.wakeBinds (s : State) : State :=
  if s.peers.all fun d => (s.indigo.bound.get? d).isSome then
    s.indigo.bindWait.foldl (fun t e => t.toStage e.1 (.resumed (some []))) s
  else s

/-- GROUP_BIND_TIMEOUT: a member has not bound within 100 ms of the first bind. -/
def execGroupBindTimeout (p : Nat) (s : State) : Res :=
  .next (match s.indigo.bindWait.get? p, s.latch p with
    | some t, some l =>
      let first := s.indigo.bound.foldl (fun k e => Nat.min k e.2.2) t
      if first + 100000000 ≤ s.now ∧ l.stage = .yielded then
        (s.modIndigo fun i => { i with bindWait := i.bindWait.erase p, bound := [] }).answerErr p peerLost (s.respGen l.cmd)
      else s
    | _, _ => s)

/-! ## Frames -/

/-- A frame came on the port that the ring gives its sender: the next member's on port 0; on port 1 that of the one before,
and what the one two places away sends on through it (08 R160, R161). -/
def State.cabled (s : State) (port d : Nat) : Bool :=
  let n := s.groupSize
  n = 2 || (port = 0 && d = (s.groupIndex + 1) % n) || (port = 1 && d ≠ (s.groupIndex + 1) % n)

/-- The binding of the group that holds a slice of a model. -/
def State.sliceOf (s : State) (id : BitVec 64) : Option Nat :=
  (s.indigo.binds.find? fun e => e.2.group ≠ 0 && (match s.model? e.2.model with | some m => m.id = id | none => false)).map
    fun e => e.1

/-- A run descriptor from member 0 (08 R163, 09 R174, 16 R322): the run starts on this member's tiles, its slice's energy is
charged to this member's window; a run of which only RUN_COMPLETE is missing is complete. -/
def State.hearRun (s : State) (id : BitVec 64) (path : Nat) (slice : List Int) : State :=
  match s.sliceOf id with
  | none => s
  | some b =>
    let s := s.runDone b
    match s.bind? b with
    | none => s
    | some x =>
      let y := x.took path x.lastD slice
      let t := s.setBind b y
      if path = 2 ∨ s.running b then t
      else
        let r : Run :=
          { binding := b, window := [], admitted := true, waited := 0, startT := 0, point := 0, path := path, spec := false,
            approx := false, gen := 0, replays := 0, waves := [], stalled := [], lively := 0 }
        let t := forEach (quadsOf x.tiles) (fun d u => u.touch d) (t.charge b (t.runCost b))
        (((t.enterGroup b y path slice).launch (t.launched r y path) y)).groupSteps b

/-- A change of the group's run of a model, and what the member can then do. -/
def State.onGroup (s : State) (id : BitVec 64) (f : Model → GroupRun → GroupRun) : State :=
  match s.sliceOf id with
  | none => s
  | some b => match s.indigo.group.get? b, s.bind? b with
    | some g, some x => (match s.model? x.model with
      | some m => (s.modIndigo fun i => { i with group := i.group.set b (f m g) }).groupSteps b
      | none => s)
    | _, _ => s

/-- What a message tells this member. A command is applied by the family of change sets, and a request is served where
accesses are (01 R29). -/
def State.hearMsg (s : State) (d : Nat) (ring : Bool) : TealMsg → State
  | .forming g n => if ring then s.modIndigo fun i => { i with heard := i.heard.set d (g, n) } else s
  | .bound id => (s.modIndigo fun i => { i with bound := i.bound.set d (id, s.now) }).wakeBinds
  | .run id path slice => if d = 0 then s.hearRun id path slice else s
  | .partials id i sums => s.onGroup id fun _ g => { g with parts := g.parts ++ [(i, d, sums)] }
  | .slice id i v => s.onGroup id fun m g => g.takeSlice m i v
  | .command _ _ _ => s
  | .write _ _ => s
  | .read _ _ => s
  | .answer _ => s

/-- A frame for this member: its sender is seen, its message heard; a group that waits may be formed by it. -/
def State.hearFrame (s : State) (port : Nat) (f : TealFrame) : State :=
  let t := s.setRegFld R.TEAL_PEER_SEEN f.source f.source 1
  let t := match f.msg with
    | some m => t.hearMsg f.source (s.cabled port f.source) m
    | none => t
  match t.indigo.forming with
  | some (p, _) => if t.allFormed then t.groupUp.answer p ⟨cOk, 0, 0, []⟩ else t
  | none => t

/-- The frame is for another member of the group. -/
def State.passesOn (s : State) (f : TealFrame) : Bool := s.tealState ≠ tealNone && f.dest ≠ s.groupIndex

/-- TEAL_FRAME_RECEIVED: a frame that fails its CRC is replayed; one for another member is forwarded by the other port (08
R160, R161). -/
def workTealFrameReceived (port : Nat) (f : TealFrame) (s : State) : Res :=
  .next (
    if !s.linkUp port || !s.domUp dTEAL then s
    else if !f.crcOk then
      ((s.assertSourceIf (s.reg (R.TEAL_Pn_REPLAY port) = 0) 420).bumpSat (R.TEAL_Pn_CRC_ERR port)).bumpSat
        (R.TEAL_Pn_REPLAY port)
    else if s.passesOn f then
      (s.setReg64 (R.TEAL_Pn_FWD_LO port) (s.reg64 (R.TEAL_Pn_FWD_LO port) + 64)).putFrame (1 - port) f.source f.dest f.id f.msg
    else (s.setReg64 (R.TEAL_Pn_RX_LO port) (s.reg64 (R.TEAL_Pn_RX_LO port) + 64)).hearFrame port f)

/-! ## Command pages -/

/-- GROUP_FORM: forming frames go out; the command completes when every member has formed, or at its timeout. -/
def groupFormBody : PageBody := fun c _ s =>
  let b := c.block
  match allOf [s.reach dTEAL, inRange (u8 b 0) 1 255 0, inRange (u8 b 1) 2 4 1, need (u8 b 2 < u8 b 1) (badParam 2),
      need (u8 b 3 ≤ 1 && (u8 b 3 = 0 || u8 b 1 = 2)) (badParam 3), inRange (u32 b 4) 10 10000 4,
      need (s.tealState ≠ tealLost) peerLost, need (s.tealState = tealNone) busy] with
  | .error e => .fail e
  | .ok _ =>
    let t := (s.touch dTEAL).setReg R.TEAL_CTRL (w32 (u8 b 0 + u8 b 1 * 0x100 + u8 b 2 * 0x800 + u8 b 3 * 0x4000))
    let t := (t.setReg R.TEAL_STATE tealForming).modIndigo fun i => { i with
      forming := some (c.path, s.now + u32 b 4 * 1000000) }
    let t := t.tealAll 0 (.forming (u8 b 0) (u8 b 1))
    if t.allFormed then .done t.groupUp [] else .wait t

def execGroupForm (p : Nat) (s : State) : Res := .next (runPage 0x1201 groupFormBody p s)

/-- GROUP_FORM_TIMEOUT. -/
def execGroupFormTimeout (s : State) : Res :=
  .next (match s.indigo.forming with
    | some (p, dl) => if dl ≤ s.now then s.groupGone.answerErr p peerLost 0 else s
    | none => s)

/-- GROUP_DISSOLVE: runs in flight end INTERRUPTED, the group's bindings are deleted, and each context that held one takes
the next generation (12 R236). -/
def actDissolve (_ : Cmd) (s : State) : State × Bytes :=
  let gone := (s.indigo.binds.filter fun e => e.2.group ≠ 0).map fun e => e.1
  let ctxs := ((s.indigo.binds.filter fun e => e.2.group ≠ 0).map fun e => e.2.ctx).dedup
  let t := s.endInflight (fun r => s.groupBind r.binding) 4
  let t := gone.foldl (fun t b => (t.dropArmed (idgElem b)).dropBind b) t
  let waits := t.indigo.bindWait.map fun e => e.1
  let t := waits.foldl (fun t p => t.answerErr p peerLost (match t.latch p with | some l => t.respGen l.cmd | none => 0)) t
  let t := match t.indigo.forming with
    | some (p, _) => t.answerErr p peerLost 0
    | none => t
  let t := (t.modIndigo fun i => { i with bindWait := [] }).removePeers.groupGone
  (ctxs.foldl (fun t k => t.bumpGen k) t, [])

def execGroupDissolve (p : Nat) (s : State) : Res :=
  .next (runPage 0x1202 (plainPage
    (fun _ s => allOf [s.reach dTEAL, need (s.tealState ≠ tealNone) (badParam 0)]) actDissolve) p s)

/-- GROUP_GET_STATUS. -/
def execGroupGetStatus (p : Nat) (s : State) : Res :=
  .next (runPage 0x1203 (plainPage (fun _ s => s.reach dTEAL)
    (fun _ s =>
      let t := s.touch dTEAL
      (t, leBytes 1 t.groupNo ++ leBytes 1 t.groupSize ++ leBytes 1 t.groupIndex ++ leBytes 1 t.tealState ++
        leBytes 4 (t.regN R.TEAL_PEER_SEEN) ++
        ([0, 1].flatMap fun k => leBytes 4 (t.regN (R.TEAL_Pn_REPLAY k)) ++ leBytes 4 (t.regN (R.TEAL_Pn_RETRAIN k))) ++
        leBytes 8 0))) p s)

end Sys2Proof.Machine
end

