-- ==== Sys2Proof/Machine/ChangeSet.lean ====
section
/-! DEFINITION. Change sets (12): staging, commit and arming, QUIESCE_COMMIT, and the generation-bearing command pages
(12 R233), which stage while a set is open and are sets of one command otherwise. -/

namespace Sys2Proof.Machine

/-! ## The generation-bearing commands (12 R233) -/

/-- Their pages. -/
def gPages : List GPage :=
  [formatPage, filtersPage, blockingPage, projPortPage, stackPage, surfacePage, cornerPage, flowPage, trackerPage,
   derivedPage, chainPage, dcPage, thresholdPage, bandPage, rulePage, bindPage, layersPage, approxBindPage]

def gPage? (op : Nat) : Option GPage := gPages.find? fun g => g.op = op

/-- The element that a staged command changes. -/
def GCmd.elem (g : GCmd) (s : State) : Elem :=
  let b := g.block
  match g.opcode / 256 with
  | 4 => ochElem (u8 b 0)
  | 5 => if g.opcode = 0x0503 then cobPortElem (u8 b 0) else cobStackElem (u8 b 0)
  | 6 => sepElem (u8 b 0)
  | 7 => umbElem (s.chGroup (if g.opcode = 0x0709 then u8 b 2 else u8 b 0))
  | 8 => virElem (u16 b 0)
  | _ => idgElem (if g.opcode = 0x0903 then handleBind g else u16 b 0)

/-- What of the element the command sets: its opcode, and the channel, unit or binding that it names. -/
def GCmd.setting (g : GCmd) : Nat × Nat :=
  let b := g.block
  (g.opcode,
    if g.opcode = 0x0708 then u8 b 0 * 2 + u8 b 1
    else if g.opcode = 0x0903 then handleBind g
    else if 0x0801 ≤ g.opcode then u16 b 0 else u8 b 0)

/-- A command of an element takes effect. -/
def applyG (g : GCmd) (s : State) : State :=
  match g.opcode / 256 with
  | 4 => applyOchre g s
  | 5 => applyCobalt g s
  | 6 => applySepia g s
  | 7 => applyUmber g s
  | 8 => applyViridian g s
  | _ => applyIndigo g s

/-- The staged commands of the open sets of contexts that a condition takes. -/
def State.stagedOf (s : State) (p : Nat → Bool) : List GCmd :=
  s.host.ctxs.flatMap fun e => match e.2.set with | some k => if p e.1 then k.staged else [] | none => []

/-- The state that would result from what is armed and from some open sets. -/
def State.projectedOf (s : State) (p : Nat → Bool) : State :=
  (s.host.armed.flatMap (fun a => a.cmds) ++ s.stagedOf p).foldl (fun t g => applyG g t) s

/-- 12 R234: the state that would result from what is armed and from a context's own set. -/
def State.projected (s : State) (c : Nat) : State := s.projectedOf fun k => k = c

/-- The state that every open set would give. -/
def State.projectedAll (s : State) : State := s.projectedOf fun _ => true

/-- The reservation of a staged command given back. -/
def State.unreserve (s : State) (g : GCmd) : State :=
  match gPage? g.opcode with
  | some k => k.release g s
  | none => s

/-! ## Staging (12 R234) -/

/-- A later command replaces an earlier one whole. Of two APPROX_SET_LAYERS the earlier goes only where the later covers
all its layers: in order, the later one's bytes win where they overlap. -/
def GCmd.replaces (new old : GCmd) : Bool :=
  new.setting = old.setting &&
  (new.opcode ≠ 0x0A01 ||
    (u16 new.block 2 ≤ u16 old.block 2 && u16 old.block 2 + u16 old.block 4 ≤ u16 new.block 2 + u16 new.block 4))

/-- A PROJ_SET_PORT with grid_addr 0 keeps the grid that the command it replaces staged. -/
def GCmd.keepGrid (new : GCmd) (old : List GCmd) : GCmd :=
  if new.opcode = 0x0503 ∧ u64 new.block 0x70 = 0 then
    match old.find? fun g => new.replaces g with
    | some g => { new with data := g.data, handle := g.handle }
    | none => new
  else new

/-- A command put into a set. -/
def ChangeSet.add (k : ChangeSet) (g : GCmd) : ChangeSet :=
  { k with staged := (k.staged.filter fun o => !g.replaces o) ++ [g.keepGrid k.staged] }

/-- Bytes of staged parameters. -/
def stagedLen (l : List GCmd) : Nat := l.foldl (fun n g => n + g.block.length) 0

/-- The staging limits: 128 commands, 64 KiB of parameters. -/
def ChangeSet.room (k : ChangeSet) (g : GCmd) : Bool :=
  (k.add g).staged.length ≤ 128 && stagedLen (k.add g).staged ≤ 65536

def State.setChanges (s : State) (c : Nat) (k : Option ChangeSet) : State :=
  match s.ctx? c with
  | some x => s.setCtx c { x with set := k }
  | none => s

/-- An open set discarded with its reservations. -/
def State.dropSet (s : State) (c : Nat) : State :=
  match s.ctx? c with
  | some x => (match x.set with
    | some k => (k.staged.foldl (fun t g => t.unreserve g) s).setChanges c none
    | none => s)
  | none => s

/-! ## Commit, arming and applying (12 R237) -/

/-- The domain behind an element that arming reaches; a binding's is the control window, always up with CTL. -/
def Elem.domain (e : Elem) : Nat :=
  match e.blk with
  | 0 => portDomain e.idx
  | 1 => dCOB
  | 2 => dSEP
  | 3 => dUMB
  | 4 => dVIR
  | _ => dCTL

/-- Elements in the fixed order, each once. -/
def elemsOf (s : State) (l : List GCmd) : List Elem :=
  let all := (l.map fun g => g.elem s).eraseDups
  (List.range 6).flatMap fun k => all.filter fun e => e.blk = k

/-- An element applies what is armed for it. -/
def State.applyNow (s : State) (e : Elem) : State :=
  match e.blk with
  | 0 => s.applyElem e applyOchre
  | 1 => s.applyElem e applyCobalt
  | 2 => s.sepApply e.idx
  | 3 => s.umbApply e.idx
  | 4 => s.virApply e.idx
  | _ => s.applyElem e applyIndigo

/-- An element that is at its apply point as soon as it is armed: a rule without a window, a binding without a run, a
sync group without an enabled channel (06 R127, 07 R145, 08 R157). -/
def State.applyIfRest (s : State) (e : Elem) (cmds : List GCmd) : State :=
  match e.blk with
  | 3 => if (s.slowest e.idx).isNone then s.umbApply e.idx else s
  | 4 => if s.virAtOnce e.idx cmds then s.virApply e.idx else s
  | 5 => s.idgBoundary e.idx
  | _ => s

/-- The shadow of an element armed; until it applies the element produces under the generation `gen` before the commit
(12 R238). -/
def State.arm (s : State) (c : Nat) (gen : BitVec 16) (e : Elem) (cmds : List GCmd) : State :=
  (s.touch e.domain).modHost fun h => { h with armed := h.armed ++ [⟨c, gen, e, cmds, s.now⟩] }

/-- The model_id behind a binding. -/
def State.bindModel (s : State) (b : Nat) : BitVec 64 :=
  match s.bind? b with
  | some x => (match s.model? x.model with | some m => m.id | none => 0)
  | none => 0

/-- A command that member 0 forwards to every member of its binding's group as it is committed (09 Command pages). -/
def State.forwardG (s : State) (g : GCmd) : State :=
  let b := u16 g.block 0
  if (g.opcode = 0x0A01 ∨ g.opcode = 0x0A02) ∧ s.groupBind b ∧ s.groupIndex = 0 then
    s.tealAll 0 (.command (s.bindModel b) g.opcode g.block)
  else s

/-- Commit: the generation increments, every element of the set is armed, and those at rest apply, in the fixed order. -/
def State.commit (s : State) (c : Nat) (l : List GCmd) (at' : Nat) : State :=
  match s.ctx? c with
  | none => s
  | some x =>
    let t := l.foldl (fun t g => t.forwardG g) s
    let t := t.setCtx c { x with gen := x.gen + 1, lastCommit := at' }
    let es := elemsOf s l
    let mine := fun e => l.filter fun g => g.elem s = e
    let u := es.foldl (fun u e => u.arm c x.gen e (mine e)) t
    es.foldl (fun u e => u.applyIfRest e (mine e)) u

/-- Blocks with a shadow of the context armed and not applied. -/
def State.pendingMask (s : State) (c : Nat) : Nat :=
  (List.range 6).foldl (fun n k => n + b2n (s.host.armed.any fun a => a.ctx = c && a.elem.blk = k) * 2 ^ k) 0

/-- A command that member 0 forwarded: armed for this member's binding to the model, to apply at the same inference boundary
(09 Command pages, log entry 23). -/
def State.hearCommand (s : State) (id : BitVec 64) (op : Nat) (block : Bytes) : State :=
  match s.sliceOf id with
  | none => s
  | some b => match s.bind? b with
    | some x =>
      let g : GCmd := ⟨op, putBytes block 0 (leBytes 2 b), [], x.ctx, 0⟩
      (s.arm x.ctx (s.elemGen x.ctx (idgElem b)) (idgElem b) [g]).applyIfRest (idgElem b) [g]
    | none => s

/-- The command carried to its end once its data are there: staged in the open set, or committed alone. -/
def finishG (pg : GPage) (c : Cmd) (x : Ctx) (v : State) (data : Bytes) (s : State) : PageOut :=
  let g0 : GCmd := ⟨c.opcode, c.block, data, c.ctx, 0⟩
  match x.set with
  | some k =>
    let h0 := { g0 with handle := u16 c.block 0 }
    let gone := k.staged.filter fun o => h0.replaces o
    let s1 := gone.foldl (fun t g => t.unreserve g) s
    match pg.reserve g0 c.ctx v s.projectedAll s1 with
    | .error e => .fail e
    | .ok _ => match s1.bindGate c with
      | .fail e => .fail e
      | .wait _ => (match s.bindGate c with | .wait t => .wait t | _ => .wait s)
      | .go t => match pg.reserve g0 c.ctx v s.projectedAll t with
        | .error e => .fail e
        | .ok (u, h) => .done (u.setChanges c.ctx (some (k.add { g0 with handle := h }))) (pg.result h)
  | none =>
    match pg.reserve g0 c.ctx v s.projectedAll s with
    | .error e => .fail e
    | .ok _ => match s.bindGate c with
      | .fail e => .fail e
      | .wait t => .wait t
      | .go t => match pg.reserve g0 c.ctx v s.projectedAll t with
        | .error e => .fail e
        | .ok (u, h) => .done (u.commit c.ctx [{ g0 with handle := h }] c.latchedAt) (pg.result h)

/-- 12 R234 to R236: the change-set state that a generation-bearing command meets. -/
def Ctx.stageable (x : Ctx) : Check :=
  match x.set with
  | some k => need (!k.stale) staleGen
  | none => need (!x.requireSet) notInSet

/-- The checks of 10 R196 step 8 on a generation-bearing command up to its fetch. -/
def gCheck (pg : GPage) (c : Cmd) (x : Ctx) (v s : State) : Check :=
  allOf [pg.access c v, x.stageable, pg.params c v,
    (match x.set with
     | some k => need (k.room ⟨c.opcode, c.block, [], c.ctx, u16 c.block 0⟩) noResource
     | none => need (s.armedAt (pg.elem c v)).isNone busy)]

/-- A generation-bearing page. -/
def gBody (pg : GPage) : PageBody := fun c d s =>
  match s.ctx? c.ctx with
  | none => .fail noPermission
  | some x =>
    let v := s.projected c.ctx
    match gCheck pg c x v s with
    | .error e => .fail e
    | .ok _ => match pg.fetch c v with
      | none => finishG pg c x v [] s
      | some (a, n) => match d with
        | none => .wait (s.dmaAsk c.path a n)
        | some r => match s.dmaRead c.path a n r with
          | none => .failWith (s.countDmaErr c.fn) dmaError
          | some data => match pg.data c data v with
            | .error e => .fail e
            | .ok _ => finishG pg c x v data s

/-- A set is open for the context of a command. -/
def State.setOpen (s : State) (c : Nat) : Bool := match s.ctx? c with | some x => x.set.isSome | none => false

/-- STAGE_GENERATION_COMMAND: the generation-bearing command latched on a path, while its context's set is open. -/
def execStageGenerationCommand (p : Nat) (s : State) : Res :=
  .next (match s.latch p with
    | some l => (match gPage? l.cmd.opcode with
      | some pg => if s.setOpen l.cmd.ctx then runPage pg.op (gBody pg) p s else s
      | none => s)
    | none => s)

/-- SINGLE_COMMAND_COMMIT: the generation-bearing command latched on a path, while its context has no set open. -/
def execSingleCommandCommit (p : Nat) (s : State) : Res :=
  .next (match s.latch p with
    | some l => (match gPage? l.cmd.opcode with
      | some pg => if s.setOpen l.cmd.ctx then s else runPage pg.op (gBody pg) p s
      | none => s)
    | none => s)

/-! ## The generation-bearing rows -/

def execEvportSetFormat (p : Nat) (s : State) : Res := .next (runPage 0x0402 (gBody formatPage) p s)
def execEvportSetFilters (p : Nat) (s : State) : Res := .next (runPage 0x0403 (gBody filtersPage) p s)
def execEvportSetBlocking (p : Nat) (s : State) : Res := .next (runPage 0x0404 (gBody blockingPage) p s)
def execProjSetPort (p : Nat) (s : State) : Res := .next (runPage 0x0503 (gBody projPortPage) p s)
def execProjSetStack (p : Nat) (s : State) : Res := .next (runPage 0x0504 (gBody stackPage) p s)
def execFeatSetSurface (p : Nat) (s : State) : Res := .next (runPage 0x0601 (gBody surfacePage) p s)
def execFeatSetCorner (p : Nat) (s : State) : Res := .next (runPage 0x0602 (gBody cornerPage) p s)
def execFeatSetFlow (p : Nat) (s : State) : Res := .next (runPage 0x0603 (gBody flowPage) p s)
def execFeatSetTracker (p : Nat) (s : State) : Res := .next (runPage 0x0604 (gBody trackerPage) p s)
def execFilterSetDerived (p : Nat) (s : State) : Res := .next (runPage 0x0703 (gBody derivedPage) p s)
def execFilterSetChain (p : Nat) (s : State) : Res := .next (runPage 0x0705 (gBody chainPage) p s)
def execFilterSetDcblock (p : Nat) (s : State) : Res := .next (runPage 0x0706 (gBody dcPage) p s)
def execFilterSetThreshold (p : Nat) (s : State) : Res := .next (runPage 0x0708 (gBody thresholdPage) p s)
def execFilterSetBand (p : Nat) (s : State) : Res := .next (runPage 0x0709 (gBody bandPage) p s)
def execFuseSetRule (p : Nat) (s : State) : Res := .next (runPage 0x0801 (gBody rulePage) p s)
def execInferBind (p : Nat) (s : State) : Res := .next (runPage 0x0903 (gBody bindPage) p s)
def execApproxSetLayers (p : Nat) (s : State) : Res := .next (runPage 0x0A01 (gBody layersPage) p s)
def execApproxSetBinding (p : Nat) (s : State) : Res := .next (runPage 0x0A02 (gBody approxBindPage) p s)

/-- FILTER_SET_PORT and FILTER_LOAD_COEFFS are carried out at once and look at what is armed and staged. -/
def execFilterSetPort (p : Nat) (s : State) : Res :=
  .next (runPage 0x0701 (plainPage (fun c s => checkTdm s.projectedAll c s) actTdm) p s)
def execFilterLoadCoeffs (p : Nat) (s : State) : Res :=
  .next (runPage 0x0704 (fun c d s => coeffsBody s.projectedAll c d s) p s)

/-! ## The 0x02 pages of change sets -/

/-- CHANGESET_BEGIN. -/
def beginBody : PageBody := fun c _ s =>
  match s.ctx? c.ctx with
  | none => .fail noPermission
  | some x =>
    match allOf [need (u8 c.block 2 ≠ 1 || u16 c.block 0 = x.gen.toNat) staleGen, inRange (u8 c.block 2) 0 1 2,
        reserved c.block 3 1, need x.set.isNone busy] with
    | .error e => .fail e
    | .ok _ => .done (s.setChanges c.ctx (some ⟨x.gen, false, []⟩)) []

def execChangesetBegin (p : Nat) (s : State) : Res := .next (runPage 0x0210 beginBody p s)

/-- An element of a set still holds a shadow of an earlier commit. -/
def State.setBlocked (s : State) (l : List GCmd) : Bool := l.any fun g => (s.armedAt (g.elem s)).isSome

/-- Result of CHANGESET_COMMIT. -/
def State.commitResult (s : State) (c n : Nat) : Bytes :=
  leBytes 2 (s.ctxGen c).toNat ++ leBytes 1 (s.pendingMask c) ++ leBytes 1 0 ++ leBytes 2 n ++ leBytes 2 0

/-- CHANGESET_COMMIT (12 R236, R237). -/
def commitBody : PageBody := fun c _ s =>
  match s.ctx? c.ctx with
  | none => .fail noPermission
  | some x => match x.set with
    | none => .fail notInSet
    | some k =>
      if k.stale then .failWith (s.dropSet c.ctx) staleGen
      else if k.staged = [] then
        .done (s.setChanges c.ctx none) (leBytes 2 x.gen.toNat ++ leBytes 6 0)
      else if s.setBlocked k.staged then .fail busy
      else
        let t := (s.setChanges c.ctx none).commit c.ctx k.staged c.latchedAt
        .done t (t.commitResult c.ctx k.staged.length)

def execChangesetCommit (p : Nat) (s : State) : Res := .next (runPage 0x0211 commitBody p s)

def execChangesetAbort (p : Nat) (s : State) : Res :=
  .next (runPage 0x0212 (plainPage (fun c s => need (s.setOpen c.ctx) notInSet) fun c s => (s.dropSet c.ctx, [])) p s)

/-- Result of CHANGESET_GET_STATUS. -/
def State.changeStatus (s : State) (c : Nat) : Bytes :=
  match s.ctx? c with
  | none => []
  | some x =>
    let l := match x.set with | some k => k.staged | none => []
    leBytes 1 (b2n x.set.isSome) ++ leBytes 1 (b2n (match x.set with | some k => k.stale | none => false)) ++
    leBytes 1 (b2n x.requireSet) ++ leBytes 1 (s.pendingMask c) ++
    leBytes 2 (match x.set with | some k => k.base | none => x.gen).toNat ++ leBytes 2 x.gen.toNat ++
    leBytes 2 l.length ++ leBytes 4 (stagedLen l) ++ leBytes 2 0 ++ leBytes 8 x.lastCommit ++
    (List.range 6).flatMap fun k => leBytes 8 (nth x.lastApply k 0)

def execChangesetGetStatus (p : Nat) (s : State) : Res :=
  .next (runPage 0x0214 (plainPage (fun _ _ => .ok ()) fun c s => (s, s.changeStatus c.ctx)) p s)

def execChangesetSetPolicy (p : Nat) (s : State) : Res :=
  .next (runPage 0x0215 (plainPage (fun c _ => allOf [inRange (u8 c.block 0) 0 1 0, reserved c.block 1 3])
    fun c s => (match s.ctx? c.ctx with
      | some x => s.setCtx c.ctx { x with requireSet := u8 c.block 0 = 1 }
      | none => s, [])) p s)

/-! ## QUIESCE_COMMIT (12 R241, R242) -/

/-- QUIESCE_COMMIT: an empty set ends at once; else ingest pauses at T_p and the command waits for the drain. -/
def quiesceBody : PageBody := fun c _ s =>
  match s.ctx? c.ctx with
  | none => .fail noPermission
  | some x =>
    let l := match x.set with | some k => k.staged | none => []
    match allOf ([need (l.all fun g => (s.reach (g.elem s).domain).isOk) asleep, need x.set.isSome notInSet] ++
        [need (match x.set with | some k => !k.stale | none => true) staleGen,
         inRange (u32 c.block 0) 100 100000 0, need (!s.setBlocked l && x.quiesce.isNone) busy]) with
    | .error e => if e = staleGen then .failWith (s.dropSet c.ctx) e else .fail e
    | .ok _ =>
      if l = [] then .done (s.setChanges c.ctx none) (leBytes 2 x.gen.toNat ++ leBytes 22 0)
      else .wait (s.setCtx c.ctx { x with
        quiesce := some ⟨s.tickStamp, c.path, s.now + u32 c.block 0 * 1000, []⟩ })

def execQuiesceCommit (p : Nat) (s : State) : Res := .next (runPage 0x0213 quiesceBody p s)

/-- Ports, channels, surfaces, stacks, bindings of a context. -/
def State.portsOf (s : State) (c : Nat) : List Nat := below 8 fun p => s.portOwner p = c
def State.chansOf (s : State) (c : Nat) : List Nat := below 40 fun k => s.chOwner k = c
def State.surfsOf (s : State) (c : Nat) : List Nat := below 16 fun k => s.surfOwner k = c
def State.stksOf (s : State) (c : Nat) : List Nat := below 16 fun k => s.stkOwner k = c
def State.bindsOf (s : State) (c : Nat) : List Nat := (s.indigo.binds.filter fun e => e.2.ctx = c).map fun e => e.1

/-- A projected event of a context. -/
def State.evOf (s : State) (c : Nat) (e : Ev) : Bool := s.portOwner e.port = c

/-- Inputs admitted before T_p are still on their way to Viridian and Indigo. -/
def State.inputsLeft (s : State) (c : Nat) : Bool :=
  ((s.portsOf c).any fun p => !(s.port p).fifo.isEmpty) || (s.cobalt.inq.any fun e => s.evOf c e) ||
  (s.sepia.inq.any fun e => s.evOf c e.ev) || (s.sepia.cornerQ.any fun k => s.surfOwner k.surface = c) ||
  (s.sepia.flowQ.any fun k => s.surfOwner k.surface = c) || (s.sepia.held.any fun m => s.surfOwner m.surface = c) ||
  ((s.chansOf c).any fun k => !(s.chan k).queue.isEmpty || (s.tdm (k / 8)).frames.any fun f => k < 32 && f.left.contains k) ||
  (s.viridian.queue.any fun m => m.ctx = c)

/-- Fused records, binding inputs or runs of a context are still to finish. -/
def State.resultsLeft (s : State) (c : Nat) : Bool :=
  (s.viridian.closing.any fun f => f.ctx = c) || (s.indigo.inq.any fun x => x.ctx = c) ||
  (s.bindsOf c).any fun b => s.pendingOf b ≠ 0

/-- The QUIESCED GAP record of a source. -/
def State.emitQuiesced (s : State) (c : Nat) (q : Quiesce) (at' kind index key : Nat) (prod : Producer) (mask : Word) : State :=
  (s.noteGap key q.tp.steady at').emit prod (some c) 0x0003 q.tp q.tp.steady (flInputGap ||| q.tp.flag) mask (s.ctxGen c)
    (gapBody kind index 0x20 (q.drops.getD key 0) 0 0 q.tp.steady at')

/-- 12 R242: one for every paused source. -/
def State.quiescedGaps (s : State) (c : Nat) (q : Quiesce) (at' : Nat) : State :=
  let chans := (s.chansOf c).filter fun k => s.chEn k
  let t := forEach (s.portsOf c) (fun p u => u.emitQuiesced c q at' 0 p p (.ochre p) (srcPort p)) s
  let t := forEach (below 4 fun p => chans.any fun k => k < 32 && k / 8 = p)
    (fun p u => u.emitQuiesced c q at' 1 p (16 + p) .umber (srcTdm p)) t
  forEach (chans.filter fun k => 32 ≤ k) (fun k u => u.emitQuiesced c q at' 2 k k .umber (s.chMask k)) t

/-- Ingest resumes: the next event admitted on each port carries POST_GAP. -/
def State.resume (s : State) (c : Nat) : State :=
  let t := match s.ctx? c with
    | some x => s.setCtx c { x with quiesce := none }
    | none => s
  forEach (t.portsOf c) (fun p u => u.setPort p { u.port p with postGap := true }) t

/-- What the switch restarts in the context's blocks, before the new configuration. -/
def State.restart (s : State) (c : Nat) : State :=
  let t := forEach (s.portsOf c) (fun p u => u.boundary p) s
  let t := forEach (s.stksOf c) (fun k u => u.stkInterrupt k) t
  let t := forEach (s.surfsOf c) (fun k u => ((u.closeBatch k false).closeBatch k true).sepSwitch k) t
  let t := forEach (s.chansOf c) (fun k u => u.umbSwitch k) t
  forEach (s.bindsOf c) (fun b u => u.onBind b fun x => { x with window := [], sinceRun := 0, everFull := false, mustFull := true }) t

/-- 12 R241 step 3: every element of the set applies at T_a; no later record carries MIXED_GEN on its account. -/
def State.switch (s : State) (c : Nat) (l : List GCmd) : State :=
  let t := ((s.restart c).setChanges c none).commit c l s.now
  let t := (elemsOf s l).foldl (fun u e => u.applyNow e) t
  t.modSepia fun p => { p with
    surfaces := p.surfaces.map fun e => if t.surfOwner e.1 = c then (e.1, { e.2 with firstTick := false }) else e }

/-- The command of a pause is answered on the path that waits for it. -/
def State.endQuiesce (s : State) (q : Quiesce) (c : Nat) (out : Except CErr Bytes) : State :=
  match s.latch q.path with
  | some l =>
    if l.cmd.opcode = 0x0213 ∧ l.cmd.ctx = c ∧ l.stage = .yielded then
      match out with
      | .ok r => s.answer q.path ⟨cOk, 0, s.ctxGen c, r⟩
      | .error e => s.answerErr q.path e (s.ctxGen c)
    else s
  | none => s

/-- Drops of a pause whose key lies in a range. -/
def Quiesce.count (q : Quiesce) (lo hi : Nat) : Nat :=
  (q.drops.filter fun e => lo ≤ e.1 && e.1 < hi).foldl (fun n e => n + e.2) 0

/-- The drain has ended: switch, resume, report; a set that became stale in the pause is discarded instead. -/
def State.drainEnded (s : State) (c : Nat) (q : Quiesce) (k : ChangeSet) : State :=
  if k.stale then
    (((s.dropSet c).resume c).quiescedGaps c q s.now).endQuiesce q c (.error staleGen)
  else
    let t := ((s.switch c k.staged).resume c).quiescedGaps c q s.now
    t.endQuiesce q c (.ok (leBytes 2 (t.ctxGen c).toNat ++ leBytes 2 0 ++ leBytes 4 ((s.now - q.tp.steady) / 1000) ++
      leBytes 8 (q.count 0 8) ++ leBytes 8 (q.count 8 64)))

/-- QUIESCE_DRAIN_END: once the inputs are through, open windows close as under FUSE_FLUSH; once their results have
finished too, the set switches. Before that the drain has not ended. -/
def execQuiesceDrainEnd (ctx : Nat) (s : State) : Res :=
  .next (match s.ctx? ctx with
    | some x => (match x.quiesce, x.set with
      | some q, some k =>
        if s.inputsLeft ctx then s
        else
          let t := s.virFlush ctx
          if t.resultsLeft ctx || q.deadline < s.now then t else t.drainEnded ctx q k
      | _, _ => s)
    | none => s)

/-- QUIESCE_PAUSE_TIMEOUT: max_pause_us has passed without the drain's end. -/
def execQuiescePauseTimeout (ctx : Nat) (s : State) : Res :=
  .next (match s.ctx? ctx with
    | some x => (match x.quiesce with
      | some q =>
        if q.deadline ≤ s.now then ((s.resume ctx).quiescedGaps ctx q s.now).endQuiesce q ctx (.error busy) else s
      | none => s)
    | none => s)

end Sys2Proof.Machine
end

