-- ==== Sys2Proof/Machine/Teardown.lean ====
section
/-! DEFINITION. Functions, contexts and rings coming and going (10): CTX_CREATE, teardown (R204), FLR and the VF changes
(R205), and the system, context and ring pages of the 0x01 and 0x02 groups that no flash is needed for. -/

namespace Sys2Proof.Machine

/-! ## Teardown of a context (10 R204) -/

/-- A port back at its reset defaults, ownerless; what it had received is gone. -/
def State.releasePort (s : State) (p : Nat) : State :=
  let t := ((s.boundary p).closeGap p).resetPortSettings p
  let t := ((t.setReg (R.OCH_Pn_OWNER p) (regReset (R.OCH_Pn_OWNER p))).setReg (R.OCH_Pn_LINK p)
    (regReset (R.OCH_Pn_LINK p))).setRegFld R.OCH_CTRL p p 0
  t.setPort p OchPort.init

/-- A channel and its band units back at their reset defaults. -/
def State.releaseChannel (s : State) (c : Nat) : State :=
  (s.resetChannel c).setReg (R.UMB_CHn_CFG c) (regReset (R.UMB_CHn_CFG c))

/-- A stack, a surface or a rule disabled and ownerless. -/
def State.releaseStack (s : State) (k : Nat) : State :=
  let t := applyStack [BitVec.ofNat 8 k, 0] 0 (s.setStk k { s.stk k with closing := none })
  t.setReg (R.COB_Sn_OWNER k) (regReset (R.COB_Sn_OWNER k))

def State.releaseSurface (s : State) (k : Nat) : State :=
  let t := applySurface [BitVec.ofNat 8 k, 0] 0xFFFF 0 (s.resetRegs (R.SEP_Sn_CFG k) (R.SEP_Sn_CFG k + 0x80))
  (t.freeTracks fun x => x.surface = k).modSepia fun p => { p with
    cornerQ := p.cornerQ.filter fun e => e.surface ≠ k, flowQ := p.flowQ.filter fun e => e.surface ≠ k,
    held := p.held.filter fun m => m.surface ≠ k }

def State.releaseRule (s : State) (r : Nat) : State :=
  applyViridian ⟨0x0801, leBytes 2 r ++ [0], [], 0xFFFF, 0⟩ s

/-- Runs of a binding in flight finish, and the binding is deleted. -/
def State.releaseBind (s : State) (b : Nat) : State :=
  let n := (s.indigo.inflight.filter fun r => r.binding = b).length
  ((List.range n).foldl (fun t _ => t.runDone b) s).dropBind b

/-- The armed shadows of a context discarded. -/
def State.releaseArmed (s : State) (c : Nat) : State :=
  s.modHost fun h => { h with armed := h.armed.filter fun a => a.ctx ≠ c }
def State.releasePorts (s : State) (c : Nat) : State := forEach (s.portsOf c) (fun p u => u.releasePort p) s
/-- The stacks of a context; its maps still at their copy go with it. -/
def State.releaseStacks (s : State) (c : Nat) : State :=
  (forEach (s.stksOf c) (fun k u => u.releaseStack k) s).modCobalt fun x => { x with
    stks := x.stks.map fun e => (e.1, { e.2 with copying := e.2.copying.filter fun r => r.1.ctx ≠ c }) }
def State.releaseSurfaces (s : State) (c : Nat) : State := forEach (s.surfsOf c) (fun k u => u.releaseSurface k) s
def State.releaseBands (s : State) (c : Nat) : State :=
  forEach (below 64 fun b => s.regN (R.UMB_BANDn_OWNER b) = c)
    (fun b u => (u.resetRegs (R.UMB_BANDn_CFG b) (R.UMB_BANDn_CFG b + 0x20)).setBand b Band.init) s
def State.releaseChannels (s : State) (c : Nat) : State := forEach (s.chansOf c) (fun k u => u.releaseChannel k) s
def State.releaseCoefs (s : State) (c : Nat) : State := s.packCoefs (s.coefSets.filter fun e => e.2.1 ≠ c)
def State.releaseRules (s : State) (c : Nat) : State :=
  (forEach (below 256 fun r => s.ruleOwner r = c) (fun r u => u.releaseRule r) s).modViridian fun v => { v with
    queue := v.queue.filter fun m => m.ctx ≠ c, closing := v.closing.filter fun f => f.ctx ≠ c,
    rules := v.rules.map fun e => (e.1, { e.2 with windows := e.2.windows.filter fun w => w.ctx ≠ c }) }
def State.releaseBinds (s : State) (c : Nat) : State := forEach (s.bindsOf c) (fun b u => u.releaseBind b) s
def State.releaseModels (s : State) (c : Nat) : State :=
  (forEach ((s.indigo.models.filter fun e => e.2.ctx = c).map fun e => e.1) (fun m u => u.dropModel m) s).modIndigo
    fun i => { i with inq := i.inq.filter fun x => x.ctx ≠ c }
def State.releaseQueues (s : State) (c : Nat) : State :=
  (forEach (s.enabledQueues.filter fun q => s.qOwner q = c) (fun q u => u.disableQueue q) s).modSlate fun x => { x with
    staging := x.staging.erase (0x400 + c), pop := x.pop.erase (0x400 + c) }
/-- The anchor copies and the heap extents of a context. -/
def State.releaseExtents (s : State) (c : Nat) : State :=
  (s.modOchre fun o => { o with anchors := o.anchors.filter fun a => a.1 ≠ c }).modHost fun h => { h with
    dram := h.dram.filter fun e => e.ctx ≠ c, sram := h.sram.filter fun e => e.ctx ≠ c }

/-- Everything a context owns or holds released (10 R204 step 2). -/
def State.releaseAll (s : State) (c : Nat) : State :=
  let t := ((((s.releaseArmed c).releasePorts c).releaseStacks c).releaseSurfaces c).releaseBands c
  let t := ((t.releaseChannels c).releaseCoefs c).releaseRules c
  (((t.releaseBinds c).releaseModels c).releaseQueues c).releaseExtents c

/-- The access-table entries of a context removed on every guard (step 3). -/
def State.removeEntries (s : State) (c : Nat) : State :=
  (List.range 19).foldl (fun t g => t.dropEntries g c (guardEntries g) 0) s

/-- The records of a ring that meet a condition: staged, waiting or spilled. -/
def State.ringCount (s : State) (f r : Nat) (mine : Staged → Bool) : Nat :=
  (s.host.staged.filter fun x => x.fn = f && x.ring = r && mine x).length +
    ((s.ring f r).held.toList.filter mine).length + ((s.ring f r).spill.filter mine).length

/-- Records dropped from a ring and from staging; a ring left with nothing waits no longer. -/
def State.dropRecords (s : State) (f r : Nat) (mine : Staged → Bool) : State :=
  let t := s.setStaged (s.host.staged.filter fun x => !(x.fn = f && x.ring = r && mine x))
  let t := t.setSpill f r ((t.ring f r).spill.filter fun x => !mine x)
  let t := t.setRing f r { t.ring f r with held := (t.ring f r).held.filter fun x => !mine x }
  if t.ringCount f r (fun _ => true) = 0 then t.setRing f r { t.ring f r with waiting := false } else t

/-- Records of a context not yet written to the rings of its function. -/
def State.recordsOf (s : State) (c fn : Nat) : Nat :=
  (List.range 15).foldl (fun n r => n + s.ringCount fn r fun x => x.recd.ctx = c) 0

/-- The records staged for a context discarded and counted (step 4). -/
def State.discardRecords (s : State) (c fn : Nat) : State :=
  (forEach (below 15 fun r => s.ringCount fn r (fun x => x.recd.ctx = c) ≠ 0)
    (fun r u => u.dropRecords fn r fun x => x.recd.ctx = c) s).bumpSat (R.HIF_Fn_TEARDOWN_DISC fn) (s.recordsOf c fn)

/-- Every ring of a function delivers what it can. -/
def State.drainRings (s : State) (fn : Nat) : State :=
  forEach (List.range 15) (fun r t =>
    (List.range (t.ringCount fn r fun _ => true)).foldl (fun u _ => u.recordDeliver fn r) t) s

/-- Contexts in use of a function shown. -/
def State.showUsed (s : State) (fn : Nat) : State :=
  s.setReg (R.HIF_Fn_CTX_USED fn) (w32 (s.host.ctxs.filter fun e => e.2.fn = fn).length)

/-- Steps 1 to 3 of a teardown (10 R204): the change set, what the context owns or holds, its entries. A quiesce under way
ends. -/
def State.tearOpen (s : State) (c : Nat) (x : Ctx) : State :=
  let t := match x.quiesce with
    | some q => s.endQuiesce q c (.error busy)
    | none => s
  ((t.dropSet c).releaseAll c).removeEntries c

/-- Step 5, after the records left are discarded: the number is free, and a CTX_DESTROY that waited for them completes. -/
def State.freeNumber (s : State) (c : Nat) (x : Ctx) : State :=
  let t := ((s.discardRecords c x.fn).modHost fun h => { h with ctxs := h.ctxs.erase c }).showUsed x.fn
  match x.closing with
  | some k => t.answer k.2 ⟨cOk, 0, x.gen, []⟩
  | none => t

/-- The teardown of a context by FLR (10 R204): its records are discarded at once. -/
def State.tearDown (s : State) (c : Nat) : State :=
  match s.ctx? c with
  | none => s
  | some x => (s.tearOpen c x).freeNumber c x

/-- The records of a context under CTX_DESTROY are settled: all are delivered, or 10 ms have passed (10 R204 step 4). -/
def State.settled (s : State) (c : Nat) (x : Ctx) : Bool :=
  match x.closing with
  | some k => s.recordsOf c x.fn = 0 || k.1 + 10000000 ≤ s.now
  | none => false

/-- The contexts under CTX_DESTROY whose records are settled are freed. -/
def State.settleTeardowns (s : State) : State :=
  (s.host.ctxs.filter fun e => s.settled e.1 e.2).foldl (fun t e => t.freeNumber e.1 e.2) s

/-! ## FLR and VFs (10 R205) -/

/-- Contexts of a function. -/
def State.ctxsOf (s : State) (f : Nat) : List Nat := (s.host.ctxs.filter fun e => e.2.fn = f).map fun e => e.1

/-- What is left of a function's commands: each runs to its end in its turn and posts nothing. -/
def Func.leftover (x : Func) : List Latch := x.orphans ++ x.latch.toList.map fun l => { l with abandoned := true }

/-- The function's block after FLR: areas, STATUS, MSI-X, D-state and Bus Master Enable at their reset values. The error status
of AER outlives it (PRESUMED, log entry 12). -/
def Func.afterFlr (x : Func) : Func := { Func.init with orphans := x.leftover, aerStatus := x.aerStatus }

/-- Device-scope records lose their ring when ring 0 of the PF is disabled (10 R207). -/
def State.dropDeviceRecords (s : State) : State :=
  let mine := fun (x : Staged) => x.recd.ctx = 0xFFFF
  let n := s.ringCount 0 0 mine
  ((s.setStaged (s.host.staged.filter fun x => !mine x)).setRing 0 0 Ring.init).bumpSat R.HIF_DEV_REC_DISC n

/-- The function and ring blocks cleared; the quota stays. -/
def State.flrRegs (s : State) (f : Nat) : State :=
  (s.resetRegs (R.HIF_Fn_STATE f) (R.HIF_Fn_STATE f + 0x40) fun a => a = R.HIF_Fn_CTX_QUOTA f).resetRegs
    (R.HIF_RINGn_BASE_LO (ringNo f 0)) (R.HIF_RINGn_BASE_LO (ringNo f 15))

/-- Contexts torn down, their records discarded. -/
def State.tearDownAll (s : State) (l : List Nat) : State := l.foldl (fun u c => u.tearDown c) s

/-- The spill buffer of a ring freed, with the entries of the contexts that it was fenced for (13 R251). -/
def State.freeSpill (s : State) (f r : Nat) : State :=
  (match findExtent exSpill (ringNo f r) s.host.dram with
  | some e => (s.ctxsOf f).foldl (fun (t : State) c => t.dropFence 18 c e.base e.len (guardEntries 18 - 32) 0) s
  | none => s).freeDram exSpill (ringNo f r)

/-- The rings of a function disabled, their spill buffers freed. -/
def State.dropRings (s : State) (f : Nat) : State :=
  forEach (List.range 15) (fun r u => (u.setRing f r Ring.init).freeSpill f r) s

/-- A command of the function on the Ethernet path posts nothing. -/
def State.abandonEth (s : State) (f : Nat) : State :=
  if s.ethFn = f then s.modHost fun h => { h with eth := { h.eth with
    latch := h.eth.latch.map fun l => { l with abandoned := true } } } else s

/-- FLR of one function: its registers clear first, its contexts are torn down, its rings are disabled, its latched command
is abandoned. -/
def State.flrOne (s : State) (f : Nat) : State :=
  let t := (s.flrRegs f).tearDownAll (s.ctxsOf f)
  let t := (if f = 0 then t.dropDeviceRecords else t).dropRings f
  ((t.setFunc f (t.func f).afterFlr).flrRelay f).abandonEth f

/-- FLR of a function; of the PF, of every VF as well, and VF Enable clears. The unlocked state ends with the PF
(18 R350). -/
def State.flr (s : State) (f : Nat) : State :=
  let t := (s.bumpSat R.HIF_FLR_COUNT).assertSource 449
  if f = 0 then
    (((List.range (s.numVfs + 1)).foldl (fun u g => u.flrOne g) t).setReg R.HIF_NUMVFS 0).setReg R.FLT_DEBUG 0
  else t.flrOne f

def workFlr (fn : Nat) (s : State) : Res := .next (if s.fnEnabled fn then s.flr fn else s)

/-- NumVFs set: a VF that ceases to exist is torn down as by its own FLR. -/
def State.setNumVfs (s : State) (n : Nat) : State :=
  (((List.range 32).filter fun f => n < f && f ≤ s.numVfs).foldl (fun t f => t.flrOne f) s).setReg R.HIF_NUMVFS (w32 n)

/-- VF_DISABLE: VF Enable is cleared or NumVFs lowered. -/
def workVfDisable (numVfs : Nat) (s : State) : Res := .next (if numVfs < s.numVfs then s.setNumVfs numVfs else s)
/-- VF_ENABLE: VF Enable is set or NumVFs raised. -/
def workVfEnable (numVfs : Nat) (s : State) : Res := .next (if s.numVfs < numVfs then s.setNumVfs numVfs else s)

/-! ## System pages -/

/-- IDENTIFY. -/
def State.identify (s : State) (c : Cmd) : Bytes :=
  padTo 8 [0x46, 0x51, 0x34, 0x31, 0x36] ++ leBytes 1 (b2n s.board.gradeX) ++ leBytes 1 0xB1 ++ leBytes 1 c.fn ++
  leBytes 1 s.numVfs ++ leBytes 2 (s.regN (R.HIF_Fn_CTX_QUOTA c.fn)) ++ leBytes 2 (s.ctxsOf c.fn).length ++
  leBytes 8 s.board.serial.toNat ++ leBytes 4 (if s.sys.dramTrained then s.board.dramMib else 0) ++
  leBytes 1 (b2n s.eccOn) ++ leBytes 1 (s.regFld R.HIF_LINK 3 1) ++ leBytes 1 (s.regFld R.HIF_LINK 6 4) ++
  leBytes 1 (b2n (c.path = ethPath)) ++ leBytes 32 0

def execIdentify (p : Nat) (s : State) : Res :=
  .next (runPage 0x0101 (plainPage (fun _ _ => .ok ()) fun c s => (s, s.identify c)) p s)

/-- Code of the mode. -/
def Mode.code : Mode → Nat
  | .normal => 0
  | .restricted => 1
  | .overridden => 2

/-- GET_VERSION. A device that runs neither slot reports slot 0 (11 R227). -/
def State.version (s : State) : Bytes :=
  leBytes 4 s.sys.belrix.toNat ++ leBytes 4 s.sys.denzewen.toNat ++ leBytes 4 0x01000000 ++
  leBytes 1 (if s.sys.running = 1 then 1 else 0) ++ leBytes 1 s.sys.mode.code ++ leBytes 1 s.board.rollback ++
  leBytes 1 s.sys.bootMode ++ leBytes 16 0

def execGetVersion (p : Nat) (s : State) : Res :=
  .next (runPage 0x0102 (plainPage (fun _ _ => .ok ()) fun _ s => (s, s.version)) p s)

/-- RESET: the reset follows the response (11 R219). -/
def execReset (p : Nat) (s : State) : Res :=
  .next (runPage 0x0103 (plainPage
    (fun c _ => allOf [inRange (u8 c.block 0) 0 0 0, reserved c.block 1 1, inRange (u16 c.block 2) 0 1000 2])
    fun _ s => (s, [])) p s)

/-- FUNC_SET_LIMITS. -/
def execFuncSetLimits (p : Nat) (s : State) : Res :=
  .next (runPage 0x0104 (plainPage
    (fun c s =>
      let f := u8 c.block 0
      let q := u16 c.block 2
      allOf [inRange f 0 31 0, reserved c.block 1 1, need (q ≤ 1024 && (s.ctxsOf f).length ≤ q) (badParam 2),
        need ((List.range 32).foldl (fun n g => n + if g = f then q else s.regN (R.HIF_Fn_CTX_QUOTA g)) 0 ≤ 1024) noResource])
    fun c s => (s.setReg (R.HIF_Fn_CTX_QUOTA (u8 c.block 0)) (w32 (u16 c.block 2)), [])) p s)

/-! ## Context pages (10 R203) -/

/-- A new context. -/
def Ctx.new (fn ring : Nat) : Ctx :=
  { fn := fn, gen := 0, ring := ring, set := none, requireSet := false, lastCommit := 0, lastApply := [0, 0, 0, 0, 0, 0],
    delivered := 0, poisoned := false, violations := 0, lastViolation := none, maxWake := 0xFFFFFFFF, quiesce := none,
    closing := none }

/-- The lowest free context number. -/
def State.freeCtx (s : State) : Option Nat := (List.range 1024).find? fun c => (s.ctx? c).isNone

/-- An enabled ring of a function. -/
def ringCheck (b : Bytes) (fn : Nat) (s : State) : List Check :=
  [need (u8 b 0 ≤ 14 && s.ringEn fn (u8 b 0)) (badParam 0), reserved b 1 3]

/-- A context is fenced in the spill buffer of the ring that it routes to (13 R251). -/
def State.fenceSpill (s : State) (c f r : Nat) : State :=
  match findExtent exSpill (ringNo f r) s.host.dram with
  | some e => s.fence 18 c (extentPerms 18 exSpill) e.base e.len
  | none => s

/-- CTX_CREATE. -/
def createBody : PageBody := fun c _ s =>
  match allOf (ringCheck c.block c.fn s ++ [need ((s.ctxsOf c.fn).length < s.regN (R.HIF_Fn_CTX_QUOTA c.fn)) noResource]) with
  | .error e => .fail e
  | .ok _ => match s.freeCtx with
    | some n => .done (((s.setCtx n (Ctx.new c.fn (u8 c.block 0))).showUsed c.fn).fenceSpill n c.fn (u8 c.block 0))
        (leBytes 2 n ++ leBytes 2 0)
    | none => .fail noResource

def execCtxCreate (p : Nat) (s : State) : Res := .next (runPage 0x0201 createBody p s)

/-- CTX_DESTROY: the context's records are delivered while ring space allows, and the command yields until they are settled.
The response carries the generation held at teardown (10 R195, R204). -/
def destroyBody : PageBody := fun c _ s =>
  match s.ctx? c.ctx with
  | none => .doneGen s 0
  | some x =>
    let t := (s.tearOpen c.ctx x).drainRings x.fn
    if t.recordsOf c.ctx x.fn = 0 then .doneGen (t.freeNumber c.ctx x) x.gen
    else .wait (t.modHost fun h => { h with ctxs := h.ctxs.map fun e =>
      if e.1 = c.ctx then (e.1, { e.2 with closing := some (s.now, c.path) }) else e })

def execCtxDestroy (p : Nat) (s : State) : Res := .next (runPage 0x0202 destroyBody p s)

/-- CTX_SET_RING. -/
def execCtxSetRing (p : Nat) (s : State) : Res :=
  .next (runPage 0x0203 (plainPage (fun c s => allOf (ringCheck c.block c.fn s))
    fun c s => (match s.ctx? c.ctx with
      | some x => (s.setCtx c.ctx { x with ring := u8 c.block 0 }).fenceSpill c.ctx c.fn (u8 c.block 0)
      | none => s, [])) p s)

/-- CTX_GET_INFO. -/
def State.ctxInfo (s : State) (c : Nat) : Bytes :=
  match s.ctx? c with
  | none => []
  | some x =>
    leBytes 2 c ++ leBytes 2 x.gen.toNat ++ leBytes 1 x.ring ++ leBytes 1 (b2n x.set.isSome) ++
    leBytes 1 (s.portsOf c).length ++ leBytes 1 (s.surfsOf c).length ++ leBytes 1 (s.stksOf c).length ++
    leBytes 1 (s.indigo.models.filter fun e => e.2.ctx = c).length ++ leBytes 1 (s.chansOf c).length ++
    leBytes 1 (below 64 fun b => s.regN (R.UMB_BANDn_OWNER b) = c).length ++
    leBytes 2 (below 256 fun r => s.ruleOwner r = c).length ++ leBytes 2 (s.bindsOf c).length ++
    leBytes 8 x.delivered ++ leBytes 8 0

def execCtxGetInfo (p : Nat) (s : State) : Res :=
  .next (runPage 0x0205 (plainPage (fun _ _ => .ok ()) fun c s => (s, s.ctxInfo c.ctx)) p s)

/-! ## RING_SET -/

/-- Records staged for a ring and not yet written to it. -/
def State.unwritten (s : State) (f r : Nat) : Bool :=
  s.ringCount f r (fun _ => true) ≠ 0

/-- A setting that an enabled ring may not change. -/
def State.ringChanges (s : State) (n : Nat) (b : Bytes) : Bool :=
  s.regFld (R.HIF_RINGn_CFG n) 4 0 ≠ u8 b 3 || s.regFld (R.HIF_RINGn_CFG n) 9 9 ≠ u8 b 2 ||
  s.reg64 (R.HIF_RINGn_BASE_LO n) ≠ u64 b 8 || s.reg64 (R.HIF_RINGn_SHADOW_LO n) ≠ u64 b 0x10 ||
  s.regN (R.HIF_RINGn_SPILL_KIB n) ≠ u32 b 0x1C

def ringSetCheck (c : Cmd) (s : State) : Check :=
  let b := c.block
  let r := u8 b 0
  let en := s.ringEn c.fn r
  let off := u8 b 1 = 0
  allOf [inRange r 0 14 0, inRange (u8 b 1) 0 1 1, need (u8 b 2 = 0 || (u8 b 2 = 1 && s.ethOwned c.fn)) (badParam 2),
    inRange (u8 b 3) 12 28 3, inRange (u8 b 4) 1 63 4, reserved b 5 3, need (u64 b 8 % 4096 = 0) (badParam 8),
    need (u64 b 0x10 % 8 = 0) (badParam 0x10), inRange (u16 b 0x18) 1 65535 0x18, inRange (u32 b 0x1C) 0 65536 0x1C,
    need (!en || off || !s.ringChanges (ringNo c.fn r) b) busy,
    need (!(en && off) || !(s.unwritten c.fn r || s.host.ctxs.any fun e => e.2.fn = c.fn && e.2.ring = r)) busy]

/-- The ring's registers from the command. -/
def State.setRingRegs (s : State) (n : Nat) (b : Bytes) : State :=
  let t := (s.setReg64 (R.HIF_RINGn_BASE_LO n) (u64 b 8)).setReg (R.HIF_RINGn_CFG n)
    (w32 (u8 b 3 + u8 b 1 * 256 + u8 b 2 * 512))
  let t := (t.setReg64 (R.HIF_RINGn_SHADOW_LO n) (u64 b 0x10)).setReg (R.HIF_RINGn_MOD n)
    (w32 (u16 b 0x18 + u16 b 0x1A * 65536))
  (t.setReg (R.HIF_RINGn_VECTOR n) (w32 (u8 b 4))).setReg (R.HIF_RINGn_SPILL_KIB n) (w32 (u32 b 0x1C))

/-- RING_SET: an enabled ring keeps its counts and judges its unsignalled records anew (10 R209). -/
def ringSetBody : PageBody := fun c _ s =>
  match ringSetCheck c s with
  | .error e => .fail e
  | .ok _ =>
    let b := c.block
    let r := u8 b 0
    let n := ringNo c.fn r
    if s.ringEn c.fn r && u8 b 1 = 1 then .done ((s.setRingRegs n b).ringSignal c.fn r) []
    else
      let t := ((s.freeSpill c.fn r).setRingRegs n b).setRing c.fn r Ring.init
      let t := ((t.setReg (R.HIF_RINGn_HEAD n) 0).setReg (R.HIF_RINGn_TAIL n) 0).setReg (R.HIF_RINGn_SPILL_LEVEL n) 0
      if u8 b 1 = 1 ∧ u32 b 0x1C ≠ 0 then
        match t.allocDram (u32 b 0x1C * 1024) 0xFFFF exSpill n with
        | some (u, _) => .done u []
        | none => .fail noResource
      else .done t []

def execRingSet (p : Nat) (s : State) : Res := .next (runPage 0x0204 ringSetBody p s)

end Sys2Proof.Machine
end

