-- ==== Sys2Proof/Machine/Boot.lean ====
section
/-! DEFINITION. Boot and firmware (11): the flash, images and their verification, slot choice, ROM recovery, the resets
(11 R219, 19 R365, R369), what follows a posted response, and the pages that write the flash. -/

namespace Sys2Proof.Machine

/-! ## Flash (11 R220) -/

/-- FL_CS1 follows FL_CS0 at 2^32 in `Board.flash`. -/
abbrev flCs1 : Nat := 0x100000000
abbrev flSettings : Nat := 0xE00000
abbrev flLog : Nat := 0xF00000

/-- Bytes of the flash; an erased byte reads 0xFF. -/
def flashRead (f : List Host.Cell) (a : Nat) : Nat → Bytes
  | 0 => []
  | n + 1 => AMap.getD f a 0xFF :: flashRead f (a + 1) n

/-- Programming only clears bits (11 R221). -/
def flashProgram (f : List Host.Cell) (a : Nat) : Bytes → List Host.Cell
  | [] => f
  | b :: bs => flashProgram (AMap.put f a (AMap.getD f a 0xFF &&& b) 0xFF) (a + 1) bs

def flashErase (f : List Host.Cell) (a n : Nat) : List Host.Cell := f.filter fun e => !(a ≤ e.1 && e.1 < a + n)

/-- A flash operation carried out: erases, then programs. -/
def FlashJob.run (j : FlashJob) (f : List Host.Cell) : List Host.Cell :=
  j.prog.foldl (fun f e => flashProgram f e.1 e.2) (j.erase.foldl (fun f e => flashErase f e.1 e.2) f)

/-- The first address that an operation touches. -/
def FlashJob.at' (j : FlashJob) : Nat :=
  match j.erase, j.prog with
  | e :: _, _ => e.1
  | [], e :: _ => e.1
  | [], [] => 0

def State.modSys (s : State) (f : Sys → Sys) : State := { s with sys := f s.sys }
def State.modBoard (s : State) (f : Board → Board) : State := { s with board := f s.board }

/-- A FLASH_ERROR fault of an operation (18 R343); the spec gives the operation no codes, so its word is free. -/
def State.flashError (s : State) (j : FlashJob) (log : Bool) : State :=
  (s.raiseFault 0x0D (j.at' / flCs1) (args := [w32 (j.at' % flCs1), w32 s.free.toNat]) (log := log)).tookFree

/-- Commands that wait for the flash. -/
def flashOp (op : Nat) : Bool :=
  op = 0x0105 || op = 0x0106 || op = 0x0F03 || (0x1002 ≤ op && op ≤ 0x1007 && op ≠ 0x1005)

/-- A command that waits for the flash goes on. -/
def State.flashWake (s : State) (p : Nat) : State :=
  match s.latch p with
  | some l => if l.stage = .yielded ∧ flashOp l.cmd.opcode then s.toStage p (.resumed (some [])) else s
  | none => s

/-- The flash operation of the waiting command ends. -/
def State.flashRan (s : State) (j : FlashJob) (ok : Bool) : State :=
  (if ok then s.modBoard fun b => { b with flash := j.run b.flash } else s).modSys fun y => { y with flashDone := some ok }

/-- FLASH_OPERATION_DONE: the operation of the waiting command ends; a failed one leaves the flash as it was (10 R198,
log entry 32). -/
def execFlashOperationDone (ok : Bool) (s : State) : Res :=
  .next (match s.sys.flashJob, s.sys.flashDone with
    | some j, none => ((s.flashRan j ok).flashWake 0).flashWake ethPath
    | _, _ => s)

/-- The rest of a page whose flash operation is over; `finish` follows its success. -/
def flashResume (finish : Cmd → State → State × Bytes) : PageBody := fun c _ s =>
  match s.sys.flashJob, s.sys.flashDone with
  | some j, some ok =>
    let t := s.modSys fun y => { y with flashJob := none, flashDone := none }
    if ok then .done (finish c t).1 (finish c t).2 else .failWith (t.flashError j true) blockFault
  | _, _ => .wait s

/-- A page that checks, runs a flash operation if it needs one, and then acts. -/
def flashPage (check : Cmd → State → Check) (job : Cmd → State → Option FlashJob) (finish : Cmd → State → State × Bytes) :
    PageBody := fun c d s =>
  match d with
  | some _ => flashResume finish c d s
  | none => match check c s with
    | .error e => .fail e
    | .ok _ => match job c s with
      | none => .done (finish c s).1 (finish c s).2
      | some j => .wait (s.modSys fun y => { y with flashJob := some j, flashDone := none })

/-! ## Slot headers (11 R221) -/

abbrev slActive : Nat := 0x1F
abbrev slAlternate : Nat := 0x0F
abbrev slPending : Nat := 0x3F
abbrev slWriting : Nat := 0x7F

/-- The header of a slot. -/
def Board.header (b : Board) (k : Nat) : Bytes := flashRead b.flash (k * flCs1) 20

def headMagic (h : Bytes) : Bool := u32 h 0 = 0x4C535A51
/-- The state byte; any other value counts as ERASED. -/
def headState (h : Bytes) : Nat :=
  let v := u8 h 4
  if v = slWriting ∨ v = slPending ∨ v = slActive ∨ v = slAlternate then v else 0xFF
def headSeq (h : Bytes) : Word := w32 (u32 h 8)
/-- A state that a slot boots from. -/
def headBootable (h : Bytes) : Bool := headMagic h && (headState h = slActive || headState h = slAlternate || headState h = slPending)
/-- 11 R226: a candidate. -/
def headCandidate (h : Bytes) : Bool := headBootable h && (headState h ≠ slPending || u8 h 5 ≠ 0)
/-- Of two slot_seq values, `b` is newer than `a`. -/
def seqNewer (a b : Word) : Bool := 1 ≤ (b - a).toNat && (b - a).toNat ≤ 0x7FFFFFFF

/-! ## Images (11 R222, R223, R225) -/

/-- Offset and length of the region of a kind. -/
def region (kind : Nat) : Nat × Nat :=
  if kind = 1 then (0x10000, 0x10000) else if kind = 2 then (0x20000, 0x800000) else (0x820000, 0x200000)

/-- An image: its 256-byte header and its body. -/
structure Image where
  head : Bytes
  body : Bytes

def Image.version (i : Image) : Word := w32 (u32 i.head 8)
def Image.rollback (i : Image) : Nat := u8 i.head 5
def Image.bodyLen (i : Image) : Nat := u32 i.head 0x0C

/-- An image in a slot; a body_length that its region does not hold gives no body. -/
def Board.image (b : Board) (slot kind : Nat) : Image :=
  let a := slot * flCs1 + (region kind).1
  let h := flashRead b.flash a 256
  let n := u32 h 0x0C
  ⟨h, if n ≤ (region kind).2 - 256 then flashRead b.flash (a + 256) n else []⟩

/-- 11 R223: the manifest body. -/
def manifestOk (b : Bytes) : Bool :=
  1 ≤ u8 b 0 && u8 b 0 ≤ 16 && 1 ≤ u8 b 1 && b.length = 32 + 8 * u8 b 1 && u16 b 2 = 0 &&
  ((slice b 4 16).drop (u8 b 0)).all (fun x => x = 0) && (slice b 0x14 12).all fun x => x = 0

/-- The FORMAT check. -/
def formatOk (kind : Nat) (i : Image) : Bool :=
  u32 i.head 0 = 0x57465A51 && u8 i.head 4 = kind && u16 i.head 6 = 1 && 1 ≤ i.bodyLen &&
  i.bodyLen ≤ (region kind).2 - 256 && (slice i.head 0x10 16).all (fun x => x = 0) &&
  (slice i.head 0x81 31).all (fun x => x = 0) && (kind ≠ 1 || manifestOk i.body)

/-- 11 R224: a public key against the OTP; an all-zero hash makes every check fail. -/
def Board.keyOk (b : Board) (key : Bytes) : Bool := b.keyHash.any (fun x => x ≠ 0) && sha384 key = b.keyHash

/-- The verdict on one image: 1 where it passes. -/
def Board.imageVerdict (b : Board) (kind : Nat) (i : Image) : Nat :=
  let key := slice i.head 0x20 97
  if !formatOk kind i then 2
  else if !b.keyOk key then 3
  else if !signed key (slice i.head 0xA0 96) (i.head.take 0xA0 ++ i.body) then 4
  else if i.rollback < b.rollback then 5
  else 1

/-- The verdict on a set: manifest, Belrix, Denzewen, then the silicon. -/
def Board.setVerdict (b : Board) (m x y : Image) : Nat :=
  let v1 := b.imageVerdict 1 m
  let v2 := b.imageVerdict 2 x
  let v3 := b.imageVerdict 3 y
  if v1 ≠ 1 then v1 else if v2 ≠ 1 then v2 else if v3 ≠ 1 then v3
  else if ((slice m.body 4 16).take (u8 m.body 0)).any fun c => c = 0xB1 then 1 else 6

def Board.slotVerdict (b : Board) (k : Nat) : Nat := b.setVerdict (b.image k 1) (b.image k 2) (b.image k 3)

/-- The pairs of a manifest. -/
def manifestPairs (b : Bytes) : List (Word × Word) :=
  (List.range (u8 b 1)).map fun i => (w32 (u32 b (0x20 + 8 * i)), w32 (u32 b (0x24 + 8 * i)))

/-! ## System entries of the guards (13 R249) -/

/-- Who gets what before READY rises (log entry 33): guard, base, SIZE_LOG2, ID, mask, permissions. -/
def systemEntries : List (Nat × Nat × Nat × Nat × Nat × Nat) :=
  ([2, 3, 4, 5, 6, 7, 8, 9, 10, 11, 12, 13, 14, 15, 16].map fun g => (g, (guardWindow g).1, 20, 0x100, 0xFFF, 1)) ++
  ([1, 2, 3, 4].flatMap fun q => [1, 7, 8, 9, 17, 18].map fun g => (g, (guardWindow g).1, (guardWindow g).2, q, 0xFFF, 3)) ++
  [(18, dramBase, 35, 0x010, 0xFF8, 3), (18, dramBase, 35, 0x018, 0xFFF, 3), (18, dramBase, 35, 0x020, 0xFF0, 1),
   (18, dramBase, 35, 0x030, 0xFFF, 3), (18, dramBase, 35, 0x040, 0xFFF, 3), (18, dramBase, 35, 0x041, 0xFFF, 3),
   (1, sramBase, 24, 0x018, 0xFFC, 3), (1, sramBase, 24, 0x020, 0xFF0, 3), (1, sramBase, 24, 0x030, 0xFFF, 3),
   (1, sramBase, 24, 0x040, 0xFFF, 3), (1, sramBase, 24, 0x041, 0xFFF, 3),
   (17, 0x40000000, 25, 0x020, 0xFF0, 3), (17, 0x40000000, 25, 0x030, 0xFFF, 3),
   (8, 0x20600000, 20, 0x010, 0xFF0, 3), (8, 0x20600000, 20, 0x020, 0xFF0, 3)]

/-- A locked system entry put in the first free place. -/
def State.addSystem (s : State) (e : Nat × Nat × Nat × Nat × Nat × Nat) : State :=
  match s.freeEntry e.1 (guardEntries e.1 - 32) 0 with
  | some i => s.setGuardEntry e.1 i (w32 (e.2.1 % 0x100000000)) (w32 (e.2.1 / 0x100000000 % 256 + e.2.2.1 * 256))
      (w32 (e.2.2.2.1 + e.2.2.2.2.1 * 65536)) (w32 (1 + e.2.2.2.2.2 * 2 + 8 + 0xFFFF0000))
  | none => s

def State.installSystem (s : State) : State := systemEntries.foldl (fun t e => t.addSystem e) s

/-! ## Starting Belrix (11 R228, R229, R232 steps 6 to 9) -/

/-- The upload window of an ETH_SET_HOST allocated under number 1; none where it cannot be. -/
def State.ethWindow (s : State) (b : Bytes) : Option State :=
  let n := if u8 b 0 = 1 then u16 b 0x34 * 1048576 else 0
  let t := s.freeDram exUpload 1
  if n = 0 then some t else (t.allocDram n 0xFFFF exUpload 1).map fun r => r.1

/-- 18 R347: a log entry whose magic and CRC match. -/
def logValid (e : Bytes) : Bool := e.length = 64 && u16 e 0 = 0x4C46 && u32 e 0x3C = crc32 (e.take 0x3C)

/-- The valid entries of the log, by log_seq. -/
def State.validLog (s : State) : List (Nat × Bytes) := s.faults.log.filter fun e => logValid e.2

/-- The next log_seq set at boot: past the highest valid entry, and past what is queued (log entry 32). -/
def State.scanLog (s : State) : State :=
  let n := s.validLog.foldl (fun n e => Nat.max n (e.1 + 1)) 0
  s.setReg R.FLT_LOG_NEXT (w32 (Nat.max n (s.regN R.FLT_LOG_NEXT)))

/-- A COMPAT_OVERRIDE is logged and reported. -/
def State.reportOverride (s : State) : State :=
  s.raiseFault 8 s.sys.running (args := [s.sys.belrix, s.sys.denzewen])

/-- The recorded override of the running slot covers the running pair. -/
def State.overrideHolds (s : State) : Bool :=
  s.sys.running ≤ 1 &&
    (let h := s.board.header s.sys.running
     u8 h 6 = 0x7F && w32 (u32 h 0x0C) = s.sys.belrix && w32 (u32 h 0x10) = s.sys.denzewen)

/-- The mode that the manifest check gives (11 R228, R229). -/
def State.setMode (s : State) : State :=
  if s.sys.pairs.contains (s.sys.belrix, s.sys.denzewen) then s.modSys fun y => { y with mode := .normal }
  else if s.overrideHolds then (s.modSys fun y => { y with mode := .overridden }).reportOverride
  else (s.modSys fun y => { y with mode := .restricted }).raiseFault 7 s.sys.running
    (args := [s.sys.belrix, s.sys.denzewen])

/-- The sources that Belrix or Denzewen services are locked (15 R281). -/
def State.lockSources (s : State) : State :=
  forEach (below 512 Config.lockedSource) (fun n t => t.setReg (R.CARM_Sn_CFG n) (t.reg (R.CARM_Sn_CFG n) ||| 0x2000)) s

/-- The persisted ETH_SET_HOST applied (10). -/
def State.restoreEth (s : State) : State :=
  match s.board.ethSaved with
  | some b => (match s.ethWindow b with | some u => u.applyEth b | none => s)
  | none => s

/-- Belrix starts: log, guards, locked sources, domains (16 R313: in RUN every domain is powered until a command or idleness
takes it down), persisted Ethernet setting, PTP ports (02 R373), mode, READY. -/
def State.startBelrix (s : State) (running : Nat) (belrix denzewen : Word) (pairs : List (Word × Word)) : State :=
  let t := s.modSys fun y => { y with running := running, belrix := belrix, denzewen := denzewen, pairs := pairs, hostLoad := none }
  let t := (t.scanLog.installSystem.setReg R.IVR_DOM_UP 0xFFFF).lockSources.restoreEth.startPtp
  t.setMode.modSys fun y => { y with ready := true, everReady := true }

/-- ROM recovery (11 R227): the ROM serves the PF mailbox, READY and RESTRICTED. -/
def State.romRecovery (s : State) : State :=
  s.modSys fun y => { y with
    running := 3, belrix := 0, denzewen := 0, pairs := [], ready := true, mode := .restricted, hostLoad := none }

/-! ## Slot choice (11 R226) -/

/-- Slots, newest slot_seq first. -/
def Board.slotOrder (b : Board) : List Nat := if seqNewer (headSeq (b.header 0)) (headSeq (b.header 1)) then [1, 0] else [0, 1]

/-- The verdict that a slot has before any is tried: a PENDING slot with no trials left has NO_TRIALS (11 R225). -/
def Board.firstVerdict (b : Board) (k : Nat) : Nat := if headBootable (b.header k) && !headCandidate (b.header k) then 7 else 0

/-- A boot from a slot while one that comes before it did not boot: BOOT_FALLBACK. -/
def State.reportFallback (s : State) (k : Nat) : State :=
  let o := 1 - k
  let h := s.board.header o
  if headBootable h && s.board.slotOrder.head? = some o then
    s.raiseFault 6 k (args := [w32 (nth s.sys.verdicts o 0)])
  else s

/-- The candidates tried in order: a trial is used up before verifying, and the first that verifies boots. -/
def State.trySlots (s : State) : List Nat → State
  | [] => s.romRecovery
  | k :: ks =>
    let h := s.board.header k
    if !headCandidate h then
      State.trySlots s ks
    else
      let t := if headState h = slPending then s.modBoard fun b => { b with
          flash := flashProgram b.flash (k * flCs1 + 5) [BitVec.ofNat 8 (u8 h 5 / 2)] } else s
      let v := t.board.slotVerdict k
      let t := t.modSys fun y => { y with verdicts := y.verdicts.set k v }
      if v = 1 then
        (t.scanLog.reportFallback k).startBelrix k (t.board.image k 2).version (t.board.image k 3).version
          (manifestPairs (t.board.image k 1).body)
      else State.trySlots t ks

/-- The boot ROM (11 R218). -/
def State.boot (s : State) : State :=
  let t := s.modSys fun y => { y with ready := false, verdicts := [0, 0], session := none, resetAt := none }
  if t.sys.bootMode = 0 then
    (t.modSys fun y => { y with verdicts := [t.board.firstVerdict 0, t.board.firstVerdict 1] }).trySlots t.board.slotOrder
  else if t.sys.bootMode = 3 then t.modSys fun y => { y with
    running := 3, belrix := 0, denzewen := 0, pairs := [], mode := .restricted }
  else t.romRecovery

/-! ## Resets (11 R219) -/

/-- What power-on reset leaves: the board with its flash and log, and what lies outside the device. -/
def State.cold (s : State) : State :=
  { State.reset with
    pending := s.pending, hostMem := s.hostMem, wire := s.wire, board := s.board, freeCtr := s.freeCtr,
    faults := { FaultUnit.init with log := s.faults.log } }

/-- PORST_N_ASSERT (19 R369). -/
def execPorstNAssert (s : State) : Res := .next s.cold

/-- VOLTAGE_DETECTOR_RESET (19 R365): as PORST_N while VDD_AON is below 0.60 V or VDD_CORE below 0.58 V. -/
def execVoltageDetectorReset (aonMv coreMv : Nat) (s : State) : Res :=
  .next (if aonMv < 600 ∨ coreMv < 580 then s.cold else s)

/-- PORST_N_RELEASE: straps sampled, DRAM trained with the stored ECC choice, and the boot (11 R218, R232). -/
def execPorstNRelease (straps : Nat) (trained : Bool) (s : State) : Res :=
  .next (
    if !s.sys.inPorst then s
    else
      let t := s.modSys fun y => { y with inPorst := false, bootMode := straps % 4, dramTrained := trained }
      (t.setReg R.DDR_ECC_CTRL (w32 (b2n (s.board.eccSaved.getD true)))).boot)

/-- Registers that a warm reset keeps: Amber (02), Sable (17 R340), the fault unit but for FLT_DEBUG and the ECC registers
(18), residency counters (16), the retained counters of Carmine (15), SEP_TRK_NEXT_ID (05 R101), the link, NumVFs and
HIF_FLR_COUNT (10). -/
def warmKeeps (a : Nat) : Bool :=
  a / 0x100000 = 0x208 || a / 0x100000 = 0x20A || (0x20EC0000 ≤ a && a < 0x20EE0000 && a ≠ R.FLT_DEBUG) ||
  (R.IVR_RES_STATE ≤ a && a < R.IVR_RES_STATE + 0x80) ||
  (R.CARM_Sn_CFG 0 ≤ a && a < R.CARM_Sn_CFG 544 && a % 16 = 12) ||
  (R.CARM_Sn_ASSERT_US 0 ≤ a && a < R.CARM_Sn_ASSERT_US 544) ||
  a = R.SEP_TRK_NEXT_ID || a = R.HIF_LINK || a = R.HIF_NUMVFS || a = R.HIF_FLR_COUNT

/-- What of a function a warm reset keeps: configuration space and MSI-X. -/
def Func.warm (x : Func) : Func :=
  { Func.init with
    dState := x.dState, bme := x.bme, msixEnable := x.msixEnable, msix := x.msix,
    heldMsix := x.heldMsix, funcMask := x.funcMask, aerStatus := x.aerStatus }

/-- Records staged for the contexts of a function, in staging and in spill. -/
def State.stagedFor (s : State) (f : Nat) : Nat :=
  let mine := fun (x : Staged) => decide (x.recd.ctx < 1024)
  (List.range 15).foldl (fun n r => n + s.ringCount f r mine) 0

/-- The device after a warm reset, before the boot ROM: registers clear first, then the records discarded are counted. -/
def State.warm (s : State) : State :=
  let dev := (s.dropDeviceRecords.regN R.HIF_DEV_REC_DISC) - s.regN R.HIF_DEV_REC_DISC
  let t : State :=
    { State.reset with
      pending := s.pending, regs := s.regs.filter fun e => warmKeeps e.1
      mem := s.mem, hostMem := s.hostMem, wire := s.wire, board := s.board, amber := s.amber, sable := s.sable
      faults := { s.faults with nonce := none, denied := [] }, freeCtr := s.freeCtr
      sys := { Sys.init with
        inPorst := false, bootMode := s.sys.bootMode, dramTrained := s.sys.dramTrained, everReady := s.sys.everReady
        ethLink := s.sys.ethLink }
      host := { HostIf.init with fns := s.host.fns.map fun e => (e.1, e.2.warm) }
      carmine := { Carmine.init with srcs := s.carmine.srcs.map fun e => (e.1, { Src.init with
        raw := e.2.raw, filtered := e.2.filtered
        activeSince := if activeLevel (s.sense e.1) (s.trackedLine e.1) then e.2.activeSince else s.now }) }
      sepia := { Sepia.init with lastTick := s.now }
      indigo := { Indigo.init with windowAt := s.now }
      ivory := { Ivory.init with windowAt := s.now }
      cobalt := { Cobalt.init with lastUpdate := s.now, imuAt := s.now } }
  let t := forEach (below 32 fun f => s.stagedFor f ≠ 0) (fun f u => u.bumpSat (R.HIF_Fn_TEARDOWN_DISC f) (s.stagedFor f)) t
  if dev = 0 then t else t.bumpSat R.HIF_DEV_REC_DISC dev

/-- A warm reset and the boot that follows. -/
def State.warmReset (s : State) : State := if s.sys.inPorst then s else s.warm.boot

/-- WRST_N_ASSERT: a low of 25 consecutive CLK_AON samples or more resets, and the straps are sampled at its release
(11 R218, 19 R371). -/
def execWrstNAssert (samples straps : Nat) (s : State) : Res :=
  .next (if samples < 25 ∨ s.sys.inPorst then s else (s.modSys fun y => { y with bootMode := straps % 4 }).warmReset)

/-- RESET_DELAY_EXPIRY: delay_ms after the response of RESET. -/
def execResetDelayExpiry (s : State) : Res :=
  .next (match s.sys.resetAt with
    | some t => if t ≤ s.now then s.warmReset else s
    | none => s)

/-- The FAULT_N pin: driven low in reset, until READY first rises, and throughout ROM recovery (19 R362). -/
def State.faultLow (s : State) : Bool :=
  s.sys.inPorst || !s.sys.everReady || (s.sys.ready && s.sys.running = 3)

/-! ## After the response (10 R193) -/

/-- POWER_REQUEST_STATE's fields in force (16 R314). -/
def State.armPower (s : State) (b : Bytes) : State :=
  let t := s.setReg R.IVR_REQ (w32 (u8 b 0 + u8 b 2 * 4 + u8 b 1 * 16 + u32 b 0x0C * 65536))
  let t := t.setReg R.IVR_EXP_RES_MS (w32 (u32 b 4))
  let t := t.setReg64 R.IVR_WAKE_TIMER_LO (if u32 b 8 = 0 then 0 else s.now + u32 b 8 * 1000000)
  { t with ivory := { t.ivory with armedCeiling := if u8 b 0 = 0 then none else some (u8 b 0) } }

/-- What takes effect once the response is posted: a RESET's delay (11 R219), ETH_SET_HOST (10), the request of a power
state (16), the start of Belrix from a set that FW_HOST_LOAD verified (11). -/
def State.afterPost (s : State) (c : Cmd) (r : Resp) : State :=
  if r.status ≠ cOk then s
  else if c.opcode = 0x0103 then s.modSys fun y => { y with resetAt := some (s.now + u16 c.block 2 * 1000000) }
  else if c.opcode = 0x0105 then s.applyEth c.block
  else if c.opcode = 0x0B03 then s.armPower c.block
  else if c.opcode = 0x1005 then
    match s.sys.hostLoad with
    | some (x, y, ps) => s.startBelrix 2 x y ps
    | none => s
  else s

/-- RESPONSE_POST (10 R193, R205): an abandoned command posts nothing, but what follows its response takes effect. -/
def workResponsePost (p : Nat) (s : State) : Res :=
  match s.latch p with
  | some l =>
    match l.stage with
    | .answered r =>
      if l.abandoned then .next ((s.setLatch p none).afterPost l.cmd r)
      else if p = ethPath then .next ((s.postEth l.cmd r).afterPost l.cmd r)
      else .next ((s.postMailbox p l.cmd r).afterPost l.cmd r)
    | _ => .next s
  | none => .next s

/-! ## Pages of the persisted settings -/

/-- A unicast address of ETH_SET_HOST. -/
def unicast (ver : Nat) (a : Bytes) : Bool :=
  if ver = 4 then 1 ≤ u8 a 0 && u8 a 0 ≤ 223 && (a.drop 4).all fun x => x = 0
  else u8 a 0 ≠ 255 && a.any fun x => x ≠ 0

/-- The function handed over holds a latched command other than this one. -/
def State.fnBusy (s : State) (c : Cmd) (f : Nat) : Bool :=
  (f ≠ c.fn && ((s.func f).latch.isSome || !(s.func f).orphans.isEmpty)) ||
  (c.path ≠ ethPath && s.host.eth.latch.isSome)

def ethCheck (c : Cmd) (s : State) : Check :=
  let b := c.block
  allOf [inRange (u8 b 1) 0 1 1, need (u8 b 2 ≤ 31 && s.fnEnabled (u8 b 2)) (badParam 2), inRange (u8 b 0) 0 1 0,
    need (u8 b 3 = 4 || u8 b 3 = 6) (badParam 3), inRange (u8 b 4) 0 1 4, reserved b 5 1, inRange (u16 b 6) 1024 65535 6,
    need (unicast (u8 b 3) (slice b 8 16)) (badParam 8), need (unicast (u8 b 3) (slice b 0x18 16)) (badParam 0x18),
    need (u8 b 0x28 % 2 = 0 && (slice b 0x28 6).any fun x => x ≠ 0) (badParam 0x28), inRange (u16 b 0x2E) 0 4094 0x2E,
    inRange (u16 b 0x30) 576 8972 0x30, inRange (u16 b 0x32) 1024 65535 0x32, inRange (u16 b 0x34) 0 1024 0x34,
    reserved b 0x36 2, need (!s.fnBusy c (u8 b 2)) busy, need (s.ethWindow b).isSome noResource]

/-- ETH_SET_HOST: it takes effect after its response. -/
def execEthSetHost (p : Nat) (s : State) : Res :=
  .next (runPage 0x0105 (flashPage ethCheck
    (fun c _ => if u8 c.block 4 = 1 then some ⟨[(flSettings, 0x10000)], []⟩ else none)
    (fun c s =>
      let t := if u8 c.block 4 = 1 then s.modBoard fun b => { b with ethSaved := some c.block } else s
      ((t.ethWindow c.block).getD t, []))) p s)

/-- MEM_SET_ECC: the choice is stored for the next power-on reset. -/
def execMemSetEcc (p : Nat) (s : State) : Res :=
  .next (runPage 0x0106 (flashPage (fun c _ => allOf [inRange (u8 c.block 0) 0 1 0, reserved c.block 1 3])
    (fun _ _ => some ⟨[(flSettings, 0x10000)], []⟩)
    (fun c s => (s.modBoard fun b => { b with eccSaved := some (u8 c.block 0 = 1) }, []))) p s)

/-! ## The 0x10 pages -/

/-- The smallest rollback_index of a slot's images. -/
def Board.minRollback (b : Board) (k : Nat) : Nat :=
  Nat.min (b.image k 1).rollback (Nat.min (b.image k 2).rollback (b.image k 3).rollback)

/-- FW_GET_SLOTS. -/
def State.slotBytes (s : State) (k : Nat) : Bytes :=
  let h := s.board.header k
  leBytes 1 (headState h) ++ leBytes 1 (u8 h 5) ++ leBytes 1 (u8 h 6) ++ leBytes 1 (nth s.sys.verdicts k 0) ++
  leBytes 4 (headSeq h).toNat ++ ([1, 2, 3].flatMap fun i => leBytes 4 (s.board.image k i).version.toNat) ++
  leBytes 1 (Nat.min 32 (s.board.minRollback k)) ++ leBytes 11 0

def execFwGetSlots (p : Nat) (s : State) : Res :=
  .next (runPage 0x1001 (plainPage (fun _ _ => .ok ()) fun _ s =>
    (s, leBytes 1 s.sys.running ++ leBytes 1 s.board.rollback ++ leBytes 1 s.sys.bootMode ++ leBytes 5 0 ++
      s.slotBytes 0 ++ s.slotBytes 1)) p s)

/-- A new slot header: WRITING. -/
def writingHeader : Bytes := leBytes 4 0x4C535A51 ++ [0x7F]

/-- The sectors of the running slot's image of a kind: their number and bytes. -/
def Board.copied (b : Board) (slot kind : Nat) : Nat × Bytes :=
  let n := (256 + (b.image slot kind).bodyLen + 0xFFFF) / 0x10000
  (n, flashRead b.flash (slot * flCs1 + (region kind).1) (n * 0x10000))

/-- FW_BEGIN's flash operation: the header erased and set to WRITING, the masked regions copied. -/
def beginJob (c : Cmd) (s : State) : FlashJob :=
  let base := u8 c.block 0 * flCs1
  let kinds := [1, 2, 3].filter fun k => (u8 c.block 1).testBit (k - 1)
  { erase := (base, 0x10000) :: kinds.map fun k => (base + (region k).1, (s.board.copied s.sys.running k).1 * 0x10000)
    prog := (base, writingHeader) :: kinds.map fun k => (base + (region k).1, (s.board.copied s.sys.running k).2) }

def execFwBegin (p : Nat) (s : State) : Res :=
  .next (runPage 0x1002 (flashPage
    (fun c s => allOf [need (u8 c.block 0 ≤ 1 && u8 c.block 0 ≠ s.sys.running) (badParam 0),
      need (u8 c.block 1 ≤ 7 && (u8 c.block 1 = 0 || s.sys.running ≤ 1)) (badParam 1), reserved c.block 2 2,
      need s.sys.session.isNone busy])
    (fun c s => some (beginJob c s))
    (fun c s => (s.modSys fun y => { y with session := some (u8 c.block 0) }, []))) p s)

/-- FW_WRITE: the data are fetched, then the sector is erased and programmed. -/
def fwWriteBody : PageBody := fun c d s =>
  let b := c.block
  let chk := allOf [inRange (u8 b 0) 1 3 0, reserved b 1 3,
    need (u32 b 4 % 65536 = 0 && u32 b 4 < (region (u8 b 0)).2) (badParam 4), inRange (u32 b 8) 1 65536 8, reserved b 0x0C 4,
    need (u64 b 0x10 % 64 = 0) (badParam 0x10), need s.sys.session.isSome busy]
  match d with
  | none => (match chk with
    | .error e => .fail e
    | .ok _ => .wait (s.dmaAsk c.path (u64 b 0x10) (u32 b 8)))
  | some r =>
    if s.sys.flashJob.isSome then flashResume (fun _ s => (s, [])) c d s
    else match chk, s.dmaRead c.path (u64 b 0x10) (u32 b 8) r with
      | .error e, _ => .fail e
      | .ok _, none => .failWith (s.countDmaErr c.fn) dmaError
      | .ok _, some data =>
        let a := s.sys.session.getD 0 * flCs1 + (region (u8 b 0)).1 + u32 b 4
        .wait (s.modSys fun y => { y with flashJob := some ⟨[(a, 0x10000)], [(a, data)]⟩, flashDone := none })

def execFwWrite (p : Nat) (s : State) : Res := .next (runPage 0x1003 fwWriteBody p s)

/-- The completion that a failed verification gives (11 FW_FINISH). -/
def verdictCheck (v : Nat) : Check :=
  if v = 2 then .error (badParam 0) else if v = 3 ∨ v = 4 then .error ⟨cSignature, 0⟩
  else if v = 5 ∨ v = 6 then .error ⟨cCompat, 0⟩ else .ok ()

/-- 11 R230: slot_seq of the slot that FW_FINISH makes the newest. -/
def State.newSeq (s : State) (k : Nat) : Word :=
  let h := s.board.header (1 - k)
  if s.sys.running ≤ 1 then headSeq (s.board.header s.sys.running) + 1 else if headMagic h then headSeq h + 1 else 1

def execFwFinish (p : Nat) (s : State) : Res :=
  .next (runPage 0x1004 (flashPage
    (fun _ s => match s.sys.session with
      | none => .error busy
      | some k => verdictCheck (s.board.slotVerdict k))
    (fun _ s =>
      let k := s.sys.session.getD 0
      some ⟨[], [(k * flCs1 + 4, [0x3F, 0x07]), (k * flCs1 + 8, leBytes 4 (s.newSeq k).toNat)]⟩)
    (fun _ s => (s.modSys fun y => { y with session := none }, []))) p s)

/-- Bytes of an image with its padding to 64. -/
def padded (b : Bytes) (off : Nat) : Nat := (256 + u32 b (off + 0x0C) + 63) / 64 * 64

/-- The image at an offset of a set. -/
def imageAt (b : Bytes) (off : Nat) : Image := ⟨slice b off 256, slice b (off + 256) (u32 b (off + 0x0C))⟩

/-- FW_HOST_LOAD (11 R227): the set is fetched and verified; Belrix starts after the response. -/
def hostLoadBody : PageBody := fun c d s =>
  let b := c.block
  let n := u32 b 8
  match allOf [need (u64 b 0 % 64 = 0) (badParam 0), inRange n 768 10551296 8, reserved b 0x0C 4, need (s.sys.running = 3) busy] with
  | .error e => .fail e
  | .ok _ => match d with
    | none => .wait (s.dmaAsk c.path (u64 b 0) n)
    | some r => match s.dmaRead c.path (u64 b 0) n r with
      | none => .failWith (s.countDmaErr c.fn) dmaError
      | some set =>
        let o2 := padded set 0
        let o3 := o2 + padded set o2
        if o3 + padded set o3 ≠ n then .fail (badParam 0)
        else
          let m := imageAt set 0
          let x := imageAt set o2
          let y := imageAt set o3
          match verdictCheck (s.board.setVerdict m x y) with
          | .error e => .fail e
          | .ok _ => .done (s.modSys fun z => { z with
              hostLoad := some (x.version, y.version, manifestPairs m.body) }) []

def execFwHostLoad (p : Nat) (s : State) : Res := .next (runPage 0x1005 hostLoadBody p s)

/-- FW_COMMIT's flash operation (11 R229, R230): the running slot ACTIVE, the other from ACTIVE to ALTERNATE with its
override revoked. -/
def commitJob (s : State) : Option FlashJob :=
  let k := s.sys.running
  let o := 1 - k
  let h := s.board.header o
  if headState (s.board.header k) ≠ slPending then none
  else some ⟨[], [(k * flCs1 + 4, [0x1F])] ++ (if headState h = slActive then [(o * flCs1 + 4, [0x0F])] else []) ++
    (if headMagic h && u8 h 6 = 0x7F then [(o * flCs1 + 6, [0x00])] else [])⟩

/-- 11 R231. -/
def State.advanceRollback (s : State) (c : Cmd) : State :=
  if u8 c.block 0 = 1 then s.modBoard fun b => { b with rollback := Nat.max b.rollback (Nat.min 32 (b.minRollback s.sys.running)) }
  else s

def execFwCommit (p : Nat) (s : State) : Res :=
  .next (runPage 0x1006 (flashPage
    (fun c s => allOf [need (s.sys.running ≤ 1 && headState (s.board.header s.sys.running) ≠ slAlternate) (badParam 0),
      inRange (u8 c.block 0) 0 1 0, reserved c.block 1 3])
    (fun c s =>
      let up := u8 c.block 0 = 1 ∧ s.board.rollback < s.board.minRollback s.sys.running
      match commitJob s with
      | some j => some j
      | none => if up then some ⟨[], []⟩ else none)
    (fun c s => (s.advanceRollback c, []))) p s)

/-- COMPAT_OVERRIDE (11 R229): a device that booted from a slot records the pair in its header first. -/
def execCompatOverride (p : Nat) (s : State) : Res :=
  .next (runPage 0x1007 (flashPage
    (fun c s => allOf [need (s.sys.mode = .restricted) (badParam 0), need (w32 (u32 c.block 0) = s.sys.belrix) (badParam 0),
      need (w32 (u32 c.block 4) = s.sys.denzewen) (badParam 4)])
    (fun c s =>
      if s.sys.running ≤ 1 then
        some ⟨[], [(s.sys.running * flCs1 + 6, [0x7F]), (s.sys.running * flCs1 + 0x0C, slice c.block 0 8)]⟩
      else none)
    (fun _ s => ((s.modSys fun y => { y with mode := .overridden }).reportOverride, []))) p s)

end Sys2Proof.Machine
end

