-- ==== Sys2Proof/Machine/Faults.lean ====
section
/-! DEFINITION. The fault unit (18): release of merged records, the persistent log, the self-tests, the debug window. -/

namespace Sys2Proof.Machine

def State.modFaults (s : State) (f : FaultUnit → FaultUnit) : State := { s with faults := f s.faults }

/-! ## Records and log -/

/-- FAULT_MERGE_RELEASE (18 R346): the pair's pending record is staged 1 ms after its previous one. -/
def execFaultMergeRelease (cls unit : Nat) (s : State) : Res :=
  .next (match s.faults.pairs.get? (pairKey cls unit) with
    | some ⟨f, at', some r⟩ =>
      if at' + 1000000 ≤ s.now then
        (s.modFaults fun x => { x with pairs := x.pairs.set (pairKey cls unit) ⟨f, s.now, none⟩ }).stageFault r
      else s
    | _ => s)

/-- 18 R347: the sector of the log that holds an entry; 16 sectors of 1,024 entries. -/
def logSector (seq : Nat) : Nat := seq / 1024 % 16

/-- An entry programmed: what its sector held before it is gone, the sector being erased before its first entry. -/
def logStore (log : AMap Bytes) (seq : Nat) (e : Bytes) : AMap Bytes :=
  AMap.set (log.filter fun x => !(logSector x.1 = logSector seq && x.1 / 1024 ≠ seq / 1024)) seq e

/-- Drops are told by a LOG_OVERFLOW entry at the next free place of the queue. -/
def State.tellDrops (s : State) : State :=
  if s.faults.drops = 0 ∨ !s.logRoom then s
  else
    let t := s.raiseFault 0x0C 0 (args := [w32 s.faults.drops])
    if s.faults.queue.length < t.faults.queue.length then t.modFaults fun x => { x with drops := 0 } else t

/-- The flash operation of an append. -/
def appendJob (e : Bytes) : FlashJob := ⟨[], [(flLog + u32 e 4 % 16384 * 64, e)]⟩

/-- LOG_APPEND_PROGRAM: the oldest queued entry is programmed once the flash is idle; one that fails is lost, raises
FLASH_ERROR, which is not appended, and source 504. -/
def execLogAppendProgram (ok : Bool) (s : State) : Res :=
  .next (match s.faults.queue with
    | e :: es =>
      if s.sys.flashJob.isSome || s.sys.inPorst then s
      else
        let t := s.modFaults fun x => { x with queue := es }
        let t := if ok then t.modFaults fun x => { x with log := logStore x.log (u32 e 4) e }
          else (t.flashError (appendJob e) false).assertSource 504
        t.tellDrops
    | [] => s)

/-! ## Command pages -/

/-- FAULT_GET_STATUS. -/
def State.faultStatus (s : State) : Bytes :=
  ((List.range 15).flatMap fun k => leBytes 4 (s.regN (R.FLT_CLASS_COUNT + 4 * k))) ++ leBytes 4 (s.regN R.FLT_SEQ) ++
  leBytes 4 (s.regN R.FLT_LOG_NEXT) ++
  leBytes 4 (s.regFld R.FLT_DEBUG 0 0 + s.faults.queue.length * 256 + Nat.min (s.regN R.FLT_LOG_DROP) 0xFFFF * 65536)

def execFaultGetStatus (p : Nat) (s : State) : Res :=
  .next (runPage 0x0F01 (plainPage (fun _ _ => .ok ()) fun _ s => (s, s.faultStatus)) p s)

/-- FAULT_READ_LOG: valid entries in ascending log_seq. With no valid entry the spec names no oldest one: the word is
free. -/
def faultReadLogBody : PageBody := fun c _ s =>
  let b := c.block
  match allOf [inRange (u32 b 4) 1 16384 4, need (u64 b 8 % 8 = 0) (badParam 8)] with
  | .error e => .fail e
  | .ok _ =>
    let got := ((s.validLog.filter fun e => u32 b 0 ≤ e.1).take (u32 b 4)).map fun e => e.2
    let res := leBytes 4 got.length ++
      leBytes 4 (match s.validLog with | e :: _ => e.1 | [] => s.free.toNat % 0x100000000)
    let t := if s.validLog.isEmpty then s.tookFree else s
    if got.isEmpty then .done t res
    else match t.dmaWrite c.fn (u64 b 8) got.flatten with
      | some u => .done u res
      | none => .failWith (s.countDmaErr c.fn) dmaError

def execFaultReadLog (p : Nat) (s : State) : Res := .next (runPage 0x0F02 faultReadLogBody p s)

/-- FAULT_ERASE_LOG: the next log_seq is kept, and LOG_ERASED is appended. -/
def execFaultEraseLog (p : Nat) (s : State) : Res :=
  .next (runPage 0x0F03 (flashPage (fun _ s => need s.sys.session.isNone busy)
    (fun _ _ => some ⟨[(flLog, 0x100000)], []⟩)
    (fun _ s => ((s.modFaults fun x => { x with log := [] }).raiseFault 0x0F 0 (args := [w32 s.validLog.length]), []))) p s)

/-! ## Self-tests (18 R351) -/

/-- The highest target of a test. -/
def testTargets (t : Nat) : Nat := if t = 1 ∨ t = 2 ∨ t = 3 then 15 else if t = 8 then 1 else 0

/-- The domain a test runs in. -/
def testDomain (t target : Nat) : Nat :=
  match t with
  | 1 => dFAB
  | 2 => dIDG0 + target / 4
  | 3 => dIDG0 + target / 4
  | 4 => dDDR
  | 5 => dFAB
  | 6 => dUMB
  | 8 => dTEAL
  | _ => dAON

/-- An extent meets a range. -/
def extentMeets (a n : Nat) (l : List Extent) : Bool := l.any fun e => e.base < a + n && a < e.base + e.len

/-- The storage that a test writes: base and length. -/
def testStorage (c : Cmd) : Option (Nat × Nat) :=
  match u8 c.block 0 with
  | 1 => some (sramBase + u8 c.block 1 * 0x100000, 0x100000)
  | 2 => some (0x40000000 + u8 c.block 1 * 0x200000, 0x200000)
  | 4 => some (u64 c.block 8, u32 c.block 4)
  | _ => none

/-- The target holds an allocation, a binding or a group. -/
def State.testBusy (s : State) (c : Cmd) : Bool :=
  let t := u8 c.block 0
  if t = 1 then extentMeets (sramBase + u8 c.block 1 * 0x100000) 0x100000 s.host.sram
  else if t = 2 ∨ t = 3 then s.reg (R.IDG_Tn_OWNER (u8 c.block 1)) ≠ 0
  else if t = 4 then extentMeets (u64 c.block 8) (u32 c.block 4) s.host.dram
  else if t = 8 then s.reg R.TEAL_STATE ≠ 0
  else false

def selftestCheck (c : Cmd) (s : State) : Check :=
  let b := c.block
  let t := u8 b 0
  let len := u32 b 4
  let base := u64 b 8
  allOf [inRange t 1 8 0, inRange (u8 b 1) (if t = 1 then 1 else 0) (testTargets t) 1, s.reach (testDomain t (u8 b 1)),
    reserved b 2 2, need (if t = 4 then 65536 ≤ len && len ≤ 67108864 else len = 0) (badParam 4),
    need (if t = 4 then base % 64 = 0 && s.dramHeap.1 ≤ base && base + len ≤ s.dramHeap.2 else base = 0) (badParam 8),
    need (!s.testBusy c) busy]

/-- Memory that loses its contents reads as memory that nothing has written (log entry 24). -/
def State.loseMem (s : State) (a n : Nat) : State := { s with mem := zeroRange s.mem a n }

/-- The storage that a test runs over is left zeroed. -/
def State.zeroTested (s : State) (c : Cmd) : State :=
  match testStorage c with
  | some (a, n) => s.loseMem a n
  | none => s

/-- Self-test 7 pauses the battery sampling for 125 ms (R351). -/
def State.pauseSable (s : State) (c : Cmd) : State :=
  if u8 c.block 0 = 7 then { s with sable := { s.sable with pausedTo := s.now + 125000000 } } else s

/-- DIAG_SELFTEST: the verdict is free; its storage is left zeroed, and a failure raises SELFTEST_FAIL and source 505. -/
def State.selftest (s : State) (c : Cmd) : State × Bytes :=
  let t := ((s.touch (testDomain (u8 c.block 0) (u8 c.block 1))).zeroTested c).pauseSable c
  let word := fun (i : Nat) => (Config.freeValue (t.freeCtr + i)).toNat
  let w := t.tookFree 4
  if word 0 % 2 = 1 then
    ((w.raiseFault 0x0A (u8 c.block 0) (args := [w32 (u8 c.block 1), w32 (word 2), w32 (word 3)])).assertSource 505,
      leBytes 1 1 ++ leBytes 7 0 ++ leBytes 8 (word 1) ++ leBytes 4 (word 2) ++ leBytes 4 (word 3))
  else (w, leBytes 24 0)

def execDiagSelftest (p : Nat) (s : State) : Res :=
  .next (runPage 0x0F04 (plainPage selftestCheck fun c s => s.selftest c) p s)

/-! ## Debug window (18 R350) -/

/-- DEBUG_CHALLENGE: a fresh nonce from the true random source, then the serial. -/
def execDebugChallenge (p : Nat) (s : State) : Res :=
  .next (runPage 0x0F05 (plainPage (fun _ _ => .ok ()) fun _ s =>
    let n := (List.range 6).flatMap fun i => leBytes 8 (Config.freeValue (s.freeCtr + i)).toNat
    ((s.modFaults fun x => { x with nonce := some n }).tookFree 6, n ++ leBytes 8 s.board.serial.toNat)) p s)

/-- DEBUG_UNLOCK: the nonce is consumed whatever the result of the page, OK or SIGNATURE_FAIL. A non-zero reserved field has no
effect (00 R10, log entry 34). -/
def debugUnlockBody : PageBody := fun c _ s =>
  let key := c.block.take 97
  let t := s.modFaults fun x => { x with nonce := none }
  match reserved c.block 0x61 3, s.faults.nonce with
  | .error e, _ => .fail e
  | .ok _, none => .fail ⟨cSignature, 0⟩
  | .ok _, some n =>
    if s.board.keyOk key && signed key (slice c.block 0x64 96) (n ++ leBytes 8 s.board.serial.toNat) then
      .done (((t.setReg R.FLT_DEBUG 1).raiseFault 0x0B 0 (args := [1])).assertSource 506) []
    else .failWith t ⟨cSignature, 0⟩

def execDebugUnlock (p : Nat) (s : State) : Res := .next (runPage 0x0F06 debugUnlockBody p s)

/-- DEBUG_LOCK. -/
def execDebugLock (p : Nat) (s : State) : Res :=
  .next (runPage 0x0F07 (plainPage (fun _ _ => .ok ()) fun _ s =>
    (if s.regBit R.FLT_DEBUG 0 then ((s.setReg R.FLT_DEBUG 0).raiseFault 0x0B 0 (args := [0])).assertSource 506 else s, [])) p s)

end Sys2Proof.Machine
end

