-- ==== Sys2Proof/Machine/Sable.lean ====
section
/-! DEFINITION. Sable (17): conversion, charge, capacity, levels, battery supply, BATTERY_STATUS records and the 0x0C
commands. Quantities are binary32 (17 R329, log entry 29); the charge Q is kept exactly. -/

namespace Sys2Proof.Machine

/-! ## Logarithm and ratios -/

/-- Fraction bits of the logarithm. -/
abbrev lnBits : Nat := 200

/-- The series of artanh: terms from number `k`, with `p` = (n / d)^(2k+1) × 2^200. -/
def atanhSum (n2 d2 : Nat) : Nat → Nat → Nat → Nat
  | 0, _, _ => 0
  | f + 1, k, p => p / (2 * k + 1) + atanhSum n2 d2 f (k + 1) (p * n2 / d2)

/-- 2^200 × 2 artanh(n / d), for n / d at most 1/3. -/
def atanhFix (n d : Nat) : Nat := 2 * atanhSum (n * n) (d * d) 70 0 (n * 2 ^ lnBits / d)

/-- ln 2 × 2^200. -/
def ln2Fix : Nat := atanhFix 1 3

/-- The natural logarithm, correctly rounded. -/
def F.ln (w : F32) : F32 :=
  if F.isNan w then F.nan
  else if F.isZero w then 0xFF800000
  else if F.neg? w then F.nan
  else if F.isInf w then F.inf
  else if w = F.one then 0
  else
    let m := F.mant w
    let l := Nat.log2 m
    let e : Int := F.expo w + l
    let v : Int := e * ln2Fix + atanhFix (m - 2 ^ l) (m + 2 ^ l)
    F.round (v < 0) v.natAbs (-200) true

/-- The quotient of two natural numbers as binary32, correctly rounded. -/
def F.ofRatio (n d : Nat) : F32 := F.round false (n * 2 ^ 200 / d) (-200) (n * 2 ^ 200 % d ≠ 0)

/-- A finite value truncated, within bounds; a NaN or an infinity gives a bound. -/
def F.toNatSat (w : F32) (hi : Nat) : Nat :=
  if F.isNan w || F.neg? w then 0 else if F.isInf w then hi else Nat.min (F.toIntTrunc w 0).toNat hi

/-! ## State of a string -/

def State.modSable (s : State) (f : Sable → Sable) : State := { s with sable := f s.sable }
def State.str (s : State) (n : Nat) : BatString := s.sable.strings.getD n BatString.init
def State.setStr (s : State) (n : Nat) (x : BatString) : State := s.modSable fun b => { b with strings := b.strings.set n x }

def State.strEn (s : State) (n : Nat) : Bool := s.regBit R.SBL_CTRL n
def State.strSupply (s : State) (n : Nat) : Bool := s.regBit R.SBL_CTRL (4 + n)
def State.strCells (s : State) (n : Nat) : Nat := s.regFld (R.SBL_Sn_CFG n) 15 8
def State.designMah (s : State) (n : Nat) : Nat := s.regN (R.SBL_Sn_DESIGN_MAH n)

/-- Units of Q in a mAh: 2^-32 mA·ns. -/
abbrev mahUnit : Nat := 3600000000000 * 2 ^ 32

/-- A charge in mAh as binary32, and back. -/
def mahOf (q : Nat) : F32 := F.ofRatio q mahUnit
def unitsOf (w : F32) : Nat := if F.neg? w then 0 else (F.toIntFloor w 64).toNat * 3600000000000 / 2 ^ 32

/-- A percentage of a charge: multiplied before it is divided, so that the whole percentages of 17 Worked case come out exact
(log entry 29). -/
def percentOf (p x : F32) : F32 := F.div (F.mul p x) (F.ofNat 100)

/-! ## Tables (17 R331) -/

/-- A halfword of a string's table block. -/
def State.tabHalf (s : State) (n off : Nat) : Nat := s.regN (R.SBL_TAB n + off / 4 * 4) / 2 ^ (8 * (off % 4)) % 65536

def State.tabSigned (s : State) (n off : Nat) : Int := sext 16 (s.tabHalf n off)

/-- Where a value lies among rising breakpoints: the lower index and whether it was clamped. Breakpoint `i` is `bp i`. -/
def locate (bp : Nat → F32) (count : Nat) (x : F32) : Nat × Bool × Bool :=
  if F.lt x (bp 0) then (0, true, true)
  else if F.lt (bp (count - 1)) x then (count - 1, true, true)
  else
    let i := ((List.range count).filter fun i => F.le (bp i) x).length - 1
    (i, F.eq (bp i) x, false)

/-- Linear interpolation between breakpoints; outside them, the nearest. -/
def interp (bp y : Nat → F32) (count : Nat) (x : F32) : F32 :=
  let (i, exact, _) := locate bp count x
  if exact then y i
  else F.add (y i) (F.div (F.mul (F.sub (y (i + 1)) (y i)) (F.sub x (bp i))) (F.sub (bp (i + 1)) (bp i)))

/-- A temperature outside the breakpoints at an offset of the block. -/
def State.clampT (s : State) (n off : Nat) (t : F32) : Bool :=
  (locate (fun i => F.ofScaled (s.tabSigned n (off + 2 * i)) (-3)) 8 t).2.2

/-- The OCV column at a temperature: per-cell mV at 5 k %. -/
def State.ocvColumn (s : State) (n : Nat) (t : F32) (k : Nat) : F32 :=
  interp (fun i => F.ofScaled (s.tabSigned n (2 * i)) (-3))
    (fun i => F.ofNat (s.tabHalf n (0x010 + 42 * i + 2 * k))) 8 t

/-- 17 R331: the OCV table inverted: SOC in % of a per-cell voltage. -/
def State.ocvSoc (s : State) (n : Nat) (t v : F32) : F32 :=
  let c := s.ocvColumn n t
  if F.le v (c 0) then 0
  else if F.le (c 20) v then F.ofNat 100
  else
    let k := ((List.range 20).find? fun k => F.le v (c (k + 1))).getD 0
    F.add (F.ofNat (5 * k)) (F.div (F.mul (F.ofNat 5) (F.sub v (c k))) (F.sub (c (k + 1)) (c k)))

/-- A rate breakpoint in C. -/
def State.rateBp (s : State) (n i : Nat) : F32 := F.div (F.ofNat (s.tabHalf n (0x170 + 2 * i))) (F.ofNat 1000)

/-- 17 R331, R335: the derating factor at a temperature and rate. -/
def State.derate (s : State) (n : Nat) (t rate : F32) : F32 :=
  let row := fun (j : Nat) =>
    interp (fun i => F.ofScaled (s.tabSigned n (0x160 + 2 * i)) (-3))
      (fun i => F.ofScaled (s.tabHalf n (0x180 + 12 * i + 2 * j)) (-15)) 8 t
  interp (s.rateBp n) row 6 rate

/-! ## One sample of a string (17 R329 to R336) -/

/-- 17 R330: quiet at 8 Hz, else 1 kHz; always 8 Hz in HIBERNATE. -/
def State.samplePeriod (s : State) (n : Nat) : Nat := if (s.str n).quiet || s.ivory.state = 3 then 125000000 else 1000000

/-- A sample of the string falls due: its period has passed, less 0.01 % (17 R342), and no self-test pauses it
(18 R351). -/
def State.strDue (s : State) (n : Nat) : Bool :=
  s.strEn n && s.sable.pausedTo ≤ s.now && (match (s.str n).lastSample with
    | none => true
    | some t => t.steady + s.samplePeriod n - s.samplePeriod n / 10000 ≤ s.now)

/-- 17 R329. -/
def State.currentMa (s : State) (n : Nat) (code : Int) : F32 :=
  let i := F.div (F.mul (F.ofInt code) (F.ofNat 100000000)) (F.mul (F.ofNat 32768) (F.ofNat (s.regN (R.SBL_Sn_SHUNT_UOHM n))))
  if s.regBit (R.SBL_Sn_CFG n) 0 then F.neg i else i

def State.voltageMv (s : State) (n code : Nat) : F32 :=
  F.mul (F.div (F.mul (F.ofNat code) (F.ofNat 1200)) (F.ofNat 16384)) (F.ofScaled (s.regN (R.SBL_Sn_VGAIN n)) (-16))

/-- 298.15 and 273.15 in binary32. -/
abbrev k298 : F32 := 0x43951333
abbrev k273 : F32 := 0x43889333

def State.temperature (s : State) (n code : Nat) : F32 :=
  let r := F.div (F.mul (F.ofNat 10000) (F.ofNat code)) (F.sub (F.ofNat 16384) (F.ofNat code))
  let l := F.div (F.ln (F.div r (F.ofNat (s.regN (R.SBL_Sn_TH_R25 n))))) (s.reg (R.SBL_Sn_TH_BETA n))
  F.sub (F.div F.one (F.add (F.div F.one k298) l)) k273

/-- Bits of sflags (17 R338). -/
abbrev sfQuiet : Nat := 4
abbrev sfRested : Nat := 8
abbrev sfOcv : Nat := 16
abbrev sfClampT : Nat := 32
abbrev sfClampRate : Nat := 64
abbrev sfSat : Nat := 128

/-- Reasons of a record (17 R338). -/
abbrev rnPeriodic : Nat := 1
abbrev rnLevel : Nat := 2
abbrev rnSource : Nat := 4
abbrev rnOcv : Nat := 8
abbrev rnFcc : Nat := 16
abbrev rnReserve : Nat := 32
abbrev rnRange : Nat := 64
abbrev rnWake : Nat := 128

/-- 17 R334: a capacity estimate within 50 to 110 % of design. -/
def clampFcc (design : Nat) (w : F32) : F32 :=
  F.min2 (F.max2 w (F.ofRatio (design * 50) 100)) (F.ofRatio (design * 110) 100)

/-- 17 R333, R334: a calibration at an SOC in %, and the reasons it gives. FCC is updated before Q is set (log entry
29). -/
def BatString.calibrate (x : BatString) (design : Nat) (soc : F32) : BatString × Nat :=
  let fcc := match x.calSoc with
    | some o =>
      let d := F.abs (F.sub soc o)
      if F.le (F.ofNat 40) d then
        let est := F.div (F.mul (mahOf x.calCharge.natAbs) (F.ofNat 100)) d
        some (clampFcc design (F.add x.fcc (F.div (F.sub est x.fcc) (F.ofNat 8))))
      else none
    | none => none
  let f := fcc.getD x.fcc
  ({ x with
     fcc := f, q := unitsOf (percentOf soc f), calSoc := some soc, calCharge := 0 },
   rnOcv + (if fcc.isSome then rnFcc else 0))

/-- Per-cell voltage. -/
def State.cellMv (s : State) (n : Nat) (v : F32) : F32 := F.div v (F.ofNat (s.strCells n))

/-- 17 R332: the charge moved since the previous sample, and Q after it; the first sample sets both from the tables. -/
def State.integrate (s : State) (n : Nat) (x : BatString) (i v t : F32) : BatString :=
  if !x.started then
    let f := F.ofNat (s.designMah n)
    { x with
      started := true, fcc := f, calSoc := none, calCharge := 0
      q := unitsOf (percentOf (s.ocvSoc n t (s.cellMv n v)) f) }
  else
    let dt := match x.lastSample with | some l => s.now - l.steady | none => 0
    let dq := F.toIntTrunc i 32 * dt
    let q := ((x.q : Int) - dq).toNat
    { x with
      q := Nat.min q (unitsOf x.fcc), calCharge := x.calCharge + dq, discharged := x.discharged + dq.toNat }

/-- 17 R330, R333: quiet and rested. -/
def State.settle (s : State) (n : Nat) (x : BatString) (i : F32) : BatString :=
  let calm := F.le (F.abs i) (F.ofNat (s.regN (R.SBL_Sn_IQUIET_MA n)))
  let since := x.restSince.getD s.now
  if calm then
    { x with
      quietRun := x.quietRun + 1, quiet := x.quiet || 1000 ≤ x.quietRun + 1, restSince := some since
      rested := s.regN (R.SBL_Sn_REST_S n) * 1000000000 ≤ s.now - since }
  else { x with quietRun := 0, quiet := false, restSince := none, rested := false }

/-- 17 R335: the samples of the last 10 s with a new one. -/
def State.avgWindow (s : State) (x : BatString) (i : F32) : List (Nat × Nat × Word) :=
  let dt := match x.lastSample with | some l => s.now - l.steady | none => 0
  (x.window ++ [(s.now, dt, i)]).filter fun e => s.now < e.1 + 10000000000

/-- 17 R335: I_avg. The mean of samples that span no time is the last of them (log entry 29). -/
def avgMa (w : List (Nat × Nat × Word)) : F32 :=
  let dt := w.foldl (fun n e => n + e.2.1) 0
  let pos := fun (i : Word) => (F.toIntTrunc i 32).toNat
  if dt = 0 then (match w.getLast? with | some e => F.max2 0 e.2.2 | none => 0)
  else F.ofRatio (w.foldl (fun n e => n + pos e.2.2 * e.2.1) 0) (dt * 2 ^ 32)

/-- Reserve in mAh (17 R335). -/
def State.reserveMah (s : State) (n : Nat) (fcc : F32) : F32 :=
  percentOf (F.ofNat (s.regFld (R.SBL_Sn_LIMITS n) 21 16)) fcc

/-- 17 R335: remaining above the reserve. -/
def State.availMah (s : State) (n : Nat) (q fcc d : F32) : F32 :=
  let u := F.max2 0 (F.sub q (F.mul (F.sub F.one d) fcc))
  F.max2 0 (F.sub u (s.reserveMah n fcc))

/-- 17 R335: the level percentage. -/
def State.levelPct (s : State) (n : Nat) (a fcc : F32) : F32 :=
  F.div (F.mul a (F.ofNat 100)) (F.sub fcc (s.reserveMah n fcc))

/-- Threshold of a level in %. -/
def State.levelThr (s : State) (n level : Nat) : F32 :=
  F.ofNat (s.regFld (R.SBL_Sn_LEVELS n) (8 * level - 1) (8 * level - 8))

/-- 17 R336: the condition of a level. -/
def State.levelHolds (s : State) (n level : Nat) (pct v : F32) : Bool :=
  F.le pct (s.levelThr n level) ||
  (level = 3 && F.lt (s.cellMv n v) (F.ofNat (s.regFld (R.SBL_Sn_LIMITS n) 15 0)))

/-- 17 R336: a level is left only past its threshold and hysteresis, with its condition clear. -/
def State.levelKept (s : State) (n level : Nat) (pct v : F32) : Bool :=
  s.levelHolds n level pct v ||
  F.le pct (F.add (s.levelThr n level) (F.ofNat (s.regFld (R.SBL_Sn_LEVELS n) 31 24)))

/-- 17 R336: the level after a sample: the most severe whose condition holds, or the level that hysteresis keeps. -/
def State.nextLevel (s : State) (n cur : Nat) (pct v : F32) : Nat :=
  ([1, 2, 3].filter fun l => s.levelHolds n l pct v || (l ≤ cur && s.levelKept n l pct v)).foldl Nat.max 0

/-- The sources of a change of level (17 R336). -/
def State.levelSources (s : State) (n old new : Nat) : State :=
  if old < new then s.assertSource (396 + 4 * new + n) else s.assertSourceIf (new < old) 412

/-- A string's registers shown (17 R341). -/
def State.showString (s : State) (n : Nat) : State :=
  let x := s.str n
  let t := s.setReg64 (R.SBL_Sn_Q_LO n) (x.q / (3600000000000 * 65536))
  let t := (t.setReg (R.SBL_Sn_FCC_MAH n) (w32 (F.toNatSat x.fcc 0xFFFFFFFF))).setReg (R.SBL_Sn_A_MAH n)
    (w32 (F.toNatSat x.avail 0xFFFFFFFF))
  t.setReg (R.SBL_Sn_STATE n) (w32 (x.level + x.sflags * 4))

/-- The samples' conversion: raw codes, saturation (17 R329). -/
def State.showRaw (s : State) (n : Nat) (k : BatCode) : State :=
  let t := ((s.setReg (R.SBL_Sn_RAW_I n) (w32 (wrapBits 32 k.i))).setReg (R.SBL_Sn_RAW_V n) (w32 k.v)).setReg
    (R.SBL_Sn_RAW_T n) (w32 k.t)
  if 32767 ≤ k.i.natAbs then t.bumpSat (R.SBL_Sn_SAT n) else t

/-- Flags of a sample (17 R338), whether a clamp flag is newly set (RANGE), and whether saturation is. -/
def State.sampleFlags (s : State) (n : Nat) (x : BatString) (code : Int) (t rate : F32) (ocv : Bool) : Nat × Bool × Bool :=
  let ct := s.clampT n 0x160 t || (ocv && s.clampT n 0 t)
  let cr := (locate (s.rateBp n) 6 rate).2.2
  let sat := decide (32767 ≤ code.natAbs)
  let had := fun (k : Nat) => x.sflags / k % 2 = 1
  (b2n (s.strEn n) + 2 * b2n (s.strSupply n) + sfQuiet * b2n x.quiet + sfRested * b2n x.rested +
    sfOcv * b2n (x.calSoc.isSome || had sfOcv) + sfClampT * b2n ct + sfClampRate * b2n cr + sfSat * b2n sat,
   (ct && !had sfClampT) || (cr && !had sfClampRate), sat && !had sfSat)

/-- One sample of a string: the state and the reasons it gives. -/
def State.sampleString (s : State) (n : Nat) (k : BatCode) : State × Nat :=
  let i := s.currentMa n k.i
  let v := s.voltageMv n k.v
  let tc := s.temperature n k.t
  let x0 := s.str n
  let x1 := s.settle n (s.integrate n x0 i v tc) i
  let cal := x1.rested && !x0.rested
  let (x2, why) := if cal then x1.calibrate (s.designMah n) (s.ocvSoc n tc (s.cellMv n v)) else (x1, 0)
  let w := s.avgWindow x0 i
  let avg := avgMa w
  let rate := F.div avg x2.fcc
  let d := s.derate n tc rate
  let a := s.availMah n (mahOf x2.q) x2.fcc d
  let pct := s.levelPct n a x2.fcc
  let lv := s.nextLevel n x0.level pct v
  let (fl, clamped, saturated) := s.sampleFlags n { x2 with sflags := x0.sflags } k.i tc rate (cal || !x0.started)
  let low := s.strSupply n && F.isZero a
  let ttr := if F.lt (F.ofNat (s.regN (R.SBL_Sn_IQUIET_MA n))) avg then
      F.toNatSat (F.mul (F.div a avg) (F.ofNat 3600)) 0xFFFFFFFE else 0xFFFFFFFF
  let t := (s.setStr n { x2 with
    window := w, lastSample := some s.tickStamp, ima := i, vmv := v, temp := tc, level := lv, sflags := fl, derate := d
    avail := a, atReserve := low }).showRaw n k
  let t := ((t.showString n).setReg (R.SBL_Sn_TTR_S n) (w32 ttr)).levelSources n x0.level lv
  let t := if cal then t.setReg64 (R.SBL_Sn_LAST_CAL_LO n) s.now else t
  let t := (t.assertSourceIf (clamped || saturated) 415).assertSourceIf (low && !x0.atReserve) 414
  (t, why + (if lv ≠ x0.level then rnLevel else 0) + (if clamped then rnRange else 0) +
    (if low && !x0.atReserve then rnReserve else 0))

/-! ## Battery supply (17 R337) -/

/-- The enabled supply strings. -/
def State.supplies (s : State) : List Nat := below 4 fun n => s.strEn n && s.strSupply n

/-- E_res: the energy above the reserve of the enabled supply strings, in whole joules. -/
def State.resJoules (s : State) : Nat :=
  F.toNatSat (F.sum (s.supplies.map fun n =>
    F.div (F.mul (F.mul (s.str n).avail (F.ofScaled 15099494 (-22))) (s.str n).vmv) (F.ofNat 1000))) 0xFFFFFFFF

/-- The fastest-sampling supply string, the lowest of equals. -/
def State.fastest (s : State) : Option Nat :=
  match s.supplies.find? fun n => s.samplePeriod n = 1000000 with
  | some n => some n
  | none => s.supplies.head?

/-- 17 R337: three consecutive samples decide whether the device runs from battery; true where it changed. -/
def State.countSupply (s : State) : State × Bool :=
  let sum := F.sum (s.supplies.map fun n => (s.str n).ima)
  let much := F.le (F.ofNat (s.regN R.SBL_ON_BATT_MA)) sum && !s.supplies.isEmpty
  let b := s.sable
  let on := if much then b.onCount + 1 else 0
  let off := if much then 0 else b.offCount + 1
  let st := if b.onBattery then off < 3 else 3 ≤ on
  let t := s.modSable fun b => { b with onBattery := st, onCount := Nat.min on 3, offCount := Nat.min off 3 }
  if st = b.onBattery then (t, false) else ((t.setRegFld R.SBL_CTRL 8 8 (b2n st)).assertSource 413, true)

/-! ## Records (17 R338, R340) -/

/-- A value truncated toward zero as a signed field of `k` bits. -/
def F.toField (w : F32) (shift : Int) (k : Nat) : Nat :=
  if F.isNan w then 0
  else if F.isInf w then (if F.neg? w then 2 ^ (k - 1) else 2 ^ (k - 1) - 1)
  else wrapBits k (clampI (-(2 ^ (k - 1) : Nat)) ((2 ^ (k - 1) : Nat) - 1) (F.toIntTrunc w shift))

/-- The 48 bytes of a string. -/
def State.stringBytes (s : State) (n : Nat) : Bytes :=
  if !s.strEn n then leBytes 1 n ++ List.replicate 47 0
  else
    let x := s.str n
    let pct := fun (a b : F32) => Nat.min (F.toNatSat (F.div (F.mul a (F.ofNat 10000)) b) 65535) 65535
    leBytes 1 n ++ leBytes 1 x.level ++ leBytes 1 x.sflags ++ leBytes 1 0 ++
    leBytes 4 (F.toNatSat x.vmv 0xFFFFFFFF) ++ leBytes 4 (F.toField x.ima 0 32) ++ leBytes 2 (F.toField x.temp 3 16) ++
    leBytes 2 (pct (mahOf x.q) x.fcc) ++ leBytes 4 (x.q / mahUnit) ++ leBytes 4 (F.toNatSat x.fcc 0xFFFFFFFF) ++
    leBytes 4 (F.toNatSat x.avail 0xFFFFFFFF) ++ leBytes 4 (s.regN (R.SBL_Sn_TTR_S n)) ++
    leBytes 2 (pct x.fcc (F.ofNat (s.designMah n))) ++ leBytes 2 (F.toIntTrunc x.derate 15).toNat ++
    leBytes 4 (Nat.min (x.discharged / mahUnit) 0xFFFFFFFF) ++ leBytes 8 (s.reg64 (R.SBL_Sn_LAST_CAL_LO n))

/-- The body of a BATTERY_STATUS record (17 R338). -/
def State.batteryBody (s : State) (reasons : Nat) : Bytes :=
  let ttr := (s.supplies.map fun n => s.regN (R.SBL_Sn_TTR_S n)).foldl Nat.min 0xFFFFFFFF
  leBytes 2 reasons ++ leBytes 1 (b2n s.sable.onBattery) ++ leBytes 1 (s.regN R.SBL_CTRL) ++
  leBytes 4 (s.regN R.SBL_E_RES_J) ++ leBytes 4 ttr ++ leBytes 4 0 ++ (List.range 4).flatMap fun n => s.stringBytes n

/-- The stamp of the latest sample of any string; the present one where there is none. -/
def State.sampleStamp (s : State) : Stamp :=
  (s.sable.strings.filterMap fun e => e.2.lastSample).foldl
    (fun (b : Option Stamp) t => match b with | some u => if u.steady < t.steady then some t else b | none => some t) none
    |>.getD s.tickStamp

/-- A record of some reasons is staged; in HIBERNATE they are latched (17 R340). -/
def State.reportBattery (s : State) (reasons : Nat) : State :=
  if reasons = 0 then s
  else if s.ivory.state = 3 then s.modSable fun b => { b with latched := b.latched ||| reasons }
  else
    let t := s.sampleStamp
    s.emit .sable none 0x0050 t t.steady t.flag srcSable 0 (s.batteryBody reasons)

/-- 17 R340: the reasons latched in HIBERNATE, in one record at the wake. -/
def State.wakeBattery (s : State) : State :=
  if s.sable.latched = 0 then s
  else
    let r := s.sable.latched
    (s.modSable fun b => { b with latched := 0 }).reportBattery (r ||| rnWake)

/-! ## Settings that wait for a sample -/

/-- An enabled string starts from its tables (17 R332); what it has discharged so far and what waits for its sample stay (log
entry 29). -/
def State.restartString (s : State) (n : Nat) : State :=
  let x := s.str n
  s.setStr n { BatString.init with
    discharged := x.discharged, next := x.next, tablesNext := x.tablesNext, levelsNext := x.levelsNext, socNext := x.socNext }

/-- A register write of SBL_CTRL; a string that it enables starts (17 R332, R341). -/
def State.writeSblCtrl (s : State) (v : Word) : State :=
  forEach (below 4 fun n => !s.strEn n && v.toNat.testBit n) (fun n t => t.restartString n) (s.setRegFld R.SBL_CTRL 7 0 (fld v 7 0))

/-- BAT_SET_STRING's fields applied; enabling restarts the string (17 R332). -/
def State.applyString (s : State) (n : Nat) (b : Bytes) : State :=
  let was := s.strEn n
  let t := (s.setRegFld R.SBL_CTRL n n (u8 b 1)).setRegFld R.SBL_CTRL (4 + n) (4 + n) (u8 b 2)
  let t := t.setReg (R.SBL_Sn_CFG n) (w32 (u8 b 3 + u8 b 4 * 256) ||| (s.reg (R.SBL_Sn_CFG n) &&& 0x10000))
  let t := t.setRegs (R.SBL_Sn_SHUNT_UOHM n) ((List.range 7).map fun i => w32 (u32 b (8 + 4 * i)))
  if !was && u8 b 1 = 1 then t.restartString n else t

/-- BAT_LOAD_TABLES' block applied. -/
def State.applyTables (s : State) (n : Nat) (d : Bytes) : State :=
  (s.setRegs (R.SBL_TAB n) ((List.range 120).map fun i => w32 (u32 d (4 * i)))).setRegFld (R.SBL_Sn_CFG n) 16 16 1

/-- BAT_SET_LEVELS' fields applied. -/
def State.applyLevels (s : State) (n : Nat) (b : Bytes) : State :=
  (s.setReg (R.SBL_Sn_LEVELS n) (w32 (u8 b 1 + u8 b 2 * 256 + u8 b 3 * 65536 + u8 b 4 * 0x1000000))).setReg
    (R.SBL_Sn_LIMITS n) (w32 (u16 b 6 + u8 b 5 * 65536))

/-- BAT_SET_SOC's fields applied: FCC first, then Q. -/
def State.applySoc (s : State) (n : Nat) (b : Bytes) : State :=
  let x := s.str n
  let f := if (u8 b 1).testBit 1 then F.ofNat (u32 b 4) else x.fcc
  let q := if (u8 b 1).testBit 0 then unitsOf (F.div (F.mul (F.ofNat (u16 b 2)) f) (F.ofNat 10000)) else x.q
  s.setStr n { x with fcc := f, q := Nat.min q (unitsOf f), calSoc := none, calCharge := 0 }

/-- What waits for a string's next sample takes effect: tables before everything else. -/
def State.applyNext (s : State) (n : Nat) : State :=
  let x := s.str n
  let go := fun (o : Option Bytes) (f : State → Bytes → State) (t : State) => match o with | some b => f t b | none => t
  let t := s.setStr n { x with next := none, tablesNext := none, levelsNext := none, socNext := none }
  let t := go x.tablesNext (fun t b => t.applyTables n b) t
  let t := go x.next (fun t b => t.applyString n b) t
  let t := go x.levelsNext (fun t b => t.applyLevels n b) t
  go x.socNext (fun t b => t.applySoc n b) t

/-- BAT_SET_REPORT's fields applied. -/
def State.applyReport (s : State) : State :=
  match s.sable.reportNext with
  | some b => ((s.setReg R.SBL_PERIOD_S (w32 (u16 b 0))).setReg R.SBL_ON_BATT_MA (w32 (u32 b 4))).modSable fun x => { x with
      reportNext := none }
  | none => s

/-- The strings sampled, with the reasons that this gives. -/
def State.sampleDue (s : State) (codes : List BatCode) : State × Nat :=
  (below codes.length fun n => s.strDue n).foldl (fun (a : State × Nat) n =>
    ((a.1.sampleString n (nth codes n ⟨0, 0, 0⟩)).1, a.2 ||| (a.1.sampleString n (nth codes n ⟨0, 0, 0⟩)).2)) (s, 0)

/-- The supply is judged with the samples of the fastest string; without strings, at every instant. -/
def State.supplyDue (s : State) (codes : List BatCode) : Bool :=
  match s.fastest with
  | some n => n < codes.length && s.strDue n
  | none => s.sable.onBattery

/-- The supply judged, and whether it changed. -/
def State.countSupplyIf (s : State) (c : Bool) : State × Bool := if c then s.countSupply else (s, false)

/-- What waits for the next sample, applied: the settings of a string at its own sample, those of a disabled string, which has
no sample, and BAT_SET_REPORT at any (log entry 29). -/
def State.applyWaiting (s : State) : State :=
  forEach (below 4 fun n => s.strDue n || !s.strEn n) (fun n t => t.applyNext n) s.applyReport

/-- BATTERY_SAMPLE (17 R329, R330): the strings whose period has passed are sampled, and one record carries all reasons. -/
def State.batterySample (s : State) (codes : List BatCode) : State :=
  let s1 := s.applyWaiting
  let r := s1.sampleDue codes
  let s3 := r.1.setReg R.SBL_E_RES_J (w32 r.1.resJoules)
  let u := s3.countSupplyIf (s1.supplyDue codes)
  u.1.reportBattery (r.2 ||| if u.2 then rnSource else 0)

def execBatterySample (codes : List BatCode) (s : State) : Res := .next (s.batterySample codes)

/-- BATTERY_REPORT_PERIOD (17 R338). -/
def execBatteryReportPeriod (s : State) : Res :=
  .next (
    let p := s.regN R.SBL_PERIOD_S * 1000000000
    if p = 0 ∨ s.now < s.sable.lastReport + p then s
    else (s.modSable fun b => { b with lastReport := s.now / p * p }).reportBattery rnPeriodic)

/-! ## Command pages -/

/-- What a pending BAT_SET_STRING leaves: enabled, and its design capacity. -/
def State.nextEn (s : State) (n : Nat) : Bool := match (s.str n).next with | some b => u8 b 1 = 1 | none => s.strEn n
def State.nextDesign (s : State) (n : Nat) : Nat := match (s.str n).next with | some b => u32 b 0x10 | none => s.designMah n

/-- A binary32 within two natural bounds. -/
def f32In (w lo hi : Nat) : Bool := F.le (F.ofNat lo) (w32 w) && F.le (w32 w) (F.ofNat hi)

def batStringCheck (c : Cmd) (s : State) : Check :=
  let b := c.block
  let n := u8 b 0
  allOf [inRange n 0 3 0,
    need (u8 b 1 = 0 || (u8 b 1 = 1 && (s.regBit (R.SBL_Sn_CFG n) 16 || (s.str n).tablesNext.isSome))) (badParam 1),
    inRange (u8 b 2) 0 1 2, inRange (u8 b 3) 0 1 3, inRange (u8 b 4) 1 255 4, reserved b 5 3,
    inRange (u32 b 8) 10 1000000 8, inRange (u32 b 0x0C) 0x10000 0x0FFFFFFF 0x0C, inRange (u32 b 0x10) 100 4000000 0x10,
    inRange (u32 b 0x14) 1 100000 0x14, inRange (u32 b 0x18) 60 86400 0x18, inRange (u32 b 0x1C) 1000 1000000 0x1C,
    need (f32In (u32 b 0x20) 1000 10000) (badParam 0x20)]

def execBatSetString (p : Nat) (s : State) : Res :=
  .next (runPage 0x0C01 (plainPage batStringCheck fun c s =>
    (s.setStr (u8 c.block 0) { s.str (u8 c.block 0) with next := some c.block }, [])) p s)

/-- 17 R331: a table block. -/
def tablesOk (d : Bytes) : Bool :=
  let up := fun (off k : Nat) (f : Bytes → Nat → Int) => (List.range (k - 1)).all fun i => f d (off + 2 * i) < f d (off + 2 * i + 2)
  up 0 8 i16 && up 0x160 8 i16 && up 0x170 6 (fun b o => (u16 b o : Int)) && u32 d 0x17C = 0 &&
  ((List.range 8).all fun r => (List.range 20).all fun k => u16 d (0x10 + 42 * r + 2 * k) ≤ u16 d (0x10 + 42 * r + 2 * k + 2)) &&
  ((List.range 48).all fun k => u16 d (0x180 + 2 * k) ≤ 32768)

def batTablesBody : PageBody := fun c d s =>
  let b := c.block
  match allOf [inRange (u8 b 0) 0 3 0, reserved b 1 7, need (u64 b 8 % 8 = 0) (badParam 8)] with
  | .error e => .fail e
  | .ok _ => match d with
    | none => .wait (s.dmaAsk c.path (u64 b 8) 480)
    | some x => match s.dmaRead c.path (u64 b 8) 480 x with
      | none => .failWith (s.countDmaErr c.fn) dmaError
      | some t =>
        if tablesOk t then .done (s.setStr (u8 b 0) { s.str (u8 b 0) with tablesNext := some t }) []
        else .fail (badParam 8)

def execBatLoadTables (p : Nat) (s : State) : Res := .next (runPage 0x0C02 batTablesBody p s)

def batLevelsCheck (c : Cmd) (_ : State) : Check :=
  let b := c.block
  allOf [inRange (u8 b 0) 0 3 0, inRange (u8 b 1) 2 100 1, need (1 ≤ u8 b 2 && u8 b 2 < u8 b 1) (badParam 2),
    need (u8 b 3 < u8 b 2) (badParam 3), inRange (u8 b 4) 0 10 4, inRange (u8 b 5) 0 50 5, inRange (u16 b 6) 0 5000 6]

def execBatSetLevels (p : Nat) (s : State) : Res :=
  .next (runPage 0x0C03 (plainPage batLevelsCheck fun c s =>
    (s.setStr (u8 c.block 0) { s.str (u8 c.block 0) with levelsNext := some c.block }, [])) p s)

def execBatSetReport (p : Nat) (s : State) : Res :=
  .next (runPage 0x0C04 (plainPage (fun c _ =>
      allOf [inRange (u16 c.block 0) 0 3600 0, reserved c.block 2 2, inRange (u32 c.block 4) 1 1000000 4])
    fun c s => (s.modSable fun x => { x with reportNext := some c.block }, [])) p s)

/-- BAT_SET_SOC: soc and fcc_mah are checked where they are used (log entry 29). -/
def batSocCheck (c : Cmd) (s : State) : Check :=
  let b := c.block
  let n := u8 b 0
  let d := s.nextDesign n
  allOf [need (n ≤ 3 && s.nextEn n) (badParam 0), inRange (u8 b 1) 1 3 1,
    need ((u8 b 1).testBit 0 = false || u16 b 2 ≤ 10000) (badParam 2),
    need ((u8 b 1).testBit 1 = false || (d * 50 ≤ u32 b 4 * 100 && u32 b 4 * 100 ≤ d * 110)) (badParam 4)]

def execBatSetSoc (p : Nat) (s : State) : Res :=
  .next (runPage 0x0C05 (plainPage batSocCheck fun c s =>
    (s.setStr (u8 c.block 0) { s.str (u8 c.block 0) with socNext := some c.block }, [])) p s)

def execBatGetStatus (p : Nat) (s : State) : Res :=
  .next (runPage 0x0C06 (plainPage (fun _ _ => .ok ()) fun _ s => (s, s.batteryBody 0)) p s)

end Sys2Proof.Machine
end

