-- ==== Sys2Proof/Machine/Ivory.lean ====
section
/-! DEFINITION. Ivory's domains and states (16 R302 to R315): taking a domain down and bringing it up, entering a state,
aborts and wakes, and the 0x0B pages that act on them. -/

namespace Sys2Proof.Machine

def State.modIvory (s : State) (f : Ivory → Ivory) : State := { s with ivory := f s.ivory }

/-! ## What a domain's power-down does to its block -/

/-- 03 Power-down of EVT_B: events pass to Cobalt while COB is powered and are dropped otherwise; the open block closes,
and a GAP of reason PORT_STOPPED is staged. -/
def State.portDown (s : State) (p : Nat) : State :=
  if s.portOwner p = noOwner ∨ !s.regBit R.OCH_CTRL p then s
  else
    let n := (s.port p).fifo.length
    let t := if s.domUp dCOB then forEach (List.range n) (fun _ u => u.grantEvent p) s
      else if n = 0 then s
      else (s.setPort p { s.port p with fifo := [] }).portDrop p 0x04 n 0 s.tickStamp
    let t := ((t.boundary p).stopPort p).closeGap p
    t.setPort p { t.port p with map := [] }

/-- 02 R42: a power state that takes HOSTETH down while the reference is PTP. -/
def State.hostethDown (s : State) : State := if s.reference = 1 then s.settleClock.enterHoldover else s

/-- What a block does while its domain drains, and what it loses. -/
def State.blockDown (s : State) (d : Nat) : State :=
  if d = dCTL then s.carmDown
  else if d = dEVTA then forEach [0, 1] (fun p t => t.portDown p) s
  else if d = dEVTB then forEach [2, 3, 4, 5, 6, 7] (fun p t => t.portDown p) s
  else if d = dCOB then s.cobDown
  else if d = dSEP then s.sepDown
  else if d = dUMB then s.umbDown
  else if d = dVIR then s.virDown
  else if d = dFAB then (s.slateDown).loseMem (sramBase + 0x400000) 0xC00000
  else if d = dHOSTETH then s.hostethDown
  else if d = dTEAL then s.tealDown
  else if dIDG0 ≤ d ∧ d < dIDG0 + 4 then (s.quadLost d).loseMem (0x40000000 + (d - dIDG0) * 0x800000) 0x800000
  else s

/-- 12 R240: armed shadows of the domain apply at the drain. -/
def State.applyArmedIn (s : State) (d : Nat) : State :=
  (((s.host.armed.map fun a => a.elem).filter fun e => e.domain = d).foldl fun t e => t.applyNow e) s

/-- 16 R303 steps 3 and 4: the drain is over; isolation engages and power drops. -/
def State.powerOff (s : State) (d : Nat) : State :=
  (((s.blockDown d).applyArmedIn d).setDom d false).setGate d true true

/-- A run in flight on a quad. -/
def State.quadBusy (s : State) (d : Nat) : Bool :=
  s.indigo.inflight.any fun r => match s.bind? r.binding with | some x => (quadsOf x.tiles).contains d | none => false

/-- A domain powered up with its parents and without a record of its own; VIR's rules open at their next boundary. -/
def State.powerOn (s : State) (d : Nat) : State :=
  if s.domUp d then s
  else
    let t := forEach (domParents d ++ [d]) (fun e t => (t.setDom e true).setGate e false false) s
    let t := if d = dVIR then t.wokeVir else t
    let t := if d = dHOSTETH ∧ t.reference = 1 then t.restartBmca else t
    t.modIvory fun i => { i with lastUse := i.lastUse.set d s.now }

/-- Set DOWN by POWER_SET_DOMAIN; a domain that R302 never takes down by command stays up. -/
def State.runDown (s : State) (d : Nat) : Bool := commandable d && s.regBit (R.IVR_DOMd_CFG d) 1

/-- 16 R309, R313: a domain that RUN powers without a request: it and its parents are not set DOWN, and it is FAST-START. -/
def State.fastStart (s : State) (d : Nat) : Bool :=
  !s.domOnDemand d && !s.runDown d && (domParents d).all fun e => !s.runDown e

/-! ## Choosing a state (16 R306, R312) -/

/-- Wake latency and break-even residency of a state, µs. -/
def stateFigures (k : Nat) : Nat × Nat := nth [(0, 0), (5, 20), (2000, 50000), (25000, 5000000)] k (0, 0)

/-- The latency budget: the least of the existing contexts. -/
def State.latBudget (s : State) : Nat := s.host.ctxs.foldl (fun n e => Nat.min n e.2.maxWake) 0xFFFFFFFF

/-- The lesser of two bounds; none is unbounded. -/
def minOpt : Option Nat → Option Nat → Option Nat
  | some a, some b => some (Nat.min a b)
  | some a, none => some a
  | none, b => b

def State.wakeTimer (s : State) : Option Nat := if s.reg64 R.IVR_WAKE_TIMER_LO = 0 then none else some (s.reg64 R.IVR_WAKE_TIMER_LO)

/-- Expected residency in µs. -/
def State.residency (s : State) : Option Nat :=
  minOpt (if s.reg R.IVR_EXP_RES_MS = 0 then none else some (s.regN R.IVR_EXP_RES_MS * 1000))
    (s.wakeTimer.map fun t => (t - s.now) / 1000)

/-- 16 R310: steady times at which internal timers fall due: the decay tick, windows, the angle tick, block timeouts, the
budget window boundary. -/
def State.timers (s : State) : List Nat :=
  let n := s.regN R.SEP_TICK_US * 1000
  (if s.domUp dSEP ∧ n ≠ 0 then [(s.sepia.lastTick / n + 1) * n] else []) ++
  (if s.domUp dVIR then s.viridian.rules.flatMap fun e =>
    (if s.ruleEn e.1 && s.rulePeriodic e.1 then [e.2.nextOpen] else []) ++ e.2.windows.map fun w => w.endT else []) ++
  (if s.domUp dCOB then [s.cobalt.lastUpdate + 1000000] else []) ++
  ((below 8 fun p => s.portReceives p).map fun p => (s.port p).timer + s.regN (R.OCH_Pn_BLOCK_TMO p) * 1000) ++
  [s.ivory.windowAt + 10000000]

/-- An internal timer is due. -/
def State.timerDue (s : State) : Bool := s.timers.any fun t => t ≤ s.now

/-- A state's wake latency and break-even residency fit. -/
def State.stateFits (s : State) (k : Nat) : Bool :=
  let f := stateFigures k
  let r := if k = 1 then s.timers.foldl (fun r t => minOpt r (some ((t - s.now) / 1000))) s.residency else s.residency
  f.1 ≤ s.latBudget && (match r with | none => true | some r => f.2 ≤ r)

/-- The deepest state, at most the ceiling, that fits. -/
def State.chooseState (s : State) (ok : Nat → Bool) : Nat → Nat
  | 0 => 0
  | k + 1 => if ok (k + 1) && s.stateFits (k + 1) then k + 1 else s.chooseState ok k

/-- 16 R311: HIBERNATE without self-refresh needs a DRAM that holds nothing. -/
def State.dramFree (s : State) (k : Nat) : Bool := k ≠ 3 || s.regBit R.IVR_REQ 4 || s.host.dram.isEmpty

/-- No command is latched on any function. -/
def State.noLatch (s : State) : Bool :=
  s.host.eth.latch.isNone && s.host.fns.all fun e => e.2.latch.isNone && e.2.orphans.isEmpty

/-- 10 R215: HOSTETH may go down. -/
def State.hostethMay (s : State) : Bool := !s.regBit R.HIF_LINK 0 && !s.ethOn

/-! ## Entering a state (16 R307, R308) -/

/-- The order of R307. -/
def downOrder : List Nat := [15, 8, 9, 10, 11, 7, 5, 4, 6, 3, 14, 13, 12, 2, 1]

/-- Domains that a state keeps. A forced SENTINEL keeps HOSTETH with FAB where R215 does not allow it to go, and FAB where
14 R276 does not. -/
def State.keeps (s : State) (k d : Nat) (forced : Bool) : Bool :=
  (k = 2 && (d = dCTL || d = dEVTA)) ||
  (forced && ((d = dHOSTETH && !s.hostethMay) || (d = dFAB && (!s.hostethMay || !s.fabIdle))))

/-- The record of an entry. -/
def State.entryRecord (s : State) (toState outcome cause : Nat) (wake : Option Nat) (before : BitVec 16) (t : Stamp) : State :=
  s.emitPower
    { kind := 0, fromState := s.ivory.state, toState := toState, outcome := outcome, fromPoint := s.arrayPoint,
      toPoint := s.arrayPoint, cause := cause, wake := wake.getD 0xFFFF, before := before, start := t }

/-! ## Waking (16 R309 to R311) -/

/-- The lower 512 KiB of bank 0: the resume image. -/
def State.resumeImage (s : State) : Bytes := sha384 (readBytes s.mem sramBase 0x80000)

/-- Domains that a wake powers, in the reverse of the order of R307. -/
def State.wakeDomains (s : State) : State :=
  downOrder.reverse.foldl (fun t d => if t.fastStart d then t.powerOn d else t) s

/-- 16 R311: a resume image that fails its check leads to a full boot and BOOT_FALLBACK. -/
def State.failedResume (s : State) : State := s.warmReset.raiseFault 6 2

/-- The device returns to RUN: FAST-START domains up, latched edges replayed where the filter clock had stopped (15 R283,
R284: SENTINEL does not stop it), what Sable latched told, the armed request ended; with the link in L2, PCIE_WAKE_N goes low
(19 R369). -/
def State.wake (s : State) (src cause : Nat) : State :=
  let i := s.ivory
  if i.state = 0 then s
  else if i.state = 3 ∧ i.resume ≠ some s.resumeImage then s.failedResume
  else
    let t := if i.state = 1 then s else s.wakeDomains
    let t := t.modIvory fun i => { i with state := 0, forced := false, armedCeiling := none, resume := none }
    let t := t.modSys fun y => { y with wakeLow := y.wakeLow || (2 ≤ i.state && !s.regBit R.HIF_LINK 0) }
    let t := (if i.state = 2 then t else t.replayLatches).wakeBattery
    (t.emitPower
      { kind := 1, fromState := i.state, toState := 0, outcome := 0, fromPoint := t.arrayPoint, toPoint := t.arrayPoint,
        cause := cause, wake := src, before := s.domMask, start := s.tickStamp }).assertSource 384

/-- The gates that an entry closed reopen, the device stays in RUN, source 385 asserts. -/
def State.abortEntry (s : State) (x : Transition) (src : Nat) : State :=
  let t := forEach x.todo (fun d t => t.setRegFld R.IVR_GATE_CLOSED d d 0) s
  let t := t.modIvory fun i => { i with trans := none, forced := false, armedCeiling := none, draining := i.draining.filter fun e => x.todo.head? ≠ some e.1 }
  (t.entryRecord x.toState 1 x.cause (some src) x.before x.stamp).assertSource 385

/-- A wake event: an entry not yet past the point of no return aborts, a later one completes and wakes at once, and a
sleeping device wakes. -/
def State.wakeEvent (s : State) (src cause : Nat) : State :=
  match s.ivory.trans with
  | some x =>
    if x.pnr then s.modIvory fun i => { i with trans := some { x with wake := some (x.wake.getD src) } }
    else s.abortEntry x src
  | none => s.wake src cause

/-- DRAM without self-refresh loses its contents (16 R307, R311, 19 R369, log entry 24). -/
def State.dramAsleep (s : State) : State := if s.regBit R.IVR_REQ 4 then s else s.loseMem dramBase 0x800000000

/-- 16 R311, 18 R350: HIBERNATE keeps the resume image and ends a debug session. -/
def State.hibernated (s : State) : State :=
  (s.modIvory fun i => { i with resume := some s.resumeImage }).setReg R.FLT_DEBUG 0

/-- The last domain is down: the state is entered, and an event that came past the point of no return wakes at once. -/
def State.finishEntry (s : State) (x : Transition) : State :=
  let t := s.entryRecord x.toState (if x.wake.isSome then 2 else 0) x.cause x.wake x.before x.stamp
  let t := t.modIvory fun i => { i with state := x.toState, trans := none }
  let t := t.dramAsleep
  let t := if x.toState = 3 then t.hibernated else t
  let t := t.assertSource 384
  match x.wake with
  | some w => (t.assertSource 386).wake w 3
  | none => t

/-- The gate of the next domain of an entry closes; that of FAB only under 14 R276. -/
def State.closeGate (s : State) (d : Nat) : State :=
  if d = dFAB ∧ !s.fabIdle then s else s.setRegFld R.IVR_GATE_CLOSED d d 1

/-- The entry of a state begins: DOZE is entered at once; for the others pending runs end INTERRUPTED and the first
domain's gate closes. -/
def State.enterState (s : State) (k cause : Nat) (forced : Bool) : State :=
  if k = 1 then
    ((s.entryRecord 1 0 cause none s.domMask s.tickStamp).modIvory fun i => { i with state := 1 }).assertSource 384
  else
    let t := s.endPending (fun _ => true) 4
    let todo := downOrder.filter fun d => t.domUp d && !t.keeps k d forced
    let t := t.modIvory fun i => { i with
      forced := forced, trans := some ⟨k, s.tickStamp, s.domMask, todo, false, none, cause⟩ }
    match todo with
    | d :: _ => t.closeGate d
    | [] => t.finishEntry ⟨k, s.tickStamp, s.domMask, [], true, none, cause⟩

/-- A domain of the entry is off: the next gate closes, or the state is entered. -/
def State.advanceEntry (s : State) (x : Transition) : State :=
  match x.todo with
  | _ :: d :: ds =>
    (s.modIvory fun i => { i with trans := some { x with todo := d :: ds, pnr := true } }).closeGate d
  | _ => s.finishEntry { x with pnr := true }

/-! ## Taking a domain down in RUN (16 R303) -/

/-- The DOMAIN_DOWN record. -/
def State.downRecord (s : State) (before : BitVec 16) (t : Stamp) (cause : Nat) : State :=
  s.emitPower
    { kind := 3, fromState := s.ivory.state, toState := s.ivory.state, outcome := 0, fromPoint := s.arrayPoint,
      toPoint := s.arrayPoint, cause := cause, wake := 0xFFFF, before := before, start := t }

/-- The domain and its children that are up, children first. -/
def State.downList (s : State) (d : Nat) : List Nat := (domChildren d).filter s.domUp ++ [d]

/-- A domain is gated and, with nothing to drain, taken off; runs in flight on a quad are drained first. -/
def State.takeDown (s : State) (d cause : Nat) : State :=
  if !s.domUp d then s
  else if s.quadBusy d then
    (s.modIvory fun i => { i with draining := i.draining.set d (s.tickStamp, cause) }).setRegFld R.IVR_GATE_CLOSED d d 1
  else ((s.downList d).foldl (fun t e => t.powerOff e) s).downRecord s.domMask s.tickStamp cause

/-- A path whose POWER_SET_DOMAIN waits for a domain goes on. -/
def State.resumeDomain (s : State) (d : Nat) : State :=
  [0, ethPath].foldl (fun t p => match t.latch p with
    | some l => if l.stage = .yielded ∧ l.cmd.opcode = 0x0B02 ∧ u8 l.cmd.block 0 = d then t.toStage p (.resumed (some [])) else t
    | none => t) s

/-- A wake that waited for the end of a power-down follows at once. -/
def State.wakeWaiting (s : State) (d : Nat) : State :=
  if s.ivory.wakeAfter.contains d then
    (s.modIvory fun i => { i with wakeAfter := i.wakeAfter.filter fun e => e ≠ d }).touch d
  else s

/-- DOMAIN_DRAIN_DONE: the drain ends once nothing is in flight. -/
def execDomainDrainDone (d : Nat) (s : State) : Res :=
  .next (match s.ivory.draining.get? d with
    | some (t, cause) =>
      if s.quadBusy d then s
      else
        let u := (s.modIvory fun i => { i with draining := i.draining.erase d }).powerOff d
        let v := ((u.downRecord s.domMask t cause).resumeDomain d).wakeWaiting d
        match s.ivory.trans with
        | some x => if x.todo.head? = some d then u.advanceEntry x
          else v.modIvory fun i => { i with trans := some { x with todo := x.todo.filter fun e => e ≠ d } }
        | none => v
    | none => s)

/-- DOMAIN_POWER_DOWN: the next domain of an entry, or in RUN a domain set DOWN that is up. The FAB gate closes only under
14 R276. -/
def execDomainPowerDown (d : Nat) (s : State) : Res :=
  .next (match s.ivory.trans with
    | some x =>
      if x.todo.head? ≠ some d ∨ (s.ivory.draining.get? d).isSome ∨ (d = dFAB ∧ !s.fabIdle) then s
      else if s.quadBusy d then s.modIvory fun i => { i with draining := i.draining.set d (s.tickStamp, x.cause) }
      else (s.powerOff d).advanceEntry x
    | none => if s.ivory.state = 0 ∧ s.runDown d ∧ (s.ivory.draining.get? d).isNone then s.takeDown d 6 else s)

/-- DOMAIN_POWER_UP: in RUN, a domain that RUN powers and that is down. -/
def execDomainPowerUp (d : Nat) (s : State) : Res :=
  .next (if d < 16 ∧ s.ivory.state = 0 ∧ s.ivory.trans.isNone ∧ !s.domUp d ∧ s.fastStart d then
    (s.powerOn d).emitPower
      { kind := 4, fromState := 0, toState := 0, outcome := 0, fromPoint := s.arrayPoint, toPoint := s.arrayPoint, cause := 6,
        wake := 0xFFFF, before := s.domMask, start := s.tickStamp }
    else s)

/-- DOMAIN_IDLE_TIMEOUT (16 R313): an ON-DEMAND domain without a powered child has been idle for idle_down_us. -/
def execDomainIdleTimeout (d : Nat) (s : State) : Res :=
  let us := s.regFld (R.IVR_DOMd_CFG d) 31 8
  .next (if d < 16 ∧ s.ivory.state = 0 ∧ s.ivory.trans.isNone ∧ s.domOnDemand d ∧ s.domUp d ∧ us ≠ 0 ∧ !s.quadBusy d ∧
      (s.downList d).length = 1 ∧ (s.ivory.draining.get? d).isNone ∧ s.ivory.lastUse.getD d 0 + us * 1000 ≤ s.now then
    s.takeDown d 1
  else s)

/-- A request to a closed ON-DEMAND domain (16 R303, R310, R315): in a forced SENTINEL it wakes nothing; at a gate that
still drains the wake follows the power-down; otherwise the device leaves DOZE or SENTINEL and the domain wakes. -/
def State.demand (s : State) (d : Nat) : State :=
  if 16 ≤ d ∨ !s.domOnDemand d ∨ s.ivory.forced ∨ s.ivory.state = 3 then s
  else if (s.ivory.draining.get? d).isSome then
    s.modIvory fun i => { i with wakeAfter := if i.wakeAfter.contains d then i.wakeAfter else i.wakeAfter ++ [d] }
  else
    let t := s.wakeEvent 0xFFFF 5
    if t.ivory.trans.isSome then t else t.touch d

/-- ON_DEMAND_ACCESS. -/
def execOnDemandAccess (d : Nat) (s : State) : Res := .next (s.demand d)

/-! ## Entries and wakes -/

/-- STATE_ENTRY (16 R314): the armed request enters the state that R312 chooses once every condition holds. -/
def execStateEntry (s : State) : Res :=
  .next (match s.ivory.armedCeiling, s.ivory.trans with
    | some c, none =>
      let k := s.chooseState s.dramFree c
      if s.ivory.state = 0 ∧ k ≠ 0 ∧ s.noLatch ∧ (k = 1 ∨ (s.hostethMay ∧ s.fabIdle)) ∧ s.ivory.draining = [] then
        s.enterState k 0 false
      else s
    | _, _ => s)

/-- AUTO_DOZE (16 R313): the idleness of the processors and of DMA for doze_idle_us is the event; the rest is judged here. -/
def execAutoDoze (s : State) : Res :=
  .next (if s.ivory.state = 0 ∧ s.ivory.trans.isNone ∧ s.regBit R.IVR_REQ 2 ∧ s.noLatch ∧ s.stateFits 1 ∧
      (List.range 5).all (fun t => (s.tgt t).stack.isEmpty && (s.tgt t).prov.isNone) then
    s.enterState 1 1 false
  else s)

/-- A source may wake the device (16 R310, 15 R299): a Carmine source with WAKE that is pending or latched, the host link,
and in DOZE data at a link-clocked front end (0xFFFF). -/
def State.mayWake (s : State) (src : Nat) : Bool :=
  if src < 544 then s.wakes src && (s.srcRaised src || (s.src src).latched)
  else src = 0x401 || (src = 0xFFFF && s.ivory.state = 1)

/-- WAKE_EVENT. -/
def execWakeEvent (src : Nat) (s : State) : Res := .next (if s.mayWake src then s.wakeEvent src 3 else s)

/-- WAKE_TIMER: the timer is reached; it fires once (log entry 24). -/
def execWakeTimer (s : State) : Res :=
  .next (match s.wakeTimer with
    | some t => if t ≤ s.now then (s.setReg64 R.IVR_WAKE_TIMER_LO 0).wakeEvent 0x400 3 else s
    | none => s)

/-! ## Command pages -/

/-- POWER_GET_STATUS. -/
def State.powerStatus (s : State) : Bytes :=
  leBytes 1 s.ivory.state ++ leBytes 1 s.arrayPoint ++
  leBytes 1 (b2n s.ivory.forced + 2 * b2n s.ivory.safetyOnly + 4 * b2n s.sable.onBattery) ++
  leBytes 1 (s.ivory.armedCeiling.getD 0xFF) ++ leBytes 2 s.domMask.toNat ++
  leBytes 2 ((List.range 16).foldl (fun n d => n + b2n (s.domOnDemand d) * 2 ^ d) 0) ++
  leBytes 2 (s.regFld R.IVR_TJ 15 0) ++ leBytes 2 0 ++ leBytes 4 s.latBudget ++ leBytes 4 (s.regN R.IVR_BUDGET_UJ) ++
  leBytes 4 (s.regN R.IVR_CHARGED_UJ) ++ leBytes 4 (s.regN R.IVR_WINDOW_SEQ) ++
  ((List.range 4).flatMap fun i => leBytes 4 (s.regN (R.IVR_SHED + 4 * i))) ++ leBytes 4 0 ++
  ((List.range 4).flatMap fun i => leBytes 8 (s.reg64 (R.IVR_RES_STATE + 8 * i))) ++
  ((List.range 8).flatMap fun i => leBytes 8 (s.reg64 (R.IVR_RES_PT + 8 * i))) ++ leBytes 16 0

def execPowerGetStatus (p : Nat) (s : State) : Res :=
  .next (runPage 0x0B01 (plainPage (fun _ _ => .ok ()) fun _ s => (s, s.powerStatus)) p s)

/-- The domain, a parent or a child is in transition. -/
def State.inTransition (s : State) (d : Nat) : Bool :=
  s.ivory.trans.isSome || (d :: domParents d ++ domChildren d).any fun e => (s.ivory.draining.get? e).isSome

def setDomainCheck (c : Cmd) (s : State) : Check :=
  let b := c.block
  let d := u8 b 0
  allOf [need (commandable d) (badParam 0), inRange (u8 b 1) 0 1 1, inRange (u8 b 2) 0 1 2, reserved b 3 1,
    inRange (u32 b 4) 0 10000000 4, need (!s.inTransition d) busy]

/-- UP: parents that were set DOWN are UP with the domain; its FAST-START children return with it. -/
def State.bringUp (s : State) (d : Nat) : State :=
  let t := forEach (domParents d) (fun e u => u.setRegFld (R.IVR_DOMd_CFG e) 1 1 0) s
  if s.ivory.state ≠ 0 then t
  else
    let t := t.powerUp d 6
    forEach ((domChildren d).filter t.fastStart) (fun e u => u.powerUp e 6) t

/-- POWER_SET_DOMAIN: a quad with runs in flight completes after its drain. -/
def setDomainBody : PageBody := fun c d s =>
  let b := c.block
  let n := u8 b 0
  match d with
  | some _ => .done s []
  | none => match setDomainCheck c s with
    | .error e => .fail e
    | .ok _ =>
      let t := s.setReg (R.IVR_DOMd_CFG n) (w32 (u8 b 1 + u8 b 2 * 2 + u32 b 4 * 0x100))
      if u8 b 2 = 0 then .done (t.bringUp n) []
      else
        let u := t.takeDown n 6
        if (u.ivory.draining.get? n).isSome then .wait u else .done u []

def execPowerSetDomain (p : Nat) (s : State) : Res := .next (runPage 0x0B02 setDomainBody p s)

/-- POWER_REQUEST_STATE: the state that R312 chooses now; its setting takes effect after the response. -/
def requestStateBody : PageBody := fun c _ s =>
  let b := c.block
  let k := (s.armPower b).chooseState (fun _ => true) (u8 b 0)
  match allOf [inRange (u8 b 0) 0 3 0, inRange (u8 b 1) 0 1 1, inRange (u8 b 2) 0 1 2, reserved b 3 1,
      inRange (u32 b 8) 0 86400000 8, inRange (u32 b 0x0C) 10 10000 0x0C,
      need (k ≠ 3 || u8 b 1 = 1 || s.host.dram.isEmpty) busy] with
  | .error e => .fail e
  | .ok _ => .done s (leBytes 1 k ++ leBytes 3 0)

def execPowerRequestState (p : Nat) (s : State) : Res := .next (runPage 0x0B03 requestStateBody p s)

/-- POWER_SET_LATENCY. -/
def execPowerSetLatency (p : Nat) (s : State) : Res :=
  .next (runPage 0x0B04 (plainPage (fun _ _ => .ok ()) fun c s =>
    (match s.ctx? c.ctx with
      | some x => s.setCtx c.ctx { x with maxWake := u32 c.block 0 }
      | none => s, [])) p s)

end Sys2Proof.Machine
end

