-- ==== Sys2Proof/Machine/Sched.lean ====
section
/-! DEFINITION. Thermal control, performance points and the energy-coupled scheduler (16 R316 to R322), with the 0x0B pages
that set them. -/

namespace Sys2Proof.Machine

/-! ## Points (08 R164, 09 R176, 16 R316) -/

/-- VDD_IDG of a point in mV. -/
def pointMv (p : Nat) : Nat := nth [800, 720, 660, 600, 736, 662, 607, 552] p 0

/-- Array power of a point in µW. -/
def pointUw (p : Nat) : Nat := nth [14000, 9100, 6400, 3900] (p % 4) 0 * (if p < 4 then 1000 else 846)

/-- Points by falling frequency, the P-point before the S-point of its frequency (log entry 24). -/
def pointOrder : List Nat := [0, 4, 1, 5, 2, 6, 3, 7]

/-- 16 R322: the allowed set by falling frequency. R317 alone can leave it empty: P1 then (log entry 24). -/
def State.allowed (s : State) : List Nat :=
  let l := pointOrder.filter fun p => (s.regFld R.IVR_SCHED_CFG 15 8).testBit p && (p < 4 || s.regBit R.IDG_APX_CTRL 1) &&
    !(p % 4 = 0 && s.ivory.p0Removed)
  if l.isEmpty then [1] else l

/-- The last VOUT, mV. -/
def State.setVout (s : State) (mv : Nat) : State := s.setRegFld R.IVR_PT_STATUS 31 16 mv

/-- A write of VDD_IDG over PMBus. -/
def State.writeVout (s : State) (mv : Nat) : State := (s.send (.vout mv)).setVout mv

/-- CLK_IDG switched to a point: the waves so far belong to the point before; source 390 and a POINT_CHANGE record. -/
def State.switchPoint (s : State) (p cause : Nat) (start : Stamp) : State :=
  ((s.progress.setReg R.IDG_POINT (w32 p)).noteLive.emitPower
    { kind := 2, fromState := s.ivory.state, toState := s.ivory.state, outcome := 0, fromPoint := s.arrayPoint,
      toPoint := p, cause := cause, wake := 0xFFFF, before := s.domMask, start := start }).assertSource 390

/-- The voltage leads: the frequency rises, or the same frequency needs a higher voltage. -/
def risesTo (q p : Nat) : Bool := pointMhz q < pointMhz p || (pointMhz q = pointMhz p && pointMv q < pointMv p)

/-- A change of the array's point. A rise waits for the regulator; a fall switches first. A rise that was waiting ends. -/
def State.changePoint (s : State) (p cause : Nat) : State :=
  let q := s.arrayPoint
  let idle := fun (t : State) => (t.setRegFld R.IVR_PT_STATUS 0 0 0).modIvory fun i => { i with raising := none }
  if p = q then (if s.ivory.raising.isSome then idle (s.writeVout (pointMv q)) else s)
  else if risesTo q p then
    match s.ivory.raising with
    | some (k, _, _) => if k = p then s
      else ((s.writeVout (pointMv p)).setRegFld R.IVR_PT_STATUS 0 0 0).modIvory fun i => { i with raising := some (p, pointMv p, s.now) }
    | none => (s.writeVout (pointMv p)).modIvory fun i => { i with raising := some (p, pointMv p, s.now) }
  else (idle (s.switchPoint p cause s.tickStamp)).writeVout (pointMv p)

/-- VOUT_READBACK: within 10 mV of the target the frequency switches at the tiles' next wave boundary; a PMBus error is
shown with source 396. -/
def execVoutReadback (mv : Nat) (pmbErr : Bool) (s : State) : Res :=
  .next (match s.ivory.raising with
    | some (p, target, at') =>
      if pmbErr then (s.setRegFld R.IVR_PT_STATUS 1 1 1).assertSource 396
      else
        let t := s.setVout mv
        if target ≤ mv + 10 ∧ mv ≤ target + 10 then
          ((t.setRegFld R.IVR_PT_STATUS 0 0 0).modIvory fun i => { i with raising := none }).switchPoint p 4
            (t.tickStamp.shift (-((t.now - at' : Nat) : Int)))
        else t
    | none => s)

/-- REGULATOR_TIMEOUT: 1 ms after the write; the array stays at its frequency. -/
def execRegulatorTimeout (s : State) : Res :=
  .next (match s.ivory.raising with
    | some (_, _, at') =>
      if at' + 1000000 ≤ s.now ∧ !s.regBit R.IVR_PT_STATUS 0 then (s.setRegFld R.IVR_PT_STATUS 0 0 1).assertSource 396 else s
    | none => s)

/-! ## Thermal control (16 R315, R317, R318) -/

/-- Tj in 0.125 °C. -/
def State.tj (s : State) : Int := sext 16 (s.regN R.IVR_TJ)

/-- A threshold in 0.125 °C: 0 THROTTLE, 1 SHED, 2 TRIP. -/
def State.therm (s : State) (k : Nat) : Int := (s.regFld R.IVR_THERM_THR (8 * k + 7) (8 * k) * 8 : Nat)

/-- SAFETY runs only, at T_SHED; THERM_N follows. -/
def State.judgeShed (s : State) : State :=
  let set := fun (b : Bool) =>
    ((s.modIvory fun i => { i with safetyOnly := b }).modSys fun y => { y with thermLow := b }).assertSource 388
  if !s.ivory.safetyOnly && s.therm 1 ≤ s.tj then set true
  else if s.ivory.safetyOnly && s.tj < s.therm 1 - 40 then set false
  else s

/-- 16 R317: on grade X, P0 and S0 leave the allowed set above 110 °C and return below 105 °C. -/
def State.judgeP0 (s : State) : State :=
  if !s.board.gradeX then s
  else if !s.ivory.p0Removed && 880 < s.tj then
    let t := (s.modIvory fun i => { i with p0Removed := true }).assertSource 395
    let t := match t.ivory.raising with
      | some (p, _, _) => if p % 4 = 0 then t.changePoint t.arrayPoint 2 else t
      | none => t
    if t.arrayPoint % 4 = 0 then t.changePoint (t.arrayPoint + 1) 2 else t
  else if s.ivory.p0Removed && s.tj < 840 then s.modIvory fun i => { i with p0Removed := false }
  else s

/-- 16 R315: the forced SENTINEL and its release. -/
def State.judgeTrip (s : State) : State :=
  if s.therm 2 ≤ s.tj ∧ s.ivory.state ≤ 1 ∧ s.ivory.trans.isNone then (s.assertSource 389).enterState 2 2 true
  else if s.ivory.forced ∧ s.tj < s.therm 2 - 80 then s.wakeEvent 0x402 3
  else s

/-- THERMAL_TRIP is raised as the forced SENTINEL is entered (18 R343). -/
def State.tripFault (s : State) (was : State) : State :=
  if s.ivory.forced ∧ !was.ivory.forced then s.raiseFault 9 0 (args := [w32 (wrapBits 32 was.tj)]) else s

/-- Staged thresholds hold from a sample on. -/
def State.takeTherm (s : State) : State :=
  match s.ivory.thermNext with
  | some v => (s.setReg R.IVR_THERM_THR v).modIvory fun i => { i with thermNext := none }
  | none => s

/-- A sample shown, and source 387 where it crosses the first threshold. -/
def State.showTj (s : State) (tj : Int) (wasHot : Bool) : State :=
  let t := s.setReg R.IVR_TJ (w32 (wrapBits 16 (clampI (-32768) 32767 tj)))
  t.assertSourceIf (wasHot != decide (t.therm 0 ≤ t.tj)) 387

/-- TJ_SAMPLE, in 0.125 °C. -/
def execTjSample (tj : Int) (s : State) : Res :=
  .next (
    let t := (s.takeTherm.showTj tj (decide (s.therm 0 ≤ s.tj))).judgeShed.judgeP0
    t.judgeTrip.tripFault t)

/-! ## The window budget (16 R319) -/

/-- f × P_top × 10,000 in µJ, rounded down. -/
def State.thermalBudget (s : State) : Nat :=
  let span := (s.therm 1 - s.therm 0).toNat
  let left := Nat.min (s.therm 1 - s.tj).toNat span
  let top := pointUw (s.allowed.headD 1)
  if s.tj < s.therm 0 then top / 100 else if span = 0 then 0 else left * top / (span * 100)

/-- The battery budget in µJ, rounded down; it applies while the device runs from a battery string. -/
def State.batteryBudget (s : State) : Nat :=
  s.regN R.SBL_E_RES_J * 10000 / s.regN R.IVR_RUNTIME_S - s.regN R.IVR_BASE_LOAD_MW * 10

/-- B. -/
def State.windowBudget (s : State) : Nat :=
  let b := s.thermalBudget
  let b := if s.reg R.IVR_PWR_LIMIT = 0 then b else Nat.min b (s.regN R.IVR_PWR_LIMIT * 10)
  if s.sable.onBattery then Nat.min b s.batteryBudget else b

/-- The window's budget set; source 394 asserts once for each fall of the battery budget to zero. -/
def State.setBudget (s : State) : State :=
  let zero := s.sable.onBattery && s.batteryBudget = 0
  let t := (s.setReg R.IVR_BUDGET_UJ (w32 (Nat.min s.windowBudget 0xFFFFFFFF))).assertSourceIf (zero && !s.ivory.batteryZero) 394
  t.modIvory fun i => { i with batteryZero := zero }

/-! ## The choice of the point (16 R322) -/

/-- The charged runs of the previous window: their bindings and packages. -/
def State.demandRuns (s : State) : List (Bind × Model) :=
  s.ivory.prevRuns.filterMap fun b => match s.bind? b with
    | some x => (s.model? x.model).map fun m => (x, m)
    | none => none

/-- A point is feasible: the cycles of every tile within util_target_pct of 10 ms, and every run within its deadline. -/
def State.feasible (s : State) (l : List (Bind × Model)) (p : Nat) : Bool :=
  (List.range 16).all (fun t =>
    (l.filter fun e => e.1.tiles.toNat.testBit t).foldl (fun n e => n + e.2.cycles p) 0 ≤
      s.regFld R.IVR_SCHED_CFG 6 0 * 100 * pointMhz p) &&
  l.all fun e => e.1.deadline = 0 || e.2.cycles p ≤ e.1.deadline * pointMhz p

/-- Energy of the demand at a point, nJ. -/
def demandNj (l : List (Bind × Model)) (p : Nat) : Nat := l.foldl (fun n e => n + u32 e.2.header (0x40 + 8 * p)) 0

/-- The first of least energy. -/
def leastEnergy (l : List (Bind × Model)) : List Nat → Option Nat
  | [] => none
  | p :: ps => match leastEnergy l ps with
    | some q => if demandNj l p ≤ demandNj l q then some p else some q
    | none => some p

/-- The feasible point of least total energy, ties to the higher frequency; without one the highest allowed frequency. -/
def State.choosePoint (s : State) : Nat :=
  let l := s.demandRuns
  (leastEnergy l (s.allowed.filter fun p => s.feasible l p)).getD (s.allowed.headD 1)

/-! ## The boundary (16 R320, R321) -/

/-- Settings of SCHED_SET_BUDGET applied. -/
def State.applyBudget (s : State) (b : Bytes) : State :=
  let t := ((s.setReg R.IVR_PWR_LIMIT (w32 (u32 b 0))).setReg R.IVR_RUNTIME_S (w32 (u32 b 4))).setReg R.IVR_BASE_LOAD_MW
    (w32 (u32 b 8))
  (t.setReg R.IVR_SCHED_CFG (w32 (u32 b 0x0C))).setReg R.IVR_DEFER_B (w32 (u8 b 0x10))

/-- What waits for a window boundary: budgets, deadlines, SPEC_EN; demoted tiles return to the S-point (09 R179). -/
def State.boundarySettings (s : State) : State :=
  let t := match s.ivory.budgetNext with
    | some b => (s.applyBudget b).modIvory fun i => { i with budgetNext := none }
    | none => s
  let t := match t.indigo.specNext with
    | some v => t.setRegFld R.IDG_APX_CTRL 1 1 (b2n v)
    | none => t
  ((t.modIndigo fun i => { i with
    specNext := none
    binds := i.binds.map fun e => (e.1, { e.2 with deadline := e.2.deadlineNext.getD e.2.deadline, deadlineNext := none }) }).setReg
    R.IDG_APX_DEMOTED 0).noteLive

/-- max_defer of a class. -/
def State.maxDefer (s : State) (c : Nat) : Nat :=
  if c = 1 then s.regFld R.IVR_SCHED_CFG 23 16 else if c = 2 then s.regFld R.IVR_SCHED_CFG 31 24
  else s.regFld R.IVR_DEFER_B 7 0

/-- A waiting run that has waited through its boundaries. -/
def State.overdue (s : State) (r : Run) : Bool := !r.admitted && s.maxDefer (s.classOf r.binding) ≤ r.waited

/-- A run shed at a boundary, under the point of the window in which it waited (log entry 24). -/
def State.shedRun (s : State) (r : Run) (at' point : Nat) : State :=
  let c := s.classOf r.binding
  ((s.endRun r 1 at' point).bumpSat (R.IVR_SHED + 4 * (c - 1))).assertSource 391

/-- Overdue runs shed in trigger order; the others have waited one boundary more. -/
def State.shedOverdue (s : State) (at' : Nat) : State :=
  let point := s.idgPoint
  (s.indigo.pendingRuns.filter s.overdue).foldl (fun t r => t.shedRun r at' point)
    (s.modIndigo fun i => { i with
      pendingRuns := (i.pendingRuns.filter fun r => !s.overdue r).map fun r =>
        if r.admitted then r else { r with waited := r.waited + 1 } })

/-- The first run equal to one given admitted. -/
def admitFirst (r : Run) : List Run → List Run
  | [] => []
  | x :: xs => if x = r then { x with admitted := true } :: xs else x :: admitFirst r xs

/-- Waiting runs in class order and then trigger order: admitted until one fails, which every later one waits with. -/
def State.admitWaiting (s : State) : List Run → State
  | [] => s
  | r :: rs =>
    let cost := s.runCost r.binding
    if s.fits (s.classOf r.binding) cost then
      State.admitWaiting ((s.modIndigo fun i => { i with pendingRuns := admitFirst r i.pendingRuns }).charge r.binding cost) rs
    else s

def State.waitingRuns (s : State) : List Run :=
  (List.range 4).flatMap fun c => s.indigo.pendingRuns.filter fun r => !r.admitted && s.classOf r.binding = c

/-- BUDGET_WINDOW_BOUNDARY: a multiple of 10 ms is reached. Its tenth 1 ms window ends first (09 R179). -/
def workBudgetWindowBoundary (s : State) : Res :=
  .next (
    let at' := s.now / 10000000 * 10000000
    if at' ≤ s.ivory.windowAt then s
    else
      let t := (s.endWindow.progress.boundarySettings.modIvory fun i => { i with
        windowAt := at', prevCharged := i.charged, prevRuns := i.runs, charged := [0, 0, 0, 0], runs := [] })
      let t := ((t.bump R.IVR_WINDOW_SEQ).setReg R.IVR_CHARGED_UJ 0).shedOverdue at'
      let t := (t.changePoint t.choosePoint 4).setBudget
      t.admitWaiting t.waitingRuns)

/-! ## Command pages -/

def schedBudgetCheck (c : Cmd) (_ : State) : Check :=
  let b := c.block
  allOf [inRange (u32 b 0) 0 30000 0, inRange (u32 b 4) 60 604800 4, inRange (u32 b 8) 0 1000000 8,
    inRange (u8 b 0x0C) 10 100 0x0C, need (u8 b 0x0D % 16 ≠ 0) (badParam 0x0D), reserved b 0x11 3]

/-- SCHED_SET_BUDGET: from the next boundary. -/
def execSchedSetBudget (p : Nat) (s : State) : Res :=
  .next (runPage 0x0B05 (plainPage schedBudgetCheck fun c s =>
    (s.modIvory fun i => { i with budgetNext := some c.block }, [])) p s)

def schedThermalCheck (c : Cmd) (_ : State) : Check :=
  let b := c.block
  allOf [inRange (u8 b 0) 40 125 0, need (40 ≤ u8 b 1 && u8 b 1 ≤ 125 && u8 b 0 + 5 ≤ u8 b 1) (badParam 1),
    need (40 ≤ u8 b 2 && u8 b 2 ≤ 125 && u8 b 1 + 5 ≤ u8 b 2) (badParam 2), reserved b 3 1]

/-- SCHED_SET_THERMAL: from the next Tj sample. -/
def execSchedSetThermal (p : Nat) (s : State) : Res :=
  .next (runPage 0x0B06 (plainPage schedThermalCheck fun c s =>
    (s.modIvory fun i => { i with thermNext := some (w32 (u32 c.block 0 % 0x1000000)) }, [])) p s)

/-- SCHED_SET_BINDING: from the next boundary. -/
def execSchedSetBinding (p : Nat) (s : State) : Res :=
  .next (runPage 0x0B07 (plainPage
    (fun c s => allOf [bindAccess (u16 c.block 0) 0 c.ctx s, reserved c.block 2 2, inRange (u32 c.block 4) 0 10000000 4])
    (fun c s => (s.onBind (u16 c.block 0) fun x => { x with deadlineNext := some (u32 c.block 4) }, []))) p s)

end Sys2Proof.Machine
end

