-- ==== Sys2Proof/Machine/RegIO.lean ====
section
/-! DEFINITION. Registers and memories as an access meets them (00 R8, R9; 01 R16; 10 R190 to R192; 13 R247; 18 R348 to
R350): what each register reads, what a read clears, what a write does, and INTERNAL_ACCESS and REGISTER_WRITE. -/

namespace Sys2Proof.Machine

/-- The state that an outcome leaves; the given one where there is none. -/
def after (r : Res) (s : State) : State :=
  match r with
  | .next t => t
  | _ => s

/-! ## What a register reads (the register maps R50 to R353)

Registers that show what a block holds are computed here; every other reads as stored. -/

/-- A bitmap of 32 of 544 sources from word `k`. -/
def sourceBits (k : Nat) (p : Nat → Bool) : Word := w32 ((List.range 32).foldl (fun n i => n + b2n (p (32 * k + i)) * 2 ^ i) 0)

/-- STEP_PEND: a step waits for its tick, one of AMB_STEP_CMD or one of the servo (02 R39, R50). -/
def State.stepPending (s : State) : Bool :=
  s.amber.stepArmed || (!s.amber.servoDue && (match s.amber.servo with | some off => s.stepsBy off | none => false))

/-- 02 R50. -/
def State.viewAmber (s : State) (a : Nat) : Word :=
  if a = R.AMB_STATUS then
    w32 (s.clock.state.code + 4 * b2n (s.amber.slewQ ≠ 0) + 8 * b2n s.stepPending + s.clock.epoch.toNat * 65536)
  else if a = R.AMB_SLEW_REMAIN then w32 (wrapBits 32 (s.amber.slewQ.tdiv 65536))
  else if a = R.AMB_CAP_LEVEL then
    w32 ((s.capsOf 0).length + (s.capsOf 1).length * 0x100 + (s.capsOf 2).length * 0x10000)
  else s.reg a

/-- 03 R73. -/
def State.viewOchre (s : State) (a : Nat) : Word :=
  let p := (a - 0x20001000) / 0x100
  if 0x20001000 ≤ a ∧ p < 8 ∧ a = R.OCH_Pn_FIFO_LEVEL p then w32 (s.port p).fifo.length
  else if a = R.OCH_SBUS_STATUS then s.sbusStatus
  else s.reg a

/-- COB_Sn_STATUS (04 R89): revolutions done, a stack closing, host buffers held. -/
def State.stackStatus (s : State) (k : Nat) : Word :=
  let x := s.stk k
  w32 ((match x.cur with | some r => r.revs | none => 0) + 512 * b2n x.closing.isSome +
    1024 * s.regFld (R.COB_Sn_STATUS k) 13 10)

/-- 04 R89. -/
def State.viewCobalt (s : State) (a : Nat) : Word :=
  let k := (a - 0x20102000) / 0x40
  if a = R.COB_STATUS then w32 s.cobStatus
  else if 0x20102000 ≤ a ∧ k < 16 ∧ a = R.COB_Sn_STATUS k then s.stackStatus k
  else s.reg a

/-- A slot of the track table (05 register map): the entry at the last measurement, the creation time, the surface. -/
def State.trackSlot (s : State) (i : Nat) : Bytes :=
  match s.sepia.tracks.get? i with
  | some t => padTo 64 (t.entry i (t.x, t.y) ++ leBytes 8 t.created ++ leBytes 2 t.surface)
  | none => List.replicate 64 0

/-- 05 R106. -/
def State.viewSepia (s : State) (a : Nat) : Word :=
  if a = R.SEP_TRK_ACTIVE then w32 s.sepia.tracks.length
  else if a = R.SEP_CORNER_QLVL then w32 s.sepia.cornerQ.length
  else if a = R.SEP_FLOW_QLVL then w32 s.sepia.flowQ.length
  else if 0x20280000 ≤ a ∧ a < 0x202C0000 then w32 (u32 (s.trackSlot ((a - 0x20280000) / 64)) ((a - 0x20280000) % 64))
  else s.reg a

/-- UMB_LIB_ROM (06 R122): the coefficients of the library in ID order. -/
def libRom : List Int := library.flatMap fun f => f.coefs

/-- 06 R129, in a channel's block. -/
def State.viewChannel (s : State) (c off : Nat) : Word :=
  let m := wrapBits 48 (s.chan c).m
  if off = 0x14 ∨ off = 0x1C ∨ off = 0x24 ∨ off = 0x2C then w32 (nth (s.chan c).phases ((off - 0x14) / 8) 0)
  else if off = 0x34 then w32 m
  else if off = 0x38 then w32 (m / 0x100000000)
  else if off = 0x58 then w32 (s.preG c (s.chStages c))
  else s.reg (R.UMB_CHn_CFG c + off)

/-- 06 R129. -/
def State.viewUmber (s : State) (a : Nat) : Word :=
  if a = R.UMB_MAC_ALLOC then w32 s.macAlloc
  else if a = R.UMB_COEF_FREE then w32 s.coefFree
  else if a = R.UMB_Pn_BUF 0 ∨ a = R.UMB_Pn_BUF 1 ∨ a = R.UMB_Pn_BUF 2 ∨ a = R.UMB_Pn_BUF 3 then
    setFld (s.reg a) 6 0 (s.tdm ((a - R.UMB_Pn_CFG 0) / 0x40)).frames.length
  else if 0x20301000 ≤ a ∧ a < 0x20301000 + 0x80 * 40 then s.viewChannel ((a - 0x20301000) / 0x80) (a % 0x80)
  else if 0x203C0000 ≤ a then w32 (wrapBits 32 (nth libRom ((a - 0x203C0000) / 4) 0))
  else s.reg a

/-- 07 R147. -/
def State.viewViridian (s : State) (a : Nat) : Word :=
  let r := (a - 0x20401000) / 0x100
  if a < R.VIR_MAP_FREE then s.ruleEnWord ((a - R.VIR_RULE_EN) / 4)
  else if a = R.VIR_MAP_FREE then w32 s.mapFree
  else if a = R.VIR_ADMIT_QLVL then w32 s.admitLevel
  else if a < 0x20401000 ∨ 256 ≤ r then s.reg a
  else if a = R.VIR_Rn_OPEN r then w32 (s.rule r).windows.length
  else if a = R.VIR_Rn_NEXT_OPEN_LO r then w32 (s.ruleNext r)
  else if a = R.VIR_Rn_NEXT_OPEN_HI r then w32 (s.ruleNext r / 0x100000000)
  else s.reg a

/-- IDG_APX_Tn_STATE (09 R185): NOMINAL, SPECULATIVE at a speculative point, DEMOTED; TOLERANT layer running. -/
def State.tileState (s : State) (t : Nat) : Word :=
  let tol := s.indigo.inflight.any fun r => match s.bind? r.binding with
    | some x => x.tiles.toNat.testBit t && x.tolerant
    | none => false
  w32 ((if s.arrayPoint < 4 then 0 else if s.demoted t then 2 else 1) + 4 * b2n tol)

/-- IDG_APX_B_*: the binding that IDG_APX_BSEL names (09 R185); zero where there is none. -/
def State.viewSelected (s : State) (off : Nat) : Word :=
  let b := s.regFld R.IDG_APX_BSEL 8 0
  match s.bind? b with
  | none => 0
  | some x =>
    if off = 0x404 then w32 (b2n x.predEnable + 2 * b2n x.specAllow + x.refreshK * 0x100 + x.maxSkips * 0x10000)
    else if off = 0x408 then w32 (x.evWeight + x.l1Weight * 0x10000)
    else if off = 0x40C then w32 x.tSkip
    else if off = 0x410 then w32 x.tDelta
    else if off = 0x414 then w32 x.lastD
    else if off = 0x418 then w32 (x.skips % 256 + x.sinceFull % 256 * 0x100 + x.lastPath % 4 * 0x10000)
    else if off = 0x41C then w32 (s.modesAt b - sramBase)
    else if off = 0x420 then w32 x.full
    else if off = 0x424 then w32 x.delta
    else if off = 0x428 then w32 x.skip
    else w32 x.satfall

/-- 08 R167, 09 R185. -/
def State.viewIndigo (s : State) (a : Nat) : Word :=
  let b := (a - 0x20501000) / 0x40
  let t := (a - 0x20508100) / 0x20
  if R.IDG_APX_B_CFG ≤ a ∧ a ≤ R.IDG_APX_B_SATFALL then s.viewSelected (a - R.IDG_APX_CTRL)
  else if a = R.IDG_APX_DEMOTED then w32 ((List.range 16).foldl (fun n t => n + b2n (s.demoted t) * 2 ^ t) 0)
  else if 0x20508100 ≤ a ∧ t < 16 ∧ a = R.IDG_APX_Tn_STATE t then s.tileState t
  else if 0x20501000 ≤ a ∧ a = R.IDG_Bn_TILES b then setFld (s.reg a) 17 16 (s.pendingOf b)
  else if 0x20501000 ≤ a ∧ a = R.IDG_Bn_GEN b then
    match s.bind? b with
    | some x => w32 (s.elemGen x.ctx (idgElem b)).toNat
    | none => s.reg a
  else s.reg a

/-- 14 R278: the head mirror shows the oldest unconsumed descriptor. -/
def State.viewSlate (s : State) (a : Nat) : Word :=
  if 0x20620000 ≤ a ∧ a < 0x20640000 then
    match s.queue ((a - 0x20620000) / 0x20) with
    | d :: _ => w32 (u32 d.bytes (a % 0x20))
    | [] => 0
  else s.reg a

/-- 15 R300. -/
def State.viewCarmine (s : State) (a : Nat) : Word :=
  let t := (a - 0x20700400) / 0x40
  let n := (a - 0x20701000) / 0x10
  if R.CARM_RAW ≤ a ∧ a < R.CARM_RAW + 68 then sourceBits ((a - R.CARM_RAW) / 4) s.rawLine
  else if R.CARM_PEND ≤ a ∧ a < R.CARM_PEND + 68 then sourceBits ((a - R.CARM_PEND) / 4) s.srcPending
  else if R.CARM_ACTIVE ≤ a ∧ a < R.CARM_ACTIVE + 68 then
    sourceBits ((a - R.CARM_ACTIVE) / 4) fun n => (s.src n).active || (s.src n).relayed
  else if a = R.CARM_RELAY_WAIT then w32 s.relayWait
  else if 0x20700400 ≤ a ∧ t < 6 ∧ a = R.CARM_Tn_STACK t then w32 (s.stackReg t)
  else if 0x20701000 ≤ a ∧ n < 544 ∧ a = R.CARM_Sn_STATE n then w32 (s.srcState n)
  else if 0x20704000 ≤ a ∧ a < 0x20704000 + 4 * 544 then w32 (s.assertUs ((a - 0x20704000) / 4))
  else s.reg a

/-- 16 R326. -/
def State.viewIvory (s : State) (a : Nat) : Word :=
  if a = R.IVR_STATE then
    w32 (s.ivory.state + s.arrayPoint * 16 + 256 * b2n s.ivory.armedCeiling.isSome + 512 * b2n s.ivory.forced +
      1024 * b2n s.ivory.safetyOnly + 2048 * b2n s.sable.onBattery)
  else if a = R.IVR_LAT_BUDGET then w32 s.latBudget
  else s.reg a

/-- HIF_Fn_STATE (10 R216). -/
def State.fnState (s : State) (f : Nat) : Word :=
  w32 ((s.status f).toNat % 64 + (s.func f).dState % 4 * 64 + 256 * b2n (s.func f).bme + (s.func f).respSeq.toNat * 65536)

def State.viewHif (s : State) (a : Nat) : Word :=
  let f := (a - 0x20C01000) / 0x40
  if 0x20C01000 ≤ a ∧ f < 32 ∧ a = R.HIF_Fn_STATE f then s.fnState f else s.reg a

/-- 13 R257, 18 R353: GRD_CFG shows the number of entries and the first host-managed one. -/
def State.viewGuard (s : State) (a : Nat) : Word :=
  let g := (a - 0x20E00000) / 0x8000
  if g < 19 ∧ a = R.GRD_CFG g then w32 (guardEntries g + hostFirst g * 0x10000)
  else if a = R.FLT_LOG_QLVL then w32 s.faults.queue.length
  else s.reg a

/-- What the word at a register address reads, with no side effect. -/
def State.view (s : State) (a : Nat) : Word :=
  match a / 0x100000 with
  | 0x200 => s.viewOchre a
  | 0x201 => s.viewCobalt a
  | 0x202 => s.viewSepia a
  | 0x203 => s.viewUmber a
  | 0x204 => s.viewViridian a
  | 0x205 => s.viewIndigo a
  | 0x206 => s.viewSlate a
  | 0x207 => s.viewCarmine a
  | 0x208 => s.viewAmber a
  | 0x209 => s.viewIvory a
  | 0x20C => s.viewHif a
  | 0x20E => s.viewGuard a
  | _ => s.reg a

/-- Pop windows: AMB_CAP_POP, OCH_SBUS_DATA and the queues' pop windows. -/
def popWindow (a : Nat) : Bool :=
  (0x208000A0 ≤ a && a < 0x208000F0) || a = R.OCH_SBUS_DATA || (R.SLT_POP 0 ≤ a && a < R.SLT_POP 4096)

/-! ## Reads (00 R8) -/

/-- What a read clears: RC fields, the peak of UMB_Pn_BUF, and what was told since SLT_STALL_CYC and SLT_Cn_SAT were read. -/
def State.readClears (s : State) (a : Nat) : State :=
  let t := match regDef a with
    | some d => if d.rc = 0 then s else s.setReg a (s.reg a &&& ~~~ d.rc)
    | none => s
  if a = R.SLT_STALL_CYC then t.modSlate fun x => { x with stallSaid := false }
  else if R.SLT_Cn_CFG 0 ≤ a ∧ a < R.SLT_Cn_CFG 256 ∧ a % 0x40 = 0x28 then t.modSlate fun x => { x with satSaid := false }
  else if a = R.UMB_Pn_BUF 0 ∨ a = R.UMB_Pn_BUF 1 ∨ a = R.UMB_Pn_BUF 2 ∨ a = R.UMB_Pn_BUF 3 then t.setRegFld a 14 8 0
  else t

/-- A 32-bit read of a register by a master: the state after it, and the word. -/
def State.readWord (s : State) (m a : Nat) : State × Word :=
  if a = R.AMB_CTRL + 0xA0 ∨ a = R.AMB_CTRL + 0xA8 ∨ a = R.AMB_CTRL + 0xB0 then
    let t := after (execAmbCapPop ((a - R.AMB_CTRL - 0xA0) / 8) s) s
    (t, w32 (u32 t.readData 0))
  else if a = R.OCH_SBUS_DATA then
    let t := after (execOchSbusDataPop none s) s
    (t, w32 (u8 t.readData 0))
  else if R.SLT_POP 0 ≤ a ∧ a < R.SLT_POP 4096 then
    let t := after (execQueuePop m ((a - R.SLT_POP 0) / 0x40) (a % 0x40) s) s
    (t, w32 (u32 t.readData 0))
  else (s.readClears a, s.view a)

/-- Reads of consecutive words, the lower address first; an error of either is an error of the read. -/
def State.readWords (s : State) (m a : Nat) : Nat → State × Bytes
  | 0 => (s, [])
  | n + 1 =>
    let x := s.readWord m a
    let y := State.readWords x.1 m (a + 4) n
    ({ y.1 with readErr := x.1.readErr || y.1.readErr }, leBytes 4 x.2.toNat ++ y.2)

/-- An aligned access of one or two registers (10 R190). -/
def regAccess (a len : Nat) : Bool := (len = 4 && a % 4 = 0) || (len = 8 && a % 8 = 0)

/-- A halfword of a table block of Sable (17 R341). -/
def halfAccess (a len : Nat) : Bool := len = 2 && a % 2 = 0 && R.SBL_TAB 0 ≤ a && a < R.SBL_TAB 4

/-- A word with one of its halfwords replaced. -/
def putHalf (w : Word) (hi : Bool) (v : Nat) : Word :=
  if hi then w32 (w.toNat % 0x10000 + v * 0x10000) else w32 (w.toNat / 0x10000 * 0x10000 + v)

/-- The bytes that a passed read serves. A BAR2 read clears and pops nothing (10 R192); what a register answers to other
widths and alignments is free (log entry 35). -/
def State.serveRead (s : State) (m : Nat) (bar2 : Bool) (a len : Nat) : State × Bytes :=
  if isMemory a then (s, readBytes s.mem a len)
  else if halfAccess a len then (s, slice (leBytes 4 (s.view (a / 4 * 4)).toNat) (a % 4) 2)
  else if !regAccess a len then
    (s.tookFree len, (List.range len).map fun i => (Config.freeValue (s.freeCtr + i)).setWidth 8)
  else if bar2 then
    (s, (List.range (len / 4)).flatMap fun i => if popWindow (a + 4 * i) then leBytes 4 0 else leBytes 4 (s.view (a + 4 * i)).toNat)
  else s.readWords m a (len / 4)

/-! ## Writes (00 R8, R9) -/

/-- The command behind a register of a block whose write acts, as its own row of the table says; none for a register that
only stores. -/
def State.writeAct (s : State) (m a : Nat) (v : Word) : Option State :=
  if a = R.AMB_SNAP then some (after (execAmbSnap v s) s)
  else if a = R.AMB_SLEW_REQ then some (after (execAmbSlewReq v s) s)
  else if a = R.AMB_FREQ_ADJ then
    some (if s.amber.state = .holdover then s else s.setReg a (BitVec.ofInt 32 (clampI (-1310) 1310 (sext 32 v.toNat))))
  else if a = R.AMB_STEP_THR then some (s.setReg a (w32 (Nat.max 1000 (Nat.min v.toNat 1000000000))))
  else if a = R.AMB_STEP_NS then some (s.setReg a (w32 (Nat.min v.toNat 999999999)))
  else if a = R.AMB_STEP_CMD then some (after (execAmbStepCmd v s) s)
  else if a = R.OCH_SBUS_GO then some (after (execOchSbusGo v s) s)
  else if a = R.OCH_SBUS_DATA then some (after (execOchSbusDataPop (some (BitVec.ofNat 8 v.toNat)) s) s)
  else if R.OCH_Pn_LINK 0 ≤ a ∧ a < R.OCH_Pn_LINK 8 ∧ a % 0x100 = 0x10 then
    some (s.setSize ((a - R.OCH_Pn_LINK 0) / 0x100) (v &&& 0x07FF07FF))
  else if R.OCH_TRIGn_CFG 0 ≤ a ∧ a < R.OCH_TRIGn_CFG 8 ∧ a % 0x20 = 0 then
    let n := (a - R.OCH_TRIGn_CFG 0) / 0x20
    some ((s.setRegFld a 1 0 (fld v 1 0)).armTrig n)
  else if a = R.COB_ANG_SNAP then some (after (execCobAngSnap v s) s)
  else if a = R.UMB_SYNC_SW then some (after (execUmbSyncSw v s) s)
  else if a = R.IDG_APX_CTRL then some (s.writeApxCtrl (v &&& 3))
  else if a = R.SBL_CTRL then some (s.writeSblCtrl v)
  else if a = R.CARM_SETPEND then some (after (execCarmSetpend v s) s)
  else if a = R.IVR_REQ then
    let t := s.setReg a (v &&& 0x3FFF0017)
    some { t with ivory := { t.ivory with armedCeiling := if fld v 1 0 = 0 then none else some (fld v 1 0) } }
  else if R.OCH_Pn_LINK 0 ≤ a ∧ a < R.OCH_Pn_LINK 8 ∧ a % 0x100 = 0x88 then
    some (after (execOchPnCntClr ((a - R.OCH_Pn_LINK 0) / 0x100) v s) s)
  else if R.SEP_Sn_CFG 0 ≤ a ∧ a < R.SEP_Sn_CFG 16 ∧ a % 0x80 = 0x60 then
    some (after (execSepSnCntClr ((a - R.SEP_Sn_CFG 0) / 0x80) v s) s)
  else if R.VIR_Rn_CFG 0 ≤ a ∧ a < R.VIR_Rn_CFG 256 ∧ a % 0x100 = 0 then
    some (s.writeRuleCfg ((a - R.VIR_Rn_CFG 0) / 0x100) v)
  else if R.VIR_Rn_CFG 0 ≤ a ∧ a < R.VIR_Rn_CFG 256 ∧ a % 0x100 = 0xF0 then
    some (after (execVirRnCntClr ((a - R.VIR_Rn_CFG 0) / 0x100) v s) s)
  else if R.SLT_Qn_CFG 0 ≤ a ∧ a < R.SLT_Qn_CFG 4096 ∧ a % 0x40 = 0 then
    some (s.writeQueueCfg ((a - R.SLT_Qn_CFG 0) / 0x40) v).refreshPeers
  else if R.SLT_Qn_CFG 0 ≤ a ∧ a < R.SLT_Qn_CFG 4096 ∧ a % 0x40 = 0x24 then
    some (after (execSltQnAck ((a - R.SLT_Qn_CFG 0) / 0x40) v s) s)
  else if R.SLT_Cn_CFG 0 ≤ a ∧ a < R.SLT_Cn_CFG 256 ∧ a % 0x40 = 0 then some (s.writeCombCfg ((a - R.SLT_Cn_CFG 0) / 0x40) v).refreshPeers
  else if R.SLT_Cn_CFG 0 ≤ a ∧ a < R.SLT_Cn_CFG 256 ∧ a % 0x40 = 0x1C then
    some (after (execSltCnRelease ((a - R.SLT_Cn_CFG 0) / 0x40) v s) s)
  else if R.SLT_SEND 0 ≤ a ∧ a < R.SLT_SEND 4096 then
    let q := (a - R.SLT_SEND 0) / 0x40
    some (after (if a % 0x40 = 0 then execDescriptorCommit m q v s else execSendWindowStage m q (a % 0x40) v s) s)
  else if R.CARM_Tn_CLAIM 0 ≤ a ∧ a < R.CARM_Tn_CLAIM 6 then
    let t := (a - R.CARM_Tn_CLAIM 0) / 0x40
    if a % 0x40 = 0x04 then some (after (execCarmTnEoi t v s) s)
    else if a % 0x40 = 0x08 then some (after (execCarmTnHold t v s) s)
    else if a % 0x40 = 0x10 then some (after (execCarmTnStackRst t v s) s)
    else none
  else if R.CARM_Sn_CFG 0 ≤ a ∧ a < R.CARM_Sn_CFG 544 ∧ a % 0x10 < 8 then
    let n := (a - R.CARM_Sn_CFG 0) / 0x10
    some (if a % 0x10 = 0 then s.configSource n v (s.reg (R.CARM_Sn_MOD n)) else s.configSource n (s.reg (R.CARM_Sn_CFG n)) v)
  else if 0x20E00000 ≤ a ∧ a < 0x20E98000 then
    let g := (a - 0x20E00000) / 0x8000
    if a % 0x8000 = 4 then some (after (execGrdFaultLatchClear g v s) s)
    else if 0x1000 ≤ a % 0x8000 then
      some (after (execGrdEntryWrite g ((a % 0x8000 - 0x1000) / 16) (a % 16 / 4) v s) s)
    else none
  else none

/-- A 32-bit write of a register: its access code, or what its own row says. -/
def State.writeWord (s : State) (m a : Nat) (v : Word) : State :=
  let s := if a / 0x100000 = 0x208 then s.settleClock else s
  match s.writeAct m a v with
  | some t => t
  | none =>
    match regDef a with
    | some d => s.setReg a (writeVal d (s.reg a) v)
    | none => s

/-- What a passed write does; other widths and alignments are dropped at a register (log entry 35). -/
def State.serveWrite (s : State) (m a : Nat) (b : Bytes) : State :=
  if isMemory a then { s with mem := writeBytes s.mem a b }
  else if halfAccess a b.length then s.writeWord m (a / 4 * 4) (putHalf (s.reg (a / 4 * 4)) (a % 4 = 2) (u16 b 0))
  else if !regAccess a b.length then s
  else if b.length = 4 then s.writeWord m a (w32 (u32 b 0))
  else (s.writeWord m a (w32 (u32 b 0))).writeWord m (a + 4) (w32 (u32 b 4))

/-! ## INTERNAL_ACCESS (13 R247, 01 R16, 16 R303) -/

/-- The internal address of a BAR2 offset: the block windows, or the aperture of the PF (10 R192). -/
def State.bar2Addr (s : State) (off : Nat) : Nat :=
  if off < 0xF00000 then 0x20000000 + off else ((s.func 0).aperture.toNat + (off - 0xF00000)) % 2 ^ 40

/-- The target's domain takes the request: it is used, or an ON-DEMAND domain wakes for it (16 R303). An access outside
every window has no target and looks at no domain: the guard that 01 R16 names denies and reports it at once, whatever the
state of that guard's domain (DESIGN CHOICE, log entry 35). -/
def State.openDomain (s : State) (a : Nat) : State :=
  if !inMap a then s
  else if s.domUp (targetDomain a) then s.touch (targetDomain a) else s.demand (targetDomain a)

/-- The send and pop windows judge a request of whole words at their guard themselves. -/
def ownGuard (a len : Nat) (wr : Bool) : Bool :=
  regAccess a len &&
    (if wr then R.SLT_SEND 0 ≤ a && a < R.SLT_SEND 4096 else R.SLT_POP 0 ≤ a && a < R.SLT_POP 4096)

/-- The context for which a read was made (18 R344, R348): that of a context's ID, of the binding on a tile, or of the
extent that a front-end block reads. -/
def State.consumer (s : State) (m a : Nat) : Option Nat :=
  if 0x400 ≤ m then s.masterCtx m
  else if 0x20 ≤ m ∧ m < 0x30 then
    match s.indigo.binds.find? fun e => e.2.tiles.toNat.testBit (m - 0x20) with
    | some e => some e.2.ctx
    | none => none
  else if 0x10 ≤ m ∧ m ≤ 0x1B then
    match (s.host.dram ++ s.host.sram).find? fun e => e.base ≤ a && a < e.base + e.len && e.ctx < 1024 with
    | some e => some e.ctx
    | none => none
  else none

/-- A poisoned weight read marks the run on the tile, source 227 (18 R348, 08 Edges). -/
def State.poisonRun (s : State) (m : Nat) : State :=
  if 0x20 ≤ m ∧ m < 0x30 then
    match s.indigo.binds.find? fun e => e.2.tiles.toNat.testBit (m - 0x20) with
    | some (b, x) => if s.running b then (s.setBind b { x with poison := true }).assertSource 227 else s
    | none => s
  else s

/-- The context's next completion returns HW_FAULT. -/
def State.poisonCtx (s : State) (c : Option Nat) : State :=
  match c with
  | some k => match s.ctx? k with
    | some x => s.setCtx k { x with poisoned := true }
    | none => s
  | none => s

/-- A store that SECDED protects (18 R348). -/
def State.protected' (s : State) (a : Nat) : Bool :=
  guardOf a = 1 || guardOf a = 17 || (guardOf a = 18 && s.eccOn)

/-- The unit of an SRAM error: bank, or 16 + tile. -/
def sramUnit (a : Nat) : Nat := if guardOf a = 1 then (a - sramBase) / 0x100000 else 16 + (a - 0x40000000) / 0x200000

/-- A single-bit error corrected: counted, source 500 or 502 (18 R348). -/
def State.eccCorrected (s : State) (a : Nat) : State :=
  if guardOf a = 18 then (s.bumpSat (R.DDR_Cn_CE + 0x10 * (Config.dramChannel a).toNat)).assertSource 500
  else (s.bumpSat R.FLT_SRAM_CE).assertSource 502

/-- A double-bit error: counted, source 501 or 503, a FAULT record with a copy for the consuming context (18 R348). The
syndrome is free (log entry 25). -/
def State.eccPoisoned (s : State) (m a : Nat) : State :=
  let c := s.consumer m a
  let args : List Word := [BitVec.ofNat 32 s.free.toNat, w32 m]
  let t := s.tookFree
  let t := if guardOf a = 18 then
      let ch := (Config.dramChannel a).toNat
      ((((t.bumpSat (R.DDR_Cn_UE + 0x10 * ch)).setReg64 (R.DDR_Cn_LAST_LO + 0x10 * ch) a).assertSource 501).raiseFault 4 ch
        (master := m) (addr := a) (args := args) (copyCtx := c))
    else ((t.bumpSat R.FLT_SRAM_UE).assertSource 503).raiseFault 5 (sramUnit a) (master := m) (addr := a) (args := args)
      (copyCtx := c)
  (t.poisonRun m).poisonCtx c

/-- An answer to the master. -/
def State.answerRead (s : State) (d : Bytes) (err : Bool) : State := { s with readData := d, readErr := err }

/-- A read that its guard lets pass. -/
def State.passRead (s : State) (m : Nat) (bar2 : Bool) (a len ecc : Nat) : State :=
  if s.protected' a && ecc = 2 then (s.eccPoisoned m a).answerRead (List.replicate len 0) true
  else
    let t := if s.protected' a && ecc = 1 then s.eccCorrected a else s
    let x := (t.answerRead [] false).serveRead m bar2 a len
    x.1.answerRead x.2 x.1.readErr

/-- A read by a master: the domain, the guard, the service (16 R303, 13 R247, R255). -/
def State.accessRead (s : State) (m : Nat) (bar2 : Bool) (a len ecc : Nat) : State :=
  let s := s.openDomain a
  if inMap a && !s.domUp (targetDomain a) then s.answerRead (List.replicate len 0) true
  else if ownGuard a len false && !bar2 then s.passRead m bar2 a len ecc
  else
    let g := s.guarded a m false
    if g.2 then g.1.passRead m bar2 a len ecc else g.1.answerRead (List.replicate len 0) true

/-- A write by a master; a denied one is dropped. -/
def State.accessWrite (s : State) (m a : Nat) (b : Bytes) : State :=
  let s := s.openDomain a
  if inMap a && !s.domUp (targetDomain a) then s.answerRead [] true
  else if ownGuard a b.length true then (s.answerRead [] false).serveWrite m a b
  else
    let g := s.guarded a m true
    if g.2 then (g.1.serveWrite m a b).answerRead [] false else g.1.answerRead [] true

/-- A write by Slate on a queue's behalf at any mapped address, in accesses of 8 bytes (14 R259, R266). -/
def State.landWrite (s : State) (q a : Nat) (b : Bytes) : State :=
  let t := s.touch (targetDomain a)
  let u := (List.range ((b.length + 7) / 8)).foldl
    (fun t i => t.accessWrite (s.qMaster q) (a + 8 * i) ((b.drop (8 * i)).take 8)) t
  u.answerRead s.readData s.readErr

/-- LANDING_WRITE (14 R266): the descriptor, then the status word. -/
def workLandingWrite (s : State) : Res :=
  .next (
    if !s.domUp dFAB then s
    else match takeLanding s.landable s.slate.landing with
      | none => s
      | some ((q, d), rest) =>
        ((((s.modSlate fun x => { x with landing := rest }).showLanding).landWrite q (s.descAt q d.seq) d.bytes).landWrite q
          (s.statusAt q) (leBytes 4 (d.seq.toNat + 1) ++ leBytes 4 (s.occupancy q))))

/-- A frame of Teal that this member takes, and not its link alone: a forwarded command, or a request that is served under
the ID of 01 R29, a read with its answer sent back. -/
def State.serveTeal (s : State) (f : TealFrame) : State :=
  let m := 0x200 + f.source * 0x40 + f.id % 64
  match f.msg with
  | some (.command id op block) => s.hearCommand id op block
  | some (.write a b) => s.accessWrite m a b
  | some (.read a n) =>
    let t := s.accessRead m false a n 0
    t.sendTeal f.source f.id (.answer t.readData)
  | _ => s

/-- A TLP to the device: in DOZE it wakes it (16 R310); with HOSTETH down none arrives. -/
def State.tlp (s : State) (f : State → State) : State :=
  if !s.domUp dHOSTETH then s
  else f (if s.ivory.state = 1 then s.wakeEvent 0x401 3 else s)

/-- INTERNAL_ACCESS. A BAR2 read that gets an error completes with zero data and no error (10 R192); a BAR2 write is
dropped while the device is locked (18 R350). -/
def execInternalAccess (x : Access) (s : State) : Res :=
  .next (
    if x.bar2 then
      s.tlp fun s => match x.write with
        | none => { s.accessRead 0x100 true (s.bar2Addr x.addr) x.len x.ecc with readErr := false }
        | some b => if s.regBit R.FLT_DEBUG 0 then s.accessWrite 0x100 (s.bar2Addr x.addr) b else s
    else match x.write with
      | none => s.accessRead x.master false x.addr x.len x.ecc
      | some b => s.accessWrite x.master x.addr b)

/-! ## BAR0 (10 R190, R191) -/

/-- RINGr_STATE. -/
def State.ringState (s : State) (f r : Nat) : Word :=
  w32 (b2n (s.ringEn f r) + 2 * b2n (s.ring f r).waiting + 4 * b2n (s.ringEth f r) + s.ringVector f r * 0x100)

/-- What a 32-bit word of a function's BAR0 registers reads. -/
def State.bar0Word (s : State) (f off : Nat) : Word :=
  let r := (off - 0x410) / 0x10
  if off = 0x408 then s.status f
  else if 0x410 ≤ off ∧ r < 15 then
    if off % 0x10 = 0 then s.reg (R.HIF_RINGn_HEAD (ringNo f r))
    else if off % 0x10 = 4 then s.reg (R.HIF_RINGn_TAIL (ringNo f r))
    else if off % 0x10 = 8 then s.ringState f r
    else 0
  else if off = 0x500 ∧ f = 0 then w32 (s.func 0).aperture.toNat
  else if off = 0x504 ∧ f = 0 then w32 ((s.func 0).aperture.toNat / 0x100000000)
  else if 0x9000 ≤ off ∧ off < 0x9008 then
    w32 ((s.func f).heldMsix.foldl (fun n v => n + 2 ^ v) 0 / 2 ^ (8 * (off - 0x9000)))
  else 0

/-- The bytes that a read of a function's BAR0 gets: the areas at any size, registers at aligned 32-bit and 64-bit reads,
the MSI-X table; zero elsewhere (10 R190). -/
def State.bar0Read (s : State) (f off size : Nat) : Bytes :=
  let x := s.func f
  if !s.fnEnabled f then List.replicate size 0
  else if off + size ≤ 0x200 then slice x.cmdArea off size
  else if 0x200 ≤ off ∧ off + size ≤ 0x400 then slice x.respArea (off - 0x200) size
  else if !regAccess off size then List.replicate size 0
  else (List.range (size / 4)).flatMap fun i =>
    let o := off + 4 * i
    if 0x8000 ≤ o ∧ o < 0x8400 then
      let e := x.vector ((o - 0x8000) / 16)
      leBytes 4 (nth [e.addr.toNat, e.addr.toNat / 0x100000000, e.data.toNat, b2n e.masked] (o % 16 / 4) 0)
    else leBytes 4 (s.bar0Word f o).toNat

/-- A word of the MSI-X table written (10 R209): address, data, vector mask; messages that it frees are sent. -/
def State.writeMsix (s : State) (f v word : Nat) (d : Word) : State :=
  let x := s.func f
  let e := x.vector v
  let e := match word with
    | 0 => { e with addr := BitVec.ofNat 64 (e.addr.toNat / 0x100000000 * 0x100000000 + d.toNat) }
    | 1 => { e with addr := BitVec.ofNat 64 (e.addr.toNat % 0x100000000 + d.toNat * 0x100000000) }
    | 2 => { e with data := d }
    | _ => { e with masked := bit d 0 }
  (s.setFunc f { x with msix := x.msix.set v e }).releaseMsix f

/-- An aligned 32-bit write of a BAR0 register. -/
def State.bar0Write (s : State) (f off : Nat) (v : Word) : State :=
  if off = 0x400 then after (workDoorbell f v s) s
  else if 0x410 ≤ off ∧ off < 0x410 + 15 * 0x10 ∧ off % 0x10 = 4 then after (workRingTailWrite f ((off - 0x410) / 0x10) v s) s
  else if off = 0x500 ∧ f = 0 then
    s.setFunc 0 { s.func 0 with
      aperture := BitVec.ofNat 64 ((s.func 0).aperture.toNat / 0x100000000 * 0x100000000 + v.toNat / 0x100000 * 0x100000) }
  else if off = 0x504 ∧ f = 0 then
    s.setFunc 0 { s.func 0 with
      aperture := BitVec.ofNat 64 ((s.func 0).aperture.toNat % 0x100000000 + v.toNat % 256 * 0x100000000) }
  else if 0x8000 ≤ off ∧ off < 0x8400 then s.writeMsix f ((off - 0x8000) / 16) (off % 16 / 4) v
  else s

/-- A write of a function's BAR0: the command area takes any size, registers aligned 32-bit and 64-bit writes. -/
def State.bar0 (s : State) (f off size : Nat) (v : BitVec 64) : State :=
  if !s.fnEnabled f then s
  else if off + size ≤ 0x200 then
    s.setFunc f { s.func f with cmdArea := putBytes (s.func f).cmdArea off (leBytes size v.toNat) }
  else if size = 4 ∧ off % 4 = 0 then s.bar0Write f off (w32 v.toNat)
  else if size = 8 ∧ off % 8 = 0 then
    (s.bar0Write f off (w32 v.toNat)).bar0Write f (off + 4) (w32 (v.toNat / 0x100000000))
  else s

/-- REGISTER_WRITE (00 R8): through BAR0, through BAR2 under the PF's ID while unlocked, or by an internal master. -/
def execRegisterWrite (w : RegWrite) (s : State) : Res :=
  .next (match w.via with
    | .bar0 f => s.tlp fun s => s.bar0 f w.addr w.size w.value
    | .bar2 => s.tlp fun s =>
      if s.regBit R.FLT_DEBUG 0 then s.accessWrite 0x100 (s.bar2Addr w.addr) (leBytes w.size w.value.toNat) else s
    | .internal m => s.accessWrite m w.addr (leBytes w.size w.value.toNat))

end Sys2Proof.Machine
end

