-- ==== Sys2Proof/Machine/Wake.lean ====
section
/-! DEFINITION. Commands as they meet the power state (16 R303, R306, R310, R313): what wakes DOZE, what needs the host
link, what a gated clock holds. The work itself is the `work…` definition of the family. -/

namespace Sys2Proof.Machine

/-- A TLP or frame to the device: it wakes DOZE; with HOSTETH down it does not arrive (16 R310, R302). -/
def hosted (f : State → Res) (s : State) : Res :=
  if !s.domUp dHOSTETH then .next s else f (if s.ivory.state = 1 then s.wakeEvent 0x401 3 else s)

/-- A block that has received input data is not idle (16 R313). -/
def State.fed (s : State) (d : Nat) : State :=
  if s.domUp d then { s with ivory := { s.ivory with lastUse := s.ivory.lastUse.set d s.now } } else s

/-- Data at a link-clocked receive front end: it wakes DOZE (16 R310). -/
def received (d : Nat) (f : State → Res) (s : State) : Res := f ((if s.ivory.state = 1 then s.wakeEvent 0xFFFF 3 else s).fed d)

/-- Work on a block clock, which DOZE gates (16 R306). -/
def clocked (f : State → Res) (s : State) : Res := if s.ivory.state = 1 then .next s else f s

/-- Input that a block samples on its own clock. -/
def sampled (d : Nat) (f : State → Res) (s : State) : Res := clocked (fun t => f (t.fed d)) s

/-- An internal timer: one that is due wakes DOZE (16 R310). -/
def timed (f : State → Res) (s : State) : Res :=
  clocked f (if s.ivory.state = 1 ∧ s.timerDue then s.wakeEvent 0x400 3 else s)

/-! ## The host link -/

def execDoorbell (fn : Nat) (v : Word) (s : State) : Res := hosted (workDoorbell fn v) s
def execRingTailWrite (fn : Nat) (ring : Nat) (v : Word) (s : State) : Res := hosted (workRingTailWrite fn ring v) s
def execFunctionMasterEnable (fn : Nat) (dstate : Nat) (bme : Bool) (s : State) : Res :=
  hosted (workFunctionMasterEnable fn dstate bme) s
def execEthRequest (g : Datagram) (s : State) : Res := hosted (workEthRequest g) s
def execEthUpload (g : Datagram) (s : State) : Res := hosted (workEthUpload g) s
def execEthFrameReceived (f : EthFrame) (s : State) : Res := hosted (workEthFrameReceived f) s
def execSyncReceived (m : PtpMsg) (s : State) : Res := hosted (workSyncReceived m) s
def execAnnounceReceived (m : Announce) (s : State) : Res := hosted (workAnnounceReceived m) s
def execPtpMessageReceived (m : PtpMsg) (s : State) : Res := hosted (workPtpMessageReceived m) s
def execFlr (fn : Nat) (s : State) : Res := hosted (workFlr fn) s
def execVfDisable (numVfs : Nat) (s : State) : Res := hosted (workVfDisable numVfs) s
def execVfEnable (numVfs : Nat) (s : State) : Res := hosted (workVfEnable numVfs) s

/-! ## Data -/

def execCsi2PacketReceived (port : Nat) (pkt : Csi2Packet) (s : State) : Res :=
  received (portDomain port) (workCsi2PacketReceived port pkt) s
def execTdmFrame (port : Nat) (f : TdmFrame) (s : State) : Res := received dUMB (workTdmFrame port f) s
def execTealFrameReceived (port : Nat) (f : TealFrame) (s : State) : Res :=
  received dTEAL (fun t =>
    let u := after (workTealFrameReceived port f t) t
    .next (if t.linkUp port && t.domUp dTEAL && f.crcOk && !t.passesOn f then u.serveTeal f else u)) s
def execEncoderEntry (up : Bool) (ns : Nat) (s : State) : Res := sampled dCOB (workEncoderEntry up ns) s
def execEncoderIndex (ns : Nat) (s : State) : Res := sampled dCOB (workEncoderIndex ns) s
def execSsiPoll (frame : Nat) (ns : Nat) (s : State) : Res := sampled dCOB (workSsiPoll frame ns) s
def execImuDrdyEdge (burst : Bytes) (ns : Nat) (s : State) : Res := sampled dCOB (workImuDrdyEdge burst ns) s
def execEncoderCountEdge (d : QuadStep) (s : State) : Res := sampled dCOB (workEncoderCountEdge d) s

/-! ## Timers -/

def execBlockTimeout (port : Nat) (s : State) : Res := timed (workBlockTimeout port) s
def execDecayTick (s : State) : Res := timed workDecayTick s
def execWindowOpen (rule : Nat) (s : State) : Res := timed (workWindowOpen rule) s
def execWindowClose (rule : Nat) (s : State) : Res := timed (workWindowClose rule) s
def execAngleTick (s : State) : Res := timed workAngleTick s
def execBudgetWindowBoundary (s : State) : Res := timed workBudgetWindowBoundary s

/-! ## Work of the blocks -/

def execEventDecode (port : Nat) (s : State) : Res := clocked (workEventDecode port) s
def execGapContinues (tdm : Bool) (port : Nat) (s : State) : Res := clocked (workGapContinues tdm port) s
def execFilterMapScrub (port : Nat) (s : State) : Res := clocked (workFilterMapScrub port) s
def execPortSilent (port : Nat) (s : State) : Res := clocked (workPortSilent port) s
def execPortActivityWindow (port : Nat) (s : State) : Res := clocked (workPortActivityWindow port) s
def execTriggerFire (n : Nat) (s : State) : Res := clocked (workTriggerFire n) s
def execTriggerPulseEnd (n : Nat) (s : State) : Res := clocked (workTriggerPulseEnd n) s
def execStackClose (stack : Nat) (s : State) : Res := clocked (workStackClose stack) s
def execRotorMap (stack : Nat) (s : State) : Res := clocked (workRotorMap stack) s
def execImuSilent (s : State) : Res := clocked workImuSilent s
def execSurfaceUpdate (s : State) : Res := clocked workSurfaceUpdate s
def execCornerTest (s : State) : Res := clocked workCornerTest s
def execFlowFit (s : State) : Res := clocked workFlowFit s
def execSurfaceScrub (surface : Nat) (s : State) : Res := clocked (workSurfaceScrub surface) s
def execSepiaStagingResume (s : State) : Res := clocked workSepiaStagingResume s
def execDerivedTick (ch : Nat) (s : State) : Res := clocked (workDerivedTick ch) s
def execChainSample (ch : Nat) (s : State) : Res := clocked (workChainSample ch) s
def execFilterBlockTimeout (ch : Nat) (s : State) : Res := clocked (workFilterBlockTimeout ch) s
def execUmberApplyFallback (group : Nat) (s : State) : Res := clocked (workUmberApplyFallback group) s
def execSigSyncEdge (e : Edge) (ns : Nat) (s : State) : Res := clocked (workSigSyncEdge e ns) s
def execUmberStagingResume (s : State) : Res := clocked workUmberStagingResume s
def execTdmPortSilent (port : Nat) (s : State) : Res := clocked (workTdmPortSilent port) s
def execMemberAdmit (s : State) : Res := clocked workMemberAdmit s
def execFusedRecordStage (s : State) : Res := clocked workFusedRecordStage s
def execCoregMapScrub (s : State) : Res := clocked workCoregMapScrub s
def execBindingInput (s : State) : Res := clocked workBindingInput s
def execRunComplete (b : Nat) (s : State) : Res := clocked (workRunComplete b) s
def execReplayWindowEnd (s : State) : Res := clocked workReplayWindowEnd s
def execTileWstallWindow (t : Nat) (s : State) : Res := clocked (workTileWstallWindow t) s
def execPtpEventTransmit (m : PtpTx) (s : State) : Res := clocked (workPtpEventTransmit m) s
def execStalledCommitAdmit (master : Nat) (s : State) : Res := clocked (workStalledCommitAdmit master) s
def execLandingWrite (s : State) : Res := clocked workLandingWrite s
def execContributionProcess (c : Nat) (s : State) : Res := clocked (workContributionProcess c) s
def execCombineResultCommit (c : Nat) (s : State) : Res := clocked (workCombineResultCommit c) s
/-- RECORD_DELIVER; a CTX_DESTROY that waited for the record completes (10 R204). -/
def execRecordDeliver (fn : Nat) (ring : Nat) (s : State) : Res :=
  clocked (fun t => .next (after (workRecordDeliver fn ring t) t).settleTeardowns) s
def execRingModerationHoldoff (fn : Nat) (ring : Nat) (s : State) : Res := clocked (workRingModerationHoldoff fn ring) s
def execResponsePost (p : Nat) (s : State) : Res := clocked (workResponsePost p) s
def execInterruptAcknowledge (t : Nat) (s : State) : Res := clocked (workInterruptAcknowledge t) s
def execInterruptCommit (t : Nat) (s : State) : Res := clocked (workInterruptCommit t) s
def execHostRelay (s : State) : Res := clocked workHostRelay s

/-! ## Requests to a domain that may sleep (16 R303) -/

/-- A request to a block that takes data from another: it is used, or an ON-DEMAND one is asked for. -/
def State.request (s : State) (d : Nat) : State := if s.domUp d then s.fed d else s.demand d

/-- EVENT_HANDOFF: an event on offer is a request to Cobalt. -/
def execEventHandoff (s : State) : Res :=
  clocked (fun t => workEventHandoff (if (t.grantPorts 1).isEmpty then t else t.request dCOB)) s

/-- COBALT_PROJECT: the event on its way is a request to Sepia. -/
def execCobaltProject (s : State) : Res :=
  clocked (fun t => workCobaltProject (if t.cobalt.inq.isEmpty then t else t.request dSEP)) s

def execRunDispatch (b : Nat) (s : State) : Res := clocked (workRunDispatch b) s

end Sys2Proof.Machine
end

