-- ==== Sys2Proof/Machine/Tick.lean ====
section
/-! DEFINITION. The CLK_AON tick (02 R31): what falls due on the present tick is settled, then both clocks advance. The
commands that report a time anchor settle the whole tick, for its reasons share one anchor (02 R36, log entry 37). -/

namespace Sys2Proof.Machine

/-- What falls due on the present tick. An epoch step is a block boundary of every port (03 R66), after the anchor that it
causes is staged (03 R69). -/
def State.settleTick (s : State) : State :=
  let t := s.settleAmber
  if !t.amber.stepped then t
  else forEach (below 8 fun p => s.domUp (portDomain p)) (fun p u => u.boundary p)
    (t.modAmber fun a => { a with stepped := false })

/-- EPOCH_STEP (02 R39): the armed step on its tick. -/
def execEpochStep (s : State) : Res := .next (if s.amber.stepDue then s.settleTick else s)

/-- TS32_WRAP (02 R36). -/
def execTs32Wrap (s : State) : Res := .next (if s.amber.wrapDue then s.settleTick else s)

/-- ANCHOR_PERIOD_EXPIRY (02 R36). -/
def execAnchorPeriodExpiry (s : State) : Res :=
  .next (if s.amber.lastAnchor + s.regN R.AMB_ANCHOR_PERIOD ≤ s.now then s.settleTick else s)

/-- SERVO_OFFSET_APPLY (02 R38, R39, R43). -/
def execServoOffsetApply (s : State) : Res := .next (if s.amber.servoDue then s.settleTick else s)

/-! ## What counts and samples on every tick -/

/-- A cycle counter while a condition holds. -/
def State.countWhile (s : State) (c : Bool) (a n : Nat) : State := if c then s.bumpSat a n else s

/-- The cycles that one tick of 40 ns adds to the stall counters: CLK_EVT 400 MHz, CLK_SIG 200 MHz, CLK_FAB 800 MHz
(05 R104, 06 R126, 07 R143, 14 R264). -/
def State.countStalls (s : State) : State :=
  let t := s.countWhile s.sepia.stalled R.SEP_STALL_CYC 16
  let t := t.countWhile s.viridian.waiting R.VIR_STALL_CYC 16
  let t := t.countWhile s.umber.stopped R.UMB_STALL_CYC 8
  let n := (s.slate.staging.filter fun e => e.2.stalled.isSome).length
  t.countWhile (n ≠ 0) R.SLT_STALL_CYC (32 * n)

/-- Microseconds of steady time between two states since a time. -/
def passedUs (was now' since : Nat) : Nat := (now' - since) / 1000 - (was - since) / 1000

/-- Waiting rings count µs (10 R208), residency counts per state and, in RUN, per point (16 R323); `was` is the steady time
before the tick. -/
def State.countUs (s : State) (was : Nat) : State :=
  let t := s.host.rings.foldl
    (fun t e => if e.2.waiting then t.bumpSat (R.HIF_RINGn_WAIT_US e.1) (passedUs was s.now e.2.waitSince) else t) s
  let n := passedUs was s.now 0
  let res := fun (t : State) (a : Nat) => t.setReg64 a (t.reg64 a + n)
  if n = 0 then t
  else
    let t := res t (R.IVR_RES_STATE + 8 * s.ivory.state)
    if s.ivory.state = 0 then res t (R.IVR_RES_PT + 8 * s.arrayPoint) else t

/-- Carmine's samples: the glitch filters while their clock runs (15 R283), and the internal lines. -/
def State.sampleLines (s : State) : State :=
  let t := if s.filterRuns then forEach ((List.range 32).map fun i => 512 + i) (fun n t => t.filterSample n) s else s
  forEach (List.range 512) (fun n t => t.noticeLine n) t

/-- 16 R310: an internal timer that is due wakes DOZE. -/
def State.wakeOnTimer (s : State) : State := if s.ivory.state = 1 ∧ s.timerDue then s.wakeEvent 0x400 3 else s

/-- One tick of CLK_AON. While PORST_N is low nothing moves (11 R219). The 10 ms of a CTX_DESTROY end on a tick. -/
def State.tick (s : State) : State :=
  if s.sys.inPorst then s
  else
    let t := s.settleTick.advanceAmber.snapTake
    let t := (t.announceMaster 0).announceMaster 1
    ((if s.ivory.state = 0 then t.countStalls else t).countUs s.now).virTick.sampleLines.tookFree.wakeOnTimer.settleTeardowns

end Sys2Proof.Machine
end

