-- ==== Sys2Proof/Machine/Dispatch.lean ====
section
/-! DEFINITION. One arm per command: the meaning of each, or its refusal by name. -/

namespace Sys2Proof.Machine

def exec (i : Instr) (s : State) : Host.Outcome State Fault Refusal :=
  match i with
  | .identify p => Sys2Proof.Machine.execIdentify p s
  | .getVersion p => Sys2Proof.Machine.execGetVersion p s
  | .reset p => Sys2Proof.Machine.execReset p s
  | .funcSetLimits p => Sys2Proof.Machine.execFuncSetLimits p s
  | .ethSetHost p => Sys2Proof.Machine.execEthSetHost p s
  | .memSetEcc p => Sys2Proof.Machine.execMemSetEcc p s
  | .ctxCreate p => Sys2Proof.Machine.execCtxCreate p s
  | .ctxDestroy p => Sys2Proof.Machine.execCtxDestroy p s
  | .ctxSetRing p => Sys2Proof.Machine.execCtxSetRing p s
  | .ringSet p => Sys2Proof.Machine.execRingSet p s
  | .ctxGetInfo p => Sys2Proof.Machine.execCtxGetInfo p s
  | .changesetBegin p => Sys2Proof.Machine.execChangesetBegin p s
  | .changesetCommit p => Sys2Proof.Machine.execChangesetCommit p s
  | .changesetAbort p => Sys2Proof.Machine.execChangesetAbort p s
  | .quiesceCommit p => Sys2Proof.Machine.execQuiesceCommit p s
  | .changesetGetStatus p => Sys2Proof.Machine.execChangesetGetStatus p s
  | .changesetSetPolicy p => Sys2Proof.Machine.execChangesetSetPolicy p s
  | .stageGenerationCommand p => Sys2Proof.Machine.execStageGenerationCommand p s
  | .singleCommandCommit p => Sys2Proof.Machine.execSingleCommandCommit p s
  | .quiesceDrainEnd ctx => Sys2Proof.Machine.execQuiesceDrainEnd ctx s
  | .quiescePauseTimeout ctx => Sys2Proof.Machine.execQuiescePauseTimeout ctx s
  | .timeGet p => Sys2Proof.Machine.execTimeGet p s
  | .timeSetServo p => Sys2Proof.Machine.execTimeSetServo p s
  | .ptpSetPort p => Sys2Proof.Machine.execPtpSetPort p s
  | .timeStep p => Sys2Proof.Machine.execTimeStep p s
  | .timeSetPins p => Sys2Proof.Machine.execTimeSetPins p s
  | .timeReadCaptures p => Sys2Proof.Machine.execTimeReadCaptures p s
  | .ambSnap v => Sys2Proof.Machine.execAmbSnap v s
  | .ambSlewReq v => Sys2Proof.Machine.execAmbSlewReq v s
  | .ambStepCmd v => Sys2Proof.Machine.execAmbStepCmd v s
  | .ambCapPop input => Sys2Proof.Machine.execAmbCapPop input s
  | .epochStep => Sys2Proof.Machine.execEpochStep s
  | .ts32Wrap => Sys2Proof.Machine.execTs32Wrap s
  | .anchorPeriodExpiry => Sys2Proof.Machine.execAnchorPeriodExpiry s
  | .slewComplete => Sys2Proof.Machine.execSlewComplete s
  | .syncReceived m => Sys2Proof.Machine.execSyncReceived m s
  | .servoOffsetApply => Sys2Proof.Machine.execServoOffsetApply s
  | .announceReceived m => Sys2Proof.Machine.execAnnounceReceived m s
  | .ptpEventTransmit m => Sys2Proof.Machine.execPtpEventTransmit m s
  | .announceTimeout => Sys2Proof.Machine.execAnnounceTimeout s
  | .ppsInEdge e ns => Sys2Proof.Machine.execPpsInEdge e ns s
  | .ppsInMissed => Sys2Proof.Machine.execPpsInMissed s
  | .tsCaptureEdge input e ns => Sys2Proof.Machine.execTsCaptureEdge input e ns s
  | .ppsOutSecond => Sys2Proof.Machine.execPpsOutSecond s
  | .ppsOutPulseEnd => Sys2Proof.Machine.execPpsOutPulseEnd s
  | .evportAssign p => Sys2Proof.Machine.execEvportAssign p s
  | .evportSetFormat p => Sys2Proof.Machine.execEvportSetFormat p s
  | .evportSetFilters p => Sys2Proof.Machine.execEvportSetFilters p s
  | .evportSetBlocking p => Sys2Proof.Machine.execEvportSetBlocking p s
  | .evportGetStats p => Sys2Proof.Machine.execEvportGetStats p s
  | .sensorXfer p => Sys2Proof.Machine.execSensorXfer p s
  | .sensorSetTrigger p => Sys2Proof.Machine.execSensorSetTrigger p s
  | .ochSbusGo v => Sys2Proof.Machine.execOchSbusGo v s
  | .ochSbusDataPop w => Sys2Proof.Machine.execOchSbusDataPop w s
  | .ochPnCntClr port v => Sys2Proof.Machine.execOchPnCntClr port v s
  | .csi2PacketReceived port pkt => Sys2Proof.Machine.execCsi2PacketReceived port pkt s
  | .eventDecode port => Sys2Proof.Machine.execEventDecode port s
  | .gapContinues tdm port => Sys2Proof.Machine.execGapContinues tdm port s
  | .eventHandoff => Sys2Proof.Machine.execEventHandoff s
  | .blockTimeout port => Sys2Proof.Machine.execBlockTimeout port s
  | .filterMapScrub port => Sys2Proof.Machine.execFilterMapScrub port s
  | .portSilent port => Sys2Proof.Machine.execPortSilent port s
  | .portActivityWindow port => Sys2Proof.Machine.execPortActivityWindow port s
  | .triggerFire n => Sys2Proof.Machine.execTriggerFire n s
  | .triggerPulseEnd n => Sys2Proof.Machine.execTriggerPulseEnd n s
  | .projSetRotor p => Sys2Proof.Machine.execProjSetRotor p s
  | .projSetImu p => Sys2Proof.Machine.execProjSetImu p s
  | .projSetPort p => Sys2Proof.Machine.execProjSetPort p s
  | .projSetStack p => Sys2Proof.Machine.execProjSetStack p s
  | .projReleaseMap p => Sys2Proof.Machine.execProjReleaseMap p s
  | .projGetState p => Sys2Proof.Machine.execProjGetState p s
  | .cobAngSnap v => Sys2Proof.Machine.execCobAngSnap v s
  | .cobaltProject => Sys2Proof.Machine.execCobaltProject s
  | .encoderEntry up ns => Sys2Proof.Machine.execEncoderEntry up ns s
  | .encoderIndex ns => Sys2Proof.Machine.execEncoderIndex ns s
  | .ssiPoll frame ns => Sys2Proof.Machine.execSsiPoll frame ns s
  | .angleTick => Sys2Proof.Machine.execAngleTick s
  | .stackClose stack => Sys2Proof.Machine.execStackClose stack s
  | .rotorMap stack => Sys2Proof.Machine.execRotorMap stack s
  | .imuDrdyEdge burst ns => Sys2Proof.Machine.execImuDrdyEdge burst ns s
  | .imuSilent => Sys2Proof.Machine.execImuSilent s
  | .featSetSurface p => Sys2Proof.Machine.execFeatSetSurface p s
  | .featSetCorner p => Sys2Proof.Machine.execFeatSetCorner p s
  | .featSetFlow p => Sys2Proof.Machine.execFeatSetFlow p s
  | .featSetTracker p => Sys2Proof.Machine.execFeatSetTracker p s
  | .featSetTick p => Sys2Proof.Machine.execFeatSetTick p s
  | .featGetStats p => Sys2Proof.Machine.execFeatGetStats p s
  | .sepSnCntClr surface v => Sys2Proof.Machine.execSepSnCntClr surface v s
  | .surfaceUpdate => Sys2Proof.Machine.execSurfaceUpdate s
  | .cornerTest => Sys2Proof.Machine.execCornerTest s
  | .flowFit => Sys2Proof.Machine.execFlowFit s
  | .decayTick => Sys2Proof.Machine.execDecayTick s
  | .surfaceScrub surface => Sys2Proof.Machine.execSurfaceScrub surface s
  | .sepiaStagingResume => Sys2Proof.Machine.execSepiaStagingResume s
  | .filterSetPort p => Sys2Proof.Machine.execFilterSetPort p s
  | .filterAssignChannel p => Sys2Proof.Machine.execFilterAssignChannel p s
  | .filterSetDerived p => Sys2Proof.Machine.execFilterSetDerived p s
  | .filterLoadCoeffs p => Sys2Proof.Machine.execFilterLoadCoeffs p s
  | .filterSetChain p => Sys2Proof.Machine.execFilterSetChain p s
  | .filterSetDcblock p => Sys2Proof.Machine.execFilterSetDcblock p s
  | .filterFreezeDc p => Sys2Proof.Machine.execFilterFreezeDc p s
  | .filterSetThreshold p => Sys2Proof.Machine.execFilterSetThreshold p s
  | .filterSetBand p => Sys2Proof.Machine.execFilterSetBand p s
  | .filterSetSync p => Sys2Proof.Machine.execFilterSetSync p s
  | .filterGetStats p => Sys2Proof.Machine.execFilterGetStats p s
  | .umbSyncSw v => Sys2Proof.Machine.execUmbSyncSw v s
  | .tdmFrame port f => Sys2Proof.Machine.execTdmFrame port f s
  | .tdmPortSilent port => Sys2Proof.Machine.execTdmPortSilent port s
  | .derivedTick ch => Sys2Proof.Machine.execDerivedTick ch s
  | .chainSample ch => Sys2Proof.Machine.execChainSample ch s
  | .filterBlockTimeout ch => Sys2Proof.Machine.execFilterBlockTimeout ch s
  | .umberApplyFallback group => Sys2Proof.Machine.execUmberApplyFallback group s
  | .sigSyncEdge e ns => Sys2Proof.Machine.execSigSyncEdge e ns s
  | .umberStagingResume => Sys2Proof.Machine.execUmberStagingResume s
  | .fuseSetRule p => Sys2Proof.Machine.execFuseSetRule p s
  | .fuseFlush p => Sys2Proof.Machine.execFuseFlush p s
  | .fuseGetStats p => Sys2Proof.Machine.execFuseGetStats p s
  | .virRnCntClr rule v => Sys2Proof.Machine.execVirRnCntClr rule v s
  | .memberAdmit => Sys2Proof.Machine.execMemberAdmit s
  | .windowOpen rule => Sys2Proof.Machine.execWindowOpen rule s
  | .windowClose rule => Sys2Proof.Machine.execWindowClose rule s
  | .fusedRecordStage => Sys2Proof.Machine.execFusedRecordStage s
  | .coregMapScrub => Sys2Proof.Machine.execCoregMapScrub s
  | .inferLoadModel p => Sys2Proof.Machine.execInferLoadModel p s
  | .inferUnloadModel p => Sys2Proof.Machine.execInferUnloadModel p s
  | .inferBind p => Sys2Proof.Machine.execInferBind p s
  | .inferRun p => Sys2Proof.Machine.execInferRun p s
  | .inferGetStats p => Sys2Proof.Machine.execInferGetStats p s
  | .bindingInput => Sys2Proof.Machine.execBindingInput s
  | .runDispatch b => Sys2Proof.Machine.execRunDispatch b s
  | .runComplete b => Sys2Proof.Machine.execRunComplete b s
  | .replayWindowEnd => Sys2Proof.Machine.execReplayWindowEnd s
  | .tileWstallWindow t => Sys2Proof.Machine.execTileWstallWindow t s
  | .approxSetLayers p => Sys2Proof.Machine.execApproxSetLayers p s
  | .approxSetBinding p => Sys2Proof.Machine.execApproxSetBinding p s
  | .approxSetSpeculation p => Sys2Proof.Machine.execApproxSetSpeculation p s
  | .approxSetVerify p => Sys2Proof.Machine.execApproxSetVerify p s
  | .approxGetStats p => Sys2Proof.Machine.execApproxGetStats p s
  | .groupForm p => Sys2Proof.Machine.execGroupForm p s
  | .groupDissolve p => Sys2Proof.Machine.execGroupDissolve p s
  | .groupGetStatus p => Sys2Proof.Machine.execGroupGetStatus p s
  | .tealFrameReceived port f => Sys2Proof.Machine.execTealFrameReceived port f s
  | .tealLossOfLock port => Sys2Proof.Machine.execTealLossOfLock port s
  | .tealRetrainTimeout port => Sys2Proof.Machine.execTealRetrainTimeout port s
  | .groupBindTimeout p => Sys2Proof.Machine.execGroupBindTimeout p s
  | .powerGetStatus p => Sys2Proof.Machine.execPowerGetStatus p s
  | .powerSetDomain p => Sys2Proof.Machine.execPowerSetDomain p s
  | .powerRequestState p => Sys2Proof.Machine.execPowerRequestState p s
  | .powerSetLatency p => Sys2Proof.Machine.execPowerSetLatency p s
  | .schedSetBudget p => Sys2Proof.Machine.execSchedSetBudget p s
  | .schedSetThermal p => Sys2Proof.Machine.execSchedSetThermal p s
  | .schedSetBinding p => Sys2Proof.Machine.execSchedSetBinding p s
  | .stateEntry => Sys2Proof.Machine.execStateEntry s
  | .wakeEvent src => Sys2Proof.Machine.execWakeEvent src s
  | .wakeTimer => Sys2Proof.Machine.execWakeTimer s
  | .onDemandAccess d => Sys2Proof.Machine.execOnDemandAccess d s
  | .domainPowerDown d => Sys2Proof.Machine.execDomainPowerDown d s
  | .domainDrainDone d => Sys2Proof.Machine.execDomainDrainDone d s
  | .domainPowerUp d => Sys2Proof.Machine.execDomainPowerUp d s
  | .domainIdleTimeout d => Sys2Proof.Machine.execDomainIdleTimeout d s
  | .autoDoze => Sys2Proof.Machine.execAutoDoze s
  | .tjSample tj => Sys2Proof.Machine.execTjSample tj s
  | .budgetWindowBoundary => Sys2Proof.Machine.execBudgetWindowBoundary s
  | .voutReadback mv pmbErr => Sys2Proof.Machine.execVoutReadback mv pmbErr s
  | .regulatorTimeout => Sys2Proof.Machine.execRegulatorTimeout s
  | .batSetString p => Sys2Proof.Machine.execBatSetString p s
  | .batLoadTables p => Sys2Proof.Machine.execBatLoadTables p s
  | .batSetLevels p => Sys2Proof.Machine.execBatSetLevels p s
  | .batSetReport p => Sys2Proof.Machine.execBatSetReport p s
  | .batSetSoc p => Sys2Proof.Machine.execBatSetSoc p s
  | .batGetStatus p => Sys2Proof.Machine.execBatGetStatus p s
  | .batterySample codes => Sys2Proof.Machine.execBatterySample codes s
  | .batteryReportPeriod => Sys2Proof.Machine.execBatteryReportPeriod s
  | .accessSetEntry p => Sys2Proof.Machine.execAccessSetEntry p s
  | .accessReadTable p => Sys2Proof.Machine.execAccessReadTable p s
  | .accessGetFaults p => Sys2Proof.Machine.execAccessGetFaults p s
  | .accessCtxViolations p => Sys2Proof.Machine.execAccessCtxViolations p s
  | .grdFaultLatchClear g v => Sys2Proof.Machine.execGrdFaultLatchClear g v s
  | .grdEntryWrite g n word v => Sys2Proof.Machine.execGrdEntryWrite g n word v s
  | .internalAccess a => Sys2Proof.Machine.execInternalAccess a s
  | .intrSetSource p => Sys2Proof.Machine.execIntrSetSource p s
  | .intrGetSource p => Sys2Proof.Machine.execIntrGetSource p s
  | .intrSetpend p => Sys2Proof.Machine.execIntrSetpend p s
  | .intrHostPending p => Sys2Proof.Machine.execIntrHostPending p s
  | .intrHostAck p => Sys2Proof.Machine.execIntrHostAck p s
  | .intrGetStats p => Sys2Proof.Machine.execIntrGetStats p s
  | .carmSetpend v => Sys2Proof.Machine.execCarmSetpend v s
  | .carmTnEoi t v => Sys2Proof.Machine.execCarmTnEoi t v s
  | .carmTnStackRst t v => Sys2Proof.Machine.execCarmTnStackRst t v s
  | .carmTnHold t v => Sys2Proof.Machine.execCarmTnHold t v s
  | .sourceLineChange n level => Sys2Proof.Machine.execSourceLineChange n level s
  | .asyncLatchEdge n e => Sys2Proof.Machine.execAsyncLatchEdge n e s
  | .moderationHoldoffExpiry n => Sys2Proof.Machine.execModerationHoldoffExpiry n s
  | .interruptAcknowledge t => Sys2Proof.Machine.execInterruptAcknowledge t s
  | .interruptCommit t => Sys2Proof.Machine.execInterruptCommit t s
  | .hostRelay => Sys2Proof.Machine.execHostRelay s
  | .faultGetStatus p => Sys2Proof.Machine.execFaultGetStatus p s
  | .faultReadLog p => Sys2Proof.Machine.execFaultReadLog p s
  | .faultEraseLog p => Sys2Proof.Machine.execFaultEraseLog p s
  | .diagSelftest p => Sys2Proof.Machine.execDiagSelftest p s
  | .debugChallenge p => Sys2Proof.Machine.execDebugChallenge p s
  | .debugUnlock p => Sys2Proof.Machine.execDebugUnlock p s
  | .debugLock p => Sys2Proof.Machine.execDebugLock p s
  | .faultMergeRelease cls unit => Sys2Proof.Machine.execFaultMergeRelease cls unit s
  | .logAppendProgram ok => Sys2Proof.Machine.execLogAppendProgram ok s
  | .fwGetSlots p => Sys2Proof.Machine.execFwGetSlots p s
  | .fwBegin p => Sys2Proof.Machine.execFwBegin p s
  | .fwWrite p => Sys2Proof.Machine.execFwWrite p s
  | .fwFinish p => Sys2Proof.Machine.execFwFinish p s
  | .fwHostLoad p => Sys2Proof.Machine.execFwHostLoad p s
  | .fwCommit p => Sys2Proof.Machine.execFwCommit p s
  | .compatOverride p => Sys2Proof.Machine.execCompatOverride p s
  | .porstNRelease straps trained => Sys2Proof.Machine.execPorstNRelease straps trained s
  | .wrstNAssert samples straps => Sys2Proof.Machine.execWrstNAssert samples straps s
  | .voltageDetectorReset aonMv coreMv => Sys2Proof.Machine.execVoltageDetectorReset aonMv coreMv s
  | .queueGetStatus p => Sys2Proof.Machine.execQueueGetStatus p s
  | .queuePeek p => Sys2Proof.Machine.execQueuePeek p s
  | .fabricGetStats p => Sys2Proof.Machine.execFabricGetStats p s
  | .combineReset p => Sys2Proof.Machine.execCombineReset p s
  | .sendWindowStage master q off v => Sys2Proof.Machine.execSendWindowStage master q off v s
  | .descriptorCommit master q header => Sys2Proof.Machine.execDescriptorCommit master q header s
  | .stalledCommitAdmit master => Sys2Proof.Machine.execStalledCommitAdmit master s
  | .queuePop master q off => Sys2Proof.Machine.execQueuePop master q off s
  | .landingWrite => Sys2Proof.Machine.execLandingWrite s
  | .sltQnAck q v => Sys2Proof.Machine.execSltQnAck q v s
  | .contributionProcess c => Sys2Proof.Machine.execContributionProcess c s
  | .combineResultCommit c => Sys2Proof.Machine.execCombineResultCommit c s
  | .sltCnRelease c v => Sys2Proof.Machine.execSltCnRelease c v s
  | .doorbell fn v => Sys2Proof.Machine.execDoorbell fn v s
  | .paramIndirectFetchDone p data => Sys2Proof.Machine.execParamIndirectFetchDone p data s
  | .responsePost p => Sys2Proof.Machine.execResponsePost p s
  | .ringTailWrite fn ring v => Sys2Proof.Machine.execRingTailWrite fn ring v s
  | .recordDeliver fn ring => Sys2Proof.Machine.execRecordDeliver fn ring s
  | .ringModerationHoldoff fn ring => Sys2Proof.Machine.execRingModerationHoldoff fn ring s
  | .flr fn => Sys2Proof.Machine.execFlr fn s
  | .functionMasterEnable fn dstate bme => Sys2Proof.Machine.execFunctionMasterEnable fn dstate bme s
  | .vfDisable numVfs => Sys2Proof.Machine.execVfDisable numVfs s
  | .ethRequest g => Sys2Proof.Machine.execEthRequest g s
  | .ethUpload g => Sys2Proof.Machine.execEthUpload g s
  | .ethFrameReceived f => Sys2Proof.Machine.execEthFrameReceived f s
  | .pcieLinkChange up speed width => Sys2Proof.Machine.execPcieLinkChange up speed width s
  | .registerWrite w => Sys2Proof.Machine.execRegisterWrite w s
  | .tealLinkUp port => Sys2Proof.Machine.execTealLinkUp port s
  | .ethLinkChange port up => Sys2Proof.Machine.execEthLinkChange port up s
  | .dphyResyncDone port => Sys2Proof.Machine.execDphyResyncDone port s
  | .sensorBusTransferDone status moved data => Sys2Proof.Machine.execSensorBusTransferDone status moved data s
  | .commandDmaFetchDone p data => Sys2Proof.Machine.execCommandDmaFetchDone p data s
  | .flashOperationDone ok => Sys2Proof.Machine.execFlashOperationDone ok s
  | .groupFormTimeout => Sys2Proof.Machine.execGroupFormTimeout s
  | .resetDelayExpiry => Sys2Proof.Machine.execResetDelayExpiry s
  | .porstNAssert => Sys2Proof.Machine.execPorstNAssert s
  | .vfEnable numVfs => Sys2Proof.Machine.execVfEnable numVfs s
  | .ptpMessageReceived m => Sys2Proof.Machine.execPtpMessageReceived m s
  | .encoderCountEdge d => Sys2Proof.Machine.execEncoderCountEdge d s

end Sys2Proof.Machine
end

