-- ==== Sys2Proof/Machine/Step.lean ====
section
/-! DEFINITION. One step: the command at the front of the queue is carried out with the rest waiting; with an empty queue
CLK_AON ticks once (log entry 4). -/

namespace Sys2Proof.Machine

/-- The state with the queue replaced. -/
def State.withQueue (s : State) (q : List Instr) : State := { s with pending := q }

def step (s : State) : Host.Outcome State Fault Refusal :=
  match s.pending with
  | [] => .next s.tick
  | c :: cs => exec c (s.withQueue cs)

/-- The state with the command that a word spells at the front of its queue; no word spells one. -/
def State.withFetchWord (s : State) (nbits w : Nat) : State :=
  match Sys2Proof.decodeTableWord nbits w with
  | some i => s.withQueue (i :: s.pending)
  | none => s

end Sys2Proof.Machine
end

