-- ==== Sys2Proof/Safety.lean ====
section
/-! DEFINITION. What a safe run is, and the words that the claims use. The spec leaves no behaviour undefined (00 R5), so a
step is safe when it answers a next state, and a run of `n` steps is safe when each does. -/

namespace Sys2Proof

/-- A step from `s` answers a next state. -/
def Safe (s : Machine.State) : Prop := ∃ t, Machine.step s = .next t

/-- `n` steps from `s` each answer a next state. -/
def SafeRun : Nat → Machine.State → Prop
  | 0, _ => True
  | n + 1, s => ∃ t, Machine.step s = .next t ∧ SafeRun n t

namespace Machine

/-- `l` is the command latched on path `p`, its opcode is `op`, and its turn has come: it is ready, and no other path holds one
latched before it that is (10 R196, R197). -/
def State.turn (s : State) (p op : Nat) (l : Latch) : Prop :=
  s.latch p = some l ∧ l.stage = .ready ∧ l.cmd.opcode = op ∧ s.mayStart l = true

/-- The state with OK and a result formed for the command on a path (10 R195). -/
def State.replyOk (t : State) (p : Nat) (l : Latch) (r : Bytes) : State := t.answer p ⟨cOk, 0, t.respGen l.cmd, r⟩

/-- The state with ACCEPTED formed for the command on a path (10 R195). -/
def State.replyAccepted (t : State) (p : Nat) (l : Latch) : State := t.answer p ⟨cAccepted, 0, t.respGen l.cmd, []⟩

/-- The commands that may change a byte of device or host memory: they store, load, deliver or move data, clear or lose a
memory with its context, function, domain or power state, or commit a configuration that places something in memory. -/
def mayStore : Instr → Bool
  | .accessReadTable _ | .approxSetBinding _ | .approxSetLayers _ | .autoDoze | .changesetCommit _ | .cobaltProject |
    .combineResultCommit _ | .contributionProcess _ | .ctxDestroy _ | .descriptorCommit _ _ _ | .diagSelftest _ |
    .domainDrainDone _ | .domainIdleTimeout _ | .domainPowerDown _ | .encoderCountEdge _ | .encoderEntry _ _ |
    .encoderIndex _ | .ethUpload _ | .evportSetBlocking _ | .evportSetFilters _ | .evportSetFormat _ | .faultReadLog _ |
    .featSetCorner _ | .featSetFlow _ | .featSetSurface _ | .featSetTracker _ | .filterSetBand _ | .filterSetChain _ |
    .filterSetDcblock _ | .filterSetDerived _ | .filterSetThreshold _ | .flr _ | .fuseSetRule _ | .inferBind _ |
    .inferLoadModel _ | .internalAccess _ | .landingWrite | .porstNAssert | .powerSetDomain _ | .projSetPort _ |
    .projSetStack _ | .queueGetStatus _ | .quiesceDrainEnd _ | .recordDeliver _ _ | .registerWrite _ | .rotorMap _ |
    .runComplete _ | .runDispatch _ | .singleCommandCommit _ | .ssiPoll _ _ | .stageGenerationCommand _ |
    .stalledCommitAdmit _ | .stateEntry | .tealFrameReceived _ _ | .tjSample _ | .vfDisable _ | .vfEnable _ |
    .voltageDetectorReset _ _ => true
  | _ => false

/-- The block clocks run: the device is not in DOZE (16 R306). -/
def State.clocksRun (s : State) : Prop := s.ivory.state ≠ 1

/-- A request over the host link arrives, and wakes nothing: HOSTETH is up and the device is not in DOZE (16 R302, R310). -/
def State.hostReach (s : State) : Prop := s.domUp dHOSTETH = true ∧ s.ivory.state ≠ 1

/-- 15 R288: on every processor target the levels rise strictly from the top of the stack down and lie below 32, and a
provisional source is strictly more urgent than the top. -/
def State.stacksOrdered (s : State) : Prop :=
  ∀ t, t < 5 → ((s.tgt t).stack.map fun e => e.1).Pairwise (fun a b => a < b) ∧ (∀ e ∈ (s.tgt t).stack, e.1 < 32) ∧
    (∀ p, (s.tgt t).prov = some p → p.1 < 32 ∧ beats p.1 (s.tgt t).stack = true)

/-- What a page of the command surface does: when its command's turn has come and its checks pass, it has its effect and
answers OK with its result; when a check fails, the error code is formed and nothing else changes (10 R198); with another
command latched, nothing happens. -/
def PageDoes (i : Nat → Instr) (op : Nat) (check : Cmd → State → Check) (act : Cmd → State → State × Bytes) : Prop :=
  (∀ (s : State) (p : Nat) (l : Latch), s.turn p op l → check l.cmd s = .ok () →
    exec (i p) s = .next ((act l.cmd s).1.replyOk p l (act l.cmd s).2)) ∧
  (∀ (s : State) (p : Nat) (l : Latch) (e : CErr), s.turn p op l → check l.cmd s = .error e →
    exec (i p) s = .next (s.answerErr p e (s.respGen l.cmd))) ∧
  (∀ (s : State) (p : Nat), (∀ l, s.latch p = some l → l.cmd.opcode ≠ op) → exec (i p) s = .next s)

/-- The same for a page that needs the flash: with no flash operation to run it acts at once; else it starts the operation
and yields, and once the operation has ended well it acts (10 R198, 11 R223). -/
def FlashPageDoes (i : Nat → Instr) (op : Nat) (check : Cmd → State → Check) (job : Cmd → State → Option FlashJob)
    (finish : Cmd → State → State × Bytes) : Prop :=
  (∀ (s : State) (p : Nat) (l : Latch), s.turn p op l → check l.cmd s = .ok () → job l.cmd s = none →
    exec (i p) s = .next ((finish l.cmd s).1.replyOk p l (finish l.cmd s).2)) ∧
  (∀ (s : State) (p : Nat) (l : Latch) (j : FlashJob), s.turn p op l → check l.cmd s = .ok () → job l.cmd s = some j →
    exec (i p) s = .next ((s.modSys fun y => { y with flashJob := some j, flashDone := none }).toStage p .yielded)) ∧
  (∀ (s : State) (p : Nat) (l : Latch) (d : Option Bytes) (j : FlashJob), s.latch p = some l → l.stage = .resumed d →
    l.cmd.opcode = op → s.sys.flashJob = some j → s.sys.flashDone = some true →
    exec (i p) s = .next ((finish l.cmd (s.modSys fun y => { y with flashJob := none, flashDone := none })).1.replyOk p l
      (finish l.cmd (s.modSys fun y => { y with flashJob := none, flashDone := none })).2)) ∧
  (∀ (s : State) (p : Nat) (l : Latch) (e : CErr), s.turn p op l → check l.cmd s = .error e →
    exec (i p) s = .next (s.answerErr p e (s.respGen l.cmd))) ∧
  (∀ (s : State) (p : Nat), (∀ l, s.latch p = some l → l.cmd.opcode ≠ op) → exec (i p) s = .next s)

/-- What a page of a generation-bearing command does, on a state and a command that meet `P` (12 R234, R235): a failed check
forms its code; one that passes waits for the data it fetches, if any; and with its data there it is staged in the open set,
or, with no set open, is committed alone. -/
def GenerationPageDoes (i : Nat → Instr) (pg : GPage) (P : State → Cmd → Prop) : Prop :=
  ∀ (s : State) (p : Nat) (l : Latch) (x : Ctx), s.latch p = some l → l.cmd.opcode = pg.op → s.ctx? l.cmd.ctx = some x →
    P s l.cmd →
    let c := l.cmd
    let v := s.projected c.ctx
    let w := s.projectedAll
    let ready := l.stage = .ready ∧ s.mayStart l = true
    (∀ e, ready → gCheck pg c x v s = .error e → exec (i p) s = .next (s.answerErr p e (s.respGen c))) ∧
    (∀ a n, ready → gCheck pg c x v s = .ok () → pg.fetch c v = some (a, n) →
      exec (i p) s = .next ((s.dmaAsk c.path a n).toStage p .yielded)) ∧
    (∀ data, gCheck pg c x v s = .ok () →
      (ready ∧ pg.fetch c v = none ∧ data = []) ∨
      (∃ r a n, l.stage = .resumed r ∧ pg.fetch c v = some (a, n) ∧ s.dmaRead c.path a n r = some data ∧
        pg.data c data v = .ok ()) →
      let g : GCmd := ⟨c.opcode, c.block, data, c.ctx, 0⟩
      (x.set = none →
        (∀ e, pg.reserve g c.ctx v w s = .error e → exec (i p) s = .next (s.answerErr p e (s.respGen c))) ∧
        (∀ y t u h, pg.reserve g c.ctx v w s = .ok y → s.bindGate c = .go t → pg.reserve g c.ctx v w t = .ok (u, h) →
          exec (i p) s = .next ((u.commit c.ctx [{ g with handle := h }] c.latchedAt).replyOk p l (pg.result h)))) ∧
      (∀ k, x.set = some k →
        let s1 := (k.staged.filter fun o => ({ g with handle := u16 c.block 0 } : GCmd).replaces o).foldl
          (fun t o => t.unreserve o) s
        (∀ e, pg.reserve g c.ctx v w s1 = .error e → exec (i p) s = .next (s.answerErr p e (s.respGen c))) ∧
        (∀ y t u h, pg.reserve g c.ctx v w s1 = .ok y → s1.bindGate c = .go t → pg.reserve g c.ctx v w t = .ok (u, h) →
          exec (i p) s = .next ((u.setChanges c.ctx (some (k.add { g with handle := h }))).replyOk p l (pg.result h)))))

end Machine

end Sys2Proof
end

