-- ==== Sys2Proof/Certificates/Slice0/Obligations.lean ====
section
/-! DEFINITION. The statements for the provers. Each says in its title what it states and names the rules of spec/ that it
rests on; every one is about `exec`, `step` or the operations of the model in every state that meets its hypotheses. -/

section
open Sys2Proof Sys2Proof.Machine

/-- A step carries out the command at the front of the queue, and with an empty queue CLK_AON ticks once.
(95_what_each_step_holds.md, 02_time.md Time base.) -/
def Obligations.StepRunsTheFrontCommand : Prop :=
  (∀ (c : Instr) (q : List Instr) (s : State), step (s.withQueue (c :: q)) = exec c (s.withQueue q)) ∧
  (∀ s : State, s.pending = [] → step s = .next s.tick)

/-- Every command completes in every state, so every run is safe. (R5.) -/
def Obligations.EveryRunIsSafe : Prop :=
  (∀ (c : Instr) (s : State), ∃ t, exec c s = .next t) ∧ ∀ (n : Nat) (s : State), SafeRun n s

/-- The state held in power-on reset: registers at their Reset column, stores empty, memories in canonical form. (R8, R34,
R219, R341, R369.) -/
def Obligations.ResetState : Prop :=
  (∀ a, State.reset.reg a = regReset a) ∧ State.reset.Mems ∧ State.reset.pending = [] ∧ State.reset.sys.inPorst = true ∧
  (∀ a, readByte State.reset.mem a = 0 ∧ readByte State.reset.hostMem a = 0) ∧
  (State.reset.reg R.SBL_ON_BATT_MA = 2000 ∧ State.reset.reg R.SBL_PERIOD_S = 60 ∧ State.reset.reg R.AMB_FREQ_ADJ = 0 ∧
    State.reset.reg (R.SBL_Sn_LEVELS 3) = 0x02050F1E ∧ State.reset.reg (R.SBL_Sn_VGAIN 0) = 0x10000) ∧
  State.reset.now = 0 ∧ State.reset.amber.farmQ = 0 ∧ State.reset.amber.epoch = 0 ∧ State.reset.amber.state = .freerun ∧
  (∀ p, (State.reset.port p).fifo = []) ∧ (∀ t, (State.reset.tgt t).stack = []) ∧ State.reset.indigo.binds = [] ∧
  State.reset.host.ctxs = [] ∧ State.reset.ivory.state = 0 ∧ State.reset.stacksOrdered

/-- At PORST_N release farm time, steady time and the epoch are 0, the state is FREERUN and AMB_FREQ_ADJ is 0. (R34.) -/
def Obligations.TimeStartsAtRelease : Prop :=
  ∀ (s : State) (straps : Nat) (trained : Bool), ∃ t u, exec .porstNAssert s = .next t ∧
    exec (.porstNRelease straps trained) t = .next u ∧
    u.amber.farmQ = 0 ∧ u.amber.steadyQ = 0 ∧ u.amber.epoch = 0 ∧ u.amber.state = .freerun ∧ u.reg R.AMB_FREQ_ADJ = 0

/-- Every step keeps both memories in canonical form. (R17, 01_journey.md.) -/
def Obligations.MemoriesStayCanonical : Prop :=
  (∀ (c : Instr) (s t : State), s.Mems → exec c s = .next t → t.Mems) ∧ ∀ s t : State, s.Mems → step s = .next t → t.Mems

/-- A command that stores nothing leaves every byte of both memories as it was. (95_what_each_step_holds.md, R17.) -/
def Obligations.MemoryFrame : Prop :=
  ∀ (c : Instr) (s t : State), mayStore c = false → exec c s = .next t →
    ∀ a, readByte t.mem a = readByte s.mem a ∧ readByte t.hostMem a = readByte s.hostMem a

/-- A page command that completes with a code other than OK leaves the device unchanged but for its response. (R198,
R195.) -/
def Obligations.RefusedCommandsChangeNothing : Prop :=
  ∀ (i : Nat → Instr) (op : Nat) (check : Cmd → State → Check) (s : State) (p : Nat) (l : Latch) (r : Resp) (t : State),
    ((∃ act, PageDoes i op check act) ∨ ∃ job finish, FlashPageDoes i op check job finish) → s.turn p op l →
    exec (i p) s = .next t → t.latch p = some { l with stage := .answered r } → r.status ≠ cOk → t = s.answer p r

/-- The page commands of time, of the event ports, of projection and of features that need no generation. States completion of each. (02_time.md
Command pages, R198, 03_event_ports.md Command pages, 04_projection.md Command pages, 05_features.md Command pages,
R106.) -/
def Obligations.TimePortProjectionAndFeaturePages : Prop :=
 (PageDoes .timeGet 0x0301 (fun _ _ => .ok ()) (fun _ s => (s, s.timeGet)) ∧
  PageDoes .timeSetServo 0x0302 timeSetServoCheck (fun c s =>
      let b := c.block
      (s.setServo (u8 b 0) (u8 b 1) (u8 b 2) (u8 b 3) (u8 b 4) (u32 b 8), [])) ∧
  PageDoes .ptpSetPort 0x0303 ptpSetPortCheck (fun c s => (s.setPtpPort c.block, [])) ∧
  PageDoes .timeStep 0x0304 timeStepCheck (fun c s => (s.timeStep (u48 c.block 0) (u32 c.block 8), [])) ∧
  PageDoes .timeSetPins 0x0305 timeSetPinsCheck (fun c s => (s.setPins c.block, [])) ∧
  PageDoes .timeReadCaptures 0x0306 timeReadCapturesCheck (fun c s => s.readCaptures (u8 c.block 0) (u8 c.block 1))) ∧
 (PageDoes .evportAssign 0x0401 checkAssign actAssign ∧
  PageDoes .evportGetStats 0x0405 checkPortStats actPortStats ∧
  PageDoes .sensorSetTrigger 0x0407 checkTrigger actTrigger) ∧
 (PageDoes .projSetRotor 0x0501 checkRotor actRotor ∧
  PageDoes .projSetImu 0x0502 checkImu actImu ∧
  PageDoes .projReleaseMap 0x0505 checkReleaseMap actReleaseMap ∧
  PageDoes .projGetState 0x0506 (fun _ s => s.reach dCOB) actProjState) ∧
 (PageDoes .featSetTick 0x0605 (fun c s => allOf [s.reach dSEP, inRange (u16 c.block 0) 100 10000 0, reserved c.block 2 2]) (fun c s => ((s.touch dSEP).modSepia fun x => { x with tickNext := some (w32 (u16 c.block 0)) }, [])) ∧
  PageDoes .featGetStats 0x0606 (fun c s => allOf [surfAccess (u8 c.block 0) c.ctx s, inRange (u8 c.block 1) 0 1 1, reserved c.block 2 2]) actSurfStats ∧
  (∀ (s : State) (k : Nat) (v : Word),
    (bit v 0 = true → exec (.sepSnCntClr k v) s =
      .next (s.resetRegs (R.SEP_Sn_EVENTS k) (R.SEP_Sn_TRK_ENDED k + 4))) ∧
    (bit v 0 = false → exec (.sepSnCntClr k v) s = .next s)))

/-- AMB_SNAP and AMB_STEP_CMD arm the next tick, AMB_SLEW_REQ replaces the slewed remainder once what the present tick
applies is applied, and a read of a capture pop window takes the oldest entry, whose words fill the window; an empty FIFO
reads zero (log entry 10). States completion of ambSnap, ambSlewReq, ambStepCmd and ambCapPop in every state. (R38, R50,
02_time.md Register map.) -/
def Obligations.AmberRegisterCommands : Prop :=
  ∀ (s : State) (v : Word) (n : Nat),
    exec (.ambSnap v) s = .next (if bit v 0 then { s with amber := { s.amber with snapArmed := true } } else s) ∧
    exec (.ambSlewReq v) s = .next { s.settleClock with
      amber := { s.settleClock.amber with slewQ := v.toInt * 65536 } } ∧
    (s.amber.servoDue = false → s.amber.stepDue = false → s.settleClock = s) ∧
    exec (.ambStepCmd v) s = .next (if bit v 0 then { s with amber := { s.amber with stepArmed := true } } else s) ∧
    (let w := R.AMB_CTRL + 0xA0 + n * 8
     let x := R.AMB_CTRL + 0xC0 + n * 16
     (∀ e es, s.capsOf n = e :: es →
      exec (.ambCapPop n) s = .next {
        ((s.setCaps n es).setRegs w [w32 e.stamp.sec, w32 (e.stamp.sec / 0x100000000 + e.stamp.epoch.toNat * 65536)]).setRegs
          x [w32 e.stamp.ns, w32 e.stamp.steady, w32 (e.stamp.steady / 0x100000000)] with
        readData := leBytes 4 e.stamp.sec, readErr := false }) ∧
     (s.capsOf n = [] → exec (.ambCapPop n) s =
      .next { (s.setRegs w [0, 0]).setRegs x [0, 0, 0] with readData := leBytes 4 0, readErr := false }))

/-- Tick events that report an anchor settle their tick; the end of a slew, a lost master, a missed pulse, a second and
the end of a pulse. States completion of epochStep, ts32Wrap, anchorPeriodExpiry, servoOffsetApply, slewComplete,
announceTimeout, ppsInMissed, ppsOutSecond and ppsOutPulseEnd. (R36, 95_what_each_step_holds.md EPOCH_STEP (R39), R38, R42, R48.) -/
def Obligations.AmberTicks : Prop :=
 (∀ s : State,
    (s.amber.stepDue = true → exec .epochStep s = .next s.settleTick) ∧ (s.amber.stepDue = false → exec .epochStep s = .next s) ∧
    (s.amber.wrapDue = true → exec .ts32Wrap s = .next s.settleTick) ∧ (s.amber.wrapDue = false → exec .ts32Wrap s = .next s) ∧
    (s.amber.lastAnchor + s.regN R.AMB_ANCHOR_PERIOD ≤ s.now → exec .anchorPeriodExpiry s = .next s.settleTick) ∧
    (s.now < s.amber.lastAnchor + s.regN R.AMB_ANCHOR_PERIOD → exec .anchorPeriodExpiry s = .next s) ∧
    (s.amber.servoDue = true → exec .servoOffsetApply s = .next s.settleTick) ∧
    (s.amber.servoDue = false → exec .servoOffsetApply s = .next s)) ∧
 (∀ s : State,
    (s.amber.slewDue = true →
      exec .slewComplete s = .next ((s.modAmber fun a => { a with slewDue := false }).assertSource 364)) ∧
    (∀ m, s.selectedMaster = some m → s.amber.lastAnnounce + 3 * announceNs m.msg.logInterval ≤ s.now →
      exec .announceTimeout s = .next (
        let t := ((s.modAmber fun a => { a with
          masters := a.masters.filter fun x => (x.msg.identity, x.msg.port) ≠ (m.msg.identity, m.msg.port),
          selected := none }).bumpSat (R.AMB_PTPn_ANN_TMO m.msg.port)).assertSource (362 + m.msg.port)
        let u := (if t.masterCapable then t.enterPort m.msg.port 6 else t).runBmca
        ((if s.reference = 1 then u.enterHoldover else u).portTimer 0).portTimer 1)) ∧
    (s.selectedMaster = none → s.amber.overdueAt = none →
      exec .announceTimeout s = .next ((s.portTimer 0).portTimer 1)) ∧
    (∀ n, (s.portState n = 5 → (s.ptpPort n).masterAt ≤ s.now → s.portTimer n = s.enterPort n 6) ∧
      (s.portState n ≠ 5 → s.portState n ≠ 4 → s.portTimer n = s)) ∧
    (∀ t, s.amber.ppsInLast = some t → s.reference = 2 →
      t + (s.amber.ppsMisses + 1) * 1000000000 + 500000000 ≤ s.now →
      exec .ppsInMissed s = .next (
        let u := ((s.modAmber fun a => { a with ppsMisses := s.amber.ppsMisses + 1 }).bumpSat R.AMB_PPS_IN_MISS).assertSource 358
        if 2 ≤ s.amber.ppsMisses then u.enterHoldover else u)) ∧
    (∀ k, s.amber.ppsDue = some k → s.regBit R.AMB_PPS_OUT_WIDTH 31 = true → s.amber.ppsOut = false →
      s.ppsGuarded k = false → seenSecond k s.amber.ppsSeen = false → s.amber.ppsNext = none →
      exec .ppsOutSecond s = .next ((((s.modAmber fun a => { a with
        ppsDue := none, ppsSeen := addSecond k a.ppsSeen, ppsOut := true,
        ppsFallAt := s.now + s.regFld R.AMB_PPS_OUT_WIDTH 30 0 * 1000 }).assertSource 356)).modAmber fun a =>
          { a with ppsGuard := none })) ∧
    (s.amber.ppsOut = true → s.amber.ppsFallAt ≤ s.now →
      exec .ppsOutPulseEnd s = .next { s with amber := { s.amber with ppsOut := false } }))

/-- An armed step sets farm time to its target and increments the epoch; it is counted, and its anchor carries the held
time and the old epoch. (R39, R32, R37, R48.) -/
def Obligations.StepOfFarmTime : Prop :=
 (∀ s : State, s.amber.stepDue = true → s.amber.servoDue = false →
    ∃ t, exec .epochStep s = .next t ∧ t.amber.farmQ = s.stepTarget * 65536 % farmModQ ∧
      t.amber.epoch = s.amber.epoch + 1 ∧ t.amber.slewQ = 0 ∧ t.amber.stepDue = false ∧ t.amber.steadyQ = s.amber.steadyQ) ∧
 (∀ (s : State) (target : Nat),
    let t := ((s.modAmber fun a => { a with
        farmQ := target * 65536 % farmModQ, epoch := a.epoch + 1, slewQ := 0, stepDue := false,
        stepped := true, ppsGuard := none }).bumpSat R.AMB_STEP_COUNT).assertSource 352
    let u := t.anchorReason fun n => { n with
      step := true, prevSec := s.amber.heldQ / 65536 / 1000000000 % 2 ^ 48, prevEpoch := s.amber.epoch,
      prevNs := s.amber.heldQ / 65536 % 1000000000 }
    let skipped := secondOf (target * 65536) s.ppsOfs - secondOf s.amber.heldQ s.ppsOfs
    (skipped ≤ 0 → s.doStep target = u) ∧
    (0 < skipped →
      s.doStep target = (u.bumpSat R.AMB_PPS_SKIP skipped.toNat).assertSource 365))

/-- Edges at PPS_IN and TS_CAPTURE: stamped into a 16-entry FIFO, dropped and counted when it is full; a rising edge at PPS_IN
as the reference gives the servo its offset as well. States completion of ppsInEdge and tsCaptureEdge. (R41, R49.) -/
def Obligations.CapturePinEdges : Prop :=
  (∀ (s : State) (n : Nat) (e : Edge) (ns src : Nat),
    (s.capSelects n e = true → (s.capsOf n).length < 16 →
      s.capture n e (s.stampNs ns) src = (s.setCaps n (s.capsOf n ++ [⟨s.stampNs ns, e⟩])).assertSource src) ∧
    (s.capSelects n e = true → 16 ≤ (s.capsOf n).length →
      s.capture n e (s.stampNs ns) src = (s.setRegFld R.AMB_CAP_OVF (8 * n + 7) (8 * n)
          (Nat.min (s.regFld R.AMB_CAP_OVF (8 * n + 7) (8 * n) + 1) 255)).assertSource 361) ∧
    (s.capSelects n e = false → s.capture n e (s.stampNs ns) src = s)) ∧
  (∀ (s : State) (n : Nat) (e : Edge) (ns : Nat),
    exec (.tsCaptureEdge n e ns) s = .next (s.capture n e (s.stampNs ns) (358 + n))) ∧
  (∀ (s : State) (e : Edge) (ns : Nat),
    let t := s.stampNs ns
    let u := s.capture 0 e t 357
    (s.reference ≠ 2 ∨ e = .fall → exec (.ppsInEdge e ns) s = .next u) ∧
    (s.reference = 2 → e = .rise → exec (.ppsInEdge e ns) s =
      .next (u.modAmber fun a => { a with
        ppsInLast := some t.steady, ppsMisses := 0
        servo := some (if t.ns < 500000000 then -(t.ns : Int) else 1000000000 - (t.ns : Int)) })))

/-- PTP messages at an enabled port: Sync, Announce, the others, and a message committed for egress. States completion of
syncReceived, ptpMessageReceived, announceReceived and ptpEventTransmit. (R44, R47, R373.) -/
def Obligations.PtpMessages : Prop :=
  (∀ (s : State) (m : PtpMsg), s.hostReach →
    (s.ptpAdmit m.port m.tags m.domain = true →
      exec (.syncReceived m) s = .next (s.ptpSync m) ∧ exec (.ptpMessageReceived m) s = .next (s.ptpReceive m)) ∧
    (s.ptpEnabled m.port = true → s.ptpAdmit m.port m.tags m.domain = false → s.isTc = false →
      exec (.syncReceived m) s = .next (s.bumpSat (R.AMB_PTPn_IGNORED m.port)) ∧
      exec (.ptpMessageReceived m) s = .next (s.bumpSat (R.AMB_PTPn_IGNORED m.port))) ∧
    (s.ptpEnabled m.port = true → m.tags ≤ 1 → m.domain ≠ s.ptpDomain → (s.ptpIgnore m.port).forwards m.port = true →
      exec (.syncReceived m) s = .next ((s.ptpIgnore m.port).send (.ptpForward (1 - m.port) m.kind m.seqId)) ∧
      exec (.ptpMessageReceived m) s = .next ((s.ptpIgnore m.port).send (.ptpForward (1 - m.port) m.kind m.seqId))) ∧
    (s.ptpEnabled m.port = false → exec (.syncReceived m) s = .next s ∧ exec (.ptpMessageReceived m) s = .next s)) ∧
  (∀ (s : State) (m : Announce), s.hostReach →
    (s.ptpAdmit m.port m.tags m.domain = true →
      exec (.announceReceived m) s = .next ((s.hearAnnounce m).runBmca.forwardAnnounce m)) ∧
    (s.forwards m.port = false ∨ 1 < m.tags → s.forwardAnnounce m = s) ∧
    (s.ptpEnabled m.port = true → s.ptpAdmit m.port m.tags m.domain = false →
      exec (.announceReceived m) s = .next ((s.ptpIgnore m.port).forwardAnnounce m)) ∧
    (s.ptpEnabled m.port = false → exec (.announceReceived m) s = .next s)) ∧
  (∀ (s : State) (m : PtpTx), s.clocksRun →
    let n := m.port
    let tr := s.ptpTransport n
    let tout := s.egress n m.ns
    let t := s.bump (R.AMB_PTPn_TX_EVENT n)
    (s.ptpEnabled n = false → exec (.ptpEventTransmit m) s = .next s) ∧
    (s.ptpEnabled n = true → m.forwarded = false →
      (msgKind m.msg = .sync → s.regBit (R.AMB_PTPn_CFG n) 5 = true → exec (.ptpEventTransmit m) s =
        .next (t.send (.ptp n (ptpFrame tr m.head (putOrigin m.msg tout))))) ∧
      (msgKind m.msg = .sync → s.regBit (R.AMB_PTPn_CFG n) 5 = false → exec (.ptpEventTransmit m) s =
        .next ((t.send (.ptp n (ptpFrame tr m.head m.msg))).send (.ptpReply n tr .followUp (msgSeq m.msg) tout))) ∧
      (msgKind m.msg = .pdelayResp → s.regBit (R.AMB_PTPn_CFG n) 5 = false → exec (.ptpEventTransmit m) s =
        .next ((t.send (.ptp n (ptpFrame tr m.head m.msg))).send
          (.ptpReply n tr .pdelayRespFollowUp (msgSeq m.msg) tout))) ∧
      (msgKind m.msg = .pdelayResp → s.regBit (R.AMB_PTPn_CFG n) 5 = true → exec (.ptpEventTransmit m) s =
        .next (t.send (.ptp n (ptpFrame tr m.head m.msg)))) ∧
      (msgKind m.msg = .delayReq ∨ msgKind m.msg = .pdelayReq → exec (.ptpEventTransmit m) s = .next (
        let u := t.send (.ptp n (ptpFrame tr m.head m.msg))
        u.setPtp n { u.ptpPort n with sent := some (msgSeq m.msg, tout) }))) ∧
    (∀ k q tin, s.ptpEnabled n = true → m.forwarded = true →
      (s.ptpPort (1 - n)).transit.find? (fun x => (x.1, x.2.1) = (msgKind m.msg, msgSeq m.msg)) = some (k, q, tin) →
      exec (.ptpEventTransmit m) s = .next ((t.setPtp (1 - n) { s.ptpPort (1 - n) with
          transit := (s.ptpPort (1 - n)).transit.filter fun x => (x.1, x.2.1) ≠ (msgKind m.msg, msgSeq m.msg) }).send
        (.ptp n (ptpFrame m.transport m.head (addCorrection m.msg (tout - tin)))))))

/-- SENSOR_XFER, OCH_SBUS_GO, OCH_SBUS_DATA and the end of a sensor bus transfer. States completion of sensorXfer,
ochSbusGo, ochSbusDataPop and sensorBusTransferDone. (R70, 03_event_ports.md Command pages.) -/
def Obligations.SensorTransfers : Prop :=
  ∀ (s : State) (p : Nat) (l : Latch),
    let b := l.cmd.block
    (s.turn p 0x0406 l → checkXfer l.cmd s = .ok () → u8 b 1 = 2 →
      exec (.sensorXfer p) s = .next (((s.touch dEVTA).sbusStart 2 ((s.port (u8 b 0)).spiCs.getD 0) (u8 b 2) (u16 b 4)
        (slice b 16 (u16 b 6)) (u16 b 8) (some l.cmd.path)).toStage p .yielded)) ∧
    (∀ bus a, s.turn p 0x0406 l → checkXfer l.cmd s = .ok () → u8 b 1 ≠ 2 → (s.port (u8 b 0)).i2c = some (bus, a) →
      exec (.sensorXfer p) s = .next (((s.touch dEVTA).sbusStart (u8 b 1) a 0 (u16 b 4)
        (slice b 16 (u16 b 6)) (u16 b 8) (some l.cmd.path)).toStage p .yielded)) ∧
    (∀ e, s.turn p 0x0406 l → checkXfer l.cmd s = .error e →
      exec (.sensorXfer p) s = .next (s.answerErr p e (s.respGen l.cmd))) ∧
    (∀ r, s.latch p = some l → l.stage = .resumed (some r) → l.cmd.opcode = 0x0406 →
      exec (.sensorXfer p) s = .next (s.replyOk p l (slice r 0 4 ++ slice r 4 (u16 b 8)))) ∧
    (let bus := s.regFld R.OCH_SBUS_SEL 1 0
     let n := s.regFld R.OCH_SBUS_LEN 8 0
     let t := s.modOchre fun o => { o with sbusTx := o.sbusTx.drop n, sbusRx := [] }
     (∀ v, bit v 0 = true → s.sbusBusy bus = false → bus < 2 →
      exec (.ochSbusGo v) s = .next (t.sbusStart bus (s.regFld R.OCH_SBUS_CFG 6 0) 0 (s.regFld R.OCH_SBUS_CFG 31 16)
        (slice s.ochre.sbusTx 0 n) (s.regFld R.OCH_SBUS_LEN 24 16) none)) ∧
     (∀ v, bit v 0 = true → s.sbusBusy bus = false → bus = 2 →
      exec (.ochSbusGo v) s = .next (t.sbusStart 2 (s.regFld R.OCH_SBUS_CFG 10 8) (s.regFld R.OCH_SBUS_CFG 13 12)
        (s.regFld R.OCH_SBUS_CFG 31 16) (slice s.ochre.sbusTx 0 n) (s.regFld R.OCH_SBUS_LEN 24 16) none)) ∧
     (∀ v, bit v 0 = false ∨ s.sbusBusy bus = true ∨ bus = 3 → exec (.ochSbusGo v) s = .next s)) ∧
    (∀ x, exec (.ochSbusDataPop (some x)) s = .next (s.modOchre fun o => { o with sbusTx := o.sbusTx ++ [x] })) ∧
    (∀ x xs, s.ochre.sbusRx = x :: xs →
      exec (.ochSbusDataPop none) s = .next { s with ochre := { s.ochre with sbusRx := xs }, readData := [x], readErr := false }) ∧
    (s.ochre.sbusRx = [] →
      exec (.ochSbusDataPop none) s = .next { s.tookFree with readData := [s.free.setWidth 8], readErr := false }) ∧
    (∀ bus st n d,
      let t := s.modOchre fun o => { o with
        sbusRuns := o.sbusRuns.erase bus, sbusLast := o.sbusLast.set bus (w32 (st % 4 * 2 + n % 512 * 0x10000)) }
      (s.ochre.sbusRuns.get? bus = none → exec (.sensorBusTransferDone ⟨bus, st⟩ n d) s = .next s) ∧
      (s.ochre.sbusRuns.get? bus = some none →
        exec (.sensorBusTransferDone ⟨bus, st⟩ n d) s = .next (t.modOchre fun o => { o with sbusRx := d })) ∧
      (∀ q, s.ochre.sbusRuns.get? bus = some (some q) →
        exec (.sensorBusTransferDone ⟨bus, st⟩ n d) s = .next (t.toStage q
          (.resumed (some (leBytes 1 st ++ leBytes 1 0 ++ leBytes 2 n ++ d))))))

/-- A CSI-2 packet at a port: received, counted, refused, or taken into the receive buffer. States
completion of csi2PacketReceived. (R53, R54.) -/
def Obligations.PacketReception : Prop :=
  ∀ (s : State) (p : Nat) (k : Csi2Packet), s.clocksRun → p < 8 →
    let f := s.fed (portDomain p)
    let raw := f.stampEvt k.cycles
    let s1 := f.setReg64 (R.OCH_Pn_LAST_PKT_LO p) raw.steady
    let s2 := s1.setPort p { s1.port p with silentSaid := false }
    let t := raw.shift (-(f.regFld (R.OCH_Pn_TIMING p) 15 0 : Int))
    let s3 := if k.hdr = .corrected then s2.bumpSat (R.OCH_Pn_HDR_CORR p) else s2
    let fits := k.dt = f.regFld (R.OCH_Pn_FMT p) 7 0 ∧ f.regBit (R.OCH_Pn_LINK p) (8 + k.vc % 4) = true
    (f.portReceives p = false → exec (.csi2PacketReceived p k) s = .next f) ∧
    (f.portReceives p = true → f.portOwner p = noOwner →
      exec (.csi2PacketReceived p k) s = .next (s2.bumpSat (R.OCH_Pn_IGN_PKT p))) ∧
    (f.portReceives p = true → f.portOwner p ≠ noOwner →
      (k.hdr = .uncorrectable → exec (.csi2PacketReceived p k) s = .next (s2.packetError p 0 k.payload.length t)) ∧
      (k.hdr ≠ .uncorrectable → k.dt < 4 → exec (.csi2PacketReceived p k) s = .next s3) ∧
      (k.hdr ≠ .uncorrectable → 4 ≤ k.dt → fits → exec (.csi2PacketReceived p k) s = .next (s3.acceptPacket p k t)) ∧
      (k.hdr ≠ .uncorrectable → 4 ≤ k.dt → ¬ fits →
        exec (.csi2PacketReceived p k) s = .next ((s3.bumpSat (R.OCH_Pn_IGN_DT p)).assertSource (p * 8 + 3))))

/-- One word of the receive buffer is decoded, and events pass to Cobalt. States completion of eventDecode and
eventHandoff. (R62, R63.) -/
def Obligations.EventDecodeAndHandOff : Prop :=
  ∀ (s : State) (p : Nat), s.clocksRun → p < 8 →
    (∀ k ks, s.domUp (portDomain p) = true → (s.port p).rx = k :: ks → s.portOwner p ≠ noOwner →
      let u := k.rest.take (s.unitBytes p)
      let rest := k.rest.drop (s.unitBytes p)
      (s.unitBytes p ≤ k.rest.length → s.unitMask p u = none →
        exec (.eventDecode p) s = .next (
          let t := s.bumpSat (R.OCH_Pn_IGN_WORD p)
          t.setPort p { t.port p with rx := if rest = [] then ks else { k with rest := rest } :: ks })) ∧
      (∀ offs, s.unitBytes p ≤ k.rest.length → s.unitMask p u = some offs →
        exec (.eventDecode p) s = .next (
          let r := s.produce p k u offs
          r.1.setPort p { r.1.port p with rx := if rest = [] then ks else { r.2 with rest := rest } :: ks })) ∧
      (k.rest = [] → exec (.eventDecode p) s = .next (s.setPort p { s.port p with rx := ks })) ∧
      (k.rest ≠ [] → k.rest.length < s.unitBytes p →
        exec (.eventDecode p) s = .next ((s.setPort p { s.port p with rx := ks }).bumpSat (R.OCH_Pn_IGN_WORD p)))) ∧
    ((s.port p).rx = [] ∨ s.domUp (portDomain p) = false ∨ s.portOwner p = noOwner →
      exec (.eventDecode p) s = .next s) ∧
    (s.domUp dCOB = true → (s.grantPorts 1).isEmpty = true → exec .eventHandoff s =
      .next (forEach (s.grantPorts (3 - s.cobalt.inq.length)) (fun q t => t.grantEvent q) s)) ∧
    (s.domUp dCOB = true → (s.grantPorts 1).isEmpty = false → exec .eventHandoff s =
      .next (forEach ((s.fed dCOB).grantPorts (3 - (s.fed dCOB).cobalt.inq.length)) (fun q t => t.grantEvent q) (s.fed dCOB))) ∧
    (∀ e es, (s.port p).fifo = e :: es →
      (s.grantEvent p).cobalt.inq = s.cobalt.inq ++ [e] ∧ ((s.grantEvent p).port p).fifo = es ∧
      (s.grantEvent p).ochre.lastGrant = p)

/-- The timers of a port and of a trigger output, the reports of an open gap of an event port and of a TDM port, a clear of
the counters, and the end of a resync. States completion of blockTimeout, filterMapScrub, portSilent, portActivityWindow,
triggerFire, triggerPulseEnd, gapContinues, ochPnCntClr and dphyResyncDone. (R61, R64, R66, R71,
R72, R73.) -/
def Obligations.OchreTimers : Prop :=
  ∀ (s : State) (p : Nat), s.clocksRun → p < 8 →
    ((s.port p).timer + s.regN (R.OCH_Pn_BLOCK_TMO p) * 1000 ≤ s.now → exec (.blockTimeout p) s = .next (s.boundary p)) ∧
    (s.now < (s.port p).timer + s.regN (R.OCH_Pn_BLOCK_TMO p) * 1000 → exec (.blockTimeout p) s = .next s) ∧
    exec (.filterMapScrub p) s = .next (s.setPort p { s.port p with
      map := (s.port p).map.filter fun e => mapAge s.mapNow e.2 < 16384 }) ∧
    (s.regN (R.OCH_Pn_SILENT_US p) ≠ 0 → (s.port p).silentSaid = false →
      s.reg64 (R.OCH_Pn_LAST_PKT_LO p) + s.regN (R.OCH_Pn_SILENT_US p) * 1000 ≤ s.now →
      exec (.portSilent p) s = .next ((s.setPort p { s.port p with silentSaid := true }).assertSource (p * 8 + 6))) ∧
    (s.regN (R.OCH_Pn_SILENT_US p) = 0 ∨ (s.port p).silentSaid = true → exec (.portSilent p) s = .next s) ∧
    ((s.port p).activeFrom + 1000000 ≤ s.now →
      exec (.portActivityWindow p) s = .next (
        let t := s.setPort p { s.port p with active := 0, activeFrom := s.now / 1000000 * 1000000 }
        if s.regN (R.OCH_Pn_WAKE_THR p) ≠ 0 ∧ s.regN (R.OCH_Pn_WAKE_THR p) ≤ (s.port p).active then t.assertSource (p * 8 + 5)
        else t)) ∧
    (s.domUp dEVTA = true → s.regBit (R.OCH_TRIGn_CFG p) 2 = true → s.trigStart p ≤ s.clock.farmQ / 65536 →
      exec (.triggerFire p) s = .next (s.fireTrig p s.now)) ∧
    (∀ t, s.domUp dEVTA = true → s.regBit (R.OCH_TRIGn_CFG p) 2 = false → (s.trig p).next = some t → t ≤ s.now →
      exec (.triggerFire p) s = .next (s.fireTrig p t)) ∧
    (2 ≤ s.regFld (R.OCH_TRIGn_CFG p) 1 0 → (s.trig p).level = true → (s.trig p).fallAt ≤ 2 * s.now →
      exec (.triggerPulseEnd p) s = .next (s.setTrig p { s.trig p with level := false })) ∧
    (∀ g, (s.port p).gap = some g →
      (g.reportAt + 10000000 ≤ s.now → exec (.gapContinues false p) s = .next ((s.setPort p { s.port p with
        gap := some { g with events := 0, bytes := 0, reportAt := g.reportAt + 10000000 } }).emitGap p g true)) ∧
      (s.now < g.reportAt + 10000000 → exec (.gapContinues false p) s = .next s)) ∧
    ((s.port p).gap = none → exec (.gapContinues false p) s = .next s) ∧
    (∀ g, (s.tdm p).gap = some g →
      (g.reportAt + 10000000 ≤ s.now → exec (.gapContinues true p) s = .next ((s.setTdm p { s.tdm p with
        gap := some { g with events := 0, reportAt := g.reportAt + 10000000 } }).emitTdmGap p g true)) ∧
      (s.now < g.reportAt + 10000000 → exec (.gapContinues true p) s = .next s)) ∧
    ((s.tdm p).gap = none → exec (.gapContinues true p) s = .next s) ∧
    (∀ v, bit v 0 = true → exec (.ochPnCntClr p v) s =
      .next (s.resetRegs (R.OCH_Pn_ACCEPTED_LO p) (R.OCH_Pn_BLK_DROP p + 4))) ∧
    (∀ v, bit v 0 = false → exec (.ochPnCntClr p v) s = .next s) ∧
    ((s.port p).resync = true → exec (.dphyResyncDone p) s = .next (s.setPort p { s.port p with resync := false })) ∧
    ((s.port p).resync = false → exec (.dphyResyncDone p) s = .next s)

/-- The filters of an event in their order: range, hot pixels, refractory period, background activity, the FIFO. (R57,
R60, R61, R64.) -/
def Obligations.EventFilters : Prop :=
  ∀ (s : State) (p x y : Nat) (pol : Bool) (t : Stamp) (f : Nat),
    let w := fld (s.reg (R.OCH_Pn_SIZE p)) 10 0 + 1
    let h := fld (s.reg (R.OCH_Pn_SIZE p)) 26 16 + 1
    let k := s.regN (R.OCH_Pn_CELL_SHIFT p)
    let seen := s.setPort p { s.port p with map := (s.port p).map.set (cellKey (x / 2 ^ k) (y / 2 ^ k)) s.mapNow }
    let near := (neighbours ((w + 2 ^ k - 1) / 2 ^ k) ((h + 2 ^ k - 1) / 2 ^ k) (x / 2 ^ k) (y / 2 ^ k)).any fun c =>
      (seen.port p).young s.mapNow c.1 c.2 (s.regFld (R.OCH_Pn_FILT p) 29 16)
    let young := (s.port p).young s.mapNow (x / 2 ^ k) (y / 2 ^ k) (s.regFld (R.OCH_Pn_FILT p) 13 0)
    (w ≤ x ∨ h ≤ y → s.filterEvent p x y pol t f = (s.bumpSat (R.OCH_Pn_DROP_RANGE p)).assertSource (p * 8 + 4)) ∧
    (x < w → y < h → s.isHot p x y = true → s.filterEvent p x y pol t f = s.bumpSat (R.OCH_Pn_DROP_HOT p)) ∧
    (x < w → y < h → s.isHot p x y = false → young = true → s.filterEvent p x y pol t f = s.bumpSat (R.OCH_Pn_DROP_REFR p)) ∧
    (x < w → y < h → s.isHot p x y = false → young = false → s.regFld (R.OCH_Pn_FILT p) 29 16 ≠ 0 → near = false →
      s.filterEvent p x y pol t f = seen.bumpSat (R.OCH_Pn_DROP_BA p)) ∧
    (x < w → y < h → s.isHot p x y = false → young = false → (s.regFld (R.OCH_Pn_FILT p) 29 16 = 0 ∨ near = true) →
      s.paused (s.portOwner p) = false → 65536 ≤ (s.port p).fifo.length →
      s.filterEvent p x y pol t f = (seen.bumpSat (R.OCH_Pn_DROP_OVF p)).portDrop p 0x01 1 0 t) ∧
    (x < w → y < h → s.isHot p x y = false → young = false → (s.regFld (R.OCH_Pn_FILT p) 29 16 = 0 ∨ near = true) →
      s.paused (s.portOwner p) = false → (s.port p).fifo.length < 65536 → (s.port p).gap = none →
      (s.port p).block = [] → s.regBit (R.OCH_Pn_BLOCK p) 13 = false →
      ∃ e, (s.filterEvent p x y pol t f).port p = { seen.port p with
          fifo := (s.port p).fifo ++ [e], postGap := false, active := (s.port p).active + 1 } ∧
        e.stamp = t ∧
        e.word = evWord t.ts32 x y pol p (f + if (s.port p).postGap then evPostGap else 0))

/-- Encoder edges, the index, SSI frames and angle ticks move the rotor angle. States completion of encoderEntry,
encoderCountEdge, encoderIndex, ssiPoll and angleTick. (R78, R80, 19_pins_electrical.md Edges and
collisions.) -/
def Obligations.EncoderEdges : Prop :=
  ∀ (s : State) (up : Bool) (ns frame : Nat), s.clocksRun → s.domUp dCOB = true →
    let f := s.fed dCOB
    let one : Int := if up = f.regBit R.COB_ENC_CFG 2 then -1 else 1
    let counted := f.modCobalt fun c => { c with count := c.count + one, sinceEntry := c.sinceEntry + 1 }
    (f.angleSource = 1 → f.cobalt.sinceEntry + 1 ≤ f.regFld R.COB_ENC_UPD 15 0 →
      exec (.encoderEntry up ns) s = .next counted ∧
      exec (.encoderCountEdge ⟨if up then .up else .down, ns⟩) s = .next counted) ∧
    (f.angleSource = 1 → f.regFld R.COB_ENC_UPD 15 0 < f.cobalt.sinceEntry + 1 →
      let entered := counted.angleEntry (counted.countAngle (f.cobalt.count + one) (f.regN R.COB_ENC_CPR)) (f.stampNs ns)
      exec (.encoderEntry up ns) s = .next entered ∧
      exec (.encoderCountEdge ⟨if up then .up else .down, ns⟩) s = .next entered) ∧
    exec (.encoderCountEdge ⟨.illegal, ns⟩) s = .next f ∧
    (f.angleSource = 1 → ∀ k : Int, 2 * (f.cobalt.count - k * f.regN R.COB_ENC_CPR).natAbs < f.regN R.COB_ENC_CPR →
      exec (.encoderIndex ns) s = .next (
        let t := (f.bumpSat R.COB_ENC_INDEX).modCobalt fun c =>
          { c with count := k * f.regN R.COB_ENC_CPR, zSeen := true, angleValid := true }
        let u := if 1 < (f.cobalt.count - k * f.regN R.COB_ENC_CPR).natAbs then
          (t.bumpSat R.COB_ENC_INDEX_ERR).assertSource 82 else t
        u.angleEntry (u.countAngle (k * f.regN R.COB_ENC_CPR) (f.regN R.COB_ENC_CPR)) (f.stampNs ns))) ∧
    (f.angleSource = 2 → exec (.encoderIndex ns) s = .next (
      let t := (f.bumpSat R.COB_ENC_INDEX).modCobalt fun c =>
        { c with count := c.count + (if f.regBit R.COB_ENC_CFG 2 = true then -1 else 1), angleValid := c.zSeen, zSeen := true }
      t.angleEntry (t.countAngle t.cobalt.count (f.regN R.COB_ENC_CPR)) (f.stampNs ns))) ∧
    (f.angleSource = 3 → f.cobalt.hist = [] → f.cobalt.zSeen = false → f.regBit R.COB_ENC_CFG 3 = false →
      f.regBit R.COB_ENC_CFG 2 = false →
      exec (.ssiPoll frame ns) s = .next (
        let t := f.modCobalt fun c => { c with
          count := (frame % 2 ^ f.regFld R.COB_ENC_CFG 9 4 : Nat), angleValid := false, zSeen := true }
        t.angleEntry (t.countAngle t.cobalt.count (2 ^ f.regFld R.COB_ENC_CFG 9 4)) (f.stampNs ns))) ∧
    (f.angleSource = 0 → exec (.encoderEntry up ns) s = .next f ∧ exec (.encoderIndex ns) s = .next f ∧
      exec (.encoderCountEdge ⟨if up then .up else .down, ns⟩) s = .next f ∧ exec (.ssiPoll frame ns) s = .next f) ∧
    (s.cobalt.lastUpdate + 1000000 ≤ s.now →
      exec .angleTick s = .next ((s.bumpSat R.COB_ANG_TICKS).angleUpdate)) ∧
    (s.now < s.cobalt.lastUpdate + 1000000 → exec .angleTick s = .next s)

/-- COBALT_PROJECT, STACK_CLOSE and ROTOR_MAP: an event passed on, dropped or kept back, a stack closed, a map copied to
its host buffer or without one. States completion of cobaltProject, stackClose and rotorMap. (R75, R76, R84, R86.) -/
def Obligations.ProjectionAndStacks : Prop :=
  ∀ s : State, s.clocksRun →
    (∀ e es, s.cobalt.inq = e :: es → (s.request dSEP).cobalt.inq = e :: es → (s.request dSEP).domUp dCOB = true →
        ((s.request dSEP).domUp dSEP = false ∨ (s.request dSEP).sepiaRoom = true) →
      let u := (s.request dSEP).modCobalt fun c => { c with inq := es }
      let t := u.bumpSat (R.COB_Pn_IN e.port)
      let frame := u.regFld (R.COB_Pn_CFG e.port) 1 0
      (frame = 0 → exec .cobaltProject s = .next (t.passEvent ⟨e, e.x, e.y, 0, false, false⟩)) ∧
      (frame ≠ 0 → t.projectPixel e.port e.x e.y e.stamp.steady = .error .geom →
        exec .cobaltProject s = .next (t.bumpSat (R.COB_Pn_DROP_GEOM e.port))) ∧
      (frame ≠ 0 → t.projectPixel e.port e.x e.y e.stamp.steady = .error .range →
        exec .cobaltProject s = .next (t.bumpSat (R.COB_Pn_DROP_RANGE e.port))) ∧
      (frame ≠ 0 → t.projectPixel e.port e.x e.y e.stamp.steady = .error .noangle →
        exec .cobaltProject s = .next (t.bumpSat (R.COB_Pn_DROP_NOANGLE e.port))) ∧
      (∀ x y, frame ≠ 0 → t.projectPixel e.port e.x e.y e.stamp.steady = .ok (x, y) →
        let stale := decide (frame = 2) && u.cobalt.angleValid && u.angleStale e.stamp.steady
        let v := if stale then ((t.bumpSat (R.COB_Pn_EXTRAP e.port)).assertSourceIf (!t.cobalt.extrap) 80).modCobalt fun c =>
          { c with extrap := true } else t
        exec .cobaltProject s = .next (v.passEvent ⟨e, x, y, frame, stale, u.attApplies e.port⟩))) ∧
    (∀ e es, s.cobalt.inq = e :: es → (s.request dSEP).cobalt.inq = e :: es → (s.request dSEP).domUp dCOB = true →
        (s.request dSEP).domUp dSEP = true → (s.request dSEP).sepiaRoom = false →
      ((s.request dSEP).sepia.stalled = true → exec .cobaltProject s = .next (s.request dSEP)) ∧
      ((s.request dSEP).sepia.stalled = false →
        exec .cobaltProject s = .next ((s.request dSEP).bumpSat R.SEP_STALL_CYC))) ∧
    (s.cobalt.inq = [] → exec .cobaltProject s = .next s) ∧
    (∀ k r, (s.stk k).closing = some r → r.closeAt ≤ s.now → exec (.stackClose k) s =
      .next ((s.setStk k { s.stk k with closing := none }).stkClose k r)) ∧
    (∀ k r, (s.stk k).closing = some r → s.now < r.closeAt → exec (.stackClose k) s = .next s) ∧
    (∀ k, (s.stk k).closing = none → exec (.stackClose k) s = .next s) ∧
    (∀ k r b l c t, (s.stk k).copying = (r, some b) :: l → s.ctx? r.ctx = some c →
      s.dmaWrite c.fn (r.host + b * r.size) r.map = some t →
      exec (.rotorMap k) s = .next (((t.setStk k { s.stk k with copying := l }).setRegFld (R.COB_Sn_STATUS k)
        (10 + b) (10 + b) 1).emitMap k r (some b))) ∧
    (∀ k r l, (s.stk k).copying = (r, none) :: l → exec (.rotorMap k) s =
      .next ((((s.setStk k { s.stk k with copying := l }).bumpSat (R.COB_Sn_NOBUF k)).assertSource 86).emitMap k r none)) ∧
    (∀ k, (s.stk k).copying = [] → exec (.rotorMap k) s = .next s)

/-- IMU edges, the silence of the IMU, and COB_ANG_SNAP. States completion of imuDrdyEdge, imuSilent and cobAngSnap. (R81, R82, 04_projection.md Register map.) -/
def Obligations.AttitudeAndAngleSnapshot : Prop :=
  ∀ (s : State) (burst : Bytes) (ns : Nat), s.clocksRun → s.domUp dCOB = true →
    (s.regBit R.COB_IMU_CFG 5 = true → ∃ t,
      let at' := (s.stampNs ns).steady
      let old := s.cobalt.att.headD (at', 0, 0, 0)
      let next := fun (d : Int) (axis : Nat) => clampI (-214748364) 214748364
        (leak d (s.gyro burst axis * s.regN R.COB_IMU_SCALE) (at' - old.1) (s.regFld R.COB_IMU_TIME 15 0))
      exec (.imuDrdyEdge burst ns) s = .next t ∧
      t.cobalt.att.head? = some (at', next old.2.1 0, next old.2.2.1 1, next old.2.2.2 2) ∧
      t.cobalt.imuSilentSaid = false ∧ t.cobalt.imuAt = at') ∧
    (∀ (d w : Int) (dt τ : Nat), let x := clampI (-214748364) 214748364 (leak d w dt τ); -214748364 ≤ x ∧ x ≤ 214748364) ∧
    (s.regBit R.COB_IMU_CFG 5 = false → exec (.imuDrdyEdge burst ns) s = .next (s.fed dCOB)) ∧
    (s.regBit R.COB_IMU_CFG 5 = true → s.cobalt.imuSilentSaid = false → s.regFld R.COB_IMU_TIME 28 16 ≠ 0 →
      s.cobalt.imuAt + 4000000000 / s.regFld R.COB_IMU_TIME 28 16 ≤ s.now →
      exec .imuSilent s = .next ((s.modCobalt fun c => { c with imuSilentSaid := true }).assertSource 83)) ∧
    (s.cobalt.imuSilentSaid = true → exec .imuSilent s = .next s) ∧
    (∀ v, bit v 0 = true → exec (.cobAngSnap v) s = .next ((((s.setReg64 R.COB_ANG_LO (wrapBits 64 (s.angleAt s.now))).setReg64
      R.COB_RATE_LO (wrapBits 64 s.angleRate)).setReg64 R.COB_ANG_T_LO
        (match s.cobalt.hist with | (a, _) :: _ => a | [] => 0)).setReg R.COB_ANG_EXP_INT
          (w32 (Nat.min s.expectedInterval 0xFFFFFFFF)))) ∧
    (∀ v, bit v 0 = false → exec (.cobAngSnap v) s = .next s)

/-- The rotor angle at a stamp, and the revolution boundary. (R79, R83.) -/
def Obligations.AngleOfTheRotor : Prop :=
  ∀ (s : State) (t₁ t₀ : Nat) (a₁ a₀ : Int) (es : List (Nat × Int)), s.cobalt.hist = (t₁, a₁) :: (t₀, a₀) :: es → t₀ < t₁ →
    (∀ t, t₁ ≤ t → s.angleAt t = a₁ + (a₁ - a₀) * 4294967296 / ((t₁ : Int) - t₀) * ((t : Int) - t₁) / 4294967296) ∧
    s.angleAt t₁ = a₁ ∧ s.angleAt t₀ = a₀ ∧
    (∀ (n : Int) (st : Stamp), s.cobalt.angleValid = true → s.cobalt.maxRev = some n →
      (∀ a : Int, a / 4294967296 ≤ n → s.revCheck a st = s) ∧
      (∀ a : Int, n < a / 4294967296 → s.revCheck a st =
        forEach (List.range 16) (fun k u => u.stkBoundary k (a / 4294967296) st)
          (s.modCobalt fun c => { c with maxRev := some (a / 4294967296) })))

/-- SURFACE_UPDATE, CORNER_TEST, FLOW_FIT, the scrub, the decay tick and the end of a stall; a measurement that
meets housekeeping waits for its end. States completion of surfaceUpdate, cornerTest, flowFit, surfaceScrub, decayTick and
sepiaStagingResume. (R107, R93, R96, R98, R104,
95_what_each_step_holds.md.) -/
def Obligations.SurfaceWork : Prop :=
  ∀ s : State, s.clocksRun →
    (∀ e es, s.sepia.inq = e :: es → exec .surfaceUpdate s =
      .next (forEach (List.range 16) (fun k t => t.surfUse k e) (s.modSepia fun p => { p with inq := es }))) ∧
    (s.sepia.inq = [] → exec .surfaceUpdate s = .next s) ∧
    (∀ k e q, s.sepia.cornerQ = ⟨k, e⟩ :: q → s.surfEn k = true →
      let u := s.modSepia fun p => { p with cornerQ := q }
      let t := u.setSurf k { u.surf k with tests := (u.surf k).tests + 1 }
      let v := t.bumpSat (R.SEP_Sn_CORNERS k)
      let z := (inCells e.x (t.surfShift k), inCells e.y (t.surfShift k))
      (t.cornerArcs k e = none → exec .cornerTest s = .next t) ∧
      (∀ a b, t.cornerArcs k e = some (a, b) → v.housekeeping = true → exec .cornerTest s =
        .next (v.modSepia fun p => { p with held := p.held ++ [.corner k e a b] })) ∧
      (∀ a b, t.cornerArcs k e = some (a, b) → v.housekeeping = false →
        exec .cornerTest s = .next (v.applyMeas (.corner k e a b))) ∧
      (∀ a b, t.cornerArcs k e = some (a, b) → v.housekeeping = false → s.regBit (R.SEP_Sn_CORNER k) 2 = false →
        exec .cornerTest s = .next ((v.trackCorner k e z).1.offerMember
          (t.surfMember k 1 (v.trackCorner k e z).2 [F.one] e z.1 z.2)))) ∧
    (∀ k e q, s.sepia.cornerQ = ⟨k, e⟩ :: q → s.surfEn k = false →
      exec .cornerTest s = .next (s.modSepia fun p => { p with cornerQ := q })) ∧
    (s.sepia.cornerQ = [] → exec .cornerTest s = .next s) ∧
    (∀ k e q, s.sepia.flowQ = ⟨k, e⟩ :: q → s.surfEn k = true →
      let u := s.modSepia fun p => { p with flowQ := q }
      let fit := flowFit (u.flowCells k e) (s.regFld (R.SEP_Sn_FLOW k) 9 4) (s.reg (R.SEP_Sn_FLOW_MAXRES k))
        (s.reg (R.SEP_Sn_FLOW_MAXSPD k))
      (fit = none → exec .flowFit s =
        .next ((u.setSurf k { u.surf k with rejects := (u.surf k).rejects + 1 }).bumpSat (R.SEP_Sn_FLOW_REJ k))) ∧
      let v := u.bumpSat (R.SEP_Sn_FLOWS k)
      (∀ vx vy r m, fit = some (vx, vy, r, m) → v.housekeeping = true → exec .flowFit s =
        .next (v.modSepia fun p => { p with held := p.held ++ [.flow k e vx vy r m] })) ∧
      (∀ vx vy r m, fit = some (vx, vy, r, m) → v.housekeeping = false →
        exec .flowFit s = .next (v.applyMeas (.flow k e vx vy r m))) ∧
      (∀ vx vy r m, fit = some (vx, vy, r, m) → v.housekeeping = false → s.regBit (R.SEP_Sn_FLOW k) 1 = false →
        let z := (inCells e.x (u.surfShift k), inCells e.y (u.surfShift k))
        let t := v.trackFlow k e z vx vy
        exec .flowFit s = .next (t.offerMember
          (t.surfMember k 2 0 [F.sqrt (F.add (F.mul vx vx) (F.mul vy vy)), vx, vy] e z.1 z.2)))) ∧
    (∀ k e q, s.sepia.flowQ = ⟨k, e⟩ :: q → s.surfEn k = false →
      exec .flowFit s = .next (s.modSepia fun p => { p with flowQ := q })) ∧
    (s.sepia.flowQ = [] → exec .flowFit s = .next s) ∧
    (∀ k, exec (.surfaceScrub k) s = .next (s.setSurf k { s.surf k with
      cells := (s.surf k).cells.filter fun c => mapAge (surfUnits s.now (s.surfRes k)) c.2 < 16384 })) ∧
    (s.domUp dSEP = true → s.regN R.SEP_TICK_US ≠ 0 →
      let n := s.regN R.SEP_TICK_US * 1000
      (s.sepia.lastTick < s.now / n * n → exec .decayTick s =
        .next (s.decayTick (s.tickStamp.shift (-((s.now - s.now / n * n : Nat) : Int))))) ∧
      (s.now / n * n ≤ s.sepia.lastTick → exec .decayTick s = .next s)) ∧
    (s.sepia.stalled = true → s.stagedBytes .sepia < 131072 →
      exec .sepiaStagingResume s = .next (s.modSepia fun p => { p with stalled := false })) ∧
    (s.sepia.stalled = false → exec .sepiaStagingResume s = .next s)

/-- What one surface does with an event: skipped, counted, its cell written, a candidate. (R91, R94, R95.) -/
def Obligations.SurfaceUse : Prop :=
  ∀ (s : State) (k : Nat) (e : PEv), k < 16 → s.surfEn k = true → s.regBit (R.SEP_Sn_CFG k) (16 + e.ev.port) = true →
    s.portOwner e.ev.port = s.surfOwner k →
    (e.frame ≠ (s.surf k).frame → s.surfUse k e = s.bumpSat (R.SEP_Sn_SKIPFRAME k)) ∧
    (e.frame = (s.surf k).frame → (s.surfW k ≤ e.x ∨ s.surfH k ≤ e.y) → s.surfUse k e = s.bumpSat (R.SEP_Sn_SKIPRANGE k)) ∧
    (e.frame = (s.surf k).frame → e.x < s.surfW k → e.y < s.surfH k →
      let n := s.surfShift k
      let plane := if s.regBit (R.SEP_Sn_CFG k) 1 = true then b2n e.ev.pol else 0
      let t := (s.bump (R.SEP_Sn_EVENTS k)).setSurf k { s.surf k with
        cells := (s.surf k).cells.set (cellAt plane (e.x / 2 ^ n) (e.y / 2 ^ n))
          (e.ev.stamp.steady / (1000 * 2 ^ s.surfRes k) % 32768),
        used := (s.surf k).used + 1 }
      (((s.surf k).used + 1) % 2 ^ s.regFld (R.SEP_Sn_CFG k) 10 8 ≠ 0 → s.surfUse k e = t) ∧
      (((s.surf k).used + 1) % 2 ^ s.regFld (R.SEP_Sn_CFG k) 10 8 = 0 → s.regBit (R.SEP_Sn_CORNER k) 0 = true →
        s.regBit (R.SEP_Sn_FLOW k) 0 = false →
        (s.sepia.cornerQ.length < 1024 →
          s.surfUse k e = t.modSepia fun p => { p with cornerQ := p.cornerQ ++ [⟨k, e⟩] }) ∧
        (1024 ≤ s.sepia.cornerQ.length → t.reg R.SEP_CORNER_SKIP = 0 →
          s.surfUse k e = ((t.assertSource 112).bumpSat R.SEP_CORNER_SKIP).setSurf k
            { t.surf k with cornerSkipped := (t.surf k).cornerSkipped + 1 })))

/-- A track's life: made, measured, confirmed, coasting, ended. (R101.) -/
def Obligations.TrackRules : Prop :=
  ∀ (s : State) (t : Track),
    let w := s.reg (R.SEP_Sn_TRK t.surface)
    let ct := fld w 15 8
    let co := fld w 23 16
    (t.reason = 0 → t.state = 0 → ct ≤ t.age + 1 → (s.ageTrack t).state = 3 ∧ (s.ageTrack t).reason = 3) ∧
    (t.reason = 0 → t.state = 0 → t.age + 1 < ct → (s.ageTrack t).state = 0) ∧
    (t.reason = 0 → t.state = 1 → t.measured = true → (s.ageTrack t).state = 1 ∧ (s.ageTrack t).ticks = t.ticks) ∧
    (t.reason = 0 → t.state = 1 → t.measured = false → t.ticks + 1 < co →
      (s.ageTrack t).state = 2 ∧ (s.ageTrack t).ticks = t.ticks + 1) ∧
    (t.reason = 0 → t.state = 2 → t.measured = false → co ≤ t.ticks + 1 →
      (s.ageTrack t).state = 3 ∧ (s.ageTrack t).reason = 1) ∧
    (t.reason ≠ 0 → t.state ≠ 3 → (s.ageTrack t).state = 3 ∧ (s.ageTrack t).reason = t.reason) ∧
    (s.ageTrack t).id = t.id ∧ (s.ageTrack t).x = t.x ∧ (s.ageTrack t).y = t.y ∧ (s.ageTrack t).hits = t.hits ∧
    (∀ k e z i, s.regBit (R.SEP_Sn_TRK k) 0 = true →
      nearest z e.ev.stamp.steady (F.mul (s.reg (R.SEP_Sn_TRK_GATE k)) (s.reg (R.SEP_Sn_TRK_GATE k))) (s.liveTracks k) = none →
      (s.sepia.tracks.filter fun q => q.2.surface = k).length < s.regN (R.SEP_Sn_TRK_QUOTA k) →
      freeSlot s.sepia.tracks 4096 0 = some i → (s.trackCorner k e z).2 = s.reg R.SEP_TRK_NEXT_ID) ∧
    (∀ i j a b n, i ≠ j → s.sepia.tracks.get? i = some a → s.sepia.tracks.get? j = some b → a.state = 1 → b.state = 1 →
      a.surface = b.surface → F.isZero (s.reg (R.SEP_Sn_TRK_MERGE a.surface)) = false →
      F.le (dist2 (a.pred n) (b.pred n)) (F.mul (s.reg (R.SEP_Sn_TRK_MERGE a.surface)) (s.reg (R.SEP_Sn_TRK_MERGE a.surface))) = true →
      (laterId a.id b.id = true → s.mergePair n i j = s.setTrack i { a with state := 3, reason := 2 }) ∧
      (laterId a.id b.id = false → s.mergePair n i j = s.setTrack j { b with state := 3, reason := 2 }))

/-- The page commands of the filter chain, of fusion, of inference, of approximation and of the group that need no
generation. States completion of each. (06_filter_chain.md Command pages, R198, 07_fusion.md Command pages, R147, 08_inference.md Command pages,
09_approximation.md Command pages.) -/
def Obligations.FilterFusionInferenceAndGroupPages : Prop :=
 (PageDoes .filterSetPort 0x0701 (fun c s => checkTdm s.projectedAll c s) actTdm ∧
  PageDoes .filterAssignChannel 0x0702 checkAssignCh actAssignCh ∧
  PageDoes .filterFreezeDc 0x0707 (fun c s => allOf [chanAccess 0 (u8 c.block 0) c.ctx s, inRange (u8 c.block 1) 0 1 1, reserved c.block 2 2]) (fun c s => ((s.touch dUMB).setRegFld (R.UMB_CHn_DC (u8 c.block 0)) 5 5 (u8 c.block 1), [])) ∧
  PageDoes .filterSetSync 0x070A (fun c s =>
      let b := c.block
      allOf [inRange (u8 b 0) 0 3 0, s.reach dUMB, inRange (u8 b 1) 0 1 1, inRange (u8 b 2) 0 1 2, inRange (u8 b 3) 0 1 3]) (fun c s =>
      let b := c.block
      let g := u8 b 0
      let t := ((s.touch dUMB).setRegFld R.UMB_SYNC_CFG g g (u8 b 1)).setRegFld R.UMB_SYNC_CFG (4 + g) (4 + g) (u8 b 2)
      (if u8 b 3 = 1 then t.resetGroup g s.now else t, [])) ∧
  PageDoes .filterGetStats 0x070B (fun c s => allOf [chanAccess 0 (u8 c.block 0) c.ctx s, inRange (u8 c.block 1) 0 1 1, reserved c.block 2 2]) actChanStats) ∧
 (PageDoes .fuseFlush 0x0802 (fun c s => allOf [ruleAccess (u16 c.block 0) c.ctx s, need (s.ruleEn (u16 c.block 0)) (badParam 0),
      reserved c.block 2 2]) (fun c s => ((s.touch dVIR).cutRule (u16 c.block 0) 2, [])) ∧
  PageDoes .fuseGetStats 0x0803 (fun c s => allOf [ruleAccess (u16 c.block 0) c.ctx s, inRange (u8 c.block 2) 0 1 2, reserved c.block 3 1]) (fun c s =>
      let r := u16 c.block 0
      let t := s.touch dVIR
      (if u8 c.block 2 = 1 then t.clearRule r else t,
      ((List.range 9).flatMap fun i => leBytes 4 (t.regN (R.VIR_Rn_WINDOWS r + 4 * i))) ++
      leBytes 4 (t.rule r).windows.length ++ leBytes 8 (t.ruleNext r))) ∧
  (∀ (s : State) (r : Nat) (v : Word),
    (bit v 0 = true → exec (.virRnCntClr r v) s =
      .next (s.resetRegs (R.VIR_Rn_WINDOWS r) (R.VIR_Rn_TRIGGERED r + 4))) ∧
    (bit v 0 = false → exec (.virRnCntClr r v) s = .next s))) ∧
 (PageDoes .inferUnloadModel 0x0902 (fun c s => allOf [modelAccess (u16 c.block 0) 0 c.ctx s, reserved c.block 2 2,
      need (!s.modelUsed (u16 c.block 0)) busy]) (fun c s => (s.dropModel (u16 c.block 0), [])) ∧
  PageDoes .inferGetStats 0x0905 (fun c s => allOf [bindAccess (u16 c.block 0) 0 c.ctx s, inRange (u8 c.block 2) 0 1 2, reserved c.block 3 1]) (fun c s =>
      let b := u16 c.block 0
      let x := (s.bind? b).getD (newBind 0)
      let t := (s.resetRegs (R.IDG_Bn_RUNS b) (R.IDG_Bn_REPLAYS b + 4)).setBind b { x with wsBytes := 0, lastDuration := 0 }
      (if u8 c.block 2 = 1 then t else s,
      ((List.range 6).flatMap fun i => leBytes 4 (s.regN (R.IDG_Bn_RUNS b + 4 * i))) ++ leBytes 8 x.wsBytes ++
      leBytes 8 x.lastDuration ++ leBytes 8 0)) ∧
  PageDoes .approxSetSpeculation 0x0A03 (fun c _ => allOf [inRange (u8 c.block 0) 0 1 0, reserved c.block 1 1, inRange (u16 c.block 2) 1 10000 2]) (fun c s => (s.modIndigo fun i => { i with
      specNext := some (u8 c.block 0 = 1), replayNext := some (u16 c.block 2) }, [])) ∧
  PageDoes .approxSetVerify 0x0A04 (fun c _ => allOf [inRange (u8 c.block 0) 0 1 0, reserved c.block 1 3]) (fun c s => (s.writeApxCtrl (setFld (s.reg R.IDG_APX_CTRL) 0 0 (u8 c.block 0)), [])) ∧
  PageDoes .approxGetStats 0x0A05 (fun c s => allOf [bindAccess (u16 c.block 0) 0 c.ctx s, inRange (u8 c.block 2) 0 1 2, reserved c.block 3 1]) (fun c s =>
      let b := u16 c.block 0
      let x := (s.bind? b).getD (newBind 0)
      let t := s.setBind b { x with
      full := 0, delta := 0, skip := 0, satfall := 0, maxD := 0, replays := 0, absorbed := 0, demotedRuns := 0 }
      (if u8 c.block 2 = 1 then t else s,
      leBytes 4 x.full ++ leBytes 4 x.delta ++ leBytes 4 x.skip ++ leBytes 4 x.satfall ++ leBytes 4 x.maxD ++
      leBytes 4 x.lastD ++ leBytes 2 x.skips ++ leBytes 2 0 ++ leBytes 8 x.replays ++ leBytes 8 x.absorbed ++
      leBytes 4 x.demotedRuns ++ leBytes 16 0))) ∧
 (PageDoes .groupDissolve 0x1202 (fun _ s => allOf [s.reach dTEAL, need (s.tealState ≠ tealNone) (badParam 0)]) actDissolve ∧
  PageDoes .groupGetStatus 0x1203 (fun _ s => s.reach dTEAL) (fun _ s =>
      let t := s.touch dTEAL
      (t, leBytes 1 t.groupNo ++ leBytes 1 t.groupSize ++ leBytes 1 t.groupIndex ++ leBytes 1 t.tealState ++
      leBytes 4 (t.regN R.TEAL_PEER_SEEN) ++
      ([0, 1].flatMap fun k => leBytes 4 (t.regN (R.TEAL_Pn_REPLAY k)) ++ leBytes 4 (t.regN (R.TEAL_Pn_RETRAIN k))) ++
      leBytes 8 0)))

/-- FILTER_LOAD_COEFFS frees a held set, waits for the fetch of a new one, and loads it. States
completion of filterLoadCoeffs. (06_filter_chain.md Command
pages.) -/
def Obligations.CoefficientSets : Prop :=
  ∀ (s : State) (p : Nat) (l : Latch),
    let h := u16 l.cmd.block 0
    let n := u16 l.cmd.block 2
    let own := ∀ k, s.umber.coefs.get? h = some k → k.ctx = l.cmd.ctx
    (s.turn p 0x0704 l → 0x100 ≤ h → h ≤ 0x4FF → own → s.reach dUMB = .ok () → (s.umber.coefs.get? h).isSome = true →
      s.coefsUsed h = false → s.projectedAll.coefsUsed h = false → n = 0 → u32 l.cmd.block 4 = 0 → u64 l.cmd.block 8 % 4 = 0 →
      exec (.filterLoadCoeffs p) s =
        .next (((s.touch dUMB).packCoefs (s.coefSets.erase h)).replyOk p l (leBytes 4 h))) ∧
    (s.turn p 0x0704 l → h = 0 → own → s.reach dUMB = .ok () → 1 ≤ n → n ≤ 384 → u32 l.cmd.block 4 = 0 →
      u64 l.cmd.block 8 % 4 = 0 → s.freeHandle.isSome = true → n ≤ s.coefFree →
      exec (.filterLoadCoeffs p) s = .next ((s.dmaAsk l.cmd.path (u64 l.cmd.block 8) (4 * n)).toStage p .yielded)) ∧
    (∀ d, s.latch p = some l → l.stage = .resumed d → l.cmd.opcode = 0x0704 → h = 0 → own →
      s.reach dUMB = .ok () → 1 ≤ n → n ≤ 384 → u32 l.cmd.block 4 = 0 → u64 l.cmd.block 8 % 4 = 0 → n ≤ s.coefFree →
      s.freeHandle.isSome = true →
      (s.dmaRead l.cmd.path (u64 l.cmd.block 8) (4 * n) d = none → exec (.filterLoadCoeffs p) s =
        .next ((s.countDmaErr l.cmd.fn).answerErr p ⟨cHwFault, 1⟩ ((s.countDmaErr l.cmd.fn).respGen l.cmd))) ∧
      ∀ data, s.dmaRead l.cmd.path (u64 l.cmd.block 8) (4 * n) d = some data →
      let ws := (List.range n).map fun i => u32 data (4 * i)
      (∀ k, s.freeHandle = some k → (ws.all fun w => sext 32 w = sext 18 w) = true →
        exec (.filterLoadCoeffs p) s = .next (((s.touch dUMB).packCoefs
          (s.coefSets.set k (l.cmd.ctx, ws.map fun w => w32 (w % 0x40000)))).replyOk p l (leBytes 4 k))) ∧
      ((ws.all fun w => sext 32 w = sext 18 w) = false →
        exec (.filterLoadCoeffs p) s = .next (s.answerErr p (badParam 8) (s.respGen l.cmd))))

/-- TDM_FRAME, TDM_PORT_SILENT and DERIVED_TICK: an input accepted, discarded, dropped, or missing; the samples of a frame.
States completion of tdmFrame, tdmPortSilent and derivedTick. (R108, R110, R111, R112.) -/
def Obligations.TdmFrames : Prop :=
  ∀ (s : State) (p : Nat) (fr : TdmFrame), s.clocksRun → p < 4 → s.domUp dUMB = true → s.regBit (R.UMB_Pn_CFG p) 0 = true →
    let f := s.fed dUMB
    let raw := f.stampNs fr.ns
    let t := raw.shift (-(f.regN (R.UMB_Pn_LAT_NS p) : Int))
    let x := f.tdm p
    let iv := match x.lastFs with
      | some a => ((raw.steady - a) :: x.intervals).take 256
      | none => x.intervals
    let good := ((f.setTdm p { x with lastFs := some raw.steady, intervals := iv, silentSaid := false }).setReg64
      (R.UMB_Pn_LAST_FS_LO p) raw.steady).setPeriod p
    (f.tdmClocked p = true → f.frameLen p fr ≠ f.frameBits p → exec (.tdmFrame p fr) s = .next (
      let u := ((f.setTdm p { x with lastFs := none, silentSaid := false }).setReg64 (R.UMB_Pn_LAST_FS_LO p) raw.steady).setPeriod p
      ((u.bumpSat (R.UMB_Pn_FRAME_ERR p)).assertSource (132 + p)).tdmDrop p 0x11 1 t)) ∧
    (f.tdmClocked p = true → f.frameLen p fr = f.frameBits p → 64 ≤ x.frames.length → exec (.tdmFrame p fr) s = .next (
      (good.bumpSat (R.UMB_Pn_DROP_OVR p)).tdmDrop p 0x10 1 t)) ∧
    (let chans := (below (f.slots p) fun k => f.chEn (8 * p + k)).map fun k => 8 * p + k
     f.tdmClocked p = true → f.frameLen p fr = f.frameBits p → x.frames.length < 64 → chans ≠ [] →
      (∀ c ∈ chans, f.paused (f.chOwner c) = false) → exec (.tdmFrame p fr) s = .next (
        let v := (good.tdmCloseGap p).bump (R.UMB_Pn_FRAMES p)
        let w := v.setTdm p { v.tdm p with frames := (v.tdm p).frames ++ [⟨f.frameSlots p fr, t, chans⟩] }
        if w.regFld (R.UMB_Pn_BUF p) 14 8 < (w.tdm p).frames.length then
          w.setRegFld (R.UMB_Pn_BUF p) 14 8 (w.tdm p).frames.length else w)) ∧
    (f.tdmClocked p = false → exec (.tdmFrame p fr) s = .next f) ∧
    (f.slots p = f.regFld (R.UMB_Pn_CFG p) 5 3 + 1 ∧
      f.slotBits p = (if f.regBit (R.UMB_Pn_CFG p) 6 = true then 32 else 24) ∧ f.frameBits p = f.slots p * f.slotBits p ∧
      (f.frameSlots p fr).length = f.slots p ∧ ∀ v ∈ f.frameSlots p fr, -8388608 ≤ v ∧ v ≤ 8388607) ∧
    (x.silentSaid = false → s.tdm p = x →
      Nat.max x.since (s.reg64 (R.UMB_Pn_LAST_FS_LO p)) * 65536 + 16 * s.declaredPeriod p ≤ s.now * 65536 →
      exec (.tdmPortSilent p) s = .next ((s.setTdm p { x with silentSaid := true }).assertSource (136 + p))) ∧
    (x.silentSaid = true → s.tdm p = x → exec (.tdmPortSilent p) s = .next s) ∧
    (∀ c, 32 ≤ c → c < 40 → s.chEn c = true → s.chSource c ≠ 0 → s.chDiv c ≠ 0 →
      let due := (s.chan c).lastTick + s.chDiv c * 5
      let u := s.setChan c { s.chan c with lastTick := due, tickCount := (s.derivedValue c).2 }
      (s.paused (s.chOwner c) = false → due ≤ s.now → exec (.derivedTick c) s = .next (u.setChan c { u.chan c with
        queue := (s.chan c).queue ++ [((s.derivedValue c).1, s.tickStamp.shift (-((s.now - due : Nat) : Int)))] })) ∧
      (s.paused (s.chOwner c) = true → due ≤ s.now → exec (.derivedTick c) s = .next (u.countPaused (s.chOwner c) c 1)) ∧
      (s.now < due → exec (.derivedTick c) s = .next s)) ∧
    (∀ c, s.chEn c = false → exec (.derivedTick c) s = .next s)

/-- CHAIN_SAMPLE, FILTER_BLOCK_TIMEOUT, UMBER_APPLY_FALLBACK, SIG_SYNC edges, UMB_SYNC_SW and the end of a stop; a reset of
a group without an enabled channel counts at once. States completion of chainSample, filterBlockTimeout, umberApplyFallback,
sigSyncEdge, umbSyncSw and umberStagingResume. (R118,
R124, R126, R127.) -/
def Obligations.FilterWork : Prop :=
  ∀ s : State, s.clocksRun →
    (∀ c v t u, s.domUp dUMB = true → s.umber.stopped = false → s.takeInput c = some (v, t, u) → s.chEn c = true →
      exec (.chainSample c) s = .next (u.chInput c v t)) ∧
    (∀ c v t u, s.domUp dUMB = true → s.umber.stopped = false → s.takeInput c = some (v, t, u) → s.chEn c = false →
      exec (.chainSample c) s = .next u) ∧
    (∀ c, s.umber.stopped = true ∨ s.takeInput c = none → exec (.chainSample c) s = .next s) ∧
    (∀ c b, (s.chan c).block = some b →
      (b.openedAt + s.regFld (R.UMB_CHn_BLOCK c) 29 16 * 1000000 ≤ s.now →
        exec (.filterBlockTimeout c) s = .next (s.closeFBlock c)) ∧
      (s.now < b.openedAt + s.regFld (R.UMB_CHn_BLOCK c) 29 16 * 1000000 → exec (.filterBlockTimeout c) s = .next s)) ∧
    (∀ g, s.armedAt (umbElem g) = none → exec (.umberApplyFallback g) s = .next s) ∧
    (∀ g a, s.armedAt (umbElem g) = some a → s.slowest g = none → exec (.umberApplyFallback g) s = .next (s.umbApply g)) ∧
    (∀ g a c, s.armedAt (umbElem g) = some a → s.slowest g = some c →
      ((2000000000 : Rat) ≤ ((s.now - a.at_ : Nat) : Rat) * s.rateAt c (s.chStages c) →
        exec (.umberApplyFallback g) s = .next (s.umbApply g)) ∧
      (((s.now - a.at_ : Nat) : Rat) * s.rateAt c (s.chStages c) < 2000000000 → exec (.umberApplyFallback g) s = .next s)) ∧
    (∀ e ns, s.domUp dUMB = true → exec (.sigSyncEdge e ns) s =
      .next (forEach ((List.range 4).filter fun g => s.regBit R.UMB_SYNC_CFG g &&
          (s.regBit R.UMB_SYNC_CFG (4 + g) = decide (e = .fall)))
        (fun g t => t.resetGroup g (s.stampNs ns).steady) s)) ∧
    (∀ v, exec (.umbSyncSw v) s = .next (forEach ((List.range 4).filter fun g => bit v g)
      (fun g t => t.resetGroup g s.now) s)) ∧
    (∀ g t, (∀ c, c < 40 → s.chEn c = true → s.chGroup c ≠ g) → s.resetGroup g t =
      ((s.bumpSat R.UMB_SYNC_COUNT).setReg64 R.UMB_SYNC_LAST_LO t).assertSource 140) ∧
    (∀ g t c, c < 40 → s.chEn c = true → s.chGroup c = g → s.resetGroup g t = s.setGroup g
      { resets := (s.group g).resets ++ [⟨t, (List.range 40).filter fun k => s.chEn k && s.chGroup k = g, false⟩] }) ∧
    (s.umber.stopped = true → s.stagedBytes .umber < 65536 →
      exec .umberStagingResume s = .next (s.modUmber fun u => { u with stopped := false })) ∧
    (s.umber.stopped = false → exec .umberStagingResume s = .next s)

/-- The arithmetic of a stage: the output is the shifted, rounded and saturated sum, and always a 24-bit value. (R113.) -/
def Obligations.StageArithmetic : Prop :=
  ∀ (cs xs : List Int) (sh : Nat),
    -8388608 ≤ (firOut cs xs sh).1 ∧ (firOut cs xs sh).1 ≤ 8388607 ∧
    ((∀ n, -140737488355328 ≤ ((cs.zip xs).take n).foldl (fun a p => a + p.1 * p.2) 0 ∧
        ((cs.zip xs).take n).foldl (fun a p => a + p.1 * p.2) 0 ≤ 140737488355327) →
      let acc := (cs.zip xs).foldl (fun a p => a + p.1 * p.2) 0
      let y := if sh = 0 then acc else (acc + 2 ^ (sh - 1)) / 2 ^ sh
      firOut cs xs sh = (clampI (-8388608) 8388607 y, decide (y < -8388608 ∨ 8388607 < y)))

/-- The filter library: identities, taps, decimations, symmetry and unity sum. (R122, R123.) -/
def Obligations.FilterLibraryShape : Prop :=
  (library.map fun f => (f.id, f.coefs.length, 2 ^ f.dLog)) =
      [(0x0000, 1, 1), (0x0001, 31, 2), (0x0002, 63, 4), (0x0003, 127, 8), (0x0004, 191, 16), (0x0005, 255, 32),
       (0x0006, 383, 64), (0x0011, 63, 2), (0x0012, 127, 4), (0x0013, 255, 8), (0x0014, 383, 16), (0x0020, 31, 1),
       (0x0021, 63, 1), (0x0022, 127, 1)] ∧
    (∀ f ∈ library, f.coefs = f.coefs.reverse) ∧
    (∀ f ∈ library, f.coefs.foldl (fun a n => a + n) 0 = if f.id = 0x22 then 0 else 65536)

/-- MEMBER_ADMIT, WINDOW_OPEN, WINDOW_CLOSE, FUSED_RECORD_STAGE and the scrub of the map. States completion
of memberAdmit, windowOpen, windowClose, fusedRecordStage and coregMapScrub. (R133, R136, R143, R145.) -/
def Obligations.FusionWork : Prop :=
  ∀ s : State, s.clocksRun →
    (∀ m q, s.viridian.queue = m :: q → exec .memberAdmit s = .next ((s.modViridian fun v => { v with queue := q }).admitMember m)) ∧
    (s.viridian.queue = [] → exec .memberAdmit s = .next s) ∧
    (∀ r, s.ruleEn r = true → s.rulePeriodic r = true → s.domUp dVIR = true → s.armedAt (virElem r) = none →
      (s.rule r).nextOpen ≤ s.now → exec (.windowOpen r) s = .next (
        let u := s.openWindow r (s.rule r).nextOpen
        u.setRule r { u.rule r with nextOpen := u.firstBoundary r ((s.rule r).nextOpen + 1) })) ∧
    (∀ r, s.now < (s.rule r).nextOpen → exec (.windowOpen r) s = .next s) ∧
    (let due := fun (w : Win) => decide (w.endT + (nth w.cfg 3 0).toNat * 1000 ≤ s.now)
     (∀ r w, s.domUp dVIR = true → ((s.rule r).windows.find? due).isSome = true → (s.admitAll.rule r).windows.find? due = some w →
      exec (.windowClose r) s = .next (((s.admitAll.setRule r { s.admitAll.rule r with
        windows := (s.admitAll.rule r).windows.erase w }).closeWindow r w 0).virRest r)) ∧
     (∀ r, (s.rule r).windows.find? due = none → exec (.windowClose r) s = .next s)) ∧
    (∀ f l, s.viridian.closing = f :: l →
      (s.stagedBytes .viridian + 64 + 16 * f.entries.length ≤ 65536 → exec .fusedRecordStage s =
        .next ((s.modViridian fun v => { v with closing := l, waiting := false }).stageFused f)) ∧
      (65536 < s.stagedBytes .viridian + 64 + 16 * f.entries.length → s.viridian.waiting = false →
        exec .fusedRecordStage s = .next ((s.modViridian fun v => { v with waiting := true }).assertSource 195)) ∧
      (65536 < s.stagedBytes .viridian + 64 + 16 * f.entries.length → s.viridian.waiting = true →
        exec .fusedRecordStage s = .next s)) ∧
    (s.viridian.closing = [] → exec .fusedRecordStage s = .next s) ∧
    exec .coregMapScrub s = .next (s.modViridian fun v => { v with
      map := v.map.filter fun e => (s.now / 1000 + 2 ^ 28 - e.2 % 2 ^ 28) % 2 ^ 28 < 16384 })

/-- What an input of a window shows after its members, and how a window closes: empty, incomplete, or evaluated with its
score and outcome. (R135, R138, R139.) -/
def Obligations.FusionReductionsAndOutcome : Prop :=
 (∀ (l : List (F32 × Int)) (k : Nat),
    let e := l.foldl (fun (a : Entry) m => a.add k m.1 m.2) ⟨0, 0, 0⟩
    e.count = l.length ∧
    (l = [] → e.value k = 0) ∧
    (∀ m ∈ l, e.oldest ≤ m.2) ∧ (l ≠ [] → ∃ m ∈ l, e.oldest = m.2) ∧
    (∀ m t, l = m :: t →
      (k = 0 → e.value k = (l.getLastD m).1) ∧
      (k = 1 → e.value k = m.1) ∧
      (k = 2 → e.value k = l.foldl (fun a n => F.add a n.1) 0) ∧
      (k = 3 → e.value k = F.div (l.foldl (fun a n => F.add a n.1) 0) (F.ofNat l.length)) ∧
      (k = 4 → e.value k = t.foldl (fun a n => F.min2 a n.1) m.1) ∧
      (k = 5 → e.value k = t.foldl (fun a n => F.max2 a n.1) m.1) ∧
      (k = 6 → e.value k = F.ofNat l.length) ∧
      (k = 7 → e.value k = F.sqrt (F.div (l.foldl (fun a n => F.add a (F.mul n.1 n.1)) 0) (F.ofNat l.length))))) ∧
 (∀ (s : State) (r : Nat) (w : Win), bit (nth w.cfg 0 0) 3 = false → w.entries.length = cfgInputs w.cfg →
    let vals := (List.range (cfgInputs w.cfg)).map fun i => (nth w.entries i ⟨0, 0, 0⟩).value (cfgReduce w.cfg i)
    let trig := F.le (nth w.cfg 5 0) (scoreOf w.cfg vals)
    ((∀ e ∈ w.entries, e.count = 0) → s.closeWindow r w 0 = s.bumpSat (R.VIR_Rn_EMPTY r)) ∧
    ((∃ e ∈ w.entries, e.count ≠ 0) → bit (nth w.cfg 0 0) 15 = true → (∃ e ∈ w.entries, e.count = 0) →
      s.closeWindow r w 0 = (s.bumpSat (R.VIR_Rn_INCOMPLETE r)).assertSource 197) ∧
    ((∃ e ∈ w.entries, e.count ≠ 0) → fld (nth w.cfg 0 0) 7 6 ≤ 1 → w.newest = none → w.oldest = none →
      s.closeWindow r w 0 = (s.bumpSat (R.VIR_Rn_INCOMPLETE r)).assertSource 197) ∧
    ((∃ e ∈ w.entries, e.count ≠ 0) → bit (nth w.cfg 0 0) 15 = false → 2 ≤ fld (nth w.cfg 0 0) 7 6 →
      (fld (nth w.cfg 0 0) 5 4 = 0 → ∃ f, (s.closeWindow r w 0).viridian.closing = s.viridian.closing ++ [f] ∧
        f.rule = r ∧ f.score = scoreOf w.cfg vals ∧ f.outcome = b2n trig ∧ f.openT = w.openT ∧ f.endT = w.endT) ∧
      (fld (nth w.cfg 0 0) 5 4 = 1 → trig = false → (s.closeWindow r w 0).viridian.closing = s.viridian.closing)))

/-- INFER_LOAD_MODEL and INFER_RUN: the fetch, the checks in their order, the model held, the run queued. States completion
of inferLoadModel and inferRun. (R155, R157,
08_inference.md Command pages.) -/
def Obligations.ModelsLoadAndRun : Prop :=
  ∀ (s : State) (p : Nat) (l : Latch),
    (s.turn p 0x0901 l → u64 l.cmd.block 0 % 64 = 0 → 512 ≤ u64 l.cmd.block 8 → u64 l.cmd.block 8 ≤ 4294967296 →
      exec (.inferLoadModel p) s =
        .next ((s.dmaAsk l.cmd.path (u64 l.cmd.block 0) (u64 l.cmd.block 8)).toStage p .yielded)) ∧
    (∀ d b, s.latch p = some l → l.stage = .resumed (some d) → l.cmd.opcode = 0x0901 → u64 l.cmd.block 0 % 64 = 0 →
      512 ≤ u64 l.cmd.block 8 → u64 l.cmd.block 8 ≤ 4294967296 →
      s.dmaRead l.cmd.path (u64 l.cmd.block 0) (u64 l.cmd.block 8) d = some b →
      (∀ e, packageCheck b (u64 l.cmd.block 8) = .error e →
        exec (.inferLoadModel p) s = .next (s.answerErr p e (s.respGen l.cmd))) ∧
      (packageCheck b (u64 l.cmd.block 8) = .ok () → s.freeModel = none →
        exec (.inferLoadModel p) s = .next (s.answerErr p noResource (s.respGen l.cmd))) ∧
      (∀ h t a, packageCheck b (u64 l.cmd.block 8) = .ok () → s.freeModel = some h →
        s.allocDram (u64 l.cmd.block 8) l.cmd.ctx exModel h = some (t, a) →
        exec (.inferLoadModel p) s = .next ((((t.blockWrite (0x400 + l.cmd.ctx) a b).modIndigo fun i => { i with
          models := i.models.set h ⟨l.cmd.ctx, b.take 256, (List.range (u16 b 0x0E)).map fun j => layerOf (layerEntry b j), a,
            u64 l.cmd.block 8⟩ }).countModels).replyOk p l (leBytes 4 h)))) ∧
    (∀ x, let h := u16 l.cmd.block 0
      s.bind? h = some x → x.ctx = l.cmd.ctx → x.kind = 0 → s.leads h = true → u16 l.cmd.block 0x0A = 0 → u32 l.cmd.block 0x0C ≤ 999999999 →
      u32 l.cmd.block 0x14 < 0x100000 → u64 l.cmd.block 0x18 % 64 = 0 →
      (s.turn p 0x0904 l → 2 ≤ s.pendingOf h → exec (.inferRun p) s = .next (s.answerErr p busy (s.respGen l.cmd))) ∧
      (∀ m, s.turn p 0x0904 l → s.pendingOf h < 2 → s.bindLost h = false → s.model? x.model = some m →
        exec (.inferRun p) s = .next ((s.dmaAsk l.cmd.path (u64 l.cmd.block 0x18)
          (elemBytes m.inFmt (m.positions * m.features))).toStage p .yielded)) ∧
      (∀ m d t, s.latch p = some l → l.stage = .resumed (some d) → l.cmd.opcode = 0x0904 → s.pendingOf h < 2 →
        s.bindLost h = false → s.model? x.model = some m →
        s.dmaRead l.cmd.path (u64 l.cmd.block 0x18) (elemBytes m.inFmt (m.positions * m.features)) d = some t →
        let stamp : Stamp := ⟨u48 l.cmd.block 4, u32 l.cmd.block 0x0C, BitVec.ofNat 16 (u16 l.cmd.block 2), l.cmd.latchedAt, false⟩
        exec (.inferRun p) s = .next ((s.trigger h ((List.range m.positions).map fun i =>
          ⟨(List.range m.features).map fun k => tensorElem m.inFmt t (i * m.features + k), stamp,
            (l.cmd.latchedAt : Int) - u32 l.cmd.block 0x10 * 1000, 0, w32 (u32 l.cmd.block 0x14),
            s.elemGen x.ctx (idgElem h)⟩)).replyAccepted p l)))

/-- An input taken, a run started, a run ended; the end of a replay window, and a tile that stalled for a whole one.
States completion of bindingInput, runDispatch, runComplete, replayWindowEnd and tileWstallWindow. (R156, R157, 08_inference.md Edges and collisions, 95_what_each_step_holds.md, R165, R179.) -/
def Obligations.RunsReplaysAndStalls : Prop :=
 (∀ s : State, s.clocksRun →
    (∀ i q, s.indigo.inq = i :: q → exec .bindingInput s = .next (
      (s.indigo.binds.filter fun e => e.2.kind = i.kind && e.2.source = i.source && e.2.ctx = i.ctx && !e.2.stopped && s.leads e.1).foldl
        (fun t e => t.bindTakes i e.1 e.2.model) (s.modIndigo fun x => { x with inq := q }))) ∧
    (s.indigo.inq = [] → exec .bindingInput s = .next s) ∧
    (∀ b r t x m, s.running b = false → s.bind? b = some x → s.tilesBusy b x.tiles = false → s.takeRun b = some (r, t) →
        s.model? x.model = some m →
      let shut := (quadsOf x.tiles).filter s.quadShut
      let woken := ∀ d ∈ shut, s.domOnDemand d = true ∧ s.ivory.forced = false
      (woken → (∀ d ∈ shut, s.domUp d = false) →
        exec (.runDispatch b) s = .next ((forEach (quadsOf x.tiles) (fun d u => u.touch d) t).startRun r x m)) ∧
      (woken → (∃ d ∈ shut, s.domUp d = true) → exec (.runDispatch b) s = .next { s with ivory := { s.ivory with
        wakeAfter := s.ivory.wakeAfter ++ shut.filter fun d => !s.ivory.wakeAfter.contains d } }) ∧
      (¬ woken → exec (.runDispatch b) s = .next ((t.endRun r 5 s.now s.idgPoint).idgBoundary b))) ∧
    (∀ b, s.running b = true ∨ s.takeRun b = none → exec (.runDispatch b) s = .next s) ∧
    (∀ b r x m, s.indigo.inflight.find? (fun r => r.binding = b) = some r → s.bind? b = some x → s.model? x.model = some m →
      (x.poison = true ∨ s.canFinish b m = true → exec (.runComplete b) s = .next ((s.finishRun r x m).idgBoundary b)) ∧
      (x.poison = false → s.canFinish b m = false → exec (.runComplete b) s = .next s)) ∧
    (∀ b, s.indigo.inflight.find? (fun r => r.binding = b) = none → exec (.runComplete b) s = .next s)) ∧
 (∀ s : State, s.clocksRun →
    (s.indigo.windowAt < s.now / 1000000 * 1000000 → exec .replayWindowEnd s = .next
      (((forEach (List.range 16) (fun t u => u.replayTest (s.regN R.IDG_APX_REPLAY_LIMIT) t) s.progress).bump
        R.IDG_APX_WINDOW_SEQ).nextLimit.modIndigo fun i =>
          { i with windowAt := s.now / 1000000 * 1000000, replayNext := none })) ∧
    (s.now / 1000000 * 1000000 ≤ s.indigo.windowAt → exec .replayWindowEnd s = .next s) ∧
    (∀ t k, t < 16 →
      let w := s.regN (R.IDG_APX_Tn_WIN_WAVES t)
      let e := s.regN (R.IDG_APX_Tn_WIN_REPLAYS t)
      (s.tileLive t = true ↔ 4 ≤ s.idgPoint ∧ s.regBit R.IDG_APX_DEMOTED t = false ∧ s.specBarred t = false) ∧
      (s.tileLive t = true → w * k < e * 10000 → w ≠ 0 →
        s.replayTest k t = ((((((s.setRegFld R.IDG_APX_DEMOTED t t 1).bumpSat (R.IDG_APX_Tn_DEMOTIONS t)).assertSource
          (256 + t)).raiseFault 3 t (args := [w32 e, w32 w, w32 k])).setReg (R.IDG_APX_Tn_WIN_WAVES t) 0).setReg
            (R.IDG_APX_Tn_WIN_REPLAYS t) 0)) ∧
      (s.tileLive t = false ∨ e * 10000 ≤ w * k ∨ w = 0 →
        s.replayTest k t = (s.setReg (R.IDG_APX_Tn_WIN_WAVES t) 0).setReg (R.IDG_APX_Tn_WIN_REPLAYS t) 0)) ∧
    (∀ t r, s.indigo.inflight.find? (fun r => (s.bindTiles r.binding).toNat.testBit t) = some r →
      exec (.tileWstallWindow t) s = .next ((((s.setReg (R.IDG_Tn_STATE t) 2).bumpSat (R.IDG_Tn_WSTALL t)
        (s.tileMhz t * 1000)).assertSource (240 + t)).modIndigo fun i => { i with
          inflight := i.inflight.map fun q =>
            if q = r then { q with stalled := q.stalled.set t (q.stalled.getD t 0 + 1000000) } else q })) ∧
    (∀ t, s.indigo.inflight.find? (fun r => (s.bindTiles r.binding).toNat.testBit t) = none →
      exec (.tileWstallWindow t) s = .next s))

/-- The path of a run by the first rule that applies, and what the quantiser may answer. (R156, R174.) -/
def Obligations.PathOfARun : Prop :=
  ∀ (x : Bind) (d : Nat) (e : BitVec 16),
    (x.predEnable = false ∨ x.verify = true ∨ x.mustFull = true ∨ x.lastInput = none ∨ x.refreshK ≤ x.sinceFull + 1 →
      choosePath x d e = 0) ∧
    (x.predEnable = true → x.verify = false → x.mustFull = false → x.lastInput.isSome = true → x.sinceFull + 1 < x.refreshK →
      (∀ z, x.last = some z → d < x.tSkip → x.skips < x.maxSkips → z.tov.epoch = e → choosePath x d e = 2) ∧
      ((x.tSkip ≤ d ∨ x.maxSkips ≤ x.skips ∨ ∀ z, x.last = some z → z.tov.epoch ≠ e) →
        (d < x.tDelta → choosePath x d e = 1) ∧ (x.tDelta ≤ d → choosePath x d e = 0))) ∧
    (∀ (m : Model) (v : F32), m.inFmt ≤ 1 →
      (fmtRange m.inFmt).1 ≤ quantise m v ∧ quantise m v ≤ (fmtRange m.inFmt).2 ∧
      (F.isNan (F.add (F.div v m.inScale) (F.ofInt m.inZp)) = true →
        quantise m v = clampI (fmtRange m.inFmt).1 (fmtRange m.inFmt).2 m.inZp))

/-- GROUP_FORM, its timeout and that of a group's bind; a Teal link up, its loss of lock, a retraining that fails, and
frames received. States completion of groupForm, groupFormTimeout, groupBindTimeout, tealLinkUp, tealLossOfLock,
tealRetrainTimeout and tealFrameReceived. (R161, R163, 08_inference.md Command pages, R160, R166, R168.) -/
def Obligations.GroupsAndTealLinks : Prop :=
 (∀ (s : State) (p : Nat) (l : Latch),
    (s.turn p 0x1201 l → s.reach dTEAL = .ok () → 1 ≤ u8 l.cmd.block 0 → 2 ≤ u8 l.cmd.block 1 → u8 l.cmd.block 1 ≤ 4 →
      u8 l.cmd.block 2 < u8 l.cmd.block 1 → u8 l.cmd.block 3 = 0 → 10 ≤ u32 l.cmd.block 4 → u32 l.cmd.block 4 ≤ 10000 →
      (s.tealState = 0 →
        let t := (s.touch dTEAL).setReg R.TEAL_CTRL (w32 (u8 l.cmd.block 0 + u8 l.cmd.block 1 * 0x100 +
          u8 l.cmd.block 2 * 0x800 + u8 l.cmd.block 3 * 0x4000))
        let u := ((t.setReg R.TEAL_STATE 1).modIndigo fun i => { i with
          forming := some (l.cmd.path, s.now + u32 l.cmd.block 4 * 1000000) }).tealAll 0
            (.forming (u8 l.cmd.block 0) (u8 l.cmd.block 1))
        (u.allFormed = false → exec (.groupForm p) s = .next (u.toStage p .yielded)) ∧
        (u.allFormed = true → exec (.groupForm p) s = .next (u.groupUp.replyOk p l []))) ∧
      (s.tealState = 2 → exec (.groupForm p) s = .next (s.answerErr p busy (s.respGen l.cmd))) ∧
      (s.tealState = 3 → exec (.groupForm p) s = .next (s.answerErr p peerLost (s.respGen l.cmd)))) ∧
    (∀ q dl, s.indigo.forming = some (q, dl) →
      (dl ≤ s.now → exec .groupFormTimeout s = .next (s.groupGone.answerErr q peerLost 0)) ∧
      (s.now < dl → exec .groupFormTimeout s = .next s)) ∧
    (s.indigo.forming = none → exec .groupFormTimeout s = .next s) ∧
    (∀ t, s.indigo.bindWait.get? p = some t → s.latch p = some l → l.stage = .yielded →
      let first := s.indigo.bound.foldl (fun k e => Nat.min k e.2.2) t
      (first + 100000000 ≤ s.now → exec (.groupBindTimeout p) s = .next ((s.modIndigo fun i => { i with
        bindWait := i.bindWait.erase p, bound := [] }).answerErr p peerLost (s.respGen l.cmd))) ∧
      (s.now < first + 100000000 → exec (.groupBindTimeout p) s = .next s)) ∧
    (s.indigo.bindWait.get? p = none → exec (.groupBindTimeout p) s = .next s)) ∧
 (∀ (s : State) (p : Nat), p < 2 →
    (s.domUp dTEAL = true → s.linkUp p = false → exec (.tealLinkUp p) s = .next ((((s.setReg (R.TEAL_Pn_LINK p) 2).assertSource
      (416 + p)).modIndigo fun i => { i with retrainAt := i.retrainAt.erase p }).releaseFrames p)) ∧
    (s.linkUp p = true → exec (.tealLinkUp p) s = .next s) ∧
    (s.linkUp p = true → exec (.tealLossOfLock p) s = .next (((((s.setReg (R.TEAL_Pn_LINK p) 1).bumpSat
      (R.TEAL_Pn_RETRAIN p)).assertSource 421).assertSource (416 + p)).modIndigo fun i =>
        { i with retrainAt := i.retrainAt.set p s.now })) ∧
    (s.linkUp p = false → exec (.tealLossOfLock p) s = .next s) ∧
    (∀ t, s.indigo.retrainAt.get? p = some t →
      (t + 1000000 ≤ s.now → exec (.tealRetrainTimeout p) s = .next (
        let u := (s.setReg (R.TEAL_Pn_LINK p) 0).modIndigo (fun i => { i with retrainAt := i.retrainAt.erase p }) |>.releaseFrames p
        u.losePeers u.unreachable)) ∧
      (s.now < t + 1000000 → exec (.tealRetrainTimeout p) s = .next s)) ∧
    (s.indigo.retrainAt.get? p = none → exec (.tealRetrainTimeout p) s = .next s) ∧
    (∀ f, s.clocksRun → s.linkUp p = true → s.domUp dTEAL = true →
      let g := s.fed dTEAL
      (f.crcOk = false → exec (.tealFrameReceived p f) s = .next (((g.assertSourceIf (g.reg (R.TEAL_Pn_REPLAY p) = 0) 420).bumpSat
        (R.TEAL_Pn_CRC_ERR p)).bumpSat (R.TEAL_Pn_REPLAY p))) ∧
      (f.crcOk = true → g.tealState ≠ 0 → f.dest ≠ g.groupIndex → exec (.tealFrameReceived p f) s = .next (
        (g.setReg64 (R.TEAL_Pn_FWD_LO p) (g.reg64 (R.TEAL_Pn_FWD_LO p) + 64)).putFrame (1 - p) f.source f.dest f.id f.msg)) ∧
      (f.crcOk = true → g.tealState = 0 ∨ f.dest = g.groupIndex → exec (.tealFrameReceived p f) s =
        .next (((g.setReg64 (R.TEAL_Pn_RX_LO p) (g.reg64 (R.TEAL_Pn_RX_LO p) + 64)).hearFrame p f).serveTeal f))) ∧
    (∀ f, s.clocksRun → s.linkUp p = false → exec (.tealFrameReceived p f) s = .next (s.fed dTEAL)) ∧
    (∀ source dest id m,
      (s.linkOf p = 2 → s.putFrame p source dest id m = (s.send (.teal p source dest id m)).setReg64 (R.TEAL_Pn_TX_LO p)
        (s.reg64 (R.TEAL_Pn_TX_LO p) + if source = s.groupIndex then 64 else 0)) ∧
      (s.linkOf p = 1 → s.putFrame p source dest id m =
        s.modIndigo fun i => { i with held := i.held ++ [(p, source, dest, id, m)] }) ∧
      (s.linkOf p ≠ 1 → s.linkOf p ≠ 2 → s.putFrame p source dest id m = s)))

/-- CTX_CREATE, CTX_DESTROY and RING_SET: a context is fenced in the spill buffer of its ring, and one that is destroyed goes
once its records are settled. States completion of ctxCreate, ctxDestroy and ringSet. (R251, 10_host_mailbox.md Command pages, R203, R204, R206.) -/
def Obligations.ContextsAndRings : Prop :=
  ∀ (s : State) (p : Nat) (l : Latch),
    (s.turn p 0x0201 l →
      (∀ n, allOf (ringCheck l.cmd.block l.cmd.fn s) = .ok () →
        (s.ctxsOf l.cmd.fn).length < s.regN (R.HIF_Fn_CTX_QUOTA l.cmd.fn) → s.freeCtx = some n →
        exec (.ctxCreate p) s = .next ((((s.setCtx n (Ctx.new l.cmd.fn (u8 l.cmd.block 0))).showUsed l.cmd.fn).fenceSpill n l.cmd.fn
          (u8 l.cmd.block 0)).replyOk p l
          (leBytes 2 n ++ leBytes 2 0))) ∧
      (∀ e, allOf (ringCheck l.cmd.block l.cmd.fn s) = .error e →
        exec (.ctxCreate p) s = .next (s.answerErr p e (s.respGen l.cmd))) ∧
      (allOf (ringCheck l.cmd.block l.cmd.fn s) = .ok () →
        s.regN (R.HIF_Fn_CTX_QUOTA l.cmd.fn) ≤ (s.ctxsOf l.cmd.fn).length ∨ s.freeCtx = none →
        exec (.ctxCreate p) s = .next (s.answerErr p noResource (s.respGen l.cmd)))) ∧
    (s.turn p 0x0202 l →
      (s.ctx? l.cmd.ctx = none → exec (.ctxDestroy p) s = .next (s.answer p ⟨cOk, 0, 0, []⟩)) ∧
      (∀ x, s.ctx? l.cmd.ctx = some x →
        let t := (s.tearOpen l.cmd.ctx x).drainRings x.fn
        (t.recordsOf l.cmd.ctx x.fn = 0 →
          exec (.ctxDestroy p) s = .next ((t.freeNumber l.cmd.ctx x).answer p ⟨cOk, 0, x.gen, []⟩)) ∧
        (t.recordsOf l.cmd.ctx x.fn ≠ 0 → exec (.ctxDestroy p) s = .next ((t.modHost fun h => { h with ctxs := h.ctxs.map fun e =>
          if e.1 = l.cmd.ctx then (e.1, { e.2 with closing := some (s.now, l.cmd.path) }) else e }).toStage p .yielded)))) ∧
    (s.turn p 0x0204 l →
      let b := l.cmd.block
      let n := ringNo l.cmd.fn (u8 b 0)
      let t := (((((s.freeSpill l.cmd.fn (u8 b 0)).setRingRegs n b).setRing l.cmd.fn (u8 b 0) Ring.init).setReg (R.HIF_RINGn_HEAD n)
        0).setReg (R.HIF_RINGn_TAIL n) 0).setReg (R.HIF_RINGn_SPILL_LEVEL n) 0
      (∀ e, ringSetCheck l.cmd s = .error e → exec (.ringSet p) s = .next (s.answerErr p e (s.respGen l.cmd))) ∧
      (ringSetCheck l.cmd s = .ok () → s.ringEn l.cmd.fn (u8 b 0) = true → u8 b 1 = 1 →
        exec (.ringSet p) s = .next (((s.setRingRegs n b).ringSignal l.cmd.fn (u8 b 0)).replyOk p l [])) ∧
      (ringSetCheck l.cmd s = .ok () → s.ringEn l.cmd.fn (u8 b 0) = false ∨ u8 b 1 ≠ 1 → u8 b 1 ≠ 1 ∨ u32 b 0x1C = 0 →
        exec (.ringSet p) s = .next (t.replyOk p l [])) ∧
      (ringSetCheck l.cmd s = .ok () → s.ringEn l.cmd.fn (u8 b 0) = false → u8 b 1 = 1 → u32 b 0x1C ≠ 0 →
        (∀ u a, t.allocDram (u32 b 0x1C * 1024) 0xFFFF exSpill n = some (u, a) →
          exec (.ringSet p) s = .next (u.replyOk p l [])) ∧
        (t.allocDram (u32 b 0x1C * 1024) 0xFFFF exSpill n = none →
          exec (.ringSet p) s = .next (s.answerErr p noResource (s.respGen l.cmd)))))

/-- The doorbell, the fetches of a block and of a command's data, and the posting of a response. States completion of
doorbell, paramIndirectFetchDone, commandDmaFetchDone and responsePost. (R193, R196, R197, R195,
R205.) -/
def Obligations.MailboxAndDma : Prop :=
  (∀ (s : State) (fn : Nat) (v : Word), s.hostReach →
    (s.fnEnabled fn = false → exec (.doorbell fn v) s = .next s) ∧
    (s.fnEnabled fn = true → s.busyFn fn = true ∨ s.sys.ready = false ∨ s.ethOwned fn = true →
      exec (.doorbell fn v) s = .next ((s.setFunc fn { s.func fn with dbIgnored := true }).bumpSat (R.HIF_Fn_DB_IGN fn))) ∧
    (s.fnEnabled fn = true → s.busyFn fn = false → s.sys.ready = true → s.ethOwned fn = false → fn < 32 →
      let c := parseCmd fn fn (s.func fn).cmdArea v s.now
      let l : Latch := ⟨c, s.firstStage c, false, s.host.latched⟩
      let t := (if s.firstStage c = .fetch then s.dmaAsk fn (u64 c.block 0) c.paramLen else s).modHost fun h =>
        { h with latched := h.latched + 1 }
      exec (.doorbell fn v) s = .next ((((((t.setFunc fn
        { t.func fn with latch := some l, respValid := false, dbIgnored := false }).setReg (R.HIF_Fn_LAST_SEQ fn) c.seq).bump (R.HIF_Fn_CMDS fn)).assertSource 448)).usePoison c
          (s.firstStage c)))) ∧
  (∀ (s : State) (p : Nat) (d : Option Bytes) (l : Latch), s.latch p = some l →
    (l.stage ≠ .fetch → exec (.paramIndirectFetchDone p d) s = .next s) ∧
    (l.stage = .fetch → s.dmaRead p (u64 l.cmd.block 0) l.cmd.paramLen d = none →
      exec (.paramIndirectFetchDone p d) s = .next (((s.fetchFailed p d).countDmaErr l.cmd.fn).answerErr p dmaError (s.respGen l.cmd))) ∧
    (∀ b, l.stage = .fetch → s.dmaRead p (u64 l.cmd.block 0) l.cmd.paramLen d = some b →
      let c := { l.cmd with block := b }
      (∀ e, fetchedLength l.cmd b = .error e →
        exec (.paramIndirectFetchDone p d) s = .next (s.answerErr p e (s.respGen l.cmd))) ∧
      (fetchedLength l.cmd b = .ok () → s.poisonCheck c = false →
        exec (.paramIndirectFetchDone p d) s = .next (s.setLatch p (some { l with cmd := c, stage := .ready }))) ∧
      (fetchedLength l.cmd b = .ok () → s.poisonCheck c = true → exec (.paramIndirectFetchDone p d) s =
        .next ((s.usePoison c (.answered ⟨cHwFault, 2, 0, []⟩)).answerErr p ⟨cHwFault, 2⟩ (s.respGen c)))) ∧
    (l.stage = .yielded → exec (.commandDmaFetchDone p d) s = .next
      ((s.fetchFailed p d).setLatch p (some { l with stage := .resumed d }))) ∧
    (l.stage ≠ .yielded → exec (.commandDmaFetchDone p d) s = .next s)) ∧
  (∀ (s : State) (p : Nat) (l : Latch) (r : Resp), s.clocksRun → s.latch p = some l → l.stage = .answered r →
    (l.abandoned = true → exec (.responsePost p) s = .next ((s.setLatch p none).afterPost l.cmd r)) ∧
    (l.abandoned = false → p = ethPath → exec (.responsePost p) s = .next ((s.postEth l.cmd r).afterPost l.cmd r)) ∧
    (l.abandoned = false → p ≠ ethPath →
      let t := s.setFunc p
        { s.func p with latch := none, respArea := padTo 512 (respBytes l.cmd r), respValid := true, respSeq := BitVec.ofNat 16 l.cmd.seq.toNat }
      exec (.responsePost p) s = .next ((if l.cmd.flags / 2 % 2 = 1 then t.msix p 0 else t).afterPost l.cmd r)))

/-- The Ethernet host path, the links, the functions, the rings' TAIL and delivery, FLR and VFs. States completion of
ethRequest, ethUpload, ethFrameReceived, pcieLinkChange, ethLinkChange, functionMasterEnable, ringTailWrite, recordDeliver,
ringModerationHoldoff, flr, vfDisable and vfEnable. (R210, R211, R212, R214,
R189, R208, R205, 10_host_mailbox.md.) -/
def Obligations.HostPathsAndFunctions : Prop :=
  (∀ (s : State) (g : Datagram), s.hostReach →
    (s.ethOn = false → exec (.ethRequest g) s = .next s ∧ exec (.ethUpload g) s = .next s) ∧
    (s.ethOn = true → s.ethLive = false ∨ g.fromPeer = false ∨ dgramOk g.bytes 1 = false ∨ s.sys.ready = false →
      exec (.ethRequest g) s = .next ((s.bumpSat R.HIF_ETH_DROP).assertSource 453)) ∧
    (s.ethOn = true → s.ethLive = true → g.fromPeer = true → dgramOk g.bytes 1 = true → s.sys.ready = true →
      let t := (s.bumpSat R.HIF_ETH_RX_REQ).assertSource 454
      let area := padTo 512 (g.bytes.drop 16)
      let seq := w32 (u32 area 4)
      let fresh := t.host.eth.last = none ∨ ∃ q b, t.host.eth.last = some (q, b) ∧ q ≠ seq
      (∀ b, t.host.eth.last = some (seq, b) →
        exec (.ethRequest g) s = .next ((t.bumpSat R.HIF_ETH_RX_DUP).sendDatagram 2 0 0 g.srcPort b)) ∧
      (fresh → t.host.eth.latch.isSome = true → exec (.ethRequest g) s = .next t.ethDrop) ∧
      (fresh → t.host.eth.latch = none →
        let u := t.modHost fun h => { h with eth := { h.eth with replyPort := g.srcPort } }
        exec (.ethRequest g) s = .next (u.latchCmd ethPath (parseCmd ethPath u.ethFn area seq u.now)))) ∧
    (s.ethOn = true → s.ethLive = false ∨ g.fromPeer = false ∨ dgramOk g.bytes 4 = false ∨
        u16 s.host.eth.cfg 0x34 * 1048576 < u64 g.bytes 8 + (g.bytes.drop 16).length →
      exec (.ethUpload g) s = .next ((s.bumpSat R.HIF_ETH_DROP).assertSource 453)) ∧
    (s.ethLive = true → g.fromPeer = true → dgramOk g.bytes 4 = true →
      u64 g.bytes 8 + (g.bytes.drop 16).length ≤ u16 s.host.eth.cfg 0x34 * 1048576 →
      exec (.ethUpload g) s = .next (((
        (s.blockWrite 0x040 (s.host.eth.uploadBase + u64 g.bytes 8) (g.bytes.drop 16)).bumpSat R.HIF_ETH_UPLOAD_BYTES (g.bytes.drop 16).length).send (.datagram 5 g.srcPort
          (leBytes 2 0x5A51 ++ leBytes 1 5 ++ leBytes 1 0 ++ slice g.bytes 4 4 ++ leBytes 8 0))).bumpSat
            R.HIF_ETH_TX_DGRAMS))) ∧
  (∀ (s : State) (f : EthFrame), s.hostReach →
    (s.ethOn = false → exec (.ethFrameReceived f) s = .next s) ∧
    (s.ethOn = true → exec (.ethFrameReceived f) s =
      .next (if f = .other then (s.bumpSat R.HIF_ETH_DROP).assertSource 453 else s.send .resolution))) ∧
  (∀ (s : State) (up : Bool) (sp w : Nat), exec (.pcieLinkChange up sp w) s =
    .next (((s.modSys fun y => { y with wakeLow := y.wakeLow && !up }).setReg R.HIF_LINK
      (if up then w32 (1 + sp * 2 + w * 16) else 0)).assertSource 450)) ∧
  (∀ (s : State) (k : Nat) (up : Bool), exec (.ethLinkChange k up) s =
    .next ((s.modSys fun y => { y with ethLink := y.ethLink.set k up }).assertSource (455 + k))) ∧
  (∀ (s : State) (f d : Nat) (b : Bool), s.hostReach →
    (s.fnEnabled f = false → exec (.functionMasterEnable f d b) s = .next s) ∧
    (s.fnEnabled f = true → exec (.functionMasterEnable f d b) s = .next ((s.setFunc f
      { s.func f with dState := d, bme := b, msixEnable := (s.func f).msixEnable || b }).releaseMsix f))) ∧
  (∀ (s : State) (f r : Nat) (v : Word), s.hostReach →
    (s.ringEth f r = true → exec (.ringTailWrite f r v) s = .next s) ∧
    (s.ringEth f r = false →
      let t := s.setReg (R.HIF_RINGn_TAIL (ringNo f r)) (v &&& 0xFFFFFFF8)
      (t.ringEn f r = true → t.ringSize f r < t.ringUsed f r → exec (.ringTailWrite f r v) s =
        .next ((t.bumpSat (R.HIF_RINGn_TAIL_INVALID (ringNo f r))).assertSource 457)) ∧
      (t.ringEn f r = false ∨ t.ringUsed f r ≤ t.ringSize f r → exec (.ringTailWrite f r v) s = .next t))) ∧
  (∀ (s : State) (f r : Nat), s.clocksRun →
    (s.ringEn f r = false → exec (.recordDeliver f r) s = .next s.settleTeardowns ∧
      exec (.ringModerationHoldoff f r) s = .next s) ∧
    (s.ringEn f r = true → s.domUp dHOSTETH = true → s.domUp dFAB = true →
      (∀ x, (s.ring f r).held = some x → s.ringTakes f r x.recd = true → exec (.recordDeliver f r) s =
        .next (((s.setRing f r { s.ring f r with held := none }).deliver f r x.recd).settleTeardowns)) ∧
      (∀ x xs, (s.ring f r).held = none → (s.ring f r).spill = x :: xs → s.ringTakes f r x.recd = true →
        exec (.recordDeliver f r) s = .next (((s.setSpill f r xs).deliver f r x.recd).settleTeardowns)) ∧
      (∀ y ys, (s.ring f r).held = none → (s.ring f r).spill = [] → takeStaged f r s.host.staged = some (y, ys) →
        (s.ringTakes f r y.recd = true → exec (.recordDeliver f r) s =
          .next (((s.setStaged ys).deliver f r y.recd).settleTeardowns)) ∧
        (s.ringTakes f r y.recd = false →
          let u := (s.ringWaits f r).setStaged ys
          exec (.recordDeliver f r) s = .next (u.setRing f r { u.ring f r with held := some y }).settleTeardowns)) ∧
      (∀ x y ys, (s.ring f r).held = some x → s.ringTakes f r x.recd = false → takeStaged f r s.host.staged = some (y, ys) →
        let room := spillBytes (s.ring f r).spill + y.recd.length ≤ s.regFld (R.HIF_RINGn_SPILL_KIB (ringNo f r)) 16 0 * 1024
        (room → exec (.recordDeliver f r) s =
          .next (((s.ringWaits f r).setStaged ys).setSpill f r ((s.ring f r).spill ++ [y])).settleTeardowns) ∧
        (¬ room → exec (.recordDeliver f r) s = .next (s.ringWaits f r).settleTeardowns)) ∧
      ((s.ring f r).held = none → (s.ring f r).spill = [] → takeStaged f r s.host.staged = none →
        exec (.recordDeliver f r) s = .next s.settleTeardowns)) ∧
    ((∀ e ∈ s.host.ctxs, s.settled e.1 e.2 = false) → s.settleTeardowns = s) ∧
    (s.ringEn f r = true → exec (.ringModerationHoldoff f r) s = .next (s.ringSignal f r))) ∧
  (∀ (s : State) (f n : Nat), s.hostReach →
    (s.fnEnabled f = true → exec (.flr f) s = .next (s.flr f)) ∧
    (s.fnEnabled f = false → exec (.flr f) s = .next s) ∧
    (n < s.numVfs → exec (.vfDisable n) s = .next (s.setNumVfs n)) ∧
    (s.numVfs ≤ n → exec (.vfDisable n) s = .next s) ∧
    (s.numVfs < n → exec (.vfEnable n) s = .next (s.setNumVfs n)) ∧
    (n ≤ s.numVfs → exec (.vfEnable n) s = .next s))

/-- The system, context, Ethernet and firmware pages. States completion of each. (10_host_mailbox.md Command pages, 11_firmware_images.md Command
pages, R198, R229, R230, R231.) -/
def Obligations.SystemAndFirmwarePages : Prop :=
  PageDoes .identify 0x0101 (fun _ _ => .ok ()) (fun c s => (s, s.identify c)) ∧
  PageDoes .getVersion 0x0102 (fun _ _ => .ok ()) (fun _ s => (s, s.version)) ∧
  PageDoes .reset 0x0103 (fun c _ => allOf [inRange (u8 c.block 0) 0 0 0, reserved c.block 1 1, inRange (u16 c.block 2) 0 1000 2]) (fun _ s => (s, [])) ∧
  PageDoes .funcSetLimits 0x0104 (fun c s =>
      let f := u8 c.block 0
      let q := u16 c.block 2
      allOf [inRange f 0 31 0, reserved c.block 1 1, need (q ≤ 1024 && (s.ctxsOf f).length ≤ q) (badParam 2),
      need ((List.range 32).foldl (fun n g => n + if g = f then q else s.regN (R.HIF_Fn_CTX_QUOTA g)) 0 ≤ 1024) noResource]) (fun c s => (s.setReg (R.HIF_Fn_CTX_QUOTA (u8 c.block 0)) (w32 (u16 c.block 2)), [])) ∧
  PageDoes .ctxSetRing 0x0203 (fun c s => allOf (ringCheck c.block c.fn s)) (fun c s => (match s.ctx? c.ctx with
      | some x => (s.setCtx c.ctx { x with ring := u8 c.block 0 }).fenceSpill c.ctx c.fn (u8 c.block 0)
      | none => s, [])) ∧
  PageDoes .ctxGetInfo 0x0205 (fun _ _ => .ok ()) (fun c s => (s, s.ctxInfo c.ctx)) ∧
  PageDoes .fwGetSlots 0x1001 (fun _ _ => .ok ()) (fun _ s =>
      (s, leBytes 1 s.sys.running ++ leBytes 1 s.board.rollback ++ leBytes 1 s.sys.bootMode ++ leBytes 5 0 ++
      s.slotBytes 0 ++ s.slotBytes 1)) ∧
  FlashPageDoes .ethSetHost 0x0105 ethCheck (fun c _ => if u8 c.block 4 = 1 then some ⟨[(flSettings, 0x10000)], []⟩ else none) (fun c s =>
      let t := if u8 c.block 4 = 1 then s.modBoard fun b => { b with ethSaved := some c.block } else s
      ((t.ethWindow c.block).getD t, [])) ∧
  FlashPageDoes .memSetEcc 0x0106 (fun c _ => allOf [inRange (u8 c.block 0) 0 1 0, reserved c.block 1 3]) (fun _ _ => some ⟨[(flSettings, 0x10000)], []⟩) (fun c s => (s.modBoard fun b => { b with eccSaved := some (u8 c.block 0 = 1) }, [])) ∧
  FlashPageDoes .fwBegin 0x1002 (fun c s => allOf [need (u8 c.block 0 ≤ 1 && u8 c.block 0 ≠ s.sys.running) (badParam 0),
      need (u8 c.block 1 ≤ 7 && (u8 c.block 1 = 0 || s.sys.running ≤ 1)) (badParam 1), reserved c.block 2 2,
      need s.sys.session.isNone busy]) (fun c s => some (beginJob c s)) (fun c s => (s.modSys fun y => { y with session := some (u8 c.block 0) }, [])) ∧
  FlashPageDoes .fwFinish 0x1004 (fun _ s => match s.sys.session with
      | none => .error busy
      | some k => verdictCheck (s.board.slotVerdict k)) (fun _ s =>
      let k := s.sys.session.getD 0
      some ⟨[], [(k * flCs1 + 4, [0x3F, 0x07]), (k * flCs1 + 8, leBytes 4 (s.newSeq k).toNat)]⟩) (fun _ s => (s.modSys fun y => { y with session := none }, [])) ∧
  FlashPageDoes .fwCommit 0x1006 (fun c s => allOf [need (s.sys.running ≤ 1 && headState (s.board.header s.sys.running) ≠ slAlternate) (badParam 0),
      inRange (u8 c.block 0) 0 1 0, reserved c.block 1 3]) (fun c s =>
      let up := u8 c.block 0 = 1 ∧ s.board.rollback < s.board.minRollback s.sys.running
      match commitJob s with
      | some j => some j
      | none => if up then some ⟨[], []⟩ else none) (fun c s => (s.advanceRollback c, [])) ∧
  FlashPageDoes .compatOverride 0x1007 (fun c s => allOf [need (s.sys.mode = .restricted) (badParam 0), need (w32 (u32 c.block 0) = s.sys.belrix) (badParam 0),
      need (w32 (u32 c.block 4) = s.sys.denzewen) (badParam 4)]) (fun c s =>
      if s.sys.running ≤ 1 then
      some ⟨[], [(s.sys.running * flCs1 + 6, [0x7F]), (s.sys.running * flCs1 + 0x0C, slice c.block 0 8)]⟩
      else none) (fun _ s => ((s.modSys fun y => { y with mode := .overridden }).reportOverride, []))

/-- FW_WRITE and FW_HOST_LOAD: the data fetched, the sector written, the set verified. States completion of fwWrite
and fwHostLoad. (11_firmware_images.md Command
pages, R197, R225, R227.) -/
def Obligations.FirmwareData : Prop :=
  ∀ (s : State) (p : Nat) (l : Latch),
    let b := l.cmd.block
    (u8 b 0 = 1 ∨ u8 b 0 = 2 ∨ u8 b 0 = 3 → slice b 1 3 = [0, 0, 0] → u32 b 4 % 65536 = 0 → u32 b 4 < (region (u8 b 0)).2 →
      1 ≤ u32 b 8 → u32 b 8 ≤ 65536 → slice b 0x0C 4 = [0, 0, 0, 0] → u64 b 0x10 % 64 = 0 →
      (s.turn p 0x1003 l → s.sys.session = none → exec (.fwWrite p) s = .next (s.answerErr p busy (s.respGen l.cmd))) ∧
      (∀ k, s.sys.session = some k →
        (s.turn p 0x1003 l → exec (.fwWrite p) s =
          .next ((s.dmaAsk l.cmd.path (u64 b 0x10) (u32 b 8)).toStage p .yielded)) ∧
        (∀ r, s.latch p = some l → l.stage = .resumed r → l.cmd.opcode = 0x1003 → s.sys.flashJob = none →
          (∀ d, s.dmaRead l.cmd.path (u64 b 0x10) (u32 b 8) r = some d →
            let a := k * flCs1 + (region (u8 b 0)).1 + u32 b 4
            exec (.fwWrite p) s = .next ((s.modSys fun y =>
              { y with flashJob := some ⟨[(a, 0x10000)], [(a, d)]⟩, flashDone := none }).toStage p .yielded)) ∧
          (s.dmaRead l.cmd.path (u64 b 0x10) (u32 b 8) r = none → exec (.fwWrite p) s =
            .next ((s.countDmaErr l.cmd.fn).answerErr p dmaError ((s.countDmaErr l.cmd.fn).respGen l.cmd)))))) ∧
    (∀ r j, s.latch p = some l → l.stage = .resumed r → l.cmd.opcode = 0x1003 → s.sys.flashJob = some j →
      let t := s.modSys fun y => { y with flashJob := none, flashDone := none }
      (s.sys.flashDone = some true → exec (.fwWrite p) s = .next (t.replyOk p l [])) ∧
      (s.sys.flashDone = some false → exec (.fwWrite p) s =
        .next ((t.flashError j true).answerErr p blockFault ((t.flashError j true).respGen l.cmd)))) ∧
    (u64 b 0 % 64 = 0 → 768 ≤ u32 b 8 → u32 b 8 ≤ 10551296 → slice b 0x0C 4 = [0, 0, 0, 0] →
      (s.turn p 0x1005 l → s.sys.running ≠ 3 → exec (.fwHostLoad p) s = .next (s.answerErr p busy (s.respGen l.cmd))) ∧
      (s.turn p 0x1005 l → s.sys.running = 3 → exec (.fwHostLoad p) s =
        .next ((s.dmaAsk l.cmd.path (u64 b 0) (u32 b 8)).toStage p .yielded)) ∧
      (∀ r, s.latch p = some l → l.stage = .resumed r → l.cmd.opcode = 0x1005 → s.sys.running = 3 →
        (s.dmaRead l.cmd.path (u64 b 0) (u32 b 8) r = none → exec (.fwHostLoad p) s =
          .next ((s.countDmaErr l.cmd.fn).answerErr p dmaError ((s.countDmaErr l.cmd.fn).respGen l.cmd))) ∧
        (∀ d, s.dmaRead l.cmd.path (u64 b 0) (u32 b 8) r = some d →
          let o2 := padded d 0
          let o3 := o2 + padded d o2
          (o3 + padded d o3 ≠ u32 b 8 → exec (.fwHostLoad p) s = .next (s.answerErr p (badParam 0) (s.respGen l.cmd))) ∧
          (o3 + padded d o3 = u32 b 8 →
            let v := s.board.setVerdict (imageAt d 0) (imageAt d o2) (imageAt d o3)
            (∀ e, verdictCheck v = .error e → exec (.fwHostLoad p) s = .next (s.answerErr p e (s.respGen l.cmd))) ∧
            (verdictCheck v = .ok () → exec (.fwHostLoad p) s = .next ((s.modSys fun z =>
              { z with hostLoad := some ((imageAt d o2).version, (imageAt d o3).version, manifestPairs (imageAt d 0).body) }).replyOk
                p l []))))))

/-- PORST_N, WRST_N, the voltage detectors, RESET's delay and the end of a flash operation. States completion of porstNAssert,
porstNRelease, wrstNAssert, voltageDetectorReset, resetDelayExpiry and flashOperationDone. (R218, R219, R365, R369, R371,
R232.) -/
def Obligations.BootAndResets : Prop :=
  ∀ (s : State),
    (exec .porstNAssert s = .next s.cold) ∧
    (∀ a c, a < 600 ∨ c < 580 → exec (.voltageDetectorReset a c) s = .next s.cold) ∧
    (∀ a c, 600 ≤ a → 580 ≤ c → exec (.voltageDetectorReset a c) s = .next s) ∧
    (s.cold.board = s.board ∧ s.cold.faults.log = s.faults.log ∧ s.cold.pending = s.pending ∧ s.cold.regs = State.reset.regs ∧
      s.cold.mem = State.reset.mem ∧ s.cold.sys = State.reset.sys) ∧
    (∀ st tr, s.sys.inPorst = true → exec (.porstNRelease st tr) s =
      .next (((s.modSys fun y => { y with inPorst := false, bootMode := st % 4, dramTrained := tr }).setReg R.DDR_ECC_CTRL
        (w32 (b2n (s.board.eccSaved.getD true)))).boot)) ∧
    (∀ st tr, s.sys.inPorst = false → exec (.porstNRelease st tr) s = .next s) ∧
    (∀ n st, s.sys.inPorst = false → 25 ≤ n → exec (.wrstNAssert n st) s =
      .next (s.modSys fun y => { y with bootMode := st % 4 }).warm.boot) ∧
    (∀ n st, s.sys.inPorst = true ∨ n < 25 → exec (.wrstNAssert n st) s = .next s) ∧
    (∀ t, s.sys.resetAt = some t → t ≤ s.now → s.sys.inPorst = false → exec .resetDelayExpiry s = .next s.warm.boot) ∧
    (∀ t, s.sys.resetAt = some t → s.now < t → exec .resetDelayExpiry s = .next s) ∧
    (s.sys.resetAt = none → exec .resetDelayExpiry s = .next s) ∧
    (s.warm.board = s.board ∧ s.warm.mem = s.mem ∧ s.warm.amber = s.amber ∧ s.warm.sable = s.sable ∧
      s.warm.host.ctxs = [] ∧ s.warm.sys.bootMode = s.sys.bootMode) ∧
    (∀ ok j, s.sys.flashJob = some j → s.sys.flashDone = none → exec (.flashOperationDone ok) s =
      .next ((((if ok then s.modBoard fun b => { b with flash := j.run b.flash } else s).modSys fun y =>
        { y with flashDone := some ok }).flashWake 0).flashWake ethPath)) ∧
    (∀ ok, s.sys.flashJob = none ∨ s.sys.flashDone ≠ none → exec (.flashOperationDone ok) s = .next s)

/-- Every generation-bearing command: staged in the open set, or a change set of one command.
States completion of each. (R233, R234, R235, R236,
R197, 03_event_ports.md, 04_projection.md, 05_features.md, 06_filter_chain.md, 07_fusion.md, 09_approximation.md.) -/
def Obligations.GenerationPages : Prop :=
  GenerationPageDoes .evportSetFormat formatPage (fun _ _ => True) ∧
  GenerationPageDoes .evportSetFilters filtersPage (fun _ _ => True) ∧
  GenerationPageDoes .evportSetBlocking blockingPage (fun _ _ => True) ∧
  GenerationPageDoes .projSetPort projPortPage (fun _ _ => True) ∧
  GenerationPageDoes .projSetStack stackPage (fun _ _ => True) ∧
  GenerationPageDoes .featSetSurface surfacePage (fun _ _ => True) ∧
  GenerationPageDoes .featSetCorner cornerPage (fun _ _ => True) ∧
  GenerationPageDoes .featSetFlow flowPage (fun _ _ => True) ∧
  GenerationPageDoes .featSetTracker trackerPage (fun _ _ => True) ∧
  GenerationPageDoes .filterSetDerived derivedPage (fun _ _ => True) ∧
  GenerationPageDoes .filterSetChain chainPage (fun _ _ => True) ∧
  GenerationPageDoes .filterSetDcblock dcPage (fun _ _ => True) ∧
  GenerationPageDoes .filterSetThreshold thresholdPage (fun _ _ => True) ∧
  GenerationPageDoes .filterSetBand bandPage (fun _ _ => True) ∧
  GenerationPageDoes .fuseSetRule rulePage (fun _ _ => True) ∧
  GenerationPageDoes .inferBind bindPage (fun _ _ => True) ∧
  GenerationPageDoes .approxSetLayers layersPage (fun _ _ => True) ∧
  GenerationPageDoes .approxSetBinding approxBindPage (fun _ _ => True) ∧
  (∀ pg ∈ gPages, GenerationPageDoes .stageGenerationCommand pg (fun s c => s.setOpen c.ctx = true) ∧
    GenerationPageDoes .singleCommandCommit pg (fun s c => s.setOpen c.ctx = false))

/-- The CHANGESET commands. States completion of each. (12_live_reconfiguration.md Command pages, R234, R236, R237, R198.) -/
def Obligations.ChangeSetPages : Prop :=
  PageDoes .changesetAbort 0x0212 (fun c s => need (s.setOpen c.ctx) notInSet) (fun c s => (s.dropSet c.ctx, [])) ∧
  PageDoes .changesetGetStatus 0x0214 (fun _ _ => .ok ()) (fun c s => (s, s.changeStatus c.ctx)) ∧
  PageDoes .changesetSetPolicy 0x0215 (fun c _ => allOf [inRange (u8 c.block 0) 0 1 0, reserved c.block 1 3]) (fun c s => (match s.ctx? c.ctx with
      | some x => s.setCtx c.ctx { x with requireSet := u8 c.block 0 = 1 }
      | none => s, [])) ∧
  (∀ (s : State) (p : Nat) (l : Latch) (x : Ctx), s.ctx? l.cmd.ctx = some x →
    (s.turn p 0x0210 l → u8 l.cmd.block 2 = 0 ∨ (u8 l.cmd.block 2 = 1 ∧ u16 l.cmd.block 0 = x.gen.toNat) → u8 l.cmd.block 3 = 0 →
      (x.set = none → exec (.changesetBegin p) s = .next ((s.setCtx l.cmd.ctx { x with set := some ⟨x.gen, false, []⟩ }).replyOk p l [])) ∧
      (x.set ≠ none → exec (.changesetBegin p) s = .next (s.answerErr p busy (s.respGen l.cmd)))) ∧
    (s.turn p 0x0210 l → u8 l.cmd.block 2 = 1 → u16 l.cmd.block 0 ≠ x.gen.toNat →
      exec (.changesetBegin p) s = .next (s.answerErr p staleGen (s.respGen l.cmd))) ∧
    (s.turn p 0x0211 l →
      (x.set = none → exec (.changesetCommit p) s = .next (s.answerErr p notInSet (s.respGen l.cmd))) ∧
      (∀ k, x.set = some k →
        (k.stale = true → exec (.changesetCommit p) s =
          .next ((s.dropSet l.cmd.ctx).answerErr p staleGen ((s.dropSet l.cmd.ctx).respGen l.cmd))) ∧
        (k.stale = false → k.staged = [] → exec (.changesetCommit p) s =
          .next ((s.setCtx l.cmd.ctx { x with set := none }).replyOk p l (leBytes 2 x.gen.toNat ++ leBytes 6 0))) ∧
        (k.stale = false → k.staged ≠ [] → s.setBlocked k.staged = true →
          exec (.changesetCommit p) s = .next (s.answerErr p busy (s.respGen l.cmd))) ∧
        (k.stale = false → k.staged ≠ [] → s.setBlocked k.staged = false →
          let t := (s.setCtx l.cmd.ctx { x with set := none }).commit l.cmd.ctx
            k.staged l.cmd.latchedAt
          exec (.changesetCommit p) s = .next (t.replyOk p l (leBytes 2 (t.ctxGen l.cmd.ctx).toNat ++
            leBytes 1 (t.pendingMask l.cmd.ctx) ++ leBytes 1 0 ++ leBytes 2 k.staged.length ++ leBytes 2 0))))))

/-- A commit increments the generation, arms every element of the set, whose records keep the generation before until it
applies (12 R238), and leaves other contexts' generations alone. (R237,
12_live_reconfiguration.md.) -/
def Obligations.CommitOfASet : Prop :=
  ∀ (s : State) (c : Nat) (x : Ctx) (l : List GCmd) (at' : Nat), s.ctx? c = some x → (∀ g ∈ l, (g.elem s).blk ≤ 2) →
    let t := s.commit c l at'
    (t.ctxGen c = x.gen + 1) ∧
    (∀ y, t.ctx? c = some y → y.lastCommit = at') ∧
    (∀ d, d ≠ c → t.ctxGen d = s.ctxGen d) ∧
    t.host.armed = s.host.armed ++ (elemsOf s l).map fun e => ⟨c, x.gen, e, l.filter fun g => g.elem s = e, s.now⟩

/-- QUIESCE_COMMIT: the pause, the end of its drain, and its limit. States completion of quiesceCommit,
quiesceDrainEnd and quiescePauseTimeout. (R241, R242, 12_live_reconfiguration.md Command
pages.) -/
def Obligations.QuiesceCommit : Prop :=
  ∀ (s : State) (p : Nat) (l : Latch) (x : Ctx) (k : ChangeSet),
    (s.ctx? l.cmd.ctx = some x → s.turn p 0x0213 l → x.set = some k → k.stale = false → 100 ≤ u32 l.cmd.block 0 → u32 l.cmd.block 0 ≤ 100000 →
      x.quiesce = none →
      (k.staged = [] → exec (.quiesceCommit p) s = .next ((s.setCtx l.cmd.ctx { x with set := none }).replyOk p l
        (leBytes 2 x.gen.toNat ++ leBytes 22 0))) ∧
      (k.staged ≠ [] → s.setBlocked k.staged = false → (∀ g ∈ k.staged, s.reach (g.elem s).domain = .ok ()) →
        exec (.quiesceCommit p) s = .next ((s.setCtx l.cmd.ctx
          { x with quiesce := some ⟨s.tickStamp, l.cmd.path, s.now + u32 l.cmd.block 0 * 1000, []⟩ }).toStage p .yielded)) ∧
      (k.staged ≠ [] → s.setBlocked k.staged = true → (∀ g ∈ k.staged, s.reach (g.elem s).domain = .ok ()) →
        exec (.quiesceCommit p) s = .next (s.answerErr p busy (s.respGen l.cmd)))) ∧
    (∀ c q, s.ctx? c = some x → x.quiesce = some q →
      (x.set = some k → s.inputsLeft c = true → exec (.quiesceDrainEnd c) s = .next s) ∧
      (x.set = some k → s.inputsLeft c = false → (s.virFlush c).resultsLeft c = true ∨ q.deadline < s.now →
        exec (.quiesceDrainEnd c) s = .next (s.virFlush c)) ∧
      (x.set = some k → s.inputsLeft c = false → (s.virFlush c).resultsLeft c = false → s.now ≤ q.deadline →
        let f := s.virFlush c
        (k.stale = false →
          let t := ((f.switch c k.staged).resume c).quiescedGaps c q f.now
          exec (.quiesceDrainEnd c) s = .next (t.endQuiesce q c (.ok (leBytes 2 (t.ctxGen c).toNat ++ leBytes 2 0 ++
            leBytes 4 ((f.now - q.tp.steady) / 1000) ++ leBytes 8 (q.count 0 8) ++ leBytes 8 (q.count 8 64))))) ∧
        (k.stale = true → exec (.quiesceDrainEnd c) s =
          .next ((((f.dropSet c).resume c).quiescedGaps c q f.now).endQuiesce q c (.error staleGen)))) ∧
      (q.deadline ≤ s.now →
        exec (.quiescePauseTimeout c) s = .next (((s.resume c).quiescedGaps c q s.now).endQuiesce q c (.error busy))) ∧
      (s.now < q.deadline → exec (.quiescePauseTimeout c) s = .next s)) ∧
    (∀ c, s.ctx? c = some x → x.quiesce = none →
      exec (.quiesceDrainEnd c) s = .next s ∧ exec (.quiescePauseTimeout c) s = .next s)

/-- The pages of the access tables and of the fault unit. States completion of each. (13_access_tables.md Command pages, 18_faults_observability.md
Command pages, R198.) -/
def Obligations.GuardAndFaultPages : Prop :=
  PageDoes .accessSetEntry 0x0D01 accessSetCheck actAccessSet ∧
  PageDoes .accessGetFaults 0x0D03 (fun c _ => need (u32 c.block 0 < 2 ^ 19) (badParam 0)) (fun c s => (s.clearFaults (u32 c.block 0), s.faultBytes)) ∧
  PageDoes .accessCtxViolations 0x0D04 (fun _ _ => .ok ()) (fun c s =>
      (s, match s.ctx? c.ctx with | some x => violationBytes x | none => [])) ∧
  PageDoes .faultGetStatus 0x0F01 (fun _ _ => .ok ()) (fun _ s => (s, s.faultStatus)) ∧
  PageDoes .diagSelftest 0x0F04 selftestCheck (fun c s => s.selftest c) ∧
  PageDoes .debugChallenge 0x0F05 (fun _ _ => .ok ()) (fun _ s =>
      let n := (List.range 6).flatMap fun i => leBytes 8 (Config.freeValue (s.freeCtr + i)).toNat
      ((s.modFaults fun x => { x with nonce := some n }).tookFree 6, n ++ leBytes 8 s.board.serial.toNat)) ∧
  PageDoes .debugLock 0x0F07 (fun _ _ => .ok ()) (fun _ s =>
      (if s.regBit R.FLT_DEBUG 0 then ((s.setReg R.FLT_DEBUG 0).raiseFault 0x0B 0 (args := [0])).assertSource 506 else s, [])) ∧
  FlashPageDoes .faultEraseLog 0x0F03 (fun _ s => need s.sys.session.isNone busy) (fun _ _ => some ⟨[(flLog, 0x100000)], []⟩) (fun _ s => ((s.modFaults fun x => { x with log := [] }).raiseFault 0x0F 0 (args := [w32 s.validLog.length]), []))

/-- ACCESS_READ_TABLE, FAULT_READ_LOG, DEBUG_UNLOCK, guard writes, the merge interval and the log's append.
States completion of accessReadTable, faultReadLog, debugUnlock, grdFaultLatchClear,
grdEntryWrite, faultMergeRelease, logAppendProgram. (13_access_tables.md Command pages, 18_faults_observability.md Command pages, R256, R257, R346, R347, R350.) -/
def Obligations.TablesLogAndDebugWindow : Prop :=
  ∀ (s : State) (p : Nat) (l : Latch),
    let b := l.cmd.block
    (s.turn p 0x0D02 l → u8 b 0 ≤ 18 → u8 b 1 = 0 → u16 b 2 < guardEntries (u8 b 0) → 1 ≤ u16 b 4 →
      u16 b 2 + u16 b 4 ≤ guardEntries (u8 b 0) → u16 b 6 = 0 → u64 b 8 % 8 = 0 →
      let d := s.entryBytes (u8 b 0) (u16 b 4) (u16 b 2)
      (∀ t, s.dmaWrite (s.pathFn l.cmd.path) (u64 b 8) d = some t → exec (.accessReadTable p) s = .next (t.replyOk p l [])) ∧
      (s.dmaWrite (s.pathFn l.cmd.path) (u64 b 8) d = none → exec (.accessReadTable p) s =
        .next ((s.countDmaErr l.cmd.fn).answerErr p dmaError ((s.countDmaErr l.cmd.fn).respGen l.cmd)))) ∧
    (s.turn p 0x0F02 l → 1 ≤ u32 b 4 → u32 b 4 ≤ 16384 → u64 b 8 % 8 = 0 →
      let got := ((s.validLog.filter fun e => u32 b 0 ≤ e.1).take (u32 b 4)).map fun e => e.2
      (s.validLog = [] → exec (.faultReadLog p) s =
        .next (s.tookFree.replyOk p l (leBytes 4 0 ++ leBytes 4 (s.free.toNat % 0x100000000)))) ∧
      (∀ e es, s.validLog = e :: es → got = [] →
        exec (.faultReadLog p) s = .next (s.replyOk p l (leBytes 4 0 ++ leBytes 4 e.1))) ∧
      (∀ e es u, s.validLog = e :: es → got ≠ [] → s.dmaWrite l.cmd.fn (u64 b 8) got.flatten = some u →
        exec (.faultReadLog p) s = .next (u.replyOk p l (leBytes 4 got.length ++ leBytes 4 e.1))) ∧
      (got ≠ [] → s.dmaWrite l.cmd.fn (u64 b 8) got.flatten = none → exec (.faultReadLog p) s =
        .next ((s.countDmaErr l.cmd.fn).answerErr p dmaError ((s.countDmaErr l.cmd.fn).respGen l.cmd)))) ∧
    (s.turn p 0x0F06 l → reserved b 0x61 3 ≠ .ok () →
      exec (.debugUnlock p) s = .next (s.answerErr p (badParam 0x61) (s.respGen l.cmd))) ∧
    (s.turn p 0x0F06 l → slice b 0x61 3 = [0, 0, 0] →
      let t := s.modFaults fun x => { x with nonce := none }
      (∀ n, s.faults.nonce = some n → s.board.keyOk (b.take 97) = true →
        signed (b.take 97) (slice b 0x64 96) (n ++ leBytes 8 s.board.serial.toNat) = true →
        exec (.debugUnlock p) s = .next ((((t.setReg R.FLT_DEBUG 1).raiseFault 0x0B 0 (args := [1])).assertSource 506).replyOk
          p l [])) ∧
      (∀ n, s.faults.nonce = some n → s.board.keyOk (b.take 97) = false ∨
        signed (b.take 97) (slice b 0x64 96) (n ++ leBytes 8 s.board.serial.toNat) = false →
        exec (.debugUnlock p) s = .next (t.answerErr p ⟨cSignature, 0⟩ (t.respGen l.cmd))) ∧
      (s.faults.nonce = none → exec (.debugUnlock p) s = .next (s.answerErr p ⟨cSignature, 0⟩ (s.respGen l.cmd)))) ∧
    (∀ g v, (bit v 0 = true → exec (.grdFaultLatchClear g v) s = .next (s.setReg (R.GRD_FAULT_LATCH g) 0)) ∧
      (bit v 0 = false → exec (.grdFaultLatchClear g v) s = .next s)) ∧
    (∀ g i v, i < guardEntries g →
      let e := s.guardEntry g i
      (bit e.2.2.2 3 = true → ∀ w, exec (.grdEntryWrite g i w v) s = .next (s.bumpSat (R.GRD_LOCK_DROP g))) ∧
      (bit e.2.2.2 3 = false → bit e.2.2.2 0 = false →
        exec (.grdEntryWrite g i 0 v) s = .next (s.setGuardEntry g i (v &&& 0xFFFFFFC0) e.2.1 e.2.2.1 e.2.2.2) ∧
        exec (.grdEntryWrite g i 1 v) s = .next (s.setGuardEntry g i e.1 (v &&& 0x3FFF) e.2.2.1 e.2.2.2) ∧
        exec (.grdEntryWrite g i 2 v) s = .next (s.setGuardEntry g i e.1 e.2.1 (v &&& 0x0FFF0FFF) e.2.2.2) ∧
        (regionOk g (e.1.toNat + fld e.2.1 7 0 * 0x100000000) (fld e.2.1 13 8) = true →
          exec (.grdEntryWrite g i 3 v) s = .next (s.setGuardEntry g i e.1 e.2.1 e.2.2.1
            (v &&& 0xFFFF000F ||| if hostFirst g ≤ i then 0x10 else 0))))) ∧
    (∀ c u x, s.faults.pairs.get? (pairKey c u) = some x →
      (∀ r, x.pend = some r → x.stagedAt + 1000000 ≤ s.now → exec (.faultMergeRelease c u) s =
        .next ((s.modFaults fun y => { y with pairs := y.pairs.set (pairKey c u) ⟨x.formedAt, s.now, none⟩ }).stageFault r)) ∧
      (x.pend = none ∨ s.now < x.stagedAt + 1000000 → exec (.faultMergeRelease c u) s = .next s)) ∧
    (∀ ok e es, s.faults.queue = e :: es →
      let t := s.modFaults fun x => { x with queue := es }
      (s.sys.flashJob = none → s.sys.inPorst = false → exec (.logAppendProgram ok) s =
        .next (if ok then t.modFaults fun x => { x with log := logStore x.log (u32 e 4) e }
          else (t.flashError (appendJob e) false).assertSource 504).tellDrops) ∧
      (s.sys.flashJob ≠ none → exec (.logAppendProgram ok) s = .next s)) ∧
    (∀ ok, s.faults.queue = [] → exec (.logAppendProgram ok) s = .next s)

/-- A guard examines its entries in ascending order, and the first that matches decides. (R247.) -/
def Obligations.FirstMatchDecides : Prop :=
  ∀ (s : State) (a m : Nat) (wr : Bool),
    (masterValid m = false → s.denial a m wr = some causeReserved) ∧
    (masterValid m = true → inMap a = false → s.denial a m wr = some causeOutside) ∧
    (masterValid m = true → inMap a = true →
      (∀ i, i < guardEntries (guardOf a) → entryMatches (s.guardEntry (guardOf a) i) a m = true →
        (∀ j, j < i → entryMatches (s.guardEntry (guardOf a) j) a m = false) →
        let w := (s.guardEntry (guardOf a) i).2.2.2
        (bit w (if wr then 2 else 1) = false → s.denial a m wr = some causePermission) ∧
        (bit w (if wr then 2 else 1) = true → s.mapped a = false → s.denial a m wr = some causeUnmapped) ∧
        (bit w (if wr then 2 else 1) = true → s.mapped a = true → s.denial a m wr = none)) ∧
      ((∀ i, i < guardEntries (guardOf a) → entryMatches (s.guardEntry (guardOf a) i) a m = false) →
        s.denial a m wr = some causeNoMatch))

/-- An internal read or write: it passes its guard and is served, or is denied; the send and pop windows judge a request of
whole words themselves, and an address outside the map is denied whatever is powered. States completion of internalAccess,
registerWrite. (R247, R255, R190, R192, R350, R8, R303, R16.) -/
def Obligations.InternalAccesses : Prop :=
  ∀ (s : State) (m a len ecc : Nat) (b : Bytes),
    (inMap a = true → s.domUp (targetDomain a) = true →
      let u := s.touch (targetDomain a)
      (ownGuard a len false = false → ∀ c, u.denial a m false = some c →
        exec (.internalAccess ⟨m, false, a, len, none, ecc⟩) s =
          .next ((u.deny a m false c).answerRead (List.replicate len 0) true)) ∧
      (ownGuard a len false = true ∨ u.denial a m false = none → ecc = 0 →
        let x := (u.answerRead [] false).serveRead m false a len
        exec (.internalAccess ⟨m, false, a, len, none, ecc⟩) s = .next (x.1.answerRead x.2 x.1.readErr)) ∧
      (ownGuard a b.length true = false →
        (∀ c, u.denial a m true = some c → exec (.internalAccess ⟨m, false, a, len, some b, ecc⟩) s =
          .next ((u.deny a m true c).answerRead [] true)) ∧
        (u.denial a m true = none → exec (.internalAccess ⟨m, false, a, len, some b, ecc⟩) s =
          .next ((u.serveWrite m a b).answerRead [] false))) ∧
      (ownGuard a b.length true = true → exec (.internalAccess ⟨m, false, a, len, some b, ecc⟩) s =
        .next ((u.answerRead [] false).serveWrite m a b)) ∧
      (∀ n v, let d := leBytes n (v : BitVec 64).toNat
        (ownGuard a d.length true = false → u.denial a m true = none → exec (.registerWrite ⟨.internal m, a, n, v⟩) s =
          .next ((u.serveWrite m a d).answerRead [] false)) ∧
        (ownGuard a d.length true = true → exec (.registerWrite ⟨.internal m, a, n, v⟩) s =
          .next ((u.answerRead [] false).serveWrite m a d)))) ∧
    (inMap a = true → s.domUp (targetDomain a) = false → s.domOnDemand (targetDomain a) = false →
      exec (.internalAccess ⟨m, false, a, len, none, ecc⟩) s = .next (s.answerRead (List.replicate len 0) true) ∧
      exec (.internalAccess ⟨m, false, a, len, some b, ecc⟩) s = .next (s.answerRead [] true)) ∧
    (inMap a = false → masterValid m = true →
      exec (.internalAccess ⟨m, false, a, len, none, ecc⟩) s =
        .next ((s.deny a m false causeOutside).answerRead (List.replicate len 0) true) ∧
      exec (.internalAccess ⟨m, false, a, len, some b, ecc⟩) s = .next ((s.deny a m true causeOutside).answerRead [] true)) ∧
    (isMemory a = true → s.serveRead m false a len = (s, readBytes s.mem a len) ∧
      s.serveWrite m a b = { s with mem := writeBytes s.mem a b }) ∧
    (s.hostReach →
      (∀ f n v, exec (.registerWrite ⟨.bar0 f, a, n, v⟩) s = .next (s.bar0 f a n v)) ∧
      (s.regBit R.FLT_DEBUG 0 = false → (∀ n v, exec (.registerWrite ⟨.bar2, a, n, v⟩) s = .next s) ∧
        exec (.internalAccess ⟨m, true, a, len, some b, ecc⟩) s = .next s))

/-- Slate: staging, commits and their stalls, pops, landing writes, acknowledges and QUEUE_GET_STATUS. States completion of
sendWindowStage, descriptorCommit, stalledCommitAdmit, queuePop, landingWrite, sltQnAck, queueGetStatus. (R262, R264, R265,
R266, R270, 14_message_fabric.md Command pages.) -/
def Obligations.SlateSendAndReceive : Prop :=
  ∀ (s : State),
    (∀ m q off v, s.domUp dFAB = true → (s.stage m).stalled = none →
      (s.denial (R.SLT_SEND q + off) m true = none → off ≠ 0 → off ≤ 0x20 →
        let b := if (s.stage m).queue = q then s.stage m else { StageBuf.init with queue := q }
        exec (.sendWindowStage m q off v) s =
          .next (s.modSlate fun x => { x with staging := x.staging.set m { b with words := b.words.set off v } })) ∧
      (∀ c, s.denial (R.SLT_SEND q + off) m true = some c → exec (.sendWindowStage m q off v) s =
        .next { s.deny (R.SLT_SEND q + off) m true c with readErr := true })) ∧
    (∀ m q h, s.domUp dFAB = true → (s.stage m).stalled = none → s.denial (R.SLT_SEND q) m true = none →
      let b := if (s.stage m).queue = q then s.stage m else { StageBuf.init with queue := q }
      let t := { s with readErr := false }
      (bit h 31 = false →
        exec (.descriptorCommit m q h) s = .next (t.modSlate fun x => { x with staging := x.staging.erase m })) ∧
      (∀ c, bit h 31 = true → t.refusal q h b = some c → exec (.descriptorCommit m q h) s = .next (t.refuse m q c)) ∧
      (bit h 31 = true → t.refusal q h b = none → t.mustStall q b = true →
        exec (.descriptorCommit m q h) s = .next (t.stall m q h b)) ∧
      (bit h 31 = true → t.refusal q h b = none → t.mustStall q b = false →
        exec (.descriptorCommit m q h) s =
          .next ((t.admitCommit m q h b).modSlate fun x => { x with staging := x.staging.erase m }))) ∧
    (∀ m h, s.clocksRun → s.domUp dFAB = true → m < 4096 → (s.stage m).stalled = some h →
      let b := s.stage m
      (∀ c, s.refusal b.queue h b = some c → exec (.stalledCommitAdmit m) s = .next (s.refuse m b.queue c)) ∧
      (s.refusal b.queue h b = none → s.mustStall b.queue b = true → exec (.stalledCommitAdmit m) s = .next s) ∧
      (s.refusal b.queue h b = none → s.mustStall b.queue b = false → exec (.stalledCommitAdmit m) s =
        .next (({ s with readErr := false }.admitCommit m b.queue h b).modSlate fun x =>
          { x with staging := x.staging.erase m }))) ∧
    (∀ m q, s.domUp dFAB = true → s.denial (R.SLT_POP q) m false = none →
      (∀ d ds, s.queue q = d :: ds → s.qEn q = true → s.qType q = 0 → exec (.queuePop m q 0) s =
        .next { (s.consume q 1).modSlate (fun x => { x with pop := x.pop.set m (q, d) }) with
          readErr := false, readData := leBytes 4 d.header.toNat }) ∧
      (s.queue q = [] → exec (.queuePop m q 0) s = .next { s with readErr := false, readData := leBytes 4 0 })) ∧
    (∀ m q off d, s.domUp dFAB = true → s.denial (R.SLT_POP q + off) m false = none → off ≠ 0 →
      s.slate.pop.get? m = some (q, d) → s.qType q = 0 →
      exec (.queuePop m q off) s = .next { s with readErr := false, readData := slice d.bytes off 4 }) ∧
    (∀ q d rest, s.clocksRun → s.domUp dFAB = true → takeLanding s.landable s.slate.landing = some ((q, d), rest) →
      let t := (s.modSlate fun x => { x with landing := rest }).showLanding
      let u := t.landWrite q (s.qBase q + d.seq.toNat % s.qDepth q * 32) d.bytes
      exec .landingWrite s = .next (u.landWrite q (s.reg64 (R.SLT_Qn_STAT_ADDR_LO q) % 2 ^ 40 / 8 * 8)
        (leBytes 4 (d.seq.toNat + 1) ++ leBytes 4 (s.occupancy q)))) ∧
    (∀ m q h b, s.qType q = 0 →
      let d := s.descOf m q h b
      let t := ((s.settleReply q b).setQueue q (s.queue q ++ [d])).countCommit q
      t.qType q = 0 → s.admitCommit m q h b = t.engineWrite q (t.qBase q + d.seq.toNat % t.qDepth q * 32) d.bytes) ∧
    (s.clocksRun → takeLanding s.landable s.slate.landing = none → exec .landingWrite s = .next s) ∧
    (∀ q v, s.qEn q = true → s.qType q = 1 → s.domUp dFAB = true →
      let n := (v - s.reg (R.SLT_Qn_DEQ_SEQ q)).toNat
      (n ≤ s.occupancy q - s.inLanding q → exec (.sltQnAck q v) s = .next (s.consume q n)) ∧
      (s.occupancy q - s.inLanding q < n → exec (.sltQnAck q v) s =
        .next ((s.bumpSat R.SLT_BAD_ACK).assertSource 324))) ∧
    (∀ p l, s.turn p 0x1101 l → u16 l.cmd.block 0 ≤ 4095 → s.reach dFAB = .ok () → 1 ≤ u16 l.cmd.block 2 →
      u16 l.cmd.block 2 ≤ 4096 - u16 l.cmd.block 0 → u32 l.cmd.block 4 = 0 → u64 l.cmd.block 8 % 8 = 0 →
      let d := (List.range (u16 l.cmd.block 2)).flatMap fun i => s.queueEntry l.cmd.fn (u16 l.cmd.block 0 + i)
      (∀ t, s.dmaWrite (s.pathFn l.cmd.path) (u64 l.cmd.block 8) d = some t →
        exec (.queueGetStatus p) s = .next (t.replyOk p l [])) ∧
      (s.dmaWrite (s.pathFn l.cmd.path) (u64 l.cmd.block 8) d = none → exec (.queueGetStatus p) s =
        .next ((s.countDmaErr l.cmd.fn).answerErr p dmaError ((s.countDmaErr l.cmd.fn).respGen l.cmd))))

/-- Slate's combining: a contribution at the head, the result's commit, and the release of a buffer. States completion of
contributionProcess, combineResultCommit, sltCnRelease. (R272, R273, R274,
R275.) -/
def Obligations.SlateCombining : Prop :=
  ∀ (s : State) (c : Nat),
    (∀ q d ds, s.clocksRun → s.domUp dFAB = true → s.cEn c = true → (s.comb c).result = none → s.combQueue c = some q →
      s.queue q = d :: ds →
      let n := s.cLen c * 4
      let i := d.arg.toNat % 256
      let r := d.arg.toNat / 65536 % 65536
      let rd := s.engineRead q (d.addr.toNat % 2 ^ 40) n
      let b := rd.2.getD (List.replicate n 0)
      let t := rd.1.consume q 1
      let k := BitVec.ofNat 64 (2 ^ i)
      (t.cFp c = false ∨ t.cOrdered c = false →
        let v := vectorOf (t.cFp c) b (s.cLen c)
        let x := t.comb c
        (r = t.cRound c → exec (.contributionProcess c) s = .next (((t.setComb c { x with acc := addVector (t.cFp c) x.acc v
          }).setReg64 (R.SLT_Cn_ARRIVED_LO c) (t.cArrived c ||| k).toNat).combDone c)) ∧
        (r ≠ t.cRound c → exec (.contributionProcess c) s = .next (t.setComb c
          { x with accNext := addVector (t.cFp c) x.accNext v, arrivedNext := x.arrivedNext ||| k }))) ∧
      (t.cFp c = true → t.cOrdered c = true →
        let u := t.engineWrite q (t.cBuf c + r % 2 * t.cRoundSize c + i * s.cLen c * 4) b
        (r = u.cRound c → exec (.contributionProcess c) s =
          .next (((u.setComb c (t.comb c)).setReg64 (R.SLT_Cn_ARRIVED_LO c) (u.cArrived c ||| k).toNat).combDone c)) ∧
        (r ≠ u.cRound c → exec (.contributionProcess c) s =
          .next (u.setComb c { t.comb c with arrivedNext := (t.comb c).arrivedNext ||| k })))) ∧
    (s.clocksRun → s.cEn c = false ∨ (s.comb c).result ≠ none ∨ s.combQueue c = none →
      exec (.contributionProcess c) s = .next s) ∧
    (∀ r bm, s.clocksRun → s.domUp dFAB = true → (s.comb c).result = some (r, bm) →
      let q := s.cResultQ c
      let a := s.cBuf c + r % 2 * s.cRoundSize c
      let h := w32 (0x80000000 + s.qNet q * 0x10000000 + s.regFld (R.SLT_Cn_KIND c) 15 0)
      let b : StageBuf := ⟨q, [(0x08, w32 a), (0x0C, w32 (a / 0x100000000)), (0x10, w32 (s.cLen c * 4)), (0x14, w32 r),
        (0x18, w32 bm.toNat), (0x1C, w32 (bm.toNat / 0x100000000))], none⟩
      (s.qEn q = true → s.qNet q = 0 → s.qType q ≤ 1 → s.mustStall q b = false →
        let t := (s.admitCommit 0x030 q h b).modSlate fun x => { x with staging := x.staging.erase (combStage c) }
        exec (.combineResultCommit c) s = .next ((t.setComb c { t.comb c with result := none }).combDone c)) ∧
      (s.qEn q = false ∨ s.qNet q ≠ 0 ∨ 1 < s.qType q ∨ s.mustStall q b = true →
        ((s.stage (combStage c)).stalled = none → exec (.combineResultCommit c) s = .next (s.stall (combStage c) q h b)) ∧
        ((s.stage (combStage c)).stalled ≠ none → exec (.combineResultCommit c) s = .next s))) ∧
    (∀ v, s.domUp dFAB = true →
      let r := v.toNat % 65536
      (r ∈ (s.comb c).held → exec (.sltCnRelease c v) s = .next
        ((s.setComb c { s.comb c with held := (s.comb c).held.erase r }).showComb c (s.cRound c))) ∧
      (r ∉ (s.comb c).held → exec (.sltCnRelease c v) s = .next s))

/-- INT32 combining does not depend on the order of arrival. (R274.) -/
def Obligations.IntegerSumsInAnyOrder : Prop :=
  ∀ (n : Nat) (acc : List Int) (l k : List (List Int)), l.Perm k → (∀ v ∈ l, v.length = n) → (acc = [] ∨ acc.length = n) →
    l.foldl (addVector false) acc = k.foldl (addVector false) acc

/-- Carmine's lines, the asynchronous latch, SETPEND, HOLD, the glitch filter and the holdoff. States completion of
sourceLineChange, asyncLatchEdge, carmSetpend, carmTnHold, moderationHoldoffExpiry. (R282, R283, R284, R285, R287, R294, R295.) -/
def Obligations.SourceSensing : Prop :=
  ∀ (s : State) (n : Nat),
    (∀ l, n < 512 → exec (.sourceLineChange n l) s = .next (s.noticeLine n)) ∧
    (∀ l, 512 ≤ n → (s.src n).raw = l → exec (.sourceLineChange n l) s = .next s) ∧
    (∀ l, 512 ≤ n → (s.src n).raw ≠ l →
      let t := (s.setSrc n { s.src n with raw := l }).trackActive n (activeLevel (s.sense n) (s.src n).raw)
        (activeLevel (s.sense n) l)
      (s.ivory.state = 0 ∨ s.ivory.state = 2 → exec (.sourceLineChange n l) s = .next t) ∧
      (s.ivory.state ≠ 0 → s.ivory.state ≠ 2 → exec (.sourceLineChange n l) s = .next (t.latchEdge n l))) ∧
    (∀ e, (s.ivory.state = 0 ∨ s.ivory.state = 2 → exec (.asyncLatchEdge n e) s = .next s) ∧
      (s.ivory.state ≠ 0 → s.ivory.state ≠ 2 → edgeMatches (s.sense n) (decide (e = .rise)) = true →
        exec (.asyncLatchEdge n e) s = .next (s.setSrc n { s.src n with latched := true })) ∧
      (edgeMatches (s.sense n) (decide (e = .rise)) = false → exec (.asyncLatchEdge n e) s = .next s)) ∧
    (∀ v : Word, v.toNat % 1024 = n →
      (n < 544 →
        let t := if s.sense n < 2 then s.setSrc n { s.src n with soft := true } else s.countEdge n
        exec (.carmSetpend v) s = .next (t.setSrc n { t.src n with becameAt := s.now })) ∧
      (544 ≤ n → exec (.carmSetpend v) s = .next s)) ∧
    (∀ x, s.src n = x →
      (x.raw = x.filtered → x.run = 0 → s.filterSample n = s) ∧
      (x.raw = x.filtered → x.run ≠ 0 → s.filterSample n = s.setSrc n { x with run := 0 }) ∧
      (x.raw ≠ x.filtered → x.run < s.filt n → s.filterSample n = s.setSrc n { x with run := x.run + 1 }) ∧
      (x.raw ≠ x.filtered → s.filt n ≤ x.run → s.filterSample n = s.detect n x.raw)) ∧
    ((s.src n).active = true ∨ (s.src n).relayed = true → s.srcPending n = true) ∧
    (∀ v, s.domUp dCTL = true → exec (.carmTnHold n v) s = .next (s.setReg (R.CARM_Tn_HOLD n) (v &&& 1))) ∧
    ((s.src n).becameAt + s.holdoffUs n * 1000 ≤ s.now → s.target n = 5 → s.eligible n = true → s.domUp dCTL = true →
      exec (.moderationHoldoffExpiry n) s = .next s.hostRelay) ∧
    (s.now < (s.src n).becameAt + s.holdoffUs n * 1000 → exec (.moderationHoldoffExpiry n) s = .next s)

/-- Acknowledge, commit, completion, the stack reset and the relay. States completion of
interruptAcknowledge, interruptCommit, carmTnEoi, carmTnStackRst, hostRelay. (R288, R289, R290, R291, R292, R293, R298.) -/
def Obligations.DeliveryAndCompletion : Prop :=
  ∀ (s : State) (t : Nat), s.domUp dCTL = true → s.clocksRun →
    (∀ c, (s.tgt t).prov = none → (s.tgt t).exitAt = some s.now → s.candidate t = some c →
      (beats c.1 (s.tgt t).stack = true → exec (.interruptAcknowledge t) s =
        .next ((s.commitSource t c.1 c.2).bumpSat (R.CARM_Tn_HANDOFF t))) ∧
      (beats c.1 (s.tgt t).stack = false → exec (.interruptAcknowledge t) s = .next s)) ∧
    (∀ c, (s.tgt t).prov = none → (s.tgt t).exitAt ≠ some s.now → s.candidate t = some c →
      (beats c.1 (s.tgt t).stack = true → exec (.interruptAcknowledge t) s =
        .next (s.setTgt t { s.tgt t with prov := some c }).tookFree) ∧
      (beats c.1 (s.tgt t).stack = false → exec (.interruptAcknowledge t) s = .next s)) ∧
    ((s.tgt t).prov = none → s.candidate t = none → exec (.interruptAcknowledge t) s = .next s) ∧
    (∀ p c, (s.tgt t).prov = some p → s.candidate t = some c → c.1 < p.1 →
      let r := (s.setTgt t { s.tgt t with prov := some c }).bumpSat (R.CARM_Tn_REPLACED t)
      exec (.interruptAcknowledge t) s = .next r ∧ exec (.interruptCommit t) s = .next (r.commitSource t c.1 c.2)) ∧
    (∀ p, (s.tgt t).prov = some p → (∀ c, s.candidate t = some c → p.1 ≤ c.1) →
      exec (.interruptAcknowledge t) s = .next s ∧ exec (.interruptCommit t) s = .next (s.commitSource t p.1 p.2)) ∧
    ((s.tgt t).prov = none → exec (.interruptCommit t) s = .next s) ∧
    (∀ v e es, t < 5 → (s.tgt t).stack = e :: es →
      (v.toNat % 32 = e.1 → exec (.carmTnEoi t v) s =
        .next (((s.setTgt t { s.tgt t with stack := es, exitAt := some s.now }).released e.2).handoff t)) ∧
      (v.toNat % 32 ≠ e.1 → exec (.carmTnEoi t v) s = .next (s.refuseEoi t (v.toNat % 32)))) ∧
    (∀ v, t < 5 → (s.tgt t).stack = [] → exec (.carmTnEoi t v) s = .next (s.refuseEoi t (v.toNat % 32))) ∧
    (∀ v, t < 5 → bit v 0 = true → exec (.carmTnStackRst t v) s = .next ((s.tgt t).stack.foldl (fun u e => u.released e.2)
      (s.setTgt t { s.tgt t with stack := [], orderPend := false }))) ∧
    (∀ v, bit v 0 = false → exec (.carmTnStackRst t v) s = .next s) ∧
    (∀ c, s.candidate 5 = some c →
      (s.carmine.lastRelay + 100 ≤ s.now → exec .hostRelay s =
        .next ((((s.msix (s.relayFn c.2) (s.relayVector c.2)).setSrc c.2 { s.src c.2 with
          relayed := true, count := 0, soft := false, lastAt := s.now }).bumpSat (R.CARM_Sn_TAKEN c.2)).modCarmine fun k =>
            { k with lastRelay := s.now })) ∧
      (s.now < s.carmine.lastRelay + 100 → exec .hostRelay s = .next s)) ∧
    (s.candidate 5 = none → exec .hostRelay s = .next s)

/-- Every push is strictly more urgent than the entry beneath it, so no stack exceeds 32 entries. (R288, R289, R291, R292,
R293.) -/
def Obligations.PriorityStacksStayOrdered : Prop :=
  (∀ (s : State) (t : Nat), s.stacksOrdered → t < 5 → (s.tgt t).stack.length ≤ 32) ∧
  (∀ (s u : State) (t : Nat) (v : Word) (c : Instr), t < 5 → s.stacksOrdered →
    c = .interruptAcknowledge t ∨ c = .interruptCommit t ∨ c = .carmTnEoi t v ∨ c = .carmTnStackRst t v ∨ c = .carmSetpend v ∨
      c = .carmTnHold t v →
    exec c s = .next u → u.stacksOrdered)

/-- The remaining pages of power, scheduling, battery, interrupts and the fabric. States completion of each. (16_power_scheduling.md Command pages,
17_battery_gauge.md Command pages, 15_interrupts.md Command pages, 14_message_fabric.md Command pages, R303, R312,
R331.) -/
def Obligations.PowerBatteryInterruptAndFabricPages : Prop :=
  PageDoes .powerGetStatus 0x0B01 (fun _ _ => .ok ()) (fun _ s => (s, s.powerStatus)) ∧
  PageDoes .powerSetLatency 0x0B04 (fun _ _ => .ok ()) (fun c s =>
      (match s.ctx? c.ctx with
      | some x => s.setCtx c.ctx { x with maxWake := u32 c.block 0 }
      | none => s, [])) ∧
  PageDoes .schedSetBudget 0x0B05 schedBudgetCheck (fun c s =>
      (s.modIvory fun i => { i with budgetNext := some c.block }, [])) ∧
  PageDoes .schedSetThermal 0x0B06 schedThermalCheck (fun c s =>
      (s.modIvory fun i => { i with thermNext := some (w32 (u32 c.block 0 % 0x1000000)) }, [])) ∧
  PageDoes .schedSetBinding 0x0B07 (fun c s => allOf [bindAccess (u16 c.block 0) 0 c.ctx s, reserved c.block 2 2, inRange (u32 c.block 4) 0 10000000 4]) (fun c s => (s.onBind (u16 c.block 0) fun x => { x with deadlineNext := some (u32 c.block 4) }, [])) ∧
  PageDoes .batSetString 0x0C01 batStringCheck (fun c s =>
      (s.setStr (u8 c.block 0) { s.str (u8 c.block 0) with next := some c.block }, [])) ∧
  PageDoes .batSetLevels 0x0C03 batLevelsCheck (fun c s =>
      (s.setStr (u8 c.block 0) { s.str (u8 c.block 0) with levelsNext := some c.block }, [])) ∧
  PageDoes .batSetReport 0x0C04 (fun c _ =>
      allOf [inRange (u16 c.block 0) 0 3600 0, reserved c.block 2 2, inRange (u32 c.block 4) 1 1000000 4]) (fun c s => (s.modSable fun x => { x with reportNext := some c.block }, [])) ∧
  PageDoes .batSetSoc 0x0C05 batSocCheck (fun c s =>
      (s.setStr (u8 c.block 0) { s.str (u8 c.block 0) with socNext := some c.block }, [])) ∧
  PageDoes .batGetStatus 0x0C06 (fun _ _ => .ok ()) (fun _ s => (s, s.batteryBody 0)) ∧
  PageDoes .intrSetSource 0x0E01 intrSetCheck actIntrSet ∧
  PageDoes .intrGetSource 0x0E02 (fun c _ => allOf [inRange (u16 c.block 0) 0 543 0, reserved c.block 2 2]) (fun c s =>
      let n := u16 c.block 0
      (s, leBytes 4 (s.regN (R.CARM_Sn_CFG n)) ++ leBytes 4 (s.regN (R.CARM_Sn_MOD n)) ++ leBytes 4 (s.srcState n) ++
      leBytes 4 (s.regN (R.CARM_Sn_TAKEN n)) ++ leBytes 4 (s.assertUs n) ++ leBytes 4 0 ++ leBytes 8 (s.src n).lastAt)) ∧
  PageDoes .intrSetpend 0x0E03 (fun c s =>
      allOf [inRange (u16 c.block 0) 0 543 0, need (!s.srcLocked (u16 c.block 0)) noPermission, reserved c.block 2 2]) (fun c s => (s.setPend (u16 c.block 0), [])) ∧
  PageDoes .intrHostPending 0x0E04 (fun c _ => allOf [inRange (u16 c.block 0) 1 246 0, reserved c.block 2 2]) (fun c s =>
      let l := (below 544 fun n => s.target n = 5 && s.relayFn n = c.fn && (s.src n).relayed).take (u16 c.block 0)
      (s, pad4 (leBytes 2 l.length ++ leBytes 2 0 ++ l.flatMap fun n => leBytes 2 n))) ∧
  PageDoes .intrHostAck 0x0E05 intrAckCheck (fun c s => ((ackList c.block).foldl (fun t n => t.ackRelay n) s, [])) ∧
  PageDoes .intrGetStats 0x0E06 (fun c _ =>
      allOf [inRange (u8 c.block 0) 0 5 0, inRange (u8 c.block 1) 0 1 1, reserved c.block 2 2]) (fun c s =>
      let t := u8 c.block 0
      let r := leBytes 4 (s.stackReg t) ++ leBytes 4 (if t = 5 then 0 else s.regN (R.CARM_Tn_ORDER_INFO t)) ++
      leBytes 4 (s.regN (R.CARM_Tn_DELIVERED t)) ++ leBytes 4 (s.regN (R.CARM_Tn_REPLACED t)) ++
      leBytes 4 (s.regN (R.CARM_Tn_HANDOFF t)) ++ leBytes 4 (s.regN (R.CARM_Tn_ORDER_FAULTS t)) ++
      leBytes 4 (if t = 5 then s.relayWait else 0) ++ leBytes 4 (b2n (s.hold t))
      (if u8 c.block 1 = 1 then s.resetRegs (R.CARM_Tn_DELIVERED t) (R.CARM_Tn_ORDER_FAULTS t + 4) else s, r)) ∧
  PageDoes .queuePeek 0x1102 (fun c s =>
      allOf [inRange (u16 c.block 0) 0 4095 0, need (s.seesQueue c.fn (u16 c.block 0)) noPermission, s.reach dFAB,
      inRange (u16 c.block 2) 0 4095 2]) (fun c s =>
      let q := u16 c.block 0
      (s, leBytes 4 (s.regN (R.SLT_Qn_CFG q)) ++ leBytes 4 (s.regN (R.SLT_Qn_OCC q)) ++
      leBytes 4 (s.regN (R.SLT_Qn_ENQ_SEQ q)) ++ leBytes 4 (s.regN (R.SLT_Qn_DEQ_SEQ q)) ++
      (nth (s.queue q) (u16 c.block 2) Desc.zero).bytes)) ∧
  PageDoes .fabricGetStats 0x1103 (fun c s => allOf [s.reach dFAB, inRange (u8 c.block 0) 0 1 0, reserved c.block 1 3]) (fun c s =>
      (if u8 c.block 0 = 1 then s.clearFabric else s,
      leBytes 8 (s.reg64 R.SLT_COMMIT_REQ_LO) ++ leBytes 8 (s.reg64 R.SLT_COMMIT_RPY_LO) ++
      leBytes 4 (s.regN R.SLT_STALL_CYC) ++ leBytes 4 (s.regN R.SLT_REFUSED) ++ leBytes 4 (s.regN R.SLT_REFUSE_INFO) ++
      leBytes 4 (s.regN R.SLT_REFUSE_QUEUE) ++ leBytes 8 s.slate.roundsDone ++ leBytes 4 (s.regN R.SLT_LAND_BUF) ++
      leBytes 4 (s.regN R.SLT_BAD_ACK) ++ leBytes 4 (s.sumComb R.SLT_Cn_SAT) ++ leBytes 4 (s.sumComb R.SLT_Cn_NAN) ++
      leBytes 2 (s.regN R.SLT_QUEUES_EN) ++ leBytes 2 (s.regN R.SLT_COMB_EN) ++ leBytes 4 0)) ∧
  PageDoes .combineReset 0x1104 (fun c s =>
      allOf [need (s.cEn (u8 c.block 0)) (badParam 0), s.reach dFAB, reserved c.block 1 1]) (fun c s => (s.combineReset (u8 c.block 0) (u16 c.block 2), [])) ∧
  (∀ (s : State) (p : Nat) (l : Latch), u8 l.cmd.block 0 ≤ 3 → reserved l.cmd.block 1 7 = .ok () →
    u64 l.cmd.block 8 % 8 = 0 →
    (s.turn p 0x0C02 l → exec (.batLoadTables p) s = .next ((s.dmaAsk l.cmd.path (u64 l.cmd.block 8) 480).toStage p .yielded)) ∧
    (∀ r, s.latch p = some l → l.stage = .resumed r → l.cmd.opcode = 0x0C02 →
      (s.dmaRead l.cmd.path (u64 l.cmd.block 8) 480 r = none → exec (.batLoadTables p) s =
        .next ((s.countDmaErr l.cmd.fn).answerErr p ⟨cHwFault, 1⟩ ((s.countDmaErr l.cmd.fn).respGen l.cmd))) ∧
      (∀ t, s.dmaRead l.cmd.path (u64 l.cmd.block 8) 480 r = some t →
        (tablesOk t = false → exec (.batLoadTables p) s = .next (s.answerErr p (badParam 8) (s.respGen l.cmd))) ∧
        (tablesOk t = true → exec (.batLoadTables p) s =
          .next ((s.setStr (u8 l.cmd.block 0) { s.str (u8 l.cmd.block 0) with tablesNext := some t }).replyOk p l []))))) ∧
  (∀ (s : State) (p : Nat) (l : Latch), s.turn p 0x0B02 l →
    (∀ e, setDomainCheck l.cmd s = .error e → exec (.powerSetDomain p) s = .next (s.answerErr p e (s.respGen l.cmd))) ∧
    (setDomainCheck l.cmd s = .ok () →
      let d := u8 l.cmd.block 0
      let t := s.setReg (R.IVR_DOMd_CFG d) (w32 (u8 l.cmd.block 1 + u8 l.cmd.block 2 * 2 + u32 l.cmd.block 4 * 0x100))
      (u8 l.cmd.block 2 = 0 → exec (.powerSetDomain p) s = .next ((t.bringUp d).replyOk p l [])) ∧
      (u8 l.cmd.block 2 ≠ 0 → ((t.takeDown d 6).ivory.draining.get? d).isSome = false →
        exec (.powerSetDomain p) s = .next ((t.takeDown d 6).replyOk p l [])) ∧
      (u8 l.cmd.block 2 ≠ 0 → ((t.takeDown d 6).ivory.draining.get? d).isSome = true →
        exec (.powerSetDomain p) s = .next ((t.takeDown d 6).toStage p .yielded)))) ∧
  (∀ (s : State) (p : Nat) (l : Latch), s.turn p 0x0B03 l → u8 l.cmd.block 0 ≤ 3 → u8 l.cmd.block 1 ≤ 1 → u8 l.cmd.block 2 ≤ 1 →
    u8 l.cmd.block 3 = 0 → u32 l.cmd.block 8 ≤ 86400000 → 10 ≤ u32 l.cmd.block 12 → u32 l.cmd.block 12 ≤ 10000 →
    let k := (s.armPower l.cmd.block).chooseState (fun _ => true) (u8 l.cmd.block 0)
    (k ≠ 3 ∨ u8 l.cmd.block 1 = 1 ∨ s.host.dram = [] → exec (.powerRequestState p) s = .next (s.replyOk p l (leBytes 1 k ++ leBytes 3 0))) ∧
    (k = 3 → u8 l.cmd.block 1 = 0 → s.host.dram ≠ [] → exec (.powerRequestState p) s = .next (s.answerErr p busy (s.respGen l.cmd))))

/-- State entry and AUTO-DOZE, wakes, and domains going down and up. States completion of stateEntry, autoDoze,
wakeEvent, wakeTimer, onDemandAccess, domainPowerDown, domainDrainDone, domainPowerUp, domainIdleTimeout. (R303, R304, R307, R308, R309, R310, R311, R312,
R313, R314, R276, R215.) -/
def Obligations.PowerTransitions : Prop :=
  ∀ (s : State),
    (∀ c, s.ivory.armedCeiling = some c → s.ivory.trans = none → s.ivory.state = 0 → s.noLatch = true → s.ivory.draining = [] →
      let k := s.chooseState s.dramFree c
      (k = 0 → exec .stateEntry s = .next s) ∧
      (k ≠ 0 → k = 1 ∨ (s.hostethMay = true ∧ s.fabIdle = true) → exec .stateEntry s = .next (s.enterState k 0 false)) ∧
      (1 < k → s.hostethMay = false ∨ s.fabIdle = false → exec .stateEntry s = .next s)) ∧
    (s.ivory.armedCeiling = none ∨ s.ivory.trans ≠ none ∨ s.noLatch = false → exec .stateEntry s = .next s) ∧
    (s.ivory.state = 0 → s.ivory.trans = none → s.regBit R.IVR_REQ 2 = true → s.noLatch = true → s.stateFits 1 = true →
      (∀ t, t < 5 → (s.tgt t).stack = [] ∧ (s.tgt t).prov = none) → exec .autoDoze s = .next
        (((s.entryRecord 1 0 1 none s.domMask s.tickStamp).modIvory fun i => { i with state := 1 }).assertSource 384)) ∧
    (s.ivory.state ≠ 0 ∨ s.regBit R.IVR_REQ 2 = false ∨ s.noLatch = false → exec .autoDoze s = .next s) ∧
    (∀ n, s.mayWake n = true →
      (∀ x, s.ivory.trans = some x → x.pnr = false → exec (.wakeEvent n) s = .next (s.abortEntry x n)) ∧
      (∀ x, s.ivory.trans = some x → x.pnr = true → exec (.wakeEvent n) s =
        .next (s.modIvory fun i => { i with trans := some { x with wake := some (x.wake.getD n) } })) ∧
      (s.ivory.trans = none → s.ivory.state = 0 → exec (.wakeEvent n) s = .next s) ∧
      (s.ivory.trans = none → s.ivory.state ≠ 0 → exec (.wakeEvent n) s = .next (s.wake n 3))) ∧
    (∀ n, s.mayWake n = false → exec (.wakeEvent n) s = .next s) ∧
    (∀ t, s.wakeTimer = some t → t ≤ s.now → exec .wakeTimer s = .next ((s.setReg64 R.IVR_WAKE_TIMER_LO 0).wakeEvent 0x400 3)) ∧
    ((∀ t, s.wakeTimer = some t → s.now < t) → exec .wakeTimer s = .next s) ∧
    (∀ d, d < 16 → s.ivory.state = 0 → s.ivory.trans = none → s.ivory.forced = false → s.domOnDemand d = true →
      (s.ivory.draining.get? d = none → exec (.onDemandAccess d) s = .next (s.touch d)) ∧
      (∀ e, s.ivory.draining.get? d = some e → s.ivory.wakeAfter.contains d = false → exec (.onDemandAccess d) s =
        .next (s.modIvory fun i => { i with wakeAfter := i.wakeAfter ++ [d] }))) ∧
    (∀ d, s.domOnDemand d = false ∨ s.ivory.forced = true ∨ s.ivory.state = 3 → exec (.onDemandAccess d) s = .next s) ∧
    (∀ d x, s.ivory.trans = some x → x.todo.head? = some d → s.ivory.draining.get? d = none → d ≠ dFAB ∨ s.fabIdle = true →
      (s.quadBusy d = false → exec (.domainPowerDown d) s = .next ((s.powerOff d).advanceEntry x)) ∧
      (s.quadBusy d = true → exec (.domainPowerDown d) s =
        .next (s.modIvory fun i => { i with draining := i.draining.set d (s.tickStamp, x.cause) }))) ∧
    (∀ d x, s.ivory.trans = some x → x.todo.head? ≠ some d → exec (.domainPowerDown d) s = .next s) ∧
    (∀ d, s.ivory.trans = none → s.ivory.state = 0 → s.runDown d = true → s.ivory.draining.get? d = none →
      exec (.domainPowerDown d) s = .next (s.takeDown d 6)) ∧
    (∀ d e, s.ivory.draining.get? d = some e →
      (s.quadBusy d = true → exec (.domainDrainDone d) s = .next s) ∧
      (s.quadBusy d = false → s.ivory.trans = none → exec (.domainDrainDone d) s =
        .next (((((s.modIvory fun i => { i with draining := i.draining.erase d }).powerOff d).downRecord s.domMask e.1
          e.2).resumeDomain d).wakeWaiting d))) ∧
    (∀ d, s.ivory.draining.get? d = none → exec (.domainDrainDone d) s = .next s) ∧
    (∀ d, d < 16 → s.ivory.state = 0 → s.ivory.trans = none → s.domUp d = false →
      (s.fastStart d = true → exec (.domainPowerUp d) s = .next ((s.powerOn d).emitPower
        { kind := 4, fromState := 0, toState := 0, outcome := 0, fromPoint := s.arrayPoint, toPoint := s.arrayPoint, cause := 6, wake := 0xFFFF, before := s.domMask, start := s.tickStamp })) ∧
      (s.fastStart d = false → exec (.domainPowerUp d) s = .next s)) ∧
    (∀ d, d < 16 → s.ivory.state = 0 → s.ivory.trans = none → s.domOnDemand d = true → s.domUp d = true →
      s.ivory.draining.get? d = none → (domChildren d).filter s.domUp = [] →
      let us := s.regFld (R.IVR_DOMd_CFG d) 31 8
      (us ≠ 0 → s.ivory.lastUse.getD d 0 + us * 1000 ≤ s.now → s.quadBusy d = false → exec (.domainIdleTimeout d) s =
        .next ((s.powerOff d).downRecord s.domMask s.tickStamp 1)) ∧
      (us = 0 ∨ s.now < s.ivory.lastUse.getD d 0 + us * 1000 ∨ s.quadBusy d = true → exec (.domainIdleTimeout d) s = .next s))

/-- TJ samples, the array's point, the window boundary, and battery samples and reports. States completion of
tjSample, voutReadback, regulatorTimeout, budgetWindowBoundary, batterySample, batteryReportPeriod. (R315, R316, R317, R318, R319,
R320, R321, R322, R330, R337, R338, R340.) -/
def Obligations.ThermalPointsBudgetsAndBattery : Prop :=
  ∀ (s : State),
    (∀ tj, let t := ((s.takeTherm.showTj tj (decide (s.therm 0 ≤ s.tj))).judgeShed).judgeP0
      exec (.tjSample tj) s = .next (t.judgeTrip.tripFault t)) ∧
    (∀ mv p at' target, s.ivory.raising = some (p, target, at') →
      (exec (.voutReadback mv true) s = .next ((s.setRegFld R.IVR_PT_STATUS 1 1 1).assertSource 396)) ∧
      (target ≤ mv + 10 → mv ≤ target + 10 → exec (.voutReadback mv false) s = .next
        ((((s.setVout mv).setRegFld R.IVR_PT_STATUS 0 0 0).modIvory fun i => { i with raising := none }).switchPoint p 4
          ((s.setVout mv).tickStamp.shift (-(((s.setVout mv).now - at' : Nat) : Int))))) ∧
      (mv + 10 < target ∨ target + 10 < mv → exec (.voutReadback mv false) s = .next (s.setVout mv)) ∧
      (at' + 1000000 ≤ s.now → s.regBit R.IVR_PT_STATUS 0 = false → exec .regulatorTimeout s =
        .next ((s.setRegFld R.IVR_PT_STATUS 0 0 1).assertSource 396)) ∧
      (s.now < at' + 1000000 ∨ s.regBit R.IVR_PT_STATUS 0 = true → exec .regulatorTimeout s = .next s)) ∧
    (∀ mv e, s.ivory.raising = none → exec (.voutReadback mv e) s = .next s ∧ exec .regulatorTimeout s = .next s) ∧
    (s.clocksRun → s.now / 10000000 * 10000000 ≤ s.ivory.windowAt → exec .budgetWindowBoundary s = .next s) ∧
    (s.clocksRun → s.ivory.windowAt < s.now / 10000000 * 10000000 →
      let at' := s.now / 10000000 * 10000000
      let t := ((((s.endWindow.progress.boundarySettings.modIvory fun i => { i with windowAt := at', prevCharged := i.charged, prevRuns := i.runs, charged := [0, 0, 0, 0], runs := [] }).bump
        R.IVR_WINDOW_SEQ).setReg R.IVR_CHARGED_UJ 0).shedOverdue at')
      exec .budgetWindowBoundary s = .next (((t.changePoint t.choosePoint 4).setBudget).admitWaiting
        ((t.changePoint t.choosePoint 4).setBudget).waitingRuns)) ∧
    (∀ codes,
      let w := s.applyWaiting
      let r := w.sampleDue codes
      let v := r.1.setReg R.SBL_E_RES_J (w32 r.1.resJoules)
      (w.supplyDue codes = false → r.2 = 0 → exec (.batterySample codes) s = .next v) ∧
      (w.supplyDue codes = false → r.2 ≠ 0 → exec (.batterySample codes) s = .next (v.reportBattery r.2)) ∧
      (w.supplyDue codes = true → exec (.batterySample codes) s =
        .next (v.countSupply.1.reportBattery (r.2 ||| (if v.countSupply.2 then rnSource else 0))))) ∧
    (∀ n, n ≠ 0 →
      (s.ivory.state = 3 → s.reportBattery n = s.modSable fun b => { b with latched := b.latched ||| n }) ∧
      (s.ivory.state ≠ 3 → s.reportBattery n = s.emit .sable none 0x0050 s.sampleStamp s.sampleStamp.steady s.sampleStamp.flag
        0x8000 0 (s.batteryBody n))) ∧
    (let p := s.regN R.SBL_PERIOD_S * 1000000000;
      (p = 0 ∨ s.now < s.sable.lastReport + p → exec .batteryReportPeriod s = .next s) ∧
      (p ≠ 0 → s.sable.lastReport + p ≤ s.now → exec .batteryReportPeriod s =
        .next ((s.modSable fun b => { b with lastReport := s.now / p * p }).reportBattery 1)))

end
end

