-- ==== Sys2Proof/Laws/Maps.lean ====
section
/-! SUPPORT. Laws of finite maps: a read after a write, and the canonical form that every operation keeps. -/

namespace Sys2Proof.Machine

variable {α : Type}

/-- The sorted form as Mathlib's pairwise order of keys. -/
theorem AMap.sorted_iff (m : AMap α) : m.sorted = true ↔ m.Pairwise (fun a b => a.1 < b.1) := by
  induction m with
  | nil => simp [AMap.sorted]
  | cons e m ih =>
    cases m with
    | nil => simp [AMap.sorted]
    | cons f m =>
      obtain ⟨k, v⟩ := e
      obtain ⟨l, w⟩ := f
      rw [AMap.sorted, Bool.and_eq_true, decide_eq_true_iff, ih, List.pairwise_cons (l := (l, w) :: m)]
      constructor
      · rintro ⟨h, p⟩
        refine ⟨fun x hx => ?_, p⟩
        rcases List.mem_cons.mp hx with rfl | hx
        · exact h
        · exact lt_trans h ((List.pairwise_cons.mp p).1 x hx)
      · rintro ⟨h, p⟩
        exact ⟨h (l, w) (by simp), p⟩

theorem AMap.get?_set_same (m : AMap α) (i : Nat) (v : α) : (m.set i v).get? i = some v := by
  induction m with
  | nil => simp [AMap.set, AMap.get?]
  | cons e m ih =>
    obtain ⟨k, w⟩ := e
    simp only [AMap.set]
    split
    · simp [AMap.get?]
    · split
      · next h => simp [AMap.get?, h]
      · next h1 h2 => simp only [AMap.get?]; rw [if_neg (fun h => h2 h.symm)]; exact ih

theorem AMap.get?_set_other (m : AMap α) (i j : Nat) (v : α) (h : j ≠ i) : (m.set i v).get? j = m.get? j := by
  induction m with
  | nil => simp [AMap.set, AMap.get?, h.symm]
  | cons e m ih =>
    obtain ⟨k, w⟩ := e
    simp only [AMap.set]
    split
    · simp [AMap.get?, h.symm]
    · split
      · next _ hk => subst hk; simp [AMap.get?, h.symm]
      · simp only [AMap.get?]; split
        · rfl
        · exact ih

theorem AMap.mem_set (m : AMap α) (i : Nat) (v : α) (x : Nat × α) (hx : x ∈ m.set i v) : x = (i, v) ∨ x ∈ m := by
  induction m with
  | nil => simpa [AMap.set] using hx
  | cons e m ih =>
    obtain ⟨k, w⟩ := e
    simp only [AMap.set] at hx
    split at hx
    · simpa using hx
    · split at hx
      · next _ hk =>
        subst hk
        rcases List.mem_cons.mp hx with h | h
        · exact .inl h
        · exact .inr (List.mem_cons_of_mem _ h)
      · rcases List.mem_cons.mp hx with h | h
        · exact .inr (by simp [h])
        · rcases ih h with h | h
          · exact .inl h
          · exact .inr (List.mem_cons_of_mem _ h)

theorem AMap.mem_erase (m : AMap α) (i : Nat) (x : Nat × α) (hx : x ∈ m.erase i) : x ∈ m := by
  induction m with
  | nil => simp [AMap.erase] at hx
  | cons e m ih =>
    obtain ⟨k, w⟩ := e
    simp only [AMap.erase] at hx
    split at hx
    · exact List.mem_cons_of_mem _ hx
    · rcases List.mem_cons.mp hx with h | h
      · simp [h]
      · exact List.mem_cons_of_mem _ (ih h)

theorem AMap.sorted_set (m : AMap α) (i : Nat) (v : α) (h : m.sorted = true) : (m.set i v).sorted = true := by
  rw [AMap.sorted_iff] at h ⊢
  induction m with
  | nil => simp [AMap.set]
  | cons e m ih =>
    obtain ⟨k, w⟩ := e
    obtain ⟨h1, h2⟩ := List.pairwise_cons.mp h
    simp only [AMap.set]
    split
    · next hi =>
      refine List.pairwise_cons.mpr ⟨fun x hx => ?_, h⟩
      rcases List.mem_cons.mp hx with rfl | hx
      · exact hi
      · exact lt_trans hi (h1 x hx)
    · split
      · exact List.pairwise_cons.mpr ⟨h1, h2⟩
      · next hi hk =>
        refine List.pairwise_cons.mpr ⟨fun x hx => ?_, ih h2⟩
        rcases AMap.mem_set m i v x hx with rfl | hx
        · show k < i; omega
        · exact h1 x hx

theorem AMap.sorted_erase (m : AMap α) (i : Nat) (h : m.sorted = true) : (m.erase i).sorted = true := by
  rw [AMap.sorted_iff] at h ⊢
  induction m with
  | nil => simp [AMap.erase]
  | cons e m ih =>
    obtain ⟨k, w⟩ := e
    obtain ⟨h1, h2⟩ := List.pairwise_cons.mp h
    simp only [AMap.erase]
    split
    · exact h2
    · exact List.pairwise_cons.mpr ⟨fun x hx => h1 x (AMap.mem_erase m i x hx), ih h2⟩

theorem AMap.get?_none_of_lt (m : AMap α) (i : Nat) (h : ∀ x ∈ m, i < x.1) : m.get? i = none := by
  induction m with
  | nil => rfl
  | cons e m ih =>
    obtain ⟨k, w⟩ := e
    have hk : i < k := h (k, w) (by simp)
    simp only [AMap.get?]
    rw [if_neg (by omega)]
    exact ih fun x hx => h x (by simp [hx])

theorem AMap.get?_erase_same (m : AMap α) (i : Nat) (h : m.sorted = true) : (m.erase i).get? i = none := by
  rw [AMap.sorted_iff] at h
  induction m with
  | nil => rfl
  | cons e m ih =>
    obtain ⟨k, w⟩ := e
    obtain ⟨h1, h2⟩ := List.pairwise_cons.mp h
    simp only [AMap.erase]
    split
    · next hk => subst hk; exact AMap.get?_none_of_lt m k h1
    · next hk => simp only [AMap.get?]; rw [if_neg hk]; exact ih h2

theorem AMap.get?_erase_other (m : AMap α) (i j : Nat) (h : j ≠ i) : (m.erase i).get? j = m.get? j := by
  induction m with
  | nil => rfl
  | cons e m ih =>
    obtain ⟨k, w⟩ := e
    simp only [AMap.erase]
    split
    · next hk => subst hk; simp [AMap.get?, h.symm]
    · simp only [AMap.get?, ih]

section Sparse
variable [DecidableEq α]

/-- A value put is the value read. -/
theorem AMap.getD_put_same (m : AMap α) (i : Nat) (v d : α) (h : m.sorted = true) : (m.put i v d).getD i d = v := by
  unfold AMap.put AMap.getD
  split
  · next e => rw [AMap.get?_erase_same m i h, e]; rfl
  · rw [AMap.get?_set_same]; rfl

/-- A value put leaves every other key as it was. -/
theorem AMap.getD_put_other (m : AMap α) (i j : Nat) (v d e : α) (h : j ≠ i) : (m.put i v d).getD j e = m.getD j e := by
  unfold AMap.put AMap.getD
  split
  · rw [AMap.get?_erase_other m i j h]
  · rw [AMap.get?_set_other m i j v h]

/-- A put keeps the canonical form. -/
theorem AMap.wf_put (m : AMap α) (i : Nat) (v d : α) (h : m.wf d = true) : (m.put i v d).wf d = true := by
  simp only [AMap.wf, AMap.sparse, Bool.and_eq_true, List.all_eq_true, decide_eq_true_iff] at h ⊢
  unfold AMap.put
  split
  · exact ⟨AMap.sorted_erase m i h.1, fun x hx => h.2 x (AMap.mem_erase m i x hx)⟩
  · next hv =>
    refine ⟨AMap.sorted_set m i v h.1, fun x hx => ?_⟩
    rcases AMap.mem_set m i v x hx with rfl | hx
    · exact hv
    · exact h.2 x hx

/-- Keys removed keep the canonical form. -/
theorem AMap.wf_filter (m : AMap α) (p : Nat × α → Bool) (d : α) (h : m.wf d = true) : AMap.wf (m.filter p) d = true := by
  simp only [AMap.wf, AMap.sparse, Bool.and_eq_true, List.all_eq_true, decide_eq_true_iff] at h ⊢
  refine ⟨?_, fun x hx => h.2 x (List.mem_filter.mp hx).1⟩
  rw [AMap.sorted_iff] at h ⊢
  exact h.1.filter p

end Sparse

end Sys2Proof.Machine
end

