-- ==== Sys2Proof/Laws/Access.lean ====
section
/-! SUPPORT. The accessors of State: what is read back after a write of the same place, and of another place. One lemma
for a page that is carried out. -/

namespace Sys2Proof.Machine

@[simp] theorem AMap.getD_set_same {α : Type} (m : AMap α) (i : Nat) (v d : α) : (m.set i v).getD i d = v := by
  unfold AMap.getD; rw [AMap.get?_set_same]; rfl

@[simp] theorem AMap.getD_set_other {α : Type} (m : AMap α) (i j : Nat) (v d : α) (h : j ≠ i) :
    (m.set i v).getD j d = m.getD j d := by
  unfold AMap.getD; rw [AMap.get?_set_other _ _ _ _ h]

@[simp] theorem State.func_setFunc_same (s : State) (n : Nat) (x : Func) : (s.setFunc n x).func n = x := AMap.getD_set_same _ n x _
@[simp] theorem State.func_setFunc_other (s : State) (n m : Nat) (x : Func) (h : m ≠ n) : (s.setFunc n x).func m = s.func m :=
  AMap.getD_set_other _ n m x _ h
@[simp] theorem State.port_setPort_same (s : State) (n : Nat) (x : OchPort) : (s.setPort n x).port n = x := AMap.getD_set_same _ n x _
@[simp] theorem State.port_setPort_other (s : State) (n m : Nat) (x : OchPort) (h : m ≠ n) : (s.setPort n x).port m = s.port m :=
  AMap.getD_set_other _ n m x _ h
@[simp] theorem State.trig_setTrig_same (s : State) (n : Nat) (x : Trigger) : (s.setTrig n x).trig n = x := AMap.getD_set_same _ n x _
@[simp] theorem State.trig_setTrig_other (s : State) (n m : Nat) (x : Trigger) (h : m ≠ n) : (s.setTrig n x).trig m = s.trig m :=
  AMap.getD_set_other _ n m x _ h
@[simp] theorem State.stk_setStk_same (s : State) (n : Nat) (x : StackDyn) : (s.setStk n x).stk n = x := AMap.getD_set_same _ n x _
@[simp] theorem State.stk_setStk_other (s : State) (n m : Nat) (x : StackDyn) (h : m ≠ n) : (s.setStk n x).stk m = s.stk m :=
  AMap.getD_set_other _ n m x _ h
@[simp] theorem State.surf_setSurf_same (s : State) (n : Nat) (x : SurfDyn) : (s.setSurf n x).surf n = x := AMap.getD_set_same _ n x _
@[simp] theorem State.surf_setSurf_other (s : State) (n m : Nat) (x : SurfDyn) (h : m ≠ n) : (s.setSurf n x).surf m = s.surf m :=
  AMap.getD_set_other _ n m x _ h
@[simp] theorem State.tdm_setTdm_same (s : State) (n : Nat) (x : TdmPort) : (s.setTdm n x).tdm n = x := AMap.getD_set_same _ n x _
@[simp] theorem State.tdm_setTdm_other (s : State) (n m : Nat) (x : TdmPort) (h : m ≠ n) : (s.setTdm n x).tdm m = s.tdm m :=
  AMap.getD_set_other _ n m x _ h
@[simp] theorem State.chan_setChan_same (s : State) (n : Nat) (x : Chan) : (s.setChan n x).chan n = x := AMap.getD_set_same _ n x _
@[simp] theorem State.chan_setChan_other (s : State) (n m : Nat) (x : Chan) (h : m ≠ n) : (s.setChan n x).chan m = s.chan m :=
  AMap.getD_set_other _ n m x _ h
@[simp] theorem State.band_setBand_same (s : State) (n : Nat) (x : Band) : (s.setBand n x).band n = x := AMap.getD_set_same _ n x _
@[simp] theorem State.band_setBand_other (s : State) (n m : Nat) (x : Band) (h : m ≠ n) : (s.setBand n x).band m = s.band m :=
  AMap.getD_set_other _ n m x _ h
@[simp] theorem State.group_setGroup_same (s : State) (n : Nat) (x : SyncGroup) : (s.setGroup n x).group n = x := AMap.getD_set_same _ n x _
@[simp] theorem State.group_setGroup_other (s : State) (n m : Nat) (x : SyncGroup) (h : m ≠ n) : (s.setGroup n x).group m = s.group m :=
  AMap.getD_set_other _ n m x _ h
@[simp] theorem State.rule_setRule_same (s : State) (n : Nat) (x : RuleDyn) : (s.setRule n x).rule n = x := AMap.getD_set_same _ n x _
@[simp] theorem State.rule_setRule_other (s : State) (n m : Nat) (x : RuleDyn) (h : m ≠ n) : (s.setRule n x).rule m = s.rule m :=
  AMap.getD_set_other _ n m x _ h
@[simp] theorem State.comb_setComb_same (s : State) (n : Nat) (x : Comb) : (s.setComb n x).comb n = x := AMap.getD_set_same _ n x _
@[simp] theorem State.comb_setComb_other (s : State) (n m : Nat) (x : Comb) (h : m ≠ n) : (s.setComb n x).comb m = s.comb m :=
  AMap.getD_set_other _ n m x _ h
@[simp] theorem State.str_setStr_same (s : State) (n : Nat) (x : BatString) : (s.setStr n x).str n = x := AMap.getD_set_same _ n x _
@[simp] theorem State.str_setStr_other (s : State) (n m : Nat) (x : BatString) (h : m ≠ n) : (s.setStr n x).str m = s.str m :=
  AMap.getD_set_other _ n m x _ h
@[simp] theorem State.ctx_setCtx_same (s : State) (n : Nat) (x : Ctx) : (s.setCtx n x).ctx? n = some x := AMap.get?_set_same _ n x
@[simp] theorem State.ctx_setCtx_other (s : State) (n m : Nat) (x : Ctx) (h : m ≠ n) : (s.setCtx n x).ctx? m = s.ctx? m :=
  AMap.get?_set_other _ n m x h
@[simp] theorem State.bind_setBind_same (s : State) (n : Nat) (x : Bind) : (s.setBind n x).bind? n = some x := AMap.get?_set_same _ n x
@[simp] theorem State.bind_setBind_other (s : State) (n m : Nat) (x : Bind) (h : m ≠ n) : (s.setBind n x).bind? m = s.bind? m :=
  AMap.get?_set_other _ n m x h

/-! ## The latched command of a path -/

@[simp] theorem State.latch_setLatch_same (s : State) (p : Nat) (l : Latch) : (s.setLatch p (some l)).latch p = some l := by
  unfold State.setLatch State.latch
  by_cases h : p = ethPath
  · simp [h]
  · simp only [h, if_false]
    cases e : (s.func p).orphans <;> simp [Func.front, e]

/-- A command on a path is at another stage, and is otherwise the same. -/
theorem State.latch_toStage (s : State) (p : Nat) (l : Latch) (g : Stage) (h : s.latch p = some l) :
    (s.toStage p g).latch p = some { l with stage := g } := by
  simp [State.toStage, h]

/-- A page whose command is ready and whose body ends: the answer is formed (10 R195, R196). -/
theorem runPage_done (op : Nat) (b : PageBody) (p : Nat) (s t : State) (l : Latch) (r : Bytes) (hl : s.latch p = some l)
    (ho : l.cmd.opcode = op) (hs : l.stage = .ready) (hm : s.mayStart l = true) (hb : b l.cmd none s = .done t r) :
    runPage op b p s = t.answer p ⟨cOk, 0, t.respGen l.cmd, r⟩ := by
  simp [runPage, hl, ho, hs, hm, hb]

/-- A page whose check fails: the error code, with nothing else changed (10 R198). -/
theorem runPage_fail (op : Nat) (b : PageBody) (p : Nat) (s : State) (l : Latch) (e : CErr) (hl : s.latch p = some l)
    (ho : l.cmd.opcode = op) (hs : l.stage = .ready) (hm : s.mayStart l = true) (hb : b l.cmd none s = .fail e) :
    runPage op b p s = s.answerErr p e (s.respGen l.cmd) := by
  simp [runPage, hl, ho, hs, hm, hb]

/-- A page that waits: its command yields. -/
theorem runPage_wait (op : Nat) (b : PageBody) (p : Nat) (s t : State) (l : Latch) (hl : s.latch p = some l)
    (ho : l.cmd.opcode = op) (hs : l.stage = .ready) (hm : s.mayStart l = true) (hb : b l.cmd none s = .wait t) :
    runPage op b p s = t.toStage p .yielded := by
  simp [runPage, hl, ho, hs, hm, hb]

/-- A page with nothing latched, or with another page's command latched, does nothing. -/
theorem runPage_other (op : Nat) (b : PageBody) (p : Nat) (s : State) (h : ∀ l, s.latch p = some l → l.cmd.opcode ≠ op) :
    runPage op b p s = s := by
  unfold runPage
  split
  · next l hl => simp [h l hl]
  · rfl

theorem plainPage_ok (k : Cmd → State → Check) (a : Cmd → State → State × Bytes) (c : Cmd) (d : Option (Option Bytes))
    (s : State) (h : k c s = .ok ()) : plainPage k a c d s = .done (a c s).1 (a c s).2 := by
  simp [plainPage, h]

theorem plainPage_error (k : Cmd → State → Check) (a : Cmd → State → State × Bytes) (c : Cmd) (d : Option (Option Bytes))
    (s : State) (e : CErr) (h : k c s = .error e) : plainPage k a c d s = .fail e := by
  simp [plainPage, h]
/-- A constructor whose meaning is a plain page does what `PageDoes` says. -/
theorem pageDoes (i : Nat → Instr) (op : Nat) (k : Cmd → State → Check) (a : Cmd → State → State × Bytes)
    (hi : ∀ p s, exec (i p) s = .next (runPage op (plainPage k a) p s)) : PageDoes i op k a := by
  refine ⟨fun s p l h hk => ?_, fun s p l e h hk => ?_, fun s p h => ?_⟩
  · rw [hi, runPage_done op _ p s _ l _ h.1 h.2.2.1 h.2.1 h.2.2.2 (plainPage_ok k a l.cmd none s hk)]; rfl
  · rw [hi, runPage_fail op _ p s l e h.1 h.2.2.1 h.2.1 h.2.2.2 (plainPage_error k a l.cmd none s e hk)]
  · rw [hi, runPage_other op _ p s h]

/-- A constructor whose meaning is a page that needs the flash does what `FlashPageDoes` says. -/
theorem flashPageDoes (i : Nat → Instr) (op : Nat) (k : Cmd → State → Check) (j : Cmd → State → Option FlashJob)
    (a : Cmd → State → State × Bytes)
    (hi : ∀ p s, exec (i p) s = .next (runPage op (flashPage k j a) p s)) : FlashPageDoes i op k j a := by
  refine ⟨fun s p l h hk hj => ?_, fun s p l x h hk hj => ?_, fun s p l d x hl hd ho hj hx => ?_, fun s p l e h hk => ?_,
    fun s p h => ?_⟩
  · rw [hi, runPage_done op _ p s _ l _ h.1 h.2.2.1 h.2.1 h.2.2.2 (by simp only [flashPage, hk, hj]; rfl)]; rfl
  · rw [hi, runPage_wait op _ p s _ l h.1 h.2.2.1 h.2.1 h.2.2.2 (by simp only [flashPage, hk, hj]; rfl)]
  · rw [hi]
    simp only [runPage, hl, ho, hd, flashPage, flashResume, hj, hx, if_true]
    rfl
  · rw [hi, runPage_fail op _ p s l e h.1 h.2.2.1 h.2.1 h.2.2.2 (by simp only [flashPage, hk])]
  · rw [hi, runPage_other op _ p s h]

/-- A generation-bearing page's body does what GenerationPageDoes says (12 R234, R235). -/
theorem generationPageDoes (i : Nat → Instr) (pg : GPage) (P : State → Cmd → Prop)
    (h : ∀ (p : Nat) (s : State) (l : Latch), s.latch p = some l → l.cmd.opcode = pg.op → P s l.cmd →
      exec (i p) s = .next (runPage pg.op (gBody pg) p s)) : GenerationPageDoes i pg P := by
  intro s p l x hl ho hx hp
  rw [h p s l hl ho hp]
  dsimp only
  refine ⟨fun e hr he => ?_, fun a n hr he hf => ?_, fun data he hd => ⟨fun hn => ⟨fun e hz => ?_, fun w t u k hz hb hy => ?_⟩,
    fun k hk => ⟨fun e hz => ?_, fun w t u j hz hb hy => ?_⟩⟩⟩
  · simp [runPage, hl, ho, hr.1, hr.2, gBody, hx, he]
  · simp [runPage, hl, ho, hr.1, hr.2, gBody, hx, he, hf]
  all_goals simp only [ho] at hz
  · rcases hd with ⟨hr, hf, rfl⟩ | ⟨r, a, n, hr, hf, hm, hq⟩
    · simp [runPage, hl, ho, hr, gBody, hx, he, hf, finishG, hn, hz]
    · simp [runPage, hl, ho, hr, gBody, hx, he, hf, hm, hq, finishG, hn, hz]
  · simp only [ho] at hy
    rcases hd with ⟨hr, hf, rfl⟩ | ⟨r, a, n, hr, hf, hm, hq⟩
    · simp [runPage, hl, ho, hr, gBody, hx, he, hf, finishG, hn, hz, hb, hy]; rfl
    · simp [runPage, hl, ho, hr, gBody, hx, he, hf, hm, hq, finishG, hn, hz, hb, hy]; rfl
  · rcases hd with ⟨hr, hf, rfl⟩ | ⟨r, a, n, hr, hf, hm, hq⟩
    · simp [runPage, hl, ho, hr, gBody, hx, he, hf, finishG, hk, hz]
    · simp [runPage, hl, ho, hr, gBody, hx, he, hf, hm, hq, finishG, hk, hz]
  · simp only [ho] at hy hb
    rcases hd with ⟨hr, hf, rfl⟩ | ⟨r, a, n, hr, hf, hm, hq⟩
    · simp [runPage, hl, ho, hr, gBody, hx, he, hf, finishG, hk, hz, hb, hy]; rfl
    · simp [runPage, hl, ho, hr, gBody, hx, he, hf, hm, hq, finishG, hk, hz, hb, hy]; rfl

end Sys2Proof.Machine
end

