-- ==== Sys2Proof/Laws/Memory.lean ====
section
/-! SUPPORT. Laws of the byte memories and of the register file: what a read gives after a write, and the canonical form. -/

namespace Sys2Proof.Machine

/-! ## Bytes -/

theorem readByte_writeByte_same (m : Memory) (a : Nat) (b : Byte) (h : Memory.wf m = true) :
    readByte (writeByte m a b) a = b :=
  AMap.getD_put_same m a b 0 (by simp only [Memory.wf, AMap.wf, Bool.and_eq_true] at h; exact h.1)

theorem readByte_writeByte_other (m : Memory) (a c : Nat) (b : Byte) (h : c ≠ a) :
    readByte (writeByte m a b) c = readByte m c := AMap.getD_put_other m a c b 0 0 h

@[simp] theorem wf_writeByte (m : Memory) (a : Nat) (b : Byte) (h : Memory.wf m = true) :
    Memory.wf (writeByte m a b) = true := AMap.wf_put m a b 0 h

@[simp] theorem wf_writeBytes (b : Bytes) (m : Memory) (a : Nat) (h : Memory.wf m = true) :
    Memory.wf (writeBytes m a b) = true := by
  induction b generalizing m a with
  | nil => exact h
  | cons x b ih => exact ih _ _ (wf_writeByte m a x h)

/-- Bytes written leave every other byte as it was. -/
theorem readByte_writeBytes_other (b : Bytes) (m : Memory) (a c : Nat) (h : c < a ∨ a + b.length ≤ c) :
    readByte (writeBytes m a b) c = readByte m c := by
  induction b generalizing m a with
  | nil => rfl
  | cons x b ih =>
    simp only [List.length_cons] at h
    rw [writeBytes, ih _ _ (by omega), readByte_writeByte_other m a c x (by omega)]

/-- Bytes written are the bytes read. -/
theorem readByte_writeBytes (b : Bytes) (m : Memory) (a i : Nat) (h : Memory.wf m = true) (hi : i < b.length) :
    readByte (writeBytes m a b) (a + i) = b[i] := by
  induction b generalizing m a i with
  | nil => simp at hi
  | cons x b ih =>
    cases i with
    | zero =>
      rw [writeBytes, readByte_writeBytes_other b _ (a + 1) (a + 0) (by omega)]
      exact readByte_writeByte_same m a x h
    | succ j =>
      have := ih (writeByte m a x) (a + 1) j (wf_writeByte m a x h) (by simpa using hi)
      rw [writeBytes, show a + (j + 1) = a + 1 + j by omega, this]
      rfl

@[simp] theorem wf_zeroRange (m : Memory) (a n : Nat) (h : Memory.wf m = true) : Memory.wf (zeroRange m a n) = true :=
  AMap.wf_filter m _ 0 h

/-! ## Both memories of the state -/

theorem State.reset_mems : State.reset.Mems := ⟨rfl, rfl⟩

/-! ## Registers -/

@[simp] theorem State.reg_setReg_same (s : State) (a : Nat) (v : Word) (h : AMap.sorted s.regs = true) :
    (s.setReg a v).reg a = v := AMap.getD_put_same s.regs a v (regReset a) h

@[simp] theorem State.reg_setReg_other (s : State) (a b : Nat) (v : Word) (h : b ≠ a) : (s.setReg a v).reg b = s.reg b :=
  AMap.getD_put_other s.regs a b v (regReset a) (regReset b) h

end Sys2Proof.Machine
end

