-- ==== Sys2Proof/Laws/MemOps.lean ====
section
/-! SUPPORT. What the operations and meanings of Machine/Ops.lean do to the two memories: `_keeps` says that both stay as
they were, `_mems` that their canonical form is kept. -/

namespace Sys2Proof.Machine

@[simp] theorem foldl_mem {α : Type} (f : State → α → State) (h : ∀ t a, (f t a).mem = t.mem) (l : List α) :
    ∀ s, (l.foldl f s).mem = s.mem := by
  induction l with
  | nil => intro s; rfl
  | cons a l ih => intro s; rw [List.foldl_cons, ih, h]
@[simp] theorem foldl_hostMem {α : Type} (f : State → α → State) (h : ∀ t a, (f t a).hostMem = t.hostMem) (l : List α) :
    ∀ s, (l.foldl f s).hostMem = s.hostMem := by
  induction l with
  | nil => intro s; rfl
  | cons a l ih => intro s; rw [List.foldl_cons, ih, h]
@[simp] theorem forEach_mem (l : List Nat) (f : Nat → State → State) (h : ∀ a t, (f a t).mem = t.mem) (s : State) :
    (forEach l f s).mem = s.mem := foldl_mem _ (fun t a => h a t) l s
@[simp] theorem forEach_hostMem (l : List Nat) (f : Nat → State → State) (h : ∀ a t, (f a t).hostMem = t.hostMem) (s : State) :
    (forEach l f s).hostMem = s.hostMem := foldl_hostMem _ (fun t a => h a t) l s
@[simp] theorem ite_mem (c : Prop) [Decidable c] (s t : State) : (if c then s else t).mem = if c then s.mem else t.mem := by
  split <;> rfl
@[simp] theorem ite_hostMem (c : Prop) [Decidable c] (s t : State) : (if c then s else t).hostMem = if c then s.hostMem else t.hostMem := by
  split <;> rfl
theorem foldl_mems {α : Type} (f : State → α → State) (hf : ∀ t a, t.Mems → (f t a).Mems) (l : List α) :
    ∀ s, s.Mems → (l.foldl f s).Mems := by
  induction l with
  | nil => intro s h; exact h
  | cons a l ih => intro s h; rw [List.foldl_cons]; exact ih _ (hf s a h)
theorem forEach_mems (l : List Nat) (f : Nat → State → State) (hf : ∀ a t, t.Mems → (f a t).Mems) (s : State) (h : s.Mems) :
    (forEach l f s).Mems := foldl_mems _ (fun t a ht => hf a t ht) l s h
@[simp] theorem foldl_mems_iff {α : Type} (f : State → α → State) (hf : ∀ t a, (f t a).Mems ↔ t.Mems) (l : List α) :
    ∀ s, (l.foldl f s).Mems ↔ s.Mems := by
  induction l with
  | nil => intro s; rfl
  | cons a l ih => intro s; rw [List.foldl_cons, ih, hf]
@[simp] theorem forEach_mems_iff (l : List Nat) (f : Nat → State → State) (hf : ∀ a t, (f a t).Mems ↔ t.Mems) (s : State) :
    (forEach l f s).Mems ↔ s.Mems := foldl_mems_iff _ (fun t a => hf a t) l s
def ResMems (r : Res) : Prop := ∀ t, r = .next t → t.Mems
@[simp] theorem resMems_next (t : State) : ResMems (.next t) ↔ t.Mems :=
  ⟨fun h => h t rfl, fun h u e => by cases e; exact h⟩
@[simp] theorem State.mk_mems (a : List Instr) (b : RegFile) (m n : Memory) (w : List Out) (rd : Bytes) (re : Bool) (bo : Board)
    (sy : Sys) (am : Amber) (ho : HostIf) (oc : Ochre) (co : Cobalt) (se : Sepia) (um : Umber) (vi : Viridian) (ig : Indigo)
    (sl : Slate) (ca : Carmine) (iv : Ivory) (sb : Sable) (fa : FaultUnit) (fc : Nat) :
    (State.mk a b m n w rd re bo sy am ho oc co se um vi ig sl ca iv sb fa fc).Mems ↔ Memory.wf m = true ∧ Memory.wf n = true := Iff.rfl
/-- Every state that an outcome leaves has the memories of the state before it. -/
def ResKeeps (s : State) (r : Res) : Prop := ∀ t, r = .next t → t.mem = s.mem ∧ t.hostMem = s.hostMem
@[simp] theorem resKeeps_next (s t : State) : ResKeeps s (.next t) ↔ t.mem = s.mem ∧ t.hostMem = s.hostMem :=
  ⟨fun h => h t rfl, fun h u e => by cases e; exact h⟩
theorem ResKeeps.mems {s : State} {r : Res} (k : ResKeeps s r) (h : s.Mems) : ResMems r := by
  intro t e
  exact ⟨by rw [(k t e).1]; exact h.1, by rw [(k t e).2]; exact h.2⟩
@[simp] theorem State.setReg_keeps (s : State) (a : Nat) (v : Sys2Proof.Word) :
    (State.setReg s a v).mem = s.mem ∧ (State.setReg s a v).hostMem = s.hostMem := by
  simp [State.setReg]
@[simp] theorem State.setReg_mems (s : State) (a : Nat) (v : Sys2Proof.Word) : (State.setReg s a v).Mems ↔ s.Mems := by
  unfold State.Mems; rw [(State.setReg_keeps s a v).1, (State.setReg_keeps s a v).2]
@[simp] theorem State.bump_keeps (s : State) (a : Nat) (n : optParam Nat 1) :
    (State.bump s a n).mem = s.mem ∧ (State.bump s a n).hostMem = s.hostMem := by
  simp [State.bump]
@[simp] theorem State.bump_mems (s : State) (a : Nat) (n : optParam Nat 1) : (State.bump s a n).Mems ↔ s.Mems := by
  unfold State.Mems; rw [(State.bump_keeps s a n).1, (State.bump_keeps s a n).2]
@[simp] theorem State.bumpSat_keeps (s : State) (a : Nat) (n : optParam Nat 1) :
    (State.bumpSat s a n).mem = s.mem ∧ (State.bumpSat s a n).hostMem = s.hostMem := by
  simp [State.bumpSat]
@[simp] theorem State.bumpSat_mems (s : State) (a : Nat) (n : optParam Nat 1) : (State.bumpSat s a n).Mems ↔ s.Mems := by
  unfold State.Mems; rw [(State.bumpSat_keeps s a n).1, (State.bumpSat_keeps s a n).2]
@[simp] theorem State.setReg64_keeps (s : State) (a : Nat) (v : Nat) :
    (State.setReg64 s a v).mem = s.mem ∧ (State.setReg64 s a v).hostMem = s.hostMem := by
  simp [State.setReg64]
@[simp] theorem State.setReg64_mems (s : State) (a : Nat) (v : Nat) : (State.setReg64 s a v).Mems ↔ s.Mems := by
  unfold State.Mems; rw [(State.setReg64_keeps s a v).1, (State.setReg64_keeps s a v).2]
@[simp] theorem State.setRegFld_keeps (s : State) (a : Nat) (hi : Nat) (lo : Nat) (v : Nat) :
    (State.setRegFld s a hi lo v).mem = s.mem ∧ (State.setRegFld s a hi lo v).hostMem = s.hostMem := by
  simp [State.setRegFld]
@[simp] theorem State.setRegFld_mems (s : State) (a : Nat) (hi : Nat) (lo : Nat) (v : Nat) : (State.setRegFld s a hi lo v).Mems ↔ s.Mems := by
  unfold State.Mems; rw [(State.setRegFld_keeps s a hi lo v).1, (State.setRegFld_keeps s a hi lo v).2]
@[simp] theorem State.setRegs_keeps (s : State) (a : Nat) (x2 : List Sys2Proof.Word) :
    (State.setRegs s a x2).mem = s.mem ∧ (State.setRegs s a x2).hostMem = s.hostMem := by
  fun_induction State.setRegs s a x2 <;> simp_all
@[simp] theorem State.setRegs_mems (s : State) (a : Nat) (x2 : List Sys2Proof.Word) : (State.setRegs s a x2).Mems ↔ s.Mems := by
  unfold State.Mems; rw [(State.setRegs_keeps s a x2).1, (State.setRegs_keeps s a x2).2]
@[simp] theorem State.resetRegs_keeps (s : State) (lo : Nat) (hi : Nat) (keep : optParam (Nat → Bool) fun x => false) :
    (State.resetRegs s lo hi keep).mem = s.mem ∧ (State.resetRegs s lo hi keep).hostMem = s.hostMem := by
  simp [State.resetRegs]
@[simp] theorem State.resetRegs_mems (s : State) (lo : Nat) (hi : Nat) (keep : optParam (Nat → Bool) fun x => false) : (State.resetRegs s lo hi keep).Mems ↔ s.Mems := by
  unfold State.Mems; rw [(State.resetRegs_keeps s lo hi keep).1, (State.resetRegs_keeps s lo hi keep).2]
@[simp] theorem State.modHost_keeps (s : State) (f : HostIf → HostIf) :
    (State.modHost s f).mem = s.mem ∧ (State.modHost s f).hostMem = s.hostMem := by
  simp [State.modHost]
@[simp] theorem State.modHost_mems (s : State) (f : HostIf → HostIf) : (State.modHost s f).Mems ↔ s.Mems := by
  unfold State.Mems; rw [(State.modHost_keeps s f).1, (State.modHost_keeps s f).2]
@[simp] theorem State.setFunc_keeps (s : State) (f : Nat) (x : Func) :
    (State.setFunc s f x).mem = s.mem ∧ (State.setFunc s f x).hostMem = s.hostMem := by
  simp [State.setFunc]
@[simp] theorem State.setFunc_mems (s : State) (f : Nat) (x : Func) : (State.setFunc s f x).Mems ↔ s.Mems := by
  unfold State.Mems; rw [(State.setFunc_keeps s f x).1, (State.setFunc_keeps s f x).2]
@[simp] theorem State.setCtx_keeps (s : State) (c : Nat) (x : Ctx) :
    (State.setCtx s c x).mem = s.mem ∧ (State.setCtx s c x).hostMem = s.hostMem := by
  simp [State.setCtx]
@[simp] theorem State.setCtx_mems (s : State) (c : Nat) (x : Ctx) : (State.setCtx s c x).Mems ↔ s.Mems := by
  unfold State.Mems; rw [(State.setCtx_keeps s c x).1, (State.setCtx_keeps s c x).2]
@[simp] theorem State.setRing_keeps (s : State) (f : Nat) (r : Nat) (x : Ring) :
    (State.setRing s f r x).mem = s.mem ∧ (State.setRing s f r x).hostMem = s.hostMem := by
  simp [State.setRing]
@[simp] theorem State.setRing_mems (s : State) (f : Nat) (r : Nat) (x : Ring) : (State.setRing s f r x).Mems ↔ s.Mems := by
  unfold State.Mems; rw [(State.setRing_keeps s f r x).1, (State.setRing_keeps s f r x).2]
@[simp] theorem State.tookFree_keeps (s : State) (n : optParam Nat 1) :
    (State.tookFree s n).mem = s.mem ∧ (State.tookFree s n).hostMem = s.hostMem := by
  simp [State.tookFree]
@[simp] theorem State.tookFree_mems (s : State) (n : optParam Nat 1) : (State.tookFree s n).Mems ↔ s.Mems := by
  unfold State.Mems; rw [(State.tookFree_keeps s n).1, (State.tookFree_keeps s n).2]
@[simp] theorem State.assertSource_keeps (s : State) (n : Nat) :
    (State.assertSource s n).mem = s.mem ∧ (State.assertSource s n).hostMem = s.hostMem := by
  unfold State.assertSource; split <;> simp
@[simp] theorem State.assertSource_mems (s : State) (n : Nat) : (State.assertSource s n).Mems ↔ s.Mems := by
  unfold State.Mems; rw [(State.assertSource_keeps s n).1, (State.assertSource_keeps s n).2]
@[simp] theorem State.assertSourceIf_keeps (s : State) (c : Bool) (n : Nat) :
    (State.assertSourceIf s c n).mem = s.mem ∧ (State.assertSourceIf s c n).hostMem = s.hostMem := by
  simp [State.assertSourceIf]
@[simp] theorem State.assertSourceIf_mems (s : State) (c : Bool) (n : Nat) : (State.assertSourceIf s c n).Mems ↔ s.Mems := by
  unfold State.Mems; rw [(State.assertSourceIf_keeps s c n).1, (State.assertSourceIf_keeps s c n).2]
@[simp] theorem State.putStaged_keeps (s : State) (x : Staged) :
    (State.putStaged s x).mem = s.mem ∧ (State.putStaged s x).hostMem = s.hostMem := by
  simp [State.putStaged]
@[simp] theorem State.putStaged_mems (s : State) (x : Staged) : (State.putStaged s x).Mems ↔ s.Mems := by
  unfold State.Mems; rw [(State.putStaged_keeps s x).1, (State.putStaged_keeps s x).2]
@[simp] theorem State.stageRec_keeps (s : State) (p : Producer) (ctx : Option Nat) (r : Rec) :
    (State.stageRec s p ctx r).mem = s.mem ∧ (State.stageRec s p ctx r).hostMem = s.hostMem := by
  unfold State.stageRec; (repeat' split) <;> simp
@[simp] theorem State.stageRec_mems (s : State) (p : Producer) (ctx : Option Nat) (r : Rec) : (State.stageRec s p ctx r).Mems ↔ s.Mems := by
  unfold State.Mems; rw [(State.stageRec_keeps s p ctx r).1, (State.stageRec_keeps s p ctx r).2]
@[simp] theorem State.emit_keeps (s : State) (p : Producer) (ctx : Option Nat) (type : Nat) (tov : Stamp) (oldest : Int) (flags : Sys2Proof.Word) (mask : Sys2Proof.Word) (gen : BitVec 16) (body : Sys2Proof.Bytes) :
    (State.emit s p ctx type tov oldest flags mask gen body).mem = s.mem ∧ (State.emit s p ctx type tov oldest flags mask gen body).hostMem = s.hostMem := by
  simp [State.emit]
@[simp] theorem State.emit_mems (s : State) (p : Producer) (ctx : Option Nat) (type : Nat) (tov : Stamp) (oldest : Int) (flags : Sys2Proof.Word) (mask : Sys2Proof.Word) (gen : BitVec 16) (body : Sys2Proof.Bytes) : (State.emit s p ctx type tov oldest flags mask gen body).Mems ↔ s.Mems := by
  unfold State.Mems; rw [(State.emit_keeps s p ctx type tov oldest flags mask gen body).1, (State.emit_keeps s p ctx type tov oldest flags mask gen body).2]
@[simp] theorem State.stageFault_keeps (s : State) (r : FaultRec) :
    (State.stageFault s r).mem = s.mem ∧ (State.stageFault s r).hostMem = s.hostMem := by
  unfold State.stageFault; split <;> simp
@[simp] theorem State.stageFault_mems (s : State) (r : FaultRec) : (State.stageFault s r).Mems ↔ s.Mems := by
  unfold State.Mems; rw [(State.stageFault_keeps s r).1, (State.stageFault_keeps s r).2]
@[simp] theorem State.queueLog_keeps (s : State) (cls : Nat) (faultSeq : Nat) (unit : Nat) (master : Nat) (t : Stamp) (addr : Nat) (args : List Sys2Proof.Word) :
    (State.queueLog s cls faultSeq unit master t addr args).mem = s.mem ∧ (State.queueLog s cls faultSeq unit master t addr args).hostMem = s.hostMem := by
  simp [State.queueLog]
@[simp] theorem State.queueLog_mems (s : State) (cls : Nat) (faultSeq : Nat) (unit : Nat) (master : Nat) (t : Stamp) (addr : Nat) (args : List Sys2Proof.Word) : (State.queueLog s cls faultSeq unit master t addr args).Mems ↔ s.Mems := by
  unfold State.Mems; rw [(State.queueLog_keeps s cls faultSeq unit master t addr args).1, (State.queueLog_keeps s cls faultSeq unit master t addr args).2]
@[simp] theorem State.raiseFault_keeps (s : State) (cls : Nat) (unit : Nat) (master : optParam Nat 65535) (addr : optParam Nat 0) (args : optParam (List Sys2Proof.Word) []) (copyCtx : optParam (Option Nat) none) (log : optParam Bool true) :
    (State.raiseFault s cls unit master addr args copyCtx log).mem = s.mem ∧ (State.raiseFault s cls unit master addr args copyCtx log).hostMem = s.hostMem := by
  unfold State.raiseFault
  constructor <;> (dsimp only; repeat' split) <;> simp
@[simp] theorem State.raiseFault_mems (s : State) (cls : Nat) (unit : Nat) (master : optParam Nat 65535) (addr : optParam Nat 0) (args : optParam (List Sys2Proof.Word) []) (copyCtx : optParam (Option Nat) none) (log : optParam Bool true) : (State.raiseFault s cls unit master addr args copyCtx log).Mems ↔ s.Mems := by
  unfold State.Mems; rw [(State.raiseFault_keeps s cls unit master addr args copyCtx log).1, (State.raiseFault_keeps s cls unit master addr args copyCtx log).2]
@[simp] theorem State.setGuardEntry_keeps (s : State) (g : Nat) (i : Nat) (a : Sys2Proof.Word) (b : Sys2Proof.Word) (c : Sys2Proof.Word) (d : Sys2Proof.Word) :
    (State.setGuardEntry s g i a b c d).mem = s.mem ∧ (State.setGuardEntry s g i a b c d).hostMem = s.hostMem := by
  simp [State.setGuardEntry]
@[simp] theorem State.setGuardEntry_mems (s : State) (g : Nat) (i : Nat) (a : Sys2Proof.Word) (b : Sys2Proof.Word) (c : Sys2Proof.Word) (d : Sys2Proof.Word) : (State.setGuardEntry s g i a b c d).Mems ↔ s.Mems := by
  unfold State.Mems; rw [(State.setGuardEntry_keeps s g i a b c d).1, (State.setGuardEntry_keeps s g i a b c d).2]
@[simp] theorem State.addEntry_keeps (s : State) (g : Nat) (base : Nat) (log2 : Nat) (idVal : Nat) (idMask : Nat) (perms : Nat) (owner : Nat) :
    (State.addEntry s g base log2 idVal idMask perms owner).mem = s.mem ∧ (State.addEntry s g base log2 idVal idMask perms owner).hostMem = s.hostMem := by
  unfold State.addEntry
  cases h : State.freeEntry s g (guardEntries g - 32) 0 <;> simp only [State.setGuardEntry_keeps, and_self]
@[simp] theorem State.addEntry_mems (s : State) (g : Nat) (base : Nat) (log2 : Nat) (idVal : Nat) (idMask : Nat) (perms : Nat) (owner : Nat) : (State.addEntry s g base log2 idVal idMask perms owner).Mems ↔ s.Mems := by
  unfold State.Mems; rw [(State.addEntry_keeps s g base log2 idVal idMask perms owner).1, (State.addEntry_keeps s g base log2 idVal idMask perms owner).2]
@[simp] theorem State.cover_keeps (s : State) (g : Nat) (idVal : Nat) (idMask : Nat) (perms : Nat) (owner : Nat) (base : Nat) (x7 : Nat) (x8 : Nat) :
    (State.cover s g idVal idMask perms owner base x7 x8).mem = s.mem ∧ (State.cover s g idVal idMask perms owner base x7 x8).hostMem = s.hostMem := by
  fun_induction State.cover s g idVal idMask perms owner base x7 x8 <;> simp_all
@[simp] theorem State.cover_mems (s : State) (g : Nat) (idVal : Nat) (idMask : Nat) (perms : Nat) (owner : Nat) (base : Nat) (x7 : Nat) (x8 : Nat) : (State.cover s g idVal idMask perms owner base x7 x8).Mems ↔ s.Mems := by
  unfold State.Mems; rw [(State.cover_keeps s g idVal idMask perms owner base x7 x8).1, (State.cover_keeps s g idVal idMask perms owner base x7 x8).2]
@[simp] theorem State.fence_keeps (s : State) (g : Nat) (c : Nat) (perms : Nat) (base : Nat) (n : Nat) :
    (State.fence s g c perms base n).mem = s.mem ∧ (State.fence s g c perms base n).hostMem = s.hostMem := by
  simp [State.fence]
@[simp] theorem State.fence_mems (s : State) (g : Nat) (c : Nat) (perms : Nat) (base : Nat) (n : Nat) : (State.fence s g c perms base n).Mems ↔ s.Mems := by
  unfold State.Mems; rw [(State.fence_keeps s g c perms base n).1, (State.fence_keeps s g c perms base n).2]
@[simp] theorem State.dropEntries_keeps (s : State) (g : Nat) (c : Nat) (x3 : Nat) (x4 : Nat) :
    (State.dropEntries s g c x3 x4).mem = s.mem ∧ (State.dropEntries s g c x3 x4).hostMem = s.hostMem := by
  fun_induction State.dropEntries s g c x3 x4 <;> simp_all
@[simp] theorem State.dropEntries_mems (s : State) (g : Nat) (c : Nat) (x3 : Nat) (x4 : Nat) : (State.dropEntries s g c x3 x4).Mems ↔ s.Mems := by
  unfold State.Mems; rw [(State.dropEntries_keeps s g c x3 x4).1, (State.dropEntries_keeps s g c x3 x4).2]
theorem State.allocDram_keeps (s t : State) (len ctx what idx a : Nat) (h : s.allocDram len ctx what idx = some (t, a)) :
    t.mem = s.mem ∧ t.hostMem = s.hostMem := by
  unfold State.allocDram at h
  dsimp only at h
  split at h
  · simp only [Option.some.injEq, Prod.mk.injEq] at h
    obtain ⟨rfl, -⟩ := h
    constructor <;> split <;> simp
  · simp at h
theorem State.allocSram_keeps (s t : State) (len ctx what idx a : Nat) (h : s.allocSram len ctx what idx = some (t, a)) :
    t.mem = s.mem ∧ t.hostMem = s.hostMem := by
  unfold State.allocSram at h
  dsimp only at h
  split at h
  · simp only [Option.some.injEq, Prod.mk.injEq] at h
    obtain ⟨rfl, -⟩ := h
    constructor <;> split <;> simp
  · simp at h
@[simp] theorem State.dropFence_keeps (s : State) (g : Nat) (c : Nat) (base : Nat) (len : Nat) (x5 : Nat) (x6 : Nat) :
    (State.dropFence s g c base len x5 x6).mem = s.mem ∧ (State.dropFence s g c base len x5 x6).hostMem = s.hostMem := by
  fun_induction State.dropFence s g c base len x5 x6 <;> simp_all
@[simp] theorem State.dropFence_mems (s : State) (g : Nat) (c : Nat) (base : Nat) (len : Nat) (x5 : Nat) (x6 : Nat) : (State.dropFence s g c base len x5 x6).Mems ↔ s.Mems := by
  unfold State.Mems; rw [(State.dropFence_keeps s g c base len x5 x6).1, (State.dropFence_keeps s g c base len x5 x6).2]
@[simp] theorem State.freeDram_keeps (s : State) (what : Nat) (idx : Nat) :
    (State.freeDram s what idx).mem = s.mem ∧ (State.freeDram s what idx).hostMem = s.hostMem := by
  simp [State.freeDram]
@[simp] theorem State.freeDram_mems (s : State) (what : Nat) (idx : Nat) : (State.freeDram s what idx).Mems ↔ s.Mems := by
  unfold State.Mems; rw [(State.freeDram_keeps s what idx).1, (State.freeDram_keeps s what idx).2]
@[simp] theorem State.freeSram_keeps (s : State) (what : Nat) (idx : Nat) :
    (State.freeSram s what idx).mem = s.mem ∧ (State.freeSram s what idx).hostMem = s.hostMem := by
  simp [State.freeSram]
@[simp] theorem State.freeSram_mems (s : State) (what : Nat) (idx : Nat) : (State.freeSram s what idx).Mems ↔ s.Mems := by
  unfold State.Mems; rw [(State.freeSram_keeps s what idx).1, (State.freeSram_keeps s what idx).2]
@[simp] theorem State.send_keeps (s : State) (o : Out) :
    (State.send s o).mem = s.mem ∧ (State.send s o).hostMem = s.hostMem := by
  simp [State.send]
@[simp] theorem State.send_mems (s : State) (o : Out) : (State.send s o).Mems ↔ s.Mems := by
  unfold State.Mems; rw [(State.send_keeps s o).1, (State.send_keeps s o).2]


end Sys2Proof.Machine
end

