-- ==== Sys2Proof/Laws/MemOperands.lean ====
section
/-! SUPPORT. What the operations and meanings of Machine/Operands.lean do to the two memories: `_keeps` says that both stay as
they were, `_mems` that their canonical form is kept. -/

namespace Sys2Proof.Machine

@[simp] theorem State.setLatch_keeps (s : State) (p : Nat) (l : Option Latch) :
    (State.setLatch s p l).mem = s.mem ∧ (State.setLatch s p l).hostMem = s.hostMem := by
  unfold State.setLatch; (repeat' split) <;> simp
@[simp] theorem State.setLatch_mems (s : State) (p : Nat) (l : Option Latch) : (State.setLatch s p l).Mems ↔ s.Mems := by
  unfold State.Mems; rw [(State.setLatch_keeps s p l).1, (State.setLatch_keeps s p l).2]
@[simp] theorem State.toStage_keeps (s : State) (p : Nat) (g : Stage) :
    (State.toStage s p g).mem = s.mem ∧ (State.toStage s p g).hostMem = s.hostMem := by
  unfold State.toStage; split <;> simp
@[simp] theorem State.toStage_mems (s : State) (p : Nat) (g : Stage) : (State.toStage s p g).Mems ↔ s.Mems := by
  unfold State.Mems; rw [(State.toStage_keeps s p g).1, (State.toStage_keeps s p g).2]
@[simp] theorem State.answer_keeps (s : State) (p : Nat) (r : Resp) :
    (State.answer s p r).mem = s.mem ∧ (State.answer s p r).hostMem = s.hostMem := by
  simp [State.answer]
@[simp] theorem State.answer_mems (s : State) (p : Nat) (r : Resp) : (State.answer s p r).Mems ↔ s.Mems := by
  unfold State.Mems; rw [(State.answer_keeps s p r).1, (State.answer_keeps s p r).2]
@[simp] theorem State.answerErr_keeps (s : State) (p : Nat) (e : CErr) (g : BitVec 16) :
    (State.answerErr s p e g).mem = s.mem ∧ (State.answerErr s p e g).hostMem = s.hostMem := by
  simp [State.answerErr]
@[simp] theorem State.answerErr_mems (s : State) (p : Nat) (e : CErr) (g : BitVec 16) : (State.answerErr s p e g).Mems ↔ s.Mems := by
  unfold State.Mems; rw [(State.answerErr_keeps s p e g).1, (State.answerErr_keeps s p e g).2]
@[simp] theorem State.countDmaErr_keeps (s : State) (f : Nat) :
    (State.countDmaErr s f).mem = s.mem ∧ (State.countDmaErr s f).hostMem = s.hostMem := by
  simp [State.countDmaErr]
@[simp] theorem State.countDmaErr_mems (s : State) (f : Nat) : (State.countDmaErr s f).Mems ↔ s.Mems := by
  unfold State.Mems; rw [(State.countDmaErr_keeps s f).1, (State.countDmaErr_keeps s f).2]
@[simp] theorem State.logAer_keeps (s : State) (f : Nat) (b : Nat) :
    (State.logAer s f b).mem = s.mem ∧ (State.logAer s f b).hostMem = s.hostMem := by
  simp [State.logAer]
@[simp] theorem State.logAer_mems (s : State) (f : Nat) (b : Nat) : (State.logAer s f b).Mems ↔ s.Mems := by
  unfold State.Mems; rw [(State.logAer_keeps s f b).1, (State.logAer_keeps s f b).2]
@[simp] theorem State.fetchFailed_keeps (s : State) (p : Nat) (d : Option Sys2Proof.Bytes) :
    (State.fetchFailed s p d).mem = s.mem ∧ (State.fetchFailed s p d).hostMem = s.hostMem := by
  simp [State.fetchFailed]
@[simp] theorem State.fetchFailed_mems (s : State) (p : Nat) (d : Option Sys2Proof.Bytes) : (State.fetchFailed s p d).Mems ↔ s.Mems := by
  unfold State.Mems; rw [(State.fetchFailed_keeps s p d).1, (State.fetchFailed_keeps s p d).2]
@[simp] theorem State.sendDatagram_keeps (s : State) (kind : Nat) (seg : Nat) (addr : Nat) (port : Nat) (payload : Sys2Proof.Bytes) :
    (State.sendDatagram s kind seg addr port payload).mem = s.mem ∧ (State.sendDatagram s kind seg addr port payload).hostMem = s.hostMem := by
  simp [State.sendDatagram]
@[simp] theorem State.sendDatagram_mems (s : State) (kind : Nat) (seg : Nat) (addr : Nat) (port : Nat) (payload : Sys2Proof.Bytes) : (State.sendDatagram s kind seg addr port payload).Mems ↔ s.Mems := by
  unfold State.Mems; rw [(State.sendDatagram_keeps s kind seg addr port payload).1, (State.sendDatagram_keeps s kind seg addr port payload).2]
@[simp] theorem State.sendWrites_keeps (s : State) (a : Nat) (b : Sys2Proof.Bytes) (x3 : Nat) :
    (State.sendWrites s a b x3).mem = s.mem ∧ (State.sendWrites s a b x3).hostMem = s.hostMem := by
  fun_induction State.sendWrites s a b x3 <;> simp_all
@[simp] theorem State.sendWrites_mems (s : State) (a : Nat) (b : Sys2Proof.Bytes) (x3 : Nat) : (State.sendWrites s a b x3).Mems ↔ s.Mems := by
  unfold State.Mems; rw [(State.sendWrites_keeps s a b x3).1, (State.sendWrites_keeps s a b x3).2]
theorem State.dmaWrite_mems (s t : State) (f a : Nat) (b : Bytes) (h : s.dmaWrite f a b = some t) (hs : s.Mems) : t.Mems := by
  unfold State.dmaWrite at h
  split at h
  · simp only [Option.some.injEq] at h; subst h; simpa using hs
  · split at h
    · simp only [Option.some.injEq] at h; subst h; exact ⟨hs.1, wf_writeBytes _ _ _ hs.2⟩
    · simp at h
theorem State.dmaWrite_mem (s t : State) (f a : Nat) (b : Bytes) (h : s.dmaWrite f a b = some t) : t.mem = s.mem := by
  unfold State.dmaWrite at h
  split at h
  · simp only [Option.some.injEq] at h; subst h; simp
  · split at h
    · simp only [Option.some.injEq] at h; subst h; rfl
    · simp at h


end Sys2Proof.Machine
end

