-- ==== Sys2Proof/Laws/MemPower.lean ====
section
/-! SUPPORT. What the operations and meanings of Machine/Power.lean do to the two memories: `_keeps` says that both stay as
they were, `_mems` that their canonical form is kept. -/

namespace Sys2Proof.Machine

/-- Every state that a page's outcome holds keeps both memories canonical. -/
def OutMems : PageOut → Prop
  | .done t _ => t.Mems
  | .accepted t => t.Mems
  | .doneGen t _ => t.Mems
  | .fail _ => True
  | .failWith t _ => t.Mems
  | .wait t => t.Mems
@[simp] theorem outMems_done (t : State) (b : Bytes) : OutMems (.done t b) = t.Mems := rfl
@[simp] theorem outMems_accepted (t : State) : OutMems (.accepted t) = t.Mems := rfl
@[simp] theorem outMems_doneGen (t : State) (g : BitVec 16) : OutMems (.doneGen t g) = t.Mems := rfl
@[simp] theorem outMems_fail (e : CErr) : OutMems (.fail e) = True := rfl
@[simp] theorem outMems_failWith (t : State) (e : CErr) : OutMems (.failWith t e) = t.Mems := rfl
@[simp] theorem outMems_wait (t : State) : OutMems (.wait t) = t.Mems := rfl
def BodyMems (b : PageBody) : Prop := ∀ c d t, t.Mems → OutMems (b c d t)
theorem runPage_mems (op : Nat) (b : PageBody) (p : Nat) (s : State) (hb : BodyMems b) (h : s.Mems) : (runPage op b p s).Mems := by
  unfold runPage
  split
  · next l _ =>
    dsimp only
    split
    · split
      · split
        · have := hb l.cmd none s h
          cases e : b l.cmd none s <;> simp_all
        · exact h
      · next d _ =>
        have := hb l.cmd (some d) s h
        cases e : b l.cmd (some d) s <;> simp_all
      · exact h
    · exact h
  · exact h
theorem plainPage_mems (k : Cmd → State → Check) (a : Cmd → State → State × Bytes) (ha : ∀ c t, t.Mems → (a c t).1.Mems) :
    BodyMems (plainPage k a) := by
  intro c d t ht
  unfold plainPage
  split
  · simp
  · simpa using ha c t ht
/-- Every state of a page's outcome has the memories of the given one. -/
def OutKeeps (s : State) : PageOut → Prop
  | .done t _ => t.mem = s.mem ∧ t.hostMem = s.hostMem
  | .accepted t => t.mem = s.mem ∧ t.hostMem = s.hostMem
  | .doneGen t _ => t.mem = s.mem ∧ t.hostMem = s.hostMem
  | .fail _ => True
  | .failWith t _ => t.mem = s.mem ∧ t.hostMem = s.hostMem
  | .wait t => t.mem = s.mem ∧ t.hostMem = s.hostMem
@[simp] theorem outKeeps_done (s t : State) (b : Bytes) : OutKeeps s (.done t b) = (t.mem = s.mem ∧ t.hostMem = s.hostMem) := rfl
@[simp] theorem outKeeps_accepted (s t : State) : OutKeeps s (.accepted t) = (t.mem = s.mem ∧ t.hostMem = s.hostMem) := rfl
@[simp] theorem outKeeps_doneGen (s t : State) (g : BitVec 16) : OutKeeps s (.doneGen t g) = (t.mem = s.mem ∧ t.hostMem = s.hostMem) := rfl
@[simp] theorem outKeeps_fail (s : State) (e : CErr) : OutKeeps s (.fail e) = True := rfl
@[simp] theorem outKeeps_failWith (s t : State) (e : CErr) : OutKeeps s (.failWith t e) = (t.mem = s.mem ∧ t.hostMem = s.hostMem) := rfl
@[simp] theorem outKeeps_wait (s t : State) : OutKeeps s (.wait t) = (t.mem = s.mem ∧ t.hostMem = s.hostMem) := rfl
def BodyKeeps (b : PageBody) : Prop := ∀ c d t, OutKeeps t (b c d t)
theorem runPage_keeps (op : Nat) (b : PageBody) (p : Nat) (s : State) (hb : BodyKeeps b) :
    (runPage op b p s).mem = s.mem ∧ (runPage op b p s).hostMem = s.hostMem := by
  unfold runPage
  split
  · next l _ =>
    dsimp only
    split
    · split
      · split
        · have := hb l.cmd none s
          cases e : b l.cmd none s <;> simp_all
        · exact ⟨rfl, rfl⟩
      · next d _ =>
        have := hb l.cmd (some d) s
        cases e : b l.cmd (some d) s <;> simp_all
      · exact ⟨rfl, rfl⟩
    · exact ⟨rfl, rfl⟩
  · exact ⟨rfl, rfl⟩
theorem plainPage_keeps (k : Cmd → State → Check) (a : Cmd → State → State × Bytes)
    (ha : ∀ c t, (a c t).1.mem = t.mem ∧ (a c t).1.hostMem = t.hostMem) : BodyKeeps (plainPage k a) := by
  intro c d t
  unfold plainPage
  split
  · simp
  · simpa using ha c t
@[simp] theorem State.setDom_keeps (s : State) (d : Nat) (up : Bool) :
    (State.setDom s d up).mem = s.mem ∧ (State.setDom s d up).hostMem = s.hostMem := by
  simp [State.setDom]
@[simp] theorem State.setDom_mems (s : State) (d : Nat) (up : Bool) : (State.setDom s d up).Mems ↔ s.Mems := by
  unfold State.Mems; rw [(State.setDom_keeps s d up).1, (State.setDom_keeps s d up).2]
@[simp] theorem State.setGate_keeps (s : State) (d : Nat) (closed : Bool) (iso : Bool) :
    (State.setGate s d closed iso).mem = s.mem ∧ (State.setGate s d closed iso).hostMem = s.hostMem := by
  simp [State.setGate]
@[simp] theorem State.setGate_mems (s : State) (d : Nat) (closed : Bool) (iso : Bool) : (State.setGate s d closed iso).Mems ↔ s.Mems := by
  unfold State.Mems; rw [(State.setGate_keeps s d closed iso).1, (State.setGate_keeps s d closed iso).2]
@[simp] theorem State.emitPower_keeps (s : State) (r : PowerRec) :
    (State.emitPower s r).mem = s.mem ∧ (State.emitPower s r).hostMem = s.hostMem := by
  simp [State.emitPower]
@[simp] theorem State.emitPower_mems (s : State) (r : PowerRec) : (State.emitPower s r).Mems ↔ s.Mems := by
  unfold State.Mems; rw [(State.emitPower_keeps s r).1, (State.emitPower_keeps s r).2]
@[simp] theorem State.wokeVir_keeps (s : State) :
    (State.wokeVir s).mem = s.mem ∧ (State.wokeVir s).hostMem = s.hostMem := by
  simp [State.wokeVir]
@[simp] theorem State.wokeVir_mems (s : State) : (State.wokeVir s).Mems ↔ s.Mems := by
  unfold State.Mems; rw [(State.wokeVir_keeps s).1, (State.wokeVir_keeps s).2]
@[simp] theorem State.powerUp_keeps (s : State) (d : Nat) (cause : Nat) :
    (State.powerUp s d cause).mem = s.mem ∧ (State.powerUp s d cause).hostMem = s.hostMem := by
  simp [State.powerUp]
@[simp] theorem State.powerUp_mems (s : State) (d : Nat) (cause : Nat) : (State.powerUp s d cause).Mems ↔ s.Mems := by
  unfold State.Mems; rw [(State.powerUp_keeps s d cause).1, (State.powerUp_keeps s d cause).2]
@[simp] theorem State.touch_keeps (s : State) (d : Nat) :
    (State.touch s d).mem = s.mem ∧ (State.touch s d).hostMem = s.hostMem := by
  simp [State.touch]
@[simp] theorem State.touch_mems (s : State) (d : Nat) : (State.touch s d).Mems ↔ s.Mems := by
  unfold State.Mems; rw [(State.touch_keeps s d).1, (State.touch_keeps s d).2]


end Sys2Proof.Machine
end

