-- ==== Sys2Proof/Laws/MemGuard.lean ====
section
/-! SUPPORT. What the operations and meanings of Machine/Guard.lean do to the two memories: `_keeps` says that both stay as
they were, `_mems` that their canonical form is kept. -/

namespace Sys2Proof.Machine

@[simp] theorem State.countViolation_keeps (s : State) (g : Nat) (cause : Nat) (a : Nat) (m : Nat) :
    (State.countViolation s g cause a m).mem = s.mem ∧ (State.countViolation s g cause a m).hostMem = s.hostMem := by
  unfold State.countViolation; (repeat' split) <;> simp
@[simp] theorem State.countViolation_mems (s : State) (g : Nat) (cause : Nat) (a : Nat) (m : Nat) : (State.countViolation s g cause a m).Mems ↔ s.Mems := by
  unfold State.Mems; rw [(State.countViolation_keeps s g cause a m).1, (State.countViolation_keeps s g cause a m).2]
@[simp] theorem State.deny_keeps (s : State) (a : Nat) (m : Nat) (wr : Bool) (cause : Nat) :
    (State.deny s a m wr cause).mem = s.mem ∧ (State.deny s a m wr cause).hostMem = s.hostMem := by
  simp [State.deny]
@[simp] theorem State.deny_mems (s : State) (a : Nat) (m : Nat) (wr : Bool) (cause : Nat) : (State.deny s a m wr cause).Mems ↔ s.Mems := by
  unfold State.Mems; rw [(State.deny_keeps s a m wr cause).1, (State.deny_keeps s a m wr cause).2]
@[simp] theorem State.guarded_keeps (s : State) (a : Nat) (m : Nat) (wr : Bool) :
    (State.guarded s a m wr).1.mem = s.mem ∧ (State.guarded s a m wr).1.hostMem = s.hostMem := by
  unfold State.guarded; split <;> simp
@[simp] theorem State.guarded_mems (s : State) (a : Nat) (m : Nat) (wr : Bool) : (State.guarded s a m wr).1.Mems ↔ s.Mems := by
  unfold State.Mems; rw [(State.guarded_keeps s a m wr).1, (State.guarded_keeps s a m wr).2]
@[simp] theorem State.masterWrite_mems (s : State) (m : Nat) (a : Nat) (b : Bytes) (h : s.Mems) : (State.masterWrite s m a b).Mems := by
  unfold State.masterWrite; ((try dsimp only); repeat' split) <;> simp [h, h.1, h.2]
@[simp] theorem State.masterRead_keeps (s : State) (m : Nat) (a : Nat) (n : Nat) :
    (State.masterRead s m a n).1.mem = s.mem ∧ (State.masterRead s m a n).1.hostMem = s.hostMem := by
  unfold State.masterRead; ((try dsimp only); repeat' split) <;> simp
@[simp] theorem State.masterRead_mems (s : State) (m : Nat) (a : Nat) (n : Nat) : (State.masterRead s m a n).1.Mems ↔ s.Mems := by
  unfold State.Mems; rw [(State.masterRead_keeps s m a n).1, (State.masterRead_keeps s m a n).2]
@[simp] theorem State.masterClear_mems (s : State) (m : Nat) (a : Nat) (n : Nat) (h : s.Mems) : (State.masterClear s m a n).Mems := by
  unfold State.masterClear; ((try dsimp only); repeat' split) <;> simp [h, h.1, h.2]
@[simp] theorem State.forMemory_keeps (s : State) (a : Nat) :
    (State.forMemory s a).1.mem = s.mem ∧ (State.forMemory s a).1.hostMem = s.hostMem := by
  simp [State.forMemory]
@[simp] theorem State.forMemory_mems (s : State) (a : Nat) : (State.forMemory s a).1.Mems ↔ s.Mems := by
  unfold State.Mems; rw [(State.forMemory_keeps s a).1, (State.forMemory_keeps s a).2]
@[simp] theorem State.blockWrite_mems (s : State) (m : Nat) (a : Nat) (b : Bytes) (h : s.Mems) : (State.blockWrite s m a b).Mems := by
  unfold State.blockWrite; ((try dsimp only); repeat' split) <;> simp [h, h.1, h.2]
@[simp] theorem State.blockRead_keeps (s : State) (m : Nat) (a : Nat) (n : Nat) :
    (State.blockRead s m a n).1.mem = s.mem ∧ (State.blockRead s m a n).1.hostMem = s.hostMem := by
  unfold State.blockRead; ((try dsimp only); repeat' split) <;> simp
@[simp] theorem State.blockRead_mems (s : State) (m : Nat) (a : Nat) (n : Nat) : (State.blockRead s m a n).1.Mems ↔ s.Mems := by
  unfold State.Mems; rw [(State.blockRead_keeps s m a n).1, (State.blockRead_keeps s m a n).2]
@[simp] theorem State.dmaAsk_keeps (s : State) (p : Nat) (a : Nat) (len : Nat) :
    (State.dmaAsk s p a len).mem = s.mem ∧ (State.dmaAsk s p a len).hostMem = s.hostMem := by
  simp [State.dmaAsk]
@[simp] theorem State.dmaAsk_mems (s : State) (p : Nat) (a : Nat) (len : Nat) : (State.dmaAsk s p a len).Mems ↔ s.Mems := by
  unfold State.Mems; rw [(State.dmaAsk_keeps s p a len).1, (State.dmaAsk_keeps s p a len).2]
@[simp] theorem State.blockClear_mems (s : State) (m : Nat) (a : Nat) (n : Nat) (h : s.Mems) : (State.blockClear s m a n).Mems := by
  unfold State.blockClear; ((try dsimp only); repeat' split) <;> simp [h, h.1, h.2]
@[simp] theorem actAccessSet_keeps (c : Cmd) (s : State) :
    (actAccessSet c s).1.mem = s.mem ∧ (actAccessSet c s).1.hostMem = s.hostMem := by
  simp [actAccessSet]
@[simp] theorem actAccessSet_mems (c : Cmd) (s : State) : (actAccessSet c s).1.Mems ↔ s.Mems := by
  unfold State.Mems; rw [(actAccessSet_keeps c s).1, (actAccessSet_keeps c s).2]
@[simp] theorem State.clearFaults_keeps (s : State) (mask : Nat) :
    (State.clearFaults s mask).mem = s.mem ∧ (State.clearFaults s mask).hostMem = s.hostMem := by
  simp [State.clearFaults]
@[simp] theorem State.clearFaults_mems (s : State) (mask : Nat) : (State.clearFaults s mask).Mems ↔ s.Mems := by
  unfold State.Mems; rw [(State.clearFaults_keeps s mask).1, (State.clearFaults_keeps s mask).2]
@[simp] theorem execGrdEntryWrite_keeps (g : Nat) (i : Nat) (word : Nat) (v : Sys2Proof.Word) (s : State) : ResKeeps s (execGrdEntryWrite g i word v s) := by
  simp [execGrdEntryWrite]
@[simp] theorem execGrdEntryWrite_mems (g : Nat) (i : Nat) (word : Nat) (v : Sys2Proof.Word) (s : State) (h : s.Mems) : ResMems (execGrdEntryWrite g i word v s) := (execGrdEntryWrite_keeps g i word v s).mems h
@[simp] theorem execGrdFaultLatchClear_keeps (g : Nat) (v : Sys2Proof.Word) (s : State) : ResKeeps s (execGrdFaultLatchClear g v s) := by
  simp [execGrdFaultLatchClear]
@[simp] theorem execGrdFaultLatchClear_mems (g : Nat) (v : Sys2Proof.Word) (s : State) (h : s.Mems) : ResMems (execGrdFaultLatchClear g v s) := (execGrdFaultLatchClear_keeps g v s).mems h
@[simp] theorem execAccessSetEntry_keeps (p : Nat) (s : State) : ResKeeps s (execAccessSetEntry p s) := by
  unfold execAccessSetEntry; refine (resKeeps_next _ _).mpr (runPage_keeps _ _ _ _ ?_); refine plainPage_keeps _ _ ?_; intro c t; simp
@[simp] theorem execAccessSetEntry_mems (p : Nat) (s : State) (h : s.Mems) : ResMems (execAccessSetEntry p s) := (execAccessSetEntry_keeps p s).mems h
@[simp] theorem execAccessReadTable_mems (p : Nat) (s : State) (h : s.Mems) : ResMems (execAccessReadTable p s) := by
  unfold execAccessReadTable; refine (resMems_next _).mpr (runPage_mems _ _ _ _ ?_ h)
  intro c d t ht
  unfold accessReadBody
  dsimp only
  (repeat' split)
  all_goals first
    | exact ht
    | exact trivial
    | (simp [ht]; done)
    | (rename_i hw; have hd := State.dmaWrite_mems _ _ _ _ _ hw ht; simp [hd]; done)
    | (rename_i hw _; have hd := State.dmaWrite_mems _ _ _ _ _ hw ht; simp [hd]; done)
@[simp] theorem execAccessGetFaults_keeps (p : Nat) (s : State) : ResKeeps s (execAccessGetFaults p s) := by
  unfold execAccessGetFaults; refine (resKeeps_next _ _).mpr (runPage_keeps _ _ _ _ ?_); refine plainPage_keeps _ _ ?_; intro c t; simp
@[simp] theorem execAccessGetFaults_mems (p : Nat) (s : State) (h : s.Mems) : ResMems (execAccessGetFaults p s) := (execAccessGetFaults_keeps p s).mems h
@[simp] theorem execAccessCtxViolations_keeps (p : Nat) (s : State) : ResKeeps s (execAccessCtxViolations p s) := by
  unfold execAccessCtxViolations; refine (resKeeps_next _ _).mpr (runPage_keeps _ _ _ _ ?_); refine plainPage_keeps _ _ ?_; intro c t; simp
@[simp] theorem execAccessCtxViolations_mems (p : Nat) (s : State) (h : s.Mems) : ResMems (execAccessCtxViolations p s) := (execAccessCtxViolations_keeps p s).mems h


end Sys2Proof.Machine
end

