-- ==== Sys2Proof/Laws/MemAmber.lean ====
section
/-! SUPPORT. What the operations and meanings of Machine/Amber.lean do to the two memories: `_keeps` says that both stay as
they were, `_mems` that their canonical form is kept. -/

namespace Sys2Proof.Machine

@[simp] theorem State.modAmber_keeps (s : State) (f : Amber → Amber) :
    (State.modAmber s f).mem = s.mem ∧ (State.modAmber s f).hostMem = s.hostMem := by
  simp [State.modAmber]
@[simp] theorem State.modAmber_mems (s : State) (f : Amber → Amber) : (State.modAmber s f).Mems ↔ s.Mems := by
  unfold State.Mems; rw [(State.modAmber_keeps s f).1, (State.modAmber_keeps s f).2]
@[simp] theorem State.anchorReason_keeps (s : State) (f : Anchor → Anchor) :
    (State.anchorReason s f).mem = s.mem ∧ (State.anchorReason s f).hostMem = s.hostMem := by
  simp [State.anchorReason]
@[simp] theorem State.anchorReason_mems (s : State) (f : Anchor → Anchor) : (State.anchorReason s f).Mems ↔ s.Mems := by
  unfold State.Mems; rw [(State.anchorReason_keeps s f).1, (State.anchorReason_keeps s f).2]
@[simp] theorem State.emitAnchor_keeps (s : State) :
    (State.emitAnchor s).mem = s.mem ∧ (State.emitAnchor s).hostMem = s.hostMem := by
  unfold State.emitAnchor; split <;> simp
@[simp] theorem State.emitAnchor_mems (s : State) : (State.emitAnchor s).Mems ↔ s.Mems := by
  unfold State.Mems; rw [(State.emitAnchor_keeps s).1, (State.emitAnchor_keeps s).2]
@[simp] theorem State.setTimeState_keeps (s : State) (x : TimeState) :
    (State.setTimeState s x).mem = s.mem ∧ (State.setTimeState s x).hostMem = s.hostMem := by
  unfold State.setTimeState; split <;> simp
@[simp] theorem State.setTimeState_mems (s : State) (x : TimeState) : (State.setTimeState s x).Mems ↔ s.Mems := by
  unfold State.Mems; rw [(State.setTimeState_keeps s x).1, (State.setTimeState_keeps s x).2]
@[simp] theorem State.enterHoldover_keeps (s : State) :
    (State.enterHoldover s).mem = s.mem ∧ (State.enterHoldover s).hostMem = s.hostMem := by
  simp [State.enterHoldover]
@[simp] theorem State.enterHoldover_mems (s : State) : (State.enterHoldover s).Mems ↔ s.Mems := by
  unfold State.Mems; rw [(State.enterHoldover_keeps s).1, (State.enterHoldover_keeps s).2]
@[simp] theorem State.doStep_keeps (s : State) (target : Nat) :
    (State.doStep s target).mem = s.mem ∧ (State.doStep s target).hostMem = s.hostMem := by
  simp [State.doStep]
@[simp] theorem State.doStep_mems (s : State) (target : Nat) : (State.doStep s target).Mems ↔ s.Mems := by
  unfold State.Mems; rw [(State.doStep_keeps s target).1, (State.doStep_keeps s target).2]
@[simp] theorem State.slewTo_keeps (s : State) (ns : Int) :
    (State.slewTo s ns).mem = s.mem ∧ (State.slewTo s ns).hostMem = s.hostMem := by
  simp [State.slewTo]
@[simp] theorem State.slewTo_mems (s : State) (ns : Int) : (State.slewTo s ns).Mems ↔ s.Mems := by
  unfold State.Mems; rw [(State.slewTo_keeps s ns).1, (State.slewTo_keeps s ns).2]
@[simp] theorem State.putTarget_keeps (s : State) (ns : Nat) :
    (State.putTarget s ns).mem = s.mem ∧ (State.putTarget s ns).hostMem = s.hostMem := by
  simp [State.putTarget]
@[simp] theorem State.putTarget_mems (s : State) (ns : Nat) : (State.putTarget s ns).Mems ↔ s.Mems := by
  unfold State.Mems; rw [(State.putTarget_keeps s ns).1, (State.putTarget_keeps s ns).2]
@[simp] theorem State.epochStep_keeps (s : State) :
    (State.epochStep s).mem = s.mem ∧ (State.epochStep s).hostMem = s.hostMem := by
  simp [State.epochStep]
@[simp] theorem State.epochStep_mems (s : State) : (State.epochStep s).Mems ↔ s.Mems := by
  unfold State.Mems; rw [(State.epochStep_keeps s).1, (State.epochStep_keeps s).2]
@[simp] theorem State.ts32Wrap_keeps (s : State) :
    (State.ts32Wrap s).mem = s.mem ∧ (State.ts32Wrap s).hostMem = s.hostMem := by
  simp [State.ts32Wrap]
@[simp] theorem State.ts32Wrap_mems (s : State) : (State.ts32Wrap s).Mems ↔ s.Mems := by
  unfold State.Mems; rw [(State.ts32Wrap_keeps s).1, (State.ts32Wrap_keeps s).2]
@[simp] theorem State.anchorPeriod_keeps (s : State) :
    (State.anchorPeriod s).mem = s.mem ∧ (State.anchorPeriod s).hostMem = s.hostMem := by
  simp [State.anchorPeriod]
@[simp] theorem State.anchorPeriod_mems (s : State) : (State.anchorPeriod s).Mems ↔ s.Mems := by
  unfold State.Mems; rw [(State.anchorPeriod_keeps s).1, (State.anchorPeriod_keeps s).2]
@[simp] theorem State.slewComplete_keeps (s : State) :
    (State.slewComplete s).mem = s.mem ∧ (State.slewComplete s).hostMem = s.hostMem := by
  simp [State.slewComplete]
@[simp] theorem State.slewComplete_mems (s : State) : (State.slewComplete s).Mems ↔ s.Mems := by
  unfold State.Mems; rw [(State.slewComplete_keeps s).1, (State.slewComplete_keeps s).2]
@[simp] theorem State.servoApply_keeps (s : State) :
    (State.servoApply s).mem = s.mem ∧ (State.servoApply s).hostMem = s.hostMem := by
  unfold State.servoApply; (repeat' split) <;> simp
@[simp] theorem State.servoApply_mems (s : State) : (State.servoApply s).Mems ↔ s.Mems := by
  unfold State.Mems; rw [(State.servoApply_keeps s).1, (State.servoApply_keeps s).2]
@[simp] theorem State.settleClock_keeps (s : State) :
    (State.settleClock s).mem = s.mem ∧ (State.settleClock s).hostMem = s.hostMem := by
  simp [State.settleClock]
@[simp] theorem State.settleClock_mems (s : State) : (State.settleClock s).Mems ↔ s.Mems := by
  unfold State.Mems; rw [(State.settleClock_keeps s).1, (State.settleClock_keeps s).2]
@[simp] theorem State.servoOffset_keeps (s : State) (off : Int) :
    (State.servoOffset s off).mem = s.mem ∧ (State.servoOffset s off).hostMem = s.hostMem := by
  simp [State.servoOffset]
@[simp] theorem State.servoOffset_mems (s : State) (off : Int) : (State.servoOffset s off).Mems ↔ s.Mems := by
  unfold State.Mems; rw [(State.servoOffset_keeps s off).1, (State.servoOffset_keeps s off).2]
@[simp] theorem State.snapTake_keeps (s : State) :
    (State.snapTake s).mem = s.mem ∧ (State.snapTake s).hostMem = s.hostMem := by
  simp [State.snapTake]
@[simp] theorem State.snapTake_mems (s : State) : (State.snapTake s).Mems ↔ s.Mems := by
  unfold State.Mems; rw [(State.snapTake_keeps s).1, (State.snapTake_keeps s).2]
@[simp] theorem State.ppsSwitch_keeps (s : State) (k : Int) :
    (State.ppsSwitch s k).mem = s.mem ∧ (State.ppsSwitch s k).hostMem = s.hostMem := by
  unfold State.ppsSwitch; split <;> simp
@[simp] theorem State.ppsSwitch_mems (s : State) (k : Int) : (State.ppsSwitch s k).Mems ↔ s.Mems := by
  unfold State.Mems; rw [(State.ppsSwitch_keeps s k).1, (State.ppsSwitch_keeps s k).2]
@[simp] theorem State.ppsSecond_keeps (s : State) :
    (State.ppsSecond s).mem = s.mem ∧ (State.ppsSecond s).hostMem = s.hostMem := by
  unfold State.ppsSecond; split <;> simp
@[simp] theorem State.ppsSecond_mems (s : State) : (State.ppsSecond s).Mems ↔ s.Mems := by
  unfold State.Mems; rw [(State.ppsSecond_keeps s).1, (State.ppsSecond_keeps s).2]
@[simp] theorem State.ppsEnd_keeps (s : State) :
    (State.ppsEnd s).mem = s.mem ∧ (State.ppsEnd s).hostMem = s.hostMem := by
  simp [State.ppsEnd]
@[simp] theorem State.ppsEnd_mems (s : State) : (State.ppsEnd s).Mems ↔ s.Mems := by
  unfold State.Mems; rw [(State.ppsEnd_keeps s).1, (State.ppsEnd_keeps s).2]
@[simp] theorem State.ppsMissed_keeps (s : State) :
    (State.ppsMissed s).mem = s.mem ∧ (State.ppsMissed s).hostMem = s.hostMem := by
  unfold State.ppsMissed; split <;> simp
@[simp] theorem State.ppsMissed_mems (s : State) : (State.ppsMissed s).Mems ↔ s.Mems := by
  unfold State.Mems; rw [(State.ppsMissed_keeps s).1, (State.ppsMissed_keeps s).2]
@[simp] theorem State.setPtp_keeps (s : State) (n : Nat) (x : PtpPort) :
    (State.setPtp s n x).mem = s.mem ∧ (State.setPtp s n x).hostMem = s.hostMem := by
  simp [State.setPtp]
@[simp] theorem State.setPtp_mems (s : State) (n : Nat) (x : PtpPort) : (State.setPtp s n x).Mems ↔ s.Mems := by
  unfold State.Mems; rw [(State.setPtp_keeps s n x).1, (State.setPtp_keeps s n x).2]
@[simp] theorem State.enterPort_keeps (s : State) (n : Nat) (st : Nat) (steps : optParam Nat 1) :
    (State.enterPort s n st steps).mem = s.mem ∧ (State.enterPort s n st steps).hostMem = s.hostMem := by
  simp [State.enterPort]
@[simp] theorem State.enterPort_mems (s : State) (n : Nat) (st : Nat) (steps : optParam Nat 1) : (State.enterPort s n st steps).Mems ↔ s.Mems := by
  unfold State.Mems; rw [(State.enterPort_keeps s n st steps).1, (State.enterPort_keeps s n st steps).2]
@[simp] theorem State.runBmca_keeps (s : State) :
    (State.runBmca s).mem = s.mem ∧ (State.runBmca s).hostMem = s.hostMem := by
  simp [State.runBmca]
@[simp] theorem State.runBmca_mems (s : State) : (State.runBmca s).Mems ↔ s.Mems := by
  unfold State.Mems; rw [(State.runBmca_keeps s).1, (State.runBmca_keeps s).2]
@[simp] theorem State.restartBmca_keeps (s : State) :
    (State.restartBmca s).mem = s.mem ∧ (State.restartBmca s).hostMem = s.hostMem := by
  simp [State.restartBmca]
@[simp] theorem State.restartBmca_mems (s : State) : (State.restartBmca s).Mems ↔ s.Mems := by
  unfold State.Mems; rw [(State.restartBmca_keeps s).1, (State.restartBmca_keeps s).2]
@[simp] theorem State.startPtp_keeps (s : State) :
    (State.startPtp s).mem = s.mem ∧ (State.startPtp s).hostMem = s.hostMem := by
  simp [State.startPtp]
@[simp] theorem State.startPtp_mems (s : State) : (State.startPtp s).Mems ↔ s.Mems := by
  unfold State.Mems; rw [(State.startPtp_keeps s).1, (State.startPtp_keeps s).2]
@[simp] theorem State.masterTimeout_keeps (s : State) :
    (State.masterTimeout s).mem = s.mem ∧ (State.masterTimeout s).hostMem = s.hostMem := by
  unfold State.masterTimeout; (repeat' split) <;> simp
@[simp] theorem State.masterTimeout_mems (s : State) : (State.masterTimeout s).Mems ↔ s.Mems := by
  unfold State.Mems; rw [(State.masterTimeout_keeps s).1, (State.masterTimeout_keeps s).2]
@[simp] theorem State.portTimer_keeps (s : State) (n : Nat) :
    (State.portTimer s n).mem = s.mem ∧ (State.portTimer s n).hostMem = s.hostMem := by
  simp [State.portTimer]
@[simp] theorem State.portTimer_mems (s : State) (n : Nat) : (State.portTimer s n).Mems ↔ s.Mems := by
  unfold State.Mems; rw [(State.portTimer_keeps s n).1, (State.portTimer_keeps s n).2]
@[simp] theorem State.announceTimeout_keeps (s : State) :
    (State.announceTimeout s).mem = s.mem ∧ (State.announceTimeout s).hostMem = s.hostMem := by
  simp [State.announceTimeout]
@[simp] theorem State.announceTimeout_mems (s : State) : (State.announceTimeout s).Mems ↔ s.Mems := by
  unfold State.Mems; rw [(State.announceTimeout_keeps s).1, (State.announceTimeout_keeps s).2]
@[simp] theorem State.announceMaster_keeps (s : State) (n : Nat) :
    (State.announceMaster s n).mem = s.mem ∧ (State.announceMaster s n).hostMem = s.hostMem := by
  simp [State.announceMaster]
@[simp] theorem State.announceMaster_mems (s : State) (n : Nat) : (State.announceMaster s n).Mems ↔ s.Mems := by
  unfold State.Mems; rw [(State.announceMaster_keeps s n).1, (State.announceMaster_keeps s n).2]
@[simp] theorem State.settleAmber_keeps (s : State) :
    (State.settleAmber s).mem = s.mem ∧ (State.settleAmber s).hostMem = s.hostMem := by
  simp [State.settleAmber]
@[simp] theorem State.settleAmber_mems (s : State) : (State.settleAmber s).Mems ↔ s.Mems := by
  unfold State.Mems; rw [(State.settleAmber_keeps s).1, (State.settleAmber_keeps s).2]
@[simp] theorem State.advanceAmber_keeps (s : State) :
    (State.advanceAmber s).mem = s.mem ∧ (State.advanceAmber s).hostMem = s.hostMem := by
  simp [State.advanceAmber]
@[simp] theorem State.advanceAmber_mems (s : State) : (State.advanceAmber s).Mems ↔ s.Mems := by
  unfold State.Mems; rw [(State.advanceAmber_keeps s).1, (State.advanceAmber_keeps s).2]
@[simp] theorem execAmbSnap_keeps (v : Sys2Proof.Word) (s : State) : ResKeeps s (execAmbSnap v s) := by
  simp [execAmbSnap]
@[simp] theorem execAmbSnap_mems (v : Sys2Proof.Word) (s : State) (h : s.Mems) : ResMems (execAmbSnap v s) := (execAmbSnap_keeps v s).mems h
@[simp] theorem execAmbSlewReq_keeps (v : Sys2Proof.Word) (s : State) : ResKeeps s (execAmbSlewReq v s) := by
  simp [execAmbSlewReq]
@[simp] theorem execAmbSlewReq_mems (v : Sys2Proof.Word) (s : State) (h : s.Mems) : ResMems (execAmbSlewReq v s) := (execAmbSlewReq_keeps v s).mems h
@[simp] theorem execAmbStepCmd_keeps (v : Sys2Proof.Word) (s : State) : ResKeeps s (execAmbStepCmd v s) := by
  simp [execAmbStepCmd]
@[simp] theorem execAmbStepCmd_mems (v : Sys2Proof.Word) (s : State) (h : s.Mems) : ResMems (execAmbStepCmd v s) := (execAmbStepCmd_keeps v s).mems h
@[simp] theorem State.setCaps_keeps (s : State) (i : Nat) (l : List Capture) :
    (State.setCaps s i l).mem = s.mem ∧ (State.setCaps s i l).hostMem = s.hostMem := by
  simp [State.setCaps]
@[simp] theorem State.setCaps_mems (s : State) (i : Nat) (l : List Capture) : (State.setCaps s i l).Mems ↔ s.Mems := by
  unfold State.Mems; rw [(State.setCaps_keeps s i l).1, (State.setCaps_keeps s i l).2]
@[simp] theorem execAmbCapPop_keeps (input : Nat) (s : State) : ResKeeps s (execAmbCapPop input s) := by
  unfold execAmbCapPop; split <;> simp
@[simp] theorem execAmbCapPop_mems (input : Nat) (s : State) (h : s.Mems) : ResMems (execAmbCapPop input s) := (execAmbCapPop_keeps input s).mems h
@[simp] theorem execSlewComplete_keeps (s : State) : ResKeeps s (execSlewComplete s) := by
  simp [execSlewComplete]
@[simp] theorem execSlewComplete_mems (s : State) (h : s.Mems) : ResMems (execSlewComplete s) := (execSlewComplete_keeps s).mems h
@[simp] theorem execAnnounceTimeout_keeps (s : State) : ResKeeps s (execAnnounceTimeout s) := by
  simp [execAnnounceTimeout]
@[simp] theorem execAnnounceTimeout_mems (s : State) (h : s.Mems) : ResMems (execAnnounceTimeout s) := (execAnnounceTimeout_keeps s).mems h
@[simp] theorem execPpsInMissed_keeps (s : State) : ResKeeps s (execPpsInMissed s) := by
  simp [execPpsInMissed]
@[simp] theorem execPpsInMissed_mems (s : State) (h : s.Mems) : ResMems (execPpsInMissed s) := (execPpsInMissed_keeps s).mems h
@[simp] theorem execPpsOutSecond_keeps (s : State) : ResKeeps s (execPpsOutSecond s) := by
  simp [execPpsOutSecond]
@[simp] theorem execPpsOutSecond_mems (s : State) (h : s.Mems) : ResMems (execPpsOutSecond s) := (execPpsOutSecond_keeps s).mems h
@[simp] theorem execPpsOutPulseEnd_keeps (s : State) : ResKeeps s (execPpsOutPulseEnd s) := by
  simp [execPpsOutPulseEnd]
@[simp] theorem execPpsOutPulseEnd_mems (s : State) (h : s.Mems) : ResMems (execPpsOutPulseEnd s) := (execPpsOutPulseEnd_keeps s).mems h
@[simp] theorem State.capture_keeps (s : State) (input : Nat) (e : Sys2Proof.Edge) (t : Stamp) (src : Nat) :
    (State.capture s input e t src).mem = s.mem ∧ (State.capture s input e t src).hostMem = s.hostMem := by
  simp [State.capture]
@[simp] theorem State.capture_mems (s : State) (input : Nat) (e : Sys2Proof.Edge) (t : Stamp) (src : Nat) : (State.capture s input e t src).Mems ↔ s.Mems := by
  unfold State.Mems; rw [(State.capture_keeps s input e t src).1, (State.capture_keeps s input e t src).2]
@[simp] theorem execPpsInEdge_keeps (e : Sys2Proof.Edge) (ns : Nat) (s : State) : ResKeeps s (execPpsInEdge e ns s) := by
  simp [execPpsInEdge]
@[simp] theorem execPpsInEdge_mems (e : Sys2Proof.Edge) (ns : Nat) (s : State) (h : s.Mems) : ResMems (execPpsInEdge e ns s) := (execPpsInEdge_keeps e ns s).mems h
@[simp] theorem execTsCaptureEdge_keeps (input : Nat) (e : Sys2Proof.Edge) (ns : Nat) (s : State) : ResKeeps s (execTsCaptureEdge input e ns s) := by
  simp [execTsCaptureEdge]
@[simp] theorem execTsCaptureEdge_mems (input : Nat) (e : Sys2Proof.Edge) (ns : Nat) (s : State) (h : s.Mems) : ResMems (execTsCaptureEdge input e ns s) := (execTsCaptureEdge_keeps input e ns s).mems h
@[simp] theorem State.ptpIgnore_keeps (s : State) (n : Nat) :
    (State.ptpIgnore s n).mem = s.mem ∧ (State.ptpIgnore s n).hostMem = s.hostMem := by
  simp [State.ptpIgnore]
@[simp] theorem State.ptpIgnore_mems (s : State) (n : Nat) : (State.ptpIgnore s n).Mems ↔ s.Mems := by
  unfold State.Mems; rw [(State.ptpIgnore_keeps s n).1, (State.ptpIgnore_keeps s n).2]
@[simp] theorem State.syncOffset_keeps (s : State) (n : Nat) (t1 : Int) (corr : Int) (t2 : Int) :
    (State.syncOffset s n t1 corr t2).mem = s.mem ∧ (State.syncOffset s n t1 corr t2).hostMem = s.hostMem := by
  simp [State.syncOffset]
@[simp] theorem State.syncOffset_mems (s : State) (n : Nat) (t1 : Int) (corr : Int) (t2 : Int) : (State.syncOffset s n t1 corr t2).Mems ↔ s.Mems := by
  unfold State.Mems; rw [(State.syncOffset_keeps s n t1 corr t2).1, (State.syncOffset_keeps s n t1 corr t2).2]
@[simp] theorem State.ptpReject_keeps (s : State) (m : Sys2Proof.PtpMsg) :
    (State.ptpReject s m).mem = s.mem ∧ (State.ptpReject s m).hostMem = s.hostMem := by
  simp [State.ptpReject]
@[simp] theorem State.ptpReject_mems (s : State) (m : Sys2Proof.PtpMsg) : (State.ptpReject s m).Mems ↔ s.Mems := by
  unfold State.Mems; rw [(State.ptpReject_keeps s m).1, (State.ptpReject_keeps s m).2]
@[simp] theorem State.ptpTransit_keeps (s : State) (m : Sys2Proof.PtpMsg) :
    (State.ptpTransit s m).mem = s.mem ∧ (State.ptpTransit s m).hostMem = s.hostMem := by
  simp [State.ptpTransit]
@[simp] theorem State.ptpTransit_mems (s : State) (m : Sys2Proof.PtpMsg) : (State.ptpTransit s m).Mems ↔ s.Mems := by
  unfold State.Mems; rw [(State.ptpTransit_keeps s m).1, (State.ptpTransit_keeps s m).2]
@[simp] theorem State.ptpSync_keeps (s : State) (m : Sys2Proof.PtpMsg) :
    (State.ptpSync s m).mem = s.mem ∧ (State.ptpSync s m).hostMem = s.hostMem := by
  simp [State.ptpSync]
@[simp] theorem State.ptpSync_mems (s : State) (m : Sys2Proof.PtpMsg) : (State.ptpSync s m).Mems ↔ s.Mems := by
  unfold State.Mems; rw [(State.ptpSync_keeps s m).1, (State.ptpSync_keeps s m).2]
@[simp] theorem State.ptpReceive_keeps (s : State) (m : Sys2Proof.PtpMsg) :
    (State.ptpReceive s m).mem = s.mem ∧ (State.ptpReceive s m).hostMem = s.hostMem := by
  unfold State.ptpReceive; constructor <;> ((try dsimp only); repeat' split) <;> simp
@[simp] theorem State.ptpReceive_mems (s : State) (m : Sys2Proof.PtpMsg) : (State.ptpReceive s m).Mems ↔ s.Mems := by
  unfold State.Mems; rw [(State.ptpReceive_keeps s m).1, (State.ptpReceive_keeps s m).2]
@[simp] theorem workSyncReceived_keeps (m : Sys2Proof.PtpMsg) (s : State) : ResKeeps s (workSyncReceived m s) := by
  simp [workSyncReceived]
@[simp] theorem workSyncReceived_mems (m : Sys2Proof.PtpMsg) (s : State) (h : s.Mems) : ResMems (workSyncReceived m s) := (workSyncReceived_keeps m s).mems h
@[simp] theorem workPtpMessageReceived_keeps (m : Sys2Proof.PtpMsg) (s : State) : ResKeeps s (workPtpMessageReceived m s) := by
  simp [workPtpMessageReceived]
@[simp] theorem workPtpMessageReceived_mems (m : Sys2Proof.PtpMsg) (s : State) (h : s.Mems) : ResMems (workPtpMessageReceived m s) := (workPtpMessageReceived_keeps m s).mems h
@[simp] theorem State.hearAnnounce_keeps (s : State) (m : Sys2Proof.Announce) :
    (State.hearAnnounce s m).mem = s.mem ∧ (State.hearAnnounce s m).hostMem = s.hostMem := by
  simp [State.hearAnnounce]
@[simp] theorem State.hearAnnounce_mems (s : State) (m : Sys2Proof.Announce) : (State.hearAnnounce s m).Mems ↔ s.Mems := by
  unfold State.Mems; rw [(State.hearAnnounce_keeps s m).1, (State.hearAnnounce_keeps s m).2]
@[simp] theorem State.forwardAnnounce_keeps (s : State) (m : Sys2Proof.Announce) :
    (State.forwardAnnounce s m).mem = s.mem ∧ (State.forwardAnnounce s m).hostMem = s.hostMem := by
  simp [State.forwardAnnounce]
@[simp] theorem State.forwardAnnounce_mems (s : State) (m : Sys2Proof.Announce) : (State.forwardAnnounce s m).Mems ↔ s.Mems := by
  unfold State.Mems; rw [(State.forwardAnnounce_keeps s m).1, (State.forwardAnnounce_keeps s m).2]
@[simp] theorem workAnnounceReceived_keeps (m : Sys2Proof.Announce) (s : State) : ResKeeps s (workAnnounceReceived m s) := by
  simp [workAnnounceReceived]
@[simp] theorem workAnnounceReceived_mems (m : Sys2Proof.Announce) (s : State) (h : s.Mems) : ResMems (workAnnounceReceived m s) := (workAnnounceReceived_keeps m s).mems h
@[simp] theorem State.ptpForwarded_keeps (s : State) (m : Sys2Proof.PtpTx) :
    (State.ptpForwarded s m).mem = s.mem ∧ (State.ptpForwarded s m).hostMem = s.hostMem := by
  unfold State.ptpForwarded; ((try dsimp only); repeat' split) <;> simp
@[simp] theorem State.ptpForwarded_mems (s : State) (m : Sys2Proof.PtpTx) : (State.ptpForwarded s m).Mems ↔ s.Mems := by
  unfold State.Mems; rw [(State.ptpForwarded_keeps s m).1, (State.ptpForwarded_keeps s m).2]
@[simp] theorem State.ptpOwn_keeps (s : State) (m : Sys2Proof.PtpTx) :
    (State.ptpOwn s m).mem = s.mem ∧ (State.ptpOwn s m).hostMem = s.hostMem := by
  unfold State.ptpOwn; ((try dsimp only); repeat' split) <;> simp
@[simp] theorem State.ptpOwn_mems (s : State) (m : Sys2Proof.PtpTx) : (State.ptpOwn s m).Mems ↔ s.Mems := by
  unfold State.Mems; rw [(State.ptpOwn_keeps s m).1, (State.ptpOwn_keeps s m).2]
@[simp] theorem workPtpEventTransmit_keeps (m : Sys2Proof.PtpTx) (s : State) : ResKeeps s (workPtpEventTransmit m s) := by
  unfold workPtpEventTransmit; ((try dsimp only); repeat' split) <;> simp
@[simp] theorem workPtpEventTransmit_mems (m : Sys2Proof.PtpTx) (s : State) (h : s.Mems) : ResMems (workPtpEventTransmit m s) := (workPtpEventTransmit_keeps m s).mems h
@[simp] theorem execTimeGet_keeps (p : Nat) (s : State) : ResKeeps s (execTimeGet p s) := by
  unfold execTimeGet; refine (resKeeps_next _ _).mpr (runPage_keeps _ _ _ _ ?_); refine plainPage_keeps _ _ ?_; intro c t; simp
@[simp] theorem execTimeGet_mems (p : Nat) (s : State) (h : s.Mems) : ResMems (execTimeGet p s) := (execTimeGet_keeps p s).mems h
@[simp] theorem State.setServo_keeps (s : State) (ref : Nat) (ty : Nat) (pr1 : Nat) (pr2 : Nat) (dom : Nat) (thr : Nat) :
    (State.setServo s ref ty pr1 pr2 dom thr).mem = s.mem ∧ (State.setServo s ref ty pr1 pr2 dom thr).hostMem = s.hostMem := by
  simp [State.setServo]
@[simp] theorem State.setServo_mems (s : State) (ref : Nat) (ty : Nat) (pr1 : Nat) (pr2 : Nat) (dom : Nat) (thr : Nat) : (State.setServo s ref ty pr1 pr2 dom thr).Mems ↔ s.Mems := by
  unfold State.Mems; rw [(State.setServo_keeps s ref ty pr1 pr2 dom thr).1, (State.setServo_keeps s ref ty pr1 pr2 dom thr).2]
@[simp] theorem execTimeSetServo_keeps (p : Nat) (s : State) : ResKeeps s (execTimeSetServo p s) := by
  unfold execTimeSetServo; refine (resKeeps_next _ _).mpr (runPage_keeps _ _ _ _ ?_); refine plainPage_keeps _ _ ?_; intro c t; simp
@[simp] theorem execTimeSetServo_mems (p : Nat) (s : State) (h : s.Mems) : ResMems (execTimeSetServo p s) := (execTimeSetServo_keeps p s).mems h
@[simp] theorem State.setPtpPort_keeps (s : State) (b : Bytes) :
    (State.setPtpPort s b).mem = s.mem ∧ (State.setPtpPort s b).hostMem = s.hostMem := by
  simp [State.setPtpPort]
@[simp] theorem State.setPtpPort_mems (s : State) (b : Bytes) : (State.setPtpPort s b).Mems ↔ s.Mems := by
  unfold State.Mems; rw [(State.setPtpPort_keeps s b).1, (State.setPtpPort_keeps s b).2]
@[simp] theorem execPtpSetPort_keeps (p : Nat) (s : State) : ResKeeps s (execPtpSetPort p s) := by
  unfold execPtpSetPort; refine (resKeeps_next _ _).mpr (runPage_keeps _ _ _ _ ?_); refine plainPage_keeps _ _ ?_; intro c t; simp
@[simp] theorem execPtpSetPort_mems (p : Nat) (s : State) (h : s.Mems) : ResMems (execPtpSetPort p s) := (execPtpSetPort_keeps p s).mems h
@[simp] theorem State.timeStep_keeps (s : State) (sec : Nat) (ns : Nat) :
    (State.timeStep s sec ns).mem = s.mem ∧ (State.timeStep s sec ns).hostMem = s.hostMem := by
  simp [State.timeStep]
@[simp] theorem State.timeStep_mems (s : State) (sec : Nat) (ns : Nat) : (State.timeStep s sec ns).Mems ↔ s.Mems := by
  unfold State.Mems; rw [(State.timeStep_keeps s sec ns).1, (State.timeStep_keeps s sec ns).2]
@[simp] theorem execTimeStep_keeps (p : Nat) (s : State) : ResKeeps s (execTimeStep p s) := by
  unfold execTimeStep; refine (resKeeps_next _ _).mpr (runPage_keeps _ _ _ _ ?_); refine plainPage_keeps _ _ ?_; intro c t; simp
@[simp] theorem execTimeStep_mems (p : Nat) (s : State) (h : s.Mems) : ResMems (execTimeStep p s) := (execTimeStep_keeps p s).mems h
@[simp] theorem State.setPins_keeps (s : State) (b : Bytes) :
    (State.setPins s b).mem = s.mem ∧ (State.setPins s b).hostMem = s.hostMem := by
  simp [State.setPins]
@[simp] theorem State.setPins_mems (s : State) (b : Bytes) : (State.setPins s b).Mems ↔ s.Mems := by
  unfold State.Mems; rw [(State.setPins_keeps s b).1, (State.setPins_keeps s b).2]
@[simp] theorem execTimeSetPins_keeps (p : Nat) (s : State) : ResKeeps s (execTimeSetPins p s) := by
  unfold execTimeSetPins; refine (resKeeps_next _ _).mpr (runPage_keeps _ _ _ _ ?_); refine plainPage_keeps _ _ ?_; intro c t; simp
@[simp] theorem execTimeSetPins_mems (p : Nat) (s : State) (h : s.Mems) : ResMems (execTimeSetPins p s) := (execTimeSetPins_keeps p s).mems h
@[simp] theorem State.readCaptures_keeps (s : State) (i : Nat) (n : Nat) :
    (State.readCaptures s i n).1.mem = s.mem ∧ (State.readCaptures s i n).1.hostMem = s.hostMem := by
  simp [State.readCaptures]
@[simp] theorem State.readCaptures_mems (s : State) (i : Nat) (n : Nat) : (State.readCaptures s i n).1.Mems ↔ s.Mems := by
  unfold State.Mems; rw [(State.readCaptures_keeps s i n).1, (State.readCaptures_keeps s i n).2]
@[simp] theorem execTimeReadCaptures_keeps (p : Nat) (s : State) : ResKeeps s (execTimeReadCaptures p s) := by
  unfold execTimeReadCaptures; refine (resKeeps_next _ _).mpr (runPage_keeps _ _ _ _ ?_); refine plainPage_keeps _ _ ?_; intro c t; simp
@[simp] theorem execTimeReadCaptures_mems (p : Nat) (s : State) (h : s.Mems) : ResMems (execTimeReadCaptures p s) := (execTimeReadCaptures_keeps p s).mems h


end Sys2Proof.Machine
end

