-- ==== Sys2Proof/Laws/MemSets.lean ====
section
/-! SUPPORT. What the operations and meanings of Machine/Sets.lean do to the two memories: `_keeps` says that both stay as
they were, `_mems` that their canonical form is kept. -/

namespace Sys2Proof.Machine

@[simp] theorem State.dropArmed_keeps (s : State) (e : Elem) :
    (State.dropArmed s e).mem = s.mem ∧ (State.dropArmed s e).hostMem = s.hostMem := by
  simp [State.dropArmed]
@[simp] theorem State.dropArmed_mems (s : State) (e : Elem) : (State.dropArmed s e).Mems ↔ s.Mems := by
  unfold State.Mems; rw [(State.dropArmed_keeps s e).1, (State.dropArmed_keeps s e).2]
@[simp] theorem State.markApply_keeps (s : State) (ctx : Nat) (blk : Nat) :
    (State.markApply s ctx blk).mem = s.mem ∧ (State.markApply s ctx blk).hostMem = s.hostMem := by
  unfold State.markApply; split <;> simp
@[simp] theorem State.markApply_mems (s : State) (ctx : Nat) (blk : Nat) : (State.markApply s ctx blk).Mems ↔ s.Mems := by
  unfold State.Mems; rw [(State.markApply_keeps s ctx blk).1, (State.markApply_keeps s ctx blk).2]
@[simp] theorem State.applyElem_mem (s : State) (e : Elem) (apply : GCmd → State → State) (h : ∀ c t, (apply c t).mem = t.mem) :
    (s.applyElem e apply).mem = s.mem := by
  unfold State.applyElem; split <;> simp [h]
@[simp] theorem State.applyElem_hostMem (s : State) (e : Elem) (apply : GCmd → State → State) (h : ∀ c t, (apply c t).hostMem = t.hostMem) :
    (s.applyElem e apply).hostMem = s.hostMem := by
  unfold State.applyElem; split <;> simp [h]
theorem State.applyElem_mems (s : State) (e : Elem) (apply : GCmd → State → State) (hf : ∀ c t, t.Mems → (apply c t).Mems)
    (h : s.Mems) : (s.applyElem e apply).Mems := by
  unfold State.applyElem
  split
  · rw [State.markApply_mems]; exact foldl_mems _ (fun t c ht => hf c t ht) _ _ (by simpa using h)
  · exact h
@[simp] theorem State.countPaused_keeps (s : State) (ctx : Nat) (key : Nat) (n : Nat) :
    (State.countPaused s ctx key n).mem = s.mem ∧ (State.countPaused s ctx key n).hostMem = s.hostMem := by
  unfold State.countPaused; (repeat' split) <;> simp
@[simp] theorem State.countPaused_mems (s : State) (ctx : Nat) (key : Nat) (n : Nat) : (State.countPaused s ctx key n).Mems ↔ s.Mems := by
  unfold State.Mems; rw [(State.countPaused_keeps s ctx key n).1, (State.countPaused_keeps s ctx key n).2]
@[simp] theorem State.modViridian_keeps (s : State) (f : Viridian → Viridian) :
    (State.modViridian s f).mem = s.mem ∧ (State.modViridian s f).hostMem = s.hostMem := by
  simp [State.modViridian]
@[simp] theorem State.modViridian_mems (s : State) (f : Viridian → Viridian) : (State.modViridian s f).Mems ↔ s.Mems := by
  unfold State.Mems; rw [(State.modViridian_keeps s f).1, (State.modViridian_keeps s f).2]
@[simp] theorem State.noteGap_keeps (s : State) (src : Nat) (first : Nat) (last : Nat) :
    (State.noteGap s src first last).mem = s.mem ∧ (State.noteGap s src first last).hostMem = s.hostMem := by
  simp [State.noteGap]
@[simp] theorem State.noteGap_mems (s : State) (src : Nat) (first : Nat) (last : Nat) : (State.noteGap s src first last).Mems ↔ s.Mems := by
  unfold State.Mems; rw [(State.noteGap_keeps s src first last).1, (State.noteGap_keeps s src first last).2]
@[simp] theorem State.bumpGen_keeps (s : State) (ctx : Nat) :
    (State.bumpGen s ctx).mem = s.mem ∧ (State.bumpGen s ctx).hostMem = s.hostMem := by
  unfold State.bumpGen; split <;> simp
@[simp] theorem State.bumpGen_mems (s : State) (ctx : Nat) : (State.bumpGen s ctx).Mems ↔ s.Mems := by
  unfold State.Mems; rw [(State.bumpGen_keeps s ctx).1, (State.bumpGen_keeps s ctx).2]
@[simp] theorem State.offerMember_keeps (s : State) (m : Member) :
    (State.offerMember s m).mem = s.mem ∧ (State.offerMember s m).hostMem = s.hostMem := by
  simp [State.offerMember]
@[simp] theorem State.offerMember_mems (s : State) (m : Member) : (State.offerMember s m).Mems ↔ s.Mems := by
  unfold State.Mems; rw [(State.offerMember_keeps s m).1, (State.offerMember_keeps s m).2]
@[simp] theorem State.offerInput_keeps (s : State) (x : BindIn) :
    (State.offerInput s x).mem = s.mem ∧ (State.offerInput s x).hostMem = s.hostMem := by
  simp [State.offerInput]
@[simp] theorem State.offerInput_mems (s : State) (x : BindIn) : (State.offerInput s x).Mems ↔ s.Mems := by
  unfold State.Mems; rw [(State.offerInput_keeps s x).1, (State.offerInput_keeps s x).2]
@[simp] theorem State.freeDramAt_keeps (s : State) (base : Nat) :
    (State.freeDramAt s base).mem = s.mem ∧ (State.freeDramAt s base).hostMem = s.hostMem := by
  unfold State.freeDramAt; split <;> simp
@[simp] theorem State.freeDramAt_mems (s : State) (base : Nat) : (State.freeDramAt s base).Mems ↔ s.Mems := by
  unfold State.Mems; rw [(State.freeDramAt_keeps s base).1, (State.freeDramAt_keeps s base).2]
@[simp] theorem State.retagDram_keeps (s : State) (base : Nat) (what : Nat) (idx : Nat) :
    (State.retagDram s base what idx).mem = s.mem ∧ (State.retagDram s base what idx).hostMem = s.hostMem := by
  simp [State.retagDram]
@[simp] theorem State.retagDram_mems (s : State) (base : Nat) (what : Nat) (idx : Nat) : (State.retagDram s base what idx).Mems ↔ s.Mems := by
  unfold State.Mems; rw [(State.retagDram_keeps s base what idx).1, (State.retagDram_keeps s base what idx).2]
@[simp] theorem State.freeSramAt_keeps (s : State) (base : Nat) :
    (State.freeSramAt s base).mem = s.mem ∧ (State.freeSramAt s base).hostMem = s.hostMem := by
  unfold State.freeSramAt; (repeat' split) <;> simp
@[simp] theorem State.freeSramAt_mems (s : State) (base : Nat) : (State.freeSramAt s base).Mems ↔ s.Mems := by
  unfold State.Mems; rw [(State.freeSramAt_keeps s base).1, (State.freeSramAt_keeps s base).2]
@[simp] theorem State.retagSram_keeps (s : State) (base : Nat) (what : Nat) (idx : Nat) :
    (State.retagSram s base what idx).mem = s.mem ∧ (State.retagSram s base what idx).hostMem = s.hostMem := by
  simp [State.retagSram]
@[simp] theorem State.retagSram_mems (s : State) (base : Nat) (what : Nat) (idx : Nat) : (State.retagSram s base what idx).Mems ↔ s.Mems := by
  unfold State.Mems; rw [(State.retagSram_keeps s base what idx).1, (State.retagSram_keeps s base what idx).2]


end Sys2Proof.Machine
end

