-- ==== Sys2Proof/Laws/MemOchre.lean ====
section
/-! SUPPORT. What the operations and meanings of Machine/Ochre.lean do to the two memories: `_keeps` says that both stay as
they were, `_mems` that their canonical form is kept. -/

namespace Sys2Proof.Machine

@[simp] theorem State.modOchre_keeps (s : State) (f : Ochre → Ochre) :
    (State.modOchre s f).mem = s.mem ∧ (State.modOchre s f).hostMem = s.hostMem := by
  simp [State.modOchre]
@[simp] theorem State.modOchre_mems (s : State) (f : Ochre → Ochre) : (State.modOchre s f).Mems ↔ s.Mems := by
  unfold State.Mems; rw [(State.modOchre_keeps s f).1, (State.modOchre_keeps s f).2]
@[simp] theorem State.setPort_keeps (s : State) (p : Nat) (x : OchPort) :
    (State.setPort s p x).mem = s.mem ∧ (State.setPort s p x).hostMem = s.hostMem := by
  simp [State.setPort]
@[simp] theorem State.setPort_mems (s : State) (p : Nat) (x : OchPort) : (State.setPort s p x).Mems ↔ s.Mems := by
  unfold State.Mems; rw [(State.setPort_keeps s p x).1, (State.setPort_keeps s p x).2]
@[simp] theorem State.setSize_keeps (s : State) (p : Nat) (size : Sys2Proof.Word) :
    (State.setSize s p size).mem = s.mem ∧ (State.setSize s p size).hostMem = s.hostMem := by
  simp [State.setSize]
@[simp] theorem State.setSize_mems (s : State) (p : Nat) (size : Sys2Proof.Word) : (State.setSize s p size).Mems ↔ s.Mems := by
  unfold State.Mems; rw [(State.setSize_keeps s p size).1, (State.setSize_keeps s p size).2]
@[simp] theorem applyFormat_keeps (b : Bytes) (s : State) :
    (applyFormat b s).mem = s.mem ∧ (applyFormat b s).hostMem = s.hostMem := by
  simp [applyFormat]
@[simp] theorem applyFormat_mems (b : Bytes) (s : State) : (applyFormat b s).Mems ↔ s.Mems := by
  unfold State.Mems; rw [(applyFormat_keeps b s).1, (applyFormat_keeps b s).2]
@[simp] theorem applyFilters_keeps (b : Bytes) (d : Bytes) (s : State) :
    (applyFilters b d s).mem = s.mem ∧ (applyFilters b d s).hostMem = s.hostMem := by
  simp [applyFilters]
@[simp] theorem applyFilters_mems (b : Bytes) (d : Bytes) (s : State) : (applyFilters b d s).Mems ↔ s.Mems := by
  unfold State.Mems; rw [(applyFilters_keeps b d s).1, (applyFilters_keeps b d s).2]
@[simp] theorem applyBlocking_keeps (b : Bytes) (s : State) :
    (applyBlocking b s).mem = s.mem ∧ (applyBlocking b s).hostMem = s.hostMem := by
  simp [applyBlocking]
@[simp] theorem applyBlocking_mems (b : Bytes) (s : State) : (applyBlocking b s).Mems ↔ s.Mems := by
  unfold State.Mems; rw [(applyBlocking_keeps b s).1, (applyBlocking_keeps b s).2]
@[simp] theorem applyOchre_keeps (c : GCmd) (s : State) :
    (applyOchre c s).mem = s.mem ∧ (applyOchre c s).hostMem = s.hostMem := by
  simp [applyOchre]
@[simp] theorem applyOchre_mems (c : GCmd) (s : State) : (applyOchre c s).Mems ↔ s.Mems := by
  unfold State.Mems; rw [(applyOchre_keeps c s).1, (applyOchre_keeps c s).2]
@[simp] theorem State.closeBlock_keeps (s : State) (p : Nat) :
    (State.closeBlock s p).mem = s.mem ∧ (State.closeBlock s p).hostMem = s.hostMem := by
  unfold State.closeBlock; constructor <;> ((try dsimp only); repeat' split) <;> simp
@[simp] theorem State.closeBlock_mems (s : State) (p : Nat) : (State.closeBlock s p).Mems ↔ s.Mems := by
  unfold State.Mems; rw [(State.closeBlock_keeps s p).1, (State.closeBlock_keeps s p).2]
@[simp] theorem State.copyAnchors_keeps (s : State) (p : Nat) :
    (State.copyAnchors s p).mem = s.mem ∧ (State.copyAnchors s p).hostMem = s.hostMem := by
  simp [State.copyAnchors]
@[simp] theorem State.copyAnchors_mems (s : State) (p : Nat) : (State.copyAnchors s p).Mems ↔ s.Mems := by
  unfold State.Mems; rw [(State.copyAnchors_keeps s p).1, (State.copyAnchors_keeps s p).2]
@[simp] theorem State.boundary_keeps (s : State) (p : Nat) :
    (State.boundary s p).mem = s.mem ∧ (State.boundary s p).hostMem = s.hostMem := by
  simp [State.boundary]
@[simp] theorem State.boundary_mems (s : State) (p : Nat) : (State.boundary s p).Mems ↔ s.Mems := by
  unfold State.Mems; rw [(State.boundary_keeps s p).1, (State.boundary_keeps s p).2]
@[simp] theorem State.emitGap_keeps (s : State) (p : Nat) (g : Gap) (cont : Bool) :
    (State.emitGap s p g cont).mem = s.mem ∧ (State.emitGap s p g cont).hostMem = s.hostMem := by
  simp [State.emitGap]
@[simp] theorem State.emitGap_mems (s : State) (p : Nat) (g : Gap) (cont : Bool) : (State.emitGap s p g cont).Mems ↔ s.Mems := by
  unfold State.Mems; rw [(State.emitGap_keeps s p g cont).1, (State.emitGap_keeps s p g cont).2]
@[simp] theorem State.portDrop_keeps (s : State) (p : Nat) (reason : Nat) (events : Nat) (bytes : Nat) (t : Stamp) :
    (State.portDrop s p reason events bytes t).mem = s.mem ∧ (State.portDrop s p reason events bytes t).hostMem = s.hostMem := by
  unfold State.portDrop; split <;> simp
@[simp] theorem State.portDrop_mems (s : State) (p : Nat) (reason : Nat) (events : Nat) (bytes : Nat) (t : Stamp) : (State.portDrop s p reason events bytes t).Mems ↔ s.Mems := by
  unfold State.Mems; rw [(State.portDrop_keeps s p reason events bytes t).1, (State.portDrop_keeps s p reason events bytes t).2]
@[simp] theorem State.closeGap_keeps (s : State) (p : Nat) :
    (State.closeGap s p).mem = s.mem ∧ (State.closeGap s p).hostMem = s.hostMem := by
  unfold State.closeGap; split <;> simp
@[simp] theorem State.closeGap_mems (s : State) (p : Nat) : (State.closeGap s p).Mems ↔ s.Mems := by
  unfold State.Mems; rw [(State.closeGap_keeps s p).1, (State.closeGap_keeps s p).2]
@[simp] theorem State.splitBlock_keeps (s : State) (p : Nat) (e : BitVec 16) :
    (State.splitBlock s p e).mem = s.mem ∧ (State.splitBlock s p e).hostMem = s.hostMem := by
  unfold State.splitBlock; (repeat' split) <;> simp
@[simp] theorem State.splitBlock_mems (s : State) (p : Nat) (e : BitVec 16) : (State.splitBlock s p e).Mems ↔ s.Mems := by
  unfold State.Mems; rw [(State.splitBlock_keeps s p e).1, (State.splitBlock_keeps s p e).2]
@[simp] theorem State.admitEvent_keeps (s : State) (p : Nat) (mk : Nat → BitVec 64) (t : Stamp) :
    (State.admitEvent s p mk t).mem = s.mem ∧ (State.admitEvent s p mk t).hostMem = s.hostMem := by
  simp [State.admitEvent]
@[simp] theorem State.admitEvent_mems (s : State) (p : Nat) (mk : Nat → BitVec 64) (t : Stamp) : (State.admitEvent s p mk t).Mems ↔ s.Mems := by
  unfold State.Mems; rw [(State.admitEvent_keeps s p mk t).1, (State.admitEvent_keeps s p mk t).2]
@[simp] theorem State.filterEvent_keeps (s : State) (p : Nat) (x : Nat) (y : Nat) (pol : Bool) (t : Stamp) (flags : Nat) :
    (State.filterEvent s p x y pol t flags).mem = s.mem ∧ (State.filterEvent s p x y pol t flags).hostMem = s.hostMem := by
  simp [State.filterEvent]
@[simp] theorem State.filterEvent_mems (s : State) (p : Nat) (x : Nat) (y : Nat) (pol : Bool) (t : Stamp) (flags : Nat) : (State.filterEvent s p x y pol t flags).Mems ↔ s.Mems := by
  unfold State.Mems; rw [(State.filterEvent_keeps s p x y pol t flags).1, (State.filterEvent_keeps s p x y pol t flags).2]
@[simp] theorem State.produce_keeps (s : State) (p : Nat) (k : RxPkt) (u : Bytes) (offs : List Nat) :
    (State.produce s p k u offs).1.mem = s.mem ∧ (State.produce s p k u offs).1.hostMem = s.hostMem := by
  unfold State.produce; (repeat' split) <;> simp
@[simp] theorem State.produce_mems (s : State) (p : Nat) (k : RxPkt) (u : Bytes) (offs : List Nat) : (State.produce s p k u offs).1.Mems ↔ s.Mems := by
  unfold State.Mems; rw [(State.produce_keeps s p k u offs).1, (State.produce_keeps s p k u offs).2]
@[simp] theorem State.decodeUnit_keeps (s : State) (p : Nat) (k : RxPkt) (u : Bytes) :
    (State.decodeUnit s p k u).1.mem = s.mem ∧ (State.decodeUnit s p k u).1.hostMem = s.hostMem := by
  unfold State.decodeUnit; constructor <;> ((try dsimp only); repeat' split) <;> simp
@[simp] theorem State.decodeUnit_mems (s : State) (p : Nat) (k : RxPkt) (u : Bytes) : (State.decodeUnit s p k u).1.Mems ↔ s.Mems := by
  unfold State.Mems; rw [(State.decodeUnit_keeps s p k u).1, (State.decodeUnit_keeps s p k u).2]
@[simp] theorem State.decodeOne_keeps (s : State) (p : Nat) :
    (State.decodeOne s p).mem = s.mem ∧ (State.decodeOne s p).hostMem = s.hostMem := by
  unfold State.decodeOne; constructor <;> (repeat' split) <;> simp
@[simp] theorem State.decodeOne_mems (s : State) (p : Nat) : (State.decodeOne s p).Mems ↔ s.Mems := by
  unfold State.Mems; rw [(State.decodeOne_keeps s p).1, (State.decodeOne_keeps s p).2]
@[simp] theorem State.drain_keeps (s : State) (p : Nat) (x2 : Nat) (x3 : Nat) :
    (State.drain s p x2 x3).mem = s.mem ∧ (State.drain s p x2 x3).hostMem = s.hostMem := by
  fun_induction State.drain s p x2 x3 <;> simp_all
@[simp] theorem State.drain_mems (s : State) (p : Nat) (x2 : Nat) (x3 : Nat) : (State.drain s p x2 x3).Mems ↔ s.Mems := by
  unfold State.Mems; rw [(State.drain_keeps s p x2 x3).1, (State.drain_keeps s p x2 x3).2]
@[simp] theorem State.packetError_keeps (s : State) (p : Nat) (events : Nat) (bytes : Nat) (t : Stamp) :
    (State.packetError s p events bytes t).mem = s.mem ∧ (State.packetError s p events bytes t).hostMem = s.hostMem := by
  simp [State.packetError]
@[simp] theorem State.packetError_mems (s : State) (p : Nat) (events : Nat) (bytes : Nat) (t : Stamp) : (State.packetError s p events bytes t).Mems ↔ s.Mems := by
  unfold State.Mems; rw [(State.packetError_keeps s p events bytes t).1, (State.packetError_keeps s p events bytes t).2]
@[simp] theorem State.crcError_keeps (s : State) (p : Nat) (begun : Option Nat) (t : Stamp) :
    (State.crcError s p begun t).mem = s.mem ∧ (State.crcError s p begun t).hostMem = s.hostMem := by
  unfold State.crcError; (repeat' split) <;> simp
@[simp] theorem State.crcError_mems (s : State) (p : Nat) (begun : Option Nat) (t : Stamp) : (State.crcError s p begun t).Mems ↔ s.Mems := by
  unfold State.Mems; rw [(State.crcError_keeps s p begun t).1, (State.crcError_keeps s p begun t).2]
@[simp] theorem State.acceptPacket_keeps (s : State) (p : Nat) (k : Sys2Proof.Csi2Packet) (t : Stamp) :
    (State.acceptPacket s p k t).mem = s.mem ∧ (State.acceptPacket s p k t).hostMem = s.hostMem := by
  simp [State.acceptPacket]
@[simp] theorem State.acceptPacket_mems (s : State) (p : Nat) (k : Sys2Proof.Csi2Packet) (t : Stamp) : (State.acceptPacket s p k t).Mems ↔ s.Mems := by
  unfold State.Mems; rw [(State.acceptPacket_keeps s p k t).1, (State.acceptPacket_keeps s p k t).2]
@[simp] theorem workCsi2PacketReceived_keeps (port : Nat) (k : Sys2Proof.Csi2Packet) (s : State) : ResKeeps s (workCsi2PacketReceived port k s) := by
  unfold workCsi2PacketReceived; (repeat' split) <;> simp
@[simp] theorem workCsi2PacketReceived_mems (port : Nat) (k : Sys2Proof.Csi2Packet) (s : State) (h : s.Mems) : ResMems (workCsi2PacketReceived port k s) := (workCsi2PacketReceived_keeps port k s).mems h
@[simp] theorem workEventDecode_keeps (port : Nat) (s : State) : ResKeeps s (workEventDecode port s) := by
  simp [workEventDecode]
@[simp] theorem workEventDecode_mems (port : Nat) (s : State) (h : s.Mems) : ResMems (workEventDecode port s) := (workEventDecode_keeps port s).mems h
@[simp] theorem State.gapContinue_keeps (s : State) (p : Nat) :
    (State.gapContinue s p).mem = s.mem ∧ (State.gapContinue s p).hostMem = s.hostMem := by
  unfold State.gapContinue; split <;> simp
@[simp] theorem State.gapContinue_mems (s : State) (p : Nat) : (State.gapContinue s p).Mems ↔ s.Mems := by
  unfold State.Mems; rw [(State.gapContinue_keeps s p).1, (State.gapContinue_keeps s p).2]
@[simp] theorem State.grantEvent_keeps (s : State) (p : Nat) :
    (State.grantEvent s p).mem = s.mem ∧ (State.grantEvent s p).hostMem = s.hostMem := by
  unfold State.grantEvent; split <;> simp
@[simp] theorem State.grantEvent_mems (s : State) (p : Nat) : (State.grantEvent s p).Mems ↔ s.Mems := by
  unfold State.Mems; rw [(State.grantEvent_keeps s p).1, (State.grantEvent_keeps s p).2]
@[simp] theorem workEventHandoff_keeps (s : State) : ResKeeps s (workEventHandoff s) := by
  simp [workEventHandoff]
@[simp] theorem workEventHandoff_mems (s : State) (h : s.Mems) : ResMems (workEventHandoff s) := (workEventHandoff_keeps s).mems h
@[simp] theorem workBlockTimeout_keeps (port : Nat) (s : State) : ResKeeps s (workBlockTimeout port s) := by
  simp [workBlockTimeout]
@[simp] theorem workBlockTimeout_mems (port : Nat) (s : State) (h : s.Mems) : ResMems (workBlockTimeout port s) := (workBlockTimeout_keeps port s).mems h
@[simp] theorem workFilterMapScrub_keeps (port : Nat) (s : State) : ResKeeps s (workFilterMapScrub port s) := by
  simp [workFilterMapScrub]
@[simp] theorem workFilterMapScrub_mems (port : Nat) (s : State) (h : s.Mems) : ResMems (workFilterMapScrub port s) := (workFilterMapScrub_keeps port s).mems h
@[simp] theorem workPortSilent_keeps (port : Nat) (s : State) : ResKeeps s (workPortSilent port s) := by
  simp [workPortSilent]
@[simp] theorem workPortSilent_mems (port : Nat) (s : State) (h : s.Mems) : ResMems (workPortSilent port s) := (workPortSilent_keeps port s).mems h
@[simp] theorem workPortActivityWindow_keeps (port : Nat) (s : State) : ResKeeps s (workPortActivityWindow port s) := by
  simp [workPortActivityWindow]
@[simp] theorem workPortActivityWindow_mems (port : Nat) (s : State) (h : s.Mems) : ResMems (workPortActivityWindow port s) := (workPortActivityWindow_keeps port s).mems h
@[simp] theorem execDphyResyncDone_keeps (port : Nat) (s : State) : ResKeeps s (execDphyResyncDone port s) := by
  simp [execDphyResyncDone]
@[simp] theorem execDphyResyncDone_mems (port : Nat) (s : State) (h : s.Mems) : ResMems (execDphyResyncDone port s) := (execDphyResyncDone_keeps port s).mems h
@[simp] theorem State.clearPortCounters_keeps (s : State) (p : Nat) :
    (State.clearPortCounters s p).mem = s.mem ∧ (State.clearPortCounters s p).hostMem = s.hostMem := by
  simp [State.clearPortCounters]
@[simp] theorem State.clearPortCounters_mems (s : State) (p : Nat) : (State.clearPortCounters s p).Mems ↔ s.Mems := by
  unfold State.Mems; rw [(State.clearPortCounters_keeps s p).1, (State.clearPortCounters_keeps s p).2]
@[simp] theorem execOchPnCntClr_keeps (port : Nat) (v : Sys2Proof.Word) (s : State) : ResKeeps s (execOchPnCntClr port v s) := by
  simp [execOchPnCntClr]
@[simp] theorem execOchPnCntClr_mems (port : Nat) (v : Sys2Proof.Word) (s : State) (h : s.Mems) : ResMems (execOchPnCntClr port v s) := (execOchPnCntClr_keeps port v s).mems h
@[simp] theorem State.setTrig_keeps (s : State) (n : Nat) (x : Trigger) :
    (State.setTrig s n x).mem = s.mem ∧ (State.setTrig s n x).hostMem = s.hostMem := by
  simp [State.setTrig]
@[simp] theorem State.setTrig_mems (s : State) (n : Nat) (x : Trigger) : (State.setTrig s n x).Mems ↔ s.Mems := by
  unfold State.Mems; rw [(State.setTrig_keeps s n x).1, (State.setTrig_keeps s n x).2]
@[simp] theorem State.armTrig_keeps (s : State) (n : Nat) :
    (State.armTrig s n).mem = s.mem ∧ (State.armTrig s n).hostMem = s.hostMem := by
  simp [State.armTrig]
@[simp] theorem State.armTrig_mems (s : State) (n : Nat) : (State.armTrig s n).Mems ↔ s.Mems := by
  unfold State.Mems; rw [(State.armTrig_keeps s n).1, (State.armTrig_keeps s n).2]
@[simp] theorem State.fireTrig_keeps (s : State) (n : Nat) (at' : Nat) :
    (State.fireTrig s n at').mem = s.mem ∧ (State.fireTrig s n at').hostMem = s.hostMem := by
  simp [State.fireTrig]
@[simp] theorem State.fireTrig_mems (s : State) (n : Nat) (at' : Nat) : (State.fireTrig s n at').Mems ↔ s.Mems := by
  unfold State.Mems; rw [(State.fireTrig_keeps s n at').1, (State.fireTrig_keeps s n at').2]
@[simp] theorem workTriggerFire_keeps (n : Nat) (s : State) : ResKeeps s (workTriggerFire n s) := by
  unfold workTriggerFire; (repeat' split) <;> simp
@[simp] theorem workTriggerFire_mems (n : Nat) (s : State) (h : s.Mems) : ResMems (workTriggerFire n s) := (workTriggerFire_keeps n s).mems h
@[simp] theorem workTriggerPulseEnd_keeps (n : Nat) (s : State) : ResKeeps s (workTriggerPulseEnd n s) := by
  simp [workTriggerPulseEnd]
@[simp] theorem workTriggerPulseEnd_mems (n : Nat) (s : State) (h : s.Mems) : ResMems (workTriggerPulseEnd n s) := (workTriggerPulseEnd_keeps n s).mems h
@[simp] theorem State.sbusStart_keeps (s : State) (bus : Nat) (target : Nat) (mode : Nat) (khz : Nat) (w : Bytes) (rd : Nat) (path : Option Nat) :
    (State.sbusStart s bus target mode khz w rd path).mem = s.mem ∧ (State.sbusStart s bus target mode khz w rd path).hostMem = s.hostMem := by
  simp [State.sbusStart]
@[simp] theorem State.sbusStart_mems (s : State) (bus : Nat) (target : Nat) (mode : Nat) (khz : Nat) (w : Bytes) (rd : Nat) (path : Option Nat) : (State.sbusStart s bus target mode khz w rd path).Mems ↔ s.Mems := by
  unfold State.Mems; rw [(State.sbusStart_keeps s bus target mode khz w rd path).1, (State.sbusStart_keeps s bus target mode khz w rd path).2]
@[simp] theorem execOchSbusGo_keeps (v : Sys2Proof.Word) (s : State) : ResKeeps s (execOchSbusGo v s) := by
  simp [execOchSbusGo]
@[simp] theorem execOchSbusGo_mems (v : Sys2Proof.Word) (s : State) (h : s.Mems) : ResMems (execOchSbusGo v s) := (execOchSbusGo_keeps v s).mems h
@[simp] theorem execOchSbusDataPop_keeps (w : Option Sys2Proof.Byte) (s : State) : ResKeeps s (execOchSbusDataPop w s) := by
  unfold execOchSbusDataPop
  split
  · simp
  · split <;> simp
@[simp] theorem execOchSbusDataPop_mems (w : Option Sys2Proof.Byte) (s : State) (h : s.Mems) : ResMems (execOchSbusDataPop w s) := (execOchSbusDataPop_keeps w s).mems h
@[simp] theorem execSensorBusTransferDone_keeps (status : Sys2Proof.XferEnd) (moved : Nat) (data : Bytes) (s : State) : ResKeeps s (execSensorBusTransferDone status moved data s) := by
  unfold execSensorBusTransferDone; (repeat' split) <;> simp
@[simp] theorem execSensorBusTransferDone_mems (status : Sys2Proof.XferEnd) (moved : Nat) (data : Bytes) (s : State) (h : s.Mems) : ResMems (execSensorBusTransferDone status moved data s) := (execSensorBusTransferDone_keeps status moved data s).mems h
@[simp] theorem State.resetPortSettings_keeps (s : State) (p : Nat) :
    (State.resetPortSettings s p).mem = s.mem ∧ (State.resetPortSettings s p).hostMem = s.hostMem := by
  simp [State.resetPortSettings]
@[simp] theorem State.resetPortSettings_mems (s : State) (p : Nat) : (State.resetPortSettings s p).Mems ↔ s.Mems := by
  unfold State.Mems; rw [(State.resetPortSettings_keeps s p).1, (State.resetPortSettings_keeps s p).2]
@[simp] theorem State.stopPort_keeps (s : State) (p : Nat) :
    (State.stopPort s p).mem = s.mem ∧ (State.stopPort s p).hostMem = s.hostMem := by
  simp [State.stopPort]
@[simp] theorem State.stopPort_mems (s : State) (p : Nat) : (State.stopPort s p).Mems ↔ s.Mems := by
  unfold State.Mems; rw [(State.stopPort_keeps s p).1, (State.stopPort_keeps s p).2]
@[simp] theorem actAssign_keeps (c : Cmd) (s : State) :
    (actAssign c s).1.mem = s.mem ∧ (actAssign c s).1.hostMem = s.hostMem := by
  simp [actAssign]
@[simp] theorem actAssign_mems (c : Cmd) (s : State) : (actAssign c s).1.Mems ↔ s.Mems := by
  unfold State.Mems; rw [(actAssign_keeps c s).1, (actAssign_keeps c s).2]
@[simp] theorem execEvportAssign_keeps (p : Nat) (s : State) : ResKeeps s (execEvportAssign p s) := by
  unfold execEvportAssign; refine (resKeeps_next _ _).mpr (runPage_keeps _ _ _ _ ?_); refine plainPage_keeps _ _ ?_; intro c t; simp
@[simp] theorem execEvportAssign_mems (p : Nat) (s : State) (h : s.Mems) : ResMems (execEvportAssign p s) := (execEvportAssign_keeps p s).mems h
@[simp] theorem actPortStats_keeps (c : Cmd) (s : State) :
    (actPortStats c s).1.mem = s.mem ∧ (actPortStats c s).1.hostMem = s.hostMem := by
  simp [actPortStats]
@[simp] theorem actPortStats_mems (c : Cmd) (s : State) : (actPortStats c s).1.Mems ↔ s.Mems := by
  unfold State.Mems; rw [(actPortStats_keeps c s).1, (actPortStats_keeps c s).2]
@[simp] theorem execEvportGetStats_keeps (p : Nat) (s : State) : ResKeeps s (execEvportGetStats p s) := by
  unfold execEvportGetStats; refine (resKeeps_next _ _).mpr (runPage_keeps _ _ _ _ ?_); refine plainPage_keeps _ _ ?_; intro c t; simp
@[simp] theorem execEvportGetStats_mems (p : Nat) (s : State) (h : s.Mems) : ResMems (execEvportGetStats p s) := (execEvportGetStats_keeps p s).mems h
@[simp] theorem execSensorXfer_keeps (p : Nat) (s : State) : ResKeeps s (execSensorXfer p s) := by
  unfold execSensorXfer; refine (resKeeps_next _ _).mpr (runPage_keeps _ _ _ _ ?_); intro c d t; unfold sensorXferBody; (repeat' split) <;> simp
@[simp] theorem execSensorXfer_mems (p : Nat) (s : State) (h : s.Mems) : ResMems (execSensorXfer p s) := (execSensorXfer_keeps p s).mems h
@[simp] theorem actTrigger_keeps (c : Cmd) (s : State) :
    (actTrigger c s).1.mem = s.mem ∧ (actTrigger c s).1.hostMem = s.hostMem := by
  simp [actTrigger]
@[simp] theorem actTrigger_mems (c : Cmd) (s : State) : (actTrigger c s).1.Mems ↔ s.Mems := by
  unfold State.Mems; rw [(actTrigger_keeps c s).1, (actTrigger_keeps c s).2]
@[simp] theorem execSensorSetTrigger_keeps (p : Nat) (s : State) : ResKeeps s (execSensorSetTrigger p s) := by
  unfold execSensorSetTrigger; refine (resKeeps_next _ _).mpr (runPage_keeps _ _ _ _ ?_); refine plainPage_keeps _ _ ?_; intro c t; simp
@[simp] theorem execSensorSetTrigger_mems (p : Nat) (s : State) (h : s.Mems) : ResMems (execSensorSetTrigger p s) := (execSensorSetTrigger_keeps p s).mems h


end Sys2Proof.Machine
end

