-- ==== Sys2Proof/Laws/MemCobalt.lean ====
section
/-! SUPPORT. What the operations and meanings of Machine/Cobalt.lean do to the two memories: `_keeps` says that both stay as
they were, `_mems` that their canonical form is kept. -/

namespace Sys2Proof.Machine

theorem forEachP_mem {β : Type} (l : List Nat) (f : Nat → State × β → State × β) (h : ∀ a t, (f a t).1.mem = t.1.mem) (s : State × β) :
    (forEach l f s).1.mem = s.1.mem := by
  unfold forEach
  induction l generalizing s with
  | nil => rfl
  | cons a l ih => rw [List.foldl_cons, ih, h]
theorem forEachP_hostMem {β : Type} (l : List Nat) (f : Nat → State × β → State × β) (h : ∀ a t, (f a t).1.hostMem = t.1.hostMem) (s : State × β) :
    (forEach l f s).1.hostMem = s.1.hostMem := by
  unfold forEach
  induction l generalizing s with
  | nil => rfl
  | cons a l ih => rw [List.foldl_cons, ih, h]
@[simp] theorem State.modCobalt_keeps (s : State) (f : Cobalt → Cobalt) :
    (State.modCobalt s f).mem = s.mem ∧ (State.modCobalt s f).hostMem = s.hostMem := by
  simp [State.modCobalt]
@[simp] theorem State.modCobalt_mems (s : State) (f : Cobalt → Cobalt) : (State.modCobalt s f).Mems ↔ s.Mems := by
  unfold State.Mems; rw [(State.modCobalt_keeps s f).1, (State.modCobalt_keeps s f).2]
@[simp] theorem State.setStk_keeps (s : State) (k : Nat) (x : StackDyn) :
    (State.setStk s k x).mem = s.mem ∧ (State.setStk s k x).hostMem = s.hostMem := by
  simp [State.setStk]
@[simp] theorem State.setStk_mems (s : State) (k : Nat) (x : StackDyn) : (State.setStk s k x).Mems ↔ s.Mems := by
  unfold State.Mems; rw [(State.setStk_keeps s k x).1, (State.setStk_keeps s k x).2]
@[simp] theorem State.stkOpen_mems (s : State) (k : Nat) (n : Int) (t : Nat) (half : Nat) (h : s.Mems) : (State.stkOpen s k n t half).Mems := by
  simp [State.stkOpen, h, h.1, h.2]
@[simp] theorem State.stkClose_keeps (s : State) (k : Nat) (r : StackRun) :
    (State.stkClose s k r).mem = s.mem ∧ (State.stkClose s k r).hostMem = s.hostMem := by
  simp [State.stkClose]
@[simp] theorem State.stkClose_mems (s : State) (k : Nat) (r : StackRun) : (State.stkClose s k r).Mems ↔ s.Mems := by
  unfold State.Mems; rw [(State.stkClose_keeps s k r).1, (State.stkClose_keeps s k r).2]
@[simp] theorem State.stkRoll_keeps (s : State) (k : Nat) (r : StackRun) (t : Stamp) :
    (State.stkRoll s k r t).mem = s.mem ∧ (State.stkRoll s k r t).hostMem = s.hostMem := by
  unfold State.stkRoll; split <;> simp
@[simp] theorem State.stkRoll_mems (s : State) (k : Nat) (r : StackRun) (t : Stamp) : (State.stkRoll s k r t).Mems ↔ s.Mems := by
  unfold State.Mems; rw [(State.stkRoll_keeps s k r t).1, (State.stkRoll_keeps s k r t).2]
@[simp] theorem State.stkBoundary_mems (s : State) (k : Nat) (n : Int) (t : Stamp) (h : s.Mems) : (State.stkBoundary s k n t).Mems := by
  unfold State.stkBoundary; ((try dsimp only); repeat' split) <;> simp [h, h.1, h.2]
@[simp] theorem State.stkAdd_mems (s : State) (k : Nat) (r : StackRun) (e : PEv) (h : s.Mems) : (State.stkAdd s k r e).1.Mems := by
  unfold State.stkAdd; ((try dsimp only); repeat' split) <;> simp [h, h.1, h.2]
@[simp] theorem State.stkLate_keeps (s : State) (k : Nat) :
    (State.stkLate s k).mem = s.mem ∧ (State.stkLate s k).hostMem = s.hostMem := by
  simp [State.stkLate]
@[simp] theorem State.stkLate_mems (s : State) (k : Nat) : (State.stkLate s k).Mems ↔ s.Mems := by
  unfold State.Mems; rw [(State.stkLate_keeps s k).1, (State.stkLate_keeps s k).2]
@[simp] theorem State.stkJoin_mems (s : State) (k : Nat) (e : PEv) (rev : Int) (h : s.Mems) : (State.stkJoin s k e rev).Mems := by
  unfold State.stkJoin; ((try dsimp only); repeat' split) <;> simp [h, h.1, h.2]
@[simp] theorem State.stkEvent_mems (s : State) (k : Nat) (e : PEv) (h : s.Mems) : (State.stkEvent s k e).Mems := by
  unfold State.stkEvent; ((try dsimp only); repeat' split) <;> simp [h, h.1, h.2]
@[simp] theorem workStackClose_keeps (stack : Nat) (s : State) : ResKeeps s (workStackClose stack s) := by
  unfold workStackClose; split <;> simp
@[simp] theorem workStackClose_mems (stack : Nat) (s : State) (h : s.Mems) : ResMems (workStackClose stack s) := (workStackClose_keeps stack s).mems h
@[simp] theorem State.stkInterrupt_keeps (s : State) (k : Nat) :
    (State.stkInterrupt s k).mem = s.mem ∧ (State.stkInterrupt s k).hostMem = s.hostMem := by
  unfold State.stkInterrupt; constructor <;> ((try dsimp only); repeat' split) <;> simp
@[simp] theorem State.stkInterrupt_mems (s : State) (k : Nat) : (State.stkInterrupt s k).Mems ↔ s.Mems := by
  unfold State.Mems; rw [(State.stkInterrupt_keeps s k).1, (State.stkInterrupt_keeps s k).2]
@[simp] theorem State.emitMap_keeps (s : State) (k : Nat) (r : StackRun) (buf : Option Nat) :
    (State.emitMap s k r buf).mem = s.mem ∧ (State.emitMap s k r buf).hostMem = s.hostMem := by
  simp [State.emitMap]
@[simp] theorem State.emitMap_mems (s : State) (k : Nat) (r : StackRun) (buf : Option Nat) : (State.emitMap s k r buf).Mems ↔ s.Mems := by
  unfold State.Mems; rw [(State.emitMap_keeps s k r buf).1, (State.emitMap_keeps s k r buf).2]
@[simp] theorem workRotorMap_mems (stack : Nat) (s : State) (h : s.Mems) : ResMems (workRotorMap stack s) := by
  unfold workRotorMap; rw [resMems_next]
  dsimp only
  split
  · exact h
  · simp [h]
  · split
    · simp [h]
    · split
      · exact h
      · rename_i hw
        have hd := State.dmaWrite_mems _ _ _ _ _ hw h
        simp [hd]
@[simp] theorem State.toSepia_keeps (s : State) (e : PEv) :
    (State.toSepia s e).mem = s.mem ∧ (State.toSepia s e).hostMem = s.hostMem := by
  simp [State.toSepia]
@[simp] theorem State.toSepia_mems (s : State) (e : PEv) : (State.toSepia s e).Mems ↔ s.Mems := by
  unfold State.Mems; rw [(State.toSepia_keeps s e).1, (State.toSepia_keeps s e).2]
@[simp] theorem State.passEvent_mems (s : State) (e : PEv) (h : s.Mems) : (State.passEvent s e).Mems := by
  unfold State.passEvent
  simp only [State.offerMember_mems, State.toSepia_mems]
  exact forEach_mems _ _ (fun k t ht => State.stkEvent_mems t k e.out ht) _ h
@[simp] theorem State.projectHead_mems (s : State) (e : Ev) (h : s.Mems) : (State.projectHead s e).Mems := by
  unfold State.projectHead; ((try dsimp only); repeat' split) <;> simp [h, h.1, h.2]
@[simp] theorem workCobaltProject_mems (s : State) (h : s.Mems) : ResMems (workCobaltProject s) := by
  unfold workCobaltProject; ((try dsimp only); repeat' split) <;> simp [h, h.1, h.2]
@[simp] theorem State.loadGrid_keeps (s : State) (p : Nat) (cols : Nat) (rows : Nat) (d : Bytes) :
    (State.loadGrid s p cols rows d).mem = s.mem ∧ (State.loadGrid s p cols rows d).hostMem = s.hostMem := by
  unfold State.loadGrid
  constructor
  · refine (forEachP_mem _ _ (fun a t => ?_) _).trans (by simp)
    split <;> simp
  · refine (forEachP_hostMem _ _ (fun a t => ?_) _).trans (by simp)
    split <;> simp
@[simp] theorem State.loadGrid_mems (s : State) (p : Nat) (cols : Nat) (rows : Nat) (d : Bytes) : (State.loadGrid s p cols rows d).Mems ↔ s.Mems := by
  unfold State.Mems; rw [(State.loadGrid_keeps s p cols rows d).1, (State.loadGrid_keeps s p cols rows d).2]
@[simp] theorem applyProjPort_keeps (b : Bytes) (d : Bytes) (dims : Nat) (s : State) :
    (applyProjPort b d dims s).mem = s.mem ∧ (applyProjPort b d dims s).hostMem = s.hostMem := by
  simp [applyProjPort]
@[simp] theorem applyProjPort_mems (b : Bytes) (d : Bytes) (dims : Nat) (s : State) : (applyProjPort b d dims s).Mems ↔ s.Mems := by
  unfold State.Mems; rw [(applyProjPort_keeps b d dims s).1, (applyProjPort_keeps b d dims s).2]
@[simp] theorem applyStack_keeps (b : Bytes) (dram : Nat) (s : State) :
    (applyStack b dram s).mem = s.mem ∧ (applyStack b dram s).hostMem = s.hostMem := by
  unfold applyStack; ((try dsimp only); repeat' split) <;> simp
@[simp] theorem applyStack_mems (b : Bytes) (dram : Nat) (s : State) : (applyStack b dram s).Mems ↔ s.Mems := by
  unfold State.Mems; rw [(applyStack_keeps b dram s).1, (applyStack_keeps b dram s).2]
@[simp] theorem applyCobalt_keeps (c : GCmd) (s : State) :
    (applyCobalt c s).mem = s.mem ∧ (applyCobalt c s).hostMem = s.hostMem := by
  simp [applyCobalt]
@[simp] theorem applyCobalt_mems (c : GCmd) (s : State) : (applyCobalt c s).Mems ↔ s.Mems := by
  unfold State.Mems; rw [(applyCobalt_keeps c s).1, (applyCobalt_keeps c s).2]
@[simp] theorem State.angleUpdate_keeps (s : State) :
    (State.angleUpdate s).mem = s.mem ∧ (State.angleUpdate s).hostMem = s.hostMem := by
  simp [State.angleUpdate]
@[simp] theorem State.angleUpdate_mems (s : State) : (State.angleUpdate s).Mems ↔ s.Mems := by
  unfold State.Mems; rw [(State.angleUpdate_keeps s).1, (State.angleUpdate_keeps s).2]
@[simp] theorem State.revCheck_mems (s : State) (θ : Int) (t : Stamp) (h : s.Mems) : (State.revCheck s θ t).Mems := by
  unfold State.revCheck
  dsimp only
  (repeat' split)
  · exact h
  · simpa using h
  · exact forEach_mems _ _ (fun k u hu => State.stkBoundary_mems u k _ t hu) _ (by simpa using h)
  · exact h
@[simp] theorem State.angleEntry_mems (s : State) (θ : Int) (t : Stamp) (h : s.Mems) : (State.angleEntry s θ t).Mems := by
  simp [State.angleEntry, h, h.1, h.2]
@[simp] theorem State.quadCount_mems (s : State) (up : Bool) (t : Stamp) (h : s.Mems) : (State.quadCount s up t).Mems := by
  unfold State.quadCount; ((try dsimp only); repeat' split) <;> simp [h, h.1, h.2]
@[simp] theorem workEncoderEntry_mems (up : Bool) (ns : Nat) (s : State) (h : s.Mems) : ResMems (workEncoderEntry up ns s) := by
  simp [workEncoderEntry, h, h.1, h.2]
@[simp] theorem workEncoderCountEdge_mems (d : Sys2Proof.QuadStep) (s : State) (h : s.Mems) : ResMems (workEncoderCountEdge d s) := by
  unfold workEncoderCountEdge; ((try dsimp only); repeat' split) <;> simp [h, h.1, h.2]
@[simp] theorem workEncoderIndex_mems (ns : Nat) (s : State) (h : s.Mems) : ResMems (workEncoderIndex ns s) := by
  unfold workEncoderIndex; ((try dsimp only); repeat' split) <;> simp [h, h.1, h.2]
@[simp] theorem workSsiPoll_mems (frame : Nat) (ns : Nat) (s : State) (h : s.Mems) : ResMems (workSsiPoll frame ns s) := by
  unfold workSsiPoll; ((try dsimp only); repeat' split) <;> simp [h, h.1, h.2]
@[simp] theorem workAngleTick_keeps (s : State) : ResKeeps s (workAngleTick s) := by
  simp [workAngleTick]
@[simp] theorem workAngleTick_mems (s : State) (h : s.Mems) : ResMems (workAngleTick s) := (workAngleTick_keeps s).mems h
@[simp] theorem State.angSnap_keeps (s : State) :
    (State.angSnap s).mem = s.mem ∧ (State.angSnap s).hostMem = s.hostMem := by
  simp [State.angSnap]
@[simp] theorem State.angSnap_mems (s : State) : (State.angSnap s).Mems ↔ s.Mems := by
  unfold State.Mems; rw [(State.angSnap_keeps s).1, (State.angSnap_keeps s).2]
@[simp] theorem execCobAngSnap_keeps (v : Sys2Proof.Word) (s : State) : ResKeeps s (execCobAngSnap v s) := by
  simp [execCobAngSnap]
@[simp] theorem execCobAngSnap_mems (v : Sys2Proof.Word) (s : State) (h : s.Mems) : ResMems (execCobAngSnap v s) := (execCobAngSnap_keeps v s).mems h
@[simp] theorem workImuDrdyEdge_keeps (burst : Bytes) (ns : Nat) (s : State) : ResKeeps s (workImuDrdyEdge burst ns s) := by
  simp [workImuDrdyEdge]
@[simp] theorem workImuDrdyEdge_mems (burst : Bytes) (ns : Nat) (s : State) (h : s.Mems) : ResMems (workImuDrdyEdge burst ns s) := (workImuDrdyEdge_keeps burst ns s).mems h
@[simp] theorem workImuSilent_keeps (s : State) : ResKeeps s (workImuSilent s) := by
  simp [workImuSilent]
@[simp] theorem workImuSilent_mems (s : State) (h : s.Mems) : ResMems (workImuSilent s) := (workImuSilent_keeps s).mems h
@[simp] theorem State.cobDown_mems (s : State) (h : s.Mems) : (State.cobDown s).Mems := by
  unfold State.cobDown
  simp only [State.modCobalt_mems, State.setRegs_mems]
  exact forEach_mems _ _ (fun k t ht => by simpa using ht) _
    (foldl_mems _ (fun t e ht => State.projectHead_mems t e ht) _ _ (by simpa using h))
@[simp] theorem actRotor_keeps (c : Cmd) (s : State) :
    (actRotor c s).1.mem = s.mem ∧ (actRotor c s).1.hostMem = s.hostMem := by
  simp [actRotor]
@[simp] theorem actRotor_mems (c : Cmd) (s : State) : (actRotor c s).1.Mems ↔ s.Mems := by
  unfold State.Mems; rw [(actRotor_keeps c s).1, (actRotor_keeps c s).2]
@[simp] theorem execProjSetRotor_keeps (p : Nat) (s : State) : ResKeeps s (execProjSetRotor p s) := by
  unfold execProjSetRotor; refine (resKeeps_next _ _).mpr (runPage_keeps _ _ _ _ ?_); refine plainPage_keeps _ _ ?_; intro c t; simp
@[simp] theorem execProjSetRotor_mems (p : Nat) (s : State) (h : s.Mems) : ResMems (execProjSetRotor p s) := (execProjSetRotor_keeps p s).mems h
@[simp] theorem actImu_keeps (c : Cmd) (s : State) :
    (actImu c s).1.mem = s.mem ∧ (actImu c s).1.hostMem = s.hostMem := by
  simp [actImu]
@[simp] theorem actImu_mems (c : Cmd) (s : State) : (actImu c s).1.Mems ↔ s.Mems := by
  unfold State.Mems; rw [(actImu_keeps c s).1, (actImu_keeps c s).2]
@[simp] theorem execProjSetImu_keeps (p : Nat) (s : State) : ResKeeps s (execProjSetImu p s) := by
  unfold execProjSetImu; refine (resKeeps_next _ _).mpr (runPage_keeps _ _ _ _ ?_); refine plainPage_keeps _ _ ?_; intro c t; simp
@[simp] theorem execProjSetImu_mems (p : Nat) (s : State) (h : s.Mems) : ResMems (execProjSetImu p s) := (execProjSetImu_keeps p s).mems h
@[simp] theorem actReleaseMap_keeps (c : Cmd) (s : State) :
    (actReleaseMap c s).1.mem = s.mem ∧ (actReleaseMap c s).1.hostMem = s.hostMem := by
  simp [actReleaseMap]
@[simp] theorem actReleaseMap_mems (c : Cmd) (s : State) : (actReleaseMap c s).1.Mems ↔ s.Mems := by
  unfold State.Mems; rw [(actReleaseMap_keeps c s).1, (actReleaseMap_keeps c s).2]
@[simp] theorem execProjReleaseMap_keeps (p : Nat) (s : State) : ResKeeps s (execProjReleaseMap p s) := by
  unfold execProjReleaseMap; refine (resKeeps_next _ _).mpr (runPage_keeps _ _ _ _ ?_); refine plainPage_keeps _ _ ?_; intro c t; simp
@[simp] theorem execProjReleaseMap_mems (p : Nat) (s : State) (h : s.Mems) : ResMems (execProjReleaseMap p s) := (execProjReleaseMap_keeps p s).mems h
@[simp] theorem actProjState_keeps (x0 : Cmd) (s : State) :
    (actProjState x0 s).1.mem = s.mem ∧ (actProjState x0 s).1.hostMem = s.hostMem := by
  simp [actProjState]
@[simp] theorem actProjState_mems (x0 : Cmd) (s : State) : (actProjState x0 s).1.Mems ↔ s.Mems := by
  unfold State.Mems; rw [(actProjState_keeps x0 s).1, (actProjState_keeps x0 s).2]
@[simp] theorem execProjGetState_keeps (p : Nat) (s : State) : ResKeeps s (execProjGetState p s) := by
  unfold execProjGetState; refine (resKeeps_next _ _).mpr (runPage_keeps _ _ _ _ ?_); refine plainPage_keeps _ _ ?_; intro c t; simp
@[simp] theorem execProjGetState_mems (p : Nat) (s : State) (h : s.Mems) : ResMems (execProjGetState p s) := (execProjGetState_keeps p s).mems h


end Sys2Proof.Machine
end

