-- ==== Sys2Proof/Laws/MemSepia.lean ====
section
/-! SUPPORT. What the operations and meanings of Machine/Sepia.lean do to the two memories: `_keeps` says that both stay as
they were, `_mems` that their canonical form is kept. -/

namespace Sys2Proof.Machine

@[simp] theorem State.modSepia_keeps (s : State) (f : Sepia → Sepia) :
    (State.modSepia s f).mem = s.mem ∧ (State.modSepia s f).hostMem = s.hostMem := by
  simp [State.modSepia]
@[simp] theorem State.modSepia_mems (s : State) (f : Sepia → Sepia) : (State.modSepia s f).Mems ↔ s.Mems := by
  unfold State.Mems; rw [(State.modSepia_keeps s f).1, (State.modSepia_keeps s f).2]
@[simp] theorem State.setSurf_keeps (s : State) (k : Nat) (x : SurfDyn) :
    (State.setSurf s k x).mem = s.mem ∧ (State.setSurf s k x).hostMem = s.hostMem := by
  simp [State.setSurf]
@[simp] theorem State.setSurf_mems (s : State) (k : Nat) (x : SurfDyn) : (State.setSurf s k x).Mems ↔ s.Mems := by
  unfold State.Mems; rw [(State.setSurf_keeps s k x).1, (State.setSurf_keeps s k x).2]
@[simp] theorem State.sepStall_keeps (s : State) :
    (State.sepStall s).mem = s.mem ∧ (State.sepStall s).hostMem = s.hostMem := by
  simp [State.sepStall]
@[simp] theorem State.sepStall_mems (s : State) : (State.sepStall s).Mems ↔ s.Mems := by
  unfold State.Mems; rw [(State.sepStall_keeps s).1, (State.sepStall_keeps s).2]
@[simp] theorem workSepiaStagingResume_keeps (s : State) : ResKeeps s (workSepiaStagingResume s) := by
  simp [workSepiaStagingResume]
@[simp] theorem workSepiaStagingResume_mems (s : State) (h : s.Mems) : ResMems (workSepiaStagingResume s) := (workSepiaStagingResume_keeps s).mems h
@[simp] theorem State.emitBatch_keeps (s : State) (k : Nat) (flow : Bool) (b : Batch) :
    (State.emitBatch s k flow b).mem = s.mem ∧ (State.emitBatch s k flow b).hostMem = s.hostMem := by
  simp [State.emitBatch]
@[simp] theorem State.emitBatch_mems (s : State) (k : Nat) (flow : Bool) (b : Batch) : (State.emitBatch s k flow b).Mems ↔ s.Mems := by
  unfold State.Mems; rw [(State.emitBatch_keeps s k flow b).1, (State.emitBatch_keeps s k flow b).2]
@[simp] theorem State.closeBatch_keeps (s : State) (k : Nat) (flow : Bool) :
    (State.closeBatch s k flow).mem = s.mem ∧ (State.closeBatch s k flow).hostMem = s.hostMem := by
  unfold State.closeBatch; constructor <;> ((try dsimp only); repeat' split) <;> simp
@[simp] theorem State.closeBatch_mems (s : State) (k : Nat) (flow : Bool) : (State.closeBatch s k flow).Mems ↔ s.Mems := by
  unfold State.Mems; rw [(State.closeBatch_keeps s k flow).1, (State.closeBatch_keeps s k flow).2]
@[simp] theorem State.batchAdd_keeps (s : State) (k : Nat) (flow : Bool) (e : PEv) (entry : Bytes) (max : Nat) :
    (State.batchAdd s k flow e entry max).mem = s.mem ∧ (State.batchAdd s k flow e entry max).hostMem = s.hostMem := by
  unfold State.batchAdd; split <;> simp
@[simp] theorem State.batchAdd_mems (s : State) (k : Nat) (flow : Bool) (e : PEv) (entry : Bytes) (max : Nat) : (State.batchAdd s k flow e entry max).Mems ↔ s.Mems := by
  unfold State.Mems; rw [(State.batchAdd_keeps s k flow e entry max).1, (State.batchAdd_keeps s k flow e entry max).2]
@[simp] theorem State.setTrack_keeps (s : State) (i : Nat) (t : Track) :
    (State.setTrack s i t).mem = s.mem ∧ (State.setTrack s i t).hostMem = s.hostMem := by
  simp [State.setTrack]
@[simp] theorem State.setTrack_mems (s : State) (i : Nat) (t : Track) : (State.setTrack s i t).Mems ↔ s.Mems := by
  unfold State.Mems; rw [(State.setTrack_keeps s i t).1, (State.setTrack_keeps s i t).2]
@[simp] theorem State.measure_keeps (s : State) (k : Nat) (i : Nat) (t : Track) (e : PEv) (x : F32) (y : F32) (vx : F32) (vy : F32) (corner : Bool) :
    (State.measure s k i t e x y vx vy corner).mem = s.mem ∧ (State.measure s k i t e x y vx vy corner).hostMem = s.hostMem := by
  simp [State.measure]
@[simp] theorem State.measure_mems (s : State) (k : Nat) (i : Nat) (t : Track) (e : PEv) (x : F32) (y : F32) (vx : F32) (vy : F32) (corner : Bool) : (State.measure s k i t e x y vx vy corner).Mems ↔ s.Mems := by
  unfold State.Mems; rw [(State.measure_keeps s k i t e x y vx vy corner).1, (State.measure_keeps s k i t e x y vx vy corner).2]
@[simp] theorem State.trackCorner_keeps (s : State) (k : Nat) (e : PEv) (z : F32 × F32) :
    (State.trackCorner s k e z).1.mem = s.mem ∧ (State.trackCorner s k e z).1.hostMem = s.hostMem := by
  unfold State.trackCorner; constructor <;> ((try dsimp only); repeat' split) <;> simp
@[simp] theorem State.trackCorner_mems (s : State) (k : Nat) (e : PEv) (z : F32 × F32) : (State.trackCorner s k e z).1.Mems ↔ s.Mems := by
  unfold State.Mems; rw [(State.trackCorner_keeps s k e z).1, (State.trackCorner_keeps s k e z).2]
@[simp] theorem State.trackFlow_keeps (s : State) (k : Nat) (e : PEv) (z : F32 × F32) (vx : F32) (vy : F32) :
    (State.trackFlow s k e z vx vy).mem = s.mem ∧ (State.trackFlow s k e z vx vy).hostMem = s.hostMem := by
  unfold State.trackFlow; constructor <;> ((try dsimp only); repeat' split) <;> simp
@[simp] theorem State.trackFlow_mems (s : State) (k : Nat) (e : PEv) (z : F32 × F32) (vx : F32) (vy : F32) : (State.trackFlow s k e z vx vy).Mems ↔ s.Mems := by
  unfold State.Mems; rw [(State.trackFlow_keeps s k e z vx vy).1, (State.trackFlow_keeps s k e z vx vy).2]
@[simp] theorem State.enqueue_keeps (s : State) (k : Nat) (flow : Bool) (e : PEv) :
    (State.enqueue s k flow e).mem = s.mem ∧ (State.enqueue s k flow e).hostMem = s.hostMem := by
  simp [State.enqueue]
@[simp] theorem State.enqueue_mems (s : State) (k : Nat) (flow : Bool) (e : PEv) : (State.enqueue s k flow e).Mems ↔ s.Mems := by
  unfold State.Mems; rw [(State.enqueue_keeps s k flow e).1, (State.enqueue_keeps s k flow e).2]
@[simp] theorem State.surfUse_keeps (s : State) (k : Nat) (e : PEv) :
    (State.surfUse s k e).mem = s.mem ∧ (State.surfUse s k e).hostMem = s.hostMem := by
  simp [State.surfUse]
@[simp] theorem State.surfUse_mems (s : State) (k : Nat) (e : PEv) : (State.surfUse s k e).Mems ↔ s.Mems := by
  unfold State.Mems; rw [(State.surfUse_keeps s k e).1, (State.surfUse_keeps s k e).2]
@[simp] theorem workSurfaceUpdate_keeps (s : State) : ResKeeps s (workSurfaceUpdate s) := by
  unfold workSurfaceUpdate; split <;> simp
@[simp] theorem workSurfaceUpdate_mems (s : State) (h : s.Mems) : ResMems (workSurfaceUpdate s) := (workSurfaceUpdate_keeps s).mems h
@[simp] theorem workSurfaceScrub_keeps (surface : Nat) (s : State) : ResKeeps s (workSurfaceScrub surface s) := by
  simp [workSurfaceScrub]
@[simp] theorem workSurfaceScrub_mems (surface : Nat) (s : State) (h : s.Mems) : ResMems (workSurfaceScrub surface s) := (workSurfaceScrub_keeps surface s).mems h
@[simp] theorem State.applyMeas_keeps (s : State) (x1 : Meas) :
    (State.applyMeas s x1).mem = s.mem ∧ (State.applyMeas s x1).hostMem = s.hostMem := by
  unfold State.applyMeas; (repeat' split) <;> simp
@[simp] theorem State.applyMeas_mems (s : State) (x1 : Meas) : (State.applyMeas s x1).Mems ↔ s.Mems := by
  unfold State.Mems; rw [(State.applyMeas_keeps s x1).1, (State.applyMeas_keeps s x1).2]
@[simp] theorem State.measured_keeps (s : State) (m : Meas) :
    (State.measured s m).mem = s.mem ∧ (State.measured s m).hostMem = s.hostMem := by
  simp [State.measured]
@[simp] theorem State.measured_mems (s : State) (m : Meas) : (State.measured s m).Mems ↔ s.Mems := by
  unfold State.Mems; rw [(State.measured_keeps s m).1, (State.measured_keeps s m).2]
@[simp] theorem State.releaseHeld_keeps (s : State) :
    (State.releaseHeld s).mem = s.mem ∧ (State.releaseHeld s).hostMem = s.hostMem := by
  simp [State.releaseHeld]
@[simp] theorem State.releaseHeld_mems (s : State) : (State.releaseHeld s).Mems ↔ s.Mems := by
  unfold State.Mems; rw [(State.releaseHeld_keeps s).1, (State.releaseHeld_keeps s).2]
@[simp] theorem State.testCorner_keeps (s : State) (c : Cand) :
    (State.testCorner s c).mem = s.mem ∧ (State.testCorner s c).hostMem = s.hostMem := by
  unfold State.testCorner; ((try dsimp only); repeat' split) <;> simp
@[simp] theorem State.testCorner_mems (s : State) (c : Cand) : (State.testCorner s c).Mems ↔ s.Mems := by
  unfold State.Mems; rw [(State.testCorner_keeps s c).1, (State.testCorner_keeps s c).2]
@[simp] theorem workCornerTest_keeps (s : State) : ResKeeps s (workCornerTest s) := by
  unfold workCornerTest; ((try dsimp only); repeat' split) <;> simp
@[simp] theorem workCornerTest_mems (s : State) (h : s.Mems) : ResMems (workCornerTest s) := (workCornerTest_keeps s).mems h
@[simp] theorem State.fitFlow_keeps (s : State) (c : Cand) :
    (State.fitFlow s c).mem = s.mem ∧ (State.fitFlow s c).hostMem = s.hostMem := by
  unfold State.fitFlow; ((try dsimp only); repeat' split) <;> simp
@[simp] theorem State.fitFlow_mems (s : State) (c : Cand) : (State.fitFlow s c).Mems ↔ s.Mems := by
  unfold State.Mems; rw [(State.fitFlow_keeps s c).1, (State.fitFlow_keeps s c).2]
@[simp] theorem workFlowFit_keeps (s : State) : ResKeeps s (workFlowFit s) := by
  unfold workFlowFit; ((try dsimp only); repeat' split) <;> simp
@[simp] theorem workFlowFit_mems (s : State) (h : s.Mems) : ResMems (workFlowFit s) := (workFlowFit_keeps s).mems h
@[simp] theorem State.mergePair_keeps (s : State) (at' : Nat) (i : Nat) (j : Nat) :
    (State.mergePair s at' i j).mem = s.mem ∧ (State.mergePair s at' i j).hostMem = s.hostMem := by
  unfold State.mergePair; split <;> simp
@[simp] theorem State.mergePair_mems (s : State) (at' : Nat) (i : Nat) (j : Nat) : (State.mergePair s at' i j).Mems ↔ s.Mems := by
  unfold State.Mems; rw [(State.mergePair_keeps s at' i j).1, (State.mergePair_keeps s at' i j).2]
@[simp] theorem State.report_keeps (s : State) (k : Nat) (t : Stamp) (l : List (Nat × Track)) :
    (State.report s k t l).mem = s.mem ∧ (State.report s k t l).hostMem = s.hostMem := by
  simp [State.report]
@[simp] theorem State.report_mems (s : State) (k : Nat) (t : Stamp) (l : List (Nat × Track)) : (State.report s k t l).Mems ↔ s.Mems := by
  unfold State.Mems; rw [(State.report_keeps s k t l).1, (State.report_keeps s k t l).2]
@[simp] theorem State.freeTracks_keeps (s : State) (p : Track → Bool) :
    (State.freeTracks s p).mem = s.mem ∧ (State.freeTracks s p).hostMem = s.hostMem := by
  simp [State.freeTracks]
@[simp] theorem State.freeTracks_mems (s : State) (p : Track → Bool) : (State.freeTracks s p).Mems ↔ s.Mems := by
  unfold State.Mems; rw [(State.freeTracks_keeps s p).1, (State.freeTracks_keeps s p).2]
@[simp] theorem State.endAll_keeps (s : State) (k : Nat) :
    (State.endAll s k).mem = s.mem ∧ (State.endAll s k).hostMem = s.hostMem := by
  simp [State.endAll]
@[simp] theorem State.endAll_mems (s : State) (k : Nat) : (State.endAll s k).Mems ↔ s.Mems := by
  unfold State.Mems; rw [(State.endAll_keeps s k).1, (State.endAll_keeps s k).2]
@[simp] theorem State.freePages_keeps (s : State) :
    (State.freePages s).mem = s.mem ∧ (State.freePages s).hostMem = s.hostMem := by
  simp [State.freePages]
@[simp] theorem State.freePages_mems (s : State) : (State.freePages s).Mems ↔ s.Mems := by
  unfold State.Mems; rw [(State.freePages_keeps s).1, (State.freePages_keeps s).2]
@[simp] theorem applySurface_keeps (b : Bytes) (ctx : Nat) (frame : Nat) (s : State) :
    (applySurface b ctx frame s).mem = s.mem ∧ (applySurface b ctx frame s).hostMem = s.hostMem := by
  simp [applySurface]
@[simp] theorem applySurface_mems (b : Bytes) (ctx : Nat) (frame : Nat) (s : State) : (applySurface b ctx frame s).Mems ↔ s.Mems := by
  unfold State.Mems; rw [(applySurface_keeps b ctx frame s).1, (applySurface_keeps b ctx frame s).2]
@[simp] theorem applyTracker_keeps (b : Bytes) (s : State) :
    (applyTracker b s).mem = s.mem ∧ (applyTracker b s).hostMem = s.hostMem := by
  simp [applyTracker]
@[simp] theorem applyTracker_mems (b : Bytes) (s : State) : (applyTracker b s).Mems ↔ s.Mems := by
  unfold State.Mems; rw [(applyTracker_keeps b s).1, (applyTracker_keeps b s).2]
@[simp] theorem applySepia_keeps (c : GCmd) (s : State) :
    (applySepia c s).mem = s.mem ∧ (applySepia c s).hostMem = s.hostMem := by
  simp [applySepia]
@[simp] theorem applySepia_mems (c : GCmd) (s : State) : (applySepia c s).Mems ↔ s.Mems := by
  unfold State.Mems; rw [(applySepia_keeps c s).1, (applySepia_keeps c s).2]
@[simp] theorem State.sepApply_keeps (s : State) (k : Nat) :
    (State.sepApply s k).mem = s.mem ∧ (State.sepApply s k).hostMem = s.hostMem := by
  unfold State.sepApply; split <;> simp
@[simp] theorem State.sepApply_mems (s : State) (k : Nat) : (State.sepApply s k).Mems ↔ s.Mems := by
  unfold State.Mems; rw [(State.sepApply_keeps s k).1, (State.sepApply_keeps s k).2]
@[simp] theorem State.decayTick_keeps (s : State) (t : Stamp) :
    (State.decayTick s t).mem = s.mem ∧ (State.decayTick s t).hostMem = s.hostMem := by
  unfold State.decayTick; constructor <;> ((try dsimp only); repeat' split) <;> simp
@[simp] theorem State.decayTick_mems (s : State) (t : Stamp) : (State.decayTick s t).Mems ↔ s.Mems := by
  unfold State.Mems; rw [(State.decayTick_keeps s t).1, (State.decayTick_keeps s t).2]
@[simp] theorem workDecayTick_keeps (s : State) : ResKeeps s (workDecayTick s) := by
  simp [workDecayTick]
@[simp] theorem workDecayTick_mems (s : State) (h : s.Mems) : ResMems (workDecayTick s) := (workDecayTick_keeps s).mems h
@[simp] theorem State.sepDrain_keeps (s : State) :
    (State.sepDrain s).mem = s.mem ∧ (State.sepDrain s).hostMem = s.hostMem := by
  simp [State.sepDrain]
@[simp] theorem State.sepDrain_mems (s : State) : (State.sepDrain s).Mems ↔ s.Mems := by
  unfold State.Mems; rw [(State.sepDrain_keeps s).1, (State.sepDrain_keeps s).2]
@[simp] theorem State.sepDown_keeps (s : State) :
    (State.sepDown s).mem = s.mem ∧ (State.sepDown s).hostMem = s.hostMem := by
  simp [State.sepDown]
@[simp] theorem State.sepDown_mems (s : State) : (State.sepDown s).Mems ↔ s.Mems := by
  unfold State.Mems; rw [(State.sepDown_keeps s).1, (State.sepDown_keeps s).2]
@[simp] theorem State.sepSwitch_keeps (s : State) (k : Nat) :
    (State.sepSwitch s k).mem = s.mem ∧ (State.sepSwitch s k).hostMem = s.hostMem := by
  simp [State.sepSwitch]
@[simp] theorem State.sepSwitch_mems (s : State) (k : Nat) : (State.sepSwitch s k).Mems ↔ s.Mems := by
  unfold State.Mems; rw [(State.sepSwitch_keeps s k).1, (State.sepSwitch_keeps s k).2]
@[simp] theorem execFeatSetTick_keeps (p : Nat) (s : State) : ResKeeps s (execFeatSetTick p s) := by
  unfold execFeatSetTick; refine (resKeeps_next _ _).mpr (runPage_keeps _ _ _ _ ?_); refine plainPage_keeps _ _ ?_; intro c t; simp
@[simp] theorem execFeatSetTick_mems (p : Nat) (s : State) (h : s.Mems) : ResMems (execFeatSetTick p s) := (execFeatSetTick_keeps p s).mems h
@[simp] theorem State.clearSurf_keeps (s : State) (k : Nat) :
    (State.clearSurf s k).mem = s.mem ∧ (State.clearSurf s k).hostMem = s.hostMem := by
  simp [State.clearSurf]
@[simp] theorem State.clearSurf_mems (s : State) (k : Nat) : (State.clearSurf s k).Mems ↔ s.Mems := by
  unfold State.Mems; rw [(State.clearSurf_keeps s k).1, (State.clearSurf_keeps s k).2]
@[simp] theorem actSurfStats_keeps (c : Cmd) (s : State) :
    (actSurfStats c s).1.mem = s.mem ∧ (actSurfStats c s).1.hostMem = s.hostMem := by
  simp [actSurfStats]
@[simp] theorem actSurfStats_mems (c : Cmd) (s : State) : (actSurfStats c s).1.Mems ↔ s.Mems := by
  unfold State.Mems; rw [(actSurfStats_keeps c s).1, (actSurfStats_keeps c s).2]
@[simp] theorem execFeatGetStats_keeps (p : Nat) (s : State) : ResKeeps s (execFeatGetStats p s) := by
  unfold execFeatGetStats; refine (resKeeps_next _ _).mpr (runPage_keeps _ _ _ _ ?_); refine plainPage_keeps _ _ ?_; intro c t; simp
@[simp] theorem execFeatGetStats_mems (p : Nat) (s : State) (h : s.Mems) : ResMems (execFeatGetStats p s) := (execFeatGetStats_keeps p s).mems h
@[simp] theorem execSepSnCntClr_keeps (surface : Nat) (v : Sys2Proof.Word) (s : State) : ResKeeps s (execSepSnCntClr surface v s) := by
  simp [execSepSnCntClr]
@[simp] theorem execSepSnCntClr_mems (surface : Nat) (v : Sys2Proof.Word) (s : State) (h : s.Mems) : ResMems (execSepSnCntClr surface v s) := (execSepSnCntClr_keeps surface v s).mems h


end Sys2Proof.Machine
end

