-- ==== Sys2Proof/Laws/MemUmber.lean ====
section
/-! SUPPORT. What the operations and meanings of Machine/Umber.lean do to the two memories: `_keeps` says that both stay as
they were, `_mems` that their canonical form is kept. -/

namespace Sys2Proof.Machine

theorem foldlP_mem {α β : Type} (f : State × β → α → State × β) (h : ∀ t a, (f t a).1.mem = t.1.mem) (l : List α) :
    ∀ s, (l.foldl f s).1.mem = s.1.mem := by
  induction l with
  | nil => intro s; rfl
  | cons a l ih => intro s; rw [List.foldl_cons, ih, h]
theorem foldlP_hostMem {α β : Type} (f : State × β → α → State × β) (h : ∀ t a, (f t a).1.hostMem = t.1.hostMem) (l : List α) :
    ∀ s, (l.foldl f s).1.hostMem = s.1.hostMem := by
  induction l with
  | nil => intro s; rfl
  | cons a l ih => intro s; rw [List.foldl_cons, ih, h]
@[simp] theorem State.modUmber_keeps (s : State) (f : Umber → Umber) :
    (State.modUmber s f).mem = s.mem ∧ (State.modUmber s f).hostMem = s.hostMem := by
  simp [State.modUmber]
@[simp] theorem State.modUmber_mems (s : State) (f : Umber → Umber) : (State.modUmber s f).Mems ↔ s.Mems := by
  unfold State.Mems; rw [(State.modUmber_keeps s f).1, (State.modUmber_keeps s f).2]
@[simp] theorem State.setTdm_keeps (s : State) (p : Nat) (x : TdmPort) :
    (State.setTdm s p x).mem = s.mem ∧ (State.setTdm s p x).hostMem = s.hostMem := by
  simp [State.setTdm]
@[simp] theorem State.setTdm_mems (s : State) (p : Nat) (x : TdmPort) : (State.setTdm s p x).Mems ↔ s.Mems := by
  unfold State.Mems; rw [(State.setTdm_keeps s p x).1, (State.setTdm_keeps s p x).2]
@[simp] theorem State.setChan_keeps (s : State) (c : Nat) (x : Chan) :
    (State.setChan s c x).mem = s.mem ∧ (State.setChan s c x).hostMem = s.hostMem := by
  simp [State.setChan]
@[simp] theorem State.setChan_mems (s : State) (c : Nat) (x : Chan) : (State.setChan s c x).Mems ↔ s.Mems := by
  unfold State.Mems; rw [(State.setChan_keeps s c x).1, (State.setChan_keeps s c x).2]
@[simp] theorem State.setBand_keeps (s : State) (b : Nat) (x : Band) :
    (State.setBand s b x).mem = s.mem ∧ (State.setBand s b x).hostMem = s.hostMem := by
  simp [State.setBand]
@[simp] theorem State.setBand_mems (s : State) (b : Nat) (x : Band) : (State.setBand s b x).Mems ↔ s.Mems := by
  unfold State.Mems; rw [(State.setBand_keeps s b x).1, (State.setBand_keeps s b x).2]
@[simp] theorem State.setGroup_keeps (s : State) (g : Nat) (x : SyncGroup) :
    (State.setGroup s g x).mem = s.mem ∧ (State.setGroup s g x).hostMem = s.hostMem := by
  simp [State.setGroup]
@[simp] theorem State.setGroup_mems (s : State) (g : Nat) (x : SyncGroup) : (State.setGroup s g x).Mems ↔ s.Mems := by
  unfold State.Mems; rw [(State.setGroup_keeps s g x).1, (State.setGroup_keeps s g x).2]
@[simp] theorem State.umbStall_keeps (s : State) :
    (State.umbStall s).mem = s.mem ∧ (State.umbStall s).hostMem = s.hostMem := by
  simp [State.umbStall]
@[simp] theorem State.umbStall_mems (s : State) : (State.umbStall s).Mems ↔ s.Mems := by
  unfold State.Mems; rw [(State.umbStall_keeps s).1, (State.umbStall_keeps s).2]
@[simp] theorem workUmberStagingResume_keeps (s : State) : ResKeeps s (workUmberStagingResume s) := by
  simp [workUmberStagingResume]
@[simp] theorem workUmberStagingResume_mems (s : State) (h : s.Mems) : ResMems (workUmberStagingResume s) := (workUmberStagingResume_keeps s).mems h
@[simp] theorem State.umbEmit_keeps (s : State) (c : Nat) (type : Nat) (tov : Stamp) (oldest : Nat) (flags : Sys2Proof.Word) (body : Bytes) :
    (State.umbEmit s c type tov oldest flags body).mem = s.mem ∧ (State.umbEmit s c type tov oldest flags body).hostMem = s.hostMem := by
  simp [State.umbEmit]
@[simp] theorem State.umbEmit_mems (s : State) (c : Nat) (type : Nat) (tov : Stamp) (oldest : Nat) (flags : Sys2Proof.Word) (body : Bytes) : (State.umbEmit s c type tov oldest flags body).Mems ↔ s.Mems := by
  unfold State.Mems; rw [(State.umbEmit_keeps s c type tov oldest flags body).1, (State.umbEmit_keeps s c type tov oldest flags body).2]
@[simp] theorem State.closeFBlock_keeps (s : State) (c : Nat) :
    (State.closeFBlock s c).mem = s.mem ∧ (State.closeFBlock s c).hostMem = s.hostMem := by
  unfold State.closeFBlock; constructor <;> ((try dsimp only); repeat' split) <;> simp
@[simp] theorem State.closeFBlock_mems (s : State) (c : Nat) : (State.closeFBlock s c).Mems ↔ s.Mems := by
  unfold State.Mems; rw [(State.closeFBlock_keeps s c).1, (State.closeFBlock_keeps s c).2]
@[simp] theorem State.blockAdd_keeps (s : State) (c : Nat) (y : Int) (t : Stamp) (flags : Sys2Proof.Word) (sat : Bool) :
    (State.blockAdd s c y t flags sat).mem = s.mem ∧ (State.blockAdd s c y t flags sat).hostMem = s.hostMem := by
  unfold State.blockAdd; (repeat' split) <;> simp
@[simp] theorem State.blockAdd_mems (s : State) (c : Nat) (y : Int) (t : Stamp) (flags : Sys2Proof.Word) (sat : Bool) : (State.blockAdd s c y t flags sat).Mems ↔ s.Mems := by
  unfold State.Mems; rw [(State.blockAdd_keeps s c y t flags sat).1, (State.blockAdd_keeps s c y t flags sat).2]
@[simp] theorem workFilterBlockTimeout_keeps (ch : Nat) (s : State) : ResKeeps s (workFilterBlockTimeout ch s) := by
  unfold workFilterBlockTimeout; split <;> simp
@[simp] theorem workFilterBlockTimeout_mems (ch : Nat) (s : State) (h : s.Mems) : ResMems (workFilterBlockTimeout ch s) := (workFilterBlockTimeout_keeps ch s).mems h
@[simp] theorem State.chSat_keeps (s : State) (c : Nat) :
    (State.chSat s c).mem = s.mem ∧ (State.chSat s c).hostMem = s.hostMem := by
  unfold State.chSat; constructor <;> ((try dsimp only); repeat' split) <;> simp
@[simp] theorem State.chSat_mems (s : State) (c : Nat) : (State.chSat s c).Mems ↔ s.Mems := by
  unfold State.Mems; rw [(State.chSat_keeps s c).1, (State.chSat_keeps s c).2]
@[simp] theorem State.cross_keeps (s : State) (c : Nat) (u : Nat) (up : Bool) (value : Int) (ms : Nat) (t : Stamp) (oldest : Nat) (flags : Sys2Proof.Word) :
    (State.cross s c u up value ms t oldest flags).mem = s.mem ∧ (State.cross s c u up value ms t oldest flags).hostMem = s.hostMem := by
  simp [State.cross]
@[simp] theorem State.cross_mems (s : State) (c : Nat) (u : Nat) (up : Bool) (value : Int) (ms : Nat) (t : Stamp) (oldest : Nat) (flags : Sys2Proof.Word) : (State.cross s c u up value ms t oldest flags).Mems ↔ s.Mems := by
  unfold State.Mems; rw [(State.cross_keeps s c u up value ms t oldest flags).1, (State.cross_keeps s c u up value ms t oldest flags).2]
@[simp] theorem State.threshold_keeps (s : State) (c : Nat) (u : Nat) (y : Int) (t : Stamp) (flags : Sys2Proof.Word) :
    (State.threshold s c u y t flags).mem = s.mem ∧ (State.threshold s c u y t flags).hostMem = s.hostMem := by
  simp [State.threshold]
@[simp] theorem State.threshold_mems (s : State) (c : Nat) (u : Nat) (y : Int) (t : Stamp) (flags : Sys2Proof.Word) : (State.threshold s c u y t flags).Mems ↔ s.Mems := by
  unfold State.Mems; rw [(State.threshold_keeps s c u y t flags).1, (State.threshold_keeps s c u y t flags).2]
@[simp] theorem State.bandSample_keeps (s : State) (b : Nat) (c : Nat) (v : Int) (t : Stamp) (g : Nat) (d : Nat) :
    (State.bandSample s b c v t g d).mem = s.mem ∧ (State.bandSample s b c v t g d).hostMem = s.hostMem := by
  simp [State.bandSample]
@[simp] theorem State.bandSample_mems (s : State) (b : Nat) (c : Nat) (v : Int) (t : Stamp) (g : Nat) (d : Nat) : (State.bandSample s b c v t g d).Mems ↔ s.Mems := by
  unfold State.Mems; rw [(State.bandSample_keeps s b c v t g d).1, (State.bandSample_keeps s b c v t g d).2]
@[simp] theorem State.countReset_keeps (s : State) (stamp : Nat) :
    (State.countReset s stamp).mem = s.mem ∧ (State.countReset s stamp).hostMem = s.hostMem := by
  simp [State.countReset]
@[simp] theorem State.countReset_mems (s : State) (stamp : Nat) : (State.countReset s stamp).Mems ↔ s.Mems := by
  unfold State.Mems; rw [(State.countReset_keeps s stamp).1, (State.countReset_keeps s stamp).2]
@[simp] theorem State.leaveResets_keeps (s : State) (g : Nat) (c : Nat) (gone : SyncReset → Bool) (takes : Bool) :
    (State.leaveResets s g c gone takes).mem = s.mem ∧ (State.leaveResets s g c gone takes).hostMem = s.hostMem := by
  simp [State.leaveResets]
@[simp] theorem State.leaveResets_mems (s : State) (g : Nat) (c : Nat) (gone : SyncReset → Bool) (takes : Bool) : (State.leaveResets s g c gone takes).Mems ↔ s.Mems := by
  unfold State.Mems; rw [(State.leaveResets_keeps s g c gone takes).1, (State.leaveResets_keeps s g c gone takes).2]
@[simp] theorem State.dropResets_keeps (s : State) (c : Nat) :
    (State.dropResets s c).mem = s.mem ∧ (State.dropResets s c).hostMem = s.hostMem := by
  simp [State.dropResets]
@[simp] theorem State.dropResets_mems (s : State) (c : Nat) : (State.dropResets s c).Mems ↔ s.Mems := by
  unfold State.Mems; rw [(State.dropResets_keeps s c).1, (State.dropResets_keeps s c).2]
@[simp] theorem State.resetGroup_keeps (s : State) (g : Nat) (t : Nat) :
    (State.resetGroup s g t).mem = s.mem ∧ (State.resetGroup s g t).hostMem = s.hostMem := by
  simp [State.resetGroup]
@[simp] theorem State.resetGroup_mems (s : State) (g : Nat) (t : Nat) : (State.resetGroup s g t).Mems ↔ s.Mems := by
  unfold State.Mems; rw [(State.resetGroup_keeps s g t).1, (State.resetGroup_keeps s g t).2]
@[simp] theorem applyChain_keeps (b : Bytes) (s : State) :
    (applyChain b s).mem = s.mem ∧ (applyChain b s).hostMem = s.hostMem := by
  simp [applyChain]
@[simp] theorem applyChain_mems (b : Bytes) (s : State) : (applyChain b s).Mems ↔ s.Mems := by
  unfold State.Mems; rw [(applyChain_keeps b s).1, (applyChain_keeps b s).2]
@[simp] theorem applyUmber_keeps (g : GCmd) (s : State) :
    (applyUmber g s).mem = s.mem ∧ (applyUmber g s).hostMem = s.hostMem := by
  simp [applyUmber]
@[simp] theorem applyUmber_mems (g : GCmd) (s : State) : (applyUmber g s).Mems ↔ s.Mems := by
  unfold State.Mems; rw [(applyUmber_keeps g s).1, (applyUmber_keeps g s).2]
@[simp] theorem State.umbApply_keeps (s : State) (g : Nat) :
    (State.umbApply s g).mem = s.mem ∧ (State.umbApply s g).hostMem = s.hostMem := by
  unfold State.umbApply; split <;> simp
@[simp] theorem State.umbApply_mems (s : State) (g : Nat) : (State.umbApply s g).Mems ↔ s.Mems := by
  unfold State.Mems; rw [(State.umbApply_keeps s g).1, (State.umbApply_keeps s g).2]
@[simp] theorem workUmberApplyFallback_keeps (group : Nat) (s : State) : ResKeeps s (workUmberApplyFallback group s) := by
  unfold workUmberApplyFallback; (repeat' split) <;> simp
@[simp] theorem workUmberApplyFallback_mems (group : Nat) (s : State) (h : s.Mems) : ResMems (workUmberApplyFallback group s) := (workUmberApplyFallback_keeps group s).mems h
@[simp] theorem State.chOutput_keeps (s : State) (c : Nat) (y : Int) (t : Stamp) (sat : Bool) :
    (State.chOutput s c y t sat).mem = s.mem ∧ (State.chOutput s c y t sat).hostMem = s.hostMem := by
  simp [State.chOutput]
@[simp] theorem State.chOutput_mems (s : State) (c : Nat) (y : Int) (t : Stamp) (sat : Bool) : (State.chOutput s c y t sat).Mems ↔ s.Mems := by
  unfold State.Mems; rw [(State.chOutput_keeps s c y t sat).1, (State.chOutput_keeps s c y t sat).2]
@[simp] theorem State.tapDc_keeps (s : State) (c : Nat) (k : Nat) (v : Int) :
    (State.tapDc s c k v).mem = s.mem ∧ (State.tapDc s c k v).hostMem = s.hostMem := by
  simp [State.tapDc]
@[simp] theorem State.tapDc_mems (s : State) (c : Nat) (k : Nat) (v : Int) : (State.tapDc s c k v).Mems ↔ s.Mems := by
  unfold State.Mems; rw [(State.tapDc_keeps s c k v).1, (State.tapDc_keeps s c k v).2]
@[simp] theorem State.tapBands_keeps (s : State) (c : Nat) (t : Stamp) (k : Nat) (y : Int) :
    (State.tapBands s c t k y).mem = s.mem ∧ (State.tapBands s c t k y).hostMem = s.hostMem := by
  simp [State.tapBands]
@[simp] theorem State.tapBands_mems (s : State) (c : Nat) (t : Stamp) (k : Nat) (y : Int) : (State.tapBands s c t k y).Mems ↔ s.Mems := by
  unfold State.Mems; rw [(State.tapBands_keeps s c t k y).1, (State.tapBands_keeps s c t k y).2]
@[simp] theorem State.stageIn_keeps (s : State) (c : Nat) (k : Nat) (y : Int) :
    (State.stageIn s c k y).mem = s.mem ∧ (State.stageIn s c k y).hostMem = s.hostMem := by
  simp [State.stageIn]
@[simp] theorem State.stageIn_mems (s : State) (c : Nat) (k : Nat) (y : Int) : (State.stageIn s c k y).Mems ↔ s.Mems := by
  unfold State.Mems; rw [(State.stageIn_keeps s c k y).1, (State.stageIn_keeps s c k y).2]
@[simp] theorem State.chSatIf_keeps (s : State) (c : Nat) (b : Bool) :
    (State.chSatIf s c b).mem = s.mem ∧ (State.chSatIf s c b).hostMem = s.hostMem := by
  simp [State.chSatIf]
@[simp] theorem State.chSatIf_mems (s : State) (c : Nat) (b : Bool) : (State.chSatIf s c b).Mems ↔ s.Mems := by
  unfold State.Mems; rw [(State.chSatIf_keeps s c b).1, (State.chSatIf_keeps s c b).2]
@[simp] theorem State.runTap_keeps (s : State) (c : Nat) (t : Stamp) (x3 : Nat) (x4 : Nat) (x5 : Int) (x6 : Bool) :
    (State.runTap s c t x3 x4 x5 x6).mem = s.mem ∧ (State.runTap s c t x3 x4 x5 x6).hostMem = s.hostMem := by
  fun_induction State.runTap s c t x3 x4 x5 x6 <;> simp_all +zetaDelta
@[simp] theorem State.runTap_mems (s : State) (c : Nat) (t : Stamp) (x3 : Nat) (x4 : Nat) (x5 : Int) (x6 : Bool) : (State.runTap s c t x3 x4 x5 x6).Mems ↔ s.Mems := by
  unfold State.Mems; rw [(State.runTap_keeps s c t x3 x4 x5 x6).1, (State.runTap_keeps s c t x3 x4 x5 x6).2]
@[simp] theorem State.takeReset_keeps (s : State) (c : Nat) (t : Stamp) :
    (State.takeReset s c t).mem = s.mem ∧ (State.takeReset s c t).hostMem = s.hostMem := by
  simp [State.takeReset]
@[simp] theorem State.takeReset_mems (s : State) (c : Nat) (t : Stamp) : (State.takeReset s c t).Mems ↔ s.Mems := by
  unfold State.Mems; rw [(State.takeReset_keeps s c t).1, (State.takeReset_keeps s c t).2]
@[simp] theorem State.freezeCheck_keeps (s : State) (c : Nat) :
    (State.freezeCheck s c).mem = s.mem ∧ (State.freezeCheck s c).hostMem = s.hostMem := by
  simp [State.freezeCheck]
@[simp] theorem State.freezeCheck_mems (s : State) (c : Nat) : (State.freezeCheck s c).Mems ↔ s.Mems := by
  unfold State.Mems; rw [(State.freezeCheck_keeps s c).1, (State.freezeCheck_keeps s c).2]
@[simp] theorem State.chInput_keeps (s : State) (c : Nat) (v : Int) (t : Stamp) :
    (State.chInput s c v t).mem = s.mem ∧ (State.chInput s c v t).hostMem = s.hostMem := by
  simp [State.chInput]
@[simp] theorem State.chInput_mems (s : State) (c : Nat) (v : Int) (t : Stamp) : (State.chInput s c v t).Mems ↔ s.Mems := by
  unfold State.Mems; rw [(State.chInput_keeps s c v t).1, (State.chInput_keeps s c v t).2]
theorem State.takeInput_keeps (s : State) (c : Nat) (v : Int) (t : Stamp) (w : State) (h : s.takeInput c = some (v, t, w)) :
    w.mem = s.mem ∧ w.hostMem = s.hostMem := by
  unfold State.takeInput at h
  split at h
  · split at h
    · simp only [Option.some.injEq, Prod.mk.injEq] at h
      have e := h.2.2; subst e; simp
    · simp at h
  · cases hf : (s.tdm (c / 8)).frames.find? (fun f => f.left.contains c) with
    | none => simp only [hf] at h; simp at h
    | some f =>
      simp only [hf, Option.some.injEq, Prod.mk.injEq] at h
      have e := h.2.2; subst e; simp
@[simp] theorem workChainSample_keeps (ch : Nat) (s : State) : ResKeeps s (workChainSample ch s) := by
  unfold workChainSample; rw [resKeeps_next]
  split
  · split
    · next v t u hu =>
      have e := State.takeInput_keeps _ _ _ _ _ hu
      split <;> simp [e]
    · simp
  · simp
@[simp] theorem workChainSample_mems (ch : Nat) (s : State) (h : s.Mems) : ResMems (workChainSample ch s) := (workChainSample_keeps ch s).mems h
@[simp] theorem State.emitTdmGap_keeps (s : State) (p : Nat) (g : Gap) (cont : Bool) :
    (State.emitTdmGap s p g cont).mem = s.mem ∧ (State.emitTdmGap s p g cont).hostMem = s.hostMem := by
  simp [State.emitTdmGap]
@[simp] theorem State.emitTdmGap_mems (s : State) (p : Nat) (g : Gap) (cont : Bool) : (State.emitTdmGap s p g cont).Mems ↔ s.Mems := by
  unfold State.Mems; rw [(State.emitTdmGap_keeps s p g cont).1, (State.emitTdmGap_keeps s p g cont).2]
@[simp] theorem State.tdmDrop_keeps (s : State) (p : Nat) (reason : Nat) (n : Nat) (t : Stamp) :
    (State.tdmDrop s p reason n t).mem = s.mem ∧ (State.tdmDrop s p reason n t).hostMem = s.hostMem := by
  unfold State.tdmDrop; constructor <;> ((try dsimp only); repeat' split) <;> simp
@[simp] theorem State.tdmDrop_mems (s : State) (p : Nat) (reason : Nat) (n : Nat) (t : Stamp) : (State.tdmDrop s p reason n t).Mems ↔ s.Mems := by
  unfold State.Mems; rw [(State.tdmDrop_keeps s p reason n t).1, (State.tdmDrop_keeps s p reason n t).2]
@[simp] theorem State.tdmCloseGap_keeps (s : State) (p : Nat) :
    (State.tdmCloseGap s p).mem = s.mem ∧ (State.tdmCloseGap s p).hostMem = s.hostMem := by
  unfold State.tdmCloseGap; split <;> simp
@[simp] theorem State.tdmCloseGap_mems (s : State) (p : Nat) : (State.tdmCloseGap s p).Mems ↔ s.Mems := by
  unfold State.Mems; rw [(State.tdmCloseGap_keeps s p).1, (State.tdmCloseGap_keeps s p).2]
@[simp] theorem State.tdmContinue_keeps (s : State) (p : Nat) :
    (State.tdmContinue s p).mem = s.mem ∧ (State.tdmContinue s p).hostMem = s.hostMem := by
  unfold State.tdmContinue; split <;> simp
@[simp] theorem State.tdmContinue_mems (s : State) (p : Nat) : (State.tdmContinue s p).Mems ↔ s.Mems := by
  unfold State.Mems; rw [(State.tdmContinue_keeps s p).1, (State.tdmContinue_keeps s p).2]
@[simp] theorem workGapContinues_keeps (tdm : Bool) (port : Nat) (s : State) : ResKeeps s (workGapContinues tdm port s) := by
  simp [workGapContinues]
@[simp] theorem workGapContinues_mems (tdm : Bool) (port : Nat) (s : State) (h : s.Mems) : ResMems (workGapContinues tdm port s) := (workGapContinues_keeps tdm port s).mems h
@[simp] theorem State.setPeriod_keeps (s : State) (p : Nat) :
    (State.setPeriod s p).mem = s.mem ∧ (State.setPeriod s p).hostMem = s.hostMem := by
  simp [State.setPeriod]
@[simp] theorem State.setPeriod_mems (s : State) (p : Nat) : (State.setPeriod s p).Mems ↔ s.Mems := by
  unfold State.Mems; rw [(State.setPeriod_keeps s p).1, (State.setPeriod_keeps s p).2]
@[simp] theorem workTdmFrame_keeps (port : Nat) (f : Sys2Proof.TdmFrame) (s : State) : ResKeeps s (workTdmFrame port f s) := by
  simp [workTdmFrame]
@[simp] theorem workTdmFrame_mems (port : Nat) (f : Sys2Proof.TdmFrame) (s : State) (h : s.Mems) : ResMems (workTdmFrame port f s) := (workTdmFrame_keeps port f s).mems h
@[simp] theorem workTdmPortSilent_keeps (port : Nat) (s : State) : ResKeeps s (workTdmPortSilent port s) := by
  simp [workTdmPortSilent]
@[simp] theorem workTdmPortSilent_mems (port : Nat) (s : State) (h : s.Mems) : ResMems (workTdmPortSilent port s) := (workTdmPortSilent_keeps port s).mems h
@[simp] theorem workDerivedTick_keeps (ch : Nat) (s : State) : ResKeeps s (workDerivedTick ch s) := by
  simp [workDerivedTick]
@[simp] theorem workDerivedTick_mems (ch : Nat) (s : State) (h : s.Mems) : ResMems (workDerivedTick ch s) := (workDerivedTick_keeps ch s).mems h
@[simp] theorem execUmbSyncSw_keeps (v : Sys2Proof.Word) (s : State) : ResKeeps s (execUmbSyncSw v s) := by
  simp [execUmbSyncSw]
@[simp] theorem execUmbSyncSw_mems (v : Sys2Proof.Word) (s : State) (h : s.Mems) : ResMems (execUmbSyncSw v s) := (execUmbSyncSw_keeps v s).mems h
@[simp] theorem workSigSyncEdge_keeps (e : Sys2Proof.Edge) (ns : Nat) (s : State) : ResKeeps s (workSigSyncEdge e ns s) := by
  simp [workSigSyncEdge]
@[simp] theorem workSigSyncEdge_mems (e : Sys2Proof.Edge) (ns : Nat) (s : State) (h : s.Mems) : ResMems (workSigSyncEdge e ns s) := (workSigSyncEdge_keeps e ns s).mems h
@[simp] theorem State.drainInput_keeps (s : State) (c : Nat) :
    (State.drainInput s c).mem = s.mem ∧ (State.drainInput s c).hostMem = s.hostMem := by
  unfold State.drainInput
  split
  · next v st w h => have := State.takeInput_keeps s c v st w h; split <;> simp [this]
  · simp
@[simp] theorem State.drainInput_mems (s : State) (c : Nat) : (State.drainInput s c).Mems ↔ s.Mems := by
  unfold State.Mems; rw [(State.drainInput_keeps s c).1, (State.drainInput_keeps s c).2]
@[simp] theorem State.umbDrain_keeps (s : State) (only : Nat → Bool) :
    (State.umbDrain s only).mem = s.mem ∧ (State.umbDrain s only).hostMem = s.hostMem := by
  simp [State.umbDrain]
@[simp] theorem State.umbDrain_mems (s : State) (only : Nat → Bool) : (State.umbDrain s only).Mems ↔ s.Mems := by
  unfold State.Mems; rw [(State.umbDrain_keeps s only).1, (State.umbDrain_keeps s only).2]
@[simp] theorem State.umbDown_keeps (s : State) :
    (State.umbDown s).mem = s.mem ∧ (State.umbDown s).hostMem = s.hostMem := by
  simp [State.umbDown]
@[simp] theorem State.umbDown_mems (s : State) : (State.umbDown s).Mems ↔ s.Mems := by
  unfold State.Mems; rw [(State.umbDown_keeps s).1, (State.umbDown_keeps s).2]
@[simp] theorem State.bandSwitch_keeps (s : State) (c : Nat) :
    (State.bandSwitch s c).mem = s.mem ∧ (State.bandSwitch s c).hostMem = s.hostMem := by
  simp [State.bandSwitch]
@[simp] theorem State.bandSwitch_mems (s : State) (c : Nat) : (State.bandSwitch s c).Mems ↔ s.Mems := by
  unfold State.Mems; rw [(State.bandSwitch_keeps s c).1, (State.bandSwitch_keeps s c).2]
@[simp] theorem State.umbSwitch_keeps (s : State) (c : Nat) :
    (State.umbSwitch s c).mem = s.mem ∧ (State.umbSwitch s c).hostMem = s.hostMem := by
  simp [State.umbSwitch]
@[simp] theorem State.umbSwitch_mems (s : State) (c : Nat) : (State.umbSwitch s c).Mems ↔ s.Mems := by
  unfold State.Mems; rw [(State.umbSwitch_keeps s c).1, (State.umbSwitch_keeps s c).2]
@[simp] theorem actTdm_keeps (c : Cmd) (s : State) :
    (actTdm c s).1.mem = s.mem ∧ (actTdm c s).1.hostMem = s.hostMem := by
  simp [actTdm]
@[simp] theorem actTdm_mems (c : Cmd) (s : State) : (actTdm c s).1.Mems ↔ s.Mems := by
  unfold State.Mems; rw [(actTdm_keeps c s).1, (actTdm_keeps c s).2]
@[simp] theorem State.resetChannel_keeps (s : State) (c : Nat) :
    (State.resetChannel s c).mem = s.mem ∧ (State.resetChannel s c).hostMem = s.hostMem := by
  simp [State.resetChannel]
@[simp] theorem State.resetChannel_mems (s : State) (c : Nat) : (State.resetChannel s c).Mems ↔ s.Mems := by
  unfold State.Mems; rw [(State.resetChannel_keeps s c).1, (State.resetChannel_keeps s c).2]
@[simp] theorem actAssignCh_keeps (c : Cmd) (s : State) :
    (actAssignCh c s).1.mem = s.mem ∧ (actAssignCh c s).1.hostMem = s.hostMem := by
  simp [actAssignCh]
@[simp] theorem actAssignCh_mems (c : Cmd) (s : State) : (actAssignCh c s).1.Mems ↔ s.Mems := by
  unfold State.Mems; rw [(actAssignCh_keeps c s).1, (actAssignCh_keeps c s).2]
@[simp] theorem execFilterAssignChannel_keeps (p : Nat) (s : State) : ResKeeps s (execFilterAssignChannel p s) := by
  unfold execFilterAssignChannel; refine (resKeeps_next _ _).mpr (runPage_keeps _ _ _ _ ?_); refine plainPage_keeps _ _ ?_; intro c t; simp
@[simp] theorem execFilterAssignChannel_mems (p : Nat) (s : State) (h : s.Mems) : ResMems (execFilterAssignChannel p s) := (execFilterAssignChannel_keeps p s).mems h
@[simp] theorem execFilterFreezeDc_keeps (p : Nat) (s : State) : ResKeeps s (execFilterFreezeDc p s) := by
  unfold execFilterFreezeDc; refine (resKeeps_next _ _).mpr (runPage_keeps _ _ _ _ ?_); refine plainPage_keeps _ _ ?_; intro c t; simp
@[simp] theorem execFilterFreezeDc_mems (p : Nat) (s : State) (h : s.Mems) : ResMems (execFilterFreezeDc p s) := (execFilterFreezeDc_keeps p s).mems h
@[simp] theorem execFilterSetSync_keeps (p : Nat) (s : State) : ResKeeps s (execFilterSetSync p s) := by
  unfold execFilterSetSync; refine (resKeeps_next _ _).mpr (runPage_keeps _ _ _ _ ?_); refine plainPage_keeps _ _ ?_; intro c t; simp
@[simp] theorem execFilterSetSync_mems (p : Nat) (s : State) (h : s.Mems) : ResMems (execFilterSetSync p s) := (execFilterSetSync_keeps p s).mems h
@[simp] theorem State.clearChan_keeps (s : State) (c : Nat) :
    (State.clearChan s c).mem = s.mem ∧ (State.clearChan s c).hostMem = s.hostMem := by
  simp [State.clearChan]
@[simp] theorem State.clearChan_mems (s : State) (c : Nat) : (State.clearChan s c).Mems ↔ s.Mems := by
  unfold State.Mems; rw [(State.clearChan_keeps s c).1, (State.clearChan_keeps s c).2]
@[simp] theorem actChanStats_keeps (c : Cmd) (s : State) :
    (actChanStats c s).1.mem = s.mem ∧ (actChanStats c s).1.hostMem = s.hostMem := by
  simp [actChanStats]
@[simp] theorem actChanStats_mems (c : Cmd) (s : State) : (actChanStats c s).1.Mems ↔ s.Mems := by
  unfold State.Mems; rw [(actChanStats_keeps c s).1, (actChanStats_keeps c s).2]
@[simp] theorem execFilterGetStats_keeps (p : Nat) (s : State) : ResKeeps s (execFilterGetStats p s) := by
  unfold execFilterGetStats; refine (resKeeps_next _ _).mpr (runPage_keeps _ _ _ _ ?_); refine plainPage_keeps _ _ ?_; intro c t; simp
@[simp] theorem execFilterGetStats_mems (p : Nat) (s : State) (h : s.Mems) : ResMems (execFilterGetStats p s) := (execFilterGetStats_keeps p s).mems h
@[simp] theorem State.packCoefs_keeps (s : State) (sets : AMap (Nat × List Sys2Proof.Word)) :
    (State.packCoefs s sets).mem = s.mem ∧ (State.packCoefs s sets).hostMem = s.hostMem := by
  unfold State.packCoefs
  constructor
  · exact (foldlP_mem _ (by intro t a; simp) _ _).trans (by simp)
  · exact (foldlP_hostMem _ (by intro t a; simp) _ _).trans (by simp)
@[simp] theorem State.packCoefs_mems (s : State) (sets : AMap (Nat × List Sys2Proof.Word)) : (State.packCoefs s sets).Mems ↔ s.Mems := by
  unfold State.Mems; rw [(State.packCoefs_keeps s sets).1, (State.packCoefs_keeps s sets).2]


end Sys2Proof.Machine
end

