-- ==== Sys2Proof/Laws/MemViridian.lean ====
section
/-! SUPPORT. What the operations and meanings of Machine/Viridian.lean do to the two memories: `_keeps` says that both stay as
they were, `_mems` that their canonical form is kept. -/

namespace Sys2Proof.Machine

@[simp] theorem State.setRule_keeps (s : State) (r : Nat) (x : RuleDyn) :
    (State.setRule s r x).mem = s.mem ∧ (State.setRule s r x).hostMem = s.hostMem := by
  simp [State.setRule]
@[simp] theorem State.setRule_mems (s : State) (r : Nat) (x : RuleDyn) : (State.setRule s r x).Mems ↔ s.Mems := by
  unfold State.Mems; rw [(State.setRule_keeps s r x).1, (State.setRule_keeps s r x).2]
@[simp] theorem State.openWindow_keeps (s : State) (r : Nat) (t : Nat) :
    (State.openWindow s r t).mem = s.mem ∧ (State.openWindow s r t).hostMem = s.hostMem := by
  simp [State.openWindow]
@[simp] theorem State.openWindow_mems (s : State) (r : Nat) (t : Nat) : (State.openWindow s r t).Mems ↔ s.Mems := by
  unfold State.Mems; rw [(State.openWindow_keeps s r t).1, (State.openWindow_keeps s r t).2]
@[simp] theorem State.pruneMap_keeps (s : State) (r : Nat) :
    (State.pruneMap s r).mem = s.mem ∧ (State.pruneMap s r).hostMem = s.hostMem := by
  simp [State.pruneMap]
@[simp] theorem State.pruneMap_mems (s : State) (r : Nat) : (State.pruneMap s r).Mems ↔ s.Mems := by
  unfold State.Mems; rw [(State.pruneMap_keeps s r).1, (State.pruneMap_keeps s r).2]
@[simp] theorem State.startRule_keeps (s : State) (r : Nat) (frame : Nat) (enabled : Bool) (newMap : Bool) :
    (State.startRule s r frame enabled newMap).mem = s.mem ∧ (State.startRule s r frame enabled newMap).hostMem = s.hostMem := by
  simp [State.startRule]
@[simp] theorem State.startRule_mems (s : State) (r : Nat) (frame : Nat) (enabled : Bool) (newMap : Bool) : (State.startRule s r frame enabled newMap).Mems ↔ s.Mems := by
  unfold State.Mems; rw [(State.startRule_keeps s r frame enabled newMap).1, (State.startRule_keeps s r frame enabled newMap).2]
@[simp] theorem applyViridian_keeps (g : GCmd) (s : State) :
    (applyViridian g s).mem = s.mem ∧ (applyViridian g s).hostMem = s.hostMem := by
  simp [applyViridian]
@[simp] theorem applyViridian_mems (g : GCmd) (s : State) : (applyViridian g s).Mems ↔ s.Mems := by
  unfold State.Mems; rw [(applyViridian_keeps g s).1, (applyViridian_keeps g s).2]
@[simp] theorem State.writeRuleCfg_keeps (s : State) (r : Nat) (v : Sys2Proof.Word) :
    (State.writeRuleCfg s r v).mem = s.mem ∧ (State.writeRuleCfg s r v).hostMem = s.hostMem := by
  simp [State.writeRuleCfg]
@[simp] theorem State.writeRuleCfg_mems (s : State) (r : Nat) (v : Sys2Proof.Word) : (State.writeRuleCfg s r v).Mems ↔ s.Mems := by
  unfold State.Mems; rw [(State.writeRuleCfg_keeps s r v).1, (State.writeRuleCfg_keeps s r v).2]
@[simp] theorem State.virApply_keeps (s : State) (r : Nat) :
    (State.virApply s r).mem = s.mem ∧ (State.virApply s r).hostMem = s.hostMem := by
  unfold State.virApply; split <;> simp
@[simp] theorem State.virApply_mems (s : State) (r : Nat) : (State.virApply s r).Mems ↔ s.Mems := by
  unfold State.Mems; rw [(State.virApply_keeps s r).1, (State.virApply_keeps s r).2]
@[simp] theorem workWindowOpen_keeps (rule : Nat) (s : State) : ResKeeps s (workWindowOpen rule s) := by
  unfold workWindowOpen; split <;> simp
@[simp] theorem workWindowOpen_mems (rule : Nat) (s : State) (h : s.Mems) : ResMems (workWindowOpen rule s) := (workWindowOpen_keeps rule s).mems h
@[simp] theorem State.closeWindow_keeps (s : State) (r : Nat) (w : Win) (cut : Nat) :
    (State.closeWindow s r w cut).mem = s.mem ∧ (State.closeWindow s r w cut).hostMem = s.hostMem := by
  simp [State.closeWindow]
@[simp] theorem State.closeWindow_mems (s : State) (r : Nat) (w : Win) (cut : Nat) : (State.closeWindow s r w cut).Mems ↔ s.Mems := by
  unfold State.Mems; rw [(State.closeWindow_keeps s r w cut).1, (State.closeWindow_keeps s r w cut).2]
@[simp] theorem State.virRest_keeps (s : State) (r : Nat) :
    (State.virRest s r).mem = s.mem ∧ (State.virRest s r).hostMem = s.hostMem := by
  simp [State.virRest]
@[simp] theorem State.virRest_mems (s : State) (r : Nat) : (State.virRest s r).Mems ↔ s.Mems := by
  unfold State.Mems; rw [(State.virRest_keeps s r).1, (State.virRest_keeps s r).2]
@[simp] theorem State.cutRule_keeps (s : State) (r : Nat) (cut : Nat) :
    (State.cutRule s r cut).mem = s.mem ∧ (State.cutRule s r cut).hostMem = s.hostMem := by
  simp [State.cutRule]
@[simp] theorem State.cutRule_mems (s : State) (r : Nat) (cut : Nat) : (State.cutRule s r cut).Mems ↔ s.Mems := by
  unfold State.Mems; rw [(State.cutRule_keeps s r cut).1, (State.cutRule_keeps s r cut).2]
@[simp] theorem State.joinRule_keeps (s : State) (r : Nat) (m : Member) (sees : RuleCfg → Option Bool) :
    (State.joinRule s r m sees).mem = s.mem ∧ (State.joinRule s r m sees).hostMem = s.hostMem := by
  simp [State.joinRule]
@[simp] theorem State.joinRule_mems (s : State) (r : Nat) (m : Member) (sees : RuleCfg → Option Bool) : (State.joinRule s r m sees).Mems ↔ s.Mems := by
  unfold State.Mems; rw [(State.joinRule_keeps s r m sees).1, (State.joinRule_keeps s r m sees).2]
@[simp] theorem State.eventRule_keeps (s : State) (r : Nat) (m : Member) :
    (State.eventRule s r m).mem = s.mem ∧ (State.eventRule s r m).hostMem = s.hostMem := by
  simp [State.eventRule]
@[simp] theorem State.eventRule_mems (s : State) (r : Nat) (m : Member) : (State.eventRule s r m).Mems ↔ s.Mems := by
  unfold State.Mems; rw [(State.eventRule_keeps s r m).1, (State.eventRule_keeps s r m).2]
@[simp] theorem State.admitMember_keeps (s : State) (m : Member) :
    (State.admitMember s m).mem = s.mem ∧ (State.admitMember s m).hostMem = s.hostMem := by
  simp [State.admitMember]
@[simp] theorem State.admitMember_mems (s : State) (m : Member) : (State.admitMember s m).Mems ↔ s.Mems := by
  unfold State.Mems; rw [(State.admitMember_keeps s m).1, (State.admitMember_keeps s m).2]
@[simp] theorem State.admitFront_keeps (s : State) :
    (State.admitFront s).mem = s.mem ∧ (State.admitFront s).hostMem = s.hostMem := by
  unfold State.admitFront; split <;> simp
@[simp] theorem State.admitFront_mems (s : State) : (State.admitFront s).Mems ↔ s.Mems := by
  unfold State.Mems; rw [(State.admitFront_keeps s).1, (State.admitFront_keeps s).2]
@[simp] theorem workMemberAdmit_keeps (s : State) : ResKeeps s (workMemberAdmit s) := by
  simp [workMemberAdmit]
@[simp] theorem workMemberAdmit_mems (s : State) (h : s.Mems) : ResMems (workMemberAdmit s) := (workMemberAdmit_keeps s).mems h
@[simp] theorem State.admitAll_keeps (s : State) :
    (State.admitAll s).mem = s.mem ∧ (State.admitAll s).hostMem = s.hostMem := by
  simp [State.admitAll]
@[simp] theorem State.admitAll_mems (s : State) : (State.admitAll s).Mems ↔ s.Mems := by
  unfold State.Mems; rw [(State.admitAll_keeps s).1, (State.admitAll_keeps s).2]
@[simp] theorem workWindowClose_keeps (rule : Nat) (s : State) : ResKeeps s (workWindowClose rule s) := by
  unfold workWindowClose; ((try dsimp only); repeat' split) <;> simp
@[simp] theorem workWindowClose_mems (rule : Nat) (s : State) (h : s.Mems) : ResMems (workWindowClose rule s) := (workWindowClose_keeps rule s).mems h
@[simp] theorem State.stageFused_keeps (s : State) (f : Fused) :
    (State.stageFused s f).mem = s.mem ∧ (State.stageFused s f).hostMem = s.hostMem := by
  simp [State.stageFused]
@[simp] theorem State.stageFused_mems (s : State) (f : Fused) : (State.stageFused s f).Mems ↔ s.Mems := by
  unfold State.Mems; rw [(State.stageFused_keeps s f).1, (State.stageFused_keeps s f).2]
@[simp] theorem State.stageFront_keeps (s : State) :
    (State.stageFront s).mem = s.mem ∧ (State.stageFront s).hostMem = s.hostMem := by
  unfold State.stageFront; split <;> simp
@[simp] theorem State.stageFront_mems (s : State) : (State.stageFront s).Mems ↔ s.Mems := by
  unfold State.Mems; rw [(State.stageFront_keeps s).1, (State.stageFront_keeps s).2]
@[simp] theorem workFusedRecordStage_keeps (s : State) : ResKeeps s (workFusedRecordStage s) := by
  unfold workFusedRecordStage; split <;> simp
@[simp] theorem workFusedRecordStage_mems (s : State) (h : s.Mems) : ResMems (workFusedRecordStage s) := (workFusedRecordStage_keeps s).mems h
@[simp] theorem workCoregMapScrub_keeps (s : State) : ResKeeps s (workCoregMapScrub s) := by
  simp [workCoregMapScrub]
@[simp] theorem workCoregMapScrub_mems (s : State) (h : s.Mems) : ResMems (workCoregMapScrub s) := (workCoregMapScrub_keeps s).mems h
@[simp] theorem State.virTick_keeps (s : State) :
    (State.virTick s).mem = s.mem ∧ (State.virTick s).hostMem = s.hostMem := by
  simp [State.virTick]
@[simp] theorem State.virTick_mems (s : State) : (State.virTick s).Mems ↔ s.Mems := by
  unfold State.Mems; rw [(State.virTick_keeps s).1, (State.virTick_keeps s).2]
@[simp] theorem State.virDown_keeps (s : State) :
    (State.virDown s).mem = s.mem ∧ (State.virDown s).hostMem = s.hostMem := by
  simp [State.virDown]
@[simp] theorem State.virDown_mems (s : State) : (State.virDown s).Mems ↔ s.Mems := by
  unfold State.Mems; rw [(State.virDown_keeps s).1, (State.virDown_keeps s).2]
@[simp] theorem State.virFlush_keeps (s : State) (ctx : Nat) :
    (State.virFlush s ctx).mem = s.mem ∧ (State.virFlush s ctx).hostMem = s.hostMem := by
  simp [State.virFlush]
@[simp] theorem State.virFlush_mems (s : State) (ctx : Nat) : (State.virFlush s ctx).Mems ↔ s.Mems := by
  unfold State.Mems; rw [(State.virFlush_keeps s ctx).1, (State.virFlush_keeps s ctx).2]
@[simp] theorem execFuseFlush_keeps (p : Nat) (s : State) : ResKeeps s (execFuseFlush p s) := by
  unfold execFuseFlush; refine (resKeeps_next _ _).mpr (runPage_keeps _ _ _ _ ?_); refine plainPage_keeps _ _ ?_; intro c t; simp
@[simp] theorem execFuseFlush_mems (p : Nat) (s : State) (h : s.Mems) : ResMems (execFuseFlush p s) := (execFuseFlush_keeps p s).mems h
@[simp] theorem State.clearRule_keeps (s : State) (r : Nat) :
    (State.clearRule s r).mem = s.mem ∧ (State.clearRule s r).hostMem = s.hostMem := by
  simp [State.clearRule]
@[simp] theorem State.clearRule_mems (s : State) (r : Nat) : (State.clearRule s r).Mems ↔ s.Mems := by
  unfold State.Mems; rw [(State.clearRule_keeps s r).1, (State.clearRule_keeps s r).2]
@[simp] theorem execFuseGetStats_keeps (p : Nat) (s : State) : ResKeeps s (execFuseGetStats p s) := by
  unfold execFuseGetStats; refine (resKeeps_next _ _).mpr (runPage_keeps _ _ _ _ ?_); refine plainPage_keeps _ _ ?_; intro c t; simp
@[simp] theorem execFuseGetStats_mems (p : Nat) (s : State) (h : s.Mems) : ResMems (execFuseGetStats p s) := (execFuseGetStats_keeps p s).mems h
@[simp] theorem execVirRnCntClr_keeps (rule : Nat) (v : Sys2Proof.Word) (s : State) : ResKeeps s (execVirRnCntClr rule v s) := by
  simp [execVirRnCntClr]
@[simp] theorem execVirRnCntClr_mems (rule : Nat) (v : Sys2Proof.Word) (s : State) (h : s.Mems) : ResMems (execVirRnCntClr rule v s) := (execVirRnCntClr_keeps rule v s).mems h


end Sys2Proof.Machine
end

