-- ==== Sys2Proof/Laws/MemSlate.lean ====
section
/-! SUPPORT. What the operations and meanings of Machine/Slate.lean do to the two memories: `_keeps` says that both stay as
they were, `_mems` that their canonical form is kept. -/

namespace Sys2Proof.Machine

@[simp] theorem State.modSlate_keeps (s : State) (f : Slate → Slate) :
    (State.modSlate s f).mem = s.mem ∧ (State.modSlate s f).hostMem = s.hostMem := by
  simp [State.modSlate]
@[simp] theorem State.modSlate_mems (s : State) (f : Slate → Slate) : (State.modSlate s f).Mems ↔ s.Mems := by
  unfold State.Mems; rw [(State.modSlate_keeps s f).1, (State.modSlate_keeps s f).2]
@[simp] theorem State.setQueue_keeps (s : State) (q : Nat) (l : List Desc) :
    (State.setQueue s q l).mem = s.mem ∧ (State.setQueue s q l).hostMem = s.hostMem := by
  simp [State.setQueue]
@[simp] theorem State.setQueue_mems (s : State) (q : Nat) (l : List Desc) : (State.setQueue s q l).Mems ↔ s.Mems := by
  unfold State.Mems; rw [(State.setQueue_keeps s q l).1, (State.setQueue_keeps s q l).2]
@[simp] theorem State.setReserved_keeps (s : State) (q : Nat) (n : Nat) :
    (State.setReserved s q n).mem = s.mem ∧ (State.setReserved s q n).hostMem = s.hostMem := by
  simp [State.setReserved]
@[simp] theorem State.setReserved_mems (s : State) (q : Nat) (n : Nat) : (State.setReserved s q n).Mems ↔ s.Mems := by
  unfold State.Mems; rw [(State.setReserved_keeps s q n).1, (State.setReserved_keeps s q n).2]
@[simp] theorem State.consume_keeps (s : State) (q : Nat) (n : Nat) :
    (State.consume s q n).mem = s.mem ∧ (State.consume s q n).hostMem = s.hostMem := by
  simp [State.consume]
@[simp] theorem State.consume_mems (s : State) (q : Nat) (n : Nat) : (State.consume s q n).Mems ↔ s.Mems := by
  unfold State.Mems; rw [(State.consume_keeps s q n).1, (State.consume_keeps s q n).2]
@[simp] theorem State.engineWrite_mems (s : State) (q : Nat) (a : Nat) (b : Bytes) (h : s.Mems) : (State.engineWrite s q a b).Mems := by
  exact State.masterWrite_mems _ _ _ _ h
@[simp] theorem State.engineRead_keeps (s : State) (q : Nat) (a : Nat) (n : Nat) :
    (State.engineRead s q a n).1.mem = s.mem ∧ (State.engineRead s q a n).1.hostMem = s.hostMem := by
  simp [State.engineRead]
@[simp] theorem State.engineRead_mems (s : State) (q : Nat) (a : Nat) (n : Nat) : (State.engineRead s q a n).1.Mems ↔ s.Mems := by
  unfold State.Mems; rw [(State.engineRead_keeps s q a n).1, (State.engineRead_keeps s q a n).2]
@[simp] theorem State.setComb_keeps (s : State) (c : Nat) (x : Comb) :
    (State.setComb s c x).mem = s.mem ∧ (State.setComb s c x).hostMem = s.hostMem := by
  simp [State.setComb]
@[simp] theorem State.setComb_mems (s : State) (c : Nat) (x : Comb) : (State.setComb s c x).Mems ↔ s.Mems := by
  unfold State.Mems; rw [(State.setComb_keeps s c x).1, (State.setComb_keeps s c x).2]
@[simp] theorem State.showComb_keeps (s : State) (c : Nat) (r : Nat) :
    (State.showComb s c r).mem = s.mem ∧ (State.showComb s c r).hostMem = s.hostMem := by
  simp [State.showComb]
@[simp] theorem State.showComb_mems (s : State) (c : Nat) (r : Nat) : (State.showComb s c r).Mems ↔ s.Mems := by
  unfold State.Mems; rw [(State.showComb_keeps s c r).1, (State.showComb_keeps s c r).2]
@[simp] theorem State.refuse_keeps (s : State) (m : Nat) (q : Nat) (cause : Nat) :
    (State.refuse s m q cause).mem = s.mem ∧ (State.refuse s m q cause).hostMem = s.hostMem := by
  simp [State.refuse]
@[simp] theorem State.refuse_mems (s : State) (m : Nat) (q : Nat) (cause : Nat) : (State.refuse s m q cause).Mems ↔ s.Mems := by
  unfold State.Mems; rw [(State.refuse_keeps s m q cause).1, (State.refuse_keeps s m q cause).2]
@[simp] theorem State.showLanding_keeps (s : State) :
    (State.showLanding s).mem = s.mem ∧ (State.showLanding s).hostMem = s.hostMem := by
  simp [State.showLanding]
@[simp] theorem State.showLanding_mems (s : State) : (State.showLanding s).Mems ↔ s.Mems := by
  unfold State.Mems; rw [(State.showLanding_keeps s).1, (State.showLanding_keeps s).2]
@[simp] theorem State.settleReply_keeps (s : State) (q : Nat) (b : StageBuf) :
    (State.settleReply s q b).mem = s.mem ∧ (State.settleReply s q b).hostMem = s.hostMem := by
  unfold State.settleReply; (repeat' split) <;> simp
@[simp] theorem State.settleReply_mems (s : State) (q : Nat) (b : StageBuf) : (State.settleReply s q b).Mems ↔ s.Mems := by
  unfold State.Mems; rw [(State.settleReply_keeps s q b).1, (State.settleReply_keeps s q b).2]
@[simp] theorem State.countCommit_keeps (s : State) (q : Nat) :
    (State.countCommit s q).mem = s.mem ∧ (State.countCommit s q).hostMem = s.hostMem := by
  simp [State.countCommit]
@[simp] theorem State.countCommit_mems (s : State) (q : Nat) : (State.countCommit s q).Mems ↔ s.Mems := by
  unfold State.Mems; rw [(State.countCommit_keeps s q).1, (State.countCommit_keeps s q).2]
@[simp] theorem State.markSeen_keeps (s : State) (c : Nat) (arg : BitVec 64) :
    (State.markSeen s c arg).mem = s.mem ∧ (State.markSeen s c arg).hostMem = s.hostMem := by
  simp [State.markSeen]
@[simp] theorem State.markSeen_mems (s : State) (c : Nat) (arg : BitVec 64) : (State.markSeen s c arg).Mems ↔ s.Mems := by
  unfold State.Mems; rw [(State.markSeen_keeps s c arg).1, (State.markSeen_keeps s c arg).2]
@[simp] theorem State.admitCommit_mems (s : State) (m : Nat) (q : Nat) (header : Sys2Proof.Word) (b : StageBuf) (h : s.Mems) : (State.admitCommit s m q header b).Mems := by
  unfold State.admitCommit; ((try dsimp only); repeat' split) <;> simp [h, h.1, h.2]
@[simp] theorem State.stall_keeps (s : State) (m : Nat) (q : Nat) (header : Sys2Proof.Word) (b : StageBuf) :
    (State.stall s m q header b).mem = s.mem ∧ (State.stall s m q header b).hostMem = s.hostMem := by
  simp [State.stall]
@[simp] theorem State.stall_mems (s : State) (m : Nat) (q : Nat) (header : Sys2Proof.Word) (b : StageBuf) : (State.stall s m q header b).Mems ↔ s.Mems := by
  unfold State.Mems; rw [(State.stall_keeps s m q header b).1, (State.stall_keeps s m q header b).2]
@[simp] theorem execSendWindowStage_keeps (master : Nat) (q : Nat) (off : Nat) (v : Sys2Proof.Word) (s : State) : ResKeeps s (execSendWindowStage master q off v s) := by
  simp [execSendWindowStage]
@[simp] theorem execSendWindowStage_mems (master : Nat) (q : Nat) (off : Nat) (v : Sys2Proof.Word) (s : State) (h : s.Mems) : ResMems (execSendWindowStage master q off v s) := (execSendWindowStage_keeps master q off v s).mems h
@[simp] theorem execDescriptorCommit_mems (master : Nat) (q : Nat) (header : Sys2Proof.Word) (s : State) (h : s.Mems) : ResMems (execDescriptorCommit master q header s) := by
  unfold execDescriptorCommit; ((try dsimp only); repeat' split) <;> simp [h, h.1, h.2]
@[simp] theorem State.admitStalled_mems (s : State) (m : Nat) (h : s.Mems) : (State.admitStalled s m).Mems := by
  unfold State.admitStalled; ((try dsimp only); repeat' split) <;> simp [h, h.1, h.2]
@[simp] theorem workStalledCommitAdmit_mems (master : Nat) (s : State) (h : s.Mems) : ResMems (workStalledCommitAdmit master s) := by
  unfold workStalledCommitAdmit; ((try dsimp only); repeat' split) <;> simp [h, h.1, h.2]
@[simp] theorem execQueuePop_keeps (master : Nat) (q : Nat) (off : Nat) (s : State) : ResKeeps s (execQueuePop master q off s) := by
  unfold execQueuePop; (repeat' split) <;> simp
@[simp] theorem execQueuePop_mems (master : Nat) (q : Nat) (off : Nat) (s : State) (h : s.Mems) : ResMems (execQueuePop master q off s) := (execQueuePop_keeps master q off s).mems h
@[simp] theorem execSltQnAck_keeps (q : Nat) (v : Sys2Proof.Word) (s : State) : ResKeeps s (execSltQnAck q v s) := by
  simp [execSltQnAck]
@[simp] theorem execSltQnAck_mems (q : Nat) (v : Sys2Proof.Word) (s : State) (h : s.Mems) : ResMems (execSltQnAck q v s) := (execSltQnAck_keeps q v s).mems h
@[simp] theorem State.orderedSum_keeps (s : State) (c : Nat) (r : Nat) :
    (State.orderedSum s c r).1.mem = s.mem ∧ (State.orderedSum s c r).1.hostMem = s.hostMem := by
  unfold State.orderedSum
  dsimp only
  constructor
  · exact (foldlP_mem _ (by intro t a; simp) _ _).trans (by simp)
  · exact (foldlP_hostMem _ (by intro t a; simp) _ _).trans (by simp)
@[simp] theorem State.orderedSum_mems (s : State) (c : Nat) (r : Nat) : (State.orderedSum s c r).1.Mems ↔ s.Mems := by
  unfold State.Mems; rw [(State.orderedSum_keeps s c r).1, (State.orderedSum_keeps s c r).2]
@[simp] theorem State.combDone_mems (s : State) (c : Nat) (h : s.Mems) : (State.combDone s c).Mems := by
  unfold State.combDone
  dsimp only
  split
  · exact h
  · simp only [apply_ite Prod.fst]
    simp only [State.showComb_mems, State.bump_mems, State.setReg64_mems, State.setComb_mems, State.modSlate_mems, State.assertSourceIf_mems, State.bumpSat_mems]
    refine State.masterWrite_mems _ _ _ _ ?_
    split
    · simpa using h
    · exact h
@[simp] theorem workContributionProcess_mems (c : Nat) (s : State) (h : s.Mems) : ResMems (workContributionProcess c s) := by
  unfold workContributionProcess; ((try dsimp only); repeat' split) <;> simp [h, h.1, h.2]
@[simp] theorem workCombineResultCommit_mems (c : Nat) (s : State) (h : s.Mems) : ResMems (workCombineResultCommit c s) := by
  unfold workCombineResultCommit; ((try dsimp only); repeat' split) <;> simp [h, h.1, h.2]
@[simp] theorem execSltCnRelease_keeps (c : Nat) (v : Sys2Proof.Word) (s : State) : ResKeeps s (execSltCnRelease c v s) := by
  simp [execSltCnRelease]
@[simp] theorem execSltCnRelease_mems (c : Nat) (v : Sys2Proof.Word) (s : State) (h : s.Mems) : ResMems (execSltCnRelease c v s) := (execSltCnRelease_keeps c v s).mems h
@[simp] theorem State.refuseStalled_keeps (s : State) (q : Nat) (cause : Nat) :
    (State.refuseStalled s q cause).mem = s.mem ∧ (State.refuseStalled s q cause).hostMem = s.hostMem := by
  simp [State.refuseStalled]
@[simp] theorem State.refuseStalled_mems (s : State) (q : Nat) (cause : Nat) : (State.refuseStalled s q cause).Mems ↔ s.Mems := by
  unfold State.Mems; rw [(State.refuseStalled_keeps s q cause).1, (State.refuseStalled_keeps s q cause).2]
@[simp] theorem State.showEnabled_keeps (s : State) (comb : Bool) (was : Bool) (now : Bool) :
    (State.showEnabled s comb was now).mem = s.mem ∧ (State.showEnabled s comb was now).hostMem = s.hostMem := by
  simp [State.showEnabled]
@[simp] theorem State.showEnabled_mems (s : State) (comb : Bool) (was : Bool) (now : Bool) : (State.showEnabled s comb was now).Mems ↔ s.Mems := by
  unfold State.Mems; rw [(State.showEnabled_keeps s comb was now).1, (State.showEnabled_keeps s comb was now).2]
@[simp] theorem State.emptyQueue_keeps (s : State) (q : Nat) :
    (State.emptyQueue s q).mem = s.mem ∧ (State.emptyQueue s q).hostMem = s.hostMem := by
  simp [State.emptyQueue]
@[simp] theorem State.emptyQueue_mems (s : State) (q : Nat) : (State.emptyQueue s q).Mems ↔ s.Mems := by
  unfold State.Mems; rw [(State.emptyQueue_keeps s q).1, (State.emptyQueue_keeps s q).2]
@[simp] theorem State.takeSram_keeps (s : State) (base : Nat) (len : Nat) (ctx : Nat) (what : Nat) (idx : Nat) :
    (State.takeSram s base len ctx what idx).mem = s.mem ∧ (State.takeSram s base len ctx what idx).hostMem = s.hostMem := by
  simp [State.takeSram]
@[simp] theorem State.takeSram_mems (s : State) (base : Nat) (len : Nat) (ctx : Nat) (what : Nat) (idx : Nat) : (State.takeSram s base len ctx what idx).Mems ↔ s.Mems := by
  unfold State.Mems; rw [(State.takeSram_keeps s base len ctx what idx).1, (State.takeSram_keeps s base len ctx what idx).2]
@[simp] theorem State.placeQueue_keeps (s : State) (q : Nat) (was : Bool) :
    (State.placeQueue s q was).mem = s.mem ∧ (State.placeQueue s q was).hostMem = s.hostMem := by
  simp [State.placeQueue]
@[simp] theorem State.placeQueue_mems (s : State) (q : Nat) (was : Bool) : (State.placeQueue s q was).Mems ↔ s.Mems := by
  unfold State.Mems; rw [(State.placeQueue_keeps s q was).1, (State.placeQueue_keeps s q was).2]
@[simp] theorem State.placeComb_keeps (s : State) (c : Nat) (was : Bool) :
    (State.placeComb s c was).mem = s.mem ∧ (State.placeComb s c was).hostMem = s.hostMem := by
  simp [State.placeComb]
@[simp] theorem State.placeComb_mems (s : State) (c : Nat) (was : Bool) : (State.placeComb s c was).Mems ↔ s.Mems := by
  unfold State.Mems; rw [(State.placeComb_keeps s c was).1, (State.placeComb_keeps s c was).2]
@[simp] theorem State.writeQueueCfg_keeps (s : State) (q : Nat) (v : Sys2Proof.Word) :
    (State.writeQueueCfg s q v).mem = s.mem ∧ (State.writeQueueCfg s q v).hostMem = s.hostMem := by
  simp [State.writeQueueCfg]
@[simp] theorem State.writeQueueCfg_mems (s : State) (q : Nat) (v : Sys2Proof.Word) : (State.writeQueueCfg s q v).Mems ↔ s.Mems := by
  unfold State.Mems; rw [(State.writeQueueCfg_keeps s q v).1, (State.writeQueueCfg_keeps s q v).2]
@[simp] theorem State.writeCombCfg_keeps (s : State) (c : Nat) (v : Sys2Proof.Word) :
    (State.writeCombCfg s c v).mem = s.mem ∧ (State.writeCombCfg s c v).hostMem = s.hostMem := by
  simp [State.writeCombCfg]
@[simp] theorem State.writeCombCfg_mems (s : State) (c : Nat) (v : Sys2Proof.Word) : (State.writeCombCfg s c v).Mems ↔ s.Mems := by
  unfold State.Mems; rw [(State.writeCombCfg_keeps s c v).1, (State.writeCombCfg_keeps s c v).2]
@[simp] theorem State.disableQueue_keeps (s : State) (q : Nat) :
    (State.disableQueue s q).mem = s.mem ∧ (State.disableQueue s q).hostMem = s.hostMem := by
  simp [State.disableQueue]
@[simp] theorem State.disableQueue_mems (s : State) (q : Nat) : (State.disableQueue s q).Mems ↔ s.Mems := by
  unfold State.Mems; rw [(State.disableQueue_keeps s q).1, (State.disableQueue_keeps s q).2]
@[simp] theorem State.slateDown_keeps (s : State) :
    (State.slateDown s).mem = s.mem ∧ (State.slateDown s).hostMem = s.hostMem := by
  simp [State.slateDown]
@[simp] theorem State.slateDown_mems (s : State) : (State.slateDown s).Mems ↔ s.Mems := by
  unfold State.Mems; rw [(State.slateDown_keeps s).1, (State.slateDown_keeps s).2]
@[simp] theorem execQueueGetStatus_mems (p : Nat) (s : State) (h : s.Mems) : ResMems (execQueueGetStatus p s) := by
  unfold execQueueGetStatus; refine (resMems_next _).mpr (runPage_mems _ _ _ _ ?_ h)
  intro c d t ht
  unfold queueStatusBody
  dsimp only
  (repeat' split)
  all_goals first
    | exact ht
    | exact trivial
    | (simp [ht]; done)
    | (rename_i hw; have hd := State.dmaWrite_mems _ _ _ _ _ hw ht; simp [hd]; done)
    | (rename_i hw _; have hd := State.dmaWrite_mems _ _ _ _ _ hw ht; simp [hd]; done)
@[simp] theorem execQueuePeek_keeps (p : Nat) (s : State) : ResKeeps s (execQueuePeek p s) := by
  unfold execQueuePeek; refine (resKeeps_next _ _).mpr (runPage_keeps _ _ _ _ ?_); refine plainPage_keeps _ _ ?_; intro c t; simp
@[simp] theorem execQueuePeek_mems (p : Nat) (s : State) (h : s.Mems) : ResMems (execQueuePeek p s) := (execQueuePeek_keeps p s).mems h
@[simp] theorem State.clearFabric_keeps (s : State) :
    (State.clearFabric s).mem = s.mem ∧ (State.clearFabric s).hostMem = s.hostMem := by
  simp [State.clearFabric]
@[simp] theorem State.clearFabric_mems (s : State) : (State.clearFabric s).Mems ↔ s.Mems := by
  unfold State.Mems; rw [(State.clearFabric_keeps s).1, (State.clearFabric_keeps s).2]
@[simp] theorem execFabricGetStats_keeps (p : Nat) (s : State) : ResKeeps s (execFabricGetStats p s) := by
  unfold execFabricGetStats; refine (resKeeps_next _ _).mpr (runPage_keeps _ _ _ _ ?_); refine plainPage_keeps _ _ ?_; intro c t; simp
@[simp] theorem execFabricGetStats_mems (p : Nat) (s : State) (h : s.Mems) : ResMems (execFabricGetStats p s) := (execFabricGetStats_keeps p s).mems h
@[simp] theorem State.combineReset_keeps (s : State) (c : Nat) (round : Nat) :
    (State.combineReset s c round).mem = s.mem ∧ (State.combineReset s c round).hostMem = s.hostMem := by
  unfold State.combineReset; split <;> simp
@[simp] theorem State.combineReset_mems (s : State) (c : Nat) (round : Nat) : (State.combineReset s c round).Mems ↔ s.Mems := by
  unfold State.Mems; rw [(State.combineReset_keeps s c round).1, (State.combineReset_keeps s c round).2]
@[simp] theorem execCombineReset_keeps (p : Nat) (s : State) : ResKeeps s (execCombineReset p s) := by
  unfold execCombineReset; refine (resKeeps_next _ _).mpr (runPage_keeps _ _ _ _ ?_); refine plainPage_keeps _ _ ?_; intro c t; simp
@[simp] theorem execCombineReset_mems (p : Nat) (s : State) (h : s.Mems) : ResMems (execCombineReset p s) := (execCombineReset_keeps p s).mems h


end Sys2Proof.Machine
end

