-- ==== Sys2Proof/Laws/MemLink.lean ====
section
/-! SUPPORT. What the operations and meanings of Machine/Link.lean do to the two memories: `_keeps` says that both stay as
they were, `_mems` that their canonical form is kept. -/

namespace Sys2Proof.Machine

@[simp] theorem State.putFrame_keeps (s : State) (p : Nat) (source : Nat) (dest : Nat) (id : Nat) (m : Option Sys2Proof.TealMsg) :
    (State.putFrame s p source dest id m).mem = s.mem ∧ (State.putFrame s p source dest id m).hostMem = s.hostMem := by
  simp [State.putFrame]
@[simp] theorem State.putFrame_mems (s : State) (p : Nat) (source : Nat) (dest : Nat) (id : Nat) (m : Option Sys2Proof.TealMsg) : (State.putFrame s p source dest id m).Mems ↔ s.Mems := by
  unfold State.Mems; rw [(State.putFrame_keeps s p source dest id m).1, (State.putFrame_keeps s p source dest id m).2]
@[simp] theorem State.modIndigo_keeps (s : State) (f : Indigo → Indigo) :
    (State.modIndigo s f).mem = s.mem ∧ (State.modIndigo s f).hostMem = s.hostMem := by
  simp [State.modIndigo]
@[simp] theorem State.modIndigo_mems (s : State) (f : Indigo → Indigo) : (State.modIndigo s f).Mems ↔ s.Mems := by
  unfold State.Mems; rw [(State.modIndigo_keeps s f).1, (State.modIndigo_keeps s f).2]
@[simp] theorem State.sendFrame_keeps (s : State) (d : Nat) (id : Nat) (m : Option Sys2Proof.TealMsg) :
    (State.sendFrame s d id m).mem = s.mem ∧ (State.sendFrame s d id m).hostMem = s.hostMem := by
  simp [State.sendFrame]
@[simp] theorem State.sendFrame_mems (s : State) (d : Nat) (id : Nat) (m : Option Sys2Proof.TealMsg) : (State.sendFrame s d id m).Mems ↔ s.Mems := by
  unfold State.Mems; rw [(State.sendFrame_keeps s d id m).1, (State.sendFrame_keeps s d id m).2]
@[simp] theorem State.sendFrames_keeps (s : State) (d : Nat) (id : Nat) (m : Sys2Proof.TealMsg) (x4 : Nat) :
    (State.sendFrames s d id m x4).mem = s.mem ∧ (State.sendFrames s d id m x4).hostMem = s.hostMem := by
  fun_induction State.sendFrames s d id m x4 <;> simp_all
@[simp] theorem State.sendFrames_mems (s : State) (d : Nat) (id : Nat) (m : Sys2Proof.TealMsg) (x4 : Nat) : (State.sendFrames s d id m x4).Mems ↔ s.Mems := by
  unfold State.Mems; rw [(State.sendFrames_keeps s d id m x4).1, (State.sendFrames_keeps s d id m x4).2]
@[simp] theorem State.sendTeal_keeps (s : State) (d : Nat) (id : Nat) (m : Sys2Proof.TealMsg) :
    (State.sendTeal s d id m).mem = s.mem ∧ (State.sendTeal s d id m).hostMem = s.hostMem := by
  simp [State.sendTeal]
@[simp] theorem State.sendTeal_mems (s : State) (d : Nat) (id : Nat) (m : Sys2Proof.TealMsg) : (State.sendTeal s d id m).Mems ↔ s.Mems := by
  unfold State.Mems; rw [(State.sendTeal_keeps s d id m).1, (State.sendTeal_keeps s d id m).2]
@[simp] theorem State.tealAll_keeps (s : State) (id : Nat) (m : Sys2Proof.TealMsg) :
    (State.tealAll s id m).mem = s.mem ∧ (State.tealAll s id m).hostMem = s.hostMem := by
  simp [State.tealAll]
@[simp] theorem State.tealAll_mems (s : State) (id : Nat) (m : Sys2Proof.TealMsg) : (State.tealAll s id m).Mems ↔ s.Mems := by
  unfold State.Mems; rw [(State.tealAll_keeps s id m).1, (State.tealAll_keeps s id m).2]
@[simp] theorem State.releaseFrames_keeps (s : State) (p : Nat) :
    (State.releaseFrames s p).mem = s.mem ∧ (State.releaseFrames s p).hostMem = s.hostMem := by
  simp [State.releaseFrames]
@[simp] theorem State.releaseFrames_mems (s : State) (p : Nat) : (State.releaseFrames s p).Mems ↔ s.Mems := by
  unfold State.Mems; rw [(State.releaseFrames_keeps s p).1, (State.releaseFrames_keeps s p).2]
@[simp] theorem State.dropPeerEntries_keeps (s : State) (g : Nat) :
    (State.dropPeerEntries s g).mem = s.mem ∧ (State.dropPeerEntries s g).hostMem = s.hostMem := by
  simp [State.dropPeerEntries]
@[simp] theorem State.dropPeerEntries_mems (s : State) (g : Nat) : (State.dropPeerEntries s g).Mems ↔ s.Mems := by
  unfold State.Mems; rw [(State.dropPeerEntries_keeps s g).1, (State.dropPeerEntries_keeps s g).2]
@[simp] theorem State.removePeers_keeps (s : State) :
    (State.removePeers s).mem = s.mem ∧ (State.removePeers s).hostMem = s.hostMem := by
  simp [State.removePeers]
@[simp] theorem State.removePeers_mems (s : State) : (State.removePeers s).Mems ↔ s.Mems := by
  unfold State.Mems; rw [(State.removePeers_keeps s).1, (State.removePeers_keeps s).2]
@[simp] theorem State.installPeers_keeps (s : State) :
    (State.installPeers s).mem = s.mem ∧ (State.installPeers s).hostMem = s.hostMem := by
  simp [State.installPeers]
@[simp] theorem State.installPeers_mems (s : State) : (State.installPeers s).Mems ↔ s.Mems := by
  unfold State.Mems; rw [(State.installPeers_keeps s).1, (State.installPeers_keeps s).2]
@[simp] theorem State.refreshPeers_keeps (s : State) :
    (State.refreshPeers s).mem = s.mem ∧ (State.refreshPeers s).hostMem = s.hostMem := by
  simp [State.refreshPeers]
@[simp] theorem State.refreshPeers_mems (s : State) : (State.refreshPeers s).Mems ↔ s.Mems := by
  unfold State.Mems; rw [(State.refreshPeers_keeps s).1, (State.refreshPeers_keeps s).2]


end Sys2Proof.Machine
end

