-- ==== Sys2Proof/Laws/MemIndigo.lean ====
section
/-! SUPPORT. What the operations and meanings of Machine/Indigo.lean do to the two memories: `_keeps` says that both stay as
they were, `_mems` that their canonical form is kept. -/

namespace Sys2Proof.Machine

@[simp] theorem State.setBind_keeps (s : State) (b : Nat) (x : Bind) :
    (State.setBind s b x).mem = s.mem ∧ (State.setBind s b x).hostMem = s.hostMem := by
  simp [State.setBind]
@[simp] theorem State.setBind_mems (s : State) (b : Nat) (x : Bind) : (State.setBind s b x).Mems ↔ s.Mems := by
  unfold State.Mems; rw [(State.setBind_keeps s b x).1, (State.setBind_keeps s b x).2]
@[simp] theorem State.onBind_keeps (s : State) (b : Nat) (f : Bind → Bind) :
    (State.onBind s b f).mem = s.mem ∧ (State.onBind s b f).hostMem = s.hostMem := by
  unfold State.onBind; split <;> simp
@[simp] theorem State.onBind_mems (s : State) (b : Nat) (f : Bind → Bind) : (State.onBind s b f).Mems ↔ s.Mems := by
  unfold State.Mems; rw [(State.onBind_keeps s b f).1, (State.onBind_keeps s b f).2]
@[simp] theorem State.countModels_keeps (s : State) :
    (State.countModels s).mem = s.mem ∧ (State.countModels s).hostMem = s.hostMem := by
  simp [State.countModels]
@[simp] theorem State.countModels_mems (s : State) : (State.countModels s).Mems ↔ s.Mems := by
  unfold State.Mems; rw [(State.countModels_keeps s).1, (State.countModels_keeps s).2]
theorem loadModelBody_mems : BodyMems loadModelBody := by
  intro c d t ht
  unfold loadModelBody
  dsimp only
  (repeat' split) <;> first
    | (simp [ht, ht.1, ht.2]; done)
    | (next u a hu =>
        have e := State.allocDram_keeps _ _ _ _ _ _ _ hu
        have hu' : u.Mems := ⟨by rw [e.1]; exact ht.1, by rw [e.2]; exact ht.2⟩
        simp only [outMems_done, State.countModels_mems, State.modIndigo_mems]
        exact State.blockWrite_mems _ _ _ _ hu')
@[simp] theorem execInferLoadModel_mems (p : Nat) (s : State) (h : s.Mems) : ResMems (execInferLoadModel p s) := by
  unfold execInferLoadModel; refine (resMems_next _).mpr (runPage_mems _ _ _ _ ?_ h); exact loadModelBody_mems
@[simp] theorem State.dropModel_keeps (s : State) (h : Nat) :
    (State.dropModel s h).mem = s.mem ∧ (State.dropModel s h).hostMem = s.hostMem := by
  simp [State.dropModel]
@[simp] theorem State.dropModel_mems (s : State) (h : Nat) : (State.dropModel s h).Mems ↔ s.Mems := by
  unfold State.Mems; rw [(State.dropModel_keeps s h).1, (State.dropModel_keeps s h).2]
@[simp] theorem execInferUnloadModel_keeps (p : Nat) (s : State) : ResKeeps s (execInferUnloadModel p s) := by
  unfold execInferUnloadModel; refine (resKeeps_next _ _).mpr (runPage_keeps _ _ _ _ ?_); refine plainPage_keeps _ _ ?_; intro c t; simp
@[simp] theorem execInferUnloadModel_mems (p : Nat) (s : State) (h : s.Mems) : ResMems (execInferUnloadModel p s) := (execInferUnloadModel_keeps p s).mems h
@[simp] theorem State.emitResult_keeps (s : State) (r : Run) (z : Result) :
    (State.emitResult s r z).mem = s.mem ∧ (State.emitResult s r z).hostMem = s.hostMem := by
  unfold State.emitResult; split <;> simp
@[simp] theorem State.emitResult_mems (s : State) (r : Run) (z : Result) : (State.emitResult s r z).Mems ↔ s.Mems := by
  unfold State.Mems; rw [(State.emitResult_keeps s r z).1, (State.emitResult_keeps s r z).2]
@[simp] theorem State.endRun_keeps (s : State) (r : Run) (status : Nat) (startT : Nat) (point : Nat) :
    (State.endRun s r status startT point).mem = s.mem ∧ (State.endRun s r status startT point).hostMem = s.hostMem := by
  simp [State.endRun]
@[simp] theorem State.endRun_mems (s : State) (r : Run) (status : Nat) (startT : Nat) (point : Nat) : (State.endRun s r status startT point).Mems ↔ s.Mems := by
  unfold State.Mems; rw [(State.endRun_keeps s r status startT point).1, (State.endRun_keeps s r status startT point).2]
@[simp] theorem State.endPending_keeps (s : State) (which : Run → Bool) (status : Nat) :
    (State.endPending s which status).mem = s.mem ∧ (State.endPending s which status).hostMem = s.hostMem := by
  simp [State.endPending]
@[simp] theorem State.endPending_mems (s : State) (which : Run → Bool) (status : Nat) : (State.endPending s which status).Mems ↔ s.Mems := by
  unfold State.Mems; rw [(State.endPending_keeps s which status).1, (State.endPending_keeps s which status).2]
@[simp] theorem State.setTiles_keeps (s : State) (tiles : BitVec 16) (v : Nat) :
    (State.setTiles s tiles v).mem = s.mem ∧ (State.setTiles s tiles v).hostMem = s.hostMem := by
  simp [State.setTiles]
@[simp] theorem State.setTiles_mems (s : State) (tiles : BitVec 16) (v : Nat) : (State.setTiles s tiles v).Mems ↔ s.Mems := by
  unfold State.Mems; rw [(State.setTiles_keeps s tiles v).1, (State.setTiles_keeps s tiles v).2]
@[simp] theorem State.vacate_keeps (s : State) (r : Run) :
    (State.vacate s r).mem = s.mem ∧ (State.vacate s r).hostMem = s.hostMem := by
  simp [State.vacate]
@[simp] theorem State.vacate_mems (s : State) (r : Run) : (State.vacate s r).Mems ↔ s.Mems := by
  unfold State.Mems; rw [(State.vacate_keeps s r).1, (State.vacate_keeps s r).2]
@[simp] theorem State.endInflight_keeps (s : State) (which : Run → Bool) (status : Nat) :
    (State.endInflight s which status).mem = s.mem ∧ (State.endInflight s which status).hostMem = s.hostMem := by
  simp [State.endInflight]
@[simp] theorem State.endInflight_mems (s : State) (which : Run → Bool) (status : Nat) : (State.endInflight s which status).Mems ↔ s.Mems := by
  unfold State.Mems; rw [(State.endInflight_keeps s which status).1, (State.endInflight_keeps s which status).2]
@[simp] theorem State.showBind_keeps (s : State) (b : Nat) :
    (State.showBind s b).mem = s.mem ∧ (State.showBind s b).hostMem = s.hostMem := by
  unfold State.showBind; split <;> simp
@[simp] theorem State.showBind_mems (s : State) (b : Nat) : (State.showBind s b).Mems ↔ s.Mems := by
  unfold State.Mems; rw [(State.showBind_keeps s b).1, (State.showBind_keeps s b).2]
@[simp] theorem State.showTile_keeps (s : State) (t : Nat) :
    (State.showTile s t).mem = s.mem ∧ (State.showTile s t).hostMem = s.hostMem := by
  unfold State.showTile; split <;> simp
@[simp] theorem State.showTile_mems (s : State) (t : Nat) : (State.showTile s t).Mems ↔ s.Mems := by
  unfold State.Mems; rw [(State.showTile_keeps s t).1, (State.showTile_keeps s t).2]
@[simp] theorem State.showTiles_keeps (s : State) :
    (State.showTiles s).mem = s.mem ∧ (State.showTiles s).hostMem = s.hostMem := by
  simp [State.showTiles]
@[simp] theorem State.showTiles_mems (s : State) : (State.showTiles s).Mems ↔ s.Mems := by
  unfold State.Mems; rw [(State.showTiles_keeps s).1, (State.showTiles_keeps s).2]
@[simp] theorem State.storeModes_mems (s : State) (b : Nat) (h : s.Mems) : (State.storeModes s b).Mems := by
  unfold State.storeModes; ((try dsimp only); repeat' split) <;> simp [h, h.1, h.2]
@[simp] theorem State.pinLayer_mems (s : State) (b : Nat) (m : Model) (i : Nat) (h : s.Mems) : (State.pinLayer s b m i).Mems := by
  unfold State.pinLayer
  dsimp only
  split
  · split
    · next u a hu =>
      have e := State.allocSram_keeps _ _ _ _ _ _ _ hu
      have hu' : u.Mems := ⟨by rw [e.1]; exact h.1, by rw [e.2]; exact h.2⟩
      exact State.blockWrite_mems _ _ _ _ (by simpa using hu')
    · exact h
  · exact h
@[simp] theorem State.pinWeights_mems (s : State) (b : Nat) (m : Model) (h : s.Mems) : (State.pinWeights s b m).Mems := by
  exact foldl_mems _ (fun t l ht => State.pinLayer_mems t b m l ht) _ s h
@[simp] theorem State.freeWeights_keeps (s : State) (b : Nat) :
    (State.freeWeights s b).mem = s.mem ∧ (State.freeWeights s b).hostMem = s.hostMem := by
  simp [State.freeWeights]
@[simp] theorem State.freeWeights_mems (s : State) (b : Nat) : (State.freeWeights s b).Mems ↔ s.Mems := by
  unfold State.Mems; rw [(State.freeWeights_keeps s b).1, (State.freeWeights_keeps s b).2]
@[simp] theorem State.dropBind_keeps (s : State) (b : Nat) :
    (State.dropBind s b).mem = s.mem ∧ (State.dropBind s b).hostMem = s.hostMem := by
  simp [State.dropBind]
@[simp] theorem State.dropBind_mems (s : State) (b : Nat) : (State.dropBind s b).Mems ↔ s.Mems := by
  unfold State.Mems; rw [(State.dropBind_keeps s b).1, (State.dropBind_keeps s b).2]
@[simp] theorem applyBind_mems (g : GCmd) (s : State) (h : s.Mems) : (applyBind g s).Mems := by
  unfold applyBind; ((try dsimp only); repeat' split) <;> simp [h, h.1, h.2]
@[simp] theorem applyIndigo_mems (g : GCmd) (s : State) (h : s.Mems) : (applyIndigo g s).Mems := by
  unfold applyIndigo
  dsimp only
  split
  · exact applyBind_mems g s h
  · split
    · split
      · exact h
      · split
        · exact h
        · apply State.storeModes_mems; simp [h]
    · split <;> simp [h]
@[simp] theorem State.idgBoundary_mems (s : State) (b : Nat) (h : s.Mems) : (State.idgBoundary s b).Mems := by
  unfold State.idgBoundary
  split
  · exact h
  · simp only [State.onBind_mems]
    exact State.applyElem_mems _ _ _ (fun c t ht => applyIndigo_mems c t ht) h
@[simp] theorem State.writeApxCtrl_keeps (s : State) (v : Sys2Proof.Word) :
    (State.writeApxCtrl s v).mem = s.mem ∧ (State.writeApxCtrl s v).hostMem = s.hostMem := by
  simp [State.writeApxCtrl]
@[simp] theorem State.writeApxCtrl_mems (s : State) (v : Sys2Proof.Word) : (State.writeApxCtrl s v).Mems ↔ s.Mems := by
  unfold State.Mems; rw [(State.writeApxCtrl_keeps s v).1, (State.writeApxCtrl_keeps s v).2]
@[simp] theorem State.charge_keeps (s : State) (b : Nat) (cost : Nat) :
    (State.charge s b cost).mem = s.mem ∧ (State.charge s b cost).hostMem = s.hostMem := by
  simp [State.charge]
@[simp] theorem State.charge_mems (s : State) (b : Nat) (cost : Nat) : (State.charge s b cost).Mems ↔ s.Mems := by
  unfold State.Mems; rw [(State.charge_keeps s b cost).1, (State.charge_keeps s b cost).2]
@[simp] theorem State.trigger_keeps (s : State) (b : Nat) (w : List Position) :
    (State.trigger s b w).mem = s.mem ∧ (State.trigger s b w).hostMem = s.hostMem := by
  unfold State.trigger; split <;> simp
@[simp] theorem State.trigger_mems (s : State) (b : Nat) (w : List Position) : (State.trigger s b w).Mems ↔ s.Mems := by
  unfold State.Mems; rw [(State.trigger_keeps s b w).1, (State.trigger_keeps s b w).2]
@[simp] theorem State.takePosition_keeps (s : State) (b : Nat) (p : Position) :
    (State.takePosition s b p).mem = s.mem ∧ (State.takePosition s b p).hostMem = s.hostMem := by
  unfold State.takePosition; (repeat' split) <;> simp
@[simp] theorem State.takePosition_mems (s : State) (b : Nat) (p : Position) : (State.takePosition s b p).Mems ↔ s.Mems := by
  unfold State.Mems; rw [(State.takePosition_keeps s b p).1, (State.takePosition_keeps s b p).2]
@[simp] theorem State.bindTakes_keeps (s : State) (i : BindIn) (b : Nat) (h : Nat) :
    (State.bindTakes s i b h).mem = s.mem ∧ (State.bindTakes s i b h).hostMem = s.hostMem := by
  unfold State.bindTakes; split <;> simp
@[simp] theorem State.bindTakes_mems (s : State) (i : BindIn) (b : Nat) (h : Nat) : (State.bindTakes s i b h).Mems ↔ s.Mems := by
  unfold State.Mems; rw [(State.bindTakes_keeps s i b h).1, (State.bindTakes_keeps s i b h).2]
@[simp] theorem workBindingInput_keeps (s : State) : ResKeeps s (workBindingInput s) := by
  unfold workBindingInput; split <;> simp
@[simp] theorem workBindingInput_mems (s : State) (h : s.Mems) : ResMems (workBindingInput s) := (workBindingInput_keeps s).mems h
theorem State.takeRun_mems (s : State) (b : Nat) (r : Run) (t : State) (h : s.takeRun b = some (r, t)) (hs : s.Mems) : t.Mems := by
  unfold State.takeRun at h
  split at h
  · split at h
    · simp only [Option.some.injEq, Prod.mk.injEq] at h; rw [← h.2]; simpa using hs
    · simp at h
  · simp at h
@[simp] theorem State.skipRun_keeps (s : State) (r : Run) (z : Computed) :
    (State.skipRun s r z).mem = s.mem ∧ (State.skipRun s r z).hostMem = s.hostMem := by
  simp [State.skipRun]
@[simp] theorem State.skipRun_mems (s : State) (r : Run) (z : Computed) : (State.skipRun s r z).Mems ↔ s.Mems := by
  unfold State.Mems; rw [(State.skipRun_keeps s r z).1, (State.skipRun_keeps s r z).2]
@[simp] theorem State.passWaves_keeps (s : State) (r : Run) (t : Nat) (k : Nat) :
    (State.passWaves s r t k).1.mem = s.mem ∧ (State.passWaves s r t k).1.hostMem = s.hostMem := by
  simp [State.passWaves]
@[simp] theorem State.passWaves_mems (s : State) (r : Run) (t : Nat) (k : Nat) : (State.passWaves s r t k).1.Mems ↔ s.Mems := by
  unfold State.Mems; rw [(State.passWaves_keeps s r t k).1, (State.passWaves_keeps s r t k).2]
@[simp] theorem State.passSome_keeps (s : State) (r : Run) (m : Model) (t : Nat) :
    (State.passSome s r m t).1.mem = s.mem ∧ (State.passSome s r m t).1.hostMem = s.hostMem := by
  simp [State.passSome]
@[simp] theorem State.passSome_mems (s : State) (r : Run) (m : Model) (t : Nat) : (State.passSome s r m t).1.Mems ↔ s.Mems := by
  unfold State.Mems; rw [(State.passSome_keeps s r m t).1, (State.passSome_keeps s r m t).2]
@[simp] theorem State.progressRun_keeps (s : State) (r : Run) :
    (State.progressRun s r).mem = s.mem ∧ (State.progressRun s r).hostMem = s.hostMem := by
  have k : ∀ (m : Model) (l : List Nat), (l.foldl (fun (a : State × Run) t => a.1.passSome a.2 m t) (s, r)).1.mem = s.mem ∧
      (l.foldl (fun (a : State × Run) t => a.1.passSome a.2 m t) (s, r)).1.hostMem = s.hostMem := fun m l =>
    ⟨foldlP_mem _ (by intro t a; simp) l (s, r), foldlP_hostMem _ (by intro t a; simp) l (s, r)⟩
  unfold State.progressRun
  dsimp only
  (repeat' split) <;> simp [k]
@[simp] theorem State.progressRun_mems (s : State) (r : Run) : (State.progressRun s r).Mems ↔ s.Mems := by
  unfold State.Mems; rw [(State.progressRun_keeps s r).1, (State.progressRun_keeps s r).2]
@[simp] theorem State.progress_keeps (s : State) :
    (State.progress s).mem = s.mem ∧ (State.progress s).hostMem = s.hostMem := by
  simp [State.progress]
@[simp] theorem State.progress_mems (s : State) : (State.progress s).Mems ↔ s.Mems := by
  unfold State.Mems; rw [(State.progress_keeps s).1, (State.progress_keeps s).2]
@[simp] theorem State.noteLive_keeps (s : State) :
    (State.noteLive s).mem = s.mem ∧ (State.noteLive s).hostMem = s.hostMem := by
  simp [State.noteLive]
@[simp] theorem State.noteLive_mems (s : State) : (State.noteLive s).Mems ↔ s.Mems := by
  unfold State.Mems; rw [(State.noteLive_keeps s).1, (State.noteLive_keeps s).2]
@[simp] theorem State.fetchLayer_keeps (s : State) (b : Nat) (x : Bind) (m : Model) (i : Nat) :
    (State.fetchLayer s b x m i).1.mem = s.mem ∧ (State.fetchLayer s b x m i).1.hostMem = s.hostMem := by
  simp [State.fetchLayer]
@[simp] theorem State.fetchLayer_mems (s : State) (b : Nat) (x : Bind) (m : Model) (i : Nat) : (State.fetchLayer s b x m i).1.Mems ↔ s.Mems := by
  unfold State.Mems; rw [(State.fetchLayer_keeps s b x m i).1, (State.fetchLayer_keeps s b x m i).2]
@[simp] theorem State.formLayer_keeps (s : State) (r : Run) (x : Bind) (m : Model) (i : Nat) (p : Sys2Proof.LayerPlan) (c : Calc) :
    (State.formLayer s r x m i p c).1.mem = s.mem ∧ (State.formLayer s r x m i p c).1.hostMem = s.hostMem := by
  unfold State.formLayer; ((try dsimp only); repeat' split) <;> simp
@[simp] theorem State.formLayer_mems (s : State) (r : Run) (x : Bind) (m : Model) (i : Nat) (p : Sys2Proof.LayerPlan) (c : Calc) : (State.formLayer s r x m i p c).1.Mems ↔ s.Mems := by
  unfold State.Mems; rw [(State.formLayer_keeps s r x m i p c).1, (State.formLayer_keeps s r x m i p c).2]
@[simp] theorem State.runLayers_keeps (s : State) (r : Run) (x : Bind) (m : Model) :
    (State.runLayers s r x m).1.mem = s.mem ∧ (State.runLayers s r x m).1.hostMem = s.hostMem := by
  exact ⟨foldlP_mem _ (by intro t a; simp [State.runOneLayer]) _ _, foldlP_hostMem _ (by intro t a; simp [State.runOneLayer]) _ _⟩
@[simp] theorem State.runLayers_mems (s : State) (r : Run) (x : Bind) (m : Model) : (State.runLayers s r x m).1.Mems ↔ s.Mems := by
  unfold State.Mems; rw [(State.runLayers_keeps s r x m).1, (State.runLayers_keeps s r x m).2]
@[simp] theorem State.enterGroup_keeps (s : State) (b : Nat) (x : Bind) (path : Nat) (slice : List Int) :
    (State.enterGroup s b x path slice).mem = s.mem ∧ (State.enterGroup s b x path slice).hostMem = s.hostMem := by
  simp [State.enterGroup]
@[simp] theorem State.enterGroup_mems (s : State) (b : Nat) (x : Bind) (path : Nat) (slice : List Int) : (State.enterGroup s b x path slice).Mems ↔ s.Mems := by
  unfold State.Mems; rw [(State.enterGroup_keeps s b x path slice).1, (State.enterGroup_keeps s b x path slice).2]
@[simp] theorem State.sendPart_keeps (s : State) (b : Nat) (x : Bind) (m : Model) (i : Nat) (sums : List Int) :
    (State.sendPart s b x m i sums).mem = s.mem ∧ (State.sendPart s b x m i sums).hostMem = s.hostMem := by
  simp [State.sendPart]
@[simp] theorem State.sendPart_mems (s : State) (b : Nat) (x : Bind) (m : Model) (i : Nat) (sums : List Int) : (State.sendPart s b x m i sums).Mems ↔ s.Mems := by
  unfold State.Mems; rw [(State.sendPart_keeps s b x m i sums).1, (State.sendPart_keeps s b x m i sums).2]
@[simp] theorem State.formPart_keeps (s : State) (r : Run) (x : Bind) (m : Model) (g : GroupRun) :
    (State.formPart s r x m g).mem = s.mem ∧ (State.formPart s r x m g).hostMem = s.hostMem := by
  simp [State.formPart]
@[simp] theorem State.formPart_mems (s : State) (r : Run) (x : Bind) (m : Model) (g : GroupRun) : (State.formPart s r x m g).Mems ↔ s.Mems := by
  unfold State.Mems; rw [(State.formPart_keeps s r x m g).1, (State.formPart_keeps s r x m g).2]
@[simp] theorem State.homeLayer_keeps (s : State) (r : Run) (x : Bind) (m : Model) (g : GroupRun) (i : Nat) :
    (State.homeLayer s r x m g i).mem = s.mem ∧ (State.homeLayer s r x m g i).hostMem = s.hostMem := by
  simp [State.homeLayer]
@[simp] theorem State.homeLayer_mems (s : State) (r : Run) (x : Bind) (m : Model) (g : GroupRun) (i : Nat) : (State.homeLayer s r x m g i).Mems ↔ s.Mems := by
  unfold State.Mems; rw [(State.homeLayer_keeps s r x m g i).1, (State.homeLayer_keeps s r x m g i).2]
@[simp] theorem State.groupStep_keeps (s : State) (b : Nat) (x2 : Nat) :
    (State.groupStep s b x2).mem = s.mem ∧ (State.groupStep s b x2).hostMem = s.hostMem := by
  fun_induction State.groupStep s b x2 <;> simp_all
@[simp] theorem State.groupStep_mems (s : State) (b : Nat) (x2 : Nat) : (State.groupStep s b x2).Mems ↔ s.Mems := by
  unfold State.Mems; rw [(State.groupStep_keeps s b x2).1, (State.groupStep_keeps s b x2).2]
@[simp] theorem State.groupSteps_keeps (s : State) (b : Nat) :
    (State.groupSteps s b).mem = s.mem ∧ (State.groupSteps s b).hostMem = s.hostMem := by
  simp [State.groupSteps]
@[simp] theorem State.groupSteps_mems (s : State) (b : Nat) : (State.groupSteps s b).Mems ↔ s.Mems := by
  unfold State.Mems; rw [(State.groupSteps_keeps s b).1, (State.groupSteps_keeps s b).2]
@[simp] theorem State.sendRun_keeps (s : State) (b : Nat) (path : Nat) (x : Bind) (m : Model) (inp : List Int) :
    (State.sendRun s b path x m inp).mem = s.mem ∧ (State.sendRun s b path x m inp).hostMem = s.hostMem := by
  simp [State.sendRun]
@[simp] theorem State.sendRun_mems (s : State) (b : Nat) (path : Nat) (x : Bind) (m : Model) (inp : List Int) : (State.sendRun s b path x m inp).Mems ↔ s.Mems := by
  unfold State.Mems; rw [(State.sendRun_keeps s b path x m inp).1, (State.sendRun_keeps s b path x m inp).2]
@[simp] theorem State.launch_keeps (s : State) (r : Run) (x : Bind) :
    (State.launch s r x).mem = s.mem ∧ (State.launch s r x).hostMem = s.hostMem := by
  simp [State.launch]
@[simp] theorem State.launch_mems (s : State) (r : Run) (x : Bind) : (State.launch s r x).Mems ↔ s.Mems := by
  unfold State.Mems; rw [(State.launch_keeps s r x).1, (State.launch_keeps s r x).2]
@[simp] theorem State.startRun_mems (s : State) (r : Run) (x : Bind) (m : Model) (h : s.Mems) : (State.startRun s r x m).Mems := by
  unfold State.startRun; ((try dsimp only); repeat' split) <;> simp [h, h.1, h.2]
@[simp] theorem workRunDispatch_mems (b : Nat) (s : State) (h : s.Mems) : ResMems (workRunDispatch b s) := by
  unfold workRunDispatch; rw [resMems_next]
  split
  · exact h
  · split
    · next r t x ht _ =>
      have hm := State.takeRun_mems _ _ _ _ ht h
      split
      · exact h
      · dsimp only
        split
        · split
          · exact h
          · exact State.startRun_mems _ _ _ _ (by simpa using hm)
        · exact State.idgBoundary_mems _ _ (by simpa using hm)
    · exact h
@[simp] theorem State.tilesDone_keeps (s : State) (r : Run) (x : Bind) (m : Model) (c : Calc) :
    (State.tilesDone s r x m c).1.mem = s.mem ∧ (State.tilesDone s r x m c).1.hostMem = s.hostMem := by
  exact ⟨foldlP_mem _ (by intro t a; simp [State.tileDone]) _ _, foldlP_hostMem _ (by intro t a; simp [State.tileDone]) _ _⟩
@[simp] theorem State.tilesDone_mems (s : State) (r : Run) (x : Bind) (m : Model) (c : Calc) : (State.tilesDone s r x m c).1.Mems ↔ s.Mems := by
  unfold State.Mems; rw [(State.tilesDone_keeps s r x m c).1, (State.tilesDone_keeps s r x m c).2]
@[simp] theorem State.workOf_keeps (s : State) (r : Run) (x : Bind) (m : Model) :
    (State.workOf s r x m).1.mem = s.mem ∧ (State.workOf s r x m).1.hostMem = s.hostMem := by
  unfold State.workOf; (repeat' split) <;> simp
@[simp] theorem State.workOf_mems (s : State) (r : Run) (x : Bind) (m : Model) : (State.workOf s r x m).1.Mems ↔ s.Mems := by
  unfold State.Mems; rw [(State.workOf_keeps s r x m).1, (State.workOf_keeps s r x m).2]
@[simp] theorem State.finishRun_keeps (s : State) (r : Run) (x : Bind) (m : Model) :
    (State.finishRun s r x m).mem = s.mem ∧ (State.finishRun s r x m).hostMem = s.hostMem := by
  unfold State.finishRun; (repeat' split) <;> simp
@[simp] theorem State.finishRun_mems (s : State) (r : Run) (x : Bind) (m : Model) : (State.finishRun s r x m).Mems ↔ s.Mems := by
  unfold State.Mems; rw [(State.finishRun_keeps s r x m).1, (State.finishRun_keeps s r x m).2]
@[simp] theorem State.runDone_mems (s : State) (b : Nat) (h : s.Mems) : (State.runDone s b).Mems := by
  unfold State.runDone
  repeat' split
  all_goals first | exact h | (apply State.idgBoundary_mems; simpa using h)
@[simp] theorem workRunComplete_mems (b : Nat) (s : State) (h : s.Mems) : ResMems (workRunComplete b s) := by
  simp [workRunComplete, h, h.1, h.2]
@[simp] theorem workTileWstallWindow_keeps (t : Nat) (s : State) : ResKeeps s (workTileWstallWindow t s) := by
  unfold workTileWstallWindow; (repeat' split) <;> simp
@[simp] theorem workTileWstallWindow_mems (t : Nat) (s : State) (h : s.Mems) : ResMems (workTileWstallWindow t s) := (workTileWstallWindow_keeps t s).mems h
@[simp] theorem State.replayTest_keeps (s : State) (limit : Nat) (t : Nat) :
    (State.replayTest s limit t).mem = s.mem ∧ (State.replayTest s limit t).hostMem = s.hostMem := by
  simp [State.replayTest]
@[simp] theorem State.replayTest_mems (s : State) (limit : Nat) (t : Nat) : (State.replayTest s limit t).Mems ↔ s.Mems := by
  unfold State.Mems; rw [(State.replayTest_keeps s limit t).1, (State.replayTest_keeps s limit t).2]
@[simp] theorem State.nextLimit_keeps (s : State) :
    (State.nextLimit s).mem = s.mem ∧ (State.nextLimit s).hostMem = s.hostMem := by
  unfold State.nextLimit; split <;> simp
@[simp] theorem State.nextLimit_mems (s : State) : (State.nextLimit s).Mems ↔ s.Mems := by
  unfold State.Mems; rw [(State.nextLimit_keeps s).1, (State.nextLimit_keeps s).2]
@[simp] theorem State.endWindow_keeps (s : State) :
    (State.endWindow s).mem = s.mem ∧ (State.endWindow s).hostMem = s.hostMem := by
  simp [State.endWindow]
@[simp] theorem State.endWindow_mems (s : State) : (State.endWindow s).Mems ↔ s.Mems := by
  unfold State.Mems; rw [(State.endWindow_keeps s).1, (State.endWindow_keeps s).2]
@[simp] theorem workReplayWindowEnd_keeps (s : State) : ResKeeps s (workReplayWindowEnd s) := by
  simp [workReplayWindowEnd]
@[simp] theorem workReplayWindowEnd_mems (s : State) (h : s.Mems) : ResMems (workReplayWindowEnd s) := (workReplayWindowEnd_keeps s).mems h
@[simp] theorem State.quadLost_keeps (s : State) (d : Nat) :
    (State.quadLost s d).mem = s.mem ∧ (State.quadLost s d).hostMem = s.hostMem := by
  simp [State.quadLost]
@[simp] theorem State.quadLost_mems (s : State) (d : Nat) : (State.quadLost s d).Mems ↔ s.Mems := by
  unfold State.Mems; rw [(State.quadLost_keeps s d).1, (State.quadLost_keeps s d).2]
@[simp] theorem execInferRun_keeps (p : Nat) (s : State) : ResKeeps s (execInferRun p s) := by
  unfold execInferRun; refine (resKeeps_next _ _).mpr (runPage_keeps _ _ _ _ ?_); intro c d t; unfold inferRunBody; dsimp only; (repeat' split) <;> simp
@[simp] theorem execInferRun_mems (p : Nat) (s : State) (h : s.Mems) : ResMems (execInferRun p s) := (execInferRun_keeps p s).mems h
@[simp] theorem execInferGetStats_keeps (p : Nat) (s : State) : ResKeeps s (execInferGetStats p s) := by
  unfold execInferGetStats; refine (resKeeps_next _ _).mpr (runPage_keeps _ _ _ _ ?_); refine plainPage_keeps _ _ ?_; intro c t; simp
@[simp] theorem execInferGetStats_mems (p : Nat) (s : State) (h : s.Mems) : ResMems (execInferGetStats p s) := (execInferGetStats_keeps p s).mems h
@[simp] theorem execApproxSetSpeculation_keeps (p : Nat) (s : State) : ResKeeps s (execApproxSetSpeculation p s) := by
  unfold execApproxSetSpeculation; refine (resKeeps_next _ _).mpr (runPage_keeps _ _ _ _ ?_); refine plainPage_keeps _ _ ?_; intro c t; simp
@[simp] theorem execApproxSetSpeculation_mems (p : Nat) (s : State) (h : s.Mems) : ResMems (execApproxSetSpeculation p s) := (execApproxSetSpeculation_keeps p s).mems h
@[simp] theorem execApproxSetVerify_keeps (p : Nat) (s : State) : ResKeeps s (execApproxSetVerify p s) := by
  unfold execApproxSetVerify; refine (resKeeps_next _ _).mpr (runPage_keeps _ _ _ _ ?_); refine plainPage_keeps _ _ ?_; intro c t; simp
@[simp] theorem execApproxSetVerify_mems (p : Nat) (s : State) (h : s.Mems) : ResMems (execApproxSetVerify p s) := (execApproxSetVerify_keeps p s).mems h
@[simp] theorem execApproxGetStats_keeps (p : Nat) (s : State) : ResKeeps s (execApproxGetStats p s) := by
  unfold execApproxGetStats; refine (resKeeps_next _ _).mpr (runPage_keeps _ _ _ _ ?_); refine plainPage_keeps _ _ ?_; intro c t; simp
@[simp] theorem execApproxGetStats_mems (p : Nat) (s : State) (h : s.Mems) : ResMems (execApproxGetStats p s) := (execApproxGetStats_keeps p s).mems h


end Sys2Proof.Machine
end

