-- ==== Sys2Proof/Laws/MemTeal.lean ====
section
/-! SUPPORT. What the operations and meanings of Machine/Teal.lean do to the two memories: `_keeps` says that both stay as
they were, `_mems` that their canonical form is kept. -/

namespace Sys2Proof.Machine

@[simp] theorem State.groupUp_keeps (s : State) :
    (State.groupUp s).mem = s.mem ∧ (State.groupUp s).hostMem = s.hostMem := by
  simp [State.groupUp]
@[simp] theorem State.groupUp_mems (s : State) : (State.groupUp s).Mems ↔ s.Mems := by
  unfold State.Mems; rw [(State.groupUp_keeps s).1, (State.groupUp_keeps s).2]
@[simp] theorem State.groupGone_keeps (s : State) :
    (State.groupGone s).mem = s.mem ∧ (State.groupGone s).hostMem = s.hostMem := by
  simp [State.groupGone]
@[simp] theorem State.groupGone_mems (s : State) : (State.groupGone s).Mems ↔ s.Mems := by
  unfold State.Mems; rw [(State.groupGone_keeps s).1, (State.groupGone_keeps s).2]
@[simp] theorem State.losePeers_keeps (s : State) (lost : List Nat) :
    (State.losePeers s lost).mem = s.mem ∧ (State.losePeers s lost).hostMem = s.hostMem := by
  simp [State.losePeers]
@[simp] theorem State.losePeers_mems (s : State) (lost : List Nat) : (State.losePeers s lost).Mems ↔ s.Mems := by
  unfold State.Mems; rw [(State.losePeers_keeps s lost).1, (State.losePeers_keeps s lost).2]
@[simp] theorem execTealLinkUp_keeps (port : Nat) (s : State) : ResKeeps s (execTealLinkUp port s) := by
  simp [execTealLinkUp]
@[simp] theorem execTealLinkUp_mems (port : Nat) (s : State) (h : s.Mems) : ResMems (execTealLinkUp port s) := (execTealLinkUp_keeps port s).mems h
@[simp] theorem execTealLossOfLock_keeps (port : Nat) (s : State) : ResKeeps s (execTealLossOfLock port s) := by
  simp [execTealLossOfLock]
@[simp] theorem execTealLossOfLock_mems (port : Nat) (s : State) (h : s.Mems) : ResMems (execTealLossOfLock port s) := (execTealLossOfLock_keeps port s).mems h
@[simp] theorem execTealRetrainTimeout_keeps (port : Nat) (s : State) : ResKeeps s (execTealRetrainTimeout port s) := by
  unfold execTealRetrainTimeout; split <;> simp
@[simp] theorem execTealRetrainTimeout_mems (port : Nat) (s : State) (h : s.Mems) : ResMems (execTealRetrainTimeout port s) := (execTealRetrainTimeout_keeps port s).mems h
@[simp] theorem State.tealDown_keeps (s : State) :
    (State.tealDown s).mem = s.mem ∧ (State.tealDown s).hostMem = s.hostMem := by
  simp [State.tealDown]
@[simp] theorem State.tealDown_mems (s : State) : (State.tealDown s).Mems ↔ s.Mems := by
  unfold State.Mems; rw [(State.tealDown_keeps s).1, (State.tealDown_keeps s).2]
@[simp] theorem State.wakeBinds_keeps (s : State) :
    (State.wakeBinds s).mem = s.mem ∧ (State.wakeBinds s).hostMem = s.hostMem := by
  simp [State.wakeBinds]
@[simp] theorem State.wakeBinds_mems (s : State) : (State.wakeBinds s).Mems ↔ s.Mems := by
  unfold State.Mems; rw [(State.wakeBinds_keeps s).1, (State.wakeBinds_keeps s).2]
@[simp] theorem execGroupBindTimeout_keeps (p : Nat) (s : State) : ResKeeps s (execGroupBindTimeout p s) := by
  unfold execGroupBindTimeout; split <;> simp
@[simp] theorem execGroupBindTimeout_mems (p : Nat) (s : State) (h : s.Mems) : ResMems (execGroupBindTimeout p s) := (execGroupBindTimeout_keeps p s).mems h
@[simp] theorem State.hearRun_mems (s : State) (id : BitVec 64) (path : Nat) (slice : List Int) (h : s.Mems) : (State.hearRun s id path slice).Mems := by
  unfold State.hearRun; ((try dsimp only); repeat' split) <;> simp [h, h.1, h.2]
@[simp] theorem State.onGroup_keeps (s : State) (id : BitVec 64) (f : Model → GroupRun → GroupRun) :
    (State.onGroup s id f).mem = s.mem ∧ (State.onGroup s id f).hostMem = s.hostMem := by
  unfold State.onGroup; (repeat' split) <;> simp
@[simp] theorem State.onGroup_mems (s : State) (id : BitVec 64) (f : Model → GroupRun → GroupRun) : (State.onGroup s id f).Mems ↔ s.Mems := by
  unfold State.Mems; rw [(State.onGroup_keeps s id f).1, (State.onGroup_keeps s id f).2]
@[simp] theorem State.hearMsg_mems (s : State) (d : Nat) (ring : Bool) (x3 : Sys2Proof.TealMsg) (h : s.Mems) : (State.hearMsg s d ring x3).Mems := by
  unfold State.hearMsg; ((try dsimp only); repeat' split) <;> simp [h, h.1, h.2]
@[simp] theorem State.hearFrame_mems (s : State) (port : Nat) (f : Sys2Proof.TealFrame) (h : s.Mems) : (State.hearFrame s port f).Mems := by
  unfold State.hearFrame; ((try dsimp only); repeat' split) <;> simp [h, h.1, h.2]
@[simp] theorem workTealFrameReceived_mems (port : Nat) (f : Sys2Proof.TealFrame) (s : State) (h : s.Mems) : ResMems (workTealFrameReceived port f s) := by
  unfold workTealFrameReceived; ((try dsimp only); repeat' split) <;> simp [h, h.1, h.2]
@[simp] theorem execGroupForm_keeps (p : Nat) (s : State) : ResKeeps s (execGroupForm p s) := by
  unfold execGroupForm; refine (resKeeps_next _ _).mpr (runPage_keeps _ _ _ _ ?_); intro c d t; unfold groupFormBody; dsimp only; (repeat' split) <;> simp
@[simp] theorem execGroupForm_mems (p : Nat) (s : State) (h : s.Mems) : ResMems (execGroupForm p s) := (execGroupForm_keeps p s).mems h
@[simp] theorem execGroupFormTimeout_keeps (s : State) : ResKeeps s (execGroupFormTimeout s) := by
  unfold execGroupFormTimeout; split <;> simp
@[simp] theorem execGroupFormTimeout_mems (s : State) (h : s.Mems) : ResMems (execGroupFormTimeout s) := (execGroupFormTimeout_keeps s).mems h
@[simp] theorem actDissolve_keeps (x0 : Cmd) (s : State) :
    (actDissolve x0 s).1.mem = s.mem ∧ (actDissolve x0 s).1.hostMem = s.hostMem := by
  unfold actDissolve; constructor <;> ((try dsimp only); repeat' split) <;> simp
@[simp] theorem actDissolve_mems (x0 : Cmd) (s : State) : (actDissolve x0 s).1.Mems ↔ s.Mems := by
  unfold State.Mems; rw [(actDissolve_keeps x0 s).1, (actDissolve_keeps x0 s).2]
@[simp] theorem execGroupDissolve_keeps (p : Nat) (s : State) : ResKeeps s (execGroupDissolve p s) := by
  unfold execGroupDissolve; refine (resKeeps_next _ _).mpr (runPage_keeps _ _ _ _ ?_); refine plainPage_keeps _ _ ?_; intro c t; simp
@[simp] theorem execGroupDissolve_mems (p : Nat) (s : State) (h : s.Mems) : ResMems (execGroupDissolve p s) := (execGroupDissolve_keeps p s).mems h
@[simp] theorem execGroupGetStatus_keeps (p : Nat) (s : State) : ResKeeps s (execGroupGetStatus p s) := by
  unfold execGroupGetStatus; refine (resKeeps_next _ _).mpr (runPage_keeps _ _ _ _ ?_); refine plainPage_keeps _ _ ?_; intro c t; simp
@[simp] theorem execGroupGetStatus_mems (p : Nat) (s : State) (h : s.Mems) : ResMems (execGroupGetStatus p s) := (execGroupGetStatus_keeps p s).mems h


end Sys2Proof.Machine
end

