-- ==== Sys2Proof/Laws/MemChangeSet.lean ====
section
/-! SUPPORT. What the operations and meanings of Machine/ChangeSet.lean do to the two memories: `_keeps` says that both stay as
they were, `_mems` that their canonical form is kept. -/

namespace Sys2Proof.Machine

theorem gPages_release (k : GPage) (hk : k ∈ gPages) (g : GCmd) (s : State) :
    (k.release g s).mem = s.mem ∧ (k.release g s).hostMem = s.hostMem := by
  simp only [gPages, List.mem_cons, List.not_mem_nil, or_false] at hk
  rcases hk with rfl | rfl | rfl | rfl | rfl | rfl | rfl | rfl | rfl | rfl | rfl | rfl | rfl | rfl | rfl | rfl | rfl | rfl <;>
    first
    | exact ⟨rfl, rfl⟩
    | (simp only [stackPage]; split <;> simp)
    | (simp only [rulePage]; split <;> simp)
    | (simp only [bindPage]; split <;> simp)
theorem gPage?_mem (op : Nat) (k : GPage) (h : gPage? op = some k) : k ∈ gPages := List.mem_of_find?_eq_some h
theorem State.bindGate_go (s t : State) (c : Cmd) (h : s.bindGate c = .go t) (hs : s.Mems) : t.Mems := by
  unfold State.bindGate at h
  dsimp only at h
  (repeat' split at h) <;> simp only [BindGate.go.injEq, reduceCtorEq] at h <;> subst h <;> simpa using hs
theorem State.bindGate_wait (s t : State) (c : Cmd) (h : s.bindGate c = .wait t) (hs : s.Mems) : t.Mems := by
  unfold State.bindGate at h
  dsimp only at h
  (repeat' split at h) <;> simp only [BindGate.wait.injEq, reduceCtorEq] at h <;> subst h <;> simpa using hs
theorem State.allocDram_mems {s t : State} {n ctx kind i a : Nat} (h : s.allocDram n ctx kind i = some (t, a)) (hs : s.Mems) :
    t.Mems := by
  have := State.allocDram_keeps _ _ _ _ _ _ _ h
  exact ⟨by rw [this.1]; exact hs.1, by rw [this.2]; exact hs.2⟩
theorem State.allocSram_mems {s t : State} {n ctx kind i a : Nat} (h : s.allocSram n ctx kind i = some (t, a)) (hs : s.Mems) :
    t.Mems := by
  have := State.allocSram_keeps _ _ _ _ _ _ _ h
  exact ⟨by rw [this.1]; exact hs.1, by rw [this.2]; exact hs.2⟩
theorem gPages_reserve (k : GPage) (hk : k ∈ gPages) (g : GCmd) (c : Nat) (v w s u : State) (n : Nat)
    (h : k.reserve g c v w s = .ok (u, n)) (hs : s.Mems) : u.Mems := by
  simp only [gPages, List.mem_cons, List.not_mem_nil, or_false] at hk
  rcases hk with rfl | rfl | rfl | rfl | rfl | rfl | rfl | rfl | rfl | rfl | rfl | rfl | rfl | rfl | rfl | rfl | rfl | rfl
  case inr.inr.inr.inr.inl =>
    dsimp only [stackPage] at h
    split at h
    · simp only [Except.ok.injEq, Prod.mk.injEq] at h; rw [← h.1]; exact hs
    · split at h
      · next r hr => simp only [Except.ok.injEq] at h; subst h; exact State.allocDram_mems hr hs
      · simp at h
  case inr.inr.inr.inr.inr.inr.inr.inr.inr.inr.inr.inr.inr.inr.inl =>
    dsimp only [rulePage] at h
    split at h
    · simp at h
    · split at h
      · simp only [Except.ok.injEq, Prod.mk.injEq] at h; rw [← h.1]; exact hs
      · split at h
        · next t a hr => simp only [Except.ok.injEq, Prod.mk.injEq] at h; rw [← h.1]; exact State.allocSram_mems hr hs
        · simp at h
  case inr.inr.inr.inr.inr.inr.inr.inr.inr.inr.inr.inr.inr.inr.inr.inl =>
    dsimp only [bindPage] at h
    split at h
    · simp only [Except.ok.injEq, Prod.mk.injEq] at h; rw [← h.1]; exact hs
    · split at h
      · simp at h
      · split at h
        · split at h
          · next t a hr =>
            split at h
            · next t' a' hr' =>
              simp only [Except.ok.injEq, Prod.mk.injEq] at h
              rw [← h.1]
              exact State.allocSram_mems hr' (State.allocSram_mems hr hs)
            · simp at h
          · simp at h
        · simp at h
  all_goals
    first
    | (simp only [formatPage, filtersPage, blockingPage, cornerPage, flowPage, trackerPage, layersPage, approxBindPage, GPage.plain, projPortPage, Except.ok.injEq, Prod.mk.injEq] at h
       rw [← h.1]; exact hs)
    | (simp only [derivedPage, chainPage, dcPage, thresholdPage, bandPage, umbPage, reserveMac] at h
       split at h
       · simp only [Except.ok.injEq, Prod.mk.injEq] at h; rw [← h.1]; exact hs
       · simp at h)
    | (simp only [projPortPage, surfacePage] at h
       (repeat' split at h) <;> first | (simp only [Except.ok.injEq, Prod.mk.injEq] at h; rw [← h.1]; exact hs) | (simp at h; done))
@[simp] theorem applyG_mems (g : GCmd) (s : State) (h : s.Mems) : (applyG g s).Mems := by
  unfold applyG
  split
  all_goals first | exact applyIndigo_mems g s h | simpa using h
@[simp] theorem State.projectedOf_mems (s : State) (p : Nat → Bool) (h : s.Mems) : (State.projectedOf s p).Mems := by
  unfold State.projectedOf
  exact foldl_mems _ (fun t g ht => applyG_mems g t ht) _ _ h
@[simp] theorem State.projected_mems (s : State) (c : Nat) (h : s.Mems) : (State.projected s c).Mems := by
  unfold State.projected
  exact foldl_mems _ (fun t g ht => applyG_mems g t ht) _ _ h
@[simp] theorem State.projectedAll_mems (s : State) (h : s.Mems) : (State.projectedAll s).Mems := by
  simp [State.projectedAll, h, h.1, h.2]
@[simp] theorem State.unreserve_keeps (s : State) (g : GCmd) :
    (State.unreserve s g).mem = s.mem ∧ (State.unreserve s g).hostMem = s.hostMem := by
  unfold State.unreserve
  split
  · next k hk => exact gPages_release k (gPage?_mem _ k hk) g s
  · simp
@[simp] theorem State.unreserve_mems (s : State) (g : GCmd) : (State.unreserve s g).Mems ↔ s.Mems := by
  unfold State.Mems; rw [(State.unreserve_keeps s g).1, (State.unreserve_keeps s g).2]
@[simp] theorem State.setChanges_keeps (s : State) (c : Nat) (k : Option ChangeSet) :
    (State.setChanges s c k).mem = s.mem ∧ (State.setChanges s c k).hostMem = s.hostMem := by
  unfold State.setChanges; split <;> simp
@[simp] theorem State.setChanges_mems (s : State) (c : Nat) (k : Option ChangeSet) : (State.setChanges s c k).Mems ↔ s.Mems := by
  unfold State.Mems; rw [(State.setChanges_keeps s c k).1, (State.setChanges_keeps s c k).2]
@[simp] theorem State.dropSet_keeps (s : State) (c : Nat) :
    (State.dropSet s c).mem = s.mem ∧ (State.dropSet s c).hostMem = s.hostMem := by
  unfold State.dropSet; (repeat' split) <;> simp
@[simp] theorem State.dropSet_mems (s : State) (c : Nat) : (State.dropSet s c).Mems ↔ s.Mems := by
  unfold State.Mems; rw [(State.dropSet_keeps s c).1, (State.dropSet_keeps s c).2]
@[simp] theorem State.applyNow_mems (s : State) (e : Elem) (h : s.Mems) : (State.applyNow s e).Mems := by
  unfold State.applyNow
  split
  all_goals first
    | exact State.applyElem_mems _ _ _ (fun c t ht => applyIndigo_mems c t ht) h
    | exact State.applyElem_mems _ _ _ (fun c t ht => by simpa using ht) h
    | simpa using h
@[simp] theorem State.applyIfRest_mems (s : State) (e : Elem) (cmds : List GCmd) (h : s.Mems) : (State.applyIfRest s e cmds).Mems := by
  unfold State.applyIfRest
  split
  all_goals first | exact State.idgBoundary_mems _ _ h | (split <;> simpa using h) | exact h
@[simp] theorem State.arm_keeps (s : State) (c : Nat) (gen : BitVec 16) (e : Elem) (cmds : List GCmd) :
    (State.arm s c gen e cmds).mem = s.mem ∧ (State.arm s c gen e cmds).hostMem = s.hostMem := by
  simp [State.arm]
@[simp] theorem State.arm_mems (s : State) (c : Nat) (gen : BitVec 16) (e : Elem) (cmds : List GCmd) : (State.arm s c gen e cmds).Mems ↔ s.Mems := by
  unfold State.Mems; rw [(State.arm_keeps s c gen e cmds).1, (State.arm_keeps s c gen e cmds).2]
@[simp] theorem State.forwardG_keeps (s : State) (g : GCmd) :
    (State.forwardG s g).mem = s.mem ∧ (State.forwardG s g).hostMem = s.hostMem := by
  simp [State.forwardG]
@[simp] theorem State.forwardG_mems (s : State) (g : GCmd) : (State.forwardG s g).Mems ↔ s.Mems := by
  unfold State.Mems; rw [(State.forwardG_keeps s g).1, (State.forwardG_keeps s g).2]
@[simp] theorem State.commit_mems (s : State) (c : Nat) (l : List GCmd) (at' : Nat) (h : s.Mems) : (State.commit s c l at').Mems := by
  unfold State.commit
  split
  · exact h
  · exact foldl_mems _ (fun t e ht => State.applyIfRest_mems t e _ ht) _ _ (by simpa using h)
@[simp] theorem State.hearCommand_mems (s : State) (id : BitVec 64) (op : Nat) (block : Bytes) (h : s.Mems) : (State.hearCommand s id op block).Mems := by
  unfold State.hearCommand
  split
  · exact h
  · dsimp only
    split
    · exact State.applyIfRest_mems _ _ _ (by simpa using h)
    · exact h
theorem finishG_mems (pg : GPage) (hp : pg ∈ gPages) (c : Cmd) (x : Ctx) (v : State) (data : Bytes) (s : State) (h : s.Mems) :
    OutMems (finishG pg c x v data s) := by
  unfold finishG
  dsimp only
  split
  · have h1 : ∀ l : List GCmd, (l.foldl (fun t g => t.unreserve g) s).Mems := fun l => by simpa using h
    split
    · simp
    · split
      · simp
      · split
        · next t ht => exact State.bindGate_wait _ _ _ ht h
        · exact h
      · next t ht =>
        have := State.bindGate_go _ _ _ ht (h1 _)
        split
        · simp
        · next u n hu => simpa using gPages_reserve pg hp _ _ _ _ _ _ _ hu this
  · split
    · simp
    · split
      · simp
      · next t ht => exact State.bindGate_wait _ _ _ ht h
      · next t ht =>
        have := State.bindGate_go _ _ _ ht h
        split
        · simp
        · next u n hu =>
          have hu := gPages_reserve pg hp _ _ _ _ _ _ _ hu this
          exact State.commit_mems _ _ _ _ (by simpa using hu)
theorem gBody_mems (pg : GPage) (hp : pg ∈ gPages) : BodyMems (gBody pg) := by
  intro c d t ht
  unfold gBody
  split
  · simp
  · dsimp only
    split
    · simp
    · split
      · exact finishG_mems pg hp _ _ _ _ _ ht
      · split
        · simpa using ht
        · split
          · simpa using ht
          · split
            · simp
            · exact finishG_mems pg hp _ _ _ _ _ ht
@[simp] theorem execStageGenerationCommand_mems (p : Nat) (s : State) (h : s.Mems) : ResMems (execStageGenerationCommand p s) := by
  unfold execStageGenerationCommand; rw [resMems_next]
  split
  · split
    · next k hk =>
      split
      · first | exact h | exact runPage_mems _ _ _ _ (gBody_mems _ (gPage?_mem _ _ hk)) h
      · first | exact h | exact runPage_mems _ _ _ _ (gBody_mems _ (gPage?_mem _ _ hk)) h
    · exact h
  · exact h
@[simp] theorem execSingleCommandCommit_mems (p : Nat) (s : State) (h : s.Mems) : ResMems (execSingleCommandCommit p s) := by
  unfold execSingleCommandCommit; rw [resMems_next]
  split
  · split
    · next k hk =>
      split
      · first | exact h | exact runPage_mems _ _ _ _ (gBody_mems _ (gPage?_mem _ _ hk)) h
      · first | exact h | exact runPage_mems _ _ _ _ (gBody_mems _ (gPage?_mem _ _ hk)) h
    · exact h
  · exact h
@[simp] theorem execEvportSetFormat_mems (p : Nat) (s : State) (h : s.Mems) : ResMems (execEvportSetFormat p s) := by
  unfold execEvportSetFormat; refine (resMems_next _).mpr (runPage_mems _ _ _ _ ?_ h); exact gBody_mems _ (by simp [gPages])
@[simp] theorem execEvportSetFilters_mems (p : Nat) (s : State) (h : s.Mems) : ResMems (execEvportSetFilters p s) := by
  unfold execEvportSetFilters; refine (resMems_next _).mpr (runPage_mems _ _ _ _ ?_ h); exact gBody_mems _ (by simp [gPages])
@[simp] theorem execEvportSetBlocking_mems (p : Nat) (s : State) (h : s.Mems) : ResMems (execEvportSetBlocking p s) := by
  unfold execEvportSetBlocking; refine (resMems_next _).mpr (runPage_mems _ _ _ _ ?_ h); exact gBody_mems _ (by simp [gPages])
@[simp] theorem execProjSetPort_mems (p : Nat) (s : State) (h : s.Mems) : ResMems (execProjSetPort p s) := by
  unfold execProjSetPort; refine (resMems_next _).mpr (runPage_mems _ _ _ _ ?_ h); exact gBody_mems _ (by simp [gPages])
@[simp] theorem execProjSetStack_mems (p : Nat) (s : State) (h : s.Mems) : ResMems (execProjSetStack p s) := by
  unfold execProjSetStack; refine (resMems_next _).mpr (runPage_mems _ _ _ _ ?_ h); exact gBody_mems _ (by simp [gPages])
@[simp] theorem execFeatSetSurface_mems (p : Nat) (s : State) (h : s.Mems) : ResMems (execFeatSetSurface p s) := by
  unfold execFeatSetSurface; refine (resMems_next _).mpr (runPage_mems _ _ _ _ ?_ h); exact gBody_mems _ (by simp [gPages])
@[simp] theorem execFeatSetCorner_mems (p : Nat) (s : State) (h : s.Mems) : ResMems (execFeatSetCorner p s) := by
  unfold execFeatSetCorner; refine (resMems_next _).mpr (runPage_mems _ _ _ _ ?_ h); exact gBody_mems _ (by simp [gPages])
@[simp] theorem execFeatSetFlow_mems (p : Nat) (s : State) (h : s.Mems) : ResMems (execFeatSetFlow p s) := by
  unfold execFeatSetFlow; refine (resMems_next _).mpr (runPage_mems _ _ _ _ ?_ h); exact gBody_mems _ (by simp [gPages])
@[simp] theorem execFeatSetTracker_mems (p : Nat) (s : State) (h : s.Mems) : ResMems (execFeatSetTracker p s) := by
  unfold execFeatSetTracker; refine (resMems_next _).mpr (runPage_mems _ _ _ _ ?_ h); exact gBody_mems _ (by simp [gPages])
@[simp] theorem execFilterSetDerived_mems (p : Nat) (s : State) (h : s.Mems) : ResMems (execFilterSetDerived p s) := by
  unfold execFilterSetDerived; refine (resMems_next _).mpr (runPage_mems _ _ _ _ ?_ h); exact gBody_mems _ (by simp [gPages])
@[simp] theorem execFilterSetChain_mems (p : Nat) (s : State) (h : s.Mems) : ResMems (execFilterSetChain p s) := by
  unfold execFilterSetChain; refine (resMems_next _).mpr (runPage_mems _ _ _ _ ?_ h); exact gBody_mems _ (by simp [gPages])
@[simp] theorem execFilterSetDcblock_mems (p : Nat) (s : State) (h : s.Mems) : ResMems (execFilterSetDcblock p s) := by
  unfold execFilterSetDcblock; refine (resMems_next _).mpr (runPage_mems _ _ _ _ ?_ h); exact gBody_mems _ (by simp [gPages])
@[simp] theorem execFilterSetThreshold_mems (p : Nat) (s : State) (h : s.Mems) : ResMems (execFilterSetThreshold p s) := by
  unfold execFilterSetThreshold; refine (resMems_next _).mpr (runPage_mems _ _ _ _ ?_ h); exact gBody_mems _ (by simp [gPages])
@[simp] theorem execFilterSetBand_mems (p : Nat) (s : State) (h : s.Mems) : ResMems (execFilterSetBand p s) := by
  unfold execFilterSetBand; refine (resMems_next _).mpr (runPage_mems _ _ _ _ ?_ h); exact gBody_mems _ (by simp [gPages])
@[simp] theorem execFuseSetRule_mems (p : Nat) (s : State) (h : s.Mems) : ResMems (execFuseSetRule p s) := by
  unfold execFuseSetRule; refine (resMems_next _).mpr (runPage_mems _ _ _ _ ?_ h); exact gBody_mems _ (by simp [gPages])
@[simp] theorem execInferBind_mems (p : Nat) (s : State) (h : s.Mems) : ResMems (execInferBind p s) := by
  unfold execInferBind; refine (resMems_next _).mpr (runPage_mems _ _ _ _ ?_ h); exact gBody_mems _ (by simp [gPages])
@[simp] theorem execApproxSetLayers_mems (p : Nat) (s : State) (h : s.Mems) : ResMems (execApproxSetLayers p s) := by
  unfold execApproxSetLayers; refine (resMems_next _).mpr (runPage_mems _ _ _ _ ?_ h); exact gBody_mems _ (by simp [gPages])
@[simp] theorem execApproxSetBinding_mems (p : Nat) (s : State) (h : s.Mems) : ResMems (execApproxSetBinding p s) := by
  unfold execApproxSetBinding; refine (resMems_next _).mpr (runPage_mems _ _ _ _ ?_ h); exact gBody_mems _ (by simp [gPages])
@[simp] theorem execFilterSetPort_keeps (p : Nat) (s : State) : ResKeeps s (execFilterSetPort p s) := by
  unfold execFilterSetPort; refine (resKeeps_next _ _).mpr (runPage_keeps _ _ _ _ ?_); refine plainPage_keeps _ _ ?_; intro c t; simp
@[simp] theorem execFilterSetPort_mems (p : Nat) (s : State) (h : s.Mems) : ResMems (execFilterSetPort p s) := (execFilterSetPort_keeps p s).mems h
@[simp] theorem execFilterLoadCoeffs_keeps (p : Nat) (s : State) : ResKeeps s (execFilterLoadCoeffs p s) := by
  unfold execFilterLoadCoeffs; refine (resKeeps_next _ _).mpr (runPage_keeps _ _ _ _ ?_)
  intro c d t
  unfold coeffsBody
  dsimp only
  (repeat' split) <;> first | exact trivial | (simp; done)
@[simp] theorem execFilterLoadCoeffs_mems (p : Nat) (s : State) (h : s.Mems) : ResMems (execFilterLoadCoeffs p s) := (execFilterLoadCoeffs_keeps p s).mems h
@[simp] theorem execChangesetBegin_keeps (p : Nat) (s : State) : ResKeeps s (execChangesetBegin p s) := by
  unfold execChangesetBegin; refine (resKeeps_next _ _).mpr (runPage_keeps _ _ _ _ ?_); intro c d t; unfold beginBody; (repeat' split) <;> simp
@[simp] theorem execChangesetBegin_mems (p : Nat) (s : State) (h : s.Mems) : ResMems (execChangesetBegin p s) := (execChangesetBegin_keeps p s).mems h
theorem commitBody_mems : BodyMems commitBody := by
  intro c d t ht
  unfold commitBody
  split
  · simp
  · split
    · simp
    · split
      · simpa using ht
      · split
        · simpa using ht
        · split
          · simp
          · exact State.commit_mems _ _ _ _ (by simpa using ht)
@[simp] theorem execChangesetCommit_mems (p : Nat) (s : State) (h : s.Mems) : ResMems (execChangesetCommit p s) := by
  unfold execChangesetCommit; refine (resMems_next _).mpr (runPage_mems _ _ _ _ ?_ h); exact commitBody_mems
@[simp] theorem execChangesetAbort_keeps (p : Nat) (s : State) : ResKeeps s (execChangesetAbort p s) := by
  unfold execChangesetAbort; refine (resKeeps_next _ _).mpr (runPage_keeps _ _ _ _ ?_); refine plainPage_keeps _ _ ?_; intro c t; simp
@[simp] theorem execChangesetAbort_mems (p : Nat) (s : State) (h : s.Mems) : ResMems (execChangesetAbort p s) := (execChangesetAbort_keeps p s).mems h
@[simp] theorem execChangesetGetStatus_keeps (p : Nat) (s : State) : ResKeeps s (execChangesetGetStatus p s) := by
  unfold execChangesetGetStatus; refine (resKeeps_next _ _).mpr (runPage_keeps _ _ _ _ ?_); refine plainPage_keeps _ _ ?_; intro c t; simp
@[simp] theorem execChangesetGetStatus_mems (p : Nat) (s : State) (h : s.Mems) : ResMems (execChangesetGetStatus p s) := (execChangesetGetStatus_keeps p s).mems h
@[simp] theorem execChangesetSetPolicy_keeps (p : Nat) (s : State) : ResKeeps s (execChangesetSetPolicy p s) := by
  unfold execChangesetSetPolicy; refine (resKeeps_next _ _).mpr (runPage_keeps _ _ _ _ ?_); refine plainPage_keeps _ _ ?_; intro c t; dsimp only; (repeat' split) <;> simp
@[simp] theorem execChangesetSetPolicy_mems (p : Nat) (s : State) (h : s.Mems) : ResMems (execChangesetSetPolicy p s) := (execChangesetSetPolicy_keeps p s).mems h
theorem quiesceBody_mems : BodyMems quiesceBody := by
  intro c d t ht
  unfold quiesceBody
  split
  · simp
  · dsimp only
    (repeat' split) <;> first | exact trivial | exact ht | (simp [ht]; done)
@[simp] theorem execQuiesceCommit_keeps (p : Nat) (s : State) : ResKeeps s (execQuiesceCommit p s) := by
  unfold execQuiesceCommit; refine (resKeeps_next _ _).mpr (runPage_keeps _ _ _ _ ?_); intro c d t; unfold quiesceBody; dsimp only; (repeat' split) <;> simp
@[simp] theorem execQuiesceCommit_mems (p : Nat) (s : State) (h : s.Mems) : ResMems (execQuiesceCommit p s) := (execQuiesceCommit_keeps p s).mems h
@[simp] theorem State.emitQuiesced_keeps (s : State) (c : Nat) (q : Quiesce) (at' : Nat) (kind : Nat) (index : Nat) (key : Nat) (prod : Producer) (mask : Sys2Proof.Word) :
    (State.emitQuiesced s c q at' kind index key prod mask).mem = s.mem ∧ (State.emitQuiesced s c q at' kind index key prod mask).hostMem = s.hostMem := by
  simp [State.emitQuiesced]
@[simp] theorem State.emitQuiesced_mems (s : State) (c : Nat) (q : Quiesce) (at' : Nat) (kind : Nat) (index : Nat) (key : Nat) (prod : Producer) (mask : Sys2Proof.Word) : (State.emitQuiesced s c q at' kind index key prod mask).Mems ↔ s.Mems := by
  unfold State.Mems; rw [(State.emitQuiesced_keeps s c q at' kind index key prod mask).1, (State.emitQuiesced_keeps s c q at' kind index key prod mask).2]
@[simp] theorem State.quiescedGaps_keeps (s : State) (c : Nat) (q : Quiesce) (at' : Nat) :
    (State.quiescedGaps s c q at').mem = s.mem ∧ (State.quiescedGaps s c q at').hostMem = s.hostMem := by
  simp [State.quiescedGaps]
@[simp] theorem State.quiescedGaps_mems (s : State) (c : Nat) (q : Quiesce) (at' : Nat) : (State.quiescedGaps s c q at').Mems ↔ s.Mems := by
  unfold State.Mems; rw [(State.quiescedGaps_keeps s c q at').1, (State.quiescedGaps_keeps s c q at').2]
@[simp] theorem State.resume_keeps (s : State) (c : Nat) :
    (State.resume s c).mem = s.mem ∧ (State.resume s c).hostMem = s.hostMem := by
  unfold State.resume; split <;> simp
@[simp] theorem State.resume_mems (s : State) (c : Nat) : (State.resume s c).Mems ↔ s.Mems := by
  unfold State.Mems; rw [(State.resume_keeps s c).1, (State.resume_keeps s c).2]
@[simp] theorem State.restart_keeps (s : State) (c : Nat) :
    (State.restart s c).mem = s.mem ∧ (State.restart s c).hostMem = s.hostMem := by
  simp [State.restart]
@[simp] theorem State.restart_mems (s : State) (c : Nat) : (State.restart s c).Mems ↔ s.Mems := by
  unfold State.Mems; rw [(State.restart_keeps s c).1, (State.restart_keeps s c).2]
@[simp] theorem State.switch_mems (s : State) (c : Nat) (l : List GCmd) (h : s.Mems) : (State.switch s c l).Mems := by
  unfold State.switch
  dsimp only
  refine foldl_mems _ (fun t e ht => State.applyNow_mems t e ht) _ _ ?_
  exact State.commit_mems _ _ _ _ (by simpa using h)
@[simp] theorem State.endQuiesce_keeps (s : State) (q : Quiesce) (c : Nat) (out : Except CErr Bytes) :
    (State.endQuiesce s q c out).mem = s.mem ∧ (State.endQuiesce s q c out).hostMem = s.hostMem := by
  unfold State.endQuiesce; (repeat' split) <;> simp
@[simp] theorem State.endQuiesce_mems (s : State) (q : Quiesce) (c : Nat) (out : Except CErr Bytes) : (State.endQuiesce s q c out).Mems ↔ s.Mems := by
  unfold State.Mems; rw [(State.endQuiesce_keeps s q c out).1, (State.endQuiesce_keeps s q c out).2]
@[simp] theorem State.drainEnded_mems (s : State) (c : Nat) (q : Quiesce) (k : ChangeSet) (h : s.Mems) : (State.drainEnded s c q k).Mems := by
  unfold State.drainEnded; split <;> simp [h, h.1, h.2]
@[simp] theorem execQuiesceDrainEnd_mems (ctx : Nat) (s : State) (h : s.Mems) : ResMems (execQuiesceDrainEnd ctx s) := by
  unfold execQuiesceDrainEnd; ((try dsimp only); repeat' split) <;> simp [h, h.1, h.2]
@[simp] theorem execQuiescePauseTimeout_keeps (ctx : Nat) (s : State) : ResKeeps s (execQuiescePauseTimeout ctx s) := by
  unfold execQuiescePauseTimeout; (repeat' split) <;> simp
@[simp] theorem execQuiescePauseTimeout_mems (ctx : Nat) (s : State) (h : s.Mems) : ResMems (execQuiescePauseTimeout ctx s) := (execQuiescePauseTimeout_keeps ctx s).mems h


end Sys2Proof.Machine
end

