-- ==== Sys2Proof/Laws/MemHost.lean ====
section
/-! SUPPORT. What the operations and meanings of Machine/Host.lean do to the two memories: `_keeps` says that both stay as
they were, `_mems` that their canonical form is kept. -/

namespace Sys2Proof.Machine

@[simp] theorem State.msix_keeps (s : State) (f : Nat) (v : Nat) :
    (State.msix s f v).mem = s.mem ∧ (State.msix s f v).hostMem = s.hostMem := by
  simp [State.msix]
@[simp] theorem State.msix_mems (s : State) (f : Nat) (v : Nat) : (State.msix s f v).Mems ↔ s.Mems := by
  unfold State.Mems; rw [(State.msix_keeps s f v).1, (State.msix_keeps s f v).2]
@[simp] theorem State.releaseMsix_keeps (s : State) (f : Nat) :
    (State.releaseMsix s f).mem = s.mem ∧ (State.releaseMsix s f).hostMem = s.hostMem := by
  simp [State.releaseMsix]
@[simp] theorem State.releaseMsix_mems (s : State) (f : Nat) : (State.releaseMsix s f).Mems ↔ s.Mems := by
  unfold State.Mems; rw [(State.releaseMsix_keeps s f).1, (State.releaseMsix_keeps s f).2]
@[simp] theorem State.usePoison_keeps (s : State) (c : Cmd) (g : Stage) :
    (State.usePoison s c g).mem = s.mem ∧ (State.usePoison s c g).hostMem = s.hostMem := by
  unfold State.usePoison; (repeat' split) <;> simp
@[simp] theorem State.usePoison_mems (s : State) (c : Cmd) (g : Stage) : (State.usePoison s c g).Mems ↔ s.Mems := by
  unfold State.Mems; rw [(State.usePoison_keeps s c g).1, (State.usePoison_keeps s c g).2]
@[simp] theorem State.latchCmd_keeps (s : State) (p : Nat) (c : Cmd) :
    (State.latchCmd s p c).mem = s.mem ∧ (State.latchCmd s p c).hostMem = s.hostMem := by
  simp [State.latchCmd]
@[simp] theorem State.latchCmd_mems (s : State) (p : Nat) (c : Cmd) : (State.latchCmd s p c).Mems ↔ s.Mems := by
  unfold State.Mems; rw [(State.latchCmd_keeps s p c).1, (State.latchCmd_keeps s p c).2]
@[simp] theorem workDoorbell_keeps (fn : Nat) (v : Sys2Proof.Word) (s : State) : ResKeeps s (workDoorbell fn v s) := by
  unfold workDoorbell; (repeat' split) <;> simp
@[simp] theorem workDoorbell_mems (fn : Nat) (v : Sys2Proof.Word) (s : State) (h : s.Mems) : ResMems (workDoorbell fn v s) := (workDoorbell_keeps fn v s).mems h
@[simp] theorem execParamIndirectFetchDone_keeps (p : Nat) (data : Option Bytes) (s : State) : ResKeeps s (execParamIndirectFetchDone p data s) := by
  unfold execParamIndirectFetchDone; ((try dsimp only); repeat' split) <;> simp
@[simp] theorem execParamIndirectFetchDone_mems (p : Nat) (data : Option Bytes) (s : State) (h : s.Mems) : ResMems (execParamIndirectFetchDone p data s) := (execParamIndirectFetchDone_keeps p data s).mems h
@[simp] theorem execCommandDmaFetchDone_keeps (p : Nat) (data : Option Bytes) (s : State) : ResKeeps s (execCommandDmaFetchDone p data s) := by
  unfold execCommandDmaFetchDone; (repeat' split) <;> simp
@[simp] theorem execCommandDmaFetchDone_mems (p : Nat) (data : Option Bytes) (s : State) (h : s.Mems) : ResMems (execCommandDmaFetchDone p data s) := (execCommandDmaFetchDone_keeps p data s).mems h
@[simp] theorem State.ethDrop_keeps (s : State) :
    (State.ethDrop s).mem = s.mem ∧ (State.ethDrop s).hostMem = s.hostMem := by
  simp [State.ethDrop]
@[simp] theorem State.ethDrop_mems (s : State) : (State.ethDrop s).Mems ↔ s.Mems := by
  unfold State.Mems; rw [(State.ethDrop_keeps s).1, (State.ethDrop_keeps s).2]
@[simp] theorem State.applyEth_keeps (s : State) (b : Bytes) :
    (State.applyEth s b).mem = s.mem ∧ (State.applyEth s b).hostMem = s.hostMem := by
  simp [State.applyEth]
@[simp] theorem State.applyEth_mems (s : State) (b : Bytes) : (State.applyEth s b).Mems ↔ s.Mems := by
  unfold State.Mems; rw [(State.applyEth_keeps s b).1, (State.applyEth_keeps s b).2]
@[simp] theorem State.postMailbox_keeps (s : State) (p : Nat) (c : Cmd) (r : Resp) :
    (State.postMailbox s p c r).mem = s.mem ∧ (State.postMailbox s p c r).hostMem = s.hostMem := by
  simp [State.postMailbox]
@[simp] theorem State.postMailbox_mems (s : State) (p : Nat) (c : Cmd) (r : Resp) : (State.postMailbox s p c r).Mems ↔ s.Mems := by
  unfold State.Mems; rw [(State.postMailbox_keeps s p c r).1, (State.postMailbox_keeps s p c r).2]
@[simp] theorem State.postEth_keeps (s : State) (c : Cmd) (r : Resp) :
    (State.postEth s c r).mem = s.mem ∧ (State.postEth s c r).hostMem = s.hostMem := by
  simp [State.postEth]
@[simp] theorem State.postEth_mems (s : State) (c : Cmd) (r : Resp) : (State.postEth s c r).Mems ↔ s.Mems := by
  unfold State.Mems; rw [(State.postEth_keeps s c r).1, (State.postEth_keeps s c r).2]
@[simp] theorem workEthRequest_keeps (g : Sys2Proof.Datagram) (s : State) : ResKeeps s (workEthRequest g s) := by
  unfold workEthRequest; ((try dsimp only); repeat' split) <;> simp
@[simp] theorem workEthRequest_mems (g : Sys2Proof.Datagram) (s : State) (h : s.Mems) : ResMems (workEthRequest g s) := (workEthRequest_keeps g s).mems h
@[simp] theorem workEthUpload_mems (g : Sys2Proof.Datagram) (s : State) (h : s.Mems) : ResMems (workEthUpload g s) := by
  unfold workEthUpload; ((try dsimp only); repeat' split) <;> simp [h, h.1, h.2]
@[simp] theorem workEthFrameReceived_keeps (f : Sys2Proof.EthFrame) (s : State) : ResKeeps s (workEthFrameReceived f s) := by
  unfold workEthFrameReceived; (repeat' split) <;> simp
@[simp] theorem workEthFrameReceived_mems (f : Sys2Proof.EthFrame) (s : State) (h : s.Mems) : ResMems (workEthFrameReceived f s) := (workEthFrameReceived_keeps f s).mems h
@[simp] theorem State.ringSignal_keeps (s : State) (f : Nat) (r : Nat) :
    (State.ringSignal s f r).mem = s.mem ∧ (State.ringSignal s f r).hostMem = s.hostMem := by
  simp [State.ringSignal]
@[simp] theorem State.ringSignal_mems (s : State) (f : Nat) (r : Nat) : (State.ringSignal s f r).Mems ↔ s.Mems := by
  unfold State.Mems; rw [(State.ringSignal_keeps s f r).1, (State.ringSignal_keeps s f r).2]
@[simp] theorem State.madeVisible_keeps (s : State) (f : Nat) (r : Nat) (ctx : Nat) :
    (State.madeVisible s f r ctx).mem = s.mem ∧ (State.madeVisible s f r ctx).hostMem = s.hostMem := by
  unfold State.madeVisible; constructor <;> ((try dsimp only); repeat' split) <;> simp
@[simp] theorem State.madeVisible_mems (s : State) (f : Nat) (r : Nat) (ctx : Nat) : (State.madeVisible s f r ctx).Mems ↔ s.Mems := by
  unfold State.Mems; rw [(State.madeVisible_keeps s f r ctx).1, (State.madeVisible_keeps s f r ctx).2]
@[simp] theorem State.hostPut_mems (s : State) (f : Nat) (a : Nat) (b : Bytes) (h : s.Mems) : (State.hostPut s f a b).Mems := by
  unfold State.hostPut State.dmaWrite
  (repeat' split) <;> simp only [Option.getD_some, Option.getD_none]
  · simpa using h
  · exact ⟨h.1, wf_writeBytes _ _ _ h.2⟩
  · exact h
@[simp] theorem State.writeRing_mems (s : State) (f : Nat) (r : Nat) (x : Rec) (h : s.Mems) : (State.writeRing s f r x).Mems := by
  unfold State.writeRing
  dsimp only
  have h1 := foldl_mems (fun (t : State) (w : Nat × Bytes) => t.hostPut f w.1 w.2) (fun t w ht => State.hostPut_mems t f w.1 w.2 ht)
    (ringPieces (s.reg64 (R.HIF_RINGn_BASE_LO (ringNo f r))) (s.ringSize f r) (s.regN (R.HIF_RINGn_HEAD (ringNo f r))) x.bytes) s h
  split
  · simpa using h1
  · exact State.hostPut_mems _ _ _ _ (by simpa using h1)
@[simp] theorem State.sendRecord_keeps (s : State) (r : Nat) (first : Bool) (b : Bytes) (x4 : Nat) :
    (State.sendRecord s r first b x4).mem = s.mem ∧ (State.sendRecord s r first b x4).hostMem = s.hostMem := by
  fun_induction State.sendRecord s r first b x4 <;> simp_all
@[simp] theorem State.sendRecord_mems (s : State) (r : Nat) (first : Bool) (b : Bytes) (x4 : Nat) : (State.sendRecord s r first b x4).Mems ↔ s.Mems := by
  unfold State.Mems; rw [(State.sendRecord_keeps s r first b x4).1, (State.sendRecord_keeps s r first b x4).2]
@[simp] theorem State.setSpill_keeps (s : State) (f : Nat) (r : Nat) (l : List Staged) :
    (State.setSpill s f r l).mem = s.mem ∧ (State.setSpill s f r l).hostMem = s.hostMem := by
  simp [State.setSpill]
@[simp] theorem State.setSpill_mems (s : State) (f : Nat) (r : Nat) (l : List Staged) : (State.setSpill s f r l).Mems ↔ s.Mems := by
  unfold State.Mems; rw [(State.setSpill_keeps s f r l).1, (State.setSpill_keeps s f r l).2]
@[simp] theorem State.setStaged_keeps (s : State) (l : List Staged) :
    (State.setStaged s l).mem = s.mem ∧ (State.setStaged s l).hostMem = s.hostMem := by
  simp [State.setStaged]
@[simp] theorem State.setStaged_mems (s : State) (l : List Staged) : (State.setStaged s l).Mems ↔ s.Mems := by
  unfold State.Mems; rw [(State.setStaged_keeps s l).1, (State.setStaged_keeps s l).2]
theorem State.nextRecord_mems {s t : State} {f r : Nat} {y : Staged} (hy : s.nextRecord f r = some (y, t)) (h : s.Mems) :
    t.Mems := by
  unfold State.nextRecord at hy
  split at hy <;> simp only [Option.some.injEq, Prod.mk.injEq, reduceCtorEq] at hy <;> (rw [← hy.2]; simpa using h)
@[simp] theorem State.deliver_mems (s : State) (f : Nat) (r : Nat) (x : Rec) (h : s.Mems) : (State.deliver s f r x).Mems := by
  unfold State.deliver
  dsimp only
  simp only [State.madeVisible_mems, State.setRing_mems]
  split
  · simpa using h
  · exact State.writeRing_mems s f r x h
@[simp] theorem State.ringWaits_keeps (s : State) (f : Nat) (r : Nat) :
    (State.ringWaits s f r).mem = s.mem ∧ (State.ringWaits s f r).hostMem = s.hostMem := by
  simp [State.ringWaits]
@[simp] theorem State.ringWaits_mems (s : State) (f : Nat) (r : Nat) : (State.ringWaits s f r).Mems ↔ s.Mems := by
  unfold State.Mems; rw [(State.ringWaits_keeps s f r).1, (State.ringWaits_keeps s f r).2]
@[simp] theorem State.spillNext_keeps (s : State) (f : Nat) (r : Nat) :
    (State.spillNext s f r).mem = s.mem ∧ (State.spillNext s f r).hostMem = s.hostMem := by
  unfold State.spillNext; (repeat' split) <;> simp
@[simp] theorem State.spillNext_mems (s : State) (f : Nat) (r : Nat) : (State.spillNext s f r).Mems ↔ s.Mems := by
  unfold State.Mems; rw [(State.spillNext_keeps s f r).1, (State.spillNext_keeps s f r).2]
@[simp] theorem State.recordDeliver_mems (s : State) (f : Nat) (r : Nat) (h : s.Mems) : (State.recordDeliver s f r).Mems := by
  unfold State.recordDeliver
  split
  · exact h
  · split
    · exact h
    · next y t hy =>
      have ht := State.nextRecord_mems hy h
      split
      · exact State.deliver_mems _ _ _ _ ht
      · simpa using h
@[simp] theorem workRecordDeliver_mems (fn : Nat) (ring : Nat) (s : State) (h : s.Mems) : ResMems (workRecordDeliver fn ring s) := by
  simp [workRecordDeliver, h, h.1, h.2]
@[simp] theorem workRingModerationHoldoff_keeps (fn : Nat) (ring : Nat) (s : State) : ResKeeps s (workRingModerationHoldoff fn ring s) := by
  simp [workRingModerationHoldoff]
@[simp] theorem workRingModerationHoldoff_mems (fn : Nat) (ring : Nat) (s : State) (h : s.Mems) : ResMems (workRingModerationHoldoff fn ring s) := (workRingModerationHoldoff_keeps fn ring s).mems h
@[simp] theorem State.tailWrite_keeps (s : State) (f : Nat) (r : Nat) (v : Sys2Proof.Word) :
    (State.tailWrite s f r v).mem = s.mem ∧ (State.tailWrite s f r v).hostMem = s.hostMem := by
  simp [State.tailWrite]
@[simp] theorem State.tailWrite_mems (s : State) (f : Nat) (r : Nat) (v : Sys2Proof.Word) : (State.tailWrite s f r v).Mems ↔ s.Mems := by
  unfold State.Mems; rw [(State.tailWrite_keeps s f r v).1, (State.tailWrite_keeps s f r v).2]
@[simp] theorem workRingTailWrite_keeps (fn : Nat) (ring : Nat) (v : Sys2Proof.Word) (s : State) : ResKeeps s (workRingTailWrite fn ring v s) := by
  simp [workRingTailWrite]
@[simp] theorem workRingTailWrite_mems (fn : Nat) (ring : Nat) (v : Sys2Proof.Word) (s : State) (h : s.Mems) : ResMems (workRingTailWrite fn ring v s) := (workRingTailWrite_keeps fn ring v s).mems h
@[simp] theorem workFunctionMasterEnable_keeps (fn : Nat) (dstate : Nat) (bme : Bool) (s : State) : ResKeeps s (workFunctionMasterEnable fn dstate bme s) := by
  unfold workFunctionMasterEnable; split <;> simp
@[simp] theorem workFunctionMasterEnable_mems (fn : Nat) (dstate : Nat) (bme : Bool) (s : State) (h : s.Mems) : ResMems (workFunctionMasterEnable fn dstate bme s) := (workFunctionMasterEnable_keeps fn dstate bme s).mems h
@[simp] theorem execPcieLinkChange_keeps (up : Bool) (speed : Nat) (width : Nat) (s : State) : ResKeeps s (execPcieLinkChange up speed width s) := by
  simp [execPcieLinkChange]
@[simp] theorem execPcieLinkChange_mems (up : Bool) (speed : Nat) (width : Nat) (s : State) (h : s.Mems) : ResMems (execPcieLinkChange up speed width s) := (execPcieLinkChange_keeps up speed width s).mems h
@[simp] theorem execEthLinkChange_keeps (port : Nat) (up : Bool) (s : State) : ResKeeps s (execEthLinkChange port up s) := by
  simp [execEthLinkChange]
@[simp] theorem execEthLinkChange_mems (port : Nat) (up : Bool) (s : State) (h : s.Mems) : ResMems (execEthLinkChange port up s) := (execEthLinkChange_keeps port up s).mems h


end Sys2Proof.Machine
end

