-- ==== Sys2Proof/Laws/MemCarmine.lean ====
section
/-! SUPPORT. What the operations and meanings of Machine/Carmine.lean do to the two memories: `_keeps` says that both stay as
they were, `_mems` that their canonical form is kept. -/

namespace Sys2Proof.Machine

@[simp] theorem State.modCarmine_keeps (s : State) (f : Carmine → Carmine) :
    (State.modCarmine s f).mem = s.mem ∧ (State.modCarmine s f).hostMem = s.hostMem := by
  simp [State.modCarmine]
@[simp] theorem State.modCarmine_mems (s : State) (f : Carmine → Carmine) : (State.modCarmine s f).Mems ↔ s.Mems := by
  unfold State.Mems; rw [(State.modCarmine_keeps s f).1, (State.modCarmine_keeps s f).2]
@[simp] theorem State.setSrc_keeps (s : State) (n : Nat) (x : Src) :
    (State.setSrc s n x).mem = s.mem ∧ (State.setSrc s n x).hostMem = s.hostMem := by
  simp [State.setSrc]
@[simp] theorem State.setSrc_mems (s : State) (n : Nat) (x : Src) : (State.setSrc s n x).Mems ↔ s.Mems := by
  unfold State.Mems; rw [(State.setSrc_keeps s n x).1, (State.setSrc_keeps s n x).2]
@[simp] theorem State.setTgt_keeps (s : State) (t : Nat) (x : Target) :
    (State.setTgt s t x).mem = s.mem ∧ (State.setTgt s t x).hostMem = s.hostMem := by
  simp [State.setTgt]
@[simp] theorem State.setTgt_mems (s : State) (t : Nat) (x : Target) : (State.setTgt s t x).Mems ↔ s.Mems := by
  unfold State.Mems; rw [(State.setTgt_keeps s t x).1, (State.setTgt_keeps s t x).2]
@[simp] theorem State.countEdge_keeps (s : State) (n : Nat) :
    (State.countEdge s n).mem = s.mem ∧ (State.countEdge s n).hostMem = s.hostMem := by
  simp [State.countEdge]
@[simp] theorem State.countEdge_mems (s : State) (n : Nat) : (State.countEdge s n).Mems ↔ s.Mems := by
  unfold State.Mems; rw [(State.countEdge_keeps s n).1, (State.countEdge_keeps s n).2]
@[simp] theorem State.detect_keeps (s : State) (n : Nat) (level : Bool) :
    (State.detect s n level).mem = s.mem ∧ (State.detect s n level).hostMem = s.hostMem := by
  simp [State.detect]
@[simp] theorem State.detect_mems (s : State) (n : Nat) (level : Bool) : (State.detect s n level).Mems ↔ s.Mems := by
  unfold State.Mems; rw [(State.detect_keeps s n level).1, (State.detect_keeps s n level).2]
@[simp] theorem State.trackActive_keeps (s : State) (n : Nat) (was : Bool) (now' : Bool) :
    (State.trackActive s n was now').mem = s.mem ∧ (State.trackActive s n was now').hostMem = s.hostMem := by
  simp [State.trackActive]
@[simp] theorem State.trackActive_mems (s : State) (n : Nat) (was : Bool) (now' : Bool) : (State.trackActive s n was now').Mems ↔ s.Mems := by
  unfold State.Mems; rw [(State.trackActive_keeps s n was now').1, (State.trackActive_keeps s n was now').2]
@[simp] theorem State.noticeLine_keeps (s : State) (n : Nat) :
    (State.noticeLine s n).mem = s.mem ∧ (State.noticeLine s n).hostMem = s.hostMem := by
  simp [State.noticeLine]
@[simp] theorem State.noticeLine_mems (s : State) (n : Nat) : (State.noticeLine s n).Mems ↔ s.Mems := by
  unfold State.Mems; rw [(State.noticeLine_keeps s n).1, (State.noticeLine_keeps s n).2]
@[simp] theorem State.latchEdge_keeps (s : State) (n : Nat) (rise : Bool) :
    (State.latchEdge s n rise).mem = s.mem ∧ (State.latchEdge s n rise).hostMem = s.hostMem := by
  simp [State.latchEdge]
@[simp] theorem State.latchEdge_mems (s : State) (n : Nat) (rise : Bool) : (State.latchEdge s n rise).Mems ↔ s.Mems := by
  unfold State.Mems; rw [(State.latchEdge_keeps s n rise).1, (State.latchEdge_keeps s n rise).2]
@[simp] theorem execSourceLineChange_keeps (n : Nat) (level : Bool) (s : State) : ResKeeps s (execSourceLineChange n level s) := by
  simp [execSourceLineChange]
@[simp] theorem execSourceLineChange_mems (n : Nat) (level : Bool) (s : State) (h : s.Mems) : ResMems (execSourceLineChange n level s) := (execSourceLineChange_keeps n level s).mems h
@[simp] theorem execAsyncLatchEdge_keeps (n : Nat) (e : Sys2Proof.Edge) (s : State) : ResKeeps s (execAsyncLatchEdge n e s) := by
  simp [execAsyncLatchEdge]
@[simp] theorem execAsyncLatchEdge_mems (n : Nat) (e : Sys2Proof.Edge) (s : State) (h : s.Mems) : ResMems (execAsyncLatchEdge n e s) := (execAsyncLatchEdge_keeps n e s).mems h
@[simp] theorem State.filterSample_keeps (s : State) (n : Nat) :
    (State.filterSample s n).mem = s.mem ∧ (State.filterSample s n).hostMem = s.hostMem := by
  simp [State.filterSample]
@[simp] theorem State.filterSample_mems (s : State) (n : Nat) : (State.filterSample s n).Mems ↔ s.Mems := by
  unfold State.Mems; rw [(State.filterSample_keeps s n).1, (State.filterSample_keeps s n).2]
@[simp] theorem State.replayLatch_keeps (s : State) (n : Nat) :
    (State.replayLatch s n).mem = s.mem ∧ (State.replayLatch s n).hostMem = s.hostMem := by
  simp [State.replayLatch]
@[simp] theorem State.replayLatch_mems (s : State) (n : Nat) : (State.replayLatch s n).Mems ↔ s.Mems := by
  unfold State.Mems; rw [(State.replayLatch_keeps s n).1, (State.replayLatch_keeps s n).2]
@[simp] theorem State.replayLatches_keeps (s : State) :
    (State.replayLatches s).mem = s.mem ∧ (State.replayLatches s).hostMem = s.hostMem := by
  simp [State.replayLatches]
@[simp] theorem State.replayLatches_mems (s : State) : (State.replayLatches s).Mems ↔ s.Mems := by
  unfold State.Mems; rw [(State.replayLatches_keeps s).1, (State.replayLatches_keeps s).2]
@[simp] theorem State.replaceProv_keeps (s : State) (t : Nat) :
    (State.replaceProv s t).mem = s.mem ∧ (State.replaceProv s t).hostMem = s.hostMem := by
  unfold State.replaceProv; split <;> simp
@[simp] theorem State.replaceProv_mems (s : State) (t : Nat) : (State.replaceProv s t).Mems ↔ s.Mems := by
  unfold State.Mems; rw [(State.replaceProv_keeps s t).1, (State.replaceProv_keeps s t).2]
@[simp] theorem State.commitSource_keeps (s : State) (t : Nat) (level : Nat) (n : Nat) :
    (State.commitSource s t level n).mem = s.mem ∧ (State.commitSource s t level n).hostMem = s.hostMem := by
  simp [State.commitSource]
@[simp] theorem State.commitSource_mems (s : State) (t : Nat) (level : Nat) (n : Nat) : (State.commitSource s t level n).Mems ↔ s.Mems := by
  unfold State.Mems; rw [(State.commitSource_keeps s t level n).1, (State.commitSource_keeps s t level n).2]
@[simp] theorem State.handoff_keeps (s : State) (t : Nat) :
    (State.handoff s t).mem = s.mem ∧ (State.handoff s t).hostMem = s.hostMem := by
  unfold State.handoff; split <;> simp
@[simp] theorem State.handoff_mems (s : State) (t : Nat) : (State.handoff s t).Mems ↔ s.Mems := by
  unfold State.Mems; rw [(State.handoff_keeps s t).1, (State.handoff_keeps s t).2]
@[simp] theorem workInterruptAcknowledge_keeps (t : Nat) (s : State) : ResKeeps s (workInterruptAcknowledge t s) := by
  unfold workInterruptAcknowledge; (repeat' split) <;> simp
@[simp] theorem workInterruptAcknowledge_mems (t : Nat) (s : State) (h : s.Mems) : ResMems (workInterruptAcknowledge t s) := (workInterruptAcknowledge_keeps t s).mems h
@[simp] theorem workInterruptCommit_keeps (t : Nat) (s : State) : ResKeeps s (workInterruptCommit t s) := by
  unfold workInterruptCommit; ((try dsimp only); repeat' split) <;> simp
@[simp] theorem workInterruptCommit_mems (t : Nat) (s : State) (h : s.Mems) : ResMems (workInterruptCommit t s) := (workInterruptCommit_keeps t s).mems h
@[simp] theorem State.released_keeps (s : State) (n : Nat) :
    (State.released s n).mem = s.mem ∧ (State.released s n).hostMem = s.hostMem := by
  simp [State.released]
@[simp] theorem State.released_mems (s : State) (n : Nat) : (State.released s n).Mems ↔ s.Mems := by
  unfold State.Mems; rw [(State.released_keeps s n).1, (State.released_keeps s n).2]
@[simp] theorem State.refuseEoi_keeps (s : State) (t : Nat) (offered : Nat) :
    (State.refuseEoi s t offered).mem = s.mem ∧ (State.refuseEoi s t offered).hostMem = s.hostMem := by
  simp [State.refuseEoi]
@[simp] theorem State.refuseEoi_mems (s : State) (t : Nat) (offered : Nat) : (State.refuseEoi s t offered).Mems ↔ s.Mems := by
  unfold State.Mems; rw [(State.refuseEoi_keeps s t offered).1, (State.refuseEoi_keeps s t offered).2]
@[simp] theorem execCarmTnEoi_keeps (t : Nat) (v : Sys2Proof.Word) (s : State) : ResKeeps s (execCarmTnEoi t v s) := by
  unfold execCarmTnEoi; (repeat' split) <;> simp
@[simp] theorem execCarmTnEoi_mems (t : Nat) (v : Sys2Proof.Word) (s : State) (h : s.Mems) : ResMems (execCarmTnEoi t v s) := (execCarmTnEoi_keeps t v s).mems h
@[simp] theorem execCarmTnStackRst_keeps (t : Nat) (v : Sys2Proof.Word) (s : State) : ResKeeps s (execCarmTnStackRst t v s) := by
  simp [execCarmTnStackRst]
@[simp] theorem execCarmTnStackRst_mems (t : Nat) (v : Sys2Proof.Word) (s : State) (h : s.Mems) : ResMems (execCarmTnStackRst t v s) := (execCarmTnStackRst_keeps t v s).mems h
@[simp] theorem execCarmTnHold_keeps (t : Nat) (v : Sys2Proof.Word) (s : State) : ResKeeps s (execCarmTnHold t v s) := by
  simp [execCarmTnHold]
@[simp] theorem execCarmTnHold_mems (t : Nat) (v : Sys2Proof.Word) (s : State) (h : s.Mems) : ResMems (execCarmTnHold t v s) := (execCarmTnHold_keeps t v s).mems h
@[simp] theorem State.setPend_keeps (s : State) (n : Nat) :
    (State.setPend s n).mem = s.mem ∧ (State.setPend s n).hostMem = s.hostMem := by
  simp [State.setPend]
@[simp] theorem State.setPend_mems (s : State) (n : Nat) : (State.setPend s n).Mems ↔ s.Mems := by
  unfold State.Mems; rw [(State.setPend_keeps s n).1, (State.setPend_keeps s n).2]
@[simp] theorem execCarmSetpend_keeps (v : Sys2Proof.Word) (s : State) : ResKeeps s (execCarmSetpend v s) := by
  simp [execCarmSetpend]
@[simp] theorem execCarmSetpend_mems (v : Sys2Proof.Word) (s : State) (h : s.Mems) : ResMems (execCarmSetpend v s) := (execCarmSetpend_keeps v s).mems h
@[simp] theorem State.hostRelay_keeps (s : State) :
    (State.hostRelay s).mem = s.mem ∧ (State.hostRelay s).hostMem = s.hostMem := by
  unfold State.hostRelay
  cases s.candidate 5 with
  | none => simp only [and_self]
  | some c => dsimp only; split <;> simp only [State.modCarmine_keeps, State.bumpSat_keeps, State.setSrc_keeps, State.msix_keeps, and_self]
@[simp] theorem State.hostRelay_mems (s : State) : (State.hostRelay s).Mems ↔ s.Mems := by
  unfold State.Mems; rw [(State.hostRelay_keeps s).1, (State.hostRelay_keeps s).2]
@[simp] theorem workHostRelay_keeps (s : State) : ResKeeps s (workHostRelay s) := by
  simp [workHostRelay]
@[simp] theorem workHostRelay_mems (s : State) (h : s.Mems) : ResMems (workHostRelay s) := (workHostRelay_keeps s).mems h
@[simp] theorem execModerationHoldoffExpiry_keeps (n : Nat) (s : State) : ResKeeps s (execModerationHoldoffExpiry n s) := by
  simp [execModerationHoldoffExpiry]
@[simp] theorem execModerationHoldoffExpiry_mems (n : Nat) (s : State) (h : s.Mems) : ResMems (execModerationHoldoffExpiry n s) := (execModerationHoldoffExpiry_keeps n s).mems h
@[simp] theorem State.ackRelay_keeps (s : State) (n : Nat) :
    (State.ackRelay s n).mem = s.mem ∧ (State.ackRelay s n).hostMem = s.hostMem := by
  simp [State.ackRelay]
@[simp] theorem State.ackRelay_mems (s : State) (n : Nat) : (State.ackRelay s n).Mems ↔ s.Mems := by
  unfold State.Mems; rw [(State.ackRelay_keeps s n).1, (State.ackRelay_keeps s n).2]
@[simp] theorem State.flrRelay_keeps (s : State) (f : Nat) :
    (State.flrRelay s f).mem = s.mem ∧ (State.flrRelay s f).hostMem = s.hostMem := by
  simp [State.flrRelay]
@[simp] theorem State.flrRelay_mems (s : State) (f : Nat) : (State.flrRelay s f).Mems ↔ s.Mems := by
  unfold State.Mems; rw [(State.flrRelay_keeps s f).1, (State.flrRelay_keeps s f).2]
@[simp] theorem State.carmDown_keeps (s : State) :
    (State.carmDown s).mem = s.mem ∧ (State.carmDown s).hostMem = s.hostMem := by
  simp [State.carmDown]
@[simp] theorem State.carmDown_mems (s : State) : (State.carmDown s).Mems ↔ s.Mems := by
  unfold State.Mems; rw [(State.carmDown_keeps s).1, (State.carmDown_keeps s).2]
@[simp] theorem State.configSource_keeps (s : State) (n : Nat) (cfg : Sys2Proof.Word) (mod : Sys2Proof.Word) :
    (State.configSource s n cfg mod).mem = s.mem ∧ (State.configSource s n cfg mod).hostMem = s.hostMem := by
  simp [State.configSource]
@[simp] theorem State.configSource_mems (s : State) (n : Nat) (cfg : Sys2Proof.Word) (mod : Sys2Proof.Word) : (State.configSource s n cfg mod).Mems ↔ s.Mems := by
  unfold State.Mems; rw [(State.configSource_keeps s n cfg mod).1, (State.configSource_keeps s n cfg mod).2]
@[simp] theorem actIntrSet_keeps (c : Cmd) (s : State) :
    (actIntrSet c s).1.mem = s.mem ∧ (actIntrSet c s).1.hostMem = s.hostMem := by
  simp [actIntrSet]
@[simp] theorem actIntrSet_mems (c : Cmd) (s : State) : (actIntrSet c s).1.Mems ↔ s.Mems := by
  unfold State.Mems; rw [(actIntrSet_keeps c s).1, (actIntrSet_keeps c s).2]
@[simp] theorem execIntrSetSource_keeps (p : Nat) (s : State) : ResKeeps s (execIntrSetSource p s) := by
  unfold execIntrSetSource; refine (resKeeps_next _ _).mpr (runPage_keeps _ _ _ _ ?_); refine plainPage_keeps _ _ ?_; intro c t; simp
@[simp] theorem execIntrSetSource_mems (p : Nat) (s : State) (h : s.Mems) : ResMems (execIntrSetSource p s) := (execIntrSetSource_keeps p s).mems h
@[simp] theorem execIntrGetSource_keeps (p : Nat) (s : State) : ResKeeps s (execIntrGetSource p s) := by
  unfold execIntrGetSource; refine (resKeeps_next _ _).mpr (runPage_keeps _ _ _ _ ?_); refine plainPage_keeps _ _ ?_; intro c t; simp
@[simp] theorem execIntrGetSource_mems (p : Nat) (s : State) (h : s.Mems) : ResMems (execIntrGetSource p s) := (execIntrGetSource_keeps p s).mems h
@[simp] theorem execIntrSetpend_keeps (p : Nat) (s : State) : ResKeeps s (execIntrSetpend p s) := by
  unfold execIntrSetpend; refine (resKeeps_next _ _).mpr (runPage_keeps _ _ _ _ ?_); refine plainPage_keeps _ _ ?_; intro c t; simp
@[simp] theorem execIntrSetpend_mems (p : Nat) (s : State) (h : s.Mems) : ResMems (execIntrSetpend p s) := (execIntrSetpend_keeps p s).mems h
@[simp] theorem execIntrHostPending_keeps (p : Nat) (s : State) : ResKeeps s (execIntrHostPending p s) := by
  unfold execIntrHostPending; refine (resKeeps_next _ _).mpr (runPage_keeps _ _ _ _ ?_); refine plainPage_keeps _ _ ?_; intro c t; simp
@[simp] theorem execIntrHostPending_mems (p : Nat) (s : State) (h : s.Mems) : ResMems (execIntrHostPending p s) := (execIntrHostPending_keeps p s).mems h
@[simp] theorem execIntrHostAck_keeps (p : Nat) (s : State) : ResKeeps s (execIntrHostAck p s) := by
  unfold execIntrHostAck; refine (resKeeps_next _ _).mpr (runPage_keeps _ _ _ _ ?_); refine plainPage_keeps _ _ ?_; intro c t; simp
@[simp] theorem execIntrHostAck_mems (p : Nat) (s : State) (h : s.Mems) : ResMems (execIntrHostAck p s) := (execIntrHostAck_keeps p s).mems h
@[simp] theorem execIntrGetStats_keeps (p : Nat) (s : State) : ResKeeps s (execIntrGetStats p s) := by
  unfold execIntrGetStats; refine (resKeeps_next _ _).mpr (runPage_keeps _ _ _ _ ?_); refine plainPage_keeps _ _ ?_; intro c t; simp
@[simp] theorem execIntrGetStats_mems (p : Nat) (s : State) (h : s.Mems) : ResMems (execIntrGetStats p s) := (execIntrGetStats_keeps p s).mems h


end Sys2Proof.Machine
end

