-- ==== Sys2Proof/Laws/MemTeardown.lean ====
section
/-! SUPPORT. What the operations and meanings of Machine/Teardown.lean do to the two memories: `_keeps` says that both stay as
they were, `_mems` that their canonical form is kept. -/

namespace Sys2Proof.Machine

@[simp] theorem State.releasePort_keeps (s : State) (p : Nat) :
    (State.releasePort s p).mem = s.mem ∧ (State.releasePort s p).hostMem = s.hostMem := by
  simp [State.releasePort]
@[simp] theorem State.releasePort_mems (s : State) (p : Nat) : (State.releasePort s p).Mems ↔ s.Mems := by
  unfold State.Mems; rw [(State.releasePort_keeps s p).1, (State.releasePort_keeps s p).2]
@[simp] theorem State.releaseChannel_keeps (s : State) (c : Nat) :
    (State.releaseChannel s c).mem = s.mem ∧ (State.releaseChannel s c).hostMem = s.hostMem := by
  simp [State.releaseChannel]
@[simp] theorem State.releaseChannel_mems (s : State) (c : Nat) : (State.releaseChannel s c).Mems ↔ s.Mems := by
  unfold State.Mems; rw [(State.releaseChannel_keeps s c).1, (State.releaseChannel_keeps s c).2]
@[simp] theorem State.releaseStack_keeps (s : State) (k : Nat) :
    (State.releaseStack s k).mem = s.mem ∧ (State.releaseStack s k).hostMem = s.hostMem := by
  simp [State.releaseStack]
@[simp] theorem State.releaseStack_mems (s : State) (k : Nat) : (State.releaseStack s k).Mems ↔ s.Mems := by
  unfold State.Mems; rw [(State.releaseStack_keeps s k).1, (State.releaseStack_keeps s k).2]
@[simp] theorem State.releaseSurface_keeps (s : State) (k : Nat) :
    (State.releaseSurface s k).mem = s.mem ∧ (State.releaseSurface s k).hostMem = s.hostMem := by
  simp [State.releaseSurface]
@[simp] theorem State.releaseSurface_mems (s : State) (k : Nat) : (State.releaseSurface s k).Mems ↔ s.Mems := by
  unfold State.Mems; rw [(State.releaseSurface_keeps s k).1, (State.releaseSurface_keeps s k).2]
@[simp] theorem State.releaseRule_keeps (s : State) (r : Nat) :
    (State.releaseRule s r).mem = s.mem ∧ (State.releaseRule s r).hostMem = s.hostMem := by
  simp [State.releaseRule]
@[simp] theorem State.releaseRule_mems (s : State) (r : Nat) : (State.releaseRule s r).Mems ↔ s.Mems := by
  unfold State.Mems; rw [(State.releaseRule_keeps s r).1, (State.releaseRule_keeps s r).2]
@[simp] theorem State.releaseBind_mems (s : State) (b : Nat) (h : s.Mems) : (State.releaseBind s b).Mems := by
  unfold State.releaseBind
  simp only [State.dropBind_mems]
  exact foldl_mems _ (fun t _ ht => State.runDone_mems t b ht) _ _ h
@[simp] theorem State.releaseArmed_keeps (s : State) (c : Nat) :
    (State.releaseArmed s c).mem = s.mem ∧ (State.releaseArmed s c).hostMem = s.hostMem := by
  simp [State.releaseArmed]
@[simp] theorem State.releaseArmed_mems (s : State) (c : Nat) : (State.releaseArmed s c).Mems ↔ s.Mems := by
  unfold State.Mems; rw [(State.releaseArmed_keeps s c).1, (State.releaseArmed_keeps s c).2]
@[simp] theorem State.releasePorts_keeps (s : State) (c : Nat) :
    (State.releasePorts s c).mem = s.mem ∧ (State.releasePorts s c).hostMem = s.hostMem := by
  simp [State.releasePorts]
@[simp] theorem State.releasePorts_mems (s : State) (c : Nat) : (State.releasePorts s c).Mems ↔ s.Mems := by
  unfold State.Mems; rw [(State.releasePorts_keeps s c).1, (State.releasePorts_keeps s c).2]
@[simp] theorem State.releaseStacks_keeps (s : State) (c : Nat) :
    (State.releaseStacks s c).mem = s.mem ∧ (State.releaseStacks s c).hostMem = s.hostMem := by
  simp [State.releaseStacks]
@[simp] theorem State.releaseStacks_mems (s : State) (c : Nat) : (State.releaseStacks s c).Mems ↔ s.Mems := by
  unfold State.Mems; rw [(State.releaseStacks_keeps s c).1, (State.releaseStacks_keeps s c).2]
@[simp] theorem State.releaseSurfaces_keeps (s : State) (c : Nat) :
    (State.releaseSurfaces s c).mem = s.mem ∧ (State.releaseSurfaces s c).hostMem = s.hostMem := by
  simp [State.releaseSurfaces]
@[simp] theorem State.releaseSurfaces_mems (s : State) (c : Nat) : (State.releaseSurfaces s c).Mems ↔ s.Mems := by
  unfold State.Mems; rw [(State.releaseSurfaces_keeps s c).1, (State.releaseSurfaces_keeps s c).2]
@[simp] theorem State.releaseBands_keeps (s : State) (c : Nat) :
    (State.releaseBands s c).mem = s.mem ∧ (State.releaseBands s c).hostMem = s.hostMem := by
  simp [State.releaseBands]
@[simp] theorem State.releaseBands_mems (s : State) (c : Nat) : (State.releaseBands s c).Mems ↔ s.Mems := by
  unfold State.Mems; rw [(State.releaseBands_keeps s c).1, (State.releaseBands_keeps s c).2]
@[simp] theorem State.releaseChannels_keeps (s : State) (c : Nat) :
    (State.releaseChannels s c).mem = s.mem ∧ (State.releaseChannels s c).hostMem = s.hostMem := by
  simp [State.releaseChannels]
@[simp] theorem State.releaseChannels_mems (s : State) (c : Nat) : (State.releaseChannels s c).Mems ↔ s.Mems := by
  unfold State.Mems; rw [(State.releaseChannels_keeps s c).1, (State.releaseChannels_keeps s c).2]
@[simp] theorem State.releaseCoefs_keeps (s : State) (c : Nat) :
    (State.releaseCoefs s c).mem = s.mem ∧ (State.releaseCoefs s c).hostMem = s.hostMem := by
  simp [State.releaseCoefs]
@[simp] theorem State.releaseCoefs_mems (s : State) (c : Nat) : (State.releaseCoefs s c).Mems ↔ s.Mems := by
  unfold State.Mems; rw [(State.releaseCoefs_keeps s c).1, (State.releaseCoefs_keeps s c).2]
@[simp] theorem State.releaseRules_keeps (s : State) (c : Nat) :
    (State.releaseRules s c).mem = s.mem ∧ (State.releaseRules s c).hostMem = s.hostMem := by
  simp [State.releaseRules]
@[simp] theorem State.releaseRules_mems (s : State) (c : Nat) : (State.releaseRules s c).Mems ↔ s.Mems := by
  unfold State.Mems; rw [(State.releaseRules_keeps s c).1, (State.releaseRules_keeps s c).2]
@[simp] theorem State.releaseBinds_mems (s : State) (c : Nat) (h : s.Mems) : (State.releaseBinds s c).Mems := by
  unfold State.releaseBinds; exact forEach_mems _ _ (fun b u hu => State.releaseBind_mems u b hu) _ h
@[simp] theorem State.releaseModels_keeps (s : State) (c : Nat) :
    (State.releaseModels s c).mem = s.mem ∧ (State.releaseModels s c).hostMem = s.hostMem := by
  simp [State.releaseModels]
@[simp] theorem State.releaseModels_mems (s : State) (c : Nat) : (State.releaseModels s c).Mems ↔ s.Mems := by
  unfold State.Mems; rw [(State.releaseModels_keeps s c).1, (State.releaseModels_keeps s c).2]
@[simp] theorem State.releaseQueues_keeps (s : State) (c : Nat) :
    (State.releaseQueues s c).mem = s.mem ∧ (State.releaseQueues s c).hostMem = s.hostMem := by
  simp [State.releaseQueues]
@[simp] theorem State.releaseQueues_mems (s : State) (c : Nat) : (State.releaseQueues s c).Mems ↔ s.Mems := by
  unfold State.Mems; rw [(State.releaseQueues_keeps s c).1, (State.releaseQueues_keeps s c).2]
@[simp] theorem State.releaseExtents_keeps (s : State) (c : Nat) :
    (State.releaseExtents s c).mem = s.mem ∧ (State.releaseExtents s c).hostMem = s.hostMem := by
  simp [State.releaseExtents]
@[simp] theorem State.releaseExtents_mems (s : State) (c : Nat) : (State.releaseExtents s c).Mems ↔ s.Mems := by
  unfold State.Mems; rw [(State.releaseExtents_keeps s c).1, (State.releaseExtents_keeps s c).2]
@[simp] theorem State.releaseAll_mems (s : State) (c : Nat) (h : s.Mems) : (State.releaseAll s c).Mems := by
  unfold State.releaseAll
  dsimp only
  simp only [State.releaseExtents_mems, State.releaseQueues_mems, State.releaseModels_mems]
  apply State.releaseBinds_mems
  simpa using h
@[simp] theorem State.removeEntries_keeps (s : State) (c : Nat) :
    (State.removeEntries s c).mem = s.mem ∧ (State.removeEntries s c).hostMem = s.hostMem := by
  simp [State.removeEntries]
@[simp] theorem State.removeEntries_mems (s : State) (c : Nat) : (State.removeEntries s c).Mems ↔ s.Mems := by
  unfold State.Mems; rw [(State.removeEntries_keeps s c).1, (State.removeEntries_keeps s c).2]
@[simp] theorem State.dropRecords_keeps (s : State) (f : Nat) (r : Nat) (mine : Staged → Bool) :
    (State.dropRecords s f r mine).mem = s.mem ∧ (State.dropRecords s f r mine).hostMem = s.hostMem := by
  simp [State.dropRecords]
@[simp] theorem State.dropRecords_mems (s : State) (f : Nat) (r : Nat) (mine : Staged → Bool) : (State.dropRecords s f r mine).Mems ↔ s.Mems := by
  unfold State.Mems; rw [(State.dropRecords_keeps s f r mine).1, (State.dropRecords_keeps s f r mine).2]
@[simp] theorem State.discardRecords_keeps (s : State) (c : Nat) (fn : Nat) :
    (State.discardRecords s c fn).mem = s.mem ∧ (State.discardRecords s c fn).hostMem = s.hostMem := by
  simp [State.discardRecords]
@[simp] theorem State.discardRecords_mems (s : State) (c : Nat) (fn : Nat) : (State.discardRecords s c fn).Mems ↔ s.Mems := by
  unfold State.Mems; rw [(State.discardRecords_keeps s c fn).1, (State.discardRecords_keeps s c fn).2]
@[simp] theorem State.drainRings_mems (s : State) (fn : Nat) (h : s.Mems) : (State.drainRings s fn).Mems := by
  unfold State.drainRings
  exact forEach_mems _ _ (fun r t ht => foldl_mems _ (fun u _ hu => State.recordDeliver_mems u fn r hu) _ _ ht) _ h
@[simp] theorem State.showUsed_keeps (s : State) (fn : Nat) :
    (State.showUsed s fn).mem = s.mem ∧ (State.showUsed s fn).hostMem = s.hostMem := by
  simp [State.showUsed]
@[simp] theorem State.showUsed_mems (s : State) (fn : Nat) : (State.showUsed s fn).Mems ↔ s.Mems := by
  unfold State.Mems; rw [(State.showUsed_keeps s fn).1, (State.showUsed_keeps s fn).2]
@[simp] theorem State.tearOpen_mems (s : State) (c : Nat) (x : Ctx) (h : s.Mems) : (State.tearOpen s c x).Mems := by
  unfold State.tearOpen; (repeat' split) <;> simp [h]
@[simp] theorem State.freeNumber_keeps (s : State) (c : Nat) (x : Ctx) :
    (State.freeNumber s c x).mem = s.mem ∧ (State.freeNumber s c x).hostMem = s.hostMem := by
  unfold State.freeNumber; (repeat' split) <;> simp
@[simp] theorem State.freeNumber_mems (s : State) (c : Nat) (x : Ctx) : (State.freeNumber s c x).Mems ↔ s.Mems := by
  unfold State.Mems; rw [(State.freeNumber_keeps s c x).1, (State.freeNumber_keeps s c x).2]
@[simp] theorem State.tearDown_mems (s : State) (c : Nat) (h : s.Mems) : (State.tearDown s c).Mems := by
  unfold State.tearDown; split <;> simp [h]
@[simp] theorem State.settleTeardowns_keeps (s : State) :
    (State.settleTeardowns s).mem = s.mem ∧ (State.settleTeardowns s).hostMem = s.hostMem := by
  simp [State.settleTeardowns]
@[simp] theorem State.settleTeardowns_mems (s : State) : (State.settleTeardowns s).Mems ↔ s.Mems := by
  unfold State.Mems; rw [(State.settleTeardowns_keeps s).1, (State.settleTeardowns_keeps s).2]
@[simp] theorem State.dropDeviceRecords_keeps (s : State) :
    (State.dropDeviceRecords s).mem = s.mem ∧ (State.dropDeviceRecords s).hostMem = s.hostMem := by
  simp [State.dropDeviceRecords]
@[simp] theorem State.dropDeviceRecords_mems (s : State) : (State.dropDeviceRecords s).Mems ↔ s.Mems := by
  unfold State.Mems; rw [(State.dropDeviceRecords_keeps s).1, (State.dropDeviceRecords_keeps s).2]
@[simp] theorem State.flrRegs_keeps (s : State) (f : Nat) :
    (State.flrRegs s f).mem = s.mem ∧ (State.flrRegs s f).hostMem = s.hostMem := by
  simp [State.flrRegs]
@[simp] theorem State.flrRegs_mems (s : State) (f : Nat) : (State.flrRegs s f).Mems ↔ s.Mems := by
  unfold State.Mems; rw [(State.flrRegs_keeps s f).1, (State.flrRegs_keeps s f).2]
@[simp] theorem State.tearDownAll_mems (s : State) (l : List Nat) (h : s.Mems) : (State.tearDownAll s l).Mems := by
  unfold State.tearDownAll; exact forEach_mems _ _ (fun _ _ ht => by simp [ht]) _ (by simp [h])
theorem dropFences_keeps (l : List Nat) (b e n : Nat) (s : State) :
    (l.foldl (fun (t : State) c => t.dropFence 18 c b e n 0) s).mem = s.mem ∧
    (l.foldl (fun (t : State) c => t.dropFence 18 c b e n 0) s).hostMem = s.hostMem := by
  induction l generalizing s with
  | nil => exact ⟨rfl, rfl⟩
  | cons c l ih =>
    have h := State.dropFence_keeps s 18 c b e n 0
    have i := ih (s.dropFence 18 c b e n 0)
    rw [List.foldl_cons]
    exact ⟨i.1.trans h.1, i.2.trans h.2⟩
@[simp] theorem State.freeSpill_keeps (s : State) (f : Nat) (r : Nat) :
    (State.freeSpill s f r).mem = s.mem ∧ (State.freeSpill s f r).hostMem = s.hostMem := by
  unfold State.freeSpill
  cases findExtent exSpill (ringNo f r) s.host.dram with
  | none => exact State.freeDram_keeps _ _ _
  | some e =>
    have h := State.freeDram_keeps ((s.ctxsOf f).foldl
      (fun (t : State) c => t.dropFence 18 c e.base e.len (guardEntries 18 - 32) 0) s) exSpill (ringNo f r)
    have i := dropFences_keeps (s.ctxsOf f) e.base e.len (guardEntries 18 - 32) s
    exact ⟨h.1.trans i.1, h.2.trans i.2⟩
@[simp] theorem State.freeSpill_mems (s : State) (f : Nat) (r : Nat) : (State.freeSpill s f r).Mems ↔ s.Mems := by
  unfold State.Mems; rw [(State.freeSpill_keeps s f r).1, (State.freeSpill_keeps s f r).2]
@[simp] theorem State.dropRings_keeps (s : State) (f : Nat) :
    (State.dropRings s f).mem = s.mem ∧ (State.dropRings s f).hostMem = s.hostMem := by
  simp [State.dropRings]
@[simp] theorem State.dropRings_mems (s : State) (f : Nat) : (State.dropRings s f).Mems ↔ s.Mems := by
  unfold State.Mems; rw [(State.dropRings_keeps s f).1, (State.dropRings_keeps s f).2]
@[simp] theorem State.abandonEth_keeps (s : State) (f : Nat) :
    (State.abandonEth s f).mem = s.mem ∧ (State.abandonEth s f).hostMem = s.hostMem := by
  simp [State.abandonEth]
@[simp] theorem State.abandonEth_mems (s : State) (f : Nat) : (State.abandonEth s f).Mems ↔ s.Mems := by
  unfold State.Mems; rw [(State.abandonEth_keeps s f).1, (State.abandonEth_keeps s f).2]
@[simp] theorem State.flrOne_mems (s : State) (f : Nat) (h : s.Mems) : (State.flrOne s f).Mems := by
  have ht := State.tearDownAll_mems (s.flrRegs f) (s.ctxsOf f) (by simpa using h)
  unfold State.flrOne
  dsimp only
  generalize (s.flrRegs f).tearDownAll (s.ctxsOf f) = t at ht ⊢
  refine (State.abandonEth_mems _ _).mpr ((State.flrRelay_mems _ _).mpr ((State.setFunc_mems _ _ _).mpr
    ((State.dropRings_mems _ _).mpr ?_)))
  split
  · exact (State.dropDeviceRecords_mems _).mpr ht
  · exact ht
@[simp] theorem State.flr_mems (s : State) (f : Nat) (h : s.Mems) : (State.flr s f).Mems := by
  unfold State.flr
  dsimp only
  split
  · simp only [State.setReg_mems]
    exact foldl_mems _ (fun u g hu => State.flrOne_mems u g hu) _ _ (by simpa using h)
  · exact State.flrOne_mems _ _ (by simpa using h)
@[simp] theorem workFlr_mems (fn : Nat) (s : State) (h : s.Mems) : ResMems (workFlr fn s) := by
  unfold workFlr; split <;> simp [h, h.1, h.2]
@[simp] theorem State.setNumVfs_mems (s : State) (n : Nat) (h : s.Mems) : (State.setNumVfs s n).Mems := by
  unfold State.setNumVfs
  simp only [State.setReg_mems]
  exact foldl_mems _ (fun u g hu => State.flrOne_mems u g hu) _ _ h
@[simp] theorem workVfDisable_mems (numVfs : Nat) (s : State) (h : s.Mems) : ResMems (workVfDisable numVfs s) := by
  unfold workVfDisable; split <;> simp [h, h.1, h.2]
@[simp] theorem workVfEnable_mems (numVfs : Nat) (s : State) (h : s.Mems) : ResMems (workVfEnable numVfs s) := by
  unfold workVfEnable; split <;> simp [h, h.1, h.2]
@[simp] theorem execIdentify_keeps (p : Nat) (s : State) : ResKeeps s (execIdentify p s) := by
  unfold execIdentify; refine (resKeeps_next _ _).mpr (runPage_keeps _ _ _ _ ?_); refine plainPage_keeps _ _ ?_; intro c t; simp
@[simp] theorem execIdentify_mems (p : Nat) (s : State) (h : s.Mems) : ResMems (execIdentify p s) := (execIdentify_keeps p s).mems h
@[simp] theorem execGetVersion_keeps (p : Nat) (s : State) : ResKeeps s (execGetVersion p s) := by
  unfold execGetVersion; refine (resKeeps_next _ _).mpr (runPage_keeps _ _ _ _ ?_); refine plainPage_keeps _ _ ?_; intro c t; simp
@[simp] theorem execGetVersion_mems (p : Nat) (s : State) (h : s.Mems) : ResMems (execGetVersion p s) := (execGetVersion_keeps p s).mems h
@[simp] theorem execReset_keeps (p : Nat) (s : State) : ResKeeps s (execReset p s) := by
  unfold execReset; refine (resKeeps_next _ _).mpr (runPage_keeps _ _ _ _ ?_); refine plainPage_keeps _ _ ?_; intro c t; simp
@[simp] theorem execReset_mems (p : Nat) (s : State) (h : s.Mems) : ResMems (execReset p s) := (execReset_keeps p s).mems h
@[simp] theorem execFuncSetLimits_keeps (p : Nat) (s : State) : ResKeeps s (execFuncSetLimits p s) := by
  unfold execFuncSetLimits; refine (resKeeps_next _ _).mpr (runPage_keeps _ _ _ _ ?_); refine plainPage_keeps _ _ ?_; intro c t; simp
@[simp] theorem execFuncSetLimits_mems (p : Nat) (s : State) (h : s.Mems) : ResMems (execFuncSetLimits p s) := (execFuncSetLimits_keeps p s).mems h
@[simp] theorem State.fenceSpill_keeps (s : State) (c : Nat) (f : Nat) (r : Nat) :
    (State.fenceSpill s c f r).mem = s.mem ∧ (State.fenceSpill s c f r).hostMem = s.hostMem := by
  unfold State.fenceSpill; (repeat' split) <;> simp
@[simp] theorem State.fenceSpill_mems (s : State) (c : Nat) (f : Nat) (r : Nat) : (State.fenceSpill s c f r).Mems ↔ s.Mems := by
  unfold State.Mems; rw [(State.fenceSpill_keeps s c f r).1, (State.fenceSpill_keeps s c f r).2]
@[simp] theorem execCtxCreate_keeps (p : Nat) (s : State) : ResKeeps s (execCtxCreate p s) := by
  unfold execCtxCreate; refine (resKeeps_next _ _).mpr (runPage_keeps _ _ _ _ ?_); intro c d t; unfold createBody; (repeat' split) <;> simp
@[simp] theorem execCtxCreate_mems (p : Nat) (s : State) (h : s.Mems) : ResMems (execCtxCreate p s) := (execCtxCreate_keeps p s).mems h
@[simp] theorem execCtxDestroy_mems (p : Nat) (s : State) (h : s.Mems) : ResMems (execCtxDestroy p s) := by
  unfold execCtxDestroy; refine (resMems_next _).mpr (runPage_mems _ _ _ _ ?_ h)
  intro c d t ht
  unfold destroyBody
  split
  · exact ht
  · next x _ =>
    have hu := State.drainRings_mems _ x.fn (State.tearOpen_mems t c.ctx x ht)
    dsimp only
    generalize (t.tearOpen c.ctx x).drainRings x.fn = u at hu ⊢
    split
    · exact (State.freeNumber_mems _ _ _).mpr hu
    · exact (State.modHost_mems _ _).mpr hu
@[simp] theorem execCtxSetRing_keeps (p : Nat) (s : State) : ResKeeps s (execCtxSetRing p s) := by
  unfold execCtxSetRing; refine (resKeeps_next _ _).mpr (runPage_keeps _ _ _ _ ?_); refine plainPage_keeps _ _ ?_; intro c t; dsimp only; (repeat' split) <;> simp
@[simp] theorem execCtxSetRing_mems (p : Nat) (s : State) (h : s.Mems) : ResMems (execCtxSetRing p s) := (execCtxSetRing_keeps p s).mems h
@[simp] theorem execCtxGetInfo_keeps (p : Nat) (s : State) : ResKeeps s (execCtxGetInfo p s) := by
  unfold execCtxGetInfo; refine (resKeeps_next _ _).mpr (runPage_keeps _ _ _ _ ?_); refine plainPage_keeps _ _ ?_; intro c t; simp
@[simp] theorem execCtxGetInfo_mems (p : Nat) (s : State) (h : s.Mems) : ResMems (execCtxGetInfo p s) := (execCtxGetInfo_keeps p s).mems h
@[simp] theorem State.setRingRegs_keeps (s : State) (n : Nat) (b : Bytes) :
    (State.setRingRegs s n b).mem = s.mem ∧ (State.setRingRegs s n b).hostMem = s.hostMem := by
  simp [State.setRingRegs]
@[simp] theorem State.setRingRegs_mems (s : State) (n : Nat) (b : Bytes) : (State.setRingRegs s n b).Mems ↔ s.Mems := by
  unfold State.Mems; rw [(State.setRingRegs_keeps s n b).1, (State.setRingRegs_keeps s n b).2]
@[simp] theorem execRingSet_keeps (p : Nat) (s : State) : ResKeeps s (execRingSet p s) := by
  unfold execRingSet; refine (resKeeps_next _ _).mpr (runPage_keeps _ _ _ _ ?_)
  intro c d t
  unfold ringSetBody
  dsimp only
  (repeat' split) <;> first
    | exact trivial
    | (simp; done)
    | (rename_i hu; have e := State.allocDram_keeps _ _ _ _ _ _ _ hu; simp [e]; done)
@[simp] theorem execRingSet_mems (p : Nat) (s : State) (h : s.Mems) : ResMems (execRingSet p s) := (execRingSet_keeps p s).mems h


end Sys2Proof.Machine
end

