-- ==== Sys2Proof/Laws/MemBoot.lean ====
section
/-! SUPPORT. What the operations and meanings of Machine/Boot.lean do to the two memories: `_keeps` says that both stay as
they were, `_mems` that their canonical form is kept. -/

namespace Sys2Proof.Machine

@[simp] theorem State.modSys_keeps (s : State) (f : Sys → Sys) :
    (State.modSys s f).mem = s.mem ∧ (State.modSys s f).hostMem = s.hostMem := by
  simp [State.modSys]
@[simp] theorem State.modSys_mems (s : State) (f : Sys → Sys) : (State.modSys s f).Mems ↔ s.Mems := by
  unfold State.Mems; rw [(State.modSys_keeps s f).1, (State.modSys_keeps s f).2]
@[simp] theorem State.modBoard_keeps (s : State) (f : Board → Board) :
    (State.modBoard s f).mem = s.mem ∧ (State.modBoard s f).hostMem = s.hostMem := by
  simp [State.modBoard]
@[simp] theorem State.modBoard_mems (s : State) (f : Board → Board) : (State.modBoard s f).Mems ↔ s.Mems := by
  unfold State.Mems; rw [(State.modBoard_keeps s f).1, (State.modBoard_keeps s f).2]
@[simp] theorem State.flashError_keeps (s : State) (j : FlashJob) (log : Bool) :
    (State.flashError s j log).mem = s.mem ∧ (State.flashError s j log).hostMem = s.hostMem := by
  simp [State.flashError]
@[simp] theorem State.flashError_mems (s : State) (j : FlashJob) (log : Bool) : (State.flashError s j log).Mems ↔ s.Mems := by
  unfold State.Mems; rw [(State.flashError_keeps s j log).1, (State.flashError_keeps s j log).2]
@[simp] theorem State.flashWake_keeps (s : State) (p : Nat) :
    (State.flashWake s p).mem = s.mem ∧ (State.flashWake s p).hostMem = s.hostMem := by
  unfold State.flashWake; split <;> simp
@[simp] theorem State.flashWake_mems (s : State) (p : Nat) : (State.flashWake s p).Mems ↔ s.Mems := by
  unfold State.Mems; rw [(State.flashWake_keeps s p).1, (State.flashWake_keeps s p).2]
@[simp] theorem State.flashRan_keeps (s : State) (j : FlashJob) (ok : Bool) :
    (State.flashRan s j ok).mem = s.mem ∧ (State.flashRan s j ok).hostMem = s.hostMem := by
  simp [State.flashRan]
@[simp] theorem State.flashRan_mems (s : State) (j : FlashJob) (ok : Bool) : (State.flashRan s j ok).Mems ↔ s.Mems := by
  unfold State.Mems; rw [(State.flashRan_keeps s j ok).1, (State.flashRan_keeps s j ok).2]
@[simp] theorem execFlashOperationDone_keeps (ok : Bool) (s : State) : ResKeeps s (execFlashOperationDone ok s) := by
  unfold execFlashOperationDone; split <;> simp
@[simp] theorem execFlashOperationDone_mems (ok : Bool) (s : State) (h : s.Mems) : ResMems (execFlashOperationDone ok s) := (execFlashOperationDone_keeps ok s).mems h
theorem flashResume_keeps (fin : Cmd → State → State × Bytes)
    (ha : ∀ c t, (fin c t).1.mem = t.mem ∧ (fin c t).1.hostMem = t.hostMem) (c : Cmd)
    (d : Option (Option Bytes)) (t : State) : OutKeeps t (flashResume fin c d t) := by
  unfold flashResume
  dsimp only
  (repeat' split)
  · have := ha c (t.modSys fun y => { y with flashJob := none, flashDone := none })
    simpa using this
  · simp
  · simp
theorem flashResume_mems (fin : Cmd → State → State × Bytes) (ha : ∀ c t, t.Mems → (fin c t).1.Mems) (c : Cmd)
    (d : Option (Option Bytes)) (t : State) (ht : t.Mems) : OutMems (flashResume fin c d t) := by
  unfold flashResume
  dsimp only
  (repeat' split)
  · exact ha _ _ (by simpa using ht)
  · simpa using ht
  · simpa using ht
theorem flashPage_keeps (k : Cmd → State → Check) (j : Cmd → State → Option FlashJob) (fin : Cmd → State → State × Bytes)
    (ha : ∀ c t, (fin c t).1.mem = t.mem ∧ (fin c t).1.hostMem = t.hostMem) : BodyKeeps (flashPage k j fin) := by
  intro c d t
  unfold flashPage
  split
  · exact flashResume_keeps fin ha _ _ _
  · split
    · exact trivial
    · split
      · exact ha _ _
      · simp
theorem flashPage_mems (k : Cmd → State → Check) (j : Cmd → State → Option FlashJob) (fin : Cmd → State → State × Bytes)
    (ha : ∀ c t, t.Mems → (fin c t).1.Mems) : BodyMems (flashPage k j fin) := by
  intro c d t ht
  unfold flashPage
  split
  · exact flashResume_mems fin ha _ _ _ ht
  · split
    · exact trivial
    · split
      · exact ha _ _ ht
      · simpa using ht
@[simp] theorem State.addSystem_keeps (s : State) (e : Nat × Nat × Nat × Nat × Nat × Nat) :
    (State.addSystem s e).mem = s.mem ∧ (State.addSystem s e).hostMem = s.hostMem := by
  unfold State.addSystem
  cases h : State.freeEntry s e.1 (guardEntries e.1 - 32) 0 <;> simp only [State.setGuardEntry_keeps, and_self]
@[simp] theorem State.addSystem_mems (s : State) (e : Nat × Nat × Nat × Nat × Nat × Nat) : (State.addSystem s e).Mems ↔ s.Mems := by
  unfold State.Mems; rw [(State.addSystem_keeps s e).1, (State.addSystem_keeps s e).2]
@[simp] theorem State.installSystem_keeps (s : State) :
    (State.installSystem s).mem = s.mem ∧ (State.installSystem s).hostMem = s.hostMem := by
  simp [State.installSystem]
@[simp] theorem State.installSystem_mems (s : State) : (State.installSystem s).Mems ↔ s.Mems := by
  unfold State.Mems; rw [(State.installSystem_keeps s).1, (State.installSystem_keeps s).2]
theorem State.ethWindow_keeps (s t : State) (b : Bytes) (h : s.ethWindow b = some t) :
    t.mem = s.mem ∧ t.hostMem = s.hostMem := by
  unfold State.ethWindow at h
  dsimp only at h
  generalize (if u8 b 0 = 1 then u16 b 0x34 * 1048576 else 0) = n at h
  split at h
  · simp only [Option.some.injEq] at h; subst h; simp
  · rw [Option.map_eq_some_iff] at h
    obtain ⟨⟨u, a⟩, hu, rfl⟩ := h
    have := State.allocDram_keeps _ _ _ _ _ _ _ hu
    simp [this]
theorem State.ethWindow_mems (s : State) (b : Bytes) (h : s.Mems) : ((s.ethWindow b).getD s).Mems := by
  cases e : s.ethWindow b with
  | none => exact h
  | some t =>
    have := State.ethWindow_keeps _ _ _ e
    exact ⟨by simpa [this.1] using h.1, by simpa [this.2] using h.2⟩
theorem State.ethWindow_getD_keeps (s : State) (b : Bytes) :
    ((s.ethWindow b).getD s).mem = s.mem ∧ ((s.ethWindow b).getD s).hostMem = s.hostMem := by
  cases e : s.ethWindow b with
  | none => exact ⟨rfl, rfl⟩
  | some t => exact State.ethWindow_keeps _ _ _ e
@[simp] theorem State.scanLog_keeps (s : State) :
    (State.scanLog s).mem = s.mem ∧ (State.scanLog s).hostMem = s.hostMem := by
  simp [State.scanLog]
@[simp] theorem State.scanLog_mems (s : State) : (State.scanLog s).Mems ↔ s.Mems := by
  unfold State.Mems; rw [(State.scanLog_keeps s).1, (State.scanLog_keeps s).2]
@[simp] theorem State.reportOverride_keeps (s : State) :
    (State.reportOverride s).mem = s.mem ∧ (State.reportOverride s).hostMem = s.hostMem := by
  simp [State.reportOverride]
@[simp] theorem State.reportOverride_mems (s : State) : (State.reportOverride s).Mems ↔ s.Mems := by
  unfold State.Mems; rw [(State.reportOverride_keeps s).1, (State.reportOverride_keeps s).2]
@[simp] theorem State.setMode_keeps (s : State) :
    (State.setMode s).mem = s.mem ∧ (State.setMode s).hostMem = s.hostMem := by
  simp [State.setMode]
@[simp] theorem State.setMode_mems (s : State) : (State.setMode s).Mems ↔ s.Mems := by
  unfold State.Mems; rw [(State.setMode_keeps s).1, (State.setMode_keeps s).2]
@[simp] theorem State.lockSources_keeps (s : State) :
    (State.lockSources s).mem = s.mem ∧ (State.lockSources s).hostMem = s.hostMem := by
  simp [State.lockSources]
@[simp] theorem State.lockSources_mems (s : State) : (State.lockSources s).Mems ↔ s.Mems := by
  unfold State.Mems; rw [(State.lockSources_keeps s).1, (State.lockSources_keeps s).2]
@[simp] theorem State.restoreEth_keeps (s : State) :
    (State.restoreEth s).mem = s.mem ∧ (State.restoreEth s).hostMem = s.hostMem := by
  unfold State.restoreEth
  split
  · split
    · next u hu => have := State.ethWindow_keeps _ _ _ hu; simp [this]
    · simp
  · simp
@[simp] theorem State.restoreEth_mems (s : State) : (State.restoreEth s).Mems ↔ s.Mems := by
  unfold State.Mems; rw [(State.restoreEth_keeps s).1, (State.restoreEth_keeps s).2]
@[simp] theorem State.startBelrix_keeps (s : State) (running : Nat) (belrix : Sys2Proof.Word) (denzewen : Sys2Proof.Word) (pairs : List (Sys2Proof.Word × Sys2Proof.Word)) :
    (State.startBelrix s running belrix denzewen pairs).mem = s.mem ∧ (State.startBelrix s running belrix denzewen pairs).hostMem = s.hostMem := by
  simp [State.startBelrix]
@[simp] theorem State.startBelrix_mems (s : State) (running : Nat) (belrix : Sys2Proof.Word) (denzewen : Sys2Proof.Word) (pairs : List (Sys2Proof.Word × Sys2Proof.Word)) : (State.startBelrix s running belrix denzewen pairs).Mems ↔ s.Mems := by
  unfold State.Mems; rw [(State.startBelrix_keeps s running belrix denzewen pairs).1, (State.startBelrix_keeps s running belrix denzewen pairs).2]
@[simp] theorem State.romRecovery_keeps (s : State) :
    (State.romRecovery s).mem = s.mem ∧ (State.romRecovery s).hostMem = s.hostMem := by
  simp [State.romRecovery]
@[simp] theorem State.romRecovery_mems (s : State) : (State.romRecovery s).Mems ↔ s.Mems := by
  unfold State.Mems; rw [(State.romRecovery_keeps s).1, (State.romRecovery_keeps s).2]
@[simp] theorem State.reportFallback_keeps (s : State) (k : Nat) :
    (State.reportFallback s k).mem = s.mem ∧ (State.reportFallback s k).hostMem = s.hostMem := by
  simp [State.reportFallback]
@[simp] theorem State.reportFallback_mems (s : State) (k : Nat) : (State.reportFallback s k).Mems ↔ s.Mems := by
  unfold State.Mems; rw [(State.reportFallback_keeps s k).1, (State.reportFallback_keeps s k).2]
@[simp] theorem State.trySlots_keeps (s : State) (x1 : List Nat) :
    (State.trySlots s x1).mem = s.mem ∧ (State.trySlots s x1).hostMem = s.hostMem := by
  fun_induction State.trySlots s x1 <;> simp_all +zetaDelta
@[simp] theorem State.trySlots_mems (s : State) (x1 : List Nat) : (State.trySlots s x1).Mems ↔ s.Mems := by
  unfold State.Mems; rw [(State.trySlots_keeps s x1).1, (State.trySlots_keeps s x1).2]
@[simp] theorem State.boot_keeps (s : State) :
    (State.boot s).mem = s.mem ∧ (State.boot s).hostMem = s.hostMem := by
  unfold State.boot
  dsimp only
  split
  · simp
  · split <;> simp
@[simp] theorem State.boot_mems (s : State) : (State.boot s).Mems ↔ s.Mems := by
  unfold State.Mems; rw [(State.boot_keeps s).1, (State.boot_keeps s).2]
@[simp] theorem State.cold_mems (s : State) (h : s.Mems) : (State.cold s).Mems := by
  exact ⟨rfl, h.2⟩
@[simp] theorem execPorstNAssert_mems (s : State) (h : s.Mems) : ResMems (execPorstNAssert s) := by
  simp [execPorstNAssert, h, h.1, h.2]
@[simp] theorem execVoltageDetectorReset_mems (aonMv : Nat) (coreMv : Nat) (s : State) (h : s.Mems) : ResMems (execVoltageDetectorReset aonMv coreMv s) := by
  unfold execVoltageDetectorReset; split <;> simp [h, h.1, h.2]
@[simp] theorem execPorstNRelease_keeps (straps : Nat) (trained : Bool) (s : State) : ResKeeps s (execPorstNRelease straps trained s) := by
  simp [execPorstNRelease]
@[simp] theorem execPorstNRelease_mems (straps : Nat) (trained : Bool) (s : State) (h : s.Mems) : ResMems (execPorstNRelease straps trained s) := (execPorstNRelease_keeps straps trained s).mems h
@[simp] theorem State.warm_keeps (s : State) :
    (State.warm s).mem = s.mem ∧ (State.warm s).hostMem = s.hostMem := by
  simp [State.warm]
@[simp] theorem State.warm_mems (s : State) : (State.warm s).Mems ↔ s.Mems := by
  unfold State.Mems; rw [(State.warm_keeps s).1, (State.warm_keeps s).2]
@[simp] theorem State.warmReset_keeps (s : State) :
    (State.warmReset s).mem = s.mem ∧ (State.warmReset s).hostMem = s.hostMem := by
  simp [State.warmReset]
@[simp] theorem State.warmReset_mems (s : State) : (State.warmReset s).Mems ↔ s.Mems := by
  unfold State.Mems; rw [(State.warmReset_keeps s).1, (State.warmReset_keeps s).2]
@[simp] theorem execWrstNAssert_keeps (samples : Nat) (straps : Nat) (s : State) : ResKeeps s (execWrstNAssert samples straps s) := by
  simp [execWrstNAssert]
@[simp] theorem execWrstNAssert_mems (samples : Nat) (straps : Nat) (s : State) (h : s.Mems) : ResMems (execWrstNAssert samples straps s) := (execWrstNAssert_keeps samples straps s).mems h
@[simp] theorem execResetDelayExpiry_keeps (s : State) : ResKeeps s (execResetDelayExpiry s) := by
  unfold execResetDelayExpiry; split <;> simp
@[simp] theorem execResetDelayExpiry_mems (s : State) (h : s.Mems) : ResMems (execResetDelayExpiry s) := (execResetDelayExpiry_keeps s).mems h
@[simp] theorem State.armPower_keeps (s : State) (b : Bytes) :
    (State.armPower s b).mem = s.mem ∧ (State.armPower s b).hostMem = s.hostMem := by
  simp [State.armPower]
@[simp] theorem State.armPower_mems (s : State) (b : Bytes) : (State.armPower s b).Mems ↔ s.Mems := by
  unfold State.Mems; rw [(State.armPower_keeps s b).1, (State.armPower_keeps s b).2]
@[simp] theorem State.afterPost_keeps (s : State) (c : Cmd) (r : Resp) :
    (State.afterPost s c r).mem = s.mem ∧ (State.afterPost s c r).hostMem = s.hostMem := by
  unfold State.afterPost; (repeat' split) <;> simp
@[simp] theorem State.afterPost_mems (s : State) (c : Cmd) (r : Resp) : (State.afterPost s c r).Mems ↔ s.Mems := by
  unfold State.Mems; rw [(State.afterPost_keeps s c r).1, (State.afterPost_keeps s c r).2]
@[simp] theorem workResponsePost_keeps (p : Nat) (s : State) : ResKeeps s (workResponsePost p s) := by
  unfold workResponsePost; (repeat' split) <;> simp
@[simp] theorem workResponsePost_mems (p : Nat) (s : State) (h : s.Mems) : ResMems (workResponsePost p s) := (workResponsePost_keeps p s).mems h
@[simp] theorem execEthSetHost_keeps (p : Nat) (s : State) : ResKeeps s (execEthSetHost p s) := by
  unfold execEthSetHost; refine (resKeeps_next _ _).mpr (runPage_keeps _ _ _ _ (flashPage_keeps _ _ _ ?_))
  intro c t
  refine ⟨(State.ethWindow_getD_keeps _ _).1.trans ?_, (State.ethWindow_getD_keeps _ _).2.trans ?_⟩ <;> split <;> simp
@[simp] theorem execEthSetHost_mems (p : Nat) (s : State) (h : s.Mems) : ResMems (execEthSetHost p s) := (execEthSetHost_keeps p s).mems h
@[simp] theorem execMemSetEcc_keeps (p : Nat) (s : State) : ResKeeps s (execMemSetEcc p s) := by
  unfold execMemSetEcc; refine (resKeeps_next _ _).mpr (runPage_keeps _ _ _ _ ?_); refine flashPage_keeps _ _ _ ?_; intro c t; simp
@[simp] theorem execMemSetEcc_mems (p : Nat) (s : State) (h : s.Mems) : ResMems (execMemSetEcc p s) := (execMemSetEcc_keeps p s).mems h
@[simp] theorem execFwGetSlots_keeps (p : Nat) (s : State) : ResKeeps s (execFwGetSlots p s) := by
  unfold execFwGetSlots; refine (resKeeps_next _ _).mpr (runPage_keeps _ _ _ _ ?_); refine plainPage_keeps _ _ ?_; intro c t; simp
@[simp] theorem execFwGetSlots_mems (p : Nat) (s : State) (h : s.Mems) : ResMems (execFwGetSlots p s) := (execFwGetSlots_keeps p s).mems h
@[simp] theorem execFwBegin_keeps (p : Nat) (s : State) : ResKeeps s (execFwBegin p s) := by
  unfold execFwBegin; refine (resKeeps_next _ _).mpr (runPage_keeps _ _ _ _ ?_); refine flashPage_keeps _ _ _ ?_; intro c t; simp
@[simp] theorem execFwBegin_mems (p : Nat) (s : State) (h : s.Mems) : ResMems (execFwBegin p s) := (execFwBegin_keeps p s).mems h
@[simp] theorem execFwWrite_keeps (p : Nat) (s : State) : ResKeeps s (execFwWrite p s) := by
  unfold execFwWrite; refine (resKeeps_next _ _).mpr (runPage_keeps _ _ _ _ ?_)
  intro c d t
  unfold fwWriteBody
  dsimp only
  (repeat' split) <;> first
    | exact trivial
    | (simp; done)
    | exact flashResume_keeps _ (fun c t => ⟨rfl, rfl⟩) _ _ _
@[simp] theorem execFwWrite_mems (p : Nat) (s : State) (h : s.Mems) : ResMems (execFwWrite p s) := (execFwWrite_keeps p s).mems h
@[simp] theorem execFwFinish_keeps (p : Nat) (s : State) : ResKeeps s (execFwFinish p s) := by
  unfold execFwFinish; refine (resKeeps_next _ _).mpr (runPage_keeps _ _ _ _ ?_); refine flashPage_keeps _ _ _ ?_; intro c t; simp
@[simp] theorem execFwFinish_mems (p : Nat) (s : State) (h : s.Mems) : ResMems (execFwFinish p s) := (execFwFinish_keeps p s).mems h
@[simp] theorem execFwHostLoad_keeps (p : Nat) (s : State) : ResKeeps s (execFwHostLoad p s) := by
  unfold execFwHostLoad; refine (resKeeps_next _ _).mpr (runPage_keeps _ _ _ _ ?_); intro c d t; unfold hostLoadBody; dsimp only; (repeat' split) <;> simp
@[simp] theorem execFwHostLoad_mems (p : Nat) (s : State) (h : s.Mems) : ResMems (execFwHostLoad p s) := (execFwHostLoad_keeps p s).mems h
@[simp] theorem State.advanceRollback_keeps (s : State) (c : Cmd) :
    (State.advanceRollback s c).mem = s.mem ∧ (State.advanceRollback s c).hostMem = s.hostMem := by
  simp [State.advanceRollback]
@[simp] theorem State.advanceRollback_mems (s : State) (c : Cmd) : (State.advanceRollback s c).Mems ↔ s.Mems := by
  unfold State.Mems; rw [(State.advanceRollback_keeps s c).1, (State.advanceRollback_keeps s c).2]
@[simp] theorem execFwCommit_keeps (p : Nat) (s : State) : ResKeeps s (execFwCommit p s) := by
  unfold execFwCommit; refine (resKeeps_next _ _).mpr (runPage_keeps _ _ _ _ ?_); refine flashPage_keeps _ _ _ ?_; intro c t; simp
@[simp] theorem execFwCommit_mems (p : Nat) (s : State) (h : s.Mems) : ResMems (execFwCommit p s) := (execFwCommit_keeps p s).mems h
@[simp] theorem execCompatOverride_keeps (p : Nat) (s : State) : ResKeeps s (execCompatOverride p s) := by
  unfold execCompatOverride; refine (resKeeps_next _ _).mpr (runPage_keeps _ _ _ _ ?_); refine flashPage_keeps _ _ _ ?_; intro c t; simp
@[simp] theorem execCompatOverride_mems (p : Nat) (s : State) (h : s.Mems) : ResMems (execCompatOverride p s) := (execCompatOverride_keeps p s).mems h


end Sys2Proof.Machine
end

