-- ==== Sys2Proof/Laws/MemFaults.lean ====
section
/-! SUPPORT. What the operations and meanings of Machine/Faults.lean do to the two memories: `_keeps` says that both stay as
they were, `_mems` that their canonical form is kept. -/

namespace Sys2Proof.Machine

@[simp] theorem State.modFaults_keeps (s : State) (f : FaultUnit → FaultUnit) :
    (State.modFaults s f).mem = s.mem ∧ (State.modFaults s f).hostMem = s.hostMem := by
  simp [State.modFaults]
@[simp] theorem State.modFaults_mems (s : State) (f : FaultUnit → FaultUnit) : (State.modFaults s f).Mems ↔ s.Mems := by
  unfold State.Mems; rw [(State.modFaults_keeps s f).1, (State.modFaults_keeps s f).2]
@[simp] theorem execFaultMergeRelease_keeps (cls : Nat) (unit : Nat) (s : State) : ResKeeps s (execFaultMergeRelease cls unit s) := by
  unfold execFaultMergeRelease; split <;> simp
@[simp] theorem execFaultMergeRelease_mems (cls : Nat) (unit : Nat) (s : State) (h : s.Mems) : ResMems (execFaultMergeRelease cls unit s) := (execFaultMergeRelease_keeps cls unit s).mems h
@[simp] theorem State.tellDrops_keeps (s : State) :
    (State.tellDrops s).mem = s.mem ∧ (State.tellDrops s).hostMem = s.hostMem := by
  simp [State.tellDrops]
@[simp] theorem State.tellDrops_mems (s : State) : (State.tellDrops s).Mems ↔ s.Mems := by
  unfold State.Mems; rw [(State.tellDrops_keeps s).1, (State.tellDrops_keeps s).2]
@[simp] theorem execLogAppendProgram_keeps (ok : Bool) (s : State) : ResKeeps s (execLogAppendProgram ok s) := by
  unfold execLogAppendProgram; split <;> simp
@[simp] theorem execLogAppendProgram_mems (ok : Bool) (s : State) (h : s.Mems) : ResMems (execLogAppendProgram ok s) := (execLogAppendProgram_keeps ok s).mems h
@[simp] theorem execFaultGetStatus_keeps (p : Nat) (s : State) : ResKeeps s (execFaultGetStatus p s) := by
  unfold execFaultGetStatus; refine (resKeeps_next _ _).mpr (runPage_keeps _ _ _ _ ?_); refine plainPage_keeps _ _ ?_; intro c t; simp
@[simp] theorem execFaultGetStatus_mems (p : Nat) (s : State) (h : s.Mems) : ResMems (execFaultGetStatus p s) := (execFaultGetStatus_keeps p s).mems h
@[simp] theorem execFaultReadLog_mems (p : Nat) (s : State) (h : s.Mems) : ResMems (execFaultReadLog p s) := by
  unfold execFaultReadLog; refine (resMems_next _).mpr (runPage_mems _ _ _ _ ?_ h)
  intro c d t ht
  unfold faultReadLogBody
  dsimp only
  have h2 : (if t.validLog.isEmpty = true then t.tookFree else t).Mems := by split <;> simpa using ht
  split
  · exact trivial
  · split
    · exact h2
    · split
      · next u hu => exact State.dmaWrite_mems _ _ _ _ _ hu h2
      · simpa using ht
@[simp] theorem execFaultEraseLog_keeps (p : Nat) (s : State) : ResKeeps s (execFaultEraseLog p s) := by
  unfold execFaultEraseLog; refine (resKeeps_next _ _).mpr (runPage_keeps _ _ _ _ ?_); refine flashPage_keeps _ _ _ ?_; intro c t; simp
@[simp] theorem execFaultEraseLog_mems (p : Nat) (s : State) (h : s.Mems) : ResMems (execFaultEraseLog p s) := (execFaultEraseLog_keeps p s).mems h
@[simp] theorem State.loseMem_mems (s : State) (a : Nat) (n : Nat) (h : s.Mems) : (State.loseMem s a n).Mems := by
  exact ⟨wf_zeroRange _ _ _ h.1, h.2⟩
@[simp] theorem State.zeroTested_mems (s : State) (c : Cmd) (h : s.Mems) : (State.zeroTested s c).Mems := by
  unfold State.zeroTested; split <;> simp [h, h.1, h.2]
@[simp] theorem State.pauseSable_keeps (s : State) (c : Cmd) :
    (State.pauseSable s c).mem = s.mem ∧ (State.pauseSable s c).hostMem = s.hostMem := by
  simp [State.pauseSable]
@[simp] theorem State.pauseSable_mems (s : State) (c : Cmd) : (State.pauseSable s c).Mems ↔ s.Mems := by
  unfold State.Mems; rw [(State.pauseSable_keeps s c).1, (State.pauseSable_keeps s c).2]
@[simp] theorem State.selftest_mems (s : State) (c : Cmd) (h : s.Mems) : (State.selftest s c).1.Mems := by
  unfold State.selftest
  dsimp only
  split <;> simp [h]
@[simp] theorem execDiagSelftest_mems (p : Nat) (s : State) (h : s.Mems) : ResMems (execDiagSelftest p s) := by
  unfold execDiagSelftest; refine (resMems_next _).mpr (runPage_mems _ _ _ _ ?_ h); refine plainPage_mems _ _ ?_; intro c t ht; first | (simp [ht, ht.1, ht.2]; done) | (dsimp only; (repeat' split) <;> simp [ht, ht.1, ht.2]; done) | ((repeat' split) <;> simp [ht, ht.1, ht.2]; done)
@[simp] theorem execDebugChallenge_keeps (p : Nat) (s : State) : ResKeeps s (execDebugChallenge p s) := by
  unfold execDebugChallenge; refine (resKeeps_next _ _).mpr (runPage_keeps _ _ _ _ ?_); refine plainPage_keeps _ _ ?_; intro c t; simp
@[simp] theorem execDebugChallenge_mems (p : Nat) (s : State) (h : s.Mems) : ResMems (execDebugChallenge p s) := (execDebugChallenge_keeps p s).mems h
@[simp] theorem execDebugUnlock_keeps (p : Nat) (s : State) : ResKeeps s (execDebugUnlock p s) := by
  unfold execDebugUnlock; refine (resKeeps_next _ _).mpr (runPage_keeps _ _ _ _ ?_); intro c d t; unfold debugUnlockBody; dsimp only; (repeat' split) <;> simp
@[simp] theorem execDebugUnlock_mems (p : Nat) (s : State) (h : s.Mems) : ResMems (execDebugUnlock p s) := (execDebugUnlock_keeps p s).mems h
@[simp] theorem execDebugLock_keeps (p : Nat) (s : State) : ResKeeps s (execDebugLock p s) := by
  unfold execDebugLock; refine (resKeeps_next _ _).mpr (runPage_keeps _ _ _ _ ?_); refine plainPage_keeps _ _ ?_; intro c t; simp
@[simp] theorem execDebugLock_mems (p : Nat) (s : State) (h : s.Mems) : ResMems (execDebugLock p s) := (execDebugLock_keeps p s).mems h


end Sys2Proof.Machine
end

