-- ==== Sys2Proof/Laws/MemSable.lean ====
section
/-! SUPPORT. What the operations and meanings of Machine/Sable.lean do to the two memories: `_keeps` says that both stay as
they were, `_mems` that their canonical form is kept. -/

namespace Sys2Proof.Machine

@[simp] theorem State.modSable_keeps (s : State) (f : Sable → Sable) :
    (State.modSable s f).mem = s.mem ∧ (State.modSable s f).hostMem = s.hostMem := by
  simp [State.modSable]
@[simp] theorem State.modSable_mems (s : State) (f : Sable → Sable) : (State.modSable s f).Mems ↔ s.Mems := by
  unfold State.Mems; rw [(State.modSable_keeps s f).1, (State.modSable_keeps s f).2]
@[simp] theorem State.setStr_keeps (s : State) (n : Nat) (x : BatString) :
    (State.setStr s n x).mem = s.mem ∧ (State.setStr s n x).hostMem = s.hostMem := by
  simp [State.setStr]
@[simp] theorem State.setStr_mems (s : State) (n : Nat) (x : BatString) : (State.setStr s n x).Mems ↔ s.Mems := by
  unfold State.Mems; rw [(State.setStr_keeps s n x).1, (State.setStr_keeps s n x).2]
@[simp] theorem State.levelSources_keeps (s : State) (n : Nat) (old : Nat) (new : Nat) :
    (State.levelSources s n old new).mem = s.mem ∧ (State.levelSources s n old new).hostMem = s.hostMem := by
  simp [State.levelSources]
@[simp] theorem State.levelSources_mems (s : State) (n : Nat) (old : Nat) (new : Nat) : (State.levelSources s n old new).Mems ↔ s.Mems := by
  unfold State.Mems; rw [(State.levelSources_keeps s n old new).1, (State.levelSources_keeps s n old new).2]
@[simp] theorem State.showString_keeps (s : State) (n : Nat) :
    (State.showString s n).mem = s.mem ∧ (State.showString s n).hostMem = s.hostMem := by
  simp [State.showString]
@[simp] theorem State.showString_mems (s : State) (n : Nat) : (State.showString s n).Mems ↔ s.Mems := by
  unfold State.Mems; rw [(State.showString_keeps s n).1, (State.showString_keeps s n).2]
@[simp] theorem State.showRaw_keeps (s : State) (n : Nat) (k : Sys2Proof.BatCode) :
    (State.showRaw s n k).mem = s.mem ∧ (State.showRaw s n k).hostMem = s.hostMem := by
  simp [State.showRaw]
@[simp] theorem State.showRaw_mems (s : State) (n : Nat) (k : Sys2Proof.BatCode) : (State.showRaw s n k).Mems ↔ s.Mems := by
  unfold State.Mems; rw [(State.showRaw_keeps s n k).1, (State.showRaw_keeps s n k).2]
@[simp] theorem State.sampleString_keeps (s : State) (n : Nat) (k : Sys2Proof.BatCode) :
    (State.sampleString s n k).1.mem = s.mem ∧ (State.sampleString s n k).1.hostMem = s.hostMem := by
  simp [State.sampleString]
@[simp] theorem State.sampleString_mems (s : State) (n : Nat) (k : Sys2Proof.BatCode) : (State.sampleString s n k).1.Mems ↔ s.Mems := by
  unfold State.Mems; rw [(State.sampleString_keeps s n k).1, (State.sampleString_keeps s n k).2]
@[simp] theorem State.countSupply_keeps (s : State) :
    (State.countSupply s).1.mem = s.mem ∧ (State.countSupply s).1.hostMem = s.hostMem := by
  unfold State.countSupply; constructor <;> ((try dsimp only); repeat' split) <;> simp
@[simp] theorem State.countSupply_mems (s : State) : (State.countSupply s).1.Mems ↔ s.Mems := by
  unfold State.Mems; rw [(State.countSupply_keeps s).1, (State.countSupply_keeps s).2]
@[simp] theorem State.reportBattery_keeps (s : State) (reasons : Nat) :
    (State.reportBattery s reasons).mem = s.mem ∧ (State.reportBattery s reasons).hostMem = s.hostMem := by
  simp [State.reportBattery]
@[simp] theorem State.reportBattery_mems (s : State) (reasons : Nat) : (State.reportBattery s reasons).Mems ↔ s.Mems := by
  unfold State.Mems; rw [(State.reportBattery_keeps s reasons).1, (State.reportBattery_keeps s reasons).2]
@[simp] theorem State.wakeBattery_keeps (s : State) :
    (State.wakeBattery s).mem = s.mem ∧ (State.wakeBattery s).hostMem = s.hostMem := by
  simp [State.wakeBattery]
@[simp] theorem State.wakeBattery_mems (s : State) : (State.wakeBattery s).Mems ↔ s.Mems := by
  unfold State.Mems; rw [(State.wakeBattery_keeps s).1, (State.wakeBattery_keeps s).2]
@[simp] theorem State.restartString_keeps (s : State) (n : Nat) :
    (State.restartString s n).mem = s.mem ∧ (State.restartString s n).hostMem = s.hostMem := by
  simp [State.restartString]
@[simp] theorem State.restartString_mems (s : State) (n : Nat) : (State.restartString s n).Mems ↔ s.Mems := by
  unfold State.Mems; rw [(State.restartString_keeps s n).1, (State.restartString_keeps s n).2]
@[simp] theorem State.writeSblCtrl_keeps (s : State) (v : Sys2Proof.Word) :
    (State.writeSblCtrl s v).mem = s.mem ∧ (State.writeSblCtrl s v).hostMem = s.hostMem := by
  simp [State.writeSblCtrl]
@[simp] theorem State.writeSblCtrl_mems (s : State) (v : Sys2Proof.Word) : (State.writeSblCtrl s v).Mems ↔ s.Mems := by
  unfold State.Mems; rw [(State.writeSblCtrl_keeps s v).1, (State.writeSblCtrl_keeps s v).2]
@[simp] theorem State.applyString_keeps (s : State) (n : Nat) (b : Bytes) :
    (State.applyString s n b).mem = s.mem ∧ (State.applyString s n b).hostMem = s.hostMem := by
  simp [State.applyString]
@[simp] theorem State.applyString_mems (s : State) (n : Nat) (b : Bytes) : (State.applyString s n b).Mems ↔ s.Mems := by
  unfold State.Mems; rw [(State.applyString_keeps s n b).1, (State.applyString_keeps s n b).2]
@[simp] theorem State.applyTables_keeps (s : State) (n : Nat) (d : Bytes) :
    (State.applyTables s n d).mem = s.mem ∧ (State.applyTables s n d).hostMem = s.hostMem := by
  simp [State.applyTables]
@[simp] theorem State.applyTables_mems (s : State) (n : Nat) (d : Bytes) : (State.applyTables s n d).Mems ↔ s.Mems := by
  unfold State.Mems; rw [(State.applyTables_keeps s n d).1, (State.applyTables_keeps s n d).2]
@[simp] theorem State.applyLevels_keeps (s : State) (n : Nat) (b : Bytes) :
    (State.applyLevels s n b).mem = s.mem ∧ (State.applyLevels s n b).hostMem = s.hostMem := by
  simp [State.applyLevels]
@[simp] theorem State.applyLevels_mems (s : State) (n : Nat) (b : Bytes) : (State.applyLevels s n b).Mems ↔ s.Mems := by
  unfold State.Mems; rw [(State.applyLevels_keeps s n b).1, (State.applyLevels_keeps s n b).2]
@[simp] theorem State.applySoc_keeps (s : State) (n : Nat) (b : Bytes) :
    (State.applySoc s n b).mem = s.mem ∧ (State.applySoc s n b).hostMem = s.hostMem := by
  simp [State.applySoc]
@[simp] theorem State.applySoc_mems (s : State) (n : Nat) (b : Bytes) : (State.applySoc s n b).Mems ↔ s.Mems := by
  unfold State.Mems; rw [(State.applySoc_keeps s n b).1, (State.applySoc_keeps s n b).2]
@[simp] theorem State.applyNext_keeps (s : State) (n : Nat) :
    (State.applyNext s n).mem = s.mem ∧ (State.applyNext s n).hostMem = s.hostMem := by
  unfold State.applyNext; constructor <;> ((try dsimp only); repeat' split) <;> simp
@[simp] theorem State.applyNext_mems (s : State) (n : Nat) : (State.applyNext s n).Mems ↔ s.Mems := by
  unfold State.Mems; rw [(State.applyNext_keeps s n).1, (State.applyNext_keeps s n).2]
@[simp] theorem State.applyReport_keeps (s : State) :
    (State.applyReport s).mem = s.mem ∧ (State.applyReport s).hostMem = s.hostMem := by
  unfold State.applyReport; split <;> simp
@[simp] theorem State.applyReport_mems (s : State) : (State.applyReport s).Mems ↔ s.Mems := by
  unfold State.Mems; rw [(State.applyReport_keeps s).1, (State.applyReport_keeps s).2]
@[simp] theorem State.sampleDue_keeps (s : State) (codes : List Sys2Proof.BatCode) :
    (State.sampleDue s codes).1.mem = s.mem ∧ (State.sampleDue s codes).1.hostMem = s.hostMem := by
  unfold State.sampleDue
  constructor
  · exact (foldlP_mem _ (by intro t a; simp) _ _).trans (by simp)
  · exact (foldlP_hostMem _ (by intro t a; simp) _ _).trans (by simp)
@[simp] theorem State.sampleDue_mems (s : State) (codes : List Sys2Proof.BatCode) : (State.sampleDue s codes).1.Mems ↔ s.Mems := by
  unfold State.Mems; rw [(State.sampleDue_keeps s codes).1, (State.sampleDue_keeps s codes).2]
@[simp] theorem State.countSupplyIf_keeps (s : State) (c : Bool) :
    (State.countSupplyIf s c).1.mem = s.mem ∧ (State.countSupplyIf s c).1.hostMem = s.hostMem := by
  unfold State.countSupplyIf; split <;> simp
@[simp] theorem State.countSupplyIf_mems (s : State) (c : Bool) : (State.countSupplyIf s c).1.Mems ↔ s.Mems := by
  unfold State.Mems; rw [(State.countSupplyIf_keeps s c).1, (State.countSupplyIf_keeps s c).2]
@[simp] theorem State.applyWaiting_keeps (s : State) :
    (State.applyWaiting s).mem = s.mem ∧ (State.applyWaiting s).hostMem = s.hostMem := by
  simp [State.applyWaiting]
@[simp] theorem State.applyWaiting_mems (s : State) : (State.applyWaiting s).Mems ↔ s.Mems := by
  unfold State.Mems; rw [(State.applyWaiting_keeps s).1, (State.applyWaiting_keeps s).2]
@[simp] theorem State.batterySample_keeps (s : State) (codes : List Sys2Proof.BatCode) :
    (State.batterySample s codes).mem = s.mem ∧ (State.batterySample s codes).hostMem = s.hostMem := by
  simp [State.batterySample]
@[simp] theorem State.batterySample_mems (s : State) (codes : List Sys2Proof.BatCode) : (State.batterySample s codes).Mems ↔ s.Mems := by
  unfold State.Mems; rw [(State.batterySample_keeps s codes).1, (State.batterySample_keeps s codes).2]
@[simp] theorem execBatterySample_keeps (codes : List Sys2Proof.BatCode) (s : State) : ResKeeps s (execBatterySample codes s) := by
  simp [execBatterySample]
@[simp] theorem execBatterySample_mems (codes : List Sys2Proof.BatCode) (s : State) (h : s.Mems) : ResMems (execBatterySample codes s) := (execBatterySample_keeps codes s).mems h
@[simp] theorem execBatteryReportPeriod_keeps (s : State) : ResKeeps s (execBatteryReportPeriod s) := by
  simp [execBatteryReportPeriod]
@[simp] theorem execBatteryReportPeriod_mems (s : State) (h : s.Mems) : ResMems (execBatteryReportPeriod s) := (execBatteryReportPeriod_keeps s).mems h
@[simp] theorem execBatSetString_keeps (p : Nat) (s : State) : ResKeeps s (execBatSetString p s) := by
  unfold execBatSetString; refine (resKeeps_next _ _).mpr (runPage_keeps _ _ _ _ ?_); refine plainPage_keeps _ _ ?_; intro c t; simp
@[simp] theorem execBatSetString_mems (p : Nat) (s : State) (h : s.Mems) : ResMems (execBatSetString p s) := (execBatSetString_keeps p s).mems h
@[simp] theorem execBatLoadTables_keeps (p : Nat) (s : State) : ResKeeps s (execBatLoadTables p s) := by
  unfold execBatLoadTables; refine (resKeeps_next _ _).mpr (runPage_keeps _ _ _ _ ?_); intro c d t; unfold batTablesBody; dsimp only; (repeat' split) <;> simp
@[simp] theorem execBatLoadTables_mems (p : Nat) (s : State) (h : s.Mems) : ResMems (execBatLoadTables p s) := (execBatLoadTables_keeps p s).mems h
@[simp] theorem execBatSetLevels_keeps (p : Nat) (s : State) : ResKeeps s (execBatSetLevels p s) := by
  unfold execBatSetLevels; refine (resKeeps_next _ _).mpr (runPage_keeps _ _ _ _ ?_); refine plainPage_keeps _ _ ?_; intro c t; simp
@[simp] theorem execBatSetLevels_mems (p : Nat) (s : State) (h : s.Mems) : ResMems (execBatSetLevels p s) := (execBatSetLevels_keeps p s).mems h
@[simp] theorem execBatSetReport_keeps (p : Nat) (s : State) : ResKeeps s (execBatSetReport p s) := by
  unfold execBatSetReport; refine (resKeeps_next _ _).mpr (runPage_keeps _ _ _ _ ?_); refine plainPage_keeps _ _ ?_; intro c t; simp
@[simp] theorem execBatSetReport_mems (p : Nat) (s : State) (h : s.Mems) : ResMems (execBatSetReport p s) := (execBatSetReport_keeps p s).mems h
@[simp] theorem execBatSetSoc_keeps (p : Nat) (s : State) : ResKeeps s (execBatSetSoc p s) := by
  unfold execBatSetSoc; refine (resKeeps_next _ _).mpr (runPage_keeps _ _ _ _ ?_); refine plainPage_keeps _ _ ?_; intro c t; simp
@[simp] theorem execBatSetSoc_mems (p : Nat) (s : State) (h : s.Mems) : ResMems (execBatSetSoc p s) := (execBatSetSoc_keeps p s).mems h
@[simp] theorem execBatGetStatus_keeps (p : Nat) (s : State) : ResKeeps s (execBatGetStatus p s) := by
  unfold execBatGetStatus; refine (resKeeps_next _ _).mpr (runPage_keeps _ _ _ _ ?_); refine plainPage_keeps _ _ ?_; intro c t; simp
@[simp] theorem execBatGetStatus_mems (p : Nat) (s : State) (h : s.Mems) : ResMems (execBatGetStatus p s) := (execBatGetStatus_keeps p s).mems h


end Sys2Proof.Machine
end

