-- ==== Sys2Proof/Laws/MemIvory.lean ====
section
/-! SUPPORT. What the operations and meanings of Machine/Ivory.lean do to the two memories: `_keeps` says that both stay as
they were, `_mems` that their canonical form is kept. -/

namespace Sys2Proof.Machine

theorem dite_mems (c : Prop) [Decidable c] (s t : State) (h1 : s.Mems) (h2 : t.Mems) : (if c then s else t).Mems := by
  split <;> assumption
@[simp] theorem State.modIvory_keeps (s : State) (f : Ivory → Ivory) :
    (State.modIvory s f).mem = s.mem ∧ (State.modIvory s f).hostMem = s.hostMem := by
  simp [State.modIvory]
@[simp] theorem State.modIvory_mems (s : State) (f : Ivory → Ivory) : (State.modIvory s f).Mems ↔ s.Mems := by
  unfold State.Mems; rw [(State.modIvory_keeps s f).1, (State.modIvory_keeps s f).2]
@[simp] theorem State.portDown_keeps (s : State) (p : Nat) :
    (State.portDown s p).mem = s.mem ∧ (State.portDown s p).hostMem = s.hostMem := by
  simp [State.portDown]
@[simp] theorem State.portDown_mems (s : State) (p : Nat) : (State.portDown s p).Mems ↔ s.Mems := by
  unfold State.Mems; rw [(State.portDown_keeps s p).1, (State.portDown_keeps s p).2]
@[simp] theorem State.hostethDown_keeps (s : State) :
    (State.hostethDown s).mem = s.mem ∧ (State.hostethDown s).hostMem = s.hostMem := by
  simp [State.hostethDown]
@[simp] theorem State.hostethDown_mems (s : State) : (State.hostethDown s).Mems ↔ s.Mems := by
  unfold State.Mems; rw [(State.hostethDown_keeps s).1, (State.hostethDown_keeps s).2]
@[simp] theorem State.blockDown_mems (s : State) (d : Nat) (h : s.Mems) : (State.blockDown s d).Mems := by
  unfold State.blockDown; ((try dsimp only); repeat' split) <;> simp [h, h.1, h.2]
@[simp] theorem State.applyArmedIn_mems (s : State) (d : Nat) (h : s.Mems) : (State.applyArmedIn s d).Mems := by
  unfold State.applyArmedIn
  exact foldl_mems _ (fun t e ht => State.applyNow_mems t e ht) _ _ h
@[simp] theorem State.powerOff_mems (s : State) (d : Nat) (h : s.Mems) : (State.powerOff s d).Mems := by
  simp [State.powerOff, h, h.1, h.2]
@[simp] theorem State.powerOn_keeps (s : State) (d : Nat) :
    (State.powerOn s d).mem = s.mem ∧ (State.powerOn s d).hostMem = s.hostMem := by
  simp [State.powerOn]
@[simp] theorem State.powerOn_mems (s : State) (d : Nat) : (State.powerOn s d).Mems ↔ s.Mems := by
  unfold State.Mems; rw [(State.powerOn_keeps s d).1, (State.powerOn_keeps s d).2]
@[simp] theorem State.entryRecord_keeps (s : State) (toState : Nat) (outcome : Nat) (cause : Nat) (wake : Option Nat) (before : BitVec 16) (t : Stamp) :
    (State.entryRecord s toState outcome cause wake before t).mem = s.mem ∧ (State.entryRecord s toState outcome cause wake before t).hostMem = s.hostMem := by
  simp [State.entryRecord]
@[simp] theorem State.entryRecord_mems (s : State) (toState : Nat) (outcome : Nat) (cause : Nat) (wake : Option Nat) (before : BitVec 16) (t : Stamp) : (State.entryRecord s toState outcome cause wake before t).Mems ↔ s.Mems := by
  unfold State.Mems; rw [(State.entryRecord_keeps s toState outcome cause wake before t).1, (State.entryRecord_keeps s toState outcome cause wake before t).2]
@[simp] theorem State.wakeDomains_keeps (s : State) :
    (State.wakeDomains s).mem = s.mem ∧ (State.wakeDomains s).hostMem = s.hostMem := by
  unfold State.wakeDomains
  exact ⟨foldl_mem _ (fun t d => by split <;> simp) _ _, foldl_hostMem _ (fun t d => by split <;> simp) _ _⟩
@[simp] theorem State.wakeDomains_mems (s : State) : (State.wakeDomains s).Mems ↔ s.Mems := by
  unfold State.Mems; rw [(State.wakeDomains_keeps s).1, (State.wakeDomains_keeps s).2]
@[simp] theorem State.failedResume_keeps (s : State) :
    (State.failedResume s).mem = s.mem ∧ (State.failedResume s).hostMem = s.hostMem := by
  simp [State.failedResume]
@[simp] theorem State.failedResume_mems (s : State) : (State.failedResume s).Mems ↔ s.Mems := by
  unfold State.Mems; rw [(State.failedResume_keeps s).1, (State.failedResume_keeps s).2]
@[simp] theorem State.wake_keeps (s : State) (src : Nat) (cause : Nat) :
    (State.wake s src cause).mem = s.mem ∧ (State.wake s src cause).hostMem = s.hostMem := by
  simp [State.wake]
@[simp] theorem State.wake_mems (s : State) (src : Nat) (cause : Nat) : (State.wake s src cause).Mems ↔ s.Mems := by
  unfold State.Mems; rw [(State.wake_keeps s src cause).1, (State.wake_keeps s src cause).2]
@[simp] theorem State.abortEntry_keeps (s : State) (x : Transition) (src : Nat) :
    (State.abortEntry s x src).mem = s.mem ∧ (State.abortEntry s x src).hostMem = s.hostMem := by
  simp [State.abortEntry]
@[simp] theorem State.abortEntry_mems (s : State) (x : Transition) (src : Nat) : (State.abortEntry s x src).Mems ↔ s.Mems := by
  unfold State.Mems; rw [(State.abortEntry_keeps s x src).1, (State.abortEntry_keeps s x src).2]
@[simp] theorem State.wakeEvent_keeps (s : State) (src : Nat) (cause : Nat) :
    (State.wakeEvent s src cause).mem = s.mem ∧ (State.wakeEvent s src cause).hostMem = s.hostMem := by
  unfold State.wakeEvent; (repeat' split) <;> simp
@[simp] theorem State.wakeEvent_mems (s : State) (src : Nat) (cause : Nat) : (State.wakeEvent s src cause).Mems ↔ s.Mems := by
  unfold State.Mems; rw [(State.wakeEvent_keeps s src cause).1, (State.wakeEvent_keeps s src cause).2]
@[simp] theorem State.dramAsleep_mems (s : State) (h : s.Mems) : (State.dramAsleep s).Mems := by
  unfold State.dramAsleep
  split
  · exact h
  · exact State.loseMem_mems _ _ _ h
@[simp] theorem State.hibernated_keeps (s : State) :
    (State.hibernated s).mem = s.mem ∧ (State.hibernated s).hostMem = s.hostMem := by
  simp [State.hibernated]
@[simp] theorem State.hibernated_mems (s : State) : (State.hibernated s).Mems ↔ s.Mems := by
  unfold State.Mems; rw [(State.hibernated_keeps s).1, (State.hibernated_keeps s).2]
@[simp] theorem State.finishEntry_mems (s : State) (x : Transition) (h : s.Mems) : (State.finishEntry s x).Mems := by
  unfold State.finishEntry; ((try dsimp only); repeat' split) <;> simp [h, h.1, h.2]
@[simp] theorem State.closeGate_keeps (s : State) (d : Nat) :
    (State.closeGate s d).mem = s.mem ∧ (State.closeGate s d).hostMem = s.hostMem := by
  simp [State.closeGate]
@[simp] theorem State.closeGate_mems (s : State) (d : Nat) : (State.closeGate s d).Mems ↔ s.Mems := by
  unfold State.Mems; rw [(State.closeGate_keeps s d).1, (State.closeGate_keeps s d).2]
@[simp] theorem State.enterState_mems (s : State) (k : Nat) (cause : Nat) (forced : Bool) (h : s.Mems) : (State.enterState s k cause forced).Mems := by
  unfold State.enterState; ((try dsimp only); repeat' split) <;> simp [h, h.1, h.2]
@[simp] theorem State.advanceEntry_mems (s : State) (x : Transition) (h : s.Mems) : (State.advanceEntry s x).Mems := by
  unfold State.advanceEntry; split <;> simp [h, h.1, h.2]
@[simp] theorem State.downRecord_keeps (s : State) (before : BitVec 16) (t : Stamp) (cause : Nat) :
    (State.downRecord s before t cause).mem = s.mem ∧ (State.downRecord s before t cause).hostMem = s.hostMem := by
  simp [State.downRecord]
@[simp] theorem State.downRecord_mems (s : State) (before : BitVec 16) (t : Stamp) (cause : Nat) : (State.downRecord s before t cause).Mems ↔ s.Mems := by
  unfold State.Mems; rw [(State.downRecord_keeps s before t cause).1, (State.downRecord_keeps s before t cause).2]
@[simp] theorem State.takeDown_mems (s : State) (d : Nat) (cause : Nat) (h : s.Mems) : (State.takeDown s d cause).Mems := by
  unfold State.takeDown
  repeat' split
  · exact h
  · simpa using h
  · simp only [State.downRecord_mems]
    exact foldl_mems _ (fun t e ht => State.powerOff_mems t e ht) _ _ h
@[simp] theorem State.resumeDomain_keeps (s : State) (d : Nat) :
    (State.resumeDomain s d).mem = s.mem ∧ (State.resumeDomain s d).hostMem = s.hostMem := by
  unfold State.resumeDomain
  exact ⟨foldl_mem _ (fun t d => by (repeat' split) <;> simp) _ _, foldl_hostMem _ (fun t d => by (repeat' split) <;> simp) _ _⟩
@[simp] theorem State.resumeDomain_mems (s : State) (d : Nat) : (State.resumeDomain s d).Mems ↔ s.Mems := by
  unfold State.Mems; rw [(State.resumeDomain_keeps s d).1, (State.resumeDomain_keeps s d).2]
@[simp] theorem State.wakeWaiting_keeps (s : State) (d : Nat) :
    (State.wakeWaiting s d).mem = s.mem ∧ (State.wakeWaiting s d).hostMem = s.hostMem := by
  simp [State.wakeWaiting]
@[simp] theorem State.wakeWaiting_mems (s : State) (d : Nat) : (State.wakeWaiting s d).Mems ↔ s.Mems := by
  unfold State.Mems; rw [(State.wakeWaiting_keeps s d).1, (State.wakeWaiting_keeps s d).2]
@[simp] theorem execDomainDrainDone_mems (d : Nat) (s : State) (h : s.Mems) : ResMems (execDomainDrainDone d s) := by
  unfold execDomainDrainDone; (repeat' split) <;> simp [h, h.1, h.2]
@[simp] theorem execDomainPowerDown_mems (d : Nat) (s : State) (h : s.Mems) : ResMems (execDomainPowerDown d s) := by
  unfold execDomainPowerDown; (repeat' split) <;> simp [h, h.1, h.2]
@[simp] theorem execDomainPowerUp_keeps (d : Nat) (s : State) : ResKeeps s (execDomainPowerUp d s) := by
  simp [execDomainPowerUp]
@[simp] theorem execDomainPowerUp_mems (d : Nat) (s : State) (h : s.Mems) : ResMems (execDomainPowerUp d s) := (execDomainPowerUp_keeps d s).mems h
@[simp] theorem execDomainIdleTimeout_mems (d : Nat) (s : State) (h : s.Mems) : ResMems (execDomainIdleTimeout d s) := by
  unfold execDomainIdleTimeout; ((try dsimp only); repeat' split) <;> simp [h, h.1, h.2]
@[simp] theorem State.demand_keeps (s : State) (d : Nat) :
    (State.demand s d).mem = s.mem ∧ (State.demand s d).hostMem = s.hostMem := by
  simp [State.demand]
@[simp] theorem State.demand_mems (s : State) (d : Nat) : (State.demand s d).Mems ↔ s.Mems := by
  unfold State.Mems; rw [(State.demand_keeps s d).1, (State.demand_keeps s d).2]
@[simp] theorem execOnDemandAccess_keeps (d : Nat) (s : State) : ResKeeps s (execOnDemandAccess d s) := by
  simp [execOnDemandAccess]
@[simp] theorem execOnDemandAccess_mems (d : Nat) (s : State) (h : s.Mems) : ResMems (execOnDemandAccess d s) := (execOnDemandAccess_keeps d s).mems h
@[simp] theorem execStateEntry_mems (s : State) (h : s.Mems) : ResMems (execStateEntry s) := by
  unfold execStateEntry; ((try dsimp only); repeat' split) <;> simp [h, h.1, h.2]
@[simp] theorem execAutoDoze_mems (s : State) (h : s.Mems) : ResMems (execAutoDoze s) := by
  unfold execAutoDoze; split <;> simp [h, h.1, h.2]
@[simp] theorem execWakeEvent_keeps (src : Nat) (s : State) : ResKeeps s (execWakeEvent src s) := by
  simp [execWakeEvent]
@[simp] theorem execWakeEvent_mems (src : Nat) (s : State) (h : s.Mems) : ResMems (execWakeEvent src s) := (execWakeEvent_keeps src s).mems h
@[simp] theorem execWakeTimer_keeps (s : State) : ResKeeps s (execWakeTimer s) := by
  unfold execWakeTimer; (repeat' split) <;> simp
@[simp] theorem execWakeTimer_mems (s : State) (h : s.Mems) : ResMems (execWakeTimer s) := (execWakeTimer_keeps s).mems h
@[simp] theorem execPowerGetStatus_keeps (p : Nat) (s : State) : ResKeeps s (execPowerGetStatus p s) := by
  unfold execPowerGetStatus; refine (resKeeps_next _ _).mpr (runPage_keeps _ _ _ _ ?_); refine plainPage_keeps _ _ ?_; intro c t; simp
@[simp] theorem execPowerGetStatus_mems (p : Nat) (s : State) (h : s.Mems) : ResMems (execPowerGetStatus p s) := (execPowerGetStatus_keeps p s).mems h
@[simp] theorem State.bringUp_keeps (s : State) (d : Nat) :
    (State.bringUp s d).mem = s.mem ∧ (State.bringUp s d).hostMem = s.hostMem := by
  simp [State.bringUp]
@[simp] theorem State.bringUp_mems (s : State) (d : Nat) : (State.bringUp s d).Mems ↔ s.Mems := by
  unfold State.Mems; rw [(State.bringUp_keeps s d).1, (State.bringUp_keeps s d).2]
@[simp] theorem execPowerSetDomain_mems (p : Nat) (s : State) (h : s.Mems) : ResMems (execPowerSetDomain p s) := by
  unfold execPowerSetDomain; refine (resMems_next _).mpr (runPage_mems _ _ _ _ ?_ h); intro c d t ht; unfold setDomainBody; dsimp only; first | (simp [ht, ht.1, ht.2]; done) | (split <;> first | (simp [ht, ht.1, ht.2]; done) | (split <;> first | (simp [ht, ht.1, ht.2]; done) | (split <;> first | (simp [ht, ht.1, ht.2]; done) | (split <;> first | (simp [ht, ht.1, ht.2]; done) | (split <;> first | (simp [ht, ht.1, ht.2]; done) | (split <;> (simp [ht, ht.1, ht.2]; done)))))))
@[simp] theorem execPowerRequestState_keeps (p : Nat) (s : State) : ResKeeps s (execPowerRequestState p s) := by
  unfold execPowerRequestState; refine (resKeeps_next _ _).mpr (runPage_keeps _ _ _ _ ?_); intro c d t; unfold requestStateBody; dsimp only; (repeat' split) <;> simp
@[simp] theorem execPowerRequestState_mems (p : Nat) (s : State) (h : s.Mems) : ResMems (execPowerRequestState p s) := (execPowerRequestState_keeps p s).mems h
@[simp] theorem execPowerSetLatency_keeps (p : Nat) (s : State) : ResKeeps s (execPowerSetLatency p s) := by
  unfold execPowerSetLatency; refine (resKeeps_next _ _).mpr (runPage_keeps _ _ _ _ ?_); refine plainPage_keeps _ _ ?_; intro c t; dsimp only; (repeat' split) <;> simp
@[simp] theorem execPowerSetLatency_mems (p : Nat) (s : State) (h : s.Mems) : ResMems (execPowerSetLatency p s) := (execPowerSetLatency_keeps p s).mems h


end Sys2Proof.Machine
end

