-- ==== Sys2Proof/Laws/MemSched.lean ====
section
/-! SUPPORT. What the operations and meanings of Machine/Sched.lean do to the two memories: `_keeps` says that both stay as
they were, `_mems` that their canonical form is kept. -/

namespace Sys2Proof.Machine

@[simp] theorem State.setVout_keeps (s : State) (mv : Nat) :
    (State.setVout s mv).mem = s.mem ∧ (State.setVout s mv).hostMem = s.hostMem := by
  simp [State.setVout]
@[simp] theorem State.setVout_mems (s : State) (mv : Nat) : (State.setVout s mv).Mems ↔ s.Mems := by
  unfold State.Mems; rw [(State.setVout_keeps s mv).1, (State.setVout_keeps s mv).2]
@[simp] theorem State.writeVout_keeps (s : State) (mv : Nat) :
    (State.writeVout s mv).mem = s.mem ∧ (State.writeVout s mv).hostMem = s.hostMem := by
  simp [State.writeVout]
@[simp] theorem State.writeVout_mems (s : State) (mv : Nat) : (State.writeVout s mv).Mems ↔ s.Mems := by
  unfold State.Mems; rw [(State.writeVout_keeps s mv).1, (State.writeVout_keeps s mv).2]
@[simp] theorem State.switchPoint_keeps (s : State) (p : Nat) (cause : Nat) (start : Stamp) :
    (State.switchPoint s p cause start).mem = s.mem ∧ (State.switchPoint s p cause start).hostMem = s.hostMem := by
  simp [State.switchPoint]
@[simp] theorem State.switchPoint_mems (s : State) (p : Nat) (cause : Nat) (start : Stamp) : (State.switchPoint s p cause start).Mems ↔ s.Mems := by
  unfold State.Mems; rw [(State.switchPoint_keeps s p cause start).1, (State.switchPoint_keeps s p cause start).2]
@[simp] theorem State.changePoint_keeps (s : State) (p : Nat) (cause : Nat) :
    (State.changePoint s p cause).mem = s.mem ∧ (State.changePoint s p cause).hostMem = s.hostMem := by
  unfold State.changePoint; (repeat' split) <;> simp
@[simp] theorem State.changePoint_mems (s : State) (p : Nat) (cause : Nat) : (State.changePoint s p cause).Mems ↔ s.Mems := by
  unfold State.Mems; rw [(State.changePoint_keeps s p cause).1, (State.changePoint_keeps s p cause).2]
@[simp] theorem execVoutReadback_keeps (mv : Nat) (pmbErr : Bool) (s : State) : ResKeeps s (execVoutReadback mv pmbErr s) := by
  unfold execVoutReadback; split <;> simp
@[simp] theorem execVoutReadback_mems (mv : Nat) (pmbErr : Bool) (s : State) (h : s.Mems) : ResMems (execVoutReadback mv pmbErr s) := (execVoutReadback_keeps mv pmbErr s).mems h
@[simp] theorem execRegulatorTimeout_keeps (s : State) : ResKeeps s (execRegulatorTimeout s) := by
  unfold execRegulatorTimeout; split <;> simp
@[simp] theorem execRegulatorTimeout_mems (s : State) (h : s.Mems) : ResMems (execRegulatorTimeout s) := (execRegulatorTimeout_keeps s).mems h
@[simp] theorem State.judgeShed_keeps (s : State) :
    (State.judgeShed s).mem = s.mem ∧ (State.judgeShed s).hostMem = s.hostMem := by
  simp [State.judgeShed]
@[simp] theorem State.judgeShed_mems (s : State) : (State.judgeShed s).Mems ↔ s.Mems := by
  unfold State.Mems; rw [(State.judgeShed_keeps s).1, (State.judgeShed_keeps s).2]
@[simp] theorem State.judgeP0_keeps (s : State) :
    (State.judgeP0 s).mem = s.mem ∧ (State.judgeP0 s).hostMem = s.hostMem := by
  unfold State.judgeP0; constructor <;> ((try dsimp only); repeat' split) <;> simp
@[simp] theorem State.judgeP0_mems (s : State) : (State.judgeP0 s).Mems ↔ s.Mems := by
  unfold State.Mems; rw [(State.judgeP0_keeps s).1, (State.judgeP0_keeps s).2]
@[simp] theorem State.judgeTrip_mems (s : State) (h : s.Mems) : (State.judgeTrip s).Mems := by
  unfold State.judgeTrip; ((try dsimp only); repeat' split) <;> simp [h, h.1, h.2]
@[simp] theorem State.tripFault_keeps (s : State) (was : State) :
    (State.tripFault s was).mem = s.mem ∧ (State.tripFault s was).hostMem = s.hostMem := by
  simp [State.tripFault]
@[simp] theorem State.tripFault_mems (s : State) (was : State) : (State.tripFault s was).Mems ↔ s.Mems := by
  unfold State.Mems; rw [(State.tripFault_keeps s was).1, (State.tripFault_keeps s was).2]
@[simp] theorem State.takeTherm_keeps (s : State) :
    (State.takeTherm s).mem = s.mem ∧ (State.takeTherm s).hostMem = s.hostMem := by
  unfold State.takeTherm; split <;> simp
@[simp] theorem State.takeTherm_mems (s : State) : (State.takeTherm s).Mems ↔ s.Mems := by
  unfold State.Mems; rw [(State.takeTherm_keeps s).1, (State.takeTherm_keeps s).2]
@[simp] theorem State.showTj_keeps (s : State) (tj : Int) (wasHot : Bool) :
    (State.showTj s tj wasHot).mem = s.mem ∧ (State.showTj s tj wasHot).hostMem = s.hostMem := by
  simp [State.showTj]
@[simp] theorem State.showTj_mems (s : State) (tj : Int) (wasHot : Bool) : (State.showTj s tj wasHot).Mems ↔ s.Mems := by
  unfold State.Mems; rw [(State.showTj_keeps s tj wasHot).1, (State.showTj_keeps s tj wasHot).2]
@[simp] theorem execTjSample_mems (tj : Int) (s : State) (h : s.Mems) : ResMems (execTjSample tj s) := by
  unfold execTjSample; rw [resMems_next]; dsimp only
  rw [State.Mems, (State.tripFault_keeps _ _).1, (State.tripFault_keeps _ _).2]
  exact State.judgeTrip_mems _ (by simpa using h)
@[simp] theorem State.setBudget_keeps (s : State) :
    (State.setBudget s).mem = s.mem ∧ (State.setBudget s).hostMem = s.hostMem := by
  simp [State.setBudget]
@[simp] theorem State.setBudget_mems (s : State) : (State.setBudget s).Mems ↔ s.Mems := by
  unfold State.Mems; rw [(State.setBudget_keeps s).1, (State.setBudget_keeps s).2]
@[simp] theorem State.applyBudget_keeps (s : State) (b : Bytes) :
    (State.applyBudget s b).mem = s.mem ∧ (State.applyBudget s b).hostMem = s.hostMem := by
  simp [State.applyBudget]
@[simp] theorem State.applyBudget_mems (s : State) (b : Bytes) : (State.applyBudget s b).Mems ↔ s.Mems := by
  unfold State.Mems; rw [(State.applyBudget_keeps s b).1, (State.applyBudget_keeps s b).2]
@[simp] theorem State.boundarySettings_keeps (s : State) :
    (State.boundarySettings s).mem = s.mem ∧ (State.boundarySettings s).hostMem = s.hostMem := by
  unfold State.boundarySettings; constructor <;> ((try dsimp only); repeat' split) <;> simp
@[simp] theorem State.boundarySettings_mems (s : State) : (State.boundarySettings s).Mems ↔ s.Mems := by
  unfold State.Mems; rw [(State.boundarySettings_keeps s).1, (State.boundarySettings_keeps s).2]
@[simp] theorem State.shedRun_keeps (s : State) (r : Run) (at' : Nat) (point : Nat) :
    (State.shedRun s r at' point).mem = s.mem ∧ (State.shedRun s r at' point).hostMem = s.hostMem := by
  simp [State.shedRun]
@[simp] theorem State.shedRun_mems (s : State) (r : Run) (at' : Nat) (point : Nat) : (State.shedRun s r at' point).Mems ↔ s.Mems := by
  unfold State.Mems; rw [(State.shedRun_keeps s r at' point).1, (State.shedRun_keeps s r at' point).2]
@[simp] theorem State.shedOverdue_keeps (s : State) (at' : Nat) :
    (State.shedOverdue s at').mem = s.mem ∧ (State.shedOverdue s at').hostMem = s.hostMem := by
  simp [State.shedOverdue]
@[simp] theorem State.shedOverdue_mems (s : State) (at' : Nat) : (State.shedOverdue s at').Mems ↔ s.Mems := by
  unfold State.Mems; rw [(State.shedOverdue_keeps s at').1, (State.shedOverdue_keeps s at').2]
@[simp] theorem State.admitWaiting_keeps (s : State) (x1 : List Run) :
    (State.admitWaiting s x1).mem = s.mem ∧ (State.admitWaiting s x1).hostMem = s.hostMem := by
  fun_induction State.admitWaiting s x1 <;> simp_all
@[simp] theorem State.admitWaiting_mems (s : State) (x1 : List Run) : (State.admitWaiting s x1).Mems ↔ s.Mems := by
  unfold State.Mems; rw [(State.admitWaiting_keeps s x1).1, (State.admitWaiting_keeps s x1).2]
@[simp] theorem workBudgetWindowBoundary_keeps (s : State) : ResKeeps s (workBudgetWindowBoundary s) := by
  simp [workBudgetWindowBoundary]
@[simp] theorem workBudgetWindowBoundary_mems (s : State) (h : s.Mems) : ResMems (workBudgetWindowBoundary s) := (workBudgetWindowBoundary_keeps s).mems h
@[simp] theorem execSchedSetBudget_keeps (p : Nat) (s : State) : ResKeeps s (execSchedSetBudget p s) := by
  unfold execSchedSetBudget; refine (resKeeps_next _ _).mpr (runPage_keeps _ _ _ _ ?_); refine plainPage_keeps _ _ ?_; intro c t; simp
@[simp] theorem execSchedSetBudget_mems (p : Nat) (s : State) (h : s.Mems) : ResMems (execSchedSetBudget p s) := (execSchedSetBudget_keeps p s).mems h
@[simp] theorem execSchedSetThermal_keeps (p : Nat) (s : State) : ResKeeps s (execSchedSetThermal p s) := by
  unfold execSchedSetThermal; refine (resKeeps_next _ _).mpr (runPage_keeps _ _ _ _ ?_); refine plainPage_keeps _ _ ?_; intro c t; simp
@[simp] theorem execSchedSetThermal_mems (p : Nat) (s : State) (h : s.Mems) : ResMems (execSchedSetThermal p s) := (execSchedSetThermal_keeps p s).mems h
@[simp] theorem execSchedSetBinding_keeps (p : Nat) (s : State) : ResKeeps s (execSchedSetBinding p s) := by
  unfold execSchedSetBinding; refine (resKeeps_next _ _).mpr (runPage_keeps _ _ _ _ ?_); refine plainPage_keeps _ _ ?_; intro c t; simp
@[simp] theorem execSchedSetBinding_mems (p : Nat) (s : State) (h : s.Mems) : ResMems (execSchedSetBinding p s) := (execSchedSetBinding_keeps p s).mems h


end Sys2Proof.Machine
end

