-- ==== Sys2Proof/Laws/MemRegIO.lean ====
section
/-! SUPPORT. What the operations and meanings of Machine/RegIO.lean do to the two memories: `_keeps` says that both stay as
they were, `_mems` that their canonical form is kept. -/

namespace Sys2Proof.Machine

theorem after_mems (r : Res) (s : State) (hr : ResMems r) (hs : s.Mems) : (after r s).Mems := by
  cases r with
  | next t => exact hr t rfl
  | fault f => exact hs
  | refused f => exact hs
theorem after_keeps (r : Res) (s : State) (h : ResKeeps s r) : (after r s).mem = s.mem ∧ (after r s).hostMem = s.hostMem := by
  cases r with
  | next t => exact h t rfl
  | fault f => exact ⟨rfl, rfl⟩
  | refused f => exact ⟨rfl, rfl⟩
def OptMems (o : Option State) : Prop := ∀ t, o = some t → t.Mems
@[simp] theorem optMems_some (t : State) : OptMems (some t) = t.Mems := by
  unfold OptMems; simp
@[simp] theorem optMems_none : OptMems none = True := by
  unfold OptMems; simp
theorem optMems_ite (c : Prop) [Decidable c] (x y : Option State) (h1 : OptMems x) (h2 : OptMems y) : OptMems (if c then x else y) := by
  split <;> assumption
@[simp] theorem State.readClears_keeps (s : State) (a : Nat) :
    (State.readClears s a).mem = s.mem ∧ (State.readClears s a).hostMem = s.hostMem := by
  unfold State.readClears; split <;> simp
@[simp] theorem State.readClears_mems (s : State) (a : Nat) : (State.readClears s a).Mems ↔ s.Mems := by
  unfold State.Mems; rw [(State.readClears_keeps s a).1, (State.readClears_keeps s a).2]
@[simp] theorem State.readWord_keeps (s : State) (m : Nat) (a : Nat) :
    (State.readWord s m a).1.mem = s.mem ∧ (State.readWord s m a).1.hostMem = s.hostMem := by
  unfold State.readWord; (repeat' split) <;> first | exact after_keeps _ _ (by simp) | simp
@[simp] theorem State.readWord_mems (s : State) (m : Nat) (a : Nat) : (State.readWord s m a).1.Mems ↔ s.Mems := by
  unfold State.Mems; rw [(State.readWord_keeps s m a).1, (State.readWord_keeps s m a).2]
@[simp] theorem State.readWords_keeps (s : State) (m : Nat) (a : Nat) (x3 : Nat) :
    (State.readWords s m a x3).1.mem = s.mem ∧ (State.readWords s m a x3).1.hostMem = s.hostMem := by
  induction x3 generalizing s a with
  | zero => exact ⟨rfl, rfl⟩
  | succ n ih => exact ⟨(ih _ _).1.trans (State.readWord_keeps s m a).1, (ih _ _).2.trans (State.readWord_keeps s m a).2⟩
@[simp] theorem State.readWords_mems (s : State) (m : Nat) (a : Nat) (x3 : Nat) : (State.readWords s m a x3).1.Mems ↔ s.Mems := by
  unfold State.Mems; rw [(State.readWords_keeps s m a x3).1, (State.readWords_keeps s m a x3).2]
@[simp] theorem State.serveRead_keeps (s : State) (m : Nat) (bar2 : Bool) (a : Nat) (len : Nat) :
    (State.serveRead s m bar2 a len).1.mem = s.mem ∧ (State.serveRead s m bar2 a len).1.hostMem = s.hostMem := by
  unfold State.serveRead; (repeat' split) <;> simp
@[simp] theorem State.serveRead_mems (s : State) (m : Nat) (bar2 : Bool) (a : Nat) (len : Nat) : (State.serveRead s m bar2 a len).1.Mems ↔ s.Mems := by
  unfold State.Mems; rw [(State.serveRead_keeps s m bar2 a len).1, (State.serveRead_keeps s m bar2 a len).2]
theorem State.writeAct_mems (s : State) (m a : Nat) (v : Word) (hs : s.Mems) : OptMems (s.writeAct m a v) := by
  unfold State.writeAct
  dsimp only
  repeat' (refine optMems_ite _ _ _ ?_ ?_)
  all_goals first
    | (simp [hs]; done)
    | (rw [optMems_some]; exact after_mems _ _ (by simp [hs]) hs)
    | (rw [optMems_some]; exact after_mems _ _ (by split <;> simp [hs]) hs)
    | (rw [optMems_some]; split <;> simp [hs]; done)
    | (rw [optMems_some]; split <;> simp [hs.1, hs.2]; done)
@[simp] theorem State.writeWord_mems (s : State) (m : Nat) (a : Nat) (v : Sys2Proof.Word) (h : s.Mems) : (State.writeWord s m a v).Mems := by
  have h1 : (if a / 0x100000 = 0x208 then s.settleClock else s).Mems := by split <;> simpa using h
  unfold State.writeWord
  generalize (if a / 0x100000 = 0x208 then s.settleClock else s) = u at h1 ⊢
  dsimp only
  split
  · next t ht => exact State.writeAct_mems _ _ _ _ h1 t ht
  · split <;> simpa using h1
@[simp] theorem State.serveWrite_mems (s : State) (m : Nat) (a : Nat) (b : Bytes) (h : s.Mems) : (State.serveWrite s m a b).Mems := by
  unfold State.serveWrite; ((try dsimp only); repeat' split) <;> simp [h, h.1, h.2]
@[simp] theorem State.openDomain_keeps (s : State) (a : Nat) :
    (State.openDomain s a).mem = s.mem ∧ (State.openDomain s a).hostMem = s.hostMem := by
  simp [State.openDomain]
@[simp] theorem State.openDomain_mems (s : State) (a : Nat) : (State.openDomain s a).Mems ↔ s.Mems := by
  unfold State.Mems; rw [(State.openDomain_keeps s a).1, (State.openDomain_keeps s a).2]
@[simp] theorem State.poisonRun_keeps (s : State) (m : Nat) :
    (State.poisonRun s m).mem = s.mem ∧ (State.poisonRun s m).hostMem = s.hostMem := by
  unfold State.poisonRun; (repeat' split) <;> simp
@[simp] theorem State.poisonRun_mems (s : State) (m : Nat) : (State.poisonRun s m).Mems ↔ s.Mems := by
  unfold State.Mems; rw [(State.poisonRun_keeps s m).1, (State.poisonRun_keeps s m).2]
@[simp] theorem State.poisonCtx_keeps (s : State) (c : Option Nat) :
    (State.poisonCtx s c).mem = s.mem ∧ (State.poisonCtx s c).hostMem = s.hostMem := by
  unfold State.poisonCtx; (repeat' split) <;> simp
@[simp] theorem State.poisonCtx_mems (s : State) (c : Option Nat) : (State.poisonCtx s c).Mems ↔ s.Mems := by
  unfold State.Mems; rw [(State.poisonCtx_keeps s c).1, (State.poisonCtx_keeps s c).2]
@[simp] theorem State.eccCorrected_keeps (s : State) (a : Nat) :
    (State.eccCorrected s a).mem = s.mem ∧ (State.eccCorrected s a).hostMem = s.hostMem := by
  simp [State.eccCorrected]
@[simp] theorem State.eccCorrected_mems (s : State) (a : Nat) : (State.eccCorrected s a).Mems ↔ s.Mems := by
  unfold State.Mems; rw [(State.eccCorrected_keeps s a).1, (State.eccCorrected_keeps s a).2]
@[simp] theorem State.eccPoisoned_keeps (s : State) (m : Nat) (a : Nat) :
    (State.eccPoisoned s m a).mem = s.mem ∧ (State.eccPoisoned s m a).hostMem = s.hostMem := by
  simp [State.eccPoisoned]
@[simp] theorem State.eccPoisoned_mems (s : State) (m : Nat) (a : Nat) : (State.eccPoisoned s m a).Mems ↔ s.Mems := by
  unfold State.Mems; rw [(State.eccPoisoned_keeps s m a).1, (State.eccPoisoned_keeps s m a).2]
@[simp] theorem State.answerRead_keeps (s : State) (d : Bytes) (err : Bool) :
    (State.answerRead s d err).mem = s.mem ∧ (State.answerRead s d err).hostMem = s.hostMem := by
  simp [State.answerRead]
@[simp] theorem State.answerRead_mems (s : State) (d : Bytes) (err : Bool) : (State.answerRead s d err).Mems ↔ s.Mems := by
  unfold State.Mems; rw [(State.answerRead_keeps s d err).1, (State.answerRead_keeps s d err).2]
@[simp] theorem State.passRead_keeps (s : State) (m : Nat) (bar2 : Bool) (a : Nat) (len : Nat) (ecc : Nat) :
    (State.passRead s m bar2 a len ecc).mem = s.mem ∧ (State.passRead s m bar2 a len ecc).hostMem = s.hostMem := by
  simp [State.passRead]
@[simp] theorem State.passRead_mems (s : State) (m : Nat) (bar2 : Bool) (a : Nat) (len : Nat) (ecc : Nat) : (State.passRead s m bar2 a len ecc).Mems ↔ s.Mems := by
  unfold State.Mems; rw [(State.passRead_keeps s m bar2 a len ecc).1, (State.passRead_keeps s m bar2 a len ecc).2]
@[simp] theorem State.accessRead_keeps (s : State) (m : Nat) (bar2 : Bool) (a : Nat) (len : Nat) (ecc : Nat) :
    (State.accessRead s m bar2 a len ecc).mem = s.mem ∧ (State.accessRead s m bar2 a len ecc).hostMem = s.hostMem := by
  simp [State.accessRead]
@[simp] theorem State.accessRead_mems (s : State) (m : Nat) (bar2 : Bool) (a : Nat) (len : Nat) (ecc : Nat) : (State.accessRead s m bar2 a len ecc).Mems ↔ s.Mems := by
  unfold State.Mems; rw [(State.accessRead_keeps s m bar2 a len ecc).1, (State.accessRead_keeps s m bar2 a len ecc).2]
@[simp] theorem State.accessWrite_mems (s : State) (m : Nat) (a : Nat) (b : Bytes) (h : s.Mems) : (State.accessWrite s m a b).Mems := by
  unfold State.accessWrite; ((try dsimp only); repeat' split) <;> simp [h, h.1, h.2]
@[simp] theorem State.landWrite_mems (s : State) (q : Nat) (a : Nat) (b : Bytes) (h : s.Mems) : (State.landWrite s q a b).Mems := by
  unfold State.landWrite; exact forEach_mems _ _ (fun _ _ ht => by simp [ht]) _ (by simp [h])
@[simp] theorem workLandingWrite_mems (s : State) (h : s.Mems) : ResMems (workLandingWrite s) := by
  unfold workLandingWrite; ((try dsimp only); repeat' split) <;> simp [h, h.1, h.2]
@[simp] theorem State.serveTeal_mems (s : State) (f : Sys2Proof.TealFrame) (h : s.Mems) : (State.serveTeal s f).Mems := by
  unfold State.serveTeal; ((try dsimp only); repeat' split) <;> simp [h, h.1, h.2]
theorem State.tlp_mems (s : State) (f : State → State) (hf : ∀ t, t.Mems → (f t).Mems) (h : s.Mems) : (s.tlp f).Mems := by
  unfold State.tlp
  split
  · exact h
  · refine hf _ ?_
    split
    · simpa using h
    · exact h
theorem State.tlp_keeps (s : State) (f : State → State) (hf : ∀ t, (f t).mem = t.mem ∧ (f t).hostMem = t.hostMem) :
    (s.tlp f).mem = s.mem ∧ (s.tlp f).hostMem = s.hostMem := by
  unfold State.tlp
  split
  · exact ⟨rfl, rfl⟩
  · split
    · exact ⟨(hf _).1.trans (State.wakeEvent_keeps _ _ _).1, (hf _).2.trans (State.wakeEvent_keeps _ _ _).2⟩
    · exact hf s
@[simp] theorem execInternalAccess_mems (x : Sys2Proof.Access) (s : State) (h : s.Mems) : ResMems (execInternalAccess x s) := by
  unfold execInternalAccess; rw [resMems_next]
  split
  · refine State.tlp_mems _ _ (fun t ht => ?_) h
    split
    · simpa [State.Mems] using ht
    · split
      · exact State.accessWrite_mems _ _ _ _ ht
      · exact ht
  · split
    · simpa using h
    · exact State.accessWrite_mems _ _ _ _ h
@[simp] theorem State.writeMsix_keeps (s : State) (f : Nat) (v : Nat) (word : Nat) (d : Sys2Proof.Word) :
    (State.writeMsix s f v word d).mem = s.mem ∧ (State.writeMsix s f v word d).hostMem = s.hostMem := by
  simp [State.writeMsix]
@[simp] theorem State.writeMsix_mems (s : State) (f : Nat) (v : Nat) (word : Nat) (d : Sys2Proof.Word) : (State.writeMsix s f v word d).Mems ↔ s.Mems := by
  unfold State.Mems; rw [(State.writeMsix_keeps s f v word d).1, (State.writeMsix_keeps s f v word d).2]
@[simp] theorem State.bar0Write_keeps (s : State) (f : Nat) (off : Nat) (v : Sys2Proof.Word) :
    (State.bar0Write s f off v).mem = s.mem ∧ (State.bar0Write s f off v).hostMem = s.hostMem := by
  unfold State.bar0Write; (repeat' split) <;> first | exact after_keeps _ _ (by simp) | simp
@[simp] theorem State.bar0Write_mems (s : State) (f : Nat) (off : Nat) (v : Sys2Proof.Word) : (State.bar0Write s f off v).Mems ↔ s.Mems := by
  unfold State.Mems; rw [(State.bar0Write_keeps s f off v).1, (State.bar0Write_keeps s f off v).2]
@[simp] theorem State.bar0_keeps (s : State) (f : Nat) (off : Nat) (size : Nat) (v : BitVec 64) :
    (State.bar0 s f off size v).mem = s.mem ∧ (State.bar0 s f off size v).hostMem = s.hostMem := by
  simp [State.bar0]
@[simp] theorem State.bar0_mems (s : State) (f : Nat) (off : Nat) (size : Nat) (v : BitVec 64) : (State.bar0 s f off size v).Mems ↔ s.Mems := by
  unfold State.Mems; rw [(State.bar0_keeps s f off size v).1, (State.bar0_keeps s f off size v).2]
@[simp] theorem execRegisterWrite_mems (w : Sys2Proof.RegWrite) (s : State) (h : s.Mems) : ResMems (execRegisterWrite w s) := by
  unfold execRegisterWrite; rw [resMems_next]
  split
  · refine State.tlp_mems _ _ (fun t ht => ?_) h
    simpa using ht
  · refine State.tlp_mems _ _ (fun t ht => ?_) h
    split
    · exact State.accessWrite_mems _ _ _ _ ht
    · exact ht
  · exact State.accessWrite_mems _ _ _ _ h


end Sys2Proof.Machine
end

