-- ==== Sys2Proof/Laws/MemWake.lean ====
section
/-! SUPPORT. What the operations and meanings of Machine/Wake.lean do to the two memories: `_keeps` says that both stay as
they were, `_mems` that their canonical form is kept. -/

namespace Sys2Proof.Machine

@[simp] theorem State.fed_keeps (s : State) (d : Nat) :
    (State.fed s d).mem = s.mem ∧ (State.fed s d).hostMem = s.hostMem := by
  simp [State.fed]
@[simp] theorem State.fed_mems (s : State) (d : Nat) : (State.fed s d).Mems ↔ s.Mems := by
  unfold State.Mems; rw [(State.fed_keeps s d).1, (State.fed_keeps s d).2]
theorem hosted_mems (f : State → Res) (s : State) (hf : ∀ t, t.Mems → ResMems (f t)) (h : s.Mems) : ResMems (hosted f s) := by
  unfold hosted
  split
  · simpa using h
  · refine hf _ ?_
    split
    · simpa using h
    · exact h
theorem received_mems (d : Nat) (f : State → Res) (s : State) (hf : ∀ t, t.Mems → ResMems (f t)) (h : s.Mems) :
    ResMems (received d f s) := by
  unfold received
  refine hf _ ((State.fed_mems _ _).mpr ?_)
  split
  · simpa using h
  · exact h
theorem clocked_mems (f : State → Res) (s : State) (hf : ∀ t, t.Mems → ResMems (f t)) (h : s.Mems) : ResMems (clocked f s) := by
  unfold clocked
  split
  · simpa using h
  · exact hf _ h
theorem sampled_mems (d : Nat) (f : State → Res) (s : State) (hf : ∀ t, t.Mems → ResMems (f t)) (h : s.Mems) :
    ResMems (sampled d f s) := by
  exact clocked_mems _ _ (fun t ht => hf _ ((State.fed_mems _ _).mpr ht)) h
theorem timed_mems (f : State → Res) (s : State) (hf : ∀ t, t.Mems → ResMems (f t)) (h : s.Mems) : ResMems (timed f s) := by
  refine clocked_mems _ _ hf ?_
  split
  · simpa using h
  · exact h
theorem hosted_keeps (f : State → Res) (s : State) (hf : ∀ t, ResKeeps t (f t)) : ResKeeps s (hosted f s) := by
  unfold hosted
  split
  · simp
  · split
    · next h =>
      intro t e
      have := hf _ t e
      rw [(State.wakeEvent_keeps s 0x401 3).1, (State.wakeEvent_keeps s 0x401 3).2] at this
      exact this
    · exact hf _
theorem received_keeps (d : Nat) (f : State → Res) (s : State) (hf : ∀ t, ResKeeps t (f t)) : ResKeeps s (received d f s) := by
  unfold received
  split
  · next h =>
    intro t e
    have := hf _ t e
    rw [(State.fed_keeps _ _).1, (State.fed_keeps _ _).2, (State.wakeEvent_keeps s 0xFFFF 3).1, (State.wakeEvent_keeps s 0xFFFF 3).2] at this
    exact this
  · intro t e
    have := hf _ t e
    rw [(State.fed_keeps _ _).1, (State.fed_keeps _ _).2] at this
    exact this
theorem clocked_keeps (f : State → Res) (s : State) (hf : ∀ t, ResKeeps t (f t)) : ResKeeps s (clocked f s) := by
  unfold clocked
  split
  · simp
  · exact hf _
theorem sampled_keeps (d : Nat) (f : State → Res) (s : State) (hf : ∀ t, ResKeeps t (f t)) : ResKeeps s (sampled d f s) := by
  refine clocked_keeps _ _ (fun u => ?_)
  intro t e
  have := hf _ t e
  rw [(State.fed_keeps _ _).1, (State.fed_keeps _ _).2] at this
  exact this
theorem timed_keeps (f : State → Res) (s : State) (hf : ∀ t, ResKeeps t (f t)) : ResKeeps s (timed f s) := by
  unfold timed
  split
  · next h =>
    intro t e
    have := clocked_keeps f _ hf t e
    rw [(State.wakeEvent_keeps s 0x400 3).1, (State.wakeEvent_keeps s 0x400 3).2] at this
    exact this
  · exact clocked_keeps f _ hf
@[simp] theorem execDoorbell_keeps (fn : Nat) (v : Sys2Proof.Word) (s : State) : ResKeeps s (execDoorbell fn v s) := by
  exact hosted_keeps _ _ (fun t => by simp)
@[simp] theorem execDoorbell_mems (fn : Nat) (v : Sys2Proof.Word) (s : State) (h : s.Mems) : ResMems (execDoorbell fn v s) := (execDoorbell_keeps fn v s).mems h
@[simp] theorem execRingTailWrite_keeps (fn : Nat) (ring : Nat) (v : Sys2Proof.Word) (s : State) : ResKeeps s (execRingTailWrite fn ring v s) := by
  exact hosted_keeps _ _ (fun t => by simp)
@[simp] theorem execRingTailWrite_mems (fn : Nat) (ring : Nat) (v : Sys2Proof.Word) (s : State) (h : s.Mems) : ResMems (execRingTailWrite fn ring v s) := (execRingTailWrite_keeps fn ring v s).mems h
@[simp] theorem execFunctionMasterEnable_keeps (fn : Nat) (dstate : Nat) (bme : Bool) (s : State) : ResKeeps s (execFunctionMasterEnable fn dstate bme s) := by
  exact hosted_keeps _ _ (fun t => by simp)
@[simp] theorem execFunctionMasterEnable_mems (fn : Nat) (dstate : Nat) (bme : Bool) (s : State) (h : s.Mems) : ResMems (execFunctionMasterEnable fn dstate bme s) := (execFunctionMasterEnable_keeps fn dstate bme s).mems h
@[simp] theorem execEthRequest_keeps (g : Sys2Proof.Datagram) (s : State) : ResKeeps s (execEthRequest g s) := by
  exact hosted_keeps _ _ (fun t => by simp)
@[simp] theorem execEthRequest_mems (g : Sys2Proof.Datagram) (s : State) (h : s.Mems) : ResMems (execEthRequest g s) := (execEthRequest_keeps g s).mems h
@[simp] theorem execEthUpload_mems (g : Sys2Proof.Datagram) (s : State) (h : s.Mems) : ResMems (execEthUpload g s) := by
  exact hosted_mems _ _ (fun t ht => by simp [ht]) h
@[simp] theorem execEthFrameReceived_keeps (f : Sys2Proof.EthFrame) (s : State) : ResKeeps s (execEthFrameReceived f s) := by
  exact hosted_keeps _ _ (fun t => by simp)
@[simp] theorem execEthFrameReceived_mems (f : Sys2Proof.EthFrame) (s : State) (h : s.Mems) : ResMems (execEthFrameReceived f s) := (execEthFrameReceived_keeps f s).mems h
@[simp] theorem execSyncReceived_keeps (m : Sys2Proof.PtpMsg) (s : State) : ResKeeps s (execSyncReceived m s) := by
  exact hosted_keeps _ _ (fun t => by simp)
@[simp] theorem execSyncReceived_mems (m : Sys2Proof.PtpMsg) (s : State) (h : s.Mems) : ResMems (execSyncReceived m s) := (execSyncReceived_keeps m s).mems h
@[simp] theorem execAnnounceReceived_keeps (m : Sys2Proof.Announce) (s : State) : ResKeeps s (execAnnounceReceived m s) := by
  exact hosted_keeps _ _ (fun t => by simp)
@[simp] theorem execAnnounceReceived_mems (m : Sys2Proof.Announce) (s : State) (h : s.Mems) : ResMems (execAnnounceReceived m s) := (execAnnounceReceived_keeps m s).mems h
@[simp] theorem execPtpMessageReceived_keeps (m : Sys2Proof.PtpMsg) (s : State) : ResKeeps s (execPtpMessageReceived m s) := by
  exact hosted_keeps _ _ (fun t => by simp)
@[simp] theorem execPtpMessageReceived_mems (m : Sys2Proof.PtpMsg) (s : State) (h : s.Mems) : ResMems (execPtpMessageReceived m s) := (execPtpMessageReceived_keeps m s).mems h
@[simp] theorem execFlr_mems (fn : Nat) (s : State) (h : s.Mems) : ResMems (execFlr fn s) := by
  exact hosted_mems _ _ (fun t ht => by simp [ht]) h
@[simp] theorem execVfDisable_mems (numVfs : Nat) (s : State) (h : s.Mems) : ResMems (execVfDisable numVfs s) := by
  exact hosted_mems _ _ (fun t ht => by simp [ht]) h
@[simp] theorem execVfEnable_mems (numVfs : Nat) (s : State) (h : s.Mems) : ResMems (execVfEnable numVfs s) := by
  exact hosted_mems _ _ (fun t ht => by simp [ht]) h
@[simp] theorem execCsi2PacketReceived_keeps (port : Nat) (pkt : Sys2Proof.Csi2Packet) (s : State) : ResKeeps s (execCsi2PacketReceived port pkt s) := by
  exact received_keeps _ _ _ (fun t => by simp)
@[simp] theorem execCsi2PacketReceived_mems (port : Nat) (pkt : Sys2Proof.Csi2Packet) (s : State) (h : s.Mems) : ResMems (execCsi2PacketReceived port pkt s) := (execCsi2PacketReceived_keeps port pkt s).mems h
@[simp] theorem execTdmFrame_keeps (port : Nat) (f : Sys2Proof.TdmFrame) (s : State) : ResKeeps s (execTdmFrame port f s) := by
  exact received_keeps _ _ _ (fun t => by simp)
@[simp] theorem execTdmFrame_mems (port : Nat) (f : Sys2Proof.TdmFrame) (s : State) (h : s.Mems) : ResMems (execTdmFrame port f s) := (execTdmFrame_keeps port f s).mems h
@[simp] theorem execTealFrameReceived_mems (port : Nat) (f : Sys2Proof.TealFrame) (s : State) (h : s.Mems) : ResMems (execTealFrameReceived port f s) := by
  refine received_mems _ _ _ (fun t ht => ?_) h
  have hu := after_mems (workTealFrameReceived port f t) t (workTealFrameReceived_mems port f t ht) ht
  generalize after (workTealFrameReceived port f t) t = u at hu ⊢
  dsimp only
  rw [resMems_next]
  split
  · exact State.serveTeal_mems u f hu
  · exact hu
@[simp] theorem execEncoderEntry_mems (up : Bool) (ns : Nat) (s : State) (h : s.Mems) : ResMems (execEncoderEntry up ns s) := by
  exact sampled_mems _ _ _ (fun t ht => by simp [ht]) h
@[simp] theorem execEncoderIndex_mems (ns : Nat) (s : State) (h : s.Mems) : ResMems (execEncoderIndex ns s) := by
  exact sampled_mems _ _ _ (fun t ht => by simp [ht]) h
@[simp] theorem execSsiPoll_mems (frame : Nat) (ns : Nat) (s : State) (h : s.Mems) : ResMems (execSsiPoll frame ns s) := by
  exact sampled_mems _ _ _ (fun t ht => by simp [ht]) h
@[simp] theorem execImuDrdyEdge_keeps (burst : Bytes) (ns : Nat) (s : State) : ResKeeps s (execImuDrdyEdge burst ns s) := by
  exact sampled_keeps _ _ _ (fun t => by simp)
@[simp] theorem execImuDrdyEdge_mems (burst : Bytes) (ns : Nat) (s : State) (h : s.Mems) : ResMems (execImuDrdyEdge burst ns s) := (execImuDrdyEdge_keeps burst ns s).mems h
@[simp] theorem execEncoderCountEdge_mems (d : Sys2Proof.QuadStep) (s : State) (h : s.Mems) : ResMems (execEncoderCountEdge d s) := by
  exact sampled_mems _ _ _ (fun t ht => by simp [ht]) h
@[simp] theorem execBlockTimeout_keeps (port : Nat) (s : State) : ResKeeps s (execBlockTimeout port s) := by
  exact timed_keeps _ _ (fun t => by simp)
@[simp] theorem execBlockTimeout_mems (port : Nat) (s : State) (h : s.Mems) : ResMems (execBlockTimeout port s) := (execBlockTimeout_keeps port s).mems h
@[simp] theorem execDecayTick_keeps (s : State) : ResKeeps s (execDecayTick s) := by
  exact timed_keeps _ _ (fun t => by simp)
@[simp] theorem execDecayTick_mems (s : State) (h : s.Mems) : ResMems (execDecayTick s) := (execDecayTick_keeps s).mems h
@[simp] theorem execWindowOpen_keeps (rule : Nat) (s : State) : ResKeeps s (execWindowOpen rule s) := by
  exact timed_keeps _ _ (fun t => by simp)
@[simp] theorem execWindowOpen_mems (rule : Nat) (s : State) (h : s.Mems) : ResMems (execWindowOpen rule s) := (execWindowOpen_keeps rule s).mems h
@[simp] theorem execWindowClose_keeps (rule : Nat) (s : State) : ResKeeps s (execWindowClose rule s) := by
  exact timed_keeps _ _ (fun t => by simp)
@[simp] theorem execWindowClose_mems (rule : Nat) (s : State) (h : s.Mems) : ResMems (execWindowClose rule s) := (execWindowClose_keeps rule s).mems h
@[simp] theorem execAngleTick_keeps (s : State) : ResKeeps s (execAngleTick s) := by
  exact timed_keeps _ _ (fun t => by simp)
@[simp] theorem execAngleTick_mems (s : State) (h : s.Mems) : ResMems (execAngleTick s) := (execAngleTick_keeps s).mems h
@[simp] theorem execBudgetWindowBoundary_keeps (s : State) : ResKeeps s (execBudgetWindowBoundary s) := by
  exact timed_keeps _ _ (fun t => by simp)
@[simp] theorem execBudgetWindowBoundary_mems (s : State) (h : s.Mems) : ResMems (execBudgetWindowBoundary s) := (execBudgetWindowBoundary_keeps s).mems h
@[simp] theorem execEventDecode_keeps (port : Nat) (s : State) : ResKeeps s (execEventDecode port s) := by
  exact clocked_keeps _ _ (fun t => by simp)
@[simp] theorem execEventDecode_mems (port : Nat) (s : State) (h : s.Mems) : ResMems (execEventDecode port s) := (execEventDecode_keeps port s).mems h
@[simp] theorem execGapContinues_keeps (tdm : Bool) (port : Nat) (s : State) : ResKeeps s (execGapContinues tdm port s) := by
  exact clocked_keeps _ _ (fun t => by simp)
@[simp] theorem execGapContinues_mems (tdm : Bool) (port : Nat) (s : State) (h : s.Mems) : ResMems (execGapContinues tdm port s) := (execGapContinues_keeps tdm port s).mems h
@[simp] theorem execFilterMapScrub_keeps (port : Nat) (s : State) : ResKeeps s (execFilterMapScrub port s) := by
  exact clocked_keeps _ _ (fun t => by simp)
@[simp] theorem execFilterMapScrub_mems (port : Nat) (s : State) (h : s.Mems) : ResMems (execFilterMapScrub port s) := (execFilterMapScrub_keeps port s).mems h
@[simp] theorem execPortSilent_keeps (port : Nat) (s : State) : ResKeeps s (execPortSilent port s) := by
  exact clocked_keeps _ _ (fun t => by simp)
@[simp] theorem execPortSilent_mems (port : Nat) (s : State) (h : s.Mems) : ResMems (execPortSilent port s) := (execPortSilent_keeps port s).mems h
@[simp] theorem execPortActivityWindow_keeps (port : Nat) (s : State) : ResKeeps s (execPortActivityWindow port s) := by
  exact clocked_keeps _ _ (fun t => by simp)
@[simp] theorem execPortActivityWindow_mems (port : Nat) (s : State) (h : s.Mems) : ResMems (execPortActivityWindow port s) := (execPortActivityWindow_keeps port s).mems h
@[simp] theorem execTriggerFire_keeps (n : Nat) (s : State) : ResKeeps s (execTriggerFire n s) := by
  exact clocked_keeps _ _ (fun t => by simp)
@[simp] theorem execTriggerFire_mems (n : Nat) (s : State) (h : s.Mems) : ResMems (execTriggerFire n s) := (execTriggerFire_keeps n s).mems h
@[simp] theorem execTriggerPulseEnd_keeps (n : Nat) (s : State) : ResKeeps s (execTriggerPulseEnd n s) := by
  exact clocked_keeps _ _ (fun t => by simp)
@[simp] theorem execTriggerPulseEnd_mems (n : Nat) (s : State) (h : s.Mems) : ResMems (execTriggerPulseEnd n s) := (execTriggerPulseEnd_keeps n s).mems h
@[simp] theorem execStackClose_keeps (stack : Nat) (s : State) : ResKeeps s (execStackClose stack s) := by
  exact clocked_keeps _ _ (fun t => by simp)
@[simp] theorem execStackClose_mems (stack : Nat) (s : State) (h : s.Mems) : ResMems (execStackClose stack s) := (execStackClose_keeps stack s).mems h
@[simp] theorem execRotorMap_mems (stack : Nat) (s : State) (h : s.Mems) : ResMems (execRotorMap stack s) := by
  exact clocked_mems _ _ (fun t ht => by simp [ht]) h
@[simp] theorem execImuSilent_keeps (s : State) : ResKeeps s (execImuSilent s) := by
  exact clocked_keeps _ _ (fun t => by simp)
@[simp] theorem execImuSilent_mems (s : State) (h : s.Mems) : ResMems (execImuSilent s) := (execImuSilent_keeps s).mems h
@[simp] theorem execSurfaceUpdate_keeps (s : State) : ResKeeps s (execSurfaceUpdate s) := by
  exact clocked_keeps _ _ (fun t => by simp)
@[simp] theorem execSurfaceUpdate_mems (s : State) (h : s.Mems) : ResMems (execSurfaceUpdate s) := (execSurfaceUpdate_keeps s).mems h
@[simp] theorem execCornerTest_keeps (s : State) : ResKeeps s (execCornerTest s) := by
  exact clocked_keeps _ _ (fun t => by simp)
@[simp] theorem execCornerTest_mems (s : State) (h : s.Mems) : ResMems (execCornerTest s) := (execCornerTest_keeps s).mems h
@[simp] theorem execFlowFit_keeps (s : State) : ResKeeps s (execFlowFit s) := by
  exact clocked_keeps _ _ (fun t => by simp)
@[simp] theorem execFlowFit_mems (s : State) (h : s.Mems) : ResMems (execFlowFit s) := (execFlowFit_keeps s).mems h
@[simp] theorem execSurfaceScrub_keeps (surface : Nat) (s : State) : ResKeeps s (execSurfaceScrub surface s) := by
  exact clocked_keeps _ _ (fun t => by simp)
@[simp] theorem execSurfaceScrub_mems (surface : Nat) (s : State) (h : s.Mems) : ResMems (execSurfaceScrub surface s) := (execSurfaceScrub_keeps surface s).mems h
@[simp] theorem execSepiaStagingResume_keeps (s : State) : ResKeeps s (execSepiaStagingResume s) := by
  exact clocked_keeps _ _ (fun t => by simp)
@[simp] theorem execSepiaStagingResume_mems (s : State) (h : s.Mems) : ResMems (execSepiaStagingResume s) := (execSepiaStagingResume_keeps s).mems h
@[simp] theorem execDerivedTick_keeps (ch : Nat) (s : State) : ResKeeps s (execDerivedTick ch s) := by
  exact clocked_keeps _ _ (fun t => by simp)
@[simp] theorem execDerivedTick_mems (ch : Nat) (s : State) (h : s.Mems) : ResMems (execDerivedTick ch s) := (execDerivedTick_keeps ch s).mems h
@[simp] theorem execChainSample_keeps (ch : Nat) (s : State) : ResKeeps s (execChainSample ch s) := by
  exact clocked_keeps _ _ (fun t => by simp)
@[simp] theorem execChainSample_mems (ch : Nat) (s : State) (h : s.Mems) : ResMems (execChainSample ch s) := (execChainSample_keeps ch s).mems h
@[simp] theorem execFilterBlockTimeout_keeps (ch : Nat) (s : State) : ResKeeps s (execFilterBlockTimeout ch s) := by
  exact clocked_keeps _ _ (fun t => by simp)
@[simp] theorem execFilterBlockTimeout_mems (ch : Nat) (s : State) (h : s.Mems) : ResMems (execFilterBlockTimeout ch s) := (execFilterBlockTimeout_keeps ch s).mems h
@[simp] theorem execUmberApplyFallback_keeps (group : Nat) (s : State) : ResKeeps s (execUmberApplyFallback group s) := by
  exact clocked_keeps _ _ (fun t => by simp)
@[simp] theorem execUmberApplyFallback_mems (group : Nat) (s : State) (h : s.Mems) : ResMems (execUmberApplyFallback group s) := (execUmberApplyFallback_keeps group s).mems h
@[simp] theorem execSigSyncEdge_keeps (e : Sys2Proof.Edge) (ns : Nat) (s : State) : ResKeeps s (execSigSyncEdge e ns s) := by
  exact clocked_keeps _ _ (fun t => by simp)
@[simp] theorem execSigSyncEdge_mems (e : Sys2Proof.Edge) (ns : Nat) (s : State) (h : s.Mems) : ResMems (execSigSyncEdge e ns s) := (execSigSyncEdge_keeps e ns s).mems h
@[simp] theorem execUmberStagingResume_keeps (s : State) : ResKeeps s (execUmberStagingResume s) := by
  exact clocked_keeps _ _ (fun t => by simp)
@[simp] theorem execUmberStagingResume_mems (s : State) (h : s.Mems) : ResMems (execUmberStagingResume s) := (execUmberStagingResume_keeps s).mems h
@[simp] theorem execTdmPortSilent_keeps (port : Nat) (s : State) : ResKeeps s (execTdmPortSilent port s) := by
  exact clocked_keeps _ _ (fun t => by simp)
@[simp] theorem execTdmPortSilent_mems (port : Nat) (s : State) (h : s.Mems) : ResMems (execTdmPortSilent port s) := (execTdmPortSilent_keeps port s).mems h
@[simp] theorem execMemberAdmit_keeps (s : State) : ResKeeps s (execMemberAdmit s) := by
  exact clocked_keeps _ _ (fun t => by simp)
@[simp] theorem execMemberAdmit_mems (s : State) (h : s.Mems) : ResMems (execMemberAdmit s) := (execMemberAdmit_keeps s).mems h
@[simp] theorem execFusedRecordStage_keeps (s : State) : ResKeeps s (execFusedRecordStage s) := by
  exact clocked_keeps _ _ (fun t => by simp)
@[simp] theorem execFusedRecordStage_mems (s : State) (h : s.Mems) : ResMems (execFusedRecordStage s) := (execFusedRecordStage_keeps s).mems h
@[simp] theorem execCoregMapScrub_keeps (s : State) : ResKeeps s (execCoregMapScrub s) := by
  exact clocked_keeps _ _ (fun t => by simp)
@[simp] theorem execCoregMapScrub_mems (s : State) (h : s.Mems) : ResMems (execCoregMapScrub s) := (execCoregMapScrub_keeps s).mems h
@[simp] theorem execBindingInput_keeps (s : State) : ResKeeps s (execBindingInput s) := by
  exact clocked_keeps _ _ (fun t => by simp)
@[simp] theorem execBindingInput_mems (s : State) (h : s.Mems) : ResMems (execBindingInput s) := (execBindingInput_keeps s).mems h
@[simp] theorem execRunComplete_mems (b : Nat) (s : State) (h : s.Mems) : ResMems (execRunComplete b s) := by
  exact clocked_mems _ _ (fun t ht => by simp [ht]) h
@[simp] theorem execReplayWindowEnd_keeps (s : State) : ResKeeps s (execReplayWindowEnd s) := by
  exact clocked_keeps _ _ (fun t => by simp)
@[simp] theorem execReplayWindowEnd_mems (s : State) (h : s.Mems) : ResMems (execReplayWindowEnd s) := (execReplayWindowEnd_keeps s).mems h
@[simp] theorem execTileWstallWindow_keeps (t : Nat) (s : State) : ResKeeps s (execTileWstallWindow t s) := by
  exact clocked_keeps _ _ (fun t => by simp)
@[simp] theorem execTileWstallWindow_mems (t : Nat) (s : State) (h : s.Mems) : ResMems (execTileWstallWindow t s) := (execTileWstallWindow_keeps t s).mems h
@[simp] theorem execPtpEventTransmit_keeps (m : Sys2Proof.PtpTx) (s : State) : ResKeeps s (execPtpEventTransmit m s) := by
  exact clocked_keeps _ _ (fun t => by simp)
@[simp] theorem execPtpEventTransmit_mems (m : Sys2Proof.PtpTx) (s : State) (h : s.Mems) : ResMems (execPtpEventTransmit m s) := (execPtpEventTransmit_keeps m s).mems h
@[simp] theorem execStalledCommitAdmit_mems (master : Nat) (s : State) (h : s.Mems) : ResMems (execStalledCommitAdmit master s) := by
  exact clocked_mems _ _ (fun t ht => by simp [ht]) h
@[simp] theorem execLandingWrite_mems (s : State) (h : s.Mems) : ResMems (execLandingWrite s) := by
  exact clocked_mems _ _ (fun t ht => by simp [ht]) h
@[simp] theorem execContributionProcess_mems (c : Nat) (s : State) (h : s.Mems) : ResMems (execContributionProcess c s) := by
  exact clocked_mems _ _ (fun t ht => by simp [ht]) h
@[simp] theorem execCombineResultCommit_mems (c : Nat) (s : State) (h : s.Mems) : ResMems (execCombineResultCommit c s) := by
  exact clocked_mems _ _ (fun t ht => by simp [ht]) h
@[simp] theorem execRecordDeliver_mems (fn : Nat) (ring : Nat) (s : State) (h : s.Mems) : ResMems (execRecordDeliver fn ring s) := by
  exact clocked_mems _ _ (fun t ht => by simpa using after_mems _ _ (workRecordDeliver_mems fn ring t ht) ht) h
@[simp] theorem execRingModerationHoldoff_keeps (fn : Nat) (ring : Nat) (s : State) : ResKeeps s (execRingModerationHoldoff fn ring s) := by
  exact clocked_keeps _ _ (fun t => by simp)
@[simp] theorem execRingModerationHoldoff_mems (fn : Nat) (ring : Nat) (s : State) (h : s.Mems) : ResMems (execRingModerationHoldoff fn ring s) := (execRingModerationHoldoff_keeps fn ring s).mems h
@[simp] theorem execResponsePost_keeps (p : Nat) (s : State) : ResKeeps s (execResponsePost p s) := by
  exact clocked_keeps _ _ (fun t => by simp)
@[simp] theorem execResponsePost_mems (p : Nat) (s : State) (h : s.Mems) : ResMems (execResponsePost p s) := (execResponsePost_keeps p s).mems h
@[simp] theorem execInterruptAcknowledge_keeps (t : Nat) (s : State) : ResKeeps s (execInterruptAcknowledge t s) := by
  exact clocked_keeps _ _ (fun t => by simp)
@[simp] theorem execInterruptAcknowledge_mems (t : Nat) (s : State) (h : s.Mems) : ResMems (execInterruptAcknowledge t s) := (execInterruptAcknowledge_keeps t s).mems h
@[simp] theorem execInterruptCommit_keeps (t : Nat) (s : State) : ResKeeps s (execInterruptCommit t s) := by
  exact clocked_keeps _ _ (fun t => by simp)
@[simp] theorem execInterruptCommit_mems (t : Nat) (s : State) (h : s.Mems) : ResMems (execInterruptCommit t s) := (execInterruptCommit_keeps t s).mems h
@[simp] theorem execHostRelay_keeps (s : State) : ResKeeps s (execHostRelay s) := by
  exact clocked_keeps _ _ (fun t => by simp)
@[simp] theorem execHostRelay_mems (s : State) (h : s.Mems) : ResMems (execHostRelay s) := (execHostRelay_keeps s).mems h
@[simp] theorem State.request_keeps (s : State) (d : Nat) :
    (State.request s d).mem = s.mem ∧ (State.request s d).hostMem = s.hostMem := by
  simp [State.request]
@[simp] theorem State.request_mems (s : State) (d : Nat) : (State.request s d).Mems ↔ s.Mems := by
  unfold State.Mems; rw [(State.request_keeps s d).1, (State.request_keeps s d).2]
@[simp] theorem execEventHandoff_keeps (s : State) : ResKeeps s (execEventHandoff s) := by
  refine clocked_keeps _ _ (fun t => ?_)
  split
  · simp
  · intro u e
    have := workEventHandoff_keeps (t.request dCOB) u e
    simpa using this
@[simp] theorem execEventHandoff_mems (s : State) (h : s.Mems) : ResMems (execEventHandoff s) := (execEventHandoff_keeps s).mems h
@[simp] theorem execCobaltProject_mems (s : State) (h : s.Mems) : ResMems (execCobaltProject s) := by
  exact clocked_mems _ _ (fun t ht => by split <;> simp [ht]) h
@[simp] theorem execRunDispatch_mems (b : Nat) (s : State) (h : s.Mems) : ResMems (execRunDispatch b s) := by
  exact clocked_mems _ _ (fun t ht => by simp [ht]) h


end Sys2Proof.Machine
end

