-- ==== Sys2Proof/Laws/MemTick.lean ====
section
/-! SUPPORT. What the operations and meanings of Machine/Tick.lean do to the two memories: `_keeps` says that both stay as
they were, `_mems` that their canonical form is kept. -/

namespace Sys2Proof.Machine

@[simp] theorem State.settleTick_keeps (s : State) :
    (State.settleTick s).mem = s.mem ∧ (State.settleTick s).hostMem = s.hostMem := by
  simp [State.settleTick]
@[simp] theorem State.settleTick_mems (s : State) : (State.settleTick s).Mems ↔ s.Mems := by
  unfold State.Mems; rw [(State.settleTick_keeps s).1, (State.settleTick_keeps s).2]
@[simp] theorem execEpochStep_keeps (s : State) : ResKeeps s (execEpochStep s) := by
  simp [execEpochStep]
@[simp] theorem execEpochStep_mems (s : State) (h : s.Mems) : ResMems (execEpochStep s) := (execEpochStep_keeps s).mems h
@[simp] theorem execTs32Wrap_keeps (s : State) : ResKeeps s (execTs32Wrap s) := by
  simp [execTs32Wrap]
@[simp] theorem execTs32Wrap_mems (s : State) (h : s.Mems) : ResMems (execTs32Wrap s) := (execTs32Wrap_keeps s).mems h
@[simp] theorem execAnchorPeriodExpiry_keeps (s : State) : ResKeeps s (execAnchorPeriodExpiry s) := by
  simp [execAnchorPeriodExpiry]
@[simp] theorem execAnchorPeriodExpiry_mems (s : State) (h : s.Mems) : ResMems (execAnchorPeriodExpiry s) := (execAnchorPeriodExpiry_keeps s).mems h
@[simp] theorem execServoOffsetApply_keeps (s : State) : ResKeeps s (execServoOffsetApply s) := by
  simp [execServoOffsetApply]
@[simp] theorem execServoOffsetApply_mems (s : State) (h : s.Mems) : ResMems (execServoOffsetApply s) := (execServoOffsetApply_keeps s).mems h
@[simp] theorem State.countWhile_keeps (s : State) (c : Bool) (a : Nat) (n : Nat) :
    (State.countWhile s c a n).mem = s.mem ∧ (State.countWhile s c a n).hostMem = s.hostMem := by
  simp [State.countWhile]
@[simp] theorem State.countWhile_mems (s : State) (c : Bool) (a : Nat) (n : Nat) : (State.countWhile s c a n).Mems ↔ s.Mems := by
  unfold State.Mems; rw [(State.countWhile_keeps s c a n).1, (State.countWhile_keeps s c a n).2]
@[simp] theorem State.countStalls_keeps (s : State) :
    (State.countStalls s).mem = s.mem ∧ (State.countStalls s).hostMem = s.hostMem := by
  simp [State.countStalls]
@[simp] theorem State.countStalls_mems (s : State) : (State.countStalls s).Mems ↔ s.Mems := by
  unfold State.Mems; rw [(State.countStalls_keeps s).1, (State.countStalls_keeps s).2]
@[simp] theorem State.countUs_keeps (s : State) (was : Nat) :
    (State.countUs s was).mem = s.mem ∧ (State.countUs s was).hostMem = s.hostMem := by
  simp [State.countUs]
@[simp] theorem State.countUs_mems (s : State) (was : Nat) : (State.countUs s was).Mems ↔ s.Mems := by
  unfold State.Mems; rw [(State.countUs_keeps s was).1, (State.countUs_keeps s was).2]
@[simp] theorem State.sampleLines_keeps (s : State) :
    (State.sampleLines s).mem = s.mem ∧ (State.sampleLines s).hostMem = s.hostMem := by
  simp [State.sampleLines]
@[simp] theorem State.sampleLines_mems (s : State) : (State.sampleLines s).Mems ↔ s.Mems := by
  unfold State.Mems; rw [(State.sampleLines_keeps s).1, (State.sampleLines_keeps s).2]
@[simp] theorem State.wakeOnTimer_keeps (s : State) :
    (State.wakeOnTimer s).mem = s.mem ∧ (State.wakeOnTimer s).hostMem = s.hostMem := by
  simp [State.wakeOnTimer]
@[simp] theorem State.wakeOnTimer_mems (s : State) : (State.wakeOnTimer s).Mems ↔ s.Mems := by
  unfold State.Mems; rw [(State.wakeOnTimer_keeps s).1, (State.wakeOnTimer_keeps s).2]
@[simp] theorem State.tick_keeps (s : State) :
    (State.tick s).mem = s.mem ∧ (State.tick s).hostMem = s.hostMem := by
  simp [State.tick]
@[simp] theorem State.tick_mems (s : State) : (State.tick s).Mems ↔ s.Mems := by
  unfold State.Mems; rw [(State.tick_keeps s).1, (State.tick_keeps s).2]


end Sys2Proof.Machine
end

