-- ==== Sys2Proof/Laws/PerInstr.lean ====
section
/-! SUPPORT. Statements made once per command. `Shape`: a command of the command pages names the path it came in by, and is
well formed exactly when that is a mailbox (0 to 31, the function) or the Ethernet host path (32). -/

namespace Sys2Proof.Laws.Shape

/-- The path of a command of the command pages; no other command has one. -/
def path : Instr → Option Nat
  | .identify p => some p
  | .getVersion p => some p
  | .reset p => some p
  | .funcSetLimits p => some p
  | .ethSetHost p => some p
  | .memSetEcc p => some p
  | .ctxCreate p => some p
  | .ctxDestroy p => some p
  | .ctxSetRing p => some p
  | .ringSet p => some p
  | .ctxGetInfo p => some p
  | .changesetBegin p => some p
  | .changesetCommit p => some p
  | .changesetAbort p => some p
  | .quiesceCommit p => some p
  | .changesetGetStatus p => some p
  | .changesetSetPolicy p => some p
  | .stageGenerationCommand p => some p
  | .singleCommandCommit p => some p
  | .quiesceDrainEnd _ => none
  | .quiescePauseTimeout _ => none
  | .timeGet p => some p
  | .timeSetServo p => some p
  | .ptpSetPort p => some p
  | .timeStep p => some p
  | .timeSetPins p => some p
  | .timeReadCaptures p => some p
  | .ambSnap _ => none
  | .ambSlewReq _ => none
  | .ambStepCmd _ => none
  | .ambCapPop _ => none
  | .epochStep => none
  | .ts32Wrap => none
  | .anchorPeriodExpiry => none
  | .slewComplete => none
  | .syncReceived _ => none
  | .servoOffsetApply => none
  | .announceReceived _ => none
  | .ptpEventTransmit _ => none
  | .announceTimeout => none
  | .ppsInEdge _ _ => none
  | .ppsInMissed => none
  | .tsCaptureEdge _ _ _ => none
  | .ppsOutSecond => none
  | .ppsOutPulseEnd => none
  | .evportAssign p => some p
  | .evportSetFormat p => some p
  | .evportSetFilters p => some p
  | .evportSetBlocking p => some p
  | .evportGetStats p => some p
  | .sensorXfer p => some p
  | .sensorSetTrigger p => some p
  | .ochSbusGo _ => none
  | .ochSbusDataPop _ => none
  | .ochPnCntClr _ _ => none
  | .csi2PacketReceived _ _ => none
  | .eventDecode _ => none
  | .gapContinues _ _ => none
  | .eventHandoff => none
  | .blockTimeout _ => none
  | .filterMapScrub _ => none
  | .portSilent _ => none
  | .portActivityWindow _ => none
  | .triggerFire _ => none
  | .triggerPulseEnd _ => none
  | .projSetRotor p => some p
  | .projSetImu p => some p
  | .projSetPort p => some p
  | .projSetStack p => some p
  | .projReleaseMap p => some p
  | .projGetState p => some p
  | .cobAngSnap _ => none
  | .cobaltProject => none
  | .encoderEntry _ _ => none
  | .encoderIndex _ => none
  | .ssiPoll _ _ => none
  | .angleTick => none
  | .stackClose _ => none
  | .rotorMap _ => none
  | .imuDrdyEdge _ _ => none
  | .imuSilent => none
  | .featSetSurface p => some p
  | .featSetCorner p => some p
  | .featSetFlow p => some p
  | .featSetTracker p => some p
  | .featSetTick p => some p
  | .featGetStats p => some p
  | .sepSnCntClr _ _ => none
  | .surfaceUpdate => none
  | .cornerTest => none
  | .flowFit => none
  | .decayTick => none
  | .surfaceScrub _ => none
  | .sepiaStagingResume => none
  | .filterSetPort p => some p
  | .filterAssignChannel p => some p
  | .filterSetDerived p => some p
  | .filterLoadCoeffs p => some p
  | .filterSetChain p => some p
  | .filterSetDcblock p => some p
  | .filterFreezeDc p => some p
  | .filterSetThreshold p => some p
  | .filterSetBand p => some p
  | .filterSetSync p => some p
  | .filterGetStats p => some p
  | .umbSyncSw _ => none
  | .tdmFrame _ _ => none
  | .tdmPortSilent _ => none
  | .derivedTick _ => none
  | .chainSample _ => none
  | .filterBlockTimeout _ => none
  | .umberApplyFallback _ => none
  | .sigSyncEdge _ _ => none
  | .umberStagingResume => none
  | .fuseSetRule p => some p
  | .fuseFlush p => some p
  | .fuseGetStats p => some p
  | .virRnCntClr _ _ => none
  | .memberAdmit => none
  | .windowOpen _ => none
  | .windowClose _ => none
  | .fusedRecordStage => none
  | .coregMapScrub => none
  | .inferLoadModel p => some p
  | .inferUnloadModel p => some p
  | .inferBind p => some p
  | .inferRun p => some p
  | .inferGetStats p => some p
  | .bindingInput => none
  | .runDispatch _ => none
  | .runComplete _ => none
  | .replayWindowEnd => none
  | .tileWstallWindow _ => none
  | .approxSetLayers p => some p
  | .approxSetBinding p => some p
  | .approxSetSpeculation p => some p
  | .approxSetVerify p => some p
  | .approxGetStats p => some p
  | .groupForm p => some p
  | .groupDissolve p => some p
  | .groupGetStatus p => some p
  | .tealFrameReceived _ _ => none
  | .tealLossOfLock _ => none
  | .tealRetrainTimeout _ => none
  | .groupBindTimeout p => some p
  | .powerGetStatus p => some p
  | .powerSetDomain p => some p
  | .powerRequestState p => some p
  | .powerSetLatency p => some p
  | .schedSetBudget p => some p
  | .schedSetThermal p => some p
  | .schedSetBinding p => some p
  | .stateEntry => none
  | .wakeEvent _ => none
  | .wakeTimer => none
  | .onDemandAccess _ => none
  | .domainPowerDown _ => none
  | .domainDrainDone _ => none
  | .domainPowerUp _ => none
  | .domainIdleTimeout _ => none
  | .autoDoze => none
  | .tjSample _ => none
  | .budgetWindowBoundary => none
  | .voutReadback _ _ => none
  | .regulatorTimeout => none
  | .batSetString p => some p
  | .batLoadTables p => some p
  | .batSetLevels p => some p
  | .batSetReport p => some p
  | .batSetSoc p => some p
  | .batGetStatus p => some p
  | .batterySample _ => none
  | .batteryReportPeriod => none
  | .accessSetEntry p => some p
  | .accessReadTable p => some p
  | .accessGetFaults p => some p
  | .accessCtxViolations p => some p
  | .grdFaultLatchClear _ _ => none
  | .grdEntryWrite _ _ _ _ => none
  | .internalAccess _ => none
  | .intrSetSource p => some p
  | .intrGetSource p => some p
  | .intrSetpend p => some p
  | .intrHostPending p => some p
  | .intrHostAck p => some p
  | .intrGetStats p => some p
  | .carmSetpend _ => none
  | .carmTnEoi _ _ => none
  | .carmTnStackRst _ _ => none
  | .carmTnHold _ _ => none
  | .sourceLineChange _ _ => none
  | .asyncLatchEdge _ _ => none
  | .moderationHoldoffExpiry _ => none
  | .interruptAcknowledge _ => none
  | .interruptCommit _ => none
  | .hostRelay => none
  | .faultGetStatus p => some p
  | .faultReadLog p => some p
  | .faultEraseLog p => some p
  | .diagSelftest p => some p
  | .debugChallenge p => some p
  | .debugUnlock p => some p
  | .debugLock p => some p
  | .faultMergeRelease _ _ => none
  | .logAppendProgram _ => none
  | .fwGetSlots p => some p
  | .fwBegin p => some p
  | .fwWrite p => some p
  | .fwFinish p => some p
  | .fwHostLoad p => some p
  | .fwCommit p => some p
  | .compatOverride p => some p
  | .porstNRelease _ _ => none
  | .wrstNAssert _ _ => none
  | .voltageDetectorReset _ _ => none
  | .queueGetStatus p => some p
  | .queuePeek p => some p
  | .fabricGetStats p => some p
  | .combineReset p => some p
  | .sendWindowStage _ _ _ _ => none
  | .descriptorCommit _ _ _ => none
  | .stalledCommitAdmit _ => none
  | .queuePop _ _ _ => none
  | .landingWrite => none
  | .sltQnAck _ _ => none
  | .contributionProcess _ => none
  | .combineResultCommit _ => none
  | .sltCnRelease _ _ => none
  | .doorbell _ _ => none
  | .paramIndirectFetchDone _ _ => none
  | .responsePost p => some p
  | .ringTailWrite _ _ _ => none
  | .recordDeliver _ _ => none
  | .ringModerationHoldoff _ _ => none
  | .flr _ => none
  | .functionMasterEnable _ _ _ => none
  | .vfDisable _ => none
  | .ethRequest _ => none
  | .ethUpload _ => none
  | .ethFrameReceived _ => none
  | .pcieLinkChange _ _ _ => none
  | .registerWrite _ => none
  | .tealLinkUp _ => none
  | .ethLinkChange _ _ => none
  | .dphyResyncDone _ => none
  | .sensorBusTransferDone _ _ _ => none
  | .commandDmaFetchDone _ _ => none
  | .flashOperationDone _ => none
  | .groupFormTimeout => none
  | .resetDelayExpiry => none
  | .porstNAssert => none
  | .vfEnable _ => none
  | .ptpMessageReceived _ => none
  | .encoderCountEdge _ => none

/-- A page command is well formed exactly when its path is one. -/
def Statement (i : Instr) : Prop := ∀ p, path i = some p → (i.wf = true ↔ p ≤ 32)

theorem of_page {i : Instr} {p : Nat} (h : path i = some p) (w : i.wf = decide (p ≤ 32)) : Statement i := by
  intro q hq
  rw [h] at hq
  cases hq
  simp [w]

theorem of_other {i : Instr} (h : path i = none) : Statement i := by
  intro q hq
  rw [h] at hq
  cases hq

theorem identify (p : Nat) : Statement (.identify p) := of_page rfl rfl
theorem getVersion (p : Nat) : Statement (.getVersion p) := of_page rfl rfl
theorem reset (p : Nat) : Statement (.reset p) := of_page rfl rfl
theorem funcSetLimits (p : Nat) : Statement (.funcSetLimits p) := of_page rfl rfl
theorem ethSetHost (p : Nat) : Statement (.ethSetHost p) := of_page rfl rfl
theorem memSetEcc (p : Nat) : Statement (.memSetEcc p) := of_page rfl rfl
theorem ctxCreate (p : Nat) : Statement (.ctxCreate p) := of_page rfl rfl
theorem ctxDestroy (p : Nat) : Statement (.ctxDestroy p) := of_page rfl rfl
theorem ctxSetRing (p : Nat) : Statement (.ctxSetRing p) := of_page rfl rfl
theorem ringSet (p : Nat) : Statement (.ringSet p) := of_page rfl rfl
theorem ctxGetInfo (p : Nat) : Statement (.ctxGetInfo p) := of_page rfl rfl
theorem changesetBegin (p : Nat) : Statement (.changesetBegin p) := of_page rfl rfl
theorem changesetCommit (p : Nat) : Statement (.changesetCommit p) := of_page rfl rfl
theorem changesetAbort (p : Nat) : Statement (.changesetAbort p) := of_page rfl rfl
theorem quiesceCommit (p : Nat) : Statement (.quiesceCommit p) := of_page rfl rfl
theorem changesetGetStatus (p : Nat) : Statement (.changesetGetStatus p) := of_page rfl rfl
theorem changesetSetPolicy (p : Nat) : Statement (.changesetSetPolicy p) := of_page rfl rfl
theorem stageGenerationCommand (p : Nat) : Statement (.stageGenerationCommand p) := of_page rfl rfl
theorem singleCommandCommit (p : Nat) : Statement (.singleCommandCommit p) := of_page rfl rfl
theorem quiesceDrainEnd : ∀ x0, Statement (.quiesceDrainEnd x0) := fun _ => of_other rfl
theorem quiescePauseTimeout : ∀ x0, Statement (.quiescePauseTimeout x0) := fun _ => of_other rfl
theorem timeGet (p : Nat) : Statement (.timeGet p) := of_page rfl rfl
theorem timeSetServo (p : Nat) : Statement (.timeSetServo p) := of_page rfl rfl
theorem ptpSetPort (p : Nat) : Statement (.ptpSetPort p) := of_page rfl rfl
theorem timeStep (p : Nat) : Statement (.timeStep p) := of_page rfl rfl
theorem timeSetPins (p : Nat) : Statement (.timeSetPins p) := of_page rfl rfl
theorem timeReadCaptures (p : Nat) : Statement (.timeReadCaptures p) := of_page rfl rfl
theorem ambSnap : ∀ x0, Statement (.ambSnap x0) := fun _ => of_other rfl
theorem ambSlewReq : ∀ x0, Statement (.ambSlewReq x0) := fun _ => of_other rfl
theorem ambStepCmd : ∀ x0, Statement (.ambStepCmd x0) := fun _ => of_other rfl
theorem ambCapPop : ∀ x0, Statement (.ambCapPop x0) := fun _ => of_other rfl
theorem epochStep : Statement (.epochStep) := of_other rfl
theorem ts32Wrap : Statement (.ts32Wrap) := of_other rfl
theorem anchorPeriodExpiry : Statement (.anchorPeriodExpiry) := of_other rfl
theorem slewComplete : Statement (.slewComplete) := of_other rfl
theorem syncReceived : ∀ x0, Statement (.syncReceived x0) := fun _ => of_other rfl
theorem servoOffsetApply : Statement (.servoOffsetApply) := of_other rfl
theorem announceReceived : ∀ x0, Statement (.announceReceived x0) := fun _ => of_other rfl
theorem ptpEventTransmit : ∀ x0, Statement (.ptpEventTransmit x0) := fun _ => of_other rfl
theorem announceTimeout : Statement (.announceTimeout) := of_other rfl
theorem ppsInEdge : ∀ x0 x1, Statement (.ppsInEdge x0 x1) := fun _ _ => of_other rfl
theorem ppsInMissed : Statement (.ppsInMissed) := of_other rfl
theorem tsCaptureEdge : ∀ x0 x1 x2, Statement (.tsCaptureEdge x0 x1 x2) := fun _ _ _ => of_other rfl
theorem ppsOutSecond : Statement (.ppsOutSecond) := of_other rfl
theorem ppsOutPulseEnd : Statement (.ppsOutPulseEnd) := of_other rfl
theorem evportAssign (p : Nat) : Statement (.evportAssign p) := of_page rfl rfl
theorem evportSetFormat (p : Nat) : Statement (.evportSetFormat p) := of_page rfl rfl
theorem evportSetFilters (p : Nat) : Statement (.evportSetFilters p) := of_page rfl rfl
theorem evportSetBlocking (p : Nat) : Statement (.evportSetBlocking p) := of_page rfl rfl
theorem evportGetStats (p : Nat) : Statement (.evportGetStats p) := of_page rfl rfl
theorem sensorXfer (p : Nat) : Statement (.sensorXfer p) := of_page rfl rfl
theorem sensorSetTrigger (p : Nat) : Statement (.sensorSetTrigger p) := of_page rfl rfl
theorem ochSbusGo : ∀ x0, Statement (.ochSbusGo x0) := fun _ => of_other rfl
theorem ochSbusDataPop : ∀ x0, Statement (.ochSbusDataPop x0) := fun _ => of_other rfl
theorem ochPnCntClr : ∀ x0 x1, Statement (.ochPnCntClr x0 x1) := fun _ _ => of_other rfl
theorem csi2PacketReceived : ∀ x0 x1, Statement (.csi2PacketReceived x0 x1) := fun _ _ => of_other rfl
theorem eventDecode : ∀ x0, Statement (.eventDecode x0) := fun _ => of_other rfl
theorem gapContinues : ∀ x0 x1, Statement (.gapContinues x0 x1) := fun _ _ => of_other rfl
theorem eventHandoff : Statement (.eventHandoff) := of_other rfl
theorem blockTimeout : ∀ x0, Statement (.blockTimeout x0) := fun _ => of_other rfl
theorem filterMapScrub : ∀ x0, Statement (.filterMapScrub x0) := fun _ => of_other rfl
theorem portSilent : ∀ x0, Statement (.portSilent x0) := fun _ => of_other rfl
theorem portActivityWindow : ∀ x0, Statement (.portActivityWindow x0) := fun _ => of_other rfl
theorem triggerFire : ∀ x0, Statement (.triggerFire x0) := fun _ => of_other rfl
theorem triggerPulseEnd : ∀ x0, Statement (.triggerPulseEnd x0) := fun _ => of_other rfl
theorem projSetRotor (p : Nat) : Statement (.projSetRotor p) := of_page rfl rfl
theorem projSetImu (p : Nat) : Statement (.projSetImu p) := of_page rfl rfl
theorem projSetPort (p : Nat) : Statement (.projSetPort p) := of_page rfl rfl
theorem projSetStack (p : Nat) : Statement (.projSetStack p) := of_page rfl rfl
theorem projReleaseMap (p : Nat) : Statement (.projReleaseMap p) := of_page rfl rfl
theorem projGetState (p : Nat) : Statement (.projGetState p) := of_page rfl rfl
theorem cobAngSnap : ∀ x0, Statement (.cobAngSnap x0) := fun _ => of_other rfl
theorem cobaltProject : Statement (.cobaltProject) := of_other rfl
theorem encoderEntry : ∀ x0 x1, Statement (.encoderEntry x0 x1) := fun _ _ => of_other rfl
theorem encoderIndex : ∀ x0, Statement (.encoderIndex x0) := fun _ => of_other rfl
theorem ssiPoll : ∀ x0 x1, Statement (.ssiPoll x0 x1) := fun _ _ => of_other rfl
theorem angleTick : Statement (.angleTick) := of_other rfl
theorem stackClose : ∀ x0, Statement (.stackClose x0) := fun _ => of_other rfl
theorem rotorMap : ∀ x0, Statement (.rotorMap x0) := fun _ => of_other rfl
theorem imuDrdyEdge : ∀ x0 x1, Statement (.imuDrdyEdge x0 x1) := fun _ _ => of_other rfl
theorem imuSilent : Statement (.imuSilent) := of_other rfl
theorem featSetSurface (p : Nat) : Statement (.featSetSurface p) := of_page rfl rfl
theorem featSetCorner (p : Nat) : Statement (.featSetCorner p) := of_page rfl rfl
theorem featSetFlow (p : Nat) : Statement (.featSetFlow p) := of_page rfl rfl
theorem featSetTracker (p : Nat) : Statement (.featSetTracker p) := of_page rfl rfl
theorem featSetTick (p : Nat) : Statement (.featSetTick p) := of_page rfl rfl
theorem featGetStats (p : Nat) : Statement (.featGetStats p) := of_page rfl rfl
theorem sepSnCntClr : ∀ x0 x1, Statement (.sepSnCntClr x0 x1) := fun _ _ => of_other rfl
theorem surfaceUpdate : Statement (.surfaceUpdate) := of_other rfl
theorem cornerTest : Statement (.cornerTest) := of_other rfl
theorem flowFit : Statement (.flowFit) := of_other rfl
theorem decayTick : Statement (.decayTick) := of_other rfl
theorem surfaceScrub : ∀ x0, Statement (.surfaceScrub x0) := fun _ => of_other rfl
theorem sepiaStagingResume : Statement (.sepiaStagingResume) := of_other rfl
theorem filterSetPort (p : Nat) : Statement (.filterSetPort p) := of_page rfl rfl
theorem filterAssignChannel (p : Nat) : Statement (.filterAssignChannel p) := of_page rfl rfl
theorem filterSetDerived (p : Nat) : Statement (.filterSetDerived p) := of_page rfl rfl
theorem filterLoadCoeffs (p : Nat) : Statement (.filterLoadCoeffs p) := of_page rfl rfl
theorem filterSetChain (p : Nat) : Statement (.filterSetChain p) := of_page rfl rfl
theorem filterSetDcblock (p : Nat) : Statement (.filterSetDcblock p) := of_page rfl rfl
theorem filterFreezeDc (p : Nat) : Statement (.filterFreezeDc p) := of_page rfl rfl
theorem filterSetThreshold (p : Nat) : Statement (.filterSetThreshold p) := of_page rfl rfl
theorem filterSetBand (p : Nat) : Statement (.filterSetBand p) := of_page rfl rfl
theorem filterSetSync (p : Nat) : Statement (.filterSetSync p) := of_page rfl rfl
theorem filterGetStats (p : Nat) : Statement (.filterGetStats p) := of_page rfl rfl
theorem umbSyncSw : ∀ x0, Statement (.umbSyncSw x0) := fun _ => of_other rfl
theorem tdmFrame : ∀ x0 x1, Statement (.tdmFrame x0 x1) := fun _ _ => of_other rfl
theorem tdmPortSilent : ∀ x0, Statement (.tdmPortSilent x0) := fun _ => of_other rfl
theorem derivedTick : ∀ x0, Statement (.derivedTick x0) := fun _ => of_other rfl
theorem chainSample : ∀ x0, Statement (.chainSample x0) := fun _ => of_other rfl
theorem filterBlockTimeout : ∀ x0, Statement (.filterBlockTimeout x0) := fun _ => of_other rfl
theorem umberApplyFallback : ∀ x0, Statement (.umberApplyFallback x0) := fun _ => of_other rfl
theorem sigSyncEdge : ∀ x0 x1, Statement (.sigSyncEdge x0 x1) := fun _ _ => of_other rfl
theorem umberStagingResume : Statement (.umberStagingResume) := of_other rfl
theorem fuseSetRule (p : Nat) : Statement (.fuseSetRule p) := of_page rfl rfl
theorem fuseFlush (p : Nat) : Statement (.fuseFlush p) := of_page rfl rfl
theorem fuseGetStats (p : Nat) : Statement (.fuseGetStats p) := of_page rfl rfl
theorem virRnCntClr : ∀ x0 x1, Statement (.virRnCntClr x0 x1) := fun _ _ => of_other rfl
theorem memberAdmit : Statement (.memberAdmit) := of_other rfl
theorem windowOpen : ∀ x0, Statement (.windowOpen x0) := fun _ => of_other rfl
theorem windowClose : ∀ x0, Statement (.windowClose x0) := fun _ => of_other rfl
theorem fusedRecordStage : Statement (.fusedRecordStage) := of_other rfl
theorem coregMapScrub : Statement (.coregMapScrub) := of_other rfl
theorem inferLoadModel (p : Nat) : Statement (.inferLoadModel p) := of_page rfl rfl
theorem inferUnloadModel (p : Nat) : Statement (.inferUnloadModel p) := of_page rfl rfl
theorem inferBind (p : Nat) : Statement (.inferBind p) := of_page rfl rfl
theorem inferRun (p : Nat) : Statement (.inferRun p) := of_page rfl rfl
theorem inferGetStats (p : Nat) : Statement (.inferGetStats p) := of_page rfl rfl
theorem bindingInput : Statement (.bindingInput) := of_other rfl
theorem runDispatch : ∀ x0, Statement (.runDispatch x0) := fun _ => of_other rfl
theorem runComplete : ∀ x0, Statement (.runComplete x0) := fun _ => of_other rfl
theorem replayWindowEnd : Statement (.replayWindowEnd) := of_other rfl
theorem tileWstallWindow : ∀ x0, Statement (.tileWstallWindow x0) := fun _ => of_other rfl
theorem approxSetLayers (p : Nat) : Statement (.approxSetLayers p) := of_page rfl rfl
theorem approxSetBinding (p : Nat) : Statement (.approxSetBinding p) := of_page rfl rfl
theorem approxSetSpeculation (p : Nat) : Statement (.approxSetSpeculation p) := of_page rfl rfl
theorem approxSetVerify (p : Nat) : Statement (.approxSetVerify p) := of_page rfl rfl
theorem approxGetStats (p : Nat) : Statement (.approxGetStats p) := of_page rfl rfl
theorem groupForm (p : Nat) : Statement (.groupForm p) := of_page rfl rfl
theorem groupDissolve (p : Nat) : Statement (.groupDissolve p) := of_page rfl rfl
theorem groupGetStatus (p : Nat) : Statement (.groupGetStatus p) := of_page rfl rfl
theorem tealFrameReceived : ∀ x0 x1, Statement (.tealFrameReceived x0 x1) := fun _ _ => of_other rfl
theorem tealLossOfLock : ∀ x0, Statement (.tealLossOfLock x0) := fun _ => of_other rfl
theorem tealRetrainTimeout : ∀ x0, Statement (.tealRetrainTimeout x0) := fun _ => of_other rfl
theorem groupBindTimeout (p : Nat) : Statement (.groupBindTimeout p) := of_page rfl rfl
theorem powerGetStatus (p : Nat) : Statement (.powerGetStatus p) := of_page rfl rfl
theorem powerSetDomain (p : Nat) : Statement (.powerSetDomain p) := of_page rfl rfl
theorem powerRequestState (p : Nat) : Statement (.powerRequestState p) := of_page rfl rfl
theorem powerSetLatency (p : Nat) : Statement (.powerSetLatency p) := of_page rfl rfl
theorem schedSetBudget (p : Nat) : Statement (.schedSetBudget p) := of_page rfl rfl
theorem schedSetThermal (p : Nat) : Statement (.schedSetThermal p) := of_page rfl rfl
theorem schedSetBinding (p : Nat) : Statement (.schedSetBinding p) := of_page rfl rfl
theorem stateEntry : Statement (.stateEntry) := of_other rfl
theorem wakeEvent : ∀ x0, Statement (.wakeEvent x0) := fun _ => of_other rfl
theorem wakeTimer : Statement (.wakeTimer) := of_other rfl
theorem onDemandAccess : ∀ x0, Statement (.onDemandAccess x0) := fun _ => of_other rfl
theorem domainPowerDown : ∀ x0, Statement (.domainPowerDown x0) := fun _ => of_other rfl
theorem domainDrainDone : ∀ x0, Statement (.domainDrainDone x0) := fun _ => of_other rfl
theorem domainPowerUp : ∀ x0, Statement (.domainPowerUp x0) := fun _ => of_other rfl
theorem domainIdleTimeout : ∀ x0, Statement (.domainIdleTimeout x0) := fun _ => of_other rfl
theorem autoDoze : Statement (.autoDoze) := of_other rfl
theorem tjSample : ∀ x0, Statement (.tjSample x0) := fun _ => of_other rfl
theorem budgetWindowBoundary : Statement (.budgetWindowBoundary) := of_other rfl
theorem voutReadback : ∀ x0 x1, Statement (.voutReadback x0 x1) := fun _ _ => of_other rfl
theorem regulatorTimeout : Statement (.regulatorTimeout) := of_other rfl
theorem batSetString (p : Nat) : Statement (.batSetString p) := of_page rfl rfl
theorem batLoadTables (p : Nat) : Statement (.batLoadTables p) := of_page rfl rfl
theorem batSetLevels (p : Nat) : Statement (.batSetLevels p) := of_page rfl rfl
theorem batSetReport (p : Nat) : Statement (.batSetReport p) := of_page rfl rfl
theorem batSetSoc (p : Nat) : Statement (.batSetSoc p) := of_page rfl rfl
theorem batGetStatus (p : Nat) : Statement (.batGetStatus p) := of_page rfl rfl
theorem batterySample : ∀ x0, Statement (.batterySample x0) := fun _ => of_other rfl
theorem batteryReportPeriod : Statement (.batteryReportPeriod) := of_other rfl
theorem accessSetEntry (p : Nat) : Statement (.accessSetEntry p) := of_page rfl rfl
theorem accessReadTable (p : Nat) : Statement (.accessReadTable p) := of_page rfl rfl
theorem accessGetFaults (p : Nat) : Statement (.accessGetFaults p) := of_page rfl rfl
theorem accessCtxViolations (p : Nat) : Statement (.accessCtxViolations p) := of_page rfl rfl
theorem grdFaultLatchClear : ∀ x0 x1, Statement (.grdFaultLatchClear x0 x1) := fun _ _ => of_other rfl
theorem grdEntryWrite : ∀ x0 x1 x2 x3, Statement (.grdEntryWrite x0 x1 x2 x3) := fun _ _ _ _ => of_other rfl
theorem internalAccess : ∀ x0, Statement (.internalAccess x0) := fun _ => of_other rfl
theorem intrSetSource (p : Nat) : Statement (.intrSetSource p) := of_page rfl rfl
theorem intrGetSource (p : Nat) : Statement (.intrGetSource p) := of_page rfl rfl
theorem intrSetpend (p : Nat) : Statement (.intrSetpend p) := of_page rfl rfl
theorem intrHostPending (p : Nat) : Statement (.intrHostPending p) := of_page rfl rfl
theorem intrHostAck (p : Nat) : Statement (.intrHostAck p) := of_page rfl rfl
theorem intrGetStats (p : Nat) : Statement (.intrGetStats p) := of_page rfl rfl
theorem carmSetpend : ∀ x0, Statement (.carmSetpend x0) := fun _ => of_other rfl
theorem carmTnEoi : ∀ x0 x1, Statement (.carmTnEoi x0 x1) := fun _ _ => of_other rfl
theorem carmTnStackRst : ∀ x0 x1, Statement (.carmTnStackRst x0 x1) := fun _ _ => of_other rfl
theorem carmTnHold : ∀ x0 x1, Statement (.carmTnHold x0 x1) := fun _ _ => of_other rfl
theorem sourceLineChange : ∀ x0 x1, Statement (.sourceLineChange x0 x1) := fun _ _ => of_other rfl
theorem asyncLatchEdge : ∀ x0 x1, Statement (.asyncLatchEdge x0 x1) := fun _ _ => of_other rfl
theorem moderationHoldoffExpiry : ∀ x0, Statement (.moderationHoldoffExpiry x0) := fun _ => of_other rfl
theorem interruptAcknowledge : ∀ x0, Statement (.interruptAcknowledge x0) := fun _ => of_other rfl
theorem interruptCommit : ∀ x0, Statement (.interruptCommit x0) := fun _ => of_other rfl
theorem hostRelay : Statement (.hostRelay) := of_other rfl
theorem faultGetStatus (p : Nat) : Statement (.faultGetStatus p) := of_page rfl rfl
theorem faultReadLog (p : Nat) : Statement (.faultReadLog p) := of_page rfl rfl
theorem faultEraseLog (p : Nat) : Statement (.faultEraseLog p) := of_page rfl rfl
theorem diagSelftest (p : Nat) : Statement (.diagSelftest p) := of_page rfl rfl
theorem debugChallenge (p : Nat) : Statement (.debugChallenge p) := of_page rfl rfl
theorem debugUnlock (p : Nat) : Statement (.debugUnlock p) := of_page rfl rfl
theorem debugLock (p : Nat) : Statement (.debugLock p) := of_page rfl rfl
theorem faultMergeRelease : ∀ x0 x1, Statement (.faultMergeRelease x0 x1) := fun _ _ => of_other rfl
theorem logAppendProgram : ∀ x0, Statement (.logAppendProgram x0) := fun _ => of_other rfl
theorem fwGetSlots (p : Nat) : Statement (.fwGetSlots p) := of_page rfl rfl
theorem fwBegin (p : Nat) : Statement (.fwBegin p) := of_page rfl rfl
theorem fwWrite (p : Nat) : Statement (.fwWrite p) := of_page rfl rfl
theorem fwFinish (p : Nat) : Statement (.fwFinish p) := of_page rfl rfl
theorem fwHostLoad (p : Nat) : Statement (.fwHostLoad p) := of_page rfl rfl
theorem fwCommit (p : Nat) : Statement (.fwCommit p) := of_page rfl rfl
theorem compatOverride (p : Nat) : Statement (.compatOverride p) := of_page rfl rfl
theorem porstNRelease : ∀ x0 x1, Statement (.porstNRelease x0 x1) := fun _ _ => of_other rfl
theorem wrstNAssert : ∀ x0 x1, Statement (.wrstNAssert x0 x1) := fun _ _ => of_other rfl
theorem voltageDetectorReset : ∀ x0 x1, Statement (.voltageDetectorReset x0 x1) := fun _ _ => of_other rfl
theorem queueGetStatus (p : Nat) : Statement (.queueGetStatus p) := of_page rfl rfl
theorem queuePeek (p : Nat) : Statement (.queuePeek p) := of_page rfl rfl
theorem fabricGetStats (p : Nat) : Statement (.fabricGetStats p) := of_page rfl rfl
theorem combineReset (p : Nat) : Statement (.combineReset p) := of_page rfl rfl
theorem sendWindowStage : ∀ x0 x1 x2 x3, Statement (.sendWindowStage x0 x1 x2 x3) := fun _ _ _ _ => of_other rfl
theorem descriptorCommit : ∀ x0 x1 x2, Statement (.descriptorCommit x0 x1 x2) := fun _ _ _ => of_other rfl
theorem stalledCommitAdmit : ∀ x0, Statement (.stalledCommitAdmit x0) := fun _ => of_other rfl
theorem queuePop : ∀ x0 x1 x2, Statement (.queuePop x0 x1 x2) := fun _ _ _ => of_other rfl
theorem landingWrite : Statement (.landingWrite) := of_other rfl
theorem sltQnAck : ∀ x0 x1, Statement (.sltQnAck x0 x1) := fun _ _ => of_other rfl
theorem contributionProcess : ∀ x0, Statement (.contributionProcess x0) := fun _ => of_other rfl
theorem combineResultCommit : ∀ x0, Statement (.combineResultCommit x0) := fun _ => of_other rfl
theorem sltCnRelease : ∀ x0 x1, Statement (.sltCnRelease x0 x1) := fun _ _ => of_other rfl
theorem doorbell : ∀ x0 x1, Statement (.doorbell x0 x1) := fun _ _ => of_other rfl
theorem paramIndirectFetchDone : ∀ x0 x1, Statement (.paramIndirectFetchDone x0 x1) := fun _ _ => of_other rfl
theorem responsePost (p : Nat) : Statement (.responsePost p) := of_page rfl rfl
theorem ringTailWrite : ∀ x0 x1 x2, Statement (.ringTailWrite x0 x1 x2) := fun _ _ _ => of_other rfl
theorem recordDeliver : ∀ x0 x1, Statement (.recordDeliver x0 x1) := fun _ _ => of_other rfl
theorem ringModerationHoldoff : ∀ x0 x1, Statement (.ringModerationHoldoff x0 x1) := fun _ _ => of_other rfl
theorem flr : ∀ x0, Statement (.flr x0) := fun _ => of_other rfl
theorem functionMasterEnable : ∀ x0 x1 x2, Statement (.functionMasterEnable x0 x1 x2) := fun _ _ _ => of_other rfl
theorem vfDisable : ∀ x0, Statement (.vfDisable x0) := fun _ => of_other rfl
theorem ethRequest : ∀ x0, Statement (.ethRequest x0) := fun _ => of_other rfl
theorem ethUpload : ∀ x0, Statement (.ethUpload x0) := fun _ => of_other rfl
theorem ethFrameReceived : ∀ x0, Statement (.ethFrameReceived x0) := fun _ => of_other rfl
theorem pcieLinkChange : ∀ x0 x1 x2, Statement (.pcieLinkChange x0 x1 x2) := fun _ _ _ => of_other rfl
theorem registerWrite : ∀ x0, Statement (.registerWrite x0) := fun _ => of_other rfl
theorem tealLinkUp : ∀ x0, Statement (.tealLinkUp x0) := fun _ => of_other rfl
theorem ethLinkChange : ∀ x0 x1, Statement (.ethLinkChange x0 x1) := fun _ _ => of_other rfl
theorem dphyResyncDone : ∀ x0, Statement (.dphyResyncDone x0) := fun _ => of_other rfl
theorem sensorBusTransferDone : ∀ x0 x1 x2, Statement (.sensorBusTransferDone x0 x1 x2) := fun _ _ _ => of_other rfl
theorem commandDmaFetchDone : ∀ x0 x1, Statement (.commandDmaFetchDone x0 x1) := fun _ _ => of_other rfl
theorem flashOperationDone : ∀ x0, Statement (.flashOperationDone x0) := fun _ => of_other rfl
theorem groupFormTimeout : Statement (.groupFormTimeout) := of_other rfl
theorem resetDelayExpiry : Statement (.resetDelayExpiry) := of_other rfl
theorem porstNAssert : Statement (.porstNAssert) := of_other rfl
theorem vfEnable : ∀ x0, Statement (.vfEnable x0) := fun _ => of_other rfl
theorem ptpMessageReceived : ∀ x0, Statement (.ptpMessageReceived x0) := fun _ => of_other rfl
theorem encoderCountEdge : ∀ x0, Statement (.encoderCountEdge x0) := fun _ => of_other rfl

end Sys2Proof.Laws.Shape
end

