-- ==== Sys2Proof/Laws/State.lean ====
section
/-! SUPPORT. What each update of State leaves as it was: one lemma for every field that the update does not write. -/

namespace Sys2Proof.Machine

@[simp] theorem State.setReg_pending (s : State) (a : Nat) (v : Sys2Proof.Word) : (s.setReg a v).pending = s.pending := rfl
@[simp] theorem State.setReg_mem (s : State) (a : Nat) (v : Sys2Proof.Word) : (s.setReg a v).mem = s.mem := rfl
@[simp] theorem State.setReg_hostMem (s : State) (a : Nat) (v : Sys2Proof.Word) : (s.setReg a v).hostMem = s.hostMem := rfl
@[simp] theorem State.setReg_wire (s : State) (a : Nat) (v : Sys2Proof.Word) : (s.setReg a v).wire = s.wire := rfl
@[simp] theorem State.setReg_readData (s : State) (a : Nat) (v : Sys2Proof.Word) : (s.setReg a v).readData = s.readData := rfl
@[simp] theorem State.setReg_readErr (s : State) (a : Nat) (v : Sys2Proof.Word) : (s.setReg a v).readErr = s.readErr := rfl
@[simp] theorem State.setReg_board (s : State) (a : Nat) (v : Sys2Proof.Word) : (s.setReg a v).board = s.board := rfl
@[simp] theorem State.setReg_sys (s : State) (a : Nat) (v : Sys2Proof.Word) : (s.setReg a v).sys = s.sys := rfl
@[simp] theorem State.setReg_amber (s : State) (a : Nat) (v : Sys2Proof.Word) : (s.setReg a v).amber = s.amber := rfl
@[simp] theorem State.setReg_host (s : State) (a : Nat) (v : Sys2Proof.Word) : (s.setReg a v).host = s.host := rfl
@[simp] theorem State.setReg_ochre (s : State) (a : Nat) (v : Sys2Proof.Word) : (s.setReg a v).ochre = s.ochre := rfl
@[simp] theorem State.setReg_cobalt (s : State) (a : Nat) (v : Sys2Proof.Word) : (s.setReg a v).cobalt = s.cobalt := rfl
@[simp] theorem State.setReg_sepia (s : State) (a : Nat) (v : Sys2Proof.Word) : (s.setReg a v).sepia = s.sepia := rfl
@[simp] theorem State.setReg_umber (s : State) (a : Nat) (v : Sys2Proof.Word) : (s.setReg a v).umber = s.umber := rfl
@[simp] theorem State.setReg_viridian (s : State) (a : Nat) (v : Sys2Proof.Word) : (s.setReg a v).viridian = s.viridian := rfl
@[simp] theorem State.setReg_indigo (s : State) (a : Nat) (v : Sys2Proof.Word) : (s.setReg a v).indigo = s.indigo := rfl
@[simp] theorem State.setReg_slate (s : State) (a : Nat) (v : Sys2Proof.Word) : (s.setReg a v).slate = s.slate := rfl
@[simp] theorem State.setReg_carmine (s : State) (a : Nat) (v : Sys2Proof.Word) : (s.setReg a v).carmine = s.carmine := rfl
@[simp] theorem State.setReg_ivory (s : State) (a : Nat) (v : Sys2Proof.Word) : (s.setReg a v).ivory = s.ivory := rfl
@[simp] theorem State.setReg_sable (s : State) (a : Nat) (v : Sys2Proof.Word) : (s.setReg a v).sable = s.sable := rfl
@[simp] theorem State.setReg_faults (s : State) (a : Nat) (v : Sys2Proof.Word) : (s.setReg a v).faults = s.faults := rfl
@[simp] theorem State.setReg_freeCtr (s : State) (a : Nat) (v : Sys2Proof.Word) : (s.setReg a v).freeCtr = s.freeCtr := rfl

@[simp] theorem State.bump_pending (s : State) (a : Nat) (n : optParam Nat 1) : (s.bump a n).pending = s.pending := rfl
@[simp] theorem State.bump_mem (s : State) (a : Nat) (n : optParam Nat 1) : (s.bump a n).mem = s.mem := rfl
@[simp] theorem State.bump_hostMem (s : State) (a : Nat) (n : optParam Nat 1) : (s.bump a n).hostMem = s.hostMem := rfl
@[simp] theorem State.bump_wire (s : State) (a : Nat) (n : optParam Nat 1) : (s.bump a n).wire = s.wire := rfl
@[simp] theorem State.bump_readData (s : State) (a : Nat) (n : optParam Nat 1) : (s.bump a n).readData = s.readData := rfl
@[simp] theorem State.bump_readErr (s : State) (a : Nat) (n : optParam Nat 1) : (s.bump a n).readErr = s.readErr := rfl
@[simp] theorem State.bump_board (s : State) (a : Nat) (n : optParam Nat 1) : (s.bump a n).board = s.board := rfl
@[simp] theorem State.bump_sys (s : State) (a : Nat) (n : optParam Nat 1) : (s.bump a n).sys = s.sys := rfl
@[simp] theorem State.bump_amber (s : State) (a : Nat) (n : optParam Nat 1) : (s.bump a n).amber = s.amber := rfl
@[simp] theorem State.bump_host (s : State) (a : Nat) (n : optParam Nat 1) : (s.bump a n).host = s.host := rfl
@[simp] theorem State.bump_ochre (s : State) (a : Nat) (n : optParam Nat 1) : (s.bump a n).ochre = s.ochre := rfl
@[simp] theorem State.bump_cobalt (s : State) (a : Nat) (n : optParam Nat 1) : (s.bump a n).cobalt = s.cobalt := rfl
@[simp] theorem State.bump_sepia (s : State) (a : Nat) (n : optParam Nat 1) : (s.bump a n).sepia = s.sepia := rfl
@[simp] theorem State.bump_umber (s : State) (a : Nat) (n : optParam Nat 1) : (s.bump a n).umber = s.umber := rfl
@[simp] theorem State.bump_viridian (s : State) (a : Nat) (n : optParam Nat 1) : (s.bump a n).viridian = s.viridian := rfl
@[simp] theorem State.bump_indigo (s : State) (a : Nat) (n : optParam Nat 1) : (s.bump a n).indigo = s.indigo := rfl
@[simp] theorem State.bump_slate (s : State) (a : Nat) (n : optParam Nat 1) : (s.bump a n).slate = s.slate := rfl
@[simp] theorem State.bump_carmine (s : State) (a : Nat) (n : optParam Nat 1) : (s.bump a n).carmine = s.carmine := rfl
@[simp] theorem State.bump_ivory (s : State) (a : Nat) (n : optParam Nat 1) : (s.bump a n).ivory = s.ivory := rfl
@[simp] theorem State.bump_sable (s : State) (a : Nat) (n : optParam Nat 1) : (s.bump a n).sable = s.sable := rfl
@[simp] theorem State.bump_faults (s : State) (a : Nat) (n : optParam Nat 1) : (s.bump a n).faults = s.faults := rfl
@[simp] theorem State.bump_freeCtr (s : State) (a : Nat) (n : optParam Nat 1) : (s.bump a n).freeCtr = s.freeCtr := rfl

@[simp] theorem State.bumpSat_pending (s : State) (a : Nat) (n : optParam Nat 1) : (s.bumpSat a n).pending = s.pending := rfl
@[simp] theorem State.bumpSat_mem (s : State) (a : Nat) (n : optParam Nat 1) : (s.bumpSat a n).mem = s.mem := rfl
@[simp] theorem State.bumpSat_hostMem (s : State) (a : Nat) (n : optParam Nat 1) : (s.bumpSat a n).hostMem = s.hostMem := rfl
@[simp] theorem State.bumpSat_wire (s : State) (a : Nat) (n : optParam Nat 1) : (s.bumpSat a n).wire = s.wire := rfl
@[simp] theorem State.bumpSat_readData (s : State) (a : Nat) (n : optParam Nat 1) : (s.bumpSat a n).readData = s.readData := rfl
@[simp] theorem State.bumpSat_readErr (s : State) (a : Nat) (n : optParam Nat 1) : (s.bumpSat a n).readErr = s.readErr := rfl
@[simp] theorem State.bumpSat_board (s : State) (a : Nat) (n : optParam Nat 1) : (s.bumpSat a n).board = s.board := rfl
@[simp] theorem State.bumpSat_sys (s : State) (a : Nat) (n : optParam Nat 1) : (s.bumpSat a n).sys = s.sys := rfl
@[simp] theorem State.bumpSat_amber (s : State) (a : Nat) (n : optParam Nat 1) : (s.bumpSat a n).amber = s.amber := rfl
@[simp] theorem State.bumpSat_host (s : State) (a : Nat) (n : optParam Nat 1) : (s.bumpSat a n).host = s.host := rfl
@[simp] theorem State.bumpSat_ochre (s : State) (a : Nat) (n : optParam Nat 1) : (s.bumpSat a n).ochre = s.ochre := rfl
@[simp] theorem State.bumpSat_cobalt (s : State) (a : Nat) (n : optParam Nat 1) : (s.bumpSat a n).cobalt = s.cobalt := rfl
@[simp] theorem State.bumpSat_sepia (s : State) (a : Nat) (n : optParam Nat 1) : (s.bumpSat a n).sepia = s.sepia := rfl
@[simp] theorem State.bumpSat_umber (s : State) (a : Nat) (n : optParam Nat 1) : (s.bumpSat a n).umber = s.umber := rfl
@[simp] theorem State.bumpSat_viridian (s : State) (a : Nat) (n : optParam Nat 1) : (s.bumpSat a n).viridian = s.viridian := rfl
@[simp] theorem State.bumpSat_indigo (s : State) (a : Nat) (n : optParam Nat 1) : (s.bumpSat a n).indigo = s.indigo := rfl
@[simp] theorem State.bumpSat_slate (s : State) (a : Nat) (n : optParam Nat 1) : (s.bumpSat a n).slate = s.slate := rfl
@[simp] theorem State.bumpSat_carmine (s : State) (a : Nat) (n : optParam Nat 1) : (s.bumpSat a n).carmine = s.carmine := rfl
@[simp] theorem State.bumpSat_ivory (s : State) (a : Nat) (n : optParam Nat 1) : (s.bumpSat a n).ivory = s.ivory := rfl
@[simp] theorem State.bumpSat_sable (s : State) (a : Nat) (n : optParam Nat 1) : (s.bumpSat a n).sable = s.sable := rfl
@[simp] theorem State.bumpSat_faults (s : State) (a : Nat) (n : optParam Nat 1) : (s.bumpSat a n).faults = s.faults := rfl
@[simp] theorem State.bumpSat_freeCtr (s : State) (a : Nat) (n : optParam Nat 1) : (s.bumpSat a n).freeCtr = s.freeCtr := rfl

@[simp] theorem State.setReg64_pending (s : State) (a : Nat) (v : Nat) : (s.setReg64 a v).pending = s.pending := rfl
@[simp] theorem State.setReg64_mem (s : State) (a : Nat) (v : Nat) : (s.setReg64 a v).mem = s.mem := rfl
@[simp] theorem State.setReg64_hostMem (s : State) (a : Nat) (v : Nat) : (s.setReg64 a v).hostMem = s.hostMem := rfl
@[simp] theorem State.setReg64_wire (s : State) (a : Nat) (v : Nat) : (s.setReg64 a v).wire = s.wire := rfl
@[simp] theorem State.setReg64_readData (s : State) (a : Nat) (v : Nat) : (s.setReg64 a v).readData = s.readData := rfl
@[simp] theorem State.setReg64_readErr (s : State) (a : Nat) (v : Nat) : (s.setReg64 a v).readErr = s.readErr := rfl
@[simp] theorem State.setReg64_board (s : State) (a : Nat) (v : Nat) : (s.setReg64 a v).board = s.board := rfl
@[simp] theorem State.setReg64_sys (s : State) (a : Nat) (v : Nat) : (s.setReg64 a v).sys = s.sys := rfl
@[simp] theorem State.setReg64_amber (s : State) (a : Nat) (v : Nat) : (s.setReg64 a v).amber = s.amber := rfl
@[simp] theorem State.setReg64_host (s : State) (a : Nat) (v : Nat) : (s.setReg64 a v).host = s.host := rfl
@[simp] theorem State.setReg64_ochre (s : State) (a : Nat) (v : Nat) : (s.setReg64 a v).ochre = s.ochre := rfl
@[simp] theorem State.setReg64_cobalt (s : State) (a : Nat) (v : Nat) : (s.setReg64 a v).cobalt = s.cobalt := rfl
@[simp] theorem State.setReg64_sepia (s : State) (a : Nat) (v : Nat) : (s.setReg64 a v).sepia = s.sepia := rfl
@[simp] theorem State.setReg64_umber (s : State) (a : Nat) (v : Nat) : (s.setReg64 a v).umber = s.umber := rfl
@[simp] theorem State.setReg64_viridian (s : State) (a : Nat) (v : Nat) : (s.setReg64 a v).viridian = s.viridian := rfl
@[simp] theorem State.setReg64_indigo (s : State) (a : Nat) (v : Nat) : (s.setReg64 a v).indigo = s.indigo := rfl
@[simp] theorem State.setReg64_slate (s : State) (a : Nat) (v : Nat) : (s.setReg64 a v).slate = s.slate := rfl
@[simp] theorem State.setReg64_carmine (s : State) (a : Nat) (v : Nat) : (s.setReg64 a v).carmine = s.carmine := rfl
@[simp] theorem State.setReg64_ivory (s : State) (a : Nat) (v : Nat) : (s.setReg64 a v).ivory = s.ivory := rfl
@[simp] theorem State.setReg64_sable (s : State) (a : Nat) (v : Nat) : (s.setReg64 a v).sable = s.sable := rfl
@[simp] theorem State.setReg64_faults (s : State) (a : Nat) (v : Nat) : (s.setReg64 a v).faults = s.faults := rfl
@[simp] theorem State.setReg64_freeCtr (s : State) (a : Nat) (v : Nat) : (s.setReg64 a v).freeCtr = s.freeCtr := rfl

@[simp] theorem State.setRegFld_pending (s : State) (a : Nat) (hi : Nat) (lo : Nat) (v : Nat) : (s.setRegFld a hi lo v).pending = s.pending := rfl
@[simp] theorem State.setRegFld_mem (s : State) (a : Nat) (hi : Nat) (lo : Nat) (v : Nat) : (s.setRegFld a hi lo v).mem = s.mem := rfl
@[simp] theorem State.setRegFld_hostMem (s : State) (a : Nat) (hi : Nat) (lo : Nat) (v : Nat) : (s.setRegFld a hi lo v).hostMem = s.hostMem := rfl
@[simp] theorem State.setRegFld_wire (s : State) (a : Nat) (hi : Nat) (lo : Nat) (v : Nat) : (s.setRegFld a hi lo v).wire = s.wire := rfl
@[simp] theorem State.setRegFld_readData (s : State) (a : Nat) (hi : Nat) (lo : Nat) (v : Nat) : (s.setRegFld a hi lo v).readData = s.readData := rfl
@[simp] theorem State.setRegFld_readErr (s : State) (a : Nat) (hi : Nat) (lo : Nat) (v : Nat) : (s.setRegFld a hi lo v).readErr = s.readErr := rfl
@[simp] theorem State.setRegFld_board (s : State) (a : Nat) (hi : Nat) (lo : Nat) (v : Nat) : (s.setRegFld a hi lo v).board = s.board := rfl
@[simp] theorem State.setRegFld_sys (s : State) (a : Nat) (hi : Nat) (lo : Nat) (v : Nat) : (s.setRegFld a hi lo v).sys = s.sys := rfl
@[simp] theorem State.setRegFld_amber (s : State) (a : Nat) (hi : Nat) (lo : Nat) (v : Nat) : (s.setRegFld a hi lo v).amber = s.amber := rfl
@[simp] theorem State.setRegFld_host (s : State) (a : Nat) (hi : Nat) (lo : Nat) (v : Nat) : (s.setRegFld a hi lo v).host = s.host := rfl
@[simp] theorem State.setRegFld_ochre (s : State) (a : Nat) (hi : Nat) (lo : Nat) (v : Nat) : (s.setRegFld a hi lo v).ochre = s.ochre := rfl
@[simp] theorem State.setRegFld_cobalt (s : State) (a : Nat) (hi : Nat) (lo : Nat) (v : Nat) : (s.setRegFld a hi lo v).cobalt = s.cobalt := rfl
@[simp] theorem State.setRegFld_sepia (s : State) (a : Nat) (hi : Nat) (lo : Nat) (v : Nat) : (s.setRegFld a hi lo v).sepia = s.sepia := rfl
@[simp] theorem State.setRegFld_umber (s : State) (a : Nat) (hi : Nat) (lo : Nat) (v : Nat) : (s.setRegFld a hi lo v).umber = s.umber := rfl
@[simp] theorem State.setRegFld_viridian (s : State) (a : Nat) (hi : Nat) (lo : Nat) (v : Nat) : (s.setRegFld a hi lo v).viridian = s.viridian := rfl
@[simp] theorem State.setRegFld_indigo (s : State) (a : Nat) (hi : Nat) (lo : Nat) (v : Nat) : (s.setRegFld a hi lo v).indigo = s.indigo := rfl
@[simp] theorem State.setRegFld_slate (s : State) (a : Nat) (hi : Nat) (lo : Nat) (v : Nat) : (s.setRegFld a hi lo v).slate = s.slate := rfl
@[simp] theorem State.setRegFld_carmine (s : State) (a : Nat) (hi : Nat) (lo : Nat) (v : Nat) : (s.setRegFld a hi lo v).carmine = s.carmine := rfl
@[simp] theorem State.setRegFld_ivory (s : State) (a : Nat) (hi : Nat) (lo : Nat) (v : Nat) : (s.setRegFld a hi lo v).ivory = s.ivory := rfl
@[simp] theorem State.setRegFld_sable (s : State) (a : Nat) (hi : Nat) (lo : Nat) (v : Nat) : (s.setRegFld a hi lo v).sable = s.sable := rfl
@[simp] theorem State.setRegFld_faults (s : State) (a : Nat) (hi : Nat) (lo : Nat) (v : Nat) : (s.setRegFld a hi lo v).faults = s.faults := rfl
@[simp] theorem State.setRegFld_freeCtr (s : State) (a : Nat) (hi : Nat) (lo : Nat) (v : Nat) : (s.setRegFld a hi lo v).freeCtr = s.freeCtr := rfl


@[simp] theorem State.modHost_pending (s : State) (f : HostIf → HostIf) : (s.modHost f).pending = s.pending := rfl
@[simp] theorem State.modHost_regs (s : State) (f : HostIf → HostIf) : (s.modHost f).regs = s.regs := rfl
@[simp] theorem State.modHost_mem (s : State) (f : HostIf → HostIf) : (s.modHost f).mem = s.mem := rfl
@[simp] theorem State.modHost_hostMem (s : State) (f : HostIf → HostIf) : (s.modHost f).hostMem = s.hostMem := rfl
@[simp] theorem State.modHost_wire (s : State) (f : HostIf → HostIf) : (s.modHost f).wire = s.wire := rfl
@[simp] theorem State.modHost_readData (s : State) (f : HostIf → HostIf) : (s.modHost f).readData = s.readData := rfl
@[simp] theorem State.modHost_readErr (s : State) (f : HostIf → HostIf) : (s.modHost f).readErr = s.readErr := rfl
@[simp] theorem State.modHost_board (s : State) (f : HostIf → HostIf) : (s.modHost f).board = s.board := rfl
@[simp] theorem State.modHost_sys (s : State) (f : HostIf → HostIf) : (s.modHost f).sys = s.sys := rfl
@[simp] theorem State.modHost_amber (s : State) (f : HostIf → HostIf) : (s.modHost f).amber = s.amber := rfl
@[simp] theorem State.modHost_ochre (s : State) (f : HostIf → HostIf) : (s.modHost f).ochre = s.ochre := rfl
@[simp] theorem State.modHost_cobalt (s : State) (f : HostIf → HostIf) : (s.modHost f).cobalt = s.cobalt := rfl
@[simp] theorem State.modHost_sepia (s : State) (f : HostIf → HostIf) : (s.modHost f).sepia = s.sepia := rfl
@[simp] theorem State.modHost_umber (s : State) (f : HostIf → HostIf) : (s.modHost f).umber = s.umber := rfl
@[simp] theorem State.modHost_viridian (s : State) (f : HostIf → HostIf) : (s.modHost f).viridian = s.viridian := rfl
@[simp] theorem State.modHost_indigo (s : State) (f : HostIf → HostIf) : (s.modHost f).indigo = s.indigo := rfl
@[simp] theorem State.modHost_slate (s : State) (f : HostIf → HostIf) : (s.modHost f).slate = s.slate := rfl
@[simp] theorem State.modHost_carmine (s : State) (f : HostIf → HostIf) : (s.modHost f).carmine = s.carmine := rfl
@[simp] theorem State.modHost_ivory (s : State) (f : HostIf → HostIf) : (s.modHost f).ivory = s.ivory := rfl
@[simp] theorem State.modHost_sable (s : State) (f : HostIf → HostIf) : (s.modHost f).sable = s.sable := rfl
@[simp] theorem State.modHost_faults (s : State) (f : HostIf → HostIf) : (s.modHost f).faults = s.faults := rfl
@[simp] theorem State.modHost_freeCtr (s : State) (f : HostIf → HostIf) : (s.modHost f).freeCtr = s.freeCtr := rfl

@[simp] theorem State.setFunc_pending (s : State) (f : Nat) (x : Func) : (s.setFunc f x).pending = s.pending := rfl
@[simp] theorem State.setFunc_regs (s : State) (f : Nat) (x : Func) : (s.setFunc f x).regs = s.regs := rfl
@[simp] theorem State.setFunc_mem (s : State) (f : Nat) (x : Func) : (s.setFunc f x).mem = s.mem := rfl
@[simp] theorem State.setFunc_hostMem (s : State) (f : Nat) (x : Func) : (s.setFunc f x).hostMem = s.hostMem := rfl
@[simp] theorem State.setFunc_wire (s : State) (f : Nat) (x : Func) : (s.setFunc f x).wire = s.wire := rfl
@[simp] theorem State.setFunc_readData (s : State) (f : Nat) (x : Func) : (s.setFunc f x).readData = s.readData := rfl
@[simp] theorem State.setFunc_readErr (s : State) (f : Nat) (x : Func) : (s.setFunc f x).readErr = s.readErr := rfl
@[simp] theorem State.setFunc_board (s : State) (f : Nat) (x : Func) : (s.setFunc f x).board = s.board := rfl
@[simp] theorem State.setFunc_sys (s : State) (f : Nat) (x : Func) : (s.setFunc f x).sys = s.sys := rfl
@[simp] theorem State.setFunc_amber (s : State) (f : Nat) (x : Func) : (s.setFunc f x).amber = s.amber := rfl
@[simp] theorem State.setFunc_ochre (s : State) (f : Nat) (x : Func) : (s.setFunc f x).ochre = s.ochre := rfl
@[simp] theorem State.setFunc_cobalt (s : State) (f : Nat) (x : Func) : (s.setFunc f x).cobalt = s.cobalt := rfl
@[simp] theorem State.setFunc_sepia (s : State) (f : Nat) (x : Func) : (s.setFunc f x).sepia = s.sepia := rfl
@[simp] theorem State.setFunc_umber (s : State) (f : Nat) (x : Func) : (s.setFunc f x).umber = s.umber := rfl
@[simp] theorem State.setFunc_viridian (s : State) (f : Nat) (x : Func) : (s.setFunc f x).viridian = s.viridian := rfl
@[simp] theorem State.setFunc_indigo (s : State) (f : Nat) (x : Func) : (s.setFunc f x).indigo = s.indigo := rfl
@[simp] theorem State.setFunc_slate (s : State) (f : Nat) (x : Func) : (s.setFunc f x).slate = s.slate := rfl
@[simp] theorem State.setFunc_carmine (s : State) (f : Nat) (x : Func) : (s.setFunc f x).carmine = s.carmine := rfl
@[simp] theorem State.setFunc_ivory (s : State) (f : Nat) (x : Func) : (s.setFunc f x).ivory = s.ivory := rfl
@[simp] theorem State.setFunc_sable (s : State) (f : Nat) (x : Func) : (s.setFunc f x).sable = s.sable := rfl
@[simp] theorem State.setFunc_faults (s : State) (f : Nat) (x : Func) : (s.setFunc f x).faults = s.faults := rfl
@[simp] theorem State.setFunc_freeCtr (s : State) (f : Nat) (x : Func) : (s.setFunc f x).freeCtr = s.freeCtr := rfl

@[simp] theorem State.setCtx_pending (s : State) (c : Nat) (x : Ctx) : (s.setCtx c x).pending = s.pending := rfl
@[simp] theorem State.setCtx_regs (s : State) (c : Nat) (x : Ctx) : (s.setCtx c x).regs = s.regs := rfl
@[simp] theorem State.setCtx_mem (s : State) (c : Nat) (x : Ctx) : (s.setCtx c x).mem = s.mem := rfl
@[simp] theorem State.setCtx_hostMem (s : State) (c : Nat) (x : Ctx) : (s.setCtx c x).hostMem = s.hostMem := rfl
@[simp] theorem State.setCtx_wire (s : State) (c : Nat) (x : Ctx) : (s.setCtx c x).wire = s.wire := rfl
@[simp] theorem State.setCtx_readData (s : State) (c : Nat) (x : Ctx) : (s.setCtx c x).readData = s.readData := rfl
@[simp] theorem State.setCtx_readErr (s : State) (c : Nat) (x : Ctx) : (s.setCtx c x).readErr = s.readErr := rfl
@[simp] theorem State.setCtx_board (s : State) (c : Nat) (x : Ctx) : (s.setCtx c x).board = s.board := rfl
@[simp] theorem State.setCtx_sys (s : State) (c : Nat) (x : Ctx) : (s.setCtx c x).sys = s.sys := rfl
@[simp] theorem State.setCtx_amber (s : State) (c : Nat) (x : Ctx) : (s.setCtx c x).amber = s.amber := rfl
@[simp] theorem State.setCtx_ochre (s : State) (c : Nat) (x : Ctx) : (s.setCtx c x).ochre = s.ochre := rfl
@[simp] theorem State.setCtx_cobalt (s : State) (c : Nat) (x : Ctx) : (s.setCtx c x).cobalt = s.cobalt := rfl
@[simp] theorem State.setCtx_sepia (s : State) (c : Nat) (x : Ctx) : (s.setCtx c x).sepia = s.sepia := rfl
@[simp] theorem State.setCtx_umber (s : State) (c : Nat) (x : Ctx) : (s.setCtx c x).umber = s.umber := rfl
@[simp] theorem State.setCtx_viridian (s : State) (c : Nat) (x : Ctx) : (s.setCtx c x).viridian = s.viridian := rfl
@[simp] theorem State.setCtx_indigo (s : State) (c : Nat) (x : Ctx) : (s.setCtx c x).indigo = s.indigo := rfl
@[simp] theorem State.setCtx_slate (s : State) (c : Nat) (x : Ctx) : (s.setCtx c x).slate = s.slate := rfl
@[simp] theorem State.setCtx_carmine (s : State) (c : Nat) (x : Ctx) : (s.setCtx c x).carmine = s.carmine := rfl
@[simp] theorem State.setCtx_ivory (s : State) (c : Nat) (x : Ctx) : (s.setCtx c x).ivory = s.ivory := rfl
@[simp] theorem State.setCtx_sable (s : State) (c : Nat) (x : Ctx) : (s.setCtx c x).sable = s.sable := rfl
@[simp] theorem State.setCtx_faults (s : State) (c : Nat) (x : Ctx) : (s.setCtx c x).faults = s.faults := rfl
@[simp] theorem State.setCtx_freeCtr (s : State) (c : Nat) (x : Ctx) : (s.setCtx c x).freeCtr = s.freeCtr := rfl

@[simp] theorem State.setRing_pending (s : State) (f : Nat) (r : Nat) (x : Ring) : (s.setRing f r x).pending = s.pending := rfl
@[simp] theorem State.setRing_regs (s : State) (f : Nat) (r : Nat) (x : Ring) : (s.setRing f r x).regs = s.regs := rfl
@[simp] theorem State.setRing_mem (s : State) (f : Nat) (r : Nat) (x : Ring) : (s.setRing f r x).mem = s.mem := rfl
@[simp] theorem State.setRing_hostMem (s : State) (f : Nat) (r : Nat) (x : Ring) : (s.setRing f r x).hostMem = s.hostMem := rfl
@[simp] theorem State.setRing_wire (s : State) (f : Nat) (r : Nat) (x : Ring) : (s.setRing f r x).wire = s.wire := rfl
@[simp] theorem State.setRing_readData (s : State) (f : Nat) (r : Nat) (x : Ring) : (s.setRing f r x).readData = s.readData := rfl
@[simp] theorem State.setRing_readErr (s : State) (f : Nat) (r : Nat) (x : Ring) : (s.setRing f r x).readErr = s.readErr := rfl
@[simp] theorem State.setRing_board (s : State) (f : Nat) (r : Nat) (x : Ring) : (s.setRing f r x).board = s.board := rfl
@[simp] theorem State.setRing_sys (s : State) (f : Nat) (r : Nat) (x : Ring) : (s.setRing f r x).sys = s.sys := rfl
@[simp] theorem State.setRing_amber (s : State) (f : Nat) (r : Nat) (x : Ring) : (s.setRing f r x).amber = s.amber := rfl
@[simp] theorem State.setRing_ochre (s : State) (f : Nat) (r : Nat) (x : Ring) : (s.setRing f r x).ochre = s.ochre := rfl
@[simp] theorem State.setRing_cobalt (s : State) (f : Nat) (r : Nat) (x : Ring) : (s.setRing f r x).cobalt = s.cobalt := rfl
@[simp] theorem State.setRing_sepia (s : State) (f : Nat) (r : Nat) (x : Ring) : (s.setRing f r x).sepia = s.sepia := rfl
@[simp] theorem State.setRing_umber (s : State) (f : Nat) (r : Nat) (x : Ring) : (s.setRing f r x).umber = s.umber := rfl
@[simp] theorem State.setRing_viridian (s : State) (f : Nat) (r : Nat) (x : Ring) : (s.setRing f r x).viridian = s.viridian := rfl
@[simp] theorem State.setRing_indigo (s : State) (f : Nat) (r : Nat) (x : Ring) : (s.setRing f r x).indigo = s.indigo := rfl
@[simp] theorem State.setRing_slate (s : State) (f : Nat) (r : Nat) (x : Ring) : (s.setRing f r x).slate = s.slate := rfl
@[simp] theorem State.setRing_carmine (s : State) (f : Nat) (r : Nat) (x : Ring) : (s.setRing f r x).carmine = s.carmine := rfl
@[simp] theorem State.setRing_ivory (s : State) (f : Nat) (r : Nat) (x : Ring) : (s.setRing f r x).ivory = s.ivory := rfl
@[simp] theorem State.setRing_sable (s : State) (f : Nat) (r : Nat) (x : Ring) : (s.setRing f r x).sable = s.sable := rfl
@[simp] theorem State.setRing_faults (s : State) (f : Nat) (r : Nat) (x : Ring) : (s.setRing f r x).faults = s.faults := rfl
@[simp] theorem State.setRing_freeCtr (s : State) (f : Nat) (r : Nat) (x : Ring) : (s.setRing f r x).freeCtr = s.freeCtr := rfl

@[simp] theorem State.tookFree_pending (s : State) (n : optParam Nat 1) : (s.tookFree n).pending = s.pending := rfl
@[simp] theorem State.tookFree_regs (s : State) (n : optParam Nat 1) : (s.tookFree n).regs = s.regs := rfl
@[simp] theorem State.tookFree_mem (s : State) (n : optParam Nat 1) : (s.tookFree n).mem = s.mem := rfl
@[simp] theorem State.tookFree_hostMem (s : State) (n : optParam Nat 1) : (s.tookFree n).hostMem = s.hostMem := rfl
@[simp] theorem State.tookFree_wire (s : State) (n : optParam Nat 1) : (s.tookFree n).wire = s.wire := rfl
@[simp] theorem State.tookFree_readData (s : State) (n : optParam Nat 1) : (s.tookFree n).readData = s.readData := rfl
@[simp] theorem State.tookFree_readErr (s : State) (n : optParam Nat 1) : (s.tookFree n).readErr = s.readErr := rfl
@[simp] theorem State.tookFree_board (s : State) (n : optParam Nat 1) : (s.tookFree n).board = s.board := rfl
@[simp] theorem State.tookFree_sys (s : State) (n : optParam Nat 1) : (s.tookFree n).sys = s.sys := rfl
@[simp] theorem State.tookFree_amber (s : State) (n : optParam Nat 1) : (s.tookFree n).amber = s.amber := rfl
@[simp] theorem State.tookFree_host (s : State) (n : optParam Nat 1) : (s.tookFree n).host = s.host := rfl
@[simp] theorem State.tookFree_ochre (s : State) (n : optParam Nat 1) : (s.tookFree n).ochre = s.ochre := rfl
@[simp] theorem State.tookFree_cobalt (s : State) (n : optParam Nat 1) : (s.tookFree n).cobalt = s.cobalt := rfl
@[simp] theorem State.tookFree_sepia (s : State) (n : optParam Nat 1) : (s.tookFree n).sepia = s.sepia := rfl
@[simp] theorem State.tookFree_umber (s : State) (n : optParam Nat 1) : (s.tookFree n).umber = s.umber := rfl
@[simp] theorem State.tookFree_viridian (s : State) (n : optParam Nat 1) : (s.tookFree n).viridian = s.viridian := rfl
@[simp] theorem State.tookFree_indigo (s : State) (n : optParam Nat 1) : (s.tookFree n).indigo = s.indigo := rfl
@[simp] theorem State.tookFree_slate (s : State) (n : optParam Nat 1) : (s.tookFree n).slate = s.slate := rfl
@[simp] theorem State.tookFree_carmine (s : State) (n : optParam Nat 1) : (s.tookFree n).carmine = s.carmine := rfl
@[simp] theorem State.tookFree_ivory (s : State) (n : optParam Nat 1) : (s.tookFree n).ivory = s.ivory := rfl
@[simp] theorem State.tookFree_sable (s : State) (n : optParam Nat 1) : (s.tookFree n).sable = s.sable := rfl
@[simp] theorem State.tookFree_faults (s : State) (n : optParam Nat 1) : (s.tookFree n).faults = s.faults := rfl

@[simp] theorem State.putStaged_pending (s : State) (x : Staged) : (s.putStaged x).pending = s.pending := rfl
@[simp] theorem State.putStaged_regs (s : State) (x : Staged) : (s.putStaged x).regs = s.regs := rfl
@[simp] theorem State.putStaged_mem (s : State) (x : Staged) : (s.putStaged x).mem = s.mem := rfl
@[simp] theorem State.putStaged_hostMem (s : State) (x : Staged) : (s.putStaged x).hostMem = s.hostMem := rfl
@[simp] theorem State.putStaged_wire (s : State) (x : Staged) : (s.putStaged x).wire = s.wire := rfl
@[simp] theorem State.putStaged_readData (s : State) (x : Staged) : (s.putStaged x).readData = s.readData := rfl
@[simp] theorem State.putStaged_readErr (s : State) (x : Staged) : (s.putStaged x).readErr = s.readErr := rfl
@[simp] theorem State.putStaged_board (s : State) (x : Staged) : (s.putStaged x).board = s.board := rfl
@[simp] theorem State.putStaged_sys (s : State) (x : Staged) : (s.putStaged x).sys = s.sys := rfl
@[simp] theorem State.putStaged_amber (s : State) (x : Staged) : (s.putStaged x).amber = s.amber := rfl
@[simp] theorem State.putStaged_ochre (s : State) (x : Staged) : (s.putStaged x).ochre = s.ochre := rfl
@[simp] theorem State.putStaged_cobalt (s : State) (x : Staged) : (s.putStaged x).cobalt = s.cobalt := rfl
@[simp] theorem State.putStaged_sepia (s : State) (x : Staged) : (s.putStaged x).sepia = s.sepia := rfl
@[simp] theorem State.putStaged_umber (s : State) (x : Staged) : (s.putStaged x).umber = s.umber := rfl
@[simp] theorem State.putStaged_viridian (s : State) (x : Staged) : (s.putStaged x).viridian = s.viridian := rfl
@[simp] theorem State.putStaged_indigo (s : State) (x : Staged) : (s.putStaged x).indigo = s.indigo := rfl
@[simp] theorem State.putStaged_slate (s : State) (x : Staged) : (s.putStaged x).slate = s.slate := rfl
@[simp] theorem State.putStaged_carmine (s : State) (x : Staged) : (s.putStaged x).carmine = s.carmine := rfl
@[simp] theorem State.putStaged_ivory (s : State) (x : Staged) : (s.putStaged x).ivory = s.ivory := rfl
@[simp] theorem State.putStaged_sable (s : State) (x : Staged) : (s.putStaged x).sable = s.sable := rfl
@[simp] theorem State.putStaged_faults (s : State) (x : Staged) : (s.putStaged x).faults = s.faults := rfl
@[simp] theorem State.putStaged_freeCtr (s : State) (x : Staged) : (s.putStaged x).freeCtr = s.freeCtr := rfl

@[simp] theorem State.send_pending (s : State) (o : Out) : (s.send o).pending = s.pending := rfl
@[simp] theorem State.send_regs (s : State) (o : Out) : (s.send o).regs = s.regs := rfl
@[simp] theorem State.send_mem (s : State) (o : Out) : (s.send o).mem = s.mem := rfl
@[simp] theorem State.send_hostMem (s : State) (o : Out) : (s.send o).hostMem = s.hostMem := rfl
@[simp] theorem State.send_readData (s : State) (o : Out) : (s.send o).readData = s.readData := rfl
@[simp] theorem State.send_readErr (s : State) (o : Out) : (s.send o).readErr = s.readErr := rfl
@[simp] theorem State.send_board (s : State) (o : Out) : (s.send o).board = s.board := rfl
@[simp] theorem State.send_sys (s : State) (o : Out) : (s.send o).sys = s.sys := rfl
@[simp] theorem State.send_amber (s : State) (o : Out) : (s.send o).amber = s.amber := rfl
@[simp] theorem State.send_host (s : State) (o : Out) : (s.send o).host = s.host := rfl
@[simp] theorem State.send_ochre (s : State) (o : Out) : (s.send o).ochre = s.ochre := rfl
@[simp] theorem State.send_cobalt (s : State) (o : Out) : (s.send o).cobalt = s.cobalt := rfl
@[simp] theorem State.send_sepia (s : State) (o : Out) : (s.send o).sepia = s.sepia := rfl
@[simp] theorem State.send_umber (s : State) (o : Out) : (s.send o).umber = s.umber := rfl
@[simp] theorem State.send_viridian (s : State) (o : Out) : (s.send o).viridian = s.viridian := rfl
@[simp] theorem State.send_indigo (s : State) (o : Out) : (s.send o).indigo = s.indigo := rfl
@[simp] theorem State.send_slate (s : State) (o : Out) : (s.send o).slate = s.slate := rfl
@[simp] theorem State.send_carmine (s : State) (o : Out) : (s.send o).carmine = s.carmine := rfl
@[simp] theorem State.send_ivory (s : State) (o : Out) : (s.send o).ivory = s.ivory := rfl
@[simp] theorem State.send_sable (s : State) (o : Out) : (s.send o).sable = s.sable := rfl
@[simp] theorem State.send_faults (s : State) (o : Out) : (s.send o).faults = s.faults := rfl
@[simp] theorem State.send_freeCtr (s : State) (o : Out) : (s.send o).freeCtr = s.freeCtr := rfl


@[simp] theorem State.modAmber_pending (s : State) (f : Amber → Amber) : (s.modAmber f).pending = s.pending := rfl
@[simp] theorem State.modAmber_regs (s : State) (f : Amber → Amber) : (s.modAmber f).regs = s.regs := rfl
@[simp] theorem State.modAmber_mem (s : State) (f : Amber → Amber) : (s.modAmber f).mem = s.mem := rfl
@[simp] theorem State.modAmber_hostMem (s : State) (f : Amber → Amber) : (s.modAmber f).hostMem = s.hostMem := rfl
@[simp] theorem State.modAmber_wire (s : State) (f : Amber → Amber) : (s.modAmber f).wire = s.wire := rfl
@[simp] theorem State.modAmber_readData (s : State) (f : Amber → Amber) : (s.modAmber f).readData = s.readData := rfl
@[simp] theorem State.modAmber_readErr (s : State) (f : Amber → Amber) : (s.modAmber f).readErr = s.readErr := rfl
@[simp] theorem State.modAmber_board (s : State) (f : Amber → Amber) : (s.modAmber f).board = s.board := rfl
@[simp] theorem State.modAmber_sys (s : State) (f : Amber → Amber) : (s.modAmber f).sys = s.sys := rfl
@[simp] theorem State.modAmber_host (s : State) (f : Amber → Amber) : (s.modAmber f).host = s.host := rfl
@[simp] theorem State.modAmber_ochre (s : State) (f : Amber → Amber) : (s.modAmber f).ochre = s.ochre := rfl
@[simp] theorem State.modAmber_cobalt (s : State) (f : Amber → Amber) : (s.modAmber f).cobalt = s.cobalt := rfl
@[simp] theorem State.modAmber_sepia (s : State) (f : Amber → Amber) : (s.modAmber f).sepia = s.sepia := rfl
@[simp] theorem State.modAmber_umber (s : State) (f : Amber → Amber) : (s.modAmber f).umber = s.umber := rfl
@[simp] theorem State.modAmber_viridian (s : State) (f : Amber → Amber) : (s.modAmber f).viridian = s.viridian := rfl
@[simp] theorem State.modAmber_indigo (s : State) (f : Amber → Amber) : (s.modAmber f).indigo = s.indigo := rfl
@[simp] theorem State.modAmber_slate (s : State) (f : Amber → Amber) : (s.modAmber f).slate = s.slate := rfl
@[simp] theorem State.modAmber_carmine (s : State) (f : Amber → Amber) : (s.modAmber f).carmine = s.carmine := rfl
@[simp] theorem State.modAmber_ivory (s : State) (f : Amber → Amber) : (s.modAmber f).ivory = s.ivory := rfl
@[simp] theorem State.modAmber_sable (s : State) (f : Amber → Amber) : (s.modAmber f).sable = s.sable := rfl
@[simp] theorem State.modAmber_faults (s : State) (f : Amber → Amber) : (s.modAmber f).faults = s.faults := rfl
@[simp] theorem State.modAmber_freeCtr (s : State) (f : Amber → Amber) : (s.modAmber f).freeCtr = s.freeCtr := rfl

@[simp] theorem State.modOchre_pending (s : State) (f : Ochre → Ochre) : (s.modOchre f).pending = s.pending := rfl
@[simp] theorem State.modOchre_regs (s : State) (f : Ochre → Ochre) : (s.modOchre f).regs = s.regs := rfl
@[simp] theorem State.modOchre_mem (s : State) (f : Ochre → Ochre) : (s.modOchre f).mem = s.mem := rfl
@[simp] theorem State.modOchre_hostMem (s : State) (f : Ochre → Ochre) : (s.modOchre f).hostMem = s.hostMem := rfl
@[simp] theorem State.modOchre_wire (s : State) (f : Ochre → Ochre) : (s.modOchre f).wire = s.wire := rfl
@[simp] theorem State.modOchre_readData (s : State) (f : Ochre → Ochre) : (s.modOchre f).readData = s.readData := rfl
@[simp] theorem State.modOchre_readErr (s : State) (f : Ochre → Ochre) : (s.modOchre f).readErr = s.readErr := rfl
@[simp] theorem State.modOchre_board (s : State) (f : Ochre → Ochre) : (s.modOchre f).board = s.board := rfl
@[simp] theorem State.modOchre_sys (s : State) (f : Ochre → Ochre) : (s.modOchre f).sys = s.sys := rfl
@[simp] theorem State.modOchre_amber (s : State) (f : Ochre → Ochre) : (s.modOchre f).amber = s.amber := rfl
@[simp] theorem State.modOchre_host (s : State) (f : Ochre → Ochre) : (s.modOchre f).host = s.host := rfl
@[simp] theorem State.modOchre_cobalt (s : State) (f : Ochre → Ochre) : (s.modOchre f).cobalt = s.cobalt := rfl
@[simp] theorem State.modOchre_sepia (s : State) (f : Ochre → Ochre) : (s.modOchre f).sepia = s.sepia := rfl
@[simp] theorem State.modOchre_umber (s : State) (f : Ochre → Ochre) : (s.modOchre f).umber = s.umber := rfl
@[simp] theorem State.modOchre_viridian (s : State) (f : Ochre → Ochre) : (s.modOchre f).viridian = s.viridian := rfl
@[simp] theorem State.modOchre_indigo (s : State) (f : Ochre → Ochre) : (s.modOchre f).indigo = s.indigo := rfl
@[simp] theorem State.modOchre_slate (s : State) (f : Ochre → Ochre) : (s.modOchre f).slate = s.slate := rfl
@[simp] theorem State.modOchre_carmine (s : State) (f : Ochre → Ochre) : (s.modOchre f).carmine = s.carmine := rfl
@[simp] theorem State.modOchre_ivory (s : State) (f : Ochre → Ochre) : (s.modOchre f).ivory = s.ivory := rfl
@[simp] theorem State.modOchre_sable (s : State) (f : Ochre → Ochre) : (s.modOchre f).sable = s.sable := rfl
@[simp] theorem State.modOchre_faults (s : State) (f : Ochre → Ochre) : (s.modOchre f).faults = s.faults := rfl
@[simp] theorem State.modOchre_freeCtr (s : State) (f : Ochre → Ochre) : (s.modOchre f).freeCtr = s.freeCtr := rfl

@[simp] theorem State.setPort_pending (s : State) (p : Nat) (x : OchPort) : (s.setPort p x).pending = s.pending := rfl
@[simp] theorem State.setPort_regs (s : State) (p : Nat) (x : OchPort) : (s.setPort p x).regs = s.regs := rfl
@[simp] theorem State.setPort_mem (s : State) (p : Nat) (x : OchPort) : (s.setPort p x).mem = s.mem := rfl
@[simp] theorem State.setPort_hostMem (s : State) (p : Nat) (x : OchPort) : (s.setPort p x).hostMem = s.hostMem := rfl
@[simp] theorem State.setPort_wire (s : State) (p : Nat) (x : OchPort) : (s.setPort p x).wire = s.wire := rfl
@[simp] theorem State.setPort_readData (s : State) (p : Nat) (x : OchPort) : (s.setPort p x).readData = s.readData := rfl
@[simp] theorem State.setPort_readErr (s : State) (p : Nat) (x : OchPort) : (s.setPort p x).readErr = s.readErr := rfl
@[simp] theorem State.setPort_board (s : State) (p : Nat) (x : OchPort) : (s.setPort p x).board = s.board := rfl
@[simp] theorem State.setPort_sys (s : State) (p : Nat) (x : OchPort) : (s.setPort p x).sys = s.sys := rfl
@[simp] theorem State.setPort_amber (s : State) (p : Nat) (x : OchPort) : (s.setPort p x).amber = s.amber := rfl
@[simp] theorem State.setPort_host (s : State) (p : Nat) (x : OchPort) : (s.setPort p x).host = s.host := rfl
@[simp] theorem State.setPort_cobalt (s : State) (p : Nat) (x : OchPort) : (s.setPort p x).cobalt = s.cobalt := rfl
@[simp] theorem State.setPort_sepia (s : State) (p : Nat) (x : OchPort) : (s.setPort p x).sepia = s.sepia := rfl
@[simp] theorem State.setPort_umber (s : State) (p : Nat) (x : OchPort) : (s.setPort p x).umber = s.umber := rfl
@[simp] theorem State.setPort_viridian (s : State) (p : Nat) (x : OchPort) : (s.setPort p x).viridian = s.viridian := rfl
@[simp] theorem State.setPort_indigo (s : State) (p : Nat) (x : OchPort) : (s.setPort p x).indigo = s.indigo := rfl
@[simp] theorem State.setPort_slate (s : State) (p : Nat) (x : OchPort) : (s.setPort p x).slate = s.slate := rfl
@[simp] theorem State.setPort_carmine (s : State) (p : Nat) (x : OchPort) : (s.setPort p x).carmine = s.carmine := rfl
@[simp] theorem State.setPort_ivory (s : State) (p : Nat) (x : OchPort) : (s.setPort p x).ivory = s.ivory := rfl
@[simp] theorem State.setPort_sable (s : State) (p : Nat) (x : OchPort) : (s.setPort p x).sable = s.sable := rfl
@[simp] theorem State.setPort_faults (s : State) (p : Nat) (x : OchPort) : (s.setPort p x).faults = s.faults := rfl
@[simp] theorem State.setPort_freeCtr (s : State) (p : Nat) (x : OchPort) : (s.setPort p x).freeCtr = s.freeCtr := rfl

@[simp] theorem State.setTrig_pending (s : State) (n : Nat) (x : Trigger) : (s.setTrig n x).pending = s.pending := rfl
@[simp] theorem State.setTrig_regs (s : State) (n : Nat) (x : Trigger) : (s.setTrig n x).regs = s.regs := rfl
@[simp] theorem State.setTrig_mem (s : State) (n : Nat) (x : Trigger) : (s.setTrig n x).mem = s.mem := rfl
@[simp] theorem State.setTrig_hostMem (s : State) (n : Nat) (x : Trigger) : (s.setTrig n x).hostMem = s.hostMem := rfl
@[simp] theorem State.setTrig_wire (s : State) (n : Nat) (x : Trigger) : (s.setTrig n x).wire = s.wire := rfl
@[simp] theorem State.setTrig_readData (s : State) (n : Nat) (x : Trigger) : (s.setTrig n x).readData = s.readData := rfl
@[simp] theorem State.setTrig_readErr (s : State) (n : Nat) (x : Trigger) : (s.setTrig n x).readErr = s.readErr := rfl
@[simp] theorem State.setTrig_board (s : State) (n : Nat) (x : Trigger) : (s.setTrig n x).board = s.board := rfl
@[simp] theorem State.setTrig_sys (s : State) (n : Nat) (x : Trigger) : (s.setTrig n x).sys = s.sys := rfl
@[simp] theorem State.setTrig_amber (s : State) (n : Nat) (x : Trigger) : (s.setTrig n x).amber = s.amber := rfl
@[simp] theorem State.setTrig_host (s : State) (n : Nat) (x : Trigger) : (s.setTrig n x).host = s.host := rfl
@[simp] theorem State.setTrig_cobalt (s : State) (n : Nat) (x : Trigger) : (s.setTrig n x).cobalt = s.cobalt := rfl
@[simp] theorem State.setTrig_sepia (s : State) (n : Nat) (x : Trigger) : (s.setTrig n x).sepia = s.sepia := rfl
@[simp] theorem State.setTrig_umber (s : State) (n : Nat) (x : Trigger) : (s.setTrig n x).umber = s.umber := rfl
@[simp] theorem State.setTrig_viridian (s : State) (n : Nat) (x : Trigger) : (s.setTrig n x).viridian = s.viridian := rfl
@[simp] theorem State.setTrig_indigo (s : State) (n : Nat) (x : Trigger) : (s.setTrig n x).indigo = s.indigo := rfl
@[simp] theorem State.setTrig_slate (s : State) (n : Nat) (x : Trigger) : (s.setTrig n x).slate = s.slate := rfl
@[simp] theorem State.setTrig_carmine (s : State) (n : Nat) (x : Trigger) : (s.setTrig n x).carmine = s.carmine := rfl
@[simp] theorem State.setTrig_ivory (s : State) (n : Nat) (x : Trigger) : (s.setTrig n x).ivory = s.ivory := rfl
@[simp] theorem State.setTrig_sable (s : State) (n : Nat) (x : Trigger) : (s.setTrig n x).sable = s.sable := rfl
@[simp] theorem State.setTrig_faults (s : State) (n : Nat) (x : Trigger) : (s.setTrig n x).faults = s.faults := rfl
@[simp] theorem State.setTrig_freeCtr (s : State) (n : Nat) (x : Trigger) : (s.setTrig n x).freeCtr = s.freeCtr := rfl

@[simp] theorem State.modCobalt_pending (s : State) (f : Cobalt → Cobalt) : (s.modCobalt f).pending = s.pending := rfl
@[simp] theorem State.modCobalt_regs (s : State) (f : Cobalt → Cobalt) : (s.modCobalt f).regs = s.regs := rfl
@[simp] theorem State.modCobalt_mem (s : State) (f : Cobalt → Cobalt) : (s.modCobalt f).mem = s.mem := rfl
@[simp] theorem State.modCobalt_hostMem (s : State) (f : Cobalt → Cobalt) : (s.modCobalt f).hostMem = s.hostMem := rfl
@[simp] theorem State.modCobalt_wire (s : State) (f : Cobalt → Cobalt) : (s.modCobalt f).wire = s.wire := rfl
@[simp] theorem State.modCobalt_readData (s : State) (f : Cobalt → Cobalt) : (s.modCobalt f).readData = s.readData := rfl
@[simp] theorem State.modCobalt_readErr (s : State) (f : Cobalt → Cobalt) : (s.modCobalt f).readErr = s.readErr := rfl
@[simp] theorem State.modCobalt_board (s : State) (f : Cobalt → Cobalt) : (s.modCobalt f).board = s.board := rfl
@[simp] theorem State.modCobalt_sys (s : State) (f : Cobalt → Cobalt) : (s.modCobalt f).sys = s.sys := rfl
@[simp] theorem State.modCobalt_amber (s : State) (f : Cobalt → Cobalt) : (s.modCobalt f).amber = s.amber := rfl
@[simp] theorem State.modCobalt_host (s : State) (f : Cobalt → Cobalt) : (s.modCobalt f).host = s.host := rfl
@[simp] theorem State.modCobalt_ochre (s : State) (f : Cobalt → Cobalt) : (s.modCobalt f).ochre = s.ochre := rfl
@[simp] theorem State.modCobalt_sepia (s : State) (f : Cobalt → Cobalt) : (s.modCobalt f).sepia = s.sepia := rfl
@[simp] theorem State.modCobalt_umber (s : State) (f : Cobalt → Cobalt) : (s.modCobalt f).umber = s.umber := rfl
@[simp] theorem State.modCobalt_viridian (s : State) (f : Cobalt → Cobalt) : (s.modCobalt f).viridian = s.viridian := rfl
@[simp] theorem State.modCobalt_indigo (s : State) (f : Cobalt → Cobalt) : (s.modCobalt f).indigo = s.indigo := rfl
@[simp] theorem State.modCobalt_slate (s : State) (f : Cobalt → Cobalt) : (s.modCobalt f).slate = s.slate := rfl
@[simp] theorem State.modCobalt_carmine (s : State) (f : Cobalt → Cobalt) : (s.modCobalt f).carmine = s.carmine := rfl
@[simp] theorem State.modCobalt_ivory (s : State) (f : Cobalt → Cobalt) : (s.modCobalt f).ivory = s.ivory := rfl
@[simp] theorem State.modCobalt_sable (s : State) (f : Cobalt → Cobalt) : (s.modCobalt f).sable = s.sable := rfl
@[simp] theorem State.modCobalt_faults (s : State) (f : Cobalt → Cobalt) : (s.modCobalt f).faults = s.faults := rfl
@[simp] theorem State.modCobalt_freeCtr (s : State) (f : Cobalt → Cobalt) : (s.modCobalt f).freeCtr = s.freeCtr := rfl

@[simp] theorem State.setStk_pending (s : State) (k : Nat) (x : StackDyn) : (s.setStk k x).pending = s.pending := rfl
@[simp] theorem State.setStk_regs (s : State) (k : Nat) (x : StackDyn) : (s.setStk k x).regs = s.regs := rfl
@[simp] theorem State.setStk_mem (s : State) (k : Nat) (x : StackDyn) : (s.setStk k x).mem = s.mem := rfl
@[simp] theorem State.setStk_hostMem (s : State) (k : Nat) (x : StackDyn) : (s.setStk k x).hostMem = s.hostMem := rfl
@[simp] theorem State.setStk_wire (s : State) (k : Nat) (x : StackDyn) : (s.setStk k x).wire = s.wire := rfl
@[simp] theorem State.setStk_readData (s : State) (k : Nat) (x : StackDyn) : (s.setStk k x).readData = s.readData := rfl
@[simp] theorem State.setStk_readErr (s : State) (k : Nat) (x : StackDyn) : (s.setStk k x).readErr = s.readErr := rfl
@[simp] theorem State.setStk_board (s : State) (k : Nat) (x : StackDyn) : (s.setStk k x).board = s.board := rfl
@[simp] theorem State.setStk_sys (s : State) (k : Nat) (x : StackDyn) : (s.setStk k x).sys = s.sys := rfl
@[simp] theorem State.setStk_amber (s : State) (k : Nat) (x : StackDyn) : (s.setStk k x).amber = s.amber := rfl
@[simp] theorem State.setStk_host (s : State) (k : Nat) (x : StackDyn) : (s.setStk k x).host = s.host := rfl
@[simp] theorem State.setStk_ochre (s : State) (k : Nat) (x : StackDyn) : (s.setStk k x).ochre = s.ochre := rfl
@[simp] theorem State.setStk_sepia (s : State) (k : Nat) (x : StackDyn) : (s.setStk k x).sepia = s.sepia := rfl
@[simp] theorem State.setStk_umber (s : State) (k : Nat) (x : StackDyn) : (s.setStk k x).umber = s.umber := rfl
@[simp] theorem State.setStk_viridian (s : State) (k : Nat) (x : StackDyn) : (s.setStk k x).viridian = s.viridian := rfl
@[simp] theorem State.setStk_indigo (s : State) (k : Nat) (x : StackDyn) : (s.setStk k x).indigo = s.indigo := rfl
@[simp] theorem State.setStk_slate (s : State) (k : Nat) (x : StackDyn) : (s.setStk k x).slate = s.slate := rfl
@[simp] theorem State.setStk_carmine (s : State) (k : Nat) (x : StackDyn) : (s.setStk k x).carmine = s.carmine := rfl
@[simp] theorem State.setStk_ivory (s : State) (k : Nat) (x : StackDyn) : (s.setStk k x).ivory = s.ivory := rfl
@[simp] theorem State.setStk_sable (s : State) (k : Nat) (x : StackDyn) : (s.setStk k x).sable = s.sable := rfl
@[simp] theorem State.setStk_faults (s : State) (k : Nat) (x : StackDyn) : (s.setStk k x).faults = s.faults := rfl
@[simp] theorem State.setStk_freeCtr (s : State) (k : Nat) (x : StackDyn) : (s.setStk k x).freeCtr = s.freeCtr := rfl

@[simp] theorem State.modSepia_pending (s : State) (f : Sepia → Sepia) : (s.modSepia f).pending = s.pending := rfl
@[simp] theorem State.modSepia_regs (s : State) (f : Sepia → Sepia) : (s.modSepia f).regs = s.regs := rfl
@[simp] theorem State.modSepia_mem (s : State) (f : Sepia → Sepia) : (s.modSepia f).mem = s.mem := rfl
@[simp] theorem State.modSepia_hostMem (s : State) (f : Sepia → Sepia) : (s.modSepia f).hostMem = s.hostMem := rfl
@[simp] theorem State.modSepia_wire (s : State) (f : Sepia → Sepia) : (s.modSepia f).wire = s.wire := rfl
@[simp] theorem State.modSepia_readData (s : State) (f : Sepia → Sepia) : (s.modSepia f).readData = s.readData := rfl
@[simp] theorem State.modSepia_readErr (s : State) (f : Sepia → Sepia) : (s.modSepia f).readErr = s.readErr := rfl
@[simp] theorem State.modSepia_board (s : State) (f : Sepia → Sepia) : (s.modSepia f).board = s.board := rfl
@[simp] theorem State.modSepia_sys (s : State) (f : Sepia → Sepia) : (s.modSepia f).sys = s.sys := rfl
@[simp] theorem State.modSepia_amber (s : State) (f : Sepia → Sepia) : (s.modSepia f).amber = s.amber := rfl
@[simp] theorem State.modSepia_host (s : State) (f : Sepia → Sepia) : (s.modSepia f).host = s.host := rfl
@[simp] theorem State.modSepia_ochre (s : State) (f : Sepia → Sepia) : (s.modSepia f).ochre = s.ochre := rfl
@[simp] theorem State.modSepia_cobalt (s : State) (f : Sepia → Sepia) : (s.modSepia f).cobalt = s.cobalt := rfl
@[simp] theorem State.modSepia_umber (s : State) (f : Sepia → Sepia) : (s.modSepia f).umber = s.umber := rfl
@[simp] theorem State.modSepia_viridian (s : State) (f : Sepia → Sepia) : (s.modSepia f).viridian = s.viridian := rfl
@[simp] theorem State.modSepia_indigo (s : State) (f : Sepia → Sepia) : (s.modSepia f).indigo = s.indigo := rfl
@[simp] theorem State.modSepia_slate (s : State) (f : Sepia → Sepia) : (s.modSepia f).slate = s.slate := rfl
@[simp] theorem State.modSepia_carmine (s : State) (f : Sepia → Sepia) : (s.modSepia f).carmine = s.carmine := rfl
@[simp] theorem State.modSepia_ivory (s : State) (f : Sepia → Sepia) : (s.modSepia f).ivory = s.ivory := rfl
@[simp] theorem State.modSepia_sable (s : State) (f : Sepia → Sepia) : (s.modSepia f).sable = s.sable := rfl
@[simp] theorem State.modSepia_faults (s : State) (f : Sepia → Sepia) : (s.modSepia f).faults = s.faults := rfl
@[simp] theorem State.modSepia_freeCtr (s : State) (f : Sepia → Sepia) : (s.modSepia f).freeCtr = s.freeCtr := rfl

@[simp] theorem State.setSurf_pending (s : State) (k : Nat) (x : SurfDyn) : (s.setSurf k x).pending = s.pending := rfl
@[simp] theorem State.setSurf_regs (s : State) (k : Nat) (x : SurfDyn) : (s.setSurf k x).regs = s.regs := rfl
@[simp] theorem State.setSurf_mem (s : State) (k : Nat) (x : SurfDyn) : (s.setSurf k x).mem = s.mem := rfl
@[simp] theorem State.setSurf_hostMem (s : State) (k : Nat) (x : SurfDyn) : (s.setSurf k x).hostMem = s.hostMem := rfl
@[simp] theorem State.setSurf_wire (s : State) (k : Nat) (x : SurfDyn) : (s.setSurf k x).wire = s.wire := rfl
@[simp] theorem State.setSurf_readData (s : State) (k : Nat) (x : SurfDyn) : (s.setSurf k x).readData = s.readData := rfl
@[simp] theorem State.setSurf_readErr (s : State) (k : Nat) (x : SurfDyn) : (s.setSurf k x).readErr = s.readErr := rfl
@[simp] theorem State.setSurf_board (s : State) (k : Nat) (x : SurfDyn) : (s.setSurf k x).board = s.board := rfl
@[simp] theorem State.setSurf_sys (s : State) (k : Nat) (x : SurfDyn) : (s.setSurf k x).sys = s.sys := rfl
@[simp] theorem State.setSurf_amber (s : State) (k : Nat) (x : SurfDyn) : (s.setSurf k x).amber = s.amber := rfl
@[simp] theorem State.setSurf_host (s : State) (k : Nat) (x : SurfDyn) : (s.setSurf k x).host = s.host := rfl
@[simp] theorem State.setSurf_ochre (s : State) (k : Nat) (x : SurfDyn) : (s.setSurf k x).ochre = s.ochre := rfl
@[simp] theorem State.setSurf_cobalt (s : State) (k : Nat) (x : SurfDyn) : (s.setSurf k x).cobalt = s.cobalt := rfl
@[simp] theorem State.setSurf_umber (s : State) (k : Nat) (x : SurfDyn) : (s.setSurf k x).umber = s.umber := rfl
@[simp] theorem State.setSurf_viridian (s : State) (k : Nat) (x : SurfDyn) : (s.setSurf k x).viridian = s.viridian := rfl
@[simp] theorem State.setSurf_indigo (s : State) (k : Nat) (x : SurfDyn) : (s.setSurf k x).indigo = s.indigo := rfl
@[simp] theorem State.setSurf_slate (s : State) (k : Nat) (x : SurfDyn) : (s.setSurf k x).slate = s.slate := rfl
@[simp] theorem State.setSurf_carmine (s : State) (k : Nat) (x : SurfDyn) : (s.setSurf k x).carmine = s.carmine := rfl
@[simp] theorem State.setSurf_ivory (s : State) (k : Nat) (x : SurfDyn) : (s.setSurf k x).ivory = s.ivory := rfl
@[simp] theorem State.setSurf_sable (s : State) (k : Nat) (x : SurfDyn) : (s.setSurf k x).sable = s.sable := rfl
@[simp] theorem State.setSurf_faults (s : State) (k : Nat) (x : SurfDyn) : (s.setSurf k x).faults = s.faults := rfl
@[simp] theorem State.setSurf_freeCtr (s : State) (k : Nat) (x : SurfDyn) : (s.setSurf k x).freeCtr = s.freeCtr := rfl

@[simp] theorem State.setTrack_pending (s : State) (i : Nat) (t : Track) : (s.setTrack i t).pending = s.pending := rfl
@[simp] theorem State.setTrack_regs (s : State) (i : Nat) (t : Track) : (s.setTrack i t).regs = s.regs := rfl
@[simp] theorem State.setTrack_mem (s : State) (i : Nat) (t : Track) : (s.setTrack i t).mem = s.mem := rfl
@[simp] theorem State.setTrack_hostMem (s : State) (i : Nat) (t : Track) : (s.setTrack i t).hostMem = s.hostMem := rfl
@[simp] theorem State.setTrack_wire (s : State) (i : Nat) (t : Track) : (s.setTrack i t).wire = s.wire := rfl
@[simp] theorem State.setTrack_readData (s : State) (i : Nat) (t : Track) : (s.setTrack i t).readData = s.readData := rfl
@[simp] theorem State.setTrack_readErr (s : State) (i : Nat) (t : Track) : (s.setTrack i t).readErr = s.readErr := rfl
@[simp] theorem State.setTrack_board (s : State) (i : Nat) (t : Track) : (s.setTrack i t).board = s.board := rfl
@[simp] theorem State.setTrack_sys (s : State) (i : Nat) (t : Track) : (s.setTrack i t).sys = s.sys := rfl
@[simp] theorem State.setTrack_amber (s : State) (i : Nat) (t : Track) : (s.setTrack i t).amber = s.amber := rfl
@[simp] theorem State.setTrack_host (s : State) (i : Nat) (t : Track) : (s.setTrack i t).host = s.host := rfl
@[simp] theorem State.setTrack_ochre (s : State) (i : Nat) (t : Track) : (s.setTrack i t).ochre = s.ochre := rfl
@[simp] theorem State.setTrack_cobalt (s : State) (i : Nat) (t : Track) : (s.setTrack i t).cobalt = s.cobalt := rfl
@[simp] theorem State.setTrack_umber (s : State) (i : Nat) (t : Track) : (s.setTrack i t).umber = s.umber := rfl
@[simp] theorem State.setTrack_viridian (s : State) (i : Nat) (t : Track) : (s.setTrack i t).viridian = s.viridian := rfl
@[simp] theorem State.setTrack_indigo (s : State) (i : Nat) (t : Track) : (s.setTrack i t).indigo = s.indigo := rfl
@[simp] theorem State.setTrack_slate (s : State) (i : Nat) (t : Track) : (s.setTrack i t).slate = s.slate := rfl
@[simp] theorem State.setTrack_carmine (s : State) (i : Nat) (t : Track) : (s.setTrack i t).carmine = s.carmine := rfl
@[simp] theorem State.setTrack_ivory (s : State) (i : Nat) (t : Track) : (s.setTrack i t).ivory = s.ivory := rfl
@[simp] theorem State.setTrack_sable (s : State) (i : Nat) (t : Track) : (s.setTrack i t).sable = s.sable := rfl
@[simp] theorem State.setTrack_faults (s : State) (i : Nat) (t : Track) : (s.setTrack i t).faults = s.faults := rfl
@[simp] theorem State.setTrack_freeCtr (s : State) (i : Nat) (t : Track) : (s.setTrack i t).freeCtr = s.freeCtr := rfl

@[simp] theorem State.modUmber_pending (s : State) (f : Umber → Umber) : (s.modUmber f).pending = s.pending := rfl
@[simp] theorem State.modUmber_regs (s : State) (f : Umber → Umber) : (s.modUmber f).regs = s.regs := rfl
@[simp] theorem State.modUmber_mem (s : State) (f : Umber → Umber) : (s.modUmber f).mem = s.mem := rfl
@[simp] theorem State.modUmber_hostMem (s : State) (f : Umber → Umber) : (s.modUmber f).hostMem = s.hostMem := rfl
@[simp] theorem State.modUmber_wire (s : State) (f : Umber → Umber) : (s.modUmber f).wire = s.wire := rfl
@[simp] theorem State.modUmber_readData (s : State) (f : Umber → Umber) : (s.modUmber f).readData = s.readData := rfl
@[simp] theorem State.modUmber_readErr (s : State) (f : Umber → Umber) : (s.modUmber f).readErr = s.readErr := rfl
@[simp] theorem State.modUmber_board (s : State) (f : Umber → Umber) : (s.modUmber f).board = s.board := rfl
@[simp] theorem State.modUmber_sys (s : State) (f : Umber → Umber) : (s.modUmber f).sys = s.sys := rfl
@[simp] theorem State.modUmber_amber (s : State) (f : Umber → Umber) : (s.modUmber f).amber = s.amber := rfl
@[simp] theorem State.modUmber_host (s : State) (f : Umber → Umber) : (s.modUmber f).host = s.host := rfl
@[simp] theorem State.modUmber_ochre (s : State) (f : Umber → Umber) : (s.modUmber f).ochre = s.ochre := rfl
@[simp] theorem State.modUmber_cobalt (s : State) (f : Umber → Umber) : (s.modUmber f).cobalt = s.cobalt := rfl
@[simp] theorem State.modUmber_sepia (s : State) (f : Umber → Umber) : (s.modUmber f).sepia = s.sepia := rfl
@[simp] theorem State.modUmber_viridian (s : State) (f : Umber → Umber) : (s.modUmber f).viridian = s.viridian := rfl
@[simp] theorem State.modUmber_indigo (s : State) (f : Umber → Umber) : (s.modUmber f).indigo = s.indigo := rfl
@[simp] theorem State.modUmber_slate (s : State) (f : Umber → Umber) : (s.modUmber f).slate = s.slate := rfl
@[simp] theorem State.modUmber_carmine (s : State) (f : Umber → Umber) : (s.modUmber f).carmine = s.carmine := rfl
@[simp] theorem State.modUmber_ivory (s : State) (f : Umber → Umber) : (s.modUmber f).ivory = s.ivory := rfl
@[simp] theorem State.modUmber_sable (s : State) (f : Umber → Umber) : (s.modUmber f).sable = s.sable := rfl
@[simp] theorem State.modUmber_faults (s : State) (f : Umber → Umber) : (s.modUmber f).faults = s.faults := rfl
@[simp] theorem State.modUmber_freeCtr (s : State) (f : Umber → Umber) : (s.modUmber f).freeCtr = s.freeCtr := rfl

@[simp] theorem State.setTdm_pending (s : State) (p : Nat) (x : TdmPort) : (s.setTdm p x).pending = s.pending := rfl
@[simp] theorem State.setTdm_regs (s : State) (p : Nat) (x : TdmPort) : (s.setTdm p x).regs = s.regs := rfl
@[simp] theorem State.setTdm_mem (s : State) (p : Nat) (x : TdmPort) : (s.setTdm p x).mem = s.mem := rfl
@[simp] theorem State.setTdm_hostMem (s : State) (p : Nat) (x : TdmPort) : (s.setTdm p x).hostMem = s.hostMem := rfl
@[simp] theorem State.setTdm_wire (s : State) (p : Nat) (x : TdmPort) : (s.setTdm p x).wire = s.wire := rfl
@[simp] theorem State.setTdm_readData (s : State) (p : Nat) (x : TdmPort) : (s.setTdm p x).readData = s.readData := rfl
@[simp] theorem State.setTdm_readErr (s : State) (p : Nat) (x : TdmPort) : (s.setTdm p x).readErr = s.readErr := rfl
@[simp] theorem State.setTdm_board (s : State) (p : Nat) (x : TdmPort) : (s.setTdm p x).board = s.board := rfl
@[simp] theorem State.setTdm_sys (s : State) (p : Nat) (x : TdmPort) : (s.setTdm p x).sys = s.sys := rfl
@[simp] theorem State.setTdm_amber (s : State) (p : Nat) (x : TdmPort) : (s.setTdm p x).amber = s.amber := rfl
@[simp] theorem State.setTdm_host (s : State) (p : Nat) (x : TdmPort) : (s.setTdm p x).host = s.host := rfl
@[simp] theorem State.setTdm_ochre (s : State) (p : Nat) (x : TdmPort) : (s.setTdm p x).ochre = s.ochre := rfl
@[simp] theorem State.setTdm_cobalt (s : State) (p : Nat) (x : TdmPort) : (s.setTdm p x).cobalt = s.cobalt := rfl
@[simp] theorem State.setTdm_sepia (s : State) (p : Nat) (x : TdmPort) : (s.setTdm p x).sepia = s.sepia := rfl
@[simp] theorem State.setTdm_viridian (s : State) (p : Nat) (x : TdmPort) : (s.setTdm p x).viridian = s.viridian := rfl
@[simp] theorem State.setTdm_indigo (s : State) (p : Nat) (x : TdmPort) : (s.setTdm p x).indigo = s.indigo := rfl
@[simp] theorem State.setTdm_slate (s : State) (p : Nat) (x : TdmPort) : (s.setTdm p x).slate = s.slate := rfl
@[simp] theorem State.setTdm_carmine (s : State) (p : Nat) (x : TdmPort) : (s.setTdm p x).carmine = s.carmine := rfl
@[simp] theorem State.setTdm_ivory (s : State) (p : Nat) (x : TdmPort) : (s.setTdm p x).ivory = s.ivory := rfl
@[simp] theorem State.setTdm_sable (s : State) (p : Nat) (x : TdmPort) : (s.setTdm p x).sable = s.sable := rfl
@[simp] theorem State.setTdm_faults (s : State) (p : Nat) (x : TdmPort) : (s.setTdm p x).faults = s.faults := rfl
@[simp] theorem State.setTdm_freeCtr (s : State) (p : Nat) (x : TdmPort) : (s.setTdm p x).freeCtr = s.freeCtr := rfl

@[simp] theorem State.setChan_pending (s : State) (c : Nat) (x : Chan) : (s.setChan c x).pending = s.pending := rfl
@[simp] theorem State.setChan_regs (s : State) (c : Nat) (x : Chan) : (s.setChan c x).regs = s.regs := rfl
@[simp] theorem State.setChan_mem (s : State) (c : Nat) (x : Chan) : (s.setChan c x).mem = s.mem := rfl
@[simp] theorem State.setChan_hostMem (s : State) (c : Nat) (x : Chan) : (s.setChan c x).hostMem = s.hostMem := rfl
@[simp] theorem State.setChan_wire (s : State) (c : Nat) (x : Chan) : (s.setChan c x).wire = s.wire := rfl
@[simp] theorem State.setChan_readData (s : State) (c : Nat) (x : Chan) : (s.setChan c x).readData = s.readData := rfl
@[simp] theorem State.setChan_readErr (s : State) (c : Nat) (x : Chan) : (s.setChan c x).readErr = s.readErr := rfl
@[simp] theorem State.setChan_board (s : State) (c : Nat) (x : Chan) : (s.setChan c x).board = s.board := rfl
@[simp] theorem State.setChan_sys (s : State) (c : Nat) (x : Chan) : (s.setChan c x).sys = s.sys := rfl
@[simp] theorem State.setChan_amber (s : State) (c : Nat) (x : Chan) : (s.setChan c x).amber = s.amber := rfl
@[simp] theorem State.setChan_host (s : State) (c : Nat) (x : Chan) : (s.setChan c x).host = s.host := rfl
@[simp] theorem State.setChan_ochre (s : State) (c : Nat) (x : Chan) : (s.setChan c x).ochre = s.ochre := rfl
@[simp] theorem State.setChan_cobalt (s : State) (c : Nat) (x : Chan) : (s.setChan c x).cobalt = s.cobalt := rfl
@[simp] theorem State.setChan_sepia (s : State) (c : Nat) (x : Chan) : (s.setChan c x).sepia = s.sepia := rfl
@[simp] theorem State.setChan_viridian (s : State) (c : Nat) (x : Chan) : (s.setChan c x).viridian = s.viridian := rfl
@[simp] theorem State.setChan_indigo (s : State) (c : Nat) (x : Chan) : (s.setChan c x).indigo = s.indigo := rfl
@[simp] theorem State.setChan_slate (s : State) (c : Nat) (x : Chan) : (s.setChan c x).slate = s.slate := rfl
@[simp] theorem State.setChan_carmine (s : State) (c : Nat) (x : Chan) : (s.setChan c x).carmine = s.carmine := rfl
@[simp] theorem State.setChan_ivory (s : State) (c : Nat) (x : Chan) : (s.setChan c x).ivory = s.ivory := rfl
@[simp] theorem State.setChan_sable (s : State) (c : Nat) (x : Chan) : (s.setChan c x).sable = s.sable := rfl
@[simp] theorem State.setChan_faults (s : State) (c : Nat) (x : Chan) : (s.setChan c x).faults = s.faults := rfl
@[simp] theorem State.setChan_freeCtr (s : State) (c : Nat) (x : Chan) : (s.setChan c x).freeCtr = s.freeCtr := rfl

@[simp] theorem State.setBand_pending (s : State) (b : Nat) (x : Band) : (s.setBand b x).pending = s.pending := rfl
@[simp] theorem State.setBand_regs (s : State) (b : Nat) (x : Band) : (s.setBand b x).regs = s.regs := rfl
@[simp] theorem State.setBand_mem (s : State) (b : Nat) (x : Band) : (s.setBand b x).mem = s.mem := rfl
@[simp] theorem State.setBand_hostMem (s : State) (b : Nat) (x : Band) : (s.setBand b x).hostMem = s.hostMem := rfl
@[simp] theorem State.setBand_wire (s : State) (b : Nat) (x : Band) : (s.setBand b x).wire = s.wire := rfl
@[simp] theorem State.setBand_readData (s : State) (b : Nat) (x : Band) : (s.setBand b x).readData = s.readData := rfl
@[simp] theorem State.setBand_readErr (s : State) (b : Nat) (x : Band) : (s.setBand b x).readErr = s.readErr := rfl
@[simp] theorem State.setBand_board (s : State) (b : Nat) (x : Band) : (s.setBand b x).board = s.board := rfl
@[simp] theorem State.setBand_sys (s : State) (b : Nat) (x : Band) : (s.setBand b x).sys = s.sys := rfl
@[simp] theorem State.setBand_amber (s : State) (b : Nat) (x : Band) : (s.setBand b x).amber = s.amber := rfl
@[simp] theorem State.setBand_host (s : State) (b : Nat) (x : Band) : (s.setBand b x).host = s.host := rfl
@[simp] theorem State.setBand_ochre (s : State) (b : Nat) (x : Band) : (s.setBand b x).ochre = s.ochre := rfl
@[simp] theorem State.setBand_cobalt (s : State) (b : Nat) (x : Band) : (s.setBand b x).cobalt = s.cobalt := rfl
@[simp] theorem State.setBand_sepia (s : State) (b : Nat) (x : Band) : (s.setBand b x).sepia = s.sepia := rfl
@[simp] theorem State.setBand_viridian (s : State) (b : Nat) (x : Band) : (s.setBand b x).viridian = s.viridian := rfl
@[simp] theorem State.setBand_indigo (s : State) (b : Nat) (x : Band) : (s.setBand b x).indigo = s.indigo := rfl
@[simp] theorem State.setBand_slate (s : State) (b : Nat) (x : Band) : (s.setBand b x).slate = s.slate := rfl
@[simp] theorem State.setBand_carmine (s : State) (b : Nat) (x : Band) : (s.setBand b x).carmine = s.carmine := rfl
@[simp] theorem State.setBand_ivory (s : State) (b : Nat) (x : Band) : (s.setBand b x).ivory = s.ivory := rfl
@[simp] theorem State.setBand_sable (s : State) (b : Nat) (x : Band) : (s.setBand b x).sable = s.sable := rfl
@[simp] theorem State.setBand_faults (s : State) (b : Nat) (x : Band) : (s.setBand b x).faults = s.faults := rfl
@[simp] theorem State.setBand_freeCtr (s : State) (b : Nat) (x : Band) : (s.setBand b x).freeCtr = s.freeCtr := rfl

@[simp] theorem State.setGroup_pending (s : State) (g : Nat) (x : SyncGroup) : (s.setGroup g x).pending = s.pending := rfl
@[simp] theorem State.setGroup_regs (s : State) (g : Nat) (x : SyncGroup) : (s.setGroup g x).regs = s.regs := rfl
@[simp] theorem State.setGroup_mem (s : State) (g : Nat) (x : SyncGroup) : (s.setGroup g x).mem = s.mem := rfl
@[simp] theorem State.setGroup_hostMem (s : State) (g : Nat) (x : SyncGroup) : (s.setGroup g x).hostMem = s.hostMem := rfl
@[simp] theorem State.setGroup_wire (s : State) (g : Nat) (x : SyncGroup) : (s.setGroup g x).wire = s.wire := rfl
@[simp] theorem State.setGroup_readData (s : State) (g : Nat) (x : SyncGroup) : (s.setGroup g x).readData = s.readData := rfl
@[simp] theorem State.setGroup_readErr (s : State) (g : Nat) (x : SyncGroup) : (s.setGroup g x).readErr = s.readErr := rfl
@[simp] theorem State.setGroup_board (s : State) (g : Nat) (x : SyncGroup) : (s.setGroup g x).board = s.board := rfl
@[simp] theorem State.setGroup_sys (s : State) (g : Nat) (x : SyncGroup) : (s.setGroup g x).sys = s.sys := rfl
@[simp] theorem State.setGroup_amber (s : State) (g : Nat) (x : SyncGroup) : (s.setGroup g x).amber = s.amber := rfl
@[simp] theorem State.setGroup_host (s : State) (g : Nat) (x : SyncGroup) : (s.setGroup g x).host = s.host := rfl
@[simp] theorem State.setGroup_ochre (s : State) (g : Nat) (x : SyncGroup) : (s.setGroup g x).ochre = s.ochre := rfl
@[simp] theorem State.setGroup_cobalt (s : State) (g : Nat) (x : SyncGroup) : (s.setGroup g x).cobalt = s.cobalt := rfl
@[simp] theorem State.setGroup_sepia (s : State) (g : Nat) (x : SyncGroup) : (s.setGroup g x).sepia = s.sepia := rfl
@[simp] theorem State.setGroup_viridian (s : State) (g : Nat) (x : SyncGroup) : (s.setGroup g x).viridian = s.viridian := rfl
@[simp] theorem State.setGroup_indigo (s : State) (g : Nat) (x : SyncGroup) : (s.setGroup g x).indigo = s.indigo := rfl
@[simp] theorem State.setGroup_slate (s : State) (g : Nat) (x : SyncGroup) : (s.setGroup g x).slate = s.slate := rfl
@[simp] theorem State.setGroup_carmine (s : State) (g : Nat) (x : SyncGroup) : (s.setGroup g x).carmine = s.carmine := rfl
@[simp] theorem State.setGroup_ivory (s : State) (g : Nat) (x : SyncGroup) : (s.setGroup g x).ivory = s.ivory := rfl
@[simp] theorem State.setGroup_sable (s : State) (g : Nat) (x : SyncGroup) : (s.setGroup g x).sable = s.sable := rfl
@[simp] theorem State.setGroup_faults (s : State) (g : Nat) (x : SyncGroup) : (s.setGroup g x).faults = s.faults := rfl
@[simp] theorem State.setGroup_freeCtr (s : State) (g : Nat) (x : SyncGroup) : (s.setGroup g x).freeCtr = s.freeCtr := rfl

@[simp] theorem State.setRule_pending (s : State) (r : Nat) (x : RuleDyn) : (s.setRule r x).pending = s.pending := rfl
@[simp] theorem State.setRule_regs (s : State) (r : Nat) (x : RuleDyn) : (s.setRule r x).regs = s.regs := rfl
@[simp] theorem State.setRule_mem (s : State) (r : Nat) (x : RuleDyn) : (s.setRule r x).mem = s.mem := rfl
@[simp] theorem State.setRule_hostMem (s : State) (r : Nat) (x : RuleDyn) : (s.setRule r x).hostMem = s.hostMem := rfl
@[simp] theorem State.setRule_wire (s : State) (r : Nat) (x : RuleDyn) : (s.setRule r x).wire = s.wire := rfl
@[simp] theorem State.setRule_readData (s : State) (r : Nat) (x : RuleDyn) : (s.setRule r x).readData = s.readData := rfl
@[simp] theorem State.setRule_readErr (s : State) (r : Nat) (x : RuleDyn) : (s.setRule r x).readErr = s.readErr := rfl
@[simp] theorem State.setRule_board (s : State) (r : Nat) (x : RuleDyn) : (s.setRule r x).board = s.board := rfl
@[simp] theorem State.setRule_sys (s : State) (r : Nat) (x : RuleDyn) : (s.setRule r x).sys = s.sys := rfl
@[simp] theorem State.setRule_amber (s : State) (r : Nat) (x : RuleDyn) : (s.setRule r x).amber = s.amber := rfl
@[simp] theorem State.setRule_host (s : State) (r : Nat) (x : RuleDyn) : (s.setRule r x).host = s.host := rfl
@[simp] theorem State.setRule_ochre (s : State) (r : Nat) (x : RuleDyn) : (s.setRule r x).ochre = s.ochre := rfl
@[simp] theorem State.setRule_cobalt (s : State) (r : Nat) (x : RuleDyn) : (s.setRule r x).cobalt = s.cobalt := rfl
@[simp] theorem State.setRule_sepia (s : State) (r : Nat) (x : RuleDyn) : (s.setRule r x).sepia = s.sepia := rfl
@[simp] theorem State.setRule_umber (s : State) (r : Nat) (x : RuleDyn) : (s.setRule r x).umber = s.umber := rfl
@[simp] theorem State.setRule_indigo (s : State) (r : Nat) (x : RuleDyn) : (s.setRule r x).indigo = s.indigo := rfl
@[simp] theorem State.setRule_slate (s : State) (r : Nat) (x : RuleDyn) : (s.setRule r x).slate = s.slate := rfl
@[simp] theorem State.setRule_carmine (s : State) (r : Nat) (x : RuleDyn) : (s.setRule r x).carmine = s.carmine := rfl
@[simp] theorem State.setRule_ivory (s : State) (r : Nat) (x : RuleDyn) : (s.setRule r x).ivory = s.ivory := rfl
@[simp] theorem State.setRule_sable (s : State) (r : Nat) (x : RuleDyn) : (s.setRule r x).sable = s.sable := rfl
@[simp] theorem State.setRule_faults (s : State) (r : Nat) (x : RuleDyn) : (s.setRule r x).faults = s.faults := rfl
@[simp] theorem State.setRule_freeCtr (s : State) (r : Nat) (x : RuleDyn) : (s.setRule r x).freeCtr = s.freeCtr := rfl

@[simp] theorem State.modIndigo_pending (s : State) (f : Indigo → Indigo) : (s.modIndigo f).pending = s.pending := rfl
@[simp] theorem State.modIndigo_regs (s : State) (f : Indigo → Indigo) : (s.modIndigo f).regs = s.regs := rfl
@[simp] theorem State.modIndigo_mem (s : State) (f : Indigo → Indigo) : (s.modIndigo f).mem = s.mem := rfl
@[simp] theorem State.modIndigo_hostMem (s : State) (f : Indigo → Indigo) : (s.modIndigo f).hostMem = s.hostMem := rfl
@[simp] theorem State.modIndigo_wire (s : State) (f : Indigo → Indigo) : (s.modIndigo f).wire = s.wire := rfl
@[simp] theorem State.modIndigo_readData (s : State) (f : Indigo → Indigo) : (s.modIndigo f).readData = s.readData := rfl
@[simp] theorem State.modIndigo_readErr (s : State) (f : Indigo → Indigo) : (s.modIndigo f).readErr = s.readErr := rfl
@[simp] theorem State.modIndigo_board (s : State) (f : Indigo → Indigo) : (s.modIndigo f).board = s.board := rfl
@[simp] theorem State.modIndigo_sys (s : State) (f : Indigo → Indigo) : (s.modIndigo f).sys = s.sys := rfl
@[simp] theorem State.modIndigo_amber (s : State) (f : Indigo → Indigo) : (s.modIndigo f).amber = s.amber := rfl
@[simp] theorem State.modIndigo_host (s : State) (f : Indigo → Indigo) : (s.modIndigo f).host = s.host := rfl
@[simp] theorem State.modIndigo_ochre (s : State) (f : Indigo → Indigo) : (s.modIndigo f).ochre = s.ochre := rfl
@[simp] theorem State.modIndigo_cobalt (s : State) (f : Indigo → Indigo) : (s.modIndigo f).cobalt = s.cobalt := rfl
@[simp] theorem State.modIndigo_sepia (s : State) (f : Indigo → Indigo) : (s.modIndigo f).sepia = s.sepia := rfl
@[simp] theorem State.modIndigo_umber (s : State) (f : Indigo → Indigo) : (s.modIndigo f).umber = s.umber := rfl
@[simp] theorem State.modIndigo_viridian (s : State) (f : Indigo → Indigo) : (s.modIndigo f).viridian = s.viridian := rfl
@[simp] theorem State.modIndigo_slate (s : State) (f : Indigo → Indigo) : (s.modIndigo f).slate = s.slate := rfl
@[simp] theorem State.modIndigo_carmine (s : State) (f : Indigo → Indigo) : (s.modIndigo f).carmine = s.carmine := rfl
@[simp] theorem State.modIndigo_ivory (s : State) (f : Indigo → Indigo) : (s.modIndigo f).ivory = s.ivory := rfl
@[simp] theorem State.modIndigo_sable (s : State) (f : Indigo → Indigo) : (s.modIndigo f).sable = s.sable := rfl
@[simp] theorem State.modIndigo_faults (s : State) (f : Indigo → Indigo) : (s.modIndigo f).faults = s.faults := rfl
@[simp] theorem State.modIndigo_freeCtr (s : State) (f : Indigo → Indigo) : (s.modIndigo f).freeCtr = s.freeCtr := rfl

@[simp] theorem State.setBind_pending (s : State) (b : Nat) (x : Bind) : (s.setBind b x).pending = s.pending := rfl
@[simp] theorem State.setBind_regs (s : State) (b : Nat) (x : Bind) : (s.setBind b x).regs = s.regs := rfl
@[simp] theorem State.setBind_mem (s : State) (b : Nat) (x : Bind) : (s.setBind b x).mem = s.mem := rfl
@[simp] theorem State.setBind_hostMem (s : State) (b : Nat) (x : Bind) : (s.setBind b x).hostMem = s.hostMem := rfl
@[simp] theorem State.setBind_wire (s : State) (b : Nat) (x : Bind) : (s.setBind b x).wire = s.wire := rfl
@[simp] theorem State.setBind_readData (s : State) (b : Nat) (x : Bind) : (s.setBind b x).readData = s.readData := rfl
@[simp] theorem State.setBind_readErr (s : State) (b : Nat) (x : Bind) : (s.setBind b x).readErr = s.readErr := rfl
@[simp] theorem State.setBind_board (s : State) (b : Nat) (x : Bind) : (s.setBind b x).board = s.board := rfl
@[simp] theorem State.setBind_sys (s : State) (b : Nat) (x : Bind) : (s.setBind b x).sys = s.sys := rfl
@[simp] theorem State.setBind_amber (s : State) (b : Nat) (x : Bind) : (s.setBind b x).amber = s.amber := rfl
@[simp] theorem State.setBind_host (s : State) (b : Nat) (x : Bind) : (s.setBind b x).host = s.host := rfl
@[simp] theorem State.setBind_ochre (s : State) (b : Nat) (x : Bind) : (s.setBind b x).ochre = s.ochre := rfl
@[simp] theorem State.setBind_cobalt (s : State) (b : Nat) (x : Bind) : (s.setBind b x).cobalt = s.cobalt := rfl
@[simp] theorem State.setBind_sepia (s : State) (b : Nat) (x : Bind) : (s.setBind b x).sepia = s.sepia := rfl
@[simp] theorem State.setBind_umber (s : State) (b : Nat) (x : Bind) : (s.setBind b x).umber = s.umber := rfl
@[simp] theorem State.setBind_viridian (s : State) (b : Nat) (x : Bind) : (s.setBind b x).viridian = s.viridian := rfl
@[simp] theorem State.setBind_slate (s : State) (b : Nat) (x : Bind) : (s.setBind b x).slate = s.slate := rfl
@[simp] theorem State.setBind_carmine (s : State) (b : Nat) (x : Bind) : (s.setBind b x).carmine = s.carmine := rfl
@[simp] theorem State.setBind_ivory (s : State) (b : Nat) (x : Bind) : (s.setBind b x).ivory = s.ivory := rfl
@[simp] theorem State.setBind_sable (s : State) (b : Nat) (x : Bind) : (s.setBind b x).sable = s.sable := rfl
@[simp] theorem State.setBind_faults (s : State) (b : Nat) (x : Bind) : (s.setBind b x).faults = s.faults := rfl
@[simp] theorem State.setBind_freeCtr (s : State) (b : Nat) (x : Bind) : (s.setBind b x).freeCtr = s.freeCtr := rfl

@[simp] theorem State.modSlate_pending (s : State) (f : Slate → Slate) : (s.modSlate f).pending = s.pending := rfl
@[simp] theorem State.modSlate_regs (s : State) (f : Slate → Slate) : (s.modSlate f).regs = s.regs := rfl
@[simp] theorem State.modSlate_mem (s : State) (f : Slate → Slate) : (s.modSlate f).mem = s.mem := rfl
@[simp] theorem State.modSlate_hostMem (s : State) (f : Slate → Slate) : (s.modSlate f).hostMem = s.hostMem := rfl
@[simp] theorem State.modSlate_wire (s : State) (f : Slate → Slate) : (s.modSlate f).wire = s.wire := rfl
@[simp] theorem State.modSlate_readData (s : State) (f : Slate → Slate) : (s.modSlate f).readData = s.readData := rfl
@[simp] theorem State.modSlate_readErr (s : State) (f : Slate → Slate) : (s.modSlate f).readErr = s.readErr := rfl
@[simp] theorem State.modSlate_board (s : State) (f : Slate → Slate) : (s.modSlate f).board = s.board := rfl
@[simp] theorem State.modSlate_sys (s : State) (f : Slate → Slate) : (s.modSlate f).sys = s.sys := rfl
@[simp] theorem State.modSlate_amber (s : State) (f : Slate → Slate) : (s.modSlate f).amber = s.amber := rfl
@[simp] theorem State.modSlate_host (s : State) (f : Slate → Slate) : (s.modSlate f).host = s.host := rfl
@[simp] theorem State.modSlate_ochre (s : State) (f : Slate → Slate) : (s.modSlate f).ochre = s.ochre := rfl
@[simp] theorem State.modSlate_cobalt (s : State) (f : Slate → Slate) : (s.modSlate f).cobalt = s.cobalt := rfl
@[simp] theorem State.modSlate_sepia (s : State) (f : Slate → Slate) : (s.modSlate f).sepia = s.sepia := rfl
@[simp] theorem State.modSlate_umber (s : State) (f : Slate → Slate) : (s.modSlate f).umber = s.umber := rfl
@[simp] theorem State.modSlate_viridian (s : State) (f : Slate → Slate) : (s.modSlate f).viridian = s.viridian := rfl
@[simp] theorem State.modSlate_indigo (s : State) (f : Slate → Slate) : (s.modSlate f).indigo = s.indigo := rfl
@[simp] theorem State.modSlate_carmine (s : State) (f : Slate → Slate) : (s.modSlate f).carmine = s.carmine := rfl
@[simp] theorem State.modSlate_ivory (s : State) (f : Slate → Slate) : (s.modSlate f).ivory = s.ivory := rfl
@[simp] theorem State.modSlate_sable (s : State) (f : Slate → Slate) : (s.modSlate f).sable = s.sable := rfl
@[simp] theorem State.modSlate_faults (s : State) (f : Slate → Slate) : (s.modSlate f).faults = s.faults := rfl
@[simp] theorem State.modSlate_freeCtr (s : State) (f : Slate → Slate) : (s.modSlate f).freeCtr = s.freeCtr := rfl


@[simp] theorem State.setComb_pending (s : State) (c : Nat) (x : Comb) : (s.setComb c x).pending = s.pending := rfl
@[simp] theorem State.setComb_regs (s : State) (c : Nat) (x : Comb) : (s.setComb c x).regs = s.regs := rfl
@[simp] theorem State.setComb_mem (s : State) (c : Nat) (x : Comb) : (s.setComb c x).mem = s.mem := rfl
@[simp] theorem State.setComb_hostMem (s : State) (c : Nat) (x : Comb) : (s.setComb c x).hostMem = s.hostMem := rfl
@[simp] theorem State.setComb_wire (s : State) (c : Nat) (x : Comb) : (s.setComb c x).wire = s.wire := rfl
@[simp] theorem State.setComb_readData (s : State) (c : Nat) (x : Comb) : (s.setComb c x).readData = s.readData := rfl
@[simp] theorem State.setComb_readErr (s : State) (c : Nat) (x : Comb) : (s.setComb c x).readErr = s.readErr := rfl
@[simp] theorem State.setComb_board (s : State) (c : Nat) (x : Comb) : (s.setComb c x).board = s.board := rfl
@[simp] theorem State.setComb_sys (s : State) (c : Nat) (x : Comb) : (s.setComb c x).sys = s.sys := rfl
@[simp] theorem State.setComb_amber (s : State) (c : Nat) (x : Comb) : (s.setComb c x).amber = s.amber := rfl
@[simp] theorem State.setComb_host (s : State) (c : Nat) (x : Comb) : (s.setComb c x).host = s.host := rfl
@[simp] theorem State.setComb_ochre (s : State) (c : Nat) (x : Comb) : (s.setComb c x).ochre = s.ochre := rfl
@[simp] theorem State.setComb_cobalt (s : State) (c : Nat) (x : Comb) : (s.setComb c x).cobalt = s.cobalt := rfl
@[simp] theorem State.setComb_sepia (s : State) (c : Nat) (x : Comb) : (s.setComb c x).sepia = s.sepia := rfl
@[simp] theorem State.setComb_umber (s : State) (c : Nat) (x : Comb) : (s.setComb c x).umber = s.umber := rfl
@[simp] theorem State.setComb_viridian (s : State) (c : Nat) (x : Comb) : (s.setComb c x).viridian = s.viridian := rfl
@[simp] theorem State.setComb_indigo (s : State) (c : Nat) (x : Comb) : (s.setComb c x).indigo = s.indigo := rfl
@[simp] theorem State.setComb_carmine (s : State) (c : Nat) (x : Comb) : (s.setComb c x).carmine = s.carmine := rfl
@[simp] theorem State.setComb_ivory (s : State) (c : Nat) (x : Comb) : (s.setComb c x).ivory = s.ivory := rfl
@[simp] theorem State.setComb_sable (s : State) (c : Nat) (x : Comb) : (s.setComb c x).sable = s.sable := rfl
@[simp] theorem State.setComb_faults (s : State) (c : Nat) (x : Comb) : (s.setComb c x).faults = s.faults := rfl
@[simp] theorem State.setComb_freeCtr (s : State) (c : Nat) (x : Comb) : (s.setComb c x).freeCtr = s.freeCtr := rfl

@[simp] theorem State.modCarmine_pending (s : State) (f : Carmine → Carmine) : (s.modCarmine f).pending = s.pending := rfl
@[simp] theorem State.modCarmine_regs (s : State) (f : Carmine → Carmine) : (s.modCarmine f).regs = s.regs := rfl
@[simp] theorem State.modCarmine_mem (s : State) (f : Carmine → Carmine) : (s.modCarmine f).mem = s.mem := rfl
@[simp] theorem State.modCarmine_hostMem (s : State) (f : Carmine → Carmine) : (s.modCarmine f).hostMem = s.hostMem := rfl
@[simp] theorem State.modCarmine_wire (s : State) (f : Carmine → Carmine) : (s.modCarmine f).wire = s.wire := rfl
@[simp] theorem State.modCarmine_readData (s : State) (f : Carmine → Carmine) : (s.modCarmine f).readData = s.readData := rfl
@[simp] theorem State.modCarmine_readErr (s : State) (f : Carmine → Carmine) : (s.modCarmine f).readErr = s.readErr := rfl
@[simp] theorem State.modCarmine_board (s : State) (f : Carmine → Carmine) : (s.modCarmine f).board = s.board := rfl
@[simp] theorem State.modCarmine_sys (s : State) (f : Carmine → Carmine) : (s.modCarmine f).sys = s.sys := rfl
@[simp] theorem State.modCarmine_amber (s : State) (f : Carmine → Carmine) : (s.modCarmine f).amber = s.amber := rfl
@[simp] theorem State.modCarmine_host (s : State) (f : Carmine → Carmine) : (s.modCarmine f).host = s.host := rfl
@[simp] theorem State.modCarmine_ochre (s : State) (f : Carmine → Carmine) : (s.modCarmine f).ochre = s.ochre := rfl
@[simp] theorem State.modCarmine_cobalt (s : State) (f : Carmine → Carmine) : (s.modCarmine f).cobalt = s.cobalt := rfl
@[simp] theorem State.modCarmine_sepia (s : State) (f : Carmine → Carmine) : (s.modCarmine f).sepia = s.sepia := rfl
@[simp] theorem State.modCarmine_umber (s : State) (f : Carmine → Carmine) : (s.modCarmine f).umber = s.umber := rfl
@[simp] theorem State.modCarmine_viridian (s : State) (f : Carmine → Carmine) : (s.modCarmine f).viridian = s.viridian := rfl
@[simp] theorem State.modCarmine_indigo (s : State) (f : Carmine → Carmine) : (s.modCarmine f).indigo = s.indigo := rfl
@[simp] theorem State.modCarmine_slate (s : State) (f : Carmine → Carmine) : (s.modCarmine f).slate = s.slate := rfl
@[simp] theorem State.modCarmine_ivory (s : State) (f : Carmine → Carmine) : (s.modCarmine f).ivory = s.ivory := rfl
@[simp] theorem State.modCarmine_sable (s : State) (f : Carmine → Carmine) : (s.modCarmine f).sable = s.sable := rfl
@[simp] theorem State.modCarmine_faults (s : State) (f : Carmine → Carmine) : (s.modCarmine f).faults = s.faults := rfl
@[simp] theorem State.modCarmine_freeCtr (s : State) (f : Carmine → Carmine) : (s.modCarmine f).freeCtr = s.freeCtr := rfl

@[simp] theorem State.setSrc_pending (s : State) (n : Nat) (x : Src) : (s.setSrc n x).pending = s.pending := rfl
@[simp] theorem State.setSrc_regs (s : State) (n : Nat) (x : Src) : (s.setSrc n x).regs = s.regs := rfl
@[simp] theorem State.setSrc_mem (s : State) (n : Nat) (x : Src) : (s.setSrc n x).mem = s.mem := rfl
@[simp] theorem State.setSrc_hostMem (s : State) (n : Nat) (x : Src) : (s.setSrc n x).hostMem = s.hostMem := rfl
@[simp] theorem State.setSrc_wire (s : State) (n : Nat) (x : Src) : (s.setSrc n x).wire = s.wire := rfl
@[simp] theorem State.setSrc_readData (s : State) (n : Nat) (x : Src) : (s.setSrc n x).readData = s.readData := rfl
@[simp] theorem State.setSrc_readErr (s : State) (n : Nat) (x : Src) : (s.setSrc n x).readErr = s.readErr := rfl
@[simp] theorem State.setSrc_board (s : State) (n : Nat) (x : Src) : (s.setSrc n x).board = s.board := rfl
@[simp] theorem State.setSrc_sys (s : State) (n : Nat) (x : Src) : (s.setSrc n x).sys = s.sys := rfl
@[simp] theorem State.setSrc_amber (s : State) (n : Nat) (x : Src) : (s.setSrc n x).amber = s.amber := rfl
@[simp] theorem State.setSrc_host (s : State) (n : Nat) (x : Src) : (s.setSrc n x).host = s.host := rfl
@[simp] theorem State.setSrc_ochre (s : State) (n : Nat) (x : Src) : (s.setSrc n x).ochre = s.ochre := rfl
@[simp] theorem State.setSrc_cobalt (s : State) (n : Nat) (x : Src) : (s.setSrc n x).cobalt = s.cobalt := rfl
@[simp] theorem State.setSrc_sepia (s : State) (n : Nat) (x : Src) : (s.setSrc n x).sepia = s.sepia := rfl
@[simp] theorem State.setSrc_umber (s : State) (n : Nat) (x : Src) : (s.setSrc n x).umber = s.umber := rfl
@[simp] theorem State.setSrc_viridian (s : State) (n : Nat) (x : Src) : (s.setSrc n x).viridian = s.viridian := rfl
@[simp] theorem State.setSrc_indigo (s : State) (n : Nat) (x : Src) : (s.setSrc n x).indigo = s.indigo := rfl
@[simp] theorem State.setSrc_slate (s : State) (n : Nat) (x : Src) : (s.setSrc n x).slate = s.slate := rfl
@[simp] theorem State.setSrc_ivory (s : State) (n : Nat) (x : Src) : (s.setSrc n x).ivory = s.ivory := rfl
@[simp] theorem State.setSrc_sable (s : State) (n : Nat) (x : Src) : (s.setSrc n x).sable = s.sable := rfl
@[simp] theorem State.setSrc_faults (s : State) (n : Nat) (x : Src) : (s.setSrc n x).faults = s.faults := rfl
@[simp] theorem State.setSrc_freeCtr (s : State) (n : Nat) (x : Src) : (s.setSrc n x).freeCtr = s.freeCtr := rfl

@[simp] theorem State.setTgt_pending (s : State) (t : Nat) (x : Target) : (s.setTgt t x).pending = s.pending := rfl
@[simp] theorem State.setTgt_regs (s : State) (t : Nat) (x : Target) : (s.setTgt t x).regs = s.regs := rfl
@[simp] theorem State.setTgt_mem (s : State) (t : Nat) (x : Target) : (s.setTgt t x).mem = s.mem := rfl
@[simp] theorem State.setTgt_hostMem (s : State) (t : Nat) (x : Target) : (s.setTgt t x).hostMem = s.hostMem := rfl
@[simp] theorem State.setTgt_wire (s : State) (t : Nat) (x : Target) : (s.setTgt t x).wire = s.wire := rfl
@[simp] theorem State.setTgt_readData (s : State) (t : Nat) (x : Target) : (s.setTgt t x).readData = s.readData := rfl
@[simp] theorem State.setTgt_readErr (s : State) (t : Nat) (x : Target) : (s.setTgt t x).readErr = s.readErr := rfl
@[simp] theorem State.setTgt_board (s : State) (t : Nat) (x : Target) : (s.setTgt t x).board = s.board := rfl
@[simp] theorem State.setTgt_sys (s : State) (t : Nat) (x : Target) : (s.setTgt t x).sys = s.sys := rfl
@[simp] theorem State.setTgt_amber (s : State) (t : Nat) (x : Target) : (s.setTgt t x).amber = s.amber := rfl
@[simp] theorem State.setTgt_host (s : State) (t : Nat) (x : Target) : (s.setTgt t x).host = s.host := rfl
@[simp] theorem State.setTgt_ochre (s : State) (t : Nat) (x : Target) : (s.setTgt t x).ochre = s.ochre := rfl
@[simp] theorem State.setTgt_cobalt (s : State) (t : Nat) (x : Target) : (s.setTgt t x).cobalt = s.cobalt := rfl
@[simp] theorem State.setTgt_sepia (s : State) (t : Nat) (x : Target) : (s.setTgt t x).sepia = s.sepia := rfl
@[simp] theorem State.setTgt_umber (s : State) (t : Nat) (x : Target) : (s.setTgt t x).umber = s.umber := rfl
@[simp] theorem State.setTgt_viridian (s : State) (t : Nat) (x : Target) : (s.setTgt t x).viridian = s.viridian := rfl
@[simp] theorem State.setTgt_indigo (s : State) (t : Nat) (x : Target) : (s.setTgt t x).indigo = s.indigo := rfl
@[simp] theorem State.setTgt_slate (s : State) (t : Nat) (x : Target) : (s.setTgt t x).slate = s.slate := rfl
@[simp] theorem State.setTgt_ivory (s : State) (t : Nat) (x : Target) : (s.setTgt t x).ivory = s.ivory := rfl
@[simp] theorem State.setTgt_sable (s : State) (t : Nat) (x : Target) : (s.setTgt t x).sable = s.sable := rfl
@[simp] theorem State.setTgt_faults (s : State) (t : Nat) (x : Target) : (s.setTgt t x).faults = s.faults := rfl
@[simp] theorem State.setTgt_freeCtr (s : State) (t : Nat) (x : Target) : (s.setTgt t x).freeCtr = s.freeCtr := rfl

@[simp] theorem State.modIvory_pending (s : State) (f : Ivory → Ivory) : (s.modIvory f).pending = s.pending := rfl
@[simp] theorem State.modIvory_regs (s : State) (f : Ivory → Ivory) : (s.modIvory f).regs = s.regs := rfl
@[simp] theorem State.modIvory_mem (s : State) (f : Ivory → Ivory) : (s.modIvory f).mem = s.mem := rfl
@[simp] theorem State.modIvory_hostMem (s : State) (f : Ivory → Ivory) : (s.modIvory f).hostMem = s.hostMem := rfl
@[simp] theorem State.modIvory_wire (s : State) (f : Ivory → Ivory) : (s.modIvory f).wire = s.wire := rfl
@[simp] theorem State.modIvory_readData (s : State) (f : Ivory → Ivory) : (s.modIvory f).readData = s.readData := rfl
@[simp] theorem State.modIvory_readErr (s : State) (f : Ivory → Ivory) : (s.modIvory f).readErr = s.readErr := rfl
@[simp] theorem State.modIvory_board (s : State) (f : Ivory → Ivory) : (s.modIvory f).board = s.board := rfl
@[simp] theorem State.modIvory_sys (s : State) (f : Ivory → Ivory) : (s.modIvory f).sys = s.sys := rfl
@[simp] theorem State.modIvory_amber (s : State) (f : Ivory → Ivory) : (s.modIvory f).amber = s.amber := rfl
@[simp] theorem State.modIvory_host (s : State) (f : Ivory → Ivory) : (s.modIvory f).host = s.host := rfl
@[simp] theorem State.modIvory_ochre (s : State) (f : Ivory → Ivory) : (s.modIvory f).ochre = s.ochre := rfl
@[simp] theorem State.modIvory_cobalt (s : State) (f : Ivory → Ivory) : (s.modIvory f).cobalt = s.cobalt := rfl
@[simp] theorem State.modIvory_sepia (s : State) (f : Ivory → Ivory) : (s.modIvory f).sepia = s.sepia := rfl
@[simp] theorem State.modIvory_umber (s : State) (f : Ivory → Ivory) : (s.modIvory f).umber = s.umber := rfl
@[simp] theorem State.modIvory_viridian (s : State) (f : Ivory → Ivory) : (s.modIvory f).viridian = s.viridian := rfl
@[simp] theorem State.modIvory_indigo (s : State) (f : Ivory → Ivory) : (s.modIvory f).indigo = s.indigo := rfl
@[simp] theorem State.modIvory_slate (s : State) (f : Ivory → Ivory) : (s.modIvory f).slate = s.slate := rfl
@[simp] theorem State.modIvory_carmine (s : State) (f : Ivory → Ivory) : (s.modIvory f).carmine = s.carmine := rfl
@[simp] theorem State.modIvory_sable (s : State) (f : Ivory → Ivory) : (s.modIvory f).sable = s.sable := rfl
@[simp] theorem State.modIvory_faults (s : State) (f : Ivory → Ivory) : (s.modIvory f).faults = s.faults := rfl
@[simp] theorem State.modIvory_freeCtr (s : State) (f : Ivory → Ivory) : (s.modIvory f).freeCtr = s.freeCtr := rfl

@[simp] theorem State.modSable_pending (s : State) (f : Sable → Sable) : (s.modSable f).pending = s.pending := rfl
@[simp] theorem State.modSable_regs (s : State) (f : Sable → Sable) : (s.modSable f).regs = s.regs := rfl
@[simp] theorem State.modSable_mem (s : State) (f : Sable → Sable) : (s.modSable f).mem = s.mem := rfl
@[simp] theorem State.modSable_hostMem (s : State) (f : Sable → Sable) : (s.modSable f).hostMem = s.hostMem := rfl
@[simp] theorem State.modSable_wire (s : State) (f : Sable → Sable) : (s.modSable f).wire = s.wire := rfl
@[simp] theorem State.modSable_readData (s : State) (f : Sable → Sable) : (s.modSable f).readData = s.readData := rfl
@[simp] theorem State.modSable_readErr (s : State) (f : Sable → Sable) : (s.modSable f).readErr = s.readErr := rfl
@[simp] theorem State.modSable_board (s : State) (f : Sable → Sable) : (s.modSable f).board = s.board := rfl
@[simp] theorem State.modSable_sys (s : State) (f : Sable → Sable) : (s.modSable f).sys = s.sys := rfl
@[simp] theorem State.modSable_amber (s : State) (f : Sable → Sable) : (s.modSable f).amber = s.amber := rfl
@[simp] theorem State.modSable_host (s : State) (f : Sable → Sable) : (s.modSable f).host = s.host := rfl
@[simp] theorem State.modSable_ochre (s : State) (f : Sable → Sable) : (s.modSable f).ochre = s.ochre := rfl
@[simp] theorem State.modSable_cobalt (s : State) (f : Sable → Sable) : (s.modSable f).cobalt = s.cobalt := rfl
@[simp] theorem State.modSable_sepia (s : State) (f : Sable → Sable) : (s.modSable f).sepia = s.sepia := rfl
@[simp] theorem State.modSable_umber (s : State) (f : Sable → Sable) : (s.modSable f).umber = s.umber := rfl
@[simp] theorem State.modSable_viridian (s : State) (f : Sable → Sable) : (s.modSable f).viridian = s.viridian := rfl
@[simp] theorem State.modSable_indigo (s : State) (f : Sable → Sable) : (s.modSable f).indigo = s.indigo := rfl
@[simp] theorem State.modSable_slate (s : State) (f : Sable → Sable) : (s.modSable f).slate = s.slate := rfl
@[simp] theorem State.modSable_carmine (s : State) (f : Sable → Sable) : (s.modSable f).carmine = s.carmine := rfl
@[simp] theorem State.modSable_ivory (s : State) (f : Sable → Sable) : (s.modSable f).ivory = s.ivory := rfl
@[simp] theorem State.modSable_faults (s : State) (f : Sable → Sable) : (s.modSable f).faults = s.faults := rfl
@[simp] theorem State.modSable_freeCtr (s : State) (f : Sable → Sable) : (s.modSable f).freeCtr = s.freeCtr := rfl

@[simp] theorem State.setStr_pending (s : State) (n : Nat) (x : BatString) : (s.setStr n x).pending = s.pending := rfl
@[simp] theorem State.setStr_regs (s : State) (n : Nat) (x : BatString) : (s.setStr n x).regs = s.regs := rfl
@[simp] theorem State.setStr_mem (s : State) (n : Nat) (x : BatString) : (s.setStr n x).mem = s.mem := rfl
@[simp] theorem State.setStr_hostMem (s : State) (n : Nat) (x : BatString) : (s.setStr n x).hostMem = s.hostMem := rfl
@[simp] theorem State.setStr_wire (s : State) (n : Nat) (x : BatString) : (s.setStr n x).wire = s.wire := rfl
@[simp] theorem State.setStr_readData (s : State) (n : Nat) (x : BatString) : (s.setStr n x).readData = s.readData := rfl
@[simp] theorem State.setStr_readErr (s : State) (n : Nat) (x : BatString) : (s.setStr n x).readErr = s.readErr := rfl
@[simp] theorem State.setStr_board (s : State) (n : Nat) (x : BatString) : (s.setStr n x).board = s.board := rfl
@[simp] theorem State.setStr_sys (s : State) (n : Nat) (x : BatString) : (s.setStr n x).sys = s.sys := rfl
@[simp] theorem State.setStr_amber (s : State) (n : Nat) (x : BatString) : (s.setStr n x).amber = s.amber := rfl
@[simp] theorem State.setStr_host (s : State) (n : Nat) (x : BatString) : (s.setStr n x).host = s.host := rfl
@[simp] theorem State.setStr_ochre (s : State) (n : Nat) (x : BatString) : (s.setStr n x).ochre = s.ochre := rfl
@[simp] theorem State.setStr_cobalt (s : State) (n : Nat) (x : BatString) : (s.setStr n x).cobalt = s.cobalt := rfl
@[simp] theorem State.setStr_sepia (s : State) (n : Nat) (x : BatString) : (s.setStr n x).sepia = s.sepia := rfl
@[simp] theorem State.setStr_umber (s : State) (n : Nat) (x : BatString) : (s.setStr n x).umber = s.umber := rfl
@[simp] theorem State.setStr_viridian (s : State) (n : Nat) (x : BatString) : (s.setStr n x).viridian = s.viridian := rfl
@[simp] theorem State.setStr_indigo (s : State) (n : Nat) (x : BatString) : (s.setStr n x).indigo = s.indigo := rfl
@[simp] theorem State.setStr_slate (s : State) (n : Nat) (x : BatString) : (s.setStr n x).slate = s.slate := rfl
@[simp] theorem State.setStr_carmine (s : State) (n : Nat) (x : BatString) : (s.setStr n x).carmine = s.carmine := rfl
@[simp] theorem State.setStr_ivory (s : State) (n : Nat) (x : BatString) : (s.setStr n x).ivory = s.ivory := rfl
@[simp] theorem State.setStr_faults (s : State) (n : Nat) (x : BatString) : (s.setStr n x).faults = s.faults := rfl
@[simp] theorem State.setStr_freeCtr (s : State) (n : Nat) (x : BatString) : (s.setStr n x).freeCtr = s.freeCtr := rfl

@[simp] theorem State.modFaults_pending (s : State) (f : FaultUnit → FaultUnit) : (s.modFaults f).pending = s.pending := rfl
@[simp] theorem State.modFaults_regs (s : State) (f : FaultUnit → FaultUnit) : (s.modFaults f).regs = s.regs := rfl
@[simp] theorem State.modFaults_mem (s : State) (f : FaultUnit → FaultUnit) : (s.modFaults f).mem = s.mem := rfl
@[simp] theorem State.modFaults_hostMem (s : State) (f : FaultUnit → FaultUnit) : (s.modFaults f).hostMem = s.hostMem := rfl
@[simp] theorem State.modFaults_wire (s : State) (f : FaultUnit → FaultUnit) : (s.modFaults f).wire = s.wire := rfl
@[simp] theorem State.modFaults_readData (s : State) (f : FaultUnit → FaultUnit) : (s.modFaults f).readData = s.readData := rfl
@[simp] theorem State.modFaults_readErr (s : State) (f : FaultUnit → FaultUnit) : (s.modFaults f).readErr = s.readErr := rfl
@[simp] theorem State.modFaults_board (s : State) (f : FaultUnit → FaultUnit) : (s.modFaults f).board = s.board := rfl
@[simp] theorem State.modFaults_sys (s : State) (f : FaultUnit → FaultUnit) : (s.modFaults f).sys = s.sys := rfl
@[simp] theorem State.modFaults_amber (s : State) (f : FaultUnit → FaultUnit) : (s.modFaults f).amber = s.amber := rfl
@[simp] theorem State.modFaults_host (s : State) (f : FaultUnit → FaultUnit) : (s.modFaults f).host = s.host := rfl
@[simp] theorem State.modFaults_ochre (s : State) (f : FaultUnit → FaultUnit) : (s.modFaults f).ochre = s.ochre := rfl
@[simp] theorem State.modFaults_cobalt (s : State) (f : FaultUnit → FaultUnit) : (s.modFaults f).cobalt = s.cobalt := rfl
@[simp] theorem State.modFaults_sepia (s : State) (f : FaultUnit → FaultUnit) : (s.modFaults f).sepia = s.sepia := rfl
@[simp] theorem State.modFaults_umber (s : State) (f : FaultUnit → FaultUnit) : (s.modFaults f).umber = s.umber := rfl
@[simp] theorem State.modFaults_viridian (s : State) (f : FaultUnit → FaultUnit) : (s.modFaults f).viridian = s.viridian := rfl
@[simp] theorem State.modFaults_indigo (s : State) (f : FaultUnit → FaultUnit) : (s.modFaults f).indigo = s.indigo := rfl
@[simp] theorem State.modFaults_slate (s : State) (f : FaultUnit → FaultUnit) : (s.modFaults f).slate = s.slate := rfl
@[simp] theorem State.modFaults_carmine (s : State) (f : FaultUnit → FaultUnit) : (s.modFaults f).carmine = s.carmine := rfl
@[simp] theorem State.modFaults_ivory (s : State) (f : FaultUnit → FaultUnit) : (s.modFaults f).ivory = s.ivory := rfl
@[simp] theorem State.modFaults_sable (s : State) (f : FaultUnit → FaultUnit) : (s.modFaults f).sable = s.sable := rfl
@[simp] theorem State.modFaults_freeCtr (s : State) (f : FaultUnit → FaultUnit) : (s.modFaults f).freeCtr = s.freeCtr := rfl

@[simp] theorem State.modSys_pending (s : State) (f : Sys → Sys) : (s.modSys f).pending = s.pending := rfl
@[simp] theorem State.modSys_regs (s : State) (f : Sys → Sys) : (s.modSys f).regs = s.regs := rfl
@[simp] theorem State.modSys_mem (s : State) (f : Sys → Sys) : (s.modSys f).mem = s.mem := rfl
@[simp] theorem State.modSys_hostMem (s : State) (f : Sys → Sys) : (s.modSys f).hostMem = s.hostMem := rfl
@[simp] theorem State.modSys_wire (s : State) (f : Sys → Sys) : (s.modSys f).wire = s.wire := rfl
@[simp] theorem State.modSys_readData (s : State) (f : Sys → Sys) : (s.modSys f).readData = s.readData := rfl
@[simp] theorem State.modSys_readErr (s : State) (f : Sys → Sys) : (s.modSys f).readErr = s.readErr := rfl
@[simp] theorem State.modSys_board (s : State) (f : Sys → Sys) : (s.modSys f).board = s.board := rfl
@[simp] theorem State.modSys_amber (s : State) (f : Sys → Sys) : (s.modSys f).amber = s.amber := rfl
@[simp] theorem State.modSys_host (s : State) (f : Sys → Sys) : (s.modSys f).host = s.host := rfl
@[simp] theorem State.modSys_ochre (s : State) (f : Sys → Sys) : (s.modSys f).ochre = s.ochre := rfl
@[simp] theorem State.modSys_cobalt (s : State) (f : Sys → Sys) : (s.modSys f).cobalt = s.cobalt := rfl
@[simp] theorem State.modSys_sepia (s : State) (f : Sys → Sys) : (s.modSys f).sepia = s.sepia := rfl
@[simp] theorem State.modSys_umber (s : State) (f : Sys → Sys) : (s.modSys f).umber = s.umber := rfl
@[simp] theorem State.modSys_viridian (s : State) (f : Sys → Sys) : (s.modSys f).viridian = s.viridian := rfl
@[simp] theorem State.modSys_indigo (s : State) (f : Sys → Sys) : (s.modSys f).indigo = s.indigo := rfl
@[simp] theorem State.modSys_slate (s : State) (f : Sys → Sys) : (s.modSys f).slate = s.slate := rfl
@[simp] theorem State.modSys_carmine (s : State) (f : Sys → Sys) : (s.modSys f).carmine = s.carmine := rfl
@[simp] theorem State.modSys_ivory (s : State) (f : Sys → Sys) : (s.modSys f).ivory = s.ivory := rfl
@[simp] theorem State.modSys_sable (s : State) (f : Sys → Sys) : (s.modSys f).sable = s.sable := rfl
@[simp] theorem State.modSys_faults (s : State) (f : Sys → Sys) : (s.modSys f).faults = s.faults := rfl
@[simp] theorem State.modSys_freeCtr (s : State) (f : Sys → Sys) : (s.modSys f).freeCtr = s.freeCtr := rfl

@[simp] theorem State.modBoard_pending (s : State) (f : Board → Board) : (s.modBoard f).pending = s.pending := rfl
@[simp] theorem State.modBoard_regs (s : State) (f : Board → Board) : (s.modBoard f).regs = s.regs := rfl
@[simp] theorem State.modBoard_mem (s : State) (f : Board → Board) : (s.modBoard f).mem = s.mem := rfl
@[simp] theorem State.modBoard_hostMem (s : State) (f : Board → Board) : (s.modBoard f).hostMem = s.hostMem := rfl
@[simp] theorem State.modBoard_wire (s : State) (f : Board → Board) : (s.modBoard f).wire = s.wire := rfl
@[simp] theorem State.modBoard_readData (s : State) (f : Board → Board) : (s.modBoard f).readData = s.readData := rfl
@[simp] theorem State.modBoard_readErr (s : State) (f : Board → Board) : (s.modBoard f).readErr = s.readErr := rfl
@[simp] theorem State.modBoard_sys (s : State) (f : Board → Board) : (s.modBoard f).sys = s.sys := rfl
@[simp] theorem State.modBoard_amber (s : State) (f : Board → Board) : (s.modBoard f).amber = s.amber := rfl
@[simp] theorem State.modBoard_host (s : State) (f : Board → Board) : (s.modBoard f).host = s.host := rfl
@[simp] theorem State.modBoard_ochre (s : State) (f : Board → Board) : (s.modBoard f).ochre = s.ochre := rfl
@[simp] theorem State.modBoard_cobalt (s : State) (f : Board → Board) : (s.modBoard f).cobalt = s.cobalt := rfl
@[simp] theorem State.modBoard_sepia (s : State) (f : Board → Board) : (s.modBoard f).sepia = s.sepia := rfl
@[simp] theorem State.modBoard_umber (s : State) (f : Board → Board) : (s.modBoard f).umber = s.umber := rfl
@[simp] theorem State.modBoard_viridian (s : State) (f : Board → Board) : (s.modBoard f).viridian = s.viridian := rfl
@[simp] theorem State.modBoard_indigo (s : State) (f : Board → Board) : (s.modBoard f).indigo = s.indigo := rfl
@[simp] theorem State.modBoard_slate (s : State) (f : Board → Board) : (s.modBoard f).slate = s.slate := rfl
@[simp] theorem State.modBoard_carmine (s : State) (f : Board → Board) : (s.modBoard f).carmine = s.carmine := rfl
@[simp] theorem State.modBoard_ivory (s : State) (f : Board → Board) : (s.modBoard f).ivory = s.ivory := rfl
@[simp] theorem State.modBoard_sable (s : State) (f : Board → Board) : (s.modBoard f).sable = s.sable := rfl
@[simp] theorem State.modBoard_faults (s : State) (f : Board → Board) : (s.modBoard f).faults = s.faults := rfl
@[simp] theorem State.modBoard_freeCtr (s : State) (f : Board → Board) : (s.modBoard f).freeCtr = s.freeCtr := rfl

@[simp] theorem State.modViridian_pending (s : State) (f : Viridian → Viridian) : (s.modViridian f).pending = s.pending := rfl
@[simp] theorem State.modViridian_regs (s : State) (f : Viridian → Viridian) : (s.modViridian f).regs = s.regs := rfl
@[simp] theorem State.modViridian_mem (s : State) (f : Viridian → Viridian) : (s.modViridian f).mem = s.mem := rfl
@[simp] theorem State.modViridian_hostMem (s : State) (f : Viridian → Viridian) : (s.modViridian f).hostMem = s.hostMem := rfl
@[simp] theorem State.modViridian_wire (s : State) (f : Viridian → Viridian) : (s.modViridian f).wire = s.wire := rfl
@[simp] theorem State.modViridian_readData (s : State) (f : Viridian → Viridian) : (s.modViridian f).readData = s.readData := rfl
@[simp] theorem State.modViridian_readErr (s : State) (f : Viridian → Viridian) : (s.modViridian f).readErr = s.readErr := rfl
@[simp] theorem State.modViridian_board (s : State) (f : Viridian → Viridian) : (s.modViridian f).board = s.board := rfl
@[simp] theorem State.modViridian_sys (s : State) (f : Viridian → Viridian) : (s.modViridian f).sys = s.sys := rfl
@[simp] theorem State.modViridian_amber (s : State) (f : Viridian → Viridian) : (s.modViridian f).amber = s.amber := rfl
@[simp] theorem State.modViridian_host (s : State) (f : Viridian → Viridian) : (s.modViridian f).host = s.host := rfl
@[simp] theorem State.modViridian_ochre (s : State) (f : Viridian → Viridian) : (s.modViridian f).ochre = s.ochre := rfl
@[simp] theorem State.modViridian_cobalt (s : State) (f : Viridian → Viridian) : (s.modViridian f).cobalt = s.cobalt := rfl
@[simp] theorem State.modViridian_sepia (s : State) (f : Viridian → Viridian) : (s.modViridian f).sepia = s.sepia := rfl
@[simp] theorem State.modViridian_umber (s : State) (f : Viridian → Viridian) : (s.modViridian f).umber = s.umber := rfl
@[simp] theorem State.modViridian_indigo (s : State) (f : Viridian → Viridian) : (s.modViridian f).indigo = s.indigo := rfl
@[simp] theorem State.modViridian_slate (s : State) (f : Viridian → Viridian) : (s.modViridian f).slate = s.slate := rfl
@[simp] theorem State.modViridian_carmine (s : State) (f : Viridian → Viridian) : (s.modViridian f).carmine = s.carmine := rfl
@[simp] theorem State.modViridian_ivory (s : State) (f : Viridian → Viridian) : (s.modViridian f).ivory = s.ivory := rfl
@[simp] theorem State.modViridian_sable (s : State) (f : Viridian → Viridian) : (s.modViridian f).sable = s.sable := rfl
@[simp] theorem State.modViridian_faults (s : State) (f : Viridian → Viridian) : (s.modViridian f).faults = s.faults := rfl
@[simp] theorem State.modViridian_freeCtr (s : State) (f : Viridian → Viridian) : (s.modViridian f).freeCtr = s.freeCtr := rfl

@[simp] theorem State.setPtp_pending (s : State) (n : Nat) (x : PtpPort) : (s.setPtp n x).pending = s.pending := rfl
@[simp] theorem State.setPtp_regs (s : State) (n : Nat) (x : PtpPort) : (s.setPtp n x).regs = s.regs := rfl
@[simp] theorem State.setPtp_mem (s : State) (n : Nat) (x : PtpPort) : (s.setPtp n x).mem = s.mem := rfl
@[simp] theorem State.setPtp_hostMem (s : State) (n : Nat) (x : PtpPort) : (s.setPtp n x).hostMem = s.hostMem := rfl
@[simp] theorem State.setPtp_wire (s : State) (n : Nat) (x : PtpPort) : (s.setPtp n x).wire = s.wire := rfl
@[simp] theorem State.setPtp_readData (s : State) (n : Nat) (x : PtpPort) : (s.setPtp n x).readData = s.readData := rfl
@[simp] theorem State.setPtp_readErr (s : State) (n : Nat) (x : PtpPort) : (s.setPtp n x).readErr = s.readErr := rfl
@[simp] theorem State.setPtp_board (s : State) (n : Nat) (x : PtpPort) : (s.setPtp n x).board = s.board := rfl
@[simp] theorem State.setPtp_sys (s : State) (n : Nat) (x : PtpPort) : (s.setPtp n x).sys = s.sys := rfl
@[simp] theorem State.setPtp_host (s : State) (n : Nat) (x : PtpPort) : (s.setPtp n x).host = s.host := rfl
@[simp] theorem State.setPtp_ochre (s : State) (n : Nat) (x : PtpPort) : (s.setPtp n x).ochre = s.ochre := rfl
@[simp] theorem State.setPtp_cobalt (s : State) (n : Nat) (x : PtpPort) : (s.setPtp n x).cobalt = s.cobalt := rfl
@[simp] theorem State.setPtp_sepia (s : State) (n : Nat) (x : PtpPort) : (s.setPtp n x).sepia = s.sepia := rfl
@[simp] theorem State.setPtp_umber (s : State) (n : Nat) (x : PtpPort) : (s.setPtp n x).umber = s.umber := rfl
@[simp] theorem State.setPtp_viridian (s : State) (n : Nat) (x : PtpPort) : (s.setPtp n x).viridian = s.viridian := rfl
@[simp] theorem State.setPtp_indigo (s : State) (n : Nat) (x : PtpPort) : (s.setPtp n x).indigo = s.indigo := rfl
@[simp] theorem State.setPtp_slate (s : State) (n : Nat) (x : PtpPort) : (s.setPtp n x).slate = s.slate := rfl
@[simp] theorem State.setPtp_carmine (s : State) (n : Nat) (x : PtpPort) : (s.setPtp n x).carmine = s.carmine := rfl
@[simp] theorem State.setPtp_ivory (s : State) (n : Nat) (x : PtpPort) : (s.setPtp n x).ivory = s.ivory := rfl
@[simp] theorem State.setPtp_sable (s : State) (n : Nat) (x : PtpPort) : (s.setPtp n x).sable = s.sable := rfl
@[simp] theorem State.setPtp_faults (s : State) (n : Nat) (x : PtpPort) : (s.setPtp n x).faults = s.faults := rfl
@[simp] theorem State.setPtp_freeCtr (s : State) (n : Nat) (x : PtpPort) : (s.setPtp n x).freeCtr = s.freeCtr := rfl

@[simp] theorem State.setCaps_pending (s : State) (i : Nat) (l : List Capture) : (s.setCaps i l).pending = s.pending := rfl
@[simp] theorem State.setCaps_regs (s : State) (i : Nat) (l : List Capture) : (s.setCaps i l).regs = s.regs := rfl
@[simp] theorem State.setCaps_mem (s : State) (i : Nat) (l : List Capture) : (s.setCaps i l).mem = s.mem := rfl
@[simp] theorem State.setCaps_hostMem (s : State) (i : Nat) (l : List Capture) : (s.setCaps i l).hostMem = s.hostMem := rfl
@[simp] theorem State.setCaps_wire (s : State) (i : Nat) (l : List Capture) : (s.setCaps i l).wire = s.wire := rfl
@[simp] theorem State.setCaps_readData (s : State) (i : Nat) (l : List Capture) : (s.setCaps i l).readData = s.readData := rfl
@[simp] theorem State.setCaps_readErr (s : State) (i : Nat) (l : List Capture) : (s.setCaps i l).readErr = s.readErr := rfl
@[simp] theorem State.setCaps_board (s : State) (i : Nat) (l : List Capture) : (s.setCaps i l).board = s.board := rfl
@[simp] theorem State.setCaps_sys (s : State) (i : Nat) (l : List Capture) : (s.setCaps i l).sys = s.sys := rfl
@[simp] theorem State.setCaps_host (s : State) (i : Nat) (l : List Capture) : (s.setCaps i l).host = s.host := rfl
@[simp] theorem State.setCaps_ochre (s : State) (i : Nat) (l : List Capture) : (s.setCaps i l).ochre = s.ochre := rfl
@[simp] theorem State.setCaps_cobalt (s : State) (i : Nat) (l : List Capture) : (s.setCaps i l).cobalt = s.cobalt := rfl
@[simp] theorem State.setCaps_sepia (s : State) (i : Nat) (l : List Capture) : (s.setCaps i l).sepia = s.sepia := rfl
@[simp] theorem State.setCaps_umber (s : State) (i : Nat) (l : List Capture) : (s.setCaps i l).umber = s.umber := rfl
@[simp] theorem State.setCaps_viridian (s : State) (i : Nat) (l : List Capture) : (s.setCaps i l).viridian = s.viridian := rfl
@[simp] theorem State.setCaps_indigo (s : State) (i : Nat) (l : List Capture) : (s.setCaps i l).indigo = s.indigo := rfl
@[simp] theorem State.setCaps_slate (s : State) (i : Nat) (l : List Capture) : (s.setCaps i l).slate = s.slate := rfl
@[simp] theorem State.setCaps_carmine (s : State) (i : Nat) (l : List Capture) : (s.setCaps i l).carmine = s.carmine := rfl
@[simp] theorem State.setCaps_ivory (s : State) (i : Nat) (l : List Capture) : (s.setCaps i l).ivory = s.ivory := rfl
@[simp] theorem State.setCaps_sable (s : State) (i : Nat) (l : List Capture) : (s.setCaps i l).sable = s.sable := rfl
@[simp] theorem State.setCaps_faults (s : State) (i : Nat) (l : List Capture) : (s.setCaps i l).faults = s.faults := rfl
@[simp] theorem State.setCaps_freeCtr (s : State) (i : Nat) (l : List Capture) : (s.setCaps i l).freeCtr = s.freeCtr := rfl


@[simp] theorem State.setStaged_pending (s : State) (l : List Staged) : (s.setStaged l).pending = s.pending := rfl
@[simp] theorem State.setStaged_regs (s : State) (l : List Staged) : (s.setStaged l).regs = s.regs := rfl
@[simp] theorem State.setStaged_mem (s : State) (l : List Staged) : (s.setStaged l).mem = s.mem := rfl
@[simp] theorem State.setStaged_hostMem (s : State) (l : List Staged) : (s.setStaged l).hostMem = s.hostMem := rfl
@[simp] theorem State.setStaged_wire (s : State) (l : List Staged) : (s.setStaged l).wire = s.wire := rfl
@[simp] theorem State.setStaged_readData (s : State) (l : List Staged) : (s.setStaged l).readData = s.readData := rfl
@[simp] theorem State.setStaged_readErr (s : State) (l : List Staged) : (s.setStaged l).readErr = s.readErr := rfl
@[simp] theorem State.setStaged_board (s : State) (l : List Staged) : (s.setStaged l).board = s.board := rfl
@[simp] theorem State.setStaged_sys (s : State) (l : List Staged) : (s.setStaged l).sys = s.sys := rfl
@[simp] theorem State.setStaged_amber (s : State) (l : List Staged) : (s.setStaged l).amber = s.amber := rfl
@[simp] theorem State.setStaged_ochre (s : State) (l : List Staged) : (s.setStaged l).ochre = s.ochre := rfl
@[simp] theorem State.setStaged_cobalt (s : State) (l : List Staged) : (s.setStaged l).cobalt = s.cobalt := rfl
@[simp] theorem State.setStaged_sepia (s : State) (l : List Staged) : (s.setStaged l).sepia = s.sepia := rfl
@[simp] theorem State.setStaged_umber (s : State) (l : List Staged) : (s.setStaged l).umber = s.umber := rfl
@[simp] theorem State.setStaged_viridian (s : State) (l : List Staged) : (s.setStaged l).viridian = s.viridian := rfl
@[simp] theorem State.setStaged_indigo (s : State) (l : List Staged) : (s.setStaged l).indigo = s.indigo := rfl
@[simp] theorem State.setStaged_slate (s : State) (l : List Staged) : (s.setStaged l).slate = s.slate := rfl
@[simp] theorem State.setStaged_carmine (s : State) (l : List Staged) : (s.setStaged l).carmine = s.carmine := rfl
@[simp] theorem State.setStaged_ivory (s : State) (l : List Staged) : (s.setStaged l).ivory = s.ivory := rfl
@[simp] theorem State.setStaged_sable (s : State) (l : List Staged) : (s.setStaged l).sable = s.sable := rfl
@[simp] theorem State.setStaged_faults (s : State) (l : List Staged) : (s.setStaged l).faults = s.faults := rfl
@[simp] theorem State.setStaged_freeCtr (s : State) (l : List Staged) : (s.setStaged l).freeCtr = s.freeCtr := rfl

end Sys2Proof.Machine
end

