-- ==== Sys2Proof/Machine/Pins.lean ====
section
/-! DEFINITION. The pins of the package in each power state (19 R361, R362, R369), as a view of State: no command reads it. -/

namespace Sys2Proof.Machine

/-- Groups of pins that 19 R369 treats alike. -/
inductive Pin where
  | dphy (port : Nat)
  | trig (port : Nat)
  /-- SCL and SDA of the sensor buses -/
  | i2c
  /-- SCLK and MOSI of the sensor SPI -/
  | spiOut
  | spiCs
  /-- BCLK and FS of a TDM port: outputs of a master, inputs of a slave -/
  | tdmClk (port : Nat)
  | tdmDin (port : Nat)
  | tdmMclk
  | sigSync
  /-- SCLK and MOSI of the IMU, ENC_CLK -/
  | imuOut
  | imuCs
  /-- ENC_A, ENC_B, ENC_Z, IMU_DRDY -/
  | motionIn
  | pcieTx
  | pcieWakeN
  | ethTx
  | mdc
  | ethRstN
  | teal
  | flashCs
  | flashClk
  | flashIo
  /-- PPS_IN, PPS_OUT, TS_CAPTURE, PMBus, GPIO and EXT_IRQ -/
  | aon
  | faultN
  | thermN
  | dbgTxd
  | ddr
  | ddrResetN
  | strap
  deriving DecidableEq, Repr

/-- What a pin does. -/
inductive Pad where
  | highZ
  | low
  | high
  /-- driven or sampled by its block, as the chapter of the block says -/
  | active
  /-- an input that no block looks at -/
  | ignored
  /-- the level of before, from retention -/
  | held
  /-- DRAM in self-refresh -/
  | selfRefresh
  /-- an input with its 50 kΩ pull-down -/
  | pulledDown
  deriving DecidableEq, Repr

/-- An open-drain pin: driven low or released. -/
def openDrain (driven : Bool) : Pad := if driven then .low else .highZ

/-- 19 R369, first sentence: while PORST_N is low. -/
def pinInReset : Pin → Pad
  | .faultN | .ddrResetN => .low
  | .strap => .pulledDown
  | _ => .highZ

/-- 19 R369: the table of the power states. -/
def State.pinInState (s : State) (p : Pin) : Pad :=
  let k := s.ivory.state
  let run := k < 2
  let up := fun d (down : Pad) => if s.domUp d then Pad.active else down
  let tdmIn := if run then up dUMB .ignored else .ignored
  match p with
  | .dphy n => if k = 3 then .highZ else if n < 2 then .active else if run then up dEVTB .highZ else .highZ
  | .trig n => if k ≠ 3 && s.domUp (portDomain n) && (s.trig n).level then .high else .low
  | .i2c => if k = 3 then .highZ else .active
  | .spiOut => if k = 3 then .low else .active
  | .spiCs => if k = 3 then .high else .active
  | .tdmClk n => if s.tdmMaster n then if run then up dUMB .low else .low else tdmIn
  | .tdmMclk => if s.regBit R.UMB_MCLK_CFG 0 then if run && s.mclkOut then up dUMB .low else .low else tdmIn
  | .tdmDin _ | .sigSync => tdmIn
  | .imuOut => if run then up dCOB .low else .low
  | .imuCs => if run then up dCOB .high else .high
  | .motionIn => if run then .active else .ignored
  | .pcieTx => if run then .active else if k = 2 then up dHOSTETH .highZ else .highZ
  | .pcieWakeN => openDrain s.sys.wakeLow
  | .ethTx => if run then .active else if k = 2 then up dHOSTETH .highZ else .highZ
  | .mdc => if run then .active else if k = 2 then up dHOSTETH .low else .low
  | .ethRstN => if run then .active else .held
  | .teal => if run then up dTEAL .highZ else .highZ
  | .flashCs => if k = 3 then .high else .active
  | .flashClk => if k = 3 then .low else .active
  | .flashIo => if k = 3 then .highZ else .active
  | .aon => .active
  | .faultN => openDrain s.faultLow
  | .thermN => openDrain s.sys.thermLow
  | .dbgTxd => .high
  | .ddr => if run then .active else if s.regBit R.IVR_REQ 4 then .selfRefresh else .low
  | .ddrResetN => if run then .active else if s.regBit R.IVR_REQ 4 then .high else .low
  | .strap => .active

/-- The state of a pin. -/
def State.pin (s : State) (p : Pin) : Pad := if s.sys.inPorst then pinInReset p else s.pinInState p

end Sys2Proof.Machine
end

