-- ==== Sys2Proof/Machine/Balls.lean ====
section
/-! DEFINITION. The package (19 R355, R357 to R360, R363, R364, R366): which signal or supply every ball carries, and the
limits of the rails and banks. Data that no command reads. -/

namespace Sys2Proof.Machine

/-! ## Balls (19 R355) -/

/-- Names of the rows by row index. -/
def rowNames : List String :=
  ["A", "B", "C", "D", "E", "F", "G", "H", "J", "K"] ++ ["L", "M", "N", "P", "T", "U", "V", "W", "Y", "AA"] ++
  ["AB", "AC", "AD", "AE", "AF", "AG", "AH", "AJ", "AK"]

/-- A ball by row index and column, both from 1 to 29. -/
structure Ball where
  row : Nat
  col : Nat
  deriving DecidableEq, Repr

/-- The ball is on the package. -/
def Ball.ok (b : Ball) : Bool := 1 ≤ b.row && b.row ≤ 29 && 1 ≤ b.col && b.col ≤ 29

/-- The ball's name, such as AG24. -/
def Ball.name (b : Ball) : String := nth rowNames (b.row - 1) "" ++ toString b.col

/-- Supply rails. -/
inductive Rail where
  | vss
  | vddCore
  | vddIdg
  | vddAon
  | vddio18
  | vddio33
  | vddqDdr
  | vddaDdr
  | vddaDphy
  | vddaSerdes
  | vddaSerdesH
  | vddaPll
  deriving DecidableEq, Repr

/-- What a ball carries: a rail, a signal of a DRAM channel by the name after DDRn_, another signal by name with its index. -/
inductive BallUse where
  | rail (r : Rail)
  | dram (channel : Nat) (name : String)
  | signal (name : String) (index : Option Nat)
  deriving DecidableEq, Repr

/-! ## DRAM channels (19 R357) -/

/-- The table of channel 0, row by row; VSS and the two rails by their names. -/
def dramTable : List (List String) :=
  [["VSS", "DQ[0]", "DQ[1]", "DQ[2]", "DQ[3]", "RDQS_T[0]", "RDQS_C[0]", "VDDQ_DDR", "VSS"],
   ["DQ[4]", "DQ[5]", "DQ[6]", "DQ[7]", "DMI[0]", "VSS", "WCK_T[0]", "WCK_C[0]", "VDDQ_DDR"],
   ["DQ[8]", "DQ[9]", "DQ[10]", "DQ[11]", "RDQS_T[1]", "RDQS_C[1]", "VSS", "DMI[1]", "VSS"],
   ["DQ[12]", "DQ[13]", "DQ[14]", "DQ[15]", "VDDQ_DDR", "CK_T", "CK_C", "CS[0]", "CS[1]"]] ++
  [["CA[0]", "CA[1]", "CA[2]", "CA[3]", "CA[4]", "CA[5]", "CA[6]", "ZQ", "VDDQ_DDR"],
   ["DQ[16]", "DQ[17]", "DQ[18]", "DQ[19]", "RDQS_T[2]", "RDQS_C[2]", "VSS", "WCK_T[1]", "WCK_C[1]"],
   ["DQ[20]", "DQ[21]", "DQ[22]", "DQ[23]", "DMI[2]", "VSS", "DQ[24]", "DQ[25]", "DQ[26]"],
   ["DQ[27]", "DQ[28]", "DQ[29]", "DQ[30]", "DQ[31]", "DMI[3]", "RDQS_T[3]", "RDQS_C[3]", "VDDA_DDR"]]

/-- The channel in whose corner a ball lies. -/
def Ball.corner (b : Ball) : Option Nat :=
  if b.row ≤ 8 then (if b.col ≤ 9 then some 0 else if 21 ≤ b.col then some 1 else none)
  else if 22 ≤ b.row then (if b.col ≤ 9 then some 2 else if 21 ≤ b.col then some 3 else none)
  else none

/-- The ball of channel 0 of which a ball is the translation. -/
def Ball.home (b : Ball) : Ball :=
  ⟨if b.row ≤ 8 then b.row else 30 - b.row, if b.col ≤ 9 then b.col else 30 - b.col⟩

/-- A DRAM ball. -/
def Ball.dramUse (b : Ball) : Option BallUse :=
  b.corner.map fun ch =>
    let n := nth (nth dramTable (b.home.row - 1) []) (b.home.col - 1) ""
    if n = "VSS" then .rail .vss else if n = "VDDQ_DDR" then .rail .vddqDdr else if n = "VDDA_DDR" then .rail .vddaDdr
    else .dram ch n

/-! ## Signal balls (19 R358) -/

/-- Signals that stand in one row at consecutive columns: row index, first column, names. -/
def signalRuns : List (Nat × Nat × List String) :=
  [(1, 18, ["I2C0_SCL", "I2C0_SDA"]), (2, 18, ["I2C1_SCL", "I2C1_SDA"]), (3, 18, ["SPI_SCLK", "SPI_MOSI", "SPI_MISO"]),
   (25, 18, ["TDM_MCLK", "SIG_SYNC"]), (24, 18, ["IMU_SCLK", "IMU_MOSI", "IMU_MISO"]), (23, 18, ["IMU_CS_N", "IMU_DRDY"])] ++
  [(13, 1, ["PCIE_REFCLK_P", "PCIE_REFCLK_N", "PCIE_PERST_N", "PCIE_WAKE_N", "PCIE_CLKREQ_N"]),
   (14, 1, ["ETH0_TX_P", "ETH0_TX_N", "ETH0_RX_P", "ETH0_RX_N"]),
   (15, 1, ["ETH1_TX_P", "ETH1_TX_N", "ETH1_RX_P", "ETH1_RX_N"]),
   (16, 1, ["ETH0_MDC", "ETH0_MDIO", "ETH0_RST_N", "ETH1_MDC", "ETH1_MDIO", "ETH1_RST_N"]),
   (17, 1, ["FL_CLK", "FL_CS0_N", "FL_CS1_N", "FL_IO[0]", "FL_IO[1]", "FL_IO[2]", "FL_IO[3]"])] ++
  [(18, 1, ["JTAG_TCK", "JTAG_TMS", "JTAG_TDI", "JTAG_TDO", "JTAG_TRST_N", "DBG_TXD", "DBG_RXD"]),
   (19, 1, ["PORST_N", "WRST_N", "FAULT_N", "THERM_N", "BOOT_MODE[0]", "BOOT_MODE[1]"]), (20, 1, ["XTAL_IN", "XTAL_OUT"]),
   (20, 7, ["DDR_RESET_N"]),
   (17, 22, ["ENC_DAT", "ENC_CLK", "ENC_Z", "ENC_B", "ENC_A", "PMB_ALERT_N", "PMB_SDA", "PMB_SCL"]),
   (18, 26, ["TS_CAPTURE[1]", "TS_CAPTURE[0]", "PPS_OUT", "PPS_IN"])]

/-- A ball of one of those runs. -/
def Ball.runUse (b : Ball) : Option BallUse :=
  (signalRuns.find? fun e => e.1 = b.row && e.2.1 ≤ b.col && b.col < e.2.1 + e.2.2.length).map fun e =>
    .signal (nth e.2.2 (b.col - e.2.1) "") none

/-- A ball of a signal that the column or row formula numbers. -/
def Ball.indexed (b : Ball) : Option BallUse :=
  let r := b.row
  let c := b.col
  let sig := fun (n : String) (i : Nat) => some (BallUse.signal n (some i))
  if r ≤ 7 ∧ 10 ≤ c ∧ c ≤ 17 then
    sig (nth ["EP_CLK_P", "EP_CLK_N", "EP_D0_P", "EP_D0_N", "EP_D1_P", "EP_D1_N", "EP_TRIG"] (r - 1) "") (c - 10)
  else if 4 ≤ r ∧ r ≤ 6 ∧ 18 ≤ c ∧ c ≤ 20 ∧ 3 * (r - 4) + (c - 18) < 8 then sig "SPI_CS_N" (3 * (r - 4) + (c - 18))
  else if 26 ≤ r ∧ 10 ≤ c ∧ c ≤ 17 then sig (nth ["TL_TX_P", "TL_TX_N", "TL_RX_P", "TL_RX_N"] (29 - r) "") (c - 10)
  else if 26 ≤ r ∧ 18 ≤ c ∧ c ≤ 20 then sig (nth ["TDM_BCLK", "TDM_FS", "TDM_DIN"] (c - 18) "") (29 - r)
  else if 9 ≤ r ∧ r ≤ 12 ∧ c ≤ 4 then sig (nth ["PCIE_TX_P", "PCIE_TX_N", "PCIE_RX_P", "PCIE_RX_N"] (c - 1) "") (r - 9)
  else if 9 ≤ r ∧ r ≤ 16 ∧ 26 ≤ c then sig "GPIO" (8 * (29 - c) + (r - 9))
  else if r = 19 ∧ 22 ≤ c then sig (if c % 2 = 1 then "BAT_ISNS_P" else "BAT_ISNS_N") ((29 - c) / 2)
  else if r = 20 ∧ 22 ≤ c then (if 26 ≤ c then sig "BAT_VSNS" (29 - c) else sig "BAT_TH" (25 - c))
  else none

/-! ## Supply balls (19 R359, R360) -/

/-- The core supply array. -/
def Ball.coreUse (b : Ball) : Option BallUse :=
  if 9 ≤ b.row ∧ b.row ≤ 21 ∧ 10 ≤ b.col ∧ b.col ≤ 20 then
    some (.rail (if (b.row + b.col) % 2 = 0 then .vss else if b.col ≤ 14 then .vddIdg else if b.col = 15 then .vddAon else .vddCore))
  else none

/-- The I/O and analog supplies outside the DRAM channels. -/
def ioSupplies : List (Rail × List (Nat × Nat)) :=
  [(.vddaDphy, [(8, 10), (8, 12), (8, 14), (8, 16), (8, 18)]),
   (.vddaSerdes, [(24, 10), (24, 12), (24, 14), (24, 16), (9, 6), (11, 6), (13, 6), (15, 6)]),
   (.vddaSerdesH, [(23, 11), (23, 13), (23, 15), (23, 17), (10, 8), (12, 8), (14, 8)]),
   (.vddaPll, [(20, 5), (20, 6)])] ++
  [(.vddio18, [(1, 20), (7, 18), (8, 20), (22, 18), (22, 20), (16, 8), (17, 8), (18, 8), (19, 8), (17, 21), (18, 23)]),
   (.vddio33, [(9, 24), (11, 24), (13, 24), (15, 24), (21, 22), (21, 24)])]

/-- What every ball carries; a ball that no table names is VSS. -/
def Ball.use (b : Ball) : BallUse :=
  match b.dramUse, b.runUse, b.indexed, b.coreUse with
  | some u, _, _, _ => u
  | none, some u, _, _ => u
  | none, none, some u, _ => u
  | none, none, none, some u => u
  | none, none, none, none =>
    match ioSupplies.find? fun e => e.2.contains (b.row, b.col) with
    | some e => .rail e.1
    | none => .rail .vss

/-! ## Limits (19 R363, R364, R366) -/

/-- The highest voltage in mV that a rail survives; the lowest is -300 mV for every rail. -/
def Rail.absMaxMv : Rail → Nat
  | .vss => 0
  | .vddCore | .vddIdg | .vddAon | .vddaDphy | .vddaSerdes | .vddaPll => 950
  | .vddqDdr => 800
  | .vddaDdr | .vddaSerdesH => 1450
  | .vddio18 => 2100
  | .vddio33 => 3800

/-- Nominal voltage in mV; that of VDD_IDG is the point's. -/
def Rail.nominalMv : Rail → Nat
  | .vss => 0
  | .vddCore | .vddAon => 750
  | .vddIdg => 800
  | .vddio18 => 1800
  | .vddio33 => 3300
  | .vddqDdr => 500
  | .vddaDdr => 1050
  | .vddaDphy | .vddaSerdes | .vddaPll => 800
  | .vddaSerdesH => 1200

/-- A rail within the range in which the device meets its figures, in µV. -/
def Rail.inRange (r : Rail) (uv : Nat) : Bool :=
  let within := fun (pct : Nat) => r.nominalMv * 10 * (100 - pct) ≤ uv && uv ≤ r.nominalMv * 10 * (100 + pct)
  match r with
  | .vss => uv = 0
  | .vddCore => 650000 ≤ uv && uv ≤ 850000
  | .vddIdg => 550000 ≤ uv && uv ≤ 850000
  | .vddio18 | .vddio33 => within 5
  | _ => within 3

/-- Maximum current in mA at RUN P0 and 105 °C. -/
def Rail.maxMa : Rail → Nat
  | .vss => 0
  | .vddCore => 9400
  | .vddIdg => 17500
  | .vddAon => 150
  | .vddio18 => 250
  | .vddio33 => 50
  | .vddqDdr => 900
  | .vddaDdr => 250
  | .vddaDphy => 300
  | .vddaSerdes => 900
  | .vddaPll => 100
  | .vddaSerdesH => 350

/-- The power in mW of all rails at their nominal voltages and maximum currents. -/
def maxPowerMw : Nat :=
  ([Rail.vddCore, .vddIdg, .vddAon, .vddio18, .vddio33, .vddqDdr, .vddaDdr, .vddaDphy, .vddaSerdes, .vddaPll, .vddaSerdesH].foldl
    (fun n r => n + r.nominalMv * r.maxMa) 0) / 1000

/-- The level that a digital input in mV reads as: none between VIL and VIH. GPIO lies in the 3.3 V bank, every other digital
pin in the 1.8 V bank. -/
def inputLevel (gpio : Bool) (vddioMv mv : Nat) : Option Bool :=
  if gpio then (if 2000 ≤ mv then some true else if mv ≤ 800 then some false else none)
  else if 65 * vddioMv ≤ 100 * mv then some true else if 100 * mv ≤ 35 * vddioMv then some false else none

/-- 19 R365: the detector that holds the device in power-on reset. -/
def brownOut (vddAonMv vddCoreMv : Nat) : Bool := vddAonMv < 600 || vddCoreMv < 580

/-- 19 R370, Worked case: the junction above a plate in m°C, from the power in mW and the thermal resistance to the plate in
m°C/W. -/
def junctionMc (plateMc : Int) (mw mcPerW : Nat) : Int := plateMc + mw * mcPerW / 1000

end Sys2Proof.Machine
end

