-- ==== Sys2Proof/Tests/Slice0.lean ====
section
/-! SUPPORT. The model's own tests: ill-formed commands that the checks of WellFormed.lean refuse, the worked cases of the
spec's chapters (their expected values are the spec's), and for every statement of Certificates/Slice0/Obligations.lean that
has hypotheses a state and operands that meet them, clause by clause. -/

set_option Elab.async false

section
open Sys2Proof Sys2Proof.Machine
namespace Sys2Proof.Tests

/-- A machine that runs: released, every domain up, context 1 of the PF, with 200 ms of steady time past. -/
def t0 : State :=
  (({ State.reset with
      sys := { State.reset.sys with inPorst := false, ready := true, dramTrained := true },
      amber := { State.reset.amber with steadyQ := 200000000 * 65536, farmQ := 200000000 * 65536, heldQ := 200000000 * 65536 },
      board := { State.reset.board with dramMib := 8192 } }
    : State).setReg R.IVR_DOM_UP 0xFFFF).setCtx 1 (Ctx.new 0 0)

/-- A latch of the PF's mailbox for context 1. -/
def lt (op : Nat) (b : Bytes) (g : Stage := .ready) : Latch :=
  ⟨⟨0, 0, op, 0, 0, 1, 0, b.length, b, 0, 0⟩, g, false, 0⟩

/-- The machine with a latch on the PF's mailbox. -/
def on (l : Latch) (s : State) : State := s.setLatch 0 (some l)

/-- A parameter block from (size, value) pairs. -/
def blk (l : List (Nat × Nat)) : Bytes := l.flatMap fun e => leBytes e.1 e.2

/-- A stamp at a steady time. -/
def st (t : Nat) : Stamp := ⟨0, t, 0, t, false⟩

/-- Steady time and farm time at a time. -/
def at0 (t : Nat) (s : State) : State :=
  s.modAmber fun a => { a with steadyQ := t * 65536, farmQ := t * 65536, heldQ := t * 65536 }

/-- An Announce of a foreign master. -/
def tAnn : Announce := ⟨0, 0, 0, 7, 100, 6, 0x21, 0x4E5D, 100, 0, 0⟩

/-- Port 1 enabled and owned by context 1, with data type 0x2A on virtual channel 0 and a sensor of 640 by 480. -/
def tPort : State :=
  ((((t0.setReg R.OCH_CTRL 2).setReg (R.OCH_Pn_LINK 1) 0x101).setReg (R.OCH_Pn_FMT 1) 0x2A).setReg (R.OCH_Pn_SIZE 1)
    0x01DF027F).setReg (R.OCH_Pn_OWNER 1) 1

/-- A long packet. -/
def tPkt : Csi2Packet := ⟨0, 0x2A, .clean, leBytes 8 5, true, 0, none, 3⟩

/-- An event. -/
def tEv : Ev := ⟨5, st 7⟩

/-- A port's dynamic state changed. -/
def withPort (p : Nat) (f : OchPort → OchPort) (s : State) : State := s.setPort p (f (s.port p))

/-- Port 1 with a number of events in its FIFO. -/
def tFull (n : Nat) : State := withPort 1 (fun x => { x with fifo := List.replicate n tEv }) tPort
theorem tFull_length (n : Nat) : ((tFull n).port 1).fifo.length = n := by simp [tFull, withPort]

/-- Port 0 in the frame FIXED with a grid of one cell, straight ahead on the plane z = 1 m. -/
def tGrid : State :=
  ((((((t0.setReg (R.COB_Pn_CFG 0) 1).setReg (R.COB_Pn_GRID_DIM 0) 0x00020002).setRegs (R.COB_Pn_ROT 0)
    [0x40000000, 0, 0, 0, 0x40000000, 0, 0, 0, 0x40000000]).setRegs (R.COB_Pn_PLANE_PT 0)
    [0, 0, 256000, 0x40000000, 0, 0, 0, 0x40000000, 0, 0, 0, 256, 256]).modCobalt fun c => { c with
      gridLoaded := [0], inq := [⟨0, st 7⟩] }))

/-- An open revolution stack run. -/
def tRun : StackRun := { t0.newRun 0 0 0 0 with closeAt := 200000000 }

/-- Surface 0 enabled for port 0, 64 by 64 cells, owned by context 1. -/
def tSurf : State :=
  (((t0.setReg (R.SEP_Sn_CFG 0) 0x10001).setReg (R.SEP_Sn_SIZE 0) 0x003F003F).setReg (R.SEP_Sn_OWNER 0) 1).setReg
    (R.OCH_Pn_OWNER 0) 1

/-- A projected event. -/
def tPEv : PEv := ⟨⟨0, st 7⟩, 10, 10, 0, false, false⟩

/-- Cells of surface 0. -/
def withCells (l : AMap Nat) (s : State) : State := s.setSurf 0 { s.surf 0 with cells := l }

/-- A track of surface 0. -/
def tTrk (state reason age ticks : Nat) (measured : Bool) (id : Word) : Track :=
  ⟨id, 0, state, reason, 0, 0, 0, 0, st 5, 1, ticks, age, measured, 5, 0, 0⟩

/-- The PF may master. -/
def tDma : State := t0.setFunc 0 { Func.init with bme := true, dState := 0 }

/-- TDM port 1 enabled: eight slots of 32 bits, channel 8 of context 1. -/
def tTdm : State :=
  (((t0.setReg (R.UMB_Pn_CFG 1) 0x79).setReg (R.UMB_Pn_RATE 1) 48000).setReg (R.UMB_CHn_CFG 8) 0x10001).setReg (R.UMB_CHn_CFG 32)
    0x10001

/-- A frame of `n` BCLK cycles. -/
def tFrame (n : Nat) : TdmFrame := ⟨n, List.replicate 256 true, [], 3⟩

/-- A window of rule 2 with two inputs. -/
def tWin (c0 : Word) (e : List Entry) : Win :=
  ⟨0, 100, 1, 1, 0, 0, [c0, 0, 0, 0, 0, 0x3F800000, 0, 0, 0, 0, 0x00060007, 0, 0x3F800000, 0, 0x00060007, 0, 0x3F800000, 0],
   0, 0, e, 0, 0, [], false, none, none, 0, false, none, none⟩

/-- A member. -/
def tMem : Member := ⟨7, 0, 0, [], 5, 5, st 5, 0, 0, 0, 1, 0, 0, 0, 0, 0, 0, 0⟩

/-- A record that waits. -/
def tFused : Fused := ⟨2, 1, 0, 0, 0, 100, 0, 0, st 50, 0, [], 0, 0, 0, [], false⟩

/-- Staged records of a producer: `n` of 1,000 bytes of body. -/
def tStaged (p : Producer) (n : Nat) (s : State) : State :=
  { s with host := { s.host with
    staged := List.replicate n ⟨0, 0, p, ⟨0x30, 1, 0, 0, 0, 0, 0, 0, 0, List.replicate 1000 0⟩⟩ } }


/-- A package of 512 bytes with one layer, but for its digest: one tile, INT8, one position of two features, one output. -/
def tBody : Bytes :=
  blk [(4, 0x504D5A51), (2, 1), (2, 0x0207), (2, 0x0207), (1, 1), (1, 0), (1, 1), (1, 0), (2, 1)] ++
  blk [(8, 512), (8, 9), (4, 64), (4, 1), (2, 2), (2, 1), (4, 0x3F800000), (4, 0x3F800000), (2, 0), (2, 0), (8, 64)] ++
  blk [(64, 0), (8, 256), (120, 0), (1, 1), (1, 0), (6, 0), (8, 384), (8, 64), (8, 0), (176, 0)]

/-- The same signed. -/
def tPkg : Bytes := tBody ++ sha384 tBody

/-- Its model. -/
def tMod : Model := ⟨1, tBody.take 256, [⟨1, 0, 0, 0, 0, 384, 64, 0, 0⟩], dramBase + 0x4000000, 512⟩

/-- A binding of it to tile 0. -/
def tBind : Bind := { newBind 1 with model := 1, tiles := 1, modes := [0] }

/-- The device with the model loaded and binding 1, its quad on demand. -/
def tIdg : State := t0.modIndigo fun i => { i with models := [(1, tMod)], binds := [(1, tBind)] }

/-- A position. -/
def tPos : Position := ⟨[1, 2], st 7, 7, 0, 0, 0⟩

/-- An admitted run of binding 1. -/
def tRunI : Run := ⟨1, [tPos], true, 0, 0, 0, 0, false, false, 0, 0, [], [], 0⟩

/-- An Indigo field changed. -/
def idg (f : Indigo → Indigo) (s : State) : State := s.modIndigo f

/-- A group of two with this member 0, both links as given. -/
def tTeal (state up : Word) : State :=
  ((((t0.setReg R.TEAL_CTRL 0x205).setReg R.TEAL_STATE state).setReg (R.TEAL_Pn_LINK 0) up).setReg (R.TEAL_Pn_LINK 1) up)

/-- A ring set up: ring 1 of the PF, 4 KiB at 64 KiB of host memory, with any bits of its CFG and used bytes. -/
def tRing (cfg used : Word) : State :=
  ((tDma.setReg (R.HIF_RINGn_CFG 1) cfg).setReg (R.HIF_RINGn_BASE_LO 1) 0x10000).setReg (R.HIF_RINGn_HEAD 1) used

/-- A staged record for that ring. -/
def tStg : Staged := ⟨0, 1, .ochre 0, ⟨0x10, 1, 0, 0, 0, 0, 0, 0, 0, [1, 2, 3, 4, 5, 6, 7, 8]⟩⟩

/-- The Ethernet host path on for the PF, with an upload window of 1 MiB. -/
def tEth : State :=
  (tDma.setReg R.HIF_ETH_FN 0x80).modHost fun h => { h with
    eth := { h.eth with cfg := blk [(48, 0), (2, 1024), (2, 7), (2, 1)], uploadBase := dramBase + 0x4000000 } }

/-- A datagram of a kind with an address field and payload. -/
def tDg (kind addr : Nat) (b : Bytes) : Datagram := ⟨true, 9, blk [(2, 0x5A51), (1, kind), (1, 0), (4, 3), (8, addr)] ++ b⟩

/-- A request for IDENTIFY with a sequence. -/
def tReq (q : Nat) : Bytes := blk [(2, 0x0101), (2, 0), (4, q), (2, 0xFFFF), (2, 0), (4, 0)]

/-- The public key of the private key 1. -/
def tKey : Bytes := [4] ++ beBytes 48 P384.gx ++ beBytes 48 P384.gy

/-- A signature under it with the nonce 1. -/
def tSign (m : Bytes) : Bytes := beBytes 48 P384.gx ++ beBytes 48 ((beNat (sha384 m) + P384.gx) % P384.n)

/-- A signed image of a kind, padded to 64 bytes. -/
def tImg (kind : Nat) (body : Bytes) : Bytes :=
  let h := blk [(4, 0x57465A51), (1, kind), (1, 0), (2, 1), (4, 9), (4, body.length), (16, 0)] ++ tKey ++ List.replicate 31 0
  padTo ((256 + body.length + 63) / 64 * 64) (h ++ tSign (h ++ body) ++ body)

/-- A set: a manifest for silicon B1 with one pair, Belrix, Denzewen. -/
def tSet : Bytes := tImg 1 (blk [(1, 1), (1, 1), (2, 0), (16, 0xB1), (12, 0), (4, 9), (4, 9)]) ++ tImg 2 [1] ++ tImg 3 [2]

/-- The boot ROM waiting for a host load, with the key's hash in OTP. -/
def tRom : State :=
  { tDma with sys := { tDma.sys with running := 3 }, board := { tDma.board with keyHash := sha384 tKey } }

/-- Context 1 with a field changed. -/
def withCtx (f : Ctx → Ctx) (s : State) : State := s.setCtx 1 (f (Ctx.new 0 0))

/-- A staged PORT_SET_POLARITY_ROI of port 0. -/
def tG : GCmd := ⟨0x0404, blk [(1, 0), (1, 0), (14, 0)], [], 1, 0⟩

/-- A quiesce of context 1 on the PF's path. -/
def tQz (d : Nat) : Quiesce := ⟨st 5, 0, d, []⟩

/-- An entry of the log in flash. -/
def tLog : Bytes := logEntry 4 0 1 0 0xFFFF (st 5) 0 []

/-- Guard 2 with one entry: READ for MP over the whole target. -/
def tGrd (perms : Word) : State := ((t0.setReg (entryAddr 2 0 3) 0).setGuardEntry 2 5 0x20000000 0x1400 0x0FFF0001 perms)

/-- Queue 5 with a CFG and descriptors, its ring and status word in shared SRAM, and queue 6 a reply queue. -/
def tQ (cfg : Word) (l : List Desc) : State :=
  (((((t0.setReg (R.SLT_Qn_CFG 5) cfg).setReg (R.SLT_Qn_BASE_LO 5) 0x10100000).setReg (R.SLT_Qn_STAT_ADDR_LO 5) 0x10100800).setReg
    (R.SLT_Qn_CFG 6) 0x09)).setQueue 5 l

/-- A descriptor. -/
def tD : Desc := ⟨0x80000000, 0, 0x10100100, 8, 0, 0⟩

/-- A staging buffer of the MP on queue 5. -/
def withStage (b : StageBuf) (s : State) : State := s.modSlate fun x => { x with staging := x.staging.set 0 b }

/-- Combining block 3 fed by queue 5, with result queue 7: two contributors of two elements. -/
def tComb (cfg : Word) (x : Comb) (l : List Desc) : State :=
  ((((((((tQ 0x5 l).setReg (R.SLT_Qn_BASE_HI 5) 0x30000).setReg (R.SLT_Cn_CFG 3) cfg).setReg (R.SLT_Cn_LEN 3) 2).setReg
    (R.SLT_Cn_BUF_LO 3) 0x10100200).setReg (R.SLT_Qn_CFG 7) 0x11).setReg (entryAddr 1 5 3) 7).setReg (entryAddr 1 5 1)
    0x1800).setReg (entryAddr 1 5 0) 0x10000000 |>.setComb 3 x

/-- Source 0 enabled for target 0 at level 3 with its line active, and the MP's stack and provisional source. -/
def tInt (tgt level : Word) (stack : List (Nat × Nat)) (prov : Option (Nat × Nat)) : State :=
  ((((t0.setReg (R.CARM_Sn_CFG 0) (1 + level * 16 + tgt * 512)).setReg R.OCH_INT_EN_LO 1).assertSource 0).noticeLine 0).setTgt 0
    { Target.init with stack := stack, prov := prov }

/-- Battery tables that pass their check. -/
def tTabs : Bytes :=
  ((List.range 8).flatMap fun i => leBytes 2 i) ++ List.replicate 336 0 ++ ((List.range 8).flatMap fun i => leBytes 2 i) ++
  ((List.range 6).flatMap fun i => leBytes 2 i) ++ List.replicate 100 0

/-- Ivory changed. -/
def ivr (f : Ivory → Ivory) (s : State) : State := s.modIvory f

/-- No domain up but the always-on ones, nothing due soon. -/
def tQuiet : State := (t0.setReg R.IVR_DOM_UP 0x3).modIvory fun i => { i with windowAt := 200000000 }

/-- An entry of a state under way. -/
def tTr (todo : List Nat) (pnr : Bool) : Transition := ⟨2, st 5, 0xFFFF, todo, pnr, none, 0⟩

/-- The turn of a command can come with its checks passing. -/
def Passes (op : Nat) (check : Cmd → State → Check) : Prop :=
  ∃ (s : State) (p : Nat) (l : Latch), s.turn p op l ∧ check l.cmd s = .ok ()

/-- It can come with a check failing. -/
def Fails (op : Nat) (check : Cmd → State → Check) : Prop :=
  ∃ (s : State) (p : Nat) (l : Latch) (e : CErr), s.turn p op l ∧ check l.cmd s = .error e

theorem turn_lt {op : Nat} {b : Bytes} {s : State}
    (h : (on (lt op b) s).latch 0 = some (lt op b) ∧ (on (lt op b) s).mayStart (lt op b) = true) :
    (on (lt op b) s).turn 0 op (lt op b) :=
  ⟨h.1, rfl, rfl, h.2⟩

theorem passes {op : Nat} {check : Cmd → State → Check} (b : Bytes) (s : State)
    (h : ((on (lt op b) s).latch 0 = some (lt op b) ∧ (on (lt op b) s).mayStart (lt op b) = true) ∧ check (lt op b).cmd (on (lt op b) s) = .ok ()) : Passes op check :=
  ⟨on (lt op b) s, 0, lt op b, turn_lt h.1, h.2⟩

theorem fails {op : Nat} {check : Cmd → State → Check} (b : Bytes) (s : State) (e : CErr)
    (h : ((on (lt op b) s).latch 0 = some (lt op b) ∧ (on (lt op b) s).mayStart (lt op b) = true) ∧ check (lt op b).cmd (on (lt op b) s) = .error e) : Fails op check :=
  ⟨on (lt op b) s, 0, lt op b, e, turn_lt h.1, h.2⟩

/-- Bytes from an address on. -/
def cells (a : Nat) : Bytes → List Host.Cell
  | [] => []
  | b :: bs => (a, b) :: cells (a + 1) bs

/-- The body of a manifest for silicon B1 with one pair. -/
def tMan : Bytes := blk [(1, 1), (1, 1), (2, 0), (16, 0xB1), (12, 0), (4, 9), (4, 9)]

/-- A slot's flash with the signed set in slot A. -/
def tFlash : List Host.Cell := cells 0x10000 (tImg 1 tMan) ++ (cells 0x20000 (tImg 2 [1]) ++ cells 0x820000 (tImg 3 [2]))

/-- A session open on slot A. -/
def tSess : State :=
  { t0 with sys := { t0.sys with session := some 0 }, board := { t0.board with keyHash := sha384 tKey, flash := tFlash } }

/-- Context 1 holding port 1, channels 8 and 32, surface 0, rule 2 and binding 1, on a function that may master. -/
def tAll : State :=
  (((((tPort.setReg (R.UMB_CHn_CFG 8) 0x10001).setReg (R.UMB_CHn_CFG 32) 0x10001).setReg (R.SEP_Sn_OWNER 0) 1).setReg
    (R.VIR_Rn_OWNER 2) 1).modIndigo fun i => { i with models := [(1, tMod)], binds := [(1, tBind)] }).setFunc 0
    { Func.init with bme := true, dState := 0 }

/-- A change set of context 1 open. -/
def tOpen : State := withCtx (fun x => { x with set := some ⟨0, false, []⟩ }) tAll

/-- There is room for a generation-bearing command, and nothing makes it wait. -/
def takes (pg : GPage) (g : GCmd) (c : Cmd) (v w s : State) : Bool :=
  match pg.reserve g c.ctx v w s with
  | .error _ => false
  | .ok _ => match s.bindGate c with
    | .go t => (match pg.reserve g c.ctx v w t with | .ok _ => true | .error _ => false)
    | _ => false

theorem takes_spec {pg : GPage} {g : GCmd} {c : Cmd} {v w s : State} (h : takes pg g c v w s = true) :
    ∃ y t u k, pg.reserve g c.ctx v w s = .ok y ∧ s.bindGate c = .go t ∧ pg.reserve g c.ctx v w t = .ok (u, k) := by
  unfold takes at h
  split at h
  · cases h
  · rename_i w hw
    split at h
    · rename_i t ht
      split at h
      · rename_i r hr
        exact ⟨w, t, r.1, r.2, hw, ht, hr⟩
      · cases h
    · cases h

/-- A page of the change sets meets a command that passes its checks, has its data and finds room, with or without a set
open. -/
def Stages (pg : GPage) (open' : Bool) : Prop :=
  ∃ (s : State) (p : Nat) (l : Latch) (x : Ctx) (data : Bytes), s.latch p = some l ∧ l.cmd.opcode = pg.op ∧
    s.ctx? l.cmd.ctx = some x ∧ x.set = (if open' then some ⟨0, false, []⟩ else none) ∧
    gCheck pg l.cmd x (s.projected l.cmd.ctx) s = .ok () ∧
    ((l.stage = .ready ∧ s.mayStart l = true ∧ pg.fetch l.cmd (s.projected l.cmd.ctx) = none ∧ data = []) ∨
      ∃ r a n, l.stage = .resumed r ∧ pg.fetch l.cmd (s.projected l.cmd.ctx) = some (a, n) ∧
        s.dmaRead l.cmd.path a n r = some data ∧ pg.data l.cmd data (s.projected l.cmd.ctx) = .ok ()) ∧
    ∃ y t u k, pg.reserve ⟨l.cmd.opcode, l.cmd.block, data, l.cmd.ctx, 0⟩ l.cmd.ctx (s.projected l.cmd.ctx) s.projectedAll s =
      .ok y ∧ s.bindGate l.cmd = .go t ∧
      pg.reserve ⟨l.cmd.opcode, l.cmd.block, data, l.cmd.ctx, 0⟩ l.cmd.ctx (s.projected l.cmd.ctx) s.projectedAll t = .ok (u, k)

theorem stages {pg : GPage} (b : Bytes) (s : State) (x : Ctx) (o : Bool)
    (h : ((on (lt pg.op b) s).latch 0 = some (lt pg.op b) ∧ (on (lt pg.op b) s).mayStart (lt pg.op b) = true) ∧ (on (lt pg.op b) s).ctx? 1 = some x ∧
      x.set = (if o then some ⟨0, false, []⟩ else none) ∧
      gCheck pg (lt pg.op b).cmd x ((on (lt pg.op b) s).projected 1) (on (lt pg.op b) s) = .ok () ∧
      pg.fetch (lt pg.op b).cmd ((on (lt pg.op b) s).projected 1) = none ∧
      takes pg ⟨pg.op, b, [], 1, 0⟩ (lt pg.op b).cmd ((on (lt pg.op b) s).projected 1) (on (lt pg.op b) s).projectedAll
        (on (lt pg.op b) s) = true) :
    Stages pg o :=
  ⟨on (lt pg.op b) s, 0, lt pg.op b, x, [], h.1.1, rfl, h.2.1, h.2.2.1, h.2.2.2.1,
    .inl ⟨rfl, h.1.2, h.2.2.2.2.1, rfl⟩, takes_spec h.2.2.2.2.2⟩

/-- A command of the page fails its checks. -/
def Rejects (pg : GPage) : Prop :=
  ∃ (s : State) (p : Nat) (l : Latch) (x : Ctx) (e : CErr), s.latch p = some l ∧ l.cmd.opcode = pg.op ∧
    s.ctx? l.cmd.ctx = some x ∧ l.stage = .ready ∧ s.mayStart l = true ∧
    gCheck pg l.cmd x (s.projected l.cmd.ctx) s = .error e

theorem rejects {pg : GPage} (b : Bytes) (s : State) (x : Ctx) (e : CErr)
    (h : ((on (lt pg.op b) s).latch 0 = some (lt pg.op b) ∧ (on (lt pg.op b) s).mayStart (lt pg.op b) = true) ∧ (on (lt pg.op b) s).ctx? 1 = some x ∧
      gCheck pg (lt pg.op b).cmd x ((on (lt pg.op b) s).projected 1) (on (lt pg.op b) s) = .error e) : Rejects pg :=
  ⟨on (lt pg.op b) s, 0, lt pg.op b, x, e, h.1.1, rfl, h.2.1, rfl, h.1.2, h.2.2⟩

/-- The device runs from slot A, whose set is on trial. -/
def tTrial : State :=
  { t0 with sys := { t0.sys with running := 0 }, board := { t0.board with flash := [(4, 0x3F)] } }

/-- A flash page's command starts a flash operation. -/
def Starts (op : Nat) (check : Cmd → State → Check) (job : Cmd → State → Option FlashJob) : Prop :=
  ∃ (s : State) (p : Nat) (l : Latch) (j : FlashJob), s.turn p op l ∧ check l.cmd s = .ok () ∧ job l.cmd s = some j

/-- It needs no flash operation. -/
def NeedsNoFlash (op : Nat) (check : Cmd → State → Check) (job : Cmd → State → Option FlashJob) : Prop :=
  ∃ (s : State) (p : Nat) (l : Latch), s.turn p op l ∧ check l.cmd s = .ok () ∧ job l.cmd s = none

/-- Its flash operation has ended well. -/
def Resumes (op : Nat) : Prop :=
  ∃ (s : State) (p : Nat) (l : Latch) (d : Option Bytes) (j : FlashJob), s.latch p = some l ∧ l.stage = .resumed d ∧
    l.cmd.opcode = op ∧ s.sys.flashJob = some j ∧ s.sys.flashDone = some true

theorem starts {op : Nat} {check : Cmd → State → Check} {job : Cmd → State → Option FlashJob} (b : Bytes) (s : State)
    (h : ((on (lt op b) s).latch 0 = some (lt op b) ∧ (on (lt op b) s).mayStart (lt op b) = true) ∧ check (lt op b).cmd (on (lt op b) s) = .ok () ∧
      (job (lt op b).cmd (on (lt op b) s)).isSome = true) : Starts op check job :=
  ⟨on (lt op b) s, 0, lt op b, _, turn_lt h.1, h.2.1, (Option.some_get h.2.2).symm⟩

theorem needsNoFlash {op : Nat} {check : Cmd → State → Check} {job : Cmd → State → Option FlashJob} (b : Bytes) (s : State)
    (h : ((on (lt op b) s).latch 0 = some (lt op b) ∧ (on (lt op b) s).mayStart (lt op b) = true) ∧ check (lt op b).cmd (on (lt op b) s) = .ok () ∧
      job (lt op b).cmd (on (lt op b) s) = none) : NeedsNoFlash op check job :=
  ⟨on (lt op b) s, 0, lt op b, turn_lt h.1, h.2⟩

theorem resumes (op : Nat) : Resumes op :=
  ⟨on (lt op [] (.resumed none)) { t0 with sys := { t0.sys with flashJob := some ⟨[], []⟩, flashDone := some true } }, 0,
    lt op [] (.resumed none), none, ⟨[], []⟩, rfl, rfl, rfl, rfl, rfl⟩

/-! A slot's flash is three runs of cells; what a run holds is read back from it. -/

theorem get?_skip (p q : List Host.Cell) (k : Nat) (h : ∀ x ∈ p, x.1 ≠ k) : AMap.get? (p ++ q) k = AMap.get? q k := by
  induction p with
  | nil => rfl
  | cons e p ih =>
    obtain ⟨j, w⟩ := e
    have hj : k ≠ j := fun e => h (j, w) (by simp) e.symm
    simp only [List.cons_append, AMap.get?]
    rw [if_neg (by first | exact hj | exact fun e => hj e.symm)]
    exact ih fun x hx => h x (by simp [hx])

theorem cells_key (l : Bytes) : ∀ (a : Nat) (x : Host.Cell), x ∈ cells a l → a ≤ x.1 ∧ x.1 < a + l.length := by
  induction l with
  | nil => intro a x h; simp [cells] at h
  | cons b l ih =>
    intro a x h
    simp only [cells, List.mem_cons] at h
    rcases h with rfl | h
    · simp
    · have := ih _ _ h
      simp only [List.length_cons]
      omega

theorem cells_append (l m : Bytes) : ∀ a : Nat, cells a (l ++ m) = cells a l ++ cells (a + l.length) m := by
  induction l with
  | nil => intro a; simp [cells]
  | cons b l ih => intro a; simp [cells, ih, Nat.add_assoc, Nat.add_comm 1]

theorem flashRead_run (l : Bytes) : ∀ (p r : List Host.Cell) (a n : Nat), (∀ x ∈ p, x.1 < a ∨ a + l.length ≤ x.1) →
    n ≤ l.length → flashRead (p ++ (cells a l ++ r)) a n = l.take n := by
  induction l with
  | nil => intro p r a n _ h; obtain rfl : n = 0 := by simpa using h
           simp [flashRead]
  | cons b l ih =>
    intro p r a n hp hn
    cases n with
    | zero => simp [flashRead]
    | succ n =>
      have h1 : AMap.getD (p ++ (cells a (b :: l) ++ r)) a 0xFF = b := by
        unfold AMap.getD
        rw [get?_skip _ _ _ fun x hx => by have := hp x hx; simp only [List.length_cons] at this; omega]
        simp [cells, AMap.get?]
      have h2 := ih (p ++ [(a, b)]) r (a + 1) n (fun x hx => by
        rcases List.mem_append.mp hx with hx | hx
        · have := hp x hx; simp only [List.length_cons] at this; omega
        · obtain rfl := List.mem_singleton.mp hx; simp) (by simpa using hn)
      simp only [flashRead, h1, List.take_succ_cons]
      rw [← h2]
      simp [cells]

theorem image_run (b : Board) (k n : Nat) (p r : List Host.Cell) (l : Bytes) (hf : b.flash = p ++ (cells (region k).1 l ++ r))
    (hp : ∀ x ∈ p, x.1 < (region k).1) (hn : u32 (l.take 256) 0x0C = n) (hl : 256 + n ≤ l.length)
    (hr : n ≤ (region k).2 - 256) : b.image 0 k = ⟨l.take 256, (l.drop 256).take n⟩ := by
  have h1 : flashRead b.flash (0 * flCs1 + (region k).1) 256 = l.take 256 := by
    rw [hf, Nat.zero_mul, Nat.zero_add]
    exact flashRead_run l p r _ _ (fun x hx => .inl (hp x hx)) (by omega)
  have h2 : flashRead b.flash (0 * flCs1 + (region k).1 + 256) n = (l.drop 256).take n := by
    have e : cells (region k).1 l = cells (region k).1 (l.take 256) ++ cells ((region k).1 + 256) (l.drop 256) := by
      have := cells_append (l.take 256) (l.drop 256) (region k).1
      rwa [List.take_append_drop, List.length_take, Nat.min_eq_left (by omega)] at this
    rw [hf, Nat.zero_mul, Nat.zero_add, e, List.append_assoc, ← List.append_assoc]
    have hd : n ≤ (l.drop 256).length := by
      rw [List.length_drop]
      exact Nat.le_sub_of_add_le (by rw [Nat.add_comm]; exact hl)
    clear hl hn
    generalize l.drop 256 = m at hd ⊢
    refine flashRead_run m _ r _ _ (fun x hx => ?_) hd
    rcases List.mem_append.mp hx with hx | hx
    · have := hp x hx; omega
    · have := cells_key _ _ _ hx
      simp only [List.length_take] at this
      omega
  unfold Board.image
  simp only [h1, hn, h2, hr, if_true]

theorem tSess_image1 : tSess.board.image 0 1 = ⟨(tImg 1 tMan).take 256, ((tImg 1 tMan).drop 256).take 40⟩ :=
  image_run tSess.board 1 40 [] (cells 0x20000 (tImg 2 [1]) ++ cells 0x820000 (tImg 3 [2])) (tImg 1 tMan) (List.nil_append _).symm (fun x hx => absurd hx (List.not_mem_nil))
    (by decide +kernel) (by decide +kernel) (by decide)

theorem tSess_image2 : tSess.board.image 0 2 = ⟨(tImg 2 [1]).take 256, ((tImg 2 [1]).drop 256).take 1⟩ :=
  image_run tSess.board 2 1 (cells 0x10000 (tImg 1 tMan)) (cells 0x820000 (tImg 3 [2])) (tImg 2 [1]) rfl
    (fun x hx => by
      have := cells_key _ _ _ hx
      have h : (tImg 1 tMan).length = 320 := by decide +kernel
      rw [h] at this
      show x.1 < 0x20000
      omega)
    (by decide +kernel) (by decide +kernel) (by decide)

theorem tSess_image3 : tSess.board.image 0 3 = ⟨(tImg 3 [2]).take 256, ((tImg 3 [2]).drop 256).take 1⟩ :=
  image_run tSess.board 3 1 (cells 0x10000 (tImg 1 tMan) ++ cells 0x20000 (tImg 2 [1])) [] (tImg 3 [2])
    (by rw [List.append_nil, List.append_assoc]; rfl)
    (fun x hx => by
      have h1 : (tImg 1 tMan).length = 320 := by decide +kernel
      have h2 : (tImg 2 [1]).length = 320 := by decide +kernel
      show x.1 < 0x820000
      rcases List.mem_append.mp hx with hx | hx
      · have := cells_key _ _ _ hx; rw [h1] at this; omega
      · have := cells_key _ _ _ hx; rw [h2] at this; omega)
    (by decide +kernel) (by decide +kernel) (by decide)

theorem tSess_verdict1 : tSess.board.imageVerdict 1 (tSess.board.image 0 1) = 1 := by rw [tSess_image1]; decide +kernel
theorem tSess_verdict2 : tSess.board.imageVerdict 2 (tSess.board.image 0 2) = 1 := by rw [tSess_image2]; decide +kernel
theorem tSess_verdict3 : tSess.board.imageVerdict 3 (tSess.board.image 0 3) = 1 := by rw [tSess_image3]; decide +kernel
theorem tSess_silicon : (((slice (tSess.board.image 0 1).body 4 16).take (u8 (tSess.board.image 0 1).body 0)).any fun c => c = 0xB1) = true := by
  rw [tSess_image1]; decide +kernel

/-- The set in slot A verifies. -/
theorem tSess_verdict : verdictCheck (tSess.board.slotVerdict 0) = .ok () := by
  simp only [Board.slotVerdict, Board.setVerdict, tSess_verdict1, tSess_verdict2, tSess_verdict3, tSess_silicon]
  decide

theorem tSess_turn : (on (lt 0x1004 []) tSess).turn 0 0x1004 (lt 0x1004 []) := ⟨by decide +kernel, rfl, rfl, by decide +kernel⟩

/-- No entry of a guard names a context: dropping its entries changes nothing. -/
theorem dropEntries_none (s : State) (g c : Nat) : ∀ n i,
    ((List.range' i n).all fun k => !(s.regBit (entryAddr g k 3) 0 && decide (s.regFld (entryAddr g k 3) 31 16 = c))) = true →
    s.dropEntries g c n i = s := by
  intro n
  induction n with
  | zero => intro i _; rfl
  | succ n ih =>
    intro i h
    simp only [List.range'_succ, List.all_cons, Bool.and_eq_true, Bool.not_eq_true'] at h
    unfold State.dropEntries
    rw [if_neg (by intro e; have := h.1; simp_all)]
    exact ih _ h.2

/-- Teardown of a context that no guard's entry names leaves the guards as they are. -/
theorem removeEntries_none (s : State) (c : Nat)
    (h : ((List.range 19).all fun g => (List.range' 0 (guardEntries g)).all fun k =>
      !(s.regBit (entryAddr g k 3) 0 && decide (s.regFld (entryAddr g k 3) 31 16 = c))) = true) :
    s.removeEntries c = s := by
  unfold State.removeEntries
  have : ∀ l : List Nat, (l.all fun g => (List.range' 0 (guardEntries g)).all fun k =>
      !(s.regBit (entryAddr g k 3) 0 && decide (s.regFld (entryAddr g k 3) 31 16 = c))) = true →
      l.foldl (fun t g => t.dropEntries g c (guardEntries g) 0) s = s := by
    intro l
    induction l with
    | nil => intro _; rfl
    | cons g l ih =>
      intro hl
      simp only [List.all_cons, Bool.and_eq_true] at hl
      simp only [List.foldl_cons, dropEntries_none s g c _ _ hl.1]
      exact ih hl.2
  exact this _ h

/-! ## Ill-formed commands -/

/-- A command beyond each bound is refused by the check of its operand. -/
theorem test_ill_formed_operands :
    ([.identify 33, .quiesceDrainEnd 1024, .ambCapPop 3, .ppsInEdge .rise 40, .tsCaptureEdge 0 .rise 0, .tsCaptureEdge 3 .rise 0,
      .ochPnCntClr 8 0, .gapContinues true 4, .gapContinues false 8, .encoderEntry 0 40, .ssiPoll 4294967296 0, .stackClose 16,
      .imuDrdyEdge (List.replicate 33 0) 0, .sepSnCntClr 16 0, .tdmPortSilent 4, .derivedTick 31, .derivedTick 40, .chainSample 40,
      .umberApplyFallback 4, .virRnCntClr 256 0, .runDispatch 0, .runDispatch 257, .tileWstallWindow 16, .tealLossOfLock 2,
      .wakeEvent 544, .onDemandAccess 16, .grdFaultLatchClear 19 0, .grdEntryWrite 1 1536 0 0, .grdEntryWrite 1 0 4 0] : List Instr).all
      (fun i => !i.wf) = true := by decide +kernel

theorem test_ill_formed_more_operands :
    ([.carmTnEoi 6 0, .sourceLineChange 544 true, .asyncLatchEdge 511 .rise, .interruptAcknowledge 5, .faultMergeRelease 0 0,
      .faultMergeRelease 16 0, .faultMergeRelease 1 1024, .porstNRelease 16 true, .sendWindowStage 4096 0 0 0,
      .sendWindowStage 0 4096 0 0, .sendWindowStage 0 0 64 0, .sendWindowStage 0 0 2 0, .encoderCountEdge ⟨.up, 40⟩, .queuePop 0 0 32, .contributionProcess 256,
      .doorbell 32 0, .ringTailWrite 0 15 0, .functionMasterEnable 0 4 true, .vfDisable 32, .pcieLinkChange true 5 4,
      .pcieLinkChange true 4 5, .sensorBusTransferDone ⟨3, 0⟩ 0 [], .sensorBusTransferDone ⟨0, 4⟩ 0 [], .sensorBusTransferDone ⟨0, 0⟩ 513 []] : List Instr).all
      (fun i => !i.wf) = true := by decide +kernel

/-- Data whose fields lie outside their widths is refused. -/
theorem test_ill_formed_data :
    (({ tPkt with vc := 4 } : Csi2Packet).wf || ({ tPkt with dt := 64 } : Csi2Packet).wf || ({ tPkt with drained := 9 } : Csi2Packet).wf ||
      ({ tPkt with cycles := 16 } : Csi2Packet).wf || (⟨256, List.replicate 258 true, [], 0⟩ : TdmFrame).wf || (⟨256, [], [], 40⟩ : TdmFrame).wf ||
      (⟨8388608, 0, 0⟩ : BatCode).wf || (⟨0, 16777216, 0⟩ : BatCode).wf || (⟨0, 0, 16777216⟩ : BatCode).wf ||
      ({ tAnn with port := 2 } : Announce).wf || ({ tAnn with domain := 256 } : Announce).wf ||
      ({ tAnn with stepsRemoved := 65536 } : Announce).wf || ({ tAnn with logInterval := 128 } : Announce).wf ||
      (⟨true, 4, 0, 0, none⟩ : TealFrame).wf || (⟨true, 0, 4, 0, none⟩ : TealFrame).wf || (⟨true, 0, 0, 64, none⟩ : TealFrame).wf ||
      (⟨4096, false, 0, 4, none, 0⟩ : Access).wf || (⟨0, false, 2 ^ 40, 4, none, 0⟩ : Access).wf ||
      (⟨0, true, 2 ^ 24, 4, none, 0⟩ : Access).wf || (⟨0, false, 0, 4, none, 3⟩ : Access).wf ||
      (⟨.bar0 32, 0, 4, 0⟩ : RegWrite).wf || (⟨.bar0 0, 0x10000, 4, 0⟩ : RegWrite).wf || (⟨.bar2, 0x1000000, 4, 0⟩ : RegWrite).wf ||
      (⟨.internal 4096, 0, 4, 0⟩ : RegWrite).wf || (⟨.internal 0, 0, 3, 0⟩ : RegWrite).wf || (⟨2, false, 0, [], [], 0⟩ : PtpTx).wf) =
      false := by decide +kernel

/-- Well-formed ones are not refused. -/
theorem test_well_formed :
    ([.identify 32, .runDispatch 256, .ssiPoll 4294967295 39, .csi2PacketReceived 7 tPkt, .announceReceived tAnn,
      .registerWrite ⟨.bar0 31, 0x410, 8, 0⟩, .wakeEvent 0x401, .vfEnable 31] : List Instr).all Instr.wf = true := by decide +kernel


/-! ## The worked cases of the spec -/

/-- The next state of an outcome. -/
def after (i : Instr) (s : State) : State :=
  match exec i s with
  | .next t => t
  | _ => s

/-- A command of context 1 carried out by its page. -/
def paged (i : Nat → Instr) (op : Nat) (b : Bytes) (s : State) : State := after (i 0) (on (lt op b) s)

/-- Binary32 of a number of eighths. -/
def eighths (n : Int) : F32 := F.ofScaled n (-3)

/-- 01 Worked case: TS32 and the event word of farm time 1,750,000,000.25 s. -/
theorem test_event_word :
    (⟨1750000000, 250000000, 3, 7200000450000, false⟩ : Stamp).ts32 = 0x73D5B280 ∧
    evWord 0x73D5B280 1234 567 true 2 0 = 0x052374D273D5B280 := by decide +kernel

/-- 02 Worked case, step 6: farm time in HOLDOVER before the step. -/
def tServo : State :=
  (t0.setReg (R.HIF_RINGn_CFG 0) 0x10C).modAmber fun a => { a with
    steadyQ := 7300600000000 * 65536, farmQ := 1750000104600000000 * 65536, heldQ := 1750000104600000000 * 65536,
    epoch := 3, state := .holdover }

theorem test_step_anchor :
    let u := (((tServo.doStep 1750000104597000000).setTimeState .locked).emitAnchor)
    u.amber.farmQ = 1750000104597000000 * 65536 ∧ u.amber.epoch = 4 ∧ (u.host.staged.map fun x => x.recd.body) =
      [blk [(4, 0xBF668F40), (2, 0xC), (1, 1), (1, 0), (8, 7300600000000), (6, 1750000104), (2, 3), (4, 600000000), (4, 0)]] := by
  decide +kernel

/-- 05 Worked case: the arc of the ages given is of length 4. -/
theorem test_corner_arc :
    arcOf [3, 5, 2, 6, 900, 950, 1200, 65535, 65535, 1100, 980, 1300, 1000, 1500, 65535, 7] 5 4 = some 4 := by decide +kernel

/-- 05 Worked case: the track's update and its report 300 µs later at (700.625, 812.325). -/
theorem test_track_update :
    let s := (((t0.setReg (R.SEP_Sn_TRK 0) 1).setReg (R.SEP_Sn_TRK_GATE 0) (F.ofNat 8)).setReg (R.SEP_Sn_TRK_AB 0)
      0x20008000).setTrack 0 ⟨5, 0, tConfirmed, 0, eighths 5598, eighths 6496, eighths 8000, 0, st 1000000, 1, 0, 0, false, 0, 0, 0⟩
    let u := (s.trackCorner 0 ⟨⟨0, st 1250000⟩, 0, 0, 0, false, false⟩ (eighths 5604, eighths 6500)).1
    (u.sepia.tracks.get? 0).map (fun t => (t.x, t.y, t.vx, t.pred 1550000)) =
      some (eighths 5602, eighths 6498, eighths 10000, eighths 5605, F.div (F.ofNat 812325) (F.ofNat 1000)) := by
  decide +kernel

/-- 06 Worked case: the delay of 790 half samples at a period of 20,833.333 ns. -/
theorem test_filter_delay :
    (t0.setReg64 (R.UMB_Pn_PERIOD_LO 1) 1365333333).validity 11 ⟨1750000200, 500000000, 3, 5000000000000, false⟩ 790 =
      ⟨1750000200, 491770833, 3, 4999991770833, false⟩ := by decide +kernel

/-- 06 Worked case: three stages and the DC block of channel 11 cost 1,087,500 MAC/s, without its band unit. -/
theorem test_mac_cost :
    (((((((t0.setReg (R.UMB_Pn_RATE 1) 48000).setReg (R.UMB_CHn_CFG 11) 0x50017).setReg (R.UMB_CHn_STG 11) 0x20002).setReg
      (R.UMB_CHn_STG 11 + 8) 0x20002).setReg (R.UMB_CHn_STG 11 + 16) 0x10001).setReg (R.UMB_CHn_DC 11) 0x101).chCost 11 = 1087500) ∧
    (((t0.setReg (R.UMB_CHn_STG 11) 0x20002).setReg (R.UMB_CHn_STG 11 + 8) 0x20002).setReg (R.UMB_CHn_STG 11 + 16)
      0x10001).preG 11 3 = 790 := by decide +kernel

/-- 07 Worked case: rule 17 with its window of 1.6 ms and its two members. -/
def tFuse : State :=
  let at' := fun (t : Nat) (s : State) => s.modAmber fun a => { a with steadyQ := t * 65536 }
  let page := blk [(2, 17), (1, 1), (1, 2), (1, 0), (1, 1), (1, 0), (1, 0), (1, 2), (1, 0), (2, 0), (4, 1600), (4, 1600),
    (4, 1000), (4, 48800), (4, 0x40200000), (12, 0), (1, 1), (3, 0)] ++
    blk [(1, 3), (3, 0), (4, 0xA1C), (8, 0), (1, 6), (1, 1), (1, 5), (1, 0), (4, 0xFFFFFFFF), (4, 0x2B800000), (4, 0)]
  let held := ((t0.setReg (R.SEP_Sn_OWNER 0) 1).setReg (R.UMB_BANDn_OWNER 1) 1).setCtx 1 { Ctx.new 0 0 with gen := 1 }
  let u := after (.windowOpen 17) (at' 7200000048800 (applyViridian ⟨0x0801, page, [], 1, 0⟩ (at' 7200000000000 held)))
  let m1 : Member := ⟨3, 0, 0xA1C, [0x44B7EC9C, 0, 0, 0, 0, 0], 7200000450000, 7200000450000,
    ⟨1750000000, 250000000, 3, 7200000450000, false⟩, 0, 0x2004, 1, 1, 0, 0, 0, 0, 0, 0, 0⟩
  let m2 : Member := ⟨6, 1, 1, [0x54400000, 0], 7200000716667, 7200000050000,
    ⟨1750000000, 250266667, 3, 7200000716667, false⟩, 0, 0x200, 1, 1, 0, 0, 0, 0, 0, 0, 0⟩
  at' 7200002650000 (after (.windowClose 17) (at' 7200002648800 ((u.admitMember m1).admitMember m2)))

theorem test_fused_record :
    (after .fusedRecordStage tFuse).host.staged.map (fun x => x.recd) =
    [⟨0x30, 1, 3, 1750000000, 250000000, 1, 2600, 0, 0x2204, blk [(2, 17), (1, 2), (1, 2), (4, 1), (8, 7200000048800), (8, 7200001648800), (4, 0x40400000), (4, 1),
      (1, 0), (1, 0), (2, 1), (4, 0x44B7EC9C), (4, 2200), (4, 0xA1C), (1, 1), (1, 5), (2, 1), (4, 0x54400000), (4, 2600),
      (4, 0xFFFFFFFF)]⟩] := by decide +kernel

/-- 09 Worked case: the predictor's path for distances 74, 11 and 662. -/
theorem test_predictor_path :
    let x : Bind := { newBind 1 with predEnable := true, mustFull := false, refreshK := 32, maxSkips := 8, tSkip := 40, tDelta := 300, lastInput := some [], last := some ⟨⟨0, 0, 3, 0, false⟩, 0, 0, []⟩ }
    (choosePath x 74 3, choosePath x 11 3, choosePath x 662 3) = (1, 2, 0) := by decide +kernel

/-- 10 Worked case: STATUS when the command of sequence 0x31 is latched, and when its response is posted. -/
def tVf : State :=
  let b := [4, 2, 2, 0, 0x31, 0, 0, 0, 0xFF, 0xFF, 0x20, 0, 0, 0, 0, 0] ++
    blk [(1, 0), (1, 1), (1, 0), (1, 16), (1, 1), (3, 0), (8, 0x840000000), (8, 0x840010000), (2, 8), (2, 500), (4, 1024)]
  (((({ t0 with sys := { t0.sys with running := 0 } } : State).setReg R.HIF_NUMVFS 4).setFunc 2 { Func.init with
    bme := true, msixEnable := true, respSeq := 0x30, cmdArea := padTo 512 b }).setCtx 5 (Ctx.new 2 0))

theorem test_mailbox_status :
    let u := after (.doorbell 2 0x31) tVf
    u.status 2 = 0x300009 ∧ (after (.responsePost 2) (after (.ringSet 2) u)).status 2 = 0x31000A := by decide +kernel

/-- 10 Worked case, steps 4 to 6: a record wraps at the end of the ring. -/
theorem test_ring_wraps :
    let u := after (.ringSet 2) (after (.doorbell 2 0x31) tVf)
    let v := ((u.setReg (R.HIF_RINGn_HEAD 30) 0xFFE0).setReg (R.HIF_RINGn_TAIL 30) 0xFE00)
    let w := after (.recordDeliver 2 0) (v.emit .umber (some 5) 0x21 (st 5) 5 0 0 0 (List.replicate 32 7))
    v.ringFree 2 0 = 65056 ∧ w.reg (R.HIF_RINGn_HEAD 30) = 0x10020 ∧ readBytes w.hostMem 0x840010000 4 = [0x20, 0, 1, 0] ∧
    readBytes w.hostMem 0x84000FFE0 2 = [0x21, 0] ∧ readBytes w.hostMem 0x840000000 33 = List.replicate 32 7 ++ [0] := by
  decide +kernel

/-- 13 Worked case: the entry that ACCESS_SET_ENTRY writes, and the three requests it decides. -/
def tEntry : State :=
  paged .accessSetEntry 0x0D01 (blk [(1, 1), (1, 0), (1, 20), (1, 3), (2, 0x240), (2, 0xFC0), (8, 0x10200000)]) t0

theorem test_guard_entry : tEntry.guardEntry 1 1248 = (0x10200000, 0x1400, 0x0FC00240, 0xFFFF0013) := by decide +kernel

theorem test_guard_requests :
    (tEntry.guarded 0x10200000 0x270 false).2 = true ∧ (tEntry.guarded 0x10200000 0x270 true).2 = false ∧
    (tEntry.guarded 0x10200000 0x280 false).2 = false := by decide +kernel

/-- 14 Worked case: the ordered sum, and the sum in the order of arrival. -/
theorem test_ordered_sum :
    [(0x3F800000 : Int), 0x4B800000, 0xCB800000, 0x3F800000].foldl (fun a x => addVector true a [x]) [] = [0x3F800000] ∧
    [(0xCB800000 : Int), 0x3F800000, 0x3F800000, 0x4B800000].foldl (fun a x => addVector true a [x]) [] = [0x40000000] := by
  decide +kernel

/-- 14 Worked case, with two elements: round 37 complete, its result waiting for queue 610. -/
theorem test_combining_result :
    let s := (((((tComb 0x02620047 { Comb.init with result := some (37, 15) } []).setReg (R.SLT_Cn_BUF_LO 3) 0x10400000).setReg
      (R.SLT_Cn_KIND 3) 0x0901).setReg (R.SLT_Qn_CFG 610) 0x11).setReg (R.SLT_Qn_BASE_LO 610) 0x10101000)
    ((after (.combineResultCommit 3) s).queue 610).map (fun d => (d.header, d.addr, d.length, d.tag, d.arg)) =
      [(0x80300901, 0x10400020, 8, 0x25, 0xF)] := by decide +kernel

/-- 15 Worked case, steps 5 and 6: source 516 is more urgent and replaces the provisional source 300; its claim. -/
theorem test_replaced_claim :
    let s := ((((t0.setReg (R.CARM_Sn_CFG 516) 0x01050437).setSrc 516 { Src.init with count := 1, filtered := false }).setTgt 2
      { Target.init with prov := some (10, 300) }))
    let u := after (.interruptCommit 2) s
    u.reg (R.CARM_Tn_CLAIM 2) = 0x01030204 ∧ u.reg (R.CARM_Tn_REPLACED 2) = 1 ∧ (u.tgt 2).stack = [(3, 516)] := by
  decide +kernel

/-- 15 Worked case, step 9: a completion of level 3 while level 10 is on top. -/
theorem test_refused_completion :
    let u := after (.carmTnEoi 2 3) (t0.setTgt 2 { Target.init with stack := [(10, 300)] })
    u.reg (R.CARM_Tn_ORDER_INFO 2) = 0x1030A ∧ (u.tgt 2).stack = [(10, 300)] ∧ (u.tgt 2).orderPend = true := by decide +kernel

/-- 16 Worked case: B at 104 and at 108 °C with the array at P1. -/
theorem test_thermal_budget :
    ((t0.setReg R.IVR_TJ (104 * 8)).setRegFld R.IVR_SCHED_CFG 15 8 2).thermalBudget = 54600 ∧
    ((t0.setReg R.IVR_TJ (108 * 8)).setRegFld R.IVR_SCHED_CFG 15 8 2).thermalBudget = 18200 := by decide +kernel

/-- 16 Worked case, steps 2, 3 and 6: what is held back for more important classes. -/
theorem test_admission :
    let s := ((t0.setReg R.IVR_BUDGET_UJ 54600).modIvory fun i => { i with
      prevCharged := [6800, 0, 28000, 18000], charged := [3400, 0, 0, 0] }).modIndigo fun i => { i with
      binds := [(3, { tBind with cls := 0 }), (7, { tBind with cls := 2 }), (9, { tBind with cls := 3 })] }
    let u := s.charge 7 14000
    let v := ((u.charge 9 18000).charge 3 3400).charge 7 14000
    s.heldBack 2 = 3400 ∧ s.fits 2 14000 = true ∧ u.heldBack 3 = 17400 ∧ u.fits 3 18000 = true ∧ v.chargedAll = 52800 ∧
    v.fits 3 18000 = false := by decide +kernel

/-- 17 Worked case: A after step 5, and WARN, LOW and CRITICAL at exactly 30, 15 and 5 %. -/
theorem test_battery_levels :
    let s := (t0.setReg (R.SBL_Sn_LIMITS 0) 0x000F0000).setReg (R.SBL_Sn_LEVELS 0) 0x02050F1E
    s.availMah 0 (eighths 359775) (F.ofNat 50000) 0x3F700000 = eighths 274775 ∧
    [12751, 12750, 6376, 6375, 2126, 2125].map (fun a => s.nextLevel 0 0 (s.levelPct 0 (F.ofNat a) (F.ofNat 50000)) (F.ofNat 52000)) =
      [0, 1, 1, 2, 2, 3] := by decide +kernel

/-- 17 Worked case: the battery budget of 6,429,735 J over 14,400 s under a base load of 440 W. -/
theorem test_battery_budget :
    (((t0.setReg R.SBL_E_RES_J 6429735).setReg R.IVR_RUNTIME_S 14400).setReg R.IVR_BASE_LOAD_MW 440000).batteryBudget = 65093 := by
  decide +kernel

/-- 18 Worked case: the body of the FAULT record of a double-bit DRAM error. -/
theorem test_fault_body :
    faultBody ⟨4, 2, 0x23, 0x1234567840, [], 1, ⟨0, 0, 0, 9700000000000, false⟩, true, some 9, 0x2A⟩ =
      blk [(2, 4), (1, 2), (1, 3), (4, 0x2A), (2, 2), (2, 0x23), (4, 1), (8, 0x1234567840), (8, 9700000000000), (32, 0)] := by
  decide +kernel


/-- 19 R369: FAULT_N low and the straps pulled down while PORST_N is low. -/
theorem test_pins_in_reset : State.reset.pin .faultN = .low ∧ State.reset.pin .strap = .pulledDown ∧
    State.reset.pin (.dphy 0) = .highZ := by decide

/-- 19 R369: CS_N of the sensor SPI is high in HIBERNATE, and Teal is off in SENTINEL. -/
theorem test_pins_asleep : ({ t0 with ivory := { t0.ivory with state := 3 } } : State).pin .spiCs = .high ∧
    ({ t0 with ivory := { t0.ivory with state := 2 } } : State).pin .teal = .highZ := by decide +kernel

/-- 19 R355, R357: DDR3_CK_T is the ball AG24. -/
theorem test_ball_name : (⟨26, 24⟩ : Ball).name = "AG24" ∧ (⟨26, 24⟩ : Ball).use = .dram 3 "CK_T" := by decide +kernel

/-- 19 R359: the 143 balls of the core array by rail. -/
theorem test_core_array :
    ([Rail.vddIdg, Rail.vddAon, Rail.vddCore, Rail.vss].map fun r =>
      ((List.range 13).map fun i => ((List.range 11).filter fun j => (⟨i + 9, j + 10⟩ : Ball).use = .rail r).length).sum) =
      [33, 6, 33, 71] := by decide +kernel

/-! ## Witnesses of the statements -/

theorem witness_StepRunsTheFrontCommand :
    ∃ s : State, (s.pending = []) :=
  ⟨t0, by decide +kernel⟩

theorem witness_MemoriesStayCanonical :
    (∃ c : Instr, ∃ s : State, ∃ t : State, (s.Mems) ∧ (exec c s = .next t)) ∧
    (∃ s : State, ∃ t : State, (s.Mems) ∧ (step s = .next t)) :=
  ⟨⟨.ethUpload (tDg 4 0 [1]), { tEth with mem := [(dramBase, 7)] }, _, by unfold State.Mems; decide +kernel, rfl⟩,
   ⟨{ tEth with mem := [(dramBase, 7)], pending := [.ethUpload (tDg 4 0 [1])] }, _, by unfold State.Mems; decide +kernel, rfl⟩⟩

theorem witness_MemoryFrame :
    ∃ c : Instr, ∃ s : State, ∃ t : State, (mayStore c = false) ∧ (exec c s = .next t) :=
  ⟨.interruptAcknowledge 0, { tInt 0 3 [] none with mem := [(dramBase, 7)] }, _, by decide +kernel, rfl⟩

theorem witness_RefusedCommandsChangeNothing :
    ∃ (i : Nat → Instr) (op : Nat) (check : Cmd → State → Check) (s : State) (p : Nat) (l : Latch) (r : Resp) (t : State),
    ((∃ act, PageDoes i op check act) ∨ ∃ job finish, FlashPageDoes i op check job finish) ∧ s.turn p op l ∧
    exec (i p) s = .next t ∧ t.latch p = some { l with stage := .answered r } ∧ r.status ≠ cOk :=
  ⟨.intrSetpend, 0x0E03, _, on (lt 0x0E03 (blk [(2, 544), (2, 0)])) t0, 0, (lt 0x0E03 (blk [(2, 544), (2, 0)])), ⟨cBadParam, 0, 0, []⟩, _, .inl ⟨_, pageDoes _ _ _ _ (fun _ _ => rfl)⟩,
    ⟨by decide +kernel, rfl, rfl, by decide +kernel⟩, rfl, by decide +kernel, by decide⟩

theorem witness_TimePortProjectionAndFeaturePages_1 :
    (∃ s : State, ∃ k : Nat, ∃ v : Word, (bit v 0 = true)) ∧
    (∃ s : State, ∃ k : Nat, ∃ v : Word, (bit v 0 = false)) ∧
    (Passes 0x0301 (fun _ _ => .ok ())) ∧
    (Passes 0x0302 timeSetServoCheck) ∧
    (Fails 0x0302 timeSetServoCheck) ∧
    (Passes 0x0303 ptpSetPortCheck) :=
  ⟨⟨t0, 3, 1, by decide +kernel⟩,
   ⟨t0, 3, 2, by decide +kernel⟩,
   passes (List.replicate 64 0) (t0) (by decide +kernel),
   passes (blk [(1, 0), (1, 0), (6, 0), (4, 1000)]) (t0) (by decide +kernel),
   fails (List.replicate 64 0xFF) t0 (badParam 0) (by decide +kernel),
   passes (List.replicate 64 0) (t0) (by decide +kernel)⟩

theorem witness_TimePortProjectionAndFeaturePages_2 :
    (Fails 0x0303 ptpSetPortCheck) ∧
    (Passes 0x0304 timeStepCheck) ∧
    (Fails 0x0304 timeStepCheck) ∧
    (Passes 0x0305 timeSetPinsCheck) ∧
    (Fails 0x0305 timeSetPinsCheck) ∧
    (Passes 0x0306 timeReadCapturesCheck) :=
  ⟨fails (List.replicate 64 0xFF) t0 (badParam 0) (by decide +kernel),
   passes (List.replicate 64 0) (t0) (by decide +kernel),
   fails (List.replicate 64 0xFF) t0 (badParam 6) (by decide +kernel),
   passes (blk [(4, 0), (4, 1), (4, 0)]) (t0) (by decide +kernel),
   fails (List.replicate 64 0xFF) t0 (badParam 0) (by decide +kernel),
   passes (blk [(1, 2), (1, 16), (2, 0)]) (t0) (by decide +kernel)⟩

theorem witness_TimePortProjectionAndFeaturePages_3 :
    (Fails 0x0306 timeReadCapturesCheck) ∧
    (Passes 0x0401 checkAssign) ∧
    (Fails 0x0401 checkAssign) ∧
    (Passes 0x0405 checkPortStats) ∧
    (Fails 0x0405 checkPortStats) ∧
    (Passes 0x0407 checkTrigger) :=
  ⟨fails (List.replicate 64 0xFF) t0 (badParam 0) (by decide +kernel),
   passes (blk [(1, 7), (1, 1), (2, 1), (1, 1), (1, 0xFF), (1, 0), (1, 0xFF), (2, 80), (6, 0)]) (t0) (by decide +kernel),
   fails (List.replicate 64 0xFF) t0 (badParam 0) (by decide +kernel),
   passes (blk [(1, 1), (3, 0)]) (tPort) (by decide +kernel),
   fails (List.replicate 64 0xFF) t0 (badParam 0) (by decide +kernel),
   passes (blk [(1, 1), (1, 0), (6, 0), (4, 0), (4, 1000), (4, 5)]) (tPort) (by decide +kernel)⟩

theorem witness_TimePortProjectionAndFeaturePages_4 :
    (Fails 0x0407 checkTrigger) ∧
    (Passes 0x0501 checkRotor) ∧
    (Fails 0x0501 checkRotor) ∧
    (Passes 0x0502 checkImu) ∧
    (Fails 0x0502 checkImu) ∧
    (Passes 0x0505 checkReleaseMap) :=
  ⟨fails (List.replicate 64 0xFF) t0 (badParam 0) (by decide +kernel),
   passes (blk [(1, 0), (1, 1), (1, 0), (1, 12), (4, 16), (2, 1), (2, 5), (4, 100), (16, 0), (4, 0x40000000), (12, 0), (4, 0x40000000), (4, 0)]) (t0) (by decide +kernel),
   fails (List.replicate 64 0xFF) t0 (badParam 0) (by decide +kernel),
   passes (blk [(1, 0), (1, 1), (1, 0), (1, 6), (4, 0), (4, 1), (2, 1), (2, 1)]) (t0) (by decide +kernel),
   fails (List.replicate 64 0xFF) t0 (badParam 0) (by decide +kernel),
   passes (blk [(1, 0), (1, 3), (2, 0)]) ((t0.setReg (R.COB_Sn_OWNER 0) 1).setReg (R.COB_Sn_STATUS 0) 0x2000) (by decide +kernel)⟩

theorem witness_TimePortProjectionAndFeaturePages_5 :
    (Fails 0x0505 checkReleaseMap) ∧
    (Passes 0x0506 (fun _ s => s.reach dCOB)) ∧
    (Passes 0x0605 (fun c s => allOf [s.reach dSEP, inRange (u16 c.block 0) 100 10000 0, reserved c.block 2 2])) ∧
    (Fails 0x0605 (fun c s => allOf [s.reach dSEP, inRange (u16 c.block 0) 100 10000 0, reserved c.block 2 2])) ∧
    (Passes 0x0606 (fun c s => allOf [surfAccess (u8 c.block 0) c.ctx s, inRange (u8 c.block 1) 0 1 1, reserved c.block 2 2])) ∧
    (Fails 0x0606 (fun c s => allOf [surfAccess (u8 c.block 0) c.ctx s, inRange (u8 c.block 1) 0 1 1, reserved c.block 2 2])) :=
  ⟨fails (List.replicate 64 0xFF) t0 (badParam 0) (by decide +kernel),
   passes (List.replicate 64 0) (t0) (by decide +kernel),
   passes (blk [(2, 100), (2, 0)]) (t0) (by decide +kernel),
   fails (List.replicate 64 0xFF) t0 (badParam 0) (by decide +kernel),
   passes (List.replicate 64 0) (t0) (by decide +kernel),
   fails (List.replicate 64 0xFF) t0 (badParam 0) (by decide +kernel)⟩

theorem witness_AmberRegisterCommands :
    (∃ s : State, ∃ v : Word, ∃ n : Nat, (∃ e, ∃ es, (s.capsOf n = e :: es))) ∧
    (∃ s : State, ∃ v : Word, ∃ n : Nat, (s.capsOf n = [])) ∧
    (∃ s : State, (s.amber.servoDue = false) ∧ (s.amber.stepDue = false)) :=
  ⟨⟨t0.setCaps 2 [⟨st 5, .rise⟩], 1, 2, _, _, rfl⟩,
   ⟨t0, 1, 2, by decide +kernel⟩,
   ⟨t0, by decide +kernel⟩⟩

theorem witness_AmberTicks_1 :
    (∃ s : State, (s.amber.stepDue = true)) ∧
    (∃ s : State, (s.amber.stepDue = false)) ∧
    (∃ s : State, (s.amber.wrapDue = true)) ∧
    (∃ s : State, (s.amber.wrapDue = false)) ∧
    (∃ s : State, (s.amber.lastAnchor + s.regN R.AMB_ANCHOR_PERIOD ≤ s.now)) ∧
    (∃ s : State, (s.now < s.amber.lastAnchor + s.regN R.AMB_ANCHOR_PERIOD)) :=
  ⟨⟨t0.modAmber fun a => { a with stepDue := true }, by decide +kernel⟩,
   ⟨t0, by decide +kernel⟩,
   ⟨t0.modAmber fun a => { a with wrapDue := true }, by decide +kernel⟩,
   ⟨t0, by decide +kernel⟩,
   ⟨at0 1000000000 t0, by decide +kernel⟩,
   ⟨t0.modAmber fun a => { a with lastAnchor := 200000000 }, by decide +kernel⟩⟩

theorem witness_AmberTicks_2 :
    (∃ s : State, (s.amber.servoDue = true)) ∧
    (∃ s : State, (s.amber.servoDue = false)) ∧
    (∃ s : State, (s.amber.slewDue = true)) ∧
    (∃ s : State, (∃ t, (s.amber.ppsInLast = some t) ∧ (s.reference = 2) ∧ (t + (s.amber.ppsMisses + 1) * 1000000000 + 500000000 ≤ s.now))) ∧
    (∃ s : State, (∃ k, (s.amber.ppsDue = some k) ∧ (s.regBit R.AMB_PPS_OUT_WIDTH 31 = true) ∧ (s.amber.ppsOut = false) ∧ (s.ppsGuarded k = false) ∧ (seenSecond k s.amber.ppsSeen = false) ∧ (s.amber.ppsNext = none))) ∧
    (∃ s : State, (s.amber.ppsOut = true) ∧ (s.amber.ppsFallAt ≤ s.now)) :=
  ⟨⟨t0.modAmber fun a => { a with servoDue := true }, by decide +kernel⟩,
   ⟨t0, by decide +kernel⟩,
   ⟨t0.modAmber fun a => { a with slewDue := true }, by decide +kernel⟩,
   ⟨(at0 2500000000 (t0.setRegFld R.AMB_CTRL 1 0 2)).modAmber fun a => { a with ppsInLast := some 0, ppsMisses := 1 }, 0, by decide +kernel⟩,
   ⟨(t0.setReg R.AMB_PPS_OUT_WIDTH 0x80000001).modAmber fun a => { a with ppsDue := some 1 }, 1, by decide +kernel⟩,
   ⟨t0.modAmber fun a => { a with ppsOut := true, ppsFallAt := 200000000 }, by decide +kernel⟩⟩

theorem witness_AmberTicks_3 :
    (∃ s : State, ∃ m : Foreign, (s.selectedMaster = some m) ∧ (s.amber.lastAnnounce + 3 * announceNs m.msg.logInterval ≤ s.now)) ∧
    (∃ s : State, (s.selectedMaster = none) ∧ (s.amber.overdueAt = none)) ∧
    (∃ s : State, ∃ n : Nat, (s.portState n = 5) ∧ ((s.ptpPort n).masterAt ≤ s.now)) ∧
    (∃ s : State, ∃ n : Nat, (s.portState n ≠ 5) ∧ (s.portState n ≠ 4)) :=
  ⟨⟨(at0 3000000000 t0).modAmber fun a => { a with masters := [⟨tAnn, [0]⟩], selected := some (7, 0), lastAnnounce := 0 }, ⟨tAnn, [0]⟩, by decide +kernel⟩,
   ⟨t0, by decide +kernel⟩,
   ⟨t0.setReg (R.AMB_PTPn_PORT_STATE 1) 5, 1, by decide +kernel⟩,
   ⟨t0.setReg (R.AMB_PTPn_PORT_STATE 1) 9, 1, by decide +kernel⟩⟩

theorem witness_StepOfFarmTime :
    (∃ s : State, (s.amber.stepDue = true) ∧ (s.amber.servoDue = false)) ∧
    (∃ s : State, ∃ target : Nat, (let t := ((s.modAmber fun a => { a with farmQ := target * 65536 % farmModQ, epoch := a.epoch + 1, slewQ := 0, slewDue := false, stepDue := false, ppsGuard := none }).bumpSat R.AMB_STEP_COUNT).assertSource 352; (let skipped := secondOf (target * 65536) s.ppsOfs - secondOf s.amber.heldQ s.ppsOfs; (skipped ≤ 0)))) ∧
    (∃ s : State, ∃ target : Nat, (0 < secondOf (target * 65536) s.ppsOfs - secondOf s.amber.heldQ s.ppsOfs)) :=
  ⟨⟨t0.modAmber fun a => { a with stepDue := true }, by decide +kernel⟩,
   ⟨t0.setReg R.AMB_PPS_OUT_WIDTH 0x80000001, 999999999, by decide +kernel⟩,
   ⟨t0, 1000000000, by decide +kernel⟩⟩

theorem witness_CapturePinEdges :
    (∃ s : State, ∃ n : Nat, ∃ e : Edge, (s.capSelects n e = true) ∧ ((s.capsOf n).length < 16)) ∧
    (∃ s : State, ∃ n : Nat, ∃ e : Edge, (s.capSelects n e = true) ∧ (16 ≤ (s.capsOf n).length)) ∧
    (∃ s : State, ∃ n : Nat, ∃ e : Edge, (s.capSelects n e = false)) ∧
    (∃ s : State, ∃ e : Edge, (s.reference ≠ 2 ∨ e = .fall)) ∧
    (∃ s : State, ∃ e : Edge, (s.reference = 2) ∧ (e = .rise)) :=
  ⟨⟨t0.setReg R.AMB_CAP_EDGE 0x20, 2, .fall, by decide +kernel⟩,
   ⟨(t0.setReg R.AMB_CAP_EDGE 3).setCaps 0 (List.replicate 16 ⟨st 5, .rise⟩), 0, .rise, by decide +kernel⟩,
   ⟨t0.setReg R.AMB_CAP_EDGE 4, 1, .fall, by decide +kernel⟩,
   ⟨t0.setRegFld R.AMB_CTRL 1 0 2, .fall, by decide +kernel⟩,
   ⟨t0.setRegFld R.AMB_CTRL 1 0 2, .rise, by decide +kernel⟩⟩

theorem witness_PtpMessages_1 :
    (∃ s : State, ∃ m : PtpMsg, (s.hostReach) ∧ (s.ptpAdmit m.port m.tags m.domain = true)) ∧
    (∃ s : State, ∃ m : PtpMsg, (s.hostReach) ∧ (s.ptpEnabled m.port = true) ∧ (s.ptpAdmit m.port m.tags m.domain = false) ∧ (s.isTc = false)) ∧
    (∃ s : State, ∃ m : PtpMsg, (s.hostReach) ∧ (s.ptpEnabled m.port = false)) ∧
    (∃ s : State, ∃ m : Announce, (s.hostReach) ∧ (s.ptpAdmit m.port m.tags m.domain = true)) ∧
    (∃ s : State, ∃ m : Announce, (s.hostReach) ∧ (s.ptpEnabled m.port = false)) ∧
    (∃ s : State, ∃ m : PtpMsg, (s.hostReach) ∧ (s.ptpEnabled m.port = true) ∧ (m.tags ≤ 1) ∧ (m.domain ≠ s.ptpDomain) ∧ ((s.ptpIgnore m.port).forwards m.port = true)) :=
  ⟨⟨(t0.setReg (R.AMB_PTPn_CFG 0) 0x21), ⟨0, .sync, 0, 0, 7, 1, false, 5, 0, 3⟩, (by unfold State.hostReach; decide +kernel), by decide +kernel⟩,
   ⟨(t0.setReg (R.AMB_PTPn_CFG 0) 0x21), ⟨0, .sync, 2, 0, 7, 1, false, 5, 0, 3⟩, (by unfold State.hostReach; decide +kernel), by decide +kernel⟩,
   ⟨t0, ⟨0, .sync, 0, 0, 7, 1, false, 5, 0, 3⟩, (by unfold State.hostReach; decide +kernel), by decide +kernel⟩,
   ⟨(t0.setReg (R.AMB_PTPn_CFG 0) 0x21), tAnn, (by unfold State.hostReach; decide +kernel), by decide +kernel⟩,
   ⟨t0, tAnn, (by unfold State.hostReach; decide +kernel), by decide +kernel⟩,
   ⟨((t0.setReg R.AMB_CTRL 12).setReg (R.AMB_PTPn_CFG 0) 1).setReg (R.AMB_PTPn_CFG 1) 1, ⟨1, .sync, 1, 3, 7, 1, false, 5, 0, 3⟩, (by unfold State.hostReach; decide +kernel), by decide +kernel⟩⟩

theorem witness_PtpMessages_2 :
    (∃ s : State, ∃ m : Announce, (s.hostReach) ∧ (s.forwards m.port = false ∨ 1 < m.tags)) ∧
    (∃ s : State, ∃ m : Announce, (s.hostReach) ∧ (s.ptpEnabled m.port = true) ∧ (s.ptpAdmit m.port m.tags m.domain = false)) ∧
    (∃ s : State, ∃ m : PtpTx, (s.clocksRun) ∧ (s.ptpEnabled m.port = false)) ∧
    (∃ s : State, ∃ m : PtpTx, (s.clocksRun) ∧ (s.ptpEnabled m.port = true) ∧ (m.forwarded = false) ∧ (msgKind m.msg = .sync) ∧ (s.regBit (R.AMB_PTPn_CFG m.port) 5 = true)) ∧
    (∃ s : State, ∃ m : PtpTx, (s.clocksRun) ∧ (s.ptpEnabled m.port = true) ∧ (m.forwarded = false) ∧ (msgKind m.msg = .sync) ∧ (s.regBit (R.AMB_PTPn_CFG m.port) 5 = false)) ∧
    (∃ s : State, ∃ m : PtpTx, (s.clocksRun) ∧ (s.ptpEnabled m.port = true) ∧ (m.forwarded = false) ∧ (msgKind m.msg = .pdelayResp) ∧ (s.regBit (R.AMB_PTPn_CFG m.port) 5 = true)) :=
  ⟨⟨t0, tAnn, (by unfold State.hostReach; decide +kernel), by decide +kernel⟩,
   ⟨t0.setReg (R.AMB_PTPn_CFG 0) 1, { tAnn with domain := 3 }, (by unfold State.hostReach; decide +kernel), by decide +kernel⟩,
   ⟨t0, ⟨0, false, 0, [], [0], 4⟩, (by unfold State.clocksRun; decide +kernel), by decide +kernel⟩,
   ⟨t0.setReg (R.AMB_PTPn_CFG 0) 0x21, ⟨0, false, 0, [], blk [(1, 0), (43, 0)], 4⟩, (by unfold State.clocksRun; decide +kernel), by decide +kernel⟩,
   ⟨t0.setReg (R.AMB_PTPn_CFG 0) 1, ⟨0, false, 0, [], blk [(1, 0), (43, 0)], 4⟩, (by unfold State.clocksRun; decide +kernel), by decide +kernel⟩,
   ⟨t0.setReg (R.AMB_PTPn_CFG 0) 0x21, ⟨0, false, 0, [], blk [(1, 3), (43, 0)], 4⟩, (by unfold State.clocksRun; decide +kernel), by decide +kernel⟩⟩

theorem witness_PtpMessages_3 :
    (∃ s : State, ∃ m : PtpTx, (s.clocksRun) ∧ (s.ptpEnabled m.port = true) ∧ (m.forwarded = false) ∧ (msgKind m.msg = .pdelayResp) ∧ (s.regBit (R.AMB_PTPn_CFG m.port) 5 = false)) ∧
    (∃ s : State, ∃ m : PtpTx, (s.clocksRun) ∧ (s.ptpEnabled m.port = true) ∧ (m.forwarded = false) ∧ (msgKind m.msg = .delayReq ∨ msgKind m.msg = .pdelayReq)) ∧
    (∃ s : State, ∃ m : PtpTx, ∃ k : PtpKind, ∃ q : Nat, ∃ tin : Int, (s.clocksRun) ∧ (s.ptpEnabled m.port = true) ∧ (m.forwarded = true) ∧ ((s.ptpPort (1 - m.port)).transit.find? (fun x => decide ((x.1, x.2.1) = (msgKind m.msg, msgSeq m.msg))) = some (k, q, tin))) :=
  ⟨⟨t0.setReg (R.AMB_PTPn_CFG 0) 1, ⟨0, false, 0, [], blk [(1, 3), (43, 0)], 4⟩, (by unfold State.clocksRun; decide +kernel), by decide +kernel⟩,
   ⟨t0.setReg (R.AMB_PTPn_CFG 1) 1, ⟨1, false, 0, [], blk [(1, 2), (53, 0)], 39⟩, (by unfold State.clocksRun; decide +kernel), by decide +kernel⟩,
   ⟨(((t0.setReg R.AMB_CTRL 12).setReg (R.AMB_PTPn_CFG 0) 1).setReg (R.AMB_PTPn_CFG 1) 1).setPtp 0 { t0.ptpPort 0 with transit := [(.sync, 0, 5)] }, ⟨1, true, 0, [], blk [(1, 0), (43, 0)], 4⟩, .sync, 0, 5, (by unfold State.clocksRun; decide +kernel), by decide +kernel⟩⟩

theorem witness_SensorTransfers_1 :
    (∃ s : State, ∃ p : Nat, ∃ l : Latch, (s.turn p 0x0406 l) ∧ (checkXfer l.cmd s = .ok ()) ∧ (u8 l.cmd.block 1 = 2)) ∧
    (∃ s : State, ∃ p : Nat, ∃ l : Latch, (∃ bus, ∃ a, (s.turn p 0x0406 l) ∧ (checkXfer l.cmd s = .ok ()) ∧ (u8 l.cmd.block 1 ≠ 2) ∧ ((s.port (u8 l.cmd.block 0)).i2c = some (bus, a)))) ∧
    (∃ s : State, ∃ p : Nat, ∃ l : Latch, (∃ e, (s.turn p 0x0406 l) ∧ (checkXfer l.cmd s = .error e))) ∧
    (∃ s : State, ∃ p : Nat, ∃ l : Latch, (∃ r, (s.latch p = some l) ∧ (l.stage = .resumed (some r)) ∧ (l.cmd.opcode = 0x0406))) ∧
    (∃ s : State, ∃ p : Nat, ∃ l : Latch, (∃ b, ∃ bs, (s.ochre.sbusRx = b :: bs))) ∧
    (∃ s : State, ∃ p : Nat, ∃ l : Latch, (s.ochre.sbusRx = [])) :=
  ⟨⟨on (lt 0x0406 (blk [(1, 1), (1, 2), (1, 0), (1, 0), (2, 1000), (2, 0), (2, 4), (6, 0)])) (withPort 1 (fun x => { x with i2c := some (1, 0x10), spiCs := some 0 }) tPort), 0, (lt 0x0406 (blk [(1, 1), (1, 2), (1, 0), (1, 0), (2, 1000), (2, 0), (2, 4), (6, 0)])), ⟨rfl, rfl, rfl, by decide +kernel⟩, by decide +kernel⟩,
   ⟨on (lt 0x0406 (blk [(1, 1), (1, 1), (1, 0), (1, 0), (2, 400), (2, 0), (2, 4), (6, 0)])) (withPort 1 (fun x => { x with i2c := some (1, 0x10), spiCs := some 0 }) tPort), 0, (lt 0x0406 (blk [(1, 1), (1, 1), (1, 0), (1, 0), (2, 400), (2, 0), (2, 4), (6, 0)])), _, _, ⟨rfl, rfl, rfl, by decide +kernel⟩, by decide +kernel, by decide +kernel, rfl⟩,
   ⟨on (lt 0x0406 (blk [(1, 1), (1, 0), (1, 0), (1, 0), (2, 400), (2, 0), (2, 4), (6, 0)])) (withPort 1 (fun x => { x with i2c := some (1, 0x10), spiCs := some 0 }) tPort), 0, (lt 0x0406 (blk [(1, 1), (1, 0), (1, 0), (1, 0), (2, 400), (2, 0), (2, 4), (6, 0)])), _, ⟨rfl, rfl, rfl, by decide +kernel⟩, rfl⟩,
   ⟨on (lt 0x0406 (blk [(1, 1), (1, 1), (1, 0), (1, 0), (2, 400), (2, 0), (2, 4), (6, 0)]) (.resumed (some [0, 0, 4, 0, 9]))) (withPort 1 (fun x => { x with i2c := some (1, 0x10), spiCs := some 0 }) tPort), 0, (lt 0x0406 (blk [(1, 1), (1, 1), (1, 0), (1, 0), (2, 400), (2, 0), (2, 4), (6, 0)]) (.resumed (some [0, 0, 4, 0, 9]))), [0, 0, 4, 0, 9], by decide +kernel⟩,
   ⟨tPort.modOchre fun o => { o with sbusRx := [3] }, 0, (lt 0x0406 (blk [(1, 1), (1, 2), (1, 0), (1, 0), (2, 1000), (2, 0), (2, 4), (6, 0)])), _, _, rfl⟩,
   ⟨on (lt 0x0406 (blk [(1, 1), (1, 2), (1, 0), (1, 0), (2, 1000), (2, 0), (2, 4), (6, 0)])) (withPort 1 (fun x => { x with i2c := some (1, 0x10), spiCs := some 0 }) tPort), 0, (lt 0x0406 (blk [(1, 1), (1, 2), (1, 0), (1, 0), (2, 1000), (2, 0), (2, 4), (6, 0)])), by decide +kernel⟩⟩

theorem witness_SensorTransfers_2 :
    (∃ s : State, ∃ v : Word, (bit v 0 = true) ∧ (s.sbusBusy (s.regFld R.OCH_SBUS_SEL 1 0) = false) ∧ (s.regFld R.OCH_SBUS_SEL 1 0 < 2)) ∧
    (∃ s : State, ∃ v : Word, (bit v 0 = true) ∧ (s.sbusBusy (s.regFld R.OCH_SBUS_SEL 1 0) = false) ∧ (s.regFld R.OCH_SBUS_SEL 1 0 = 2)) ∧
    (∃ s : State, ∃ v : Word, (bit v 0 = false ∨ s.sbusBusy (s.regFld R.OCH_SBUS_SEL 1 0) = true ∨ s.regFld R.OCH_SBUS_SEL 1 0 = 3)) ∧
    (∃ s : State, ∃ bus : Nat, (s.ochre.sbusRuns.get? bus = none)) ∧
    (∃ s : State, ∃ bus : Nat, (s.ochre.sbusRuns.get? bus = some none)) ∧
    (∃ s : State, ∃ bus : Nat, ∃ q : Nat, (s.ochre.sbusRuns.get? bus = some (some q))) :=
  ⟨⟨tPort.setReg R.OCH_SBUS_SEL 1, 1, by decide +kernel⟩,
   ⟨tPort.setReg R.OCH_SBUS_SEL 2, 1, by decide +kernel⟩,
   ⟨tPort.setReg R.OCH_SBUS_SEL 3, 1, by decide +kernel⟩,
   ⟨tPort, 1, by decide +kernel⟩,
   ⟨tPort.modOchre fun o => { o with sbusRuns := [(1, none)] }, 1, by decide +kernel⟩,
   ⟨(on (lt 0x0406 [] .yielded) tPort).modOchre fun o => { o with sbusRuns := [(2, some 0)] }, 2, 0, by decide +kernel⟩⟩

theorem witness_PacketReception :
    (∃ s : State, ∃ p : Nat, ∃ k : Csi2Packet, (s.clocksRun) ∧ (p < 8) ∧ (let f := s.fed (portDomain p); (let raw := f.stampEvt k.cycles; (let s1 := f.setReg64 (R.OCH_Pn_LAST_PKT_LO p) raw.steady; (let s2 := s1.setPort p { s1.port p with silentSaid := false }; (f.portReceives p = false)))))) ∧
    (∃ s : State, ∃ p : Nat, ∃ k : Csi2Packet, (s.clocksRun) ∧ (p < 8) ∧ (let f := s.fed (portDomain p); (let raw := f.stampEvt k.cycles; (let s1 := f.setReg64 (R.OCH_Pn_LAST_PKT_LO p) raw.steady; (let s2 := s1.setPort p { s1.port p with silentSaid := false }; (f.portReceives p = true) ∧ (f.portOwner p = noOwner)))))) ∧
    (∃ s : State, ∃ p : Nat, ∃ k : Csi2Packet, (s.clocksRun) ∧ (p < 8) ∧ (let f := s.fed (portDomain p); (let raw := f.stampEvt k.cycles; (let s1 := f.setReg64 (R.OCH_Pn_LAST_PKT_LO p) raw.steady; (let s2 := s1.setPort p { s1.port p with silentSaid := false }; (f.portReceives p = true) ∧ (f.portOwner p ≠ noOwner) ∧ (k.hdr = .uncorrectable)))))) ∧
    (∃ s : State, ∃ p : Nat, ∃ k : Csi2Packet, (s.clocksRun) ∧ (p < 8) ∧ (let f := s.fed (portDomain p); (let raw := f.stampEvt k.cycles; (let s1 := f.setReg64 (R.OCH_Pn_LAST_PKT_LO p) raw.steady; (let s2 := s1.setPort p { s1.port p with silentSaid := false }; (f.portReceives p = true) ∧ (f.portOwner p ≠ noOwner) ∧ (k.hdr ≠ .uncorrectable) ∧ (k.dt < 4)))))) ∧
    (∃ s : State, ∃ p : Nat, ∃ k : Csi2Packet, (s.clocksRun) ∧ (p < 8) ∧ (let f := s.fed (portDomain p); (let raw := f.stampEvt k.cycles; (let s1 := f.setReg64 (R.OCH_Pn_LAST_PKT_LO p) raw.steady; (let s2 := s1.setPort p { s1.port p with silentSaid := false }; (let fits := k.dt = f.regFld (R.OCH_Pn_FMT p) 7 0 ∧ f.regBit (R.OCH_Pn_LINK p) (8 + k.vc % 4) = true; (f.portReceives p = true) ∧ (f.portOwner p ≠ noOwner) ∧ (k.hdr ≠ .uncorrectable) ∧ (4 ≤ k.dt) ∧ (¬ fits))))))) ∧
    (∃ s : State, ∃ p : Nat, ∃ k : Csi2Packet, (s.clocksRun) ∧ (p < 8) ∧ ((s.fed (portDomain p)).portReceives p = true) ∧ ((s.fed (portDomain p)).portOwner p ≠ noOwner) ∧ (k.hdr ≠ .uncorrectable) ∧ (4 ≤ k.dt) ∧ (k.dt = (s.fed (portDomain p)).regFld (R.OCH_Pn_FMT p) 7 0) ∧ ((s.fed (portDomain p)).regBit (R.OCH_Pn_LINK p) (8 + k.vc % 4) = true)) :=
  ⟨⟨tPort, 0, tPkt, (by unfold State.clocksRun; decide +kernel), by decide +kernel⟩,
   ⟨tPort.setReg (R.OCH_Pn_OWNER 1) 0xFFFF, 1, tPkt, (by unfold State.clocksRun; decide +kernel), by decide +kernel⟩,
   ⟨tPort, 1, { tPkt with hdr := .uncorrectable }, (by unfold State.clocksRun; decide +kernel), by decide +kernel⟩,
   ⟨tPort, 1, { tPkt with dt := 3 }, (by unfold State.clocksRun; decide +kernel), by decide +kernel⟩,
   ⟨tPort, 1, { tPkt with dt := 4 }, (by unfold State.clocksRun; decide +kernel), by decide +kernel⟩,
   ⟨tPort, 1, tPkt, (by unfold State.clocksRun; decide +kernel), by decide +kernel⟩⟩

theorem witness_EventDecodeAndHandOff_1 :
    (∃ s : State, ∃ p : Nat, (s.clocksRun) ∧ (p < 8) ∧ (∃ k, ∃ ks, (s.domUp (portDomain p) = true) ∧ ((s.port p).rx = k :: ks) ∧ (s.portOwner p ≠ noOwner) ∧ (k.rest ≠ []) ∧ (k.rest.length < s.unitBytes p))) ∧
    (∃ s : State, ∃ p : Nat, (s.clocksRun) ∧ (p < 8) ∧ (s.domUp dCOB = true) ∧ ((s.grantPorts 1).isEmpty = true)) ∧
    (∃ s : State, ∃ p : Nat, (s.clocksRun) ∧ (p < 8) ∧ (s.domUp dCOB = true) ∧ ((s.grantPorts 1).isEmpty = false)) ∧
    (∃ s : State, ∃ p : Nat, (s.clocksRun) ∧ (p < 8) ∧ (∃ e, ∃ es, ((s.port p).fifo = e :: es))) ∧
    (∃ s : State, ∃ p : Nat, ∃ k : RxPkt, ∃ ks : List RxPkt, (s.clocksRun) ∧ (p < 8) ∧ (s.domUp (portDomain p) = true) ∧ ((s.port p).rx = k :: ks) ∧ (s.portOwner p ≠ noOwner) ∧ (s.unitBytes p ≤ k.rest.length) ∧ (s.unitMask p (k.rest.take (s.unitBytes p)) = none)) ∧
    (∃ s : State, ∃ p : Nat, ∃ k : RxPkt, ∃ ks : List RxPkt, ∃ offs : List Nat, (s.clocksRun) ∧ (p < 8) ∧ (s.domUp (portDomain p) = true) ∧ ((s.port p).rx = k :: ks) ∧ (s.portOwner p ≠ noOwner) ∧ (s.unitBytes p ≤ k.rest.length) ∧ (s.unitMask p (k.rest.take (s.unitBytes p)) = some offs)) :=
  ⟨⟨(withPort 1 (fun x => { x with rx := [⟨leBytes 7 5, st 7, none⟩] }) tPort), 1, (by unfold State.clocksRun; decide +kernel), by decide +kernel, _, _, by decide +kernel, rfl, by decide +kernel⟩,
   ⟨tPort, 1, (by unfold State.clocksRun; decide +kernel), by decide +kernel⟩,
   ⟨(withPort 1 (fun x => { x with fifo := [tEv, tEv] }) tPort), 1, (by unfold State.clocksRun; decide +kernel), by decide +kernel⟩,
   ⟨(withPort 1 (fun x => { x with fifo := [tEv, tEv] }) tPort), 1, (by unfold State.clocksRun; decide +kernel), by decide +kernel, _, _, rfl⟩,
   ⟨withPort 1 (fun x => { x with rx := [⟨leBytes 8 5, st 7, none⟩] }) ((tPort.setReg (R.OCH_Pn_TSTYPE 1) 0x04000000).setReg (R.OCH_Pn_TYPEVAL 1) 7), 1, ⟨leBytes 8 5, st 7, none⟩, [], (by unfold State.clocksRun; decide +kernel), by decide +kernel⟩,
   ⟨withPort 1 (fun x => { x with rx := [⟨leBytes 12 5, st 7, none⟩] }) tPort, 1, ⟨leBytes 12 5, st 7, none⟩, [], [0], (by unfold State.clocksRun; decide +kernel), by decide +kernel⟩⟩

theorem witness_EventDecodeAndHandOff_2 :
    (∃ s : State, ∃ p : Nat, ∃ k : RxPkt, ∃ ks : List RxPkt, (s.clocksRun) ∧ (p < 8) ∧ (s.domUp (portDomain p) = true) ∧ ((s.port p).rx = k :: ks) ∧ (s.portOwner p ≠ noOwner) ∧ (k.rest = [])) ∧
    (∃ s : State, ∃ p : Nat, (s.clocksRun) ∧ (p < 8) ∧ ((s.port p).rx = [] ∨ s.domUp (portDomain p) = false ∨ s.portOwner p = noOwner)) :=
  ⟨⟨withPort 1 (fun x => { x with rx := [⟨[], st 7, none⟩] }) tPort, 1, ⟨[], st 7, none⟩, [], (by unfold State.clocksRun; decide +kernel), by decide +kernel⟩,
   ⟨tPort, 7, (by unfold State.clocksRun; decide +kernel), by decide +kernel⟩⟩

theorem witness_OchreTimers_1 :
    (∃ s : State, ∃ p : Nat, (s.clocksRun) ∧ (p < 8) ∧ ((s.port p).timer + s.regN (R.OCH_Pn_BLOCK_TMO p) * 1000 ≤ s.now)) ∧
    (∃ s : State, ∃ p : Nat, (s.clocksRun) ∧ (p < 8) ∧ (s.now < (s.port p).timer + s.regN (R.OCH_Pn_BLOCK_TMO p) * 1000)) ∧
    (∃ s : State, ∃ p : Nat, (s.clocksRun) ∧ (p < 8)) ∧
    (∃ s : State, ∃ p : Nat, (s.clocksRun) ∧ (p < 8) ∧ (s.regN (R.OCH_Pn_SILENT_US p) ≠ 0) ∧ ((s.port p).silentSaid = false) ∧ (s.reg64 (R.OCH_Pn_LAST_PKT_LO p) + s.regN (R.OCH_Pn_SILENT_US p) * 1000 ≤ s.now)) ∧
    (∃ s : State, ∃ p : Nat, (s.clocksRun) ∧ (p < 8) ∧ (s.regN (R.OCH_Pn_SILENT_US p) = 0 ∨ (s.port p).silentSaid = true)) ∧
    (∃ s : State, ∃ p : Nat, (s.clocksRun) ∧ (p < 8) ∧ ((s.port p).activeFrom + 1000000 ≤ s.now)) :=
  ⟨⟨tPort, 1, (by unfold State.clocksRun; decide +kernel), by decide +kernel⟩,
   ⟨(withPort 1 (fun x => { x with timer := 200000000 }) tPort), 1, (by unfold State.clocksRun; decide +kernel), by decide +kernel⟩,
   ⟨tPort, 1, (by unfold State.clocksRun; decide +kernel), by decide +kernel⟩,
   ⟨tPort.setReg (R.OCH_Pn_SILENT_US 1) 200000, 1, (by unfold State.clocksRun; decide +kernel), by decide +kernel⟩,
   ⟨tPort.setReg (R.OCH_Pn_SILENT_US 1) 0, 1, (by unfold State.clocksRun; decide +kernel), by decide +kernel⟩,
   ⟨tPort, 1, (by unfold State.clocksRun; decide +kernel), by decide +kernel⟩⟩

theorem witness_OchreTimers_2 :
    (∃ s : State, ∃ p : Nat, (s.clocksRun) ∧ (p < 8) ∧ (∃ t, (s.domUp dEVTA = true) ∧ (s.regBit (R.OCH_TRIGn_CFG p) 2 = false) ∧ ((s.trig p).next = some t) ∧ (t ≤ s.now))) ∧
    (∃ s : State, ∃ p : Nat, (s.clocksRun) ∧ (p < 8) ∧ (2 ≤ s.regFld (R.OCH_TRIGn_CFG p) 1 0) ∧ ((s.trig p).level = true) ∧ ((s.trig p).fallAt ≤ 2 * s.now)) ∧
    (∃ s : State, ∃ p : Nat, (s.clocksRun) ∧ (p < 8) ∧ (∃ g, ((s.port p).gap = some g) ∧ (g.reportAt + 10000000 ≤ s.now))) ∧
    (∃ s : State, ∃ p : Nat, (s.clocksRun) ∧ (p < 8) ∧ (∃ v, (bit v 0 = true))) ∧
    (∃ s : State, ∃ p : Nat, (s.clocksRun) ∧ (p < 8) ∧ (∃ v, (bit v 0 = false))) ∧
    (∃ s : State, ∃ p : Nat, (s.clocksRun) ∧ (p < 8) ∧ ((s.port p).resync = true)) :=
  ⟨⟨(tPort.setReg (R.OCH_TRIGn_CFG 1) 3).setTrig 1 ⟨false, some 200000000, 0⟩, 1, (by unfold State.clocksRun; decide +kernel), by decide +kernel, _, by decide +kernel, by decide +kernel, rfl, by decide +kernel⟩,
   ⟨(tPort.setReg (R.OCH_TRIGn_CFG 1) 2).setTrig 1 ⟨true, none, 400000000⟩, 1, (by unfold State.clocksRun; decide +kernel), by decide +kernel⟩,
   ⟨(withPort 1 (fun x => { x with gap := some ⟨1, 1, 0, st 5, 5, 190000000⟩ }) tPort), 1, (by unfold State.clocksRun; decide +kernel), by decide +kernel, _, rfl, by decide +kernel⟩,
   ⟨tPort, 1, (by unfold State.clocksRun; decide +kernel), by decide +kernel, 1, by decide +kernel⟩,
   ⟨tPort, 1, (by unfold State.clocksRun; decide +kernel), by decide +kernel, 2, by decide +kernel⟩,
   ⟨(withPort 1 (fun x => { x with resync := true }) tPort), 1, (by unfold State.clocksRun; decide +kernel), by decide +kernel⟩⟩

theorem witness_OchreTimers_3 :
    (∃ s : State, ∃ p : Nat, (s.clocksRun) ∧ (p < 8) ∧ (s.domUp dEVTA = true) ∧ (s.regBit (R.OCH_TRIGn_CFG p) 2 = true) ∧ (s.trigStart p ≤ s.clock.farmQ / 65536)) ∧
    (∃ s : State, ∃ p : Nat, ∃ g : Gap, (s.clocksRun) ∧ (p < 8) ∧ ((s.port p).gap = some g) ∧ (s.now < g.reportAt + 10000000)) ∧
    (∃ s : State, ∃ p : Nat, (s.clocksRun) ∧ (p < 8) ∧ ((s.port p).gap = none)) ∧
    (∃ s : State, ∃ p : Nat, ∃ g : Gap, (s.clocksRun) ∧ (p < 8) ∧ ((s.tdm p).gap = some g) ∧ (g.reportAt + 10000000 ≤ s.now)) ∧
    (∃ s : State, ∃ p : Nat, ∃ g : Gap, (s.clocksRun) ∧ (p < 8) ∧ ((s.tdm p).gap = some g) ∧ (s.now < g.reportAt + 10000000)) ∧
    (∃ s : State, ∃ p : Nat, (s.clocksRun) ∧ (p < 8) ∧ ((s.tdm p).gap = none)) :=
  ⟨⟨tPort.setReg (R.OCH_TRIGn_CFG 1) 6, 1, (by unfold State.clocksRun; decide +kernel), by decide +kernel⟩,
   ⟨withPort 7 (fun x => { x with gap := some ⟨2, 1, 0, st 5, 5, 190000001⟩ }) tPort, 7, ⟨2, 1, 0, st 5, 5, 190000001⟩, (by unfold State.clocksRun; decide +kernel), by decide +kernel⟩,
   ⟨tPort, 0, (by unfold State.clocksRun; decide +kernel), by decide +kernel⟩,
   ⟨t0.setTdm 3 { t0.tdm 3 with gap := some ⟨2, 1, 0, st 5, 5, 190000000⟩ }, 3, ⟨2, 1, 0, st 5, 5, 190000000⟩, (by unfold State.clocksRun; decide +kernel), by decide +kernel⟩,
   ⟨t0.setTdm 3 { t0.tdm 3 with gap := some ⟨2, 1, 0, st 5, 5, 190000001⟩ }, 3, ⟨2, 1, 0, st 5, 5, 190000001⟩, (by unfold State.clocksRun; decide +kernel), by decide +kernel⟩,
   ⟨t0, 3, (by unfold State.clocksRun; decide +kernel), by decide +kernel⟩⟩

theorem witness_OchreTimers_4 :
    ∃ s : State, ∃ p : Nat, (s.clocksRun) ∧ (p < 8) ∧ ((s.port p).resync = false) :=
  ⟨tPort, 0, (by unfold State.clocksRun; decide +kernel), by decide +kernel⟩

theorem witness_EventFilters :
    (∃ s : State, ∃ p : Nat, ∃ x : Nat, ∃ y : Nat, ∃ pol : Bool, ∃ t : Stamp, ∃ f : Nat, (let w := fld (s.reg (R.OCH_Pn_SIZE p)) 10 0 + 1; (let h := fld (s.reg (R.OCH_Pn_SIZE p)) 26 16 + 1; (let k := s.regN (R.OCH_Pn_CELL_SHIFT p); (let seen := s.setPort p { s.port p with map := (s.port p).map.set (cellKey (x / 2 ^ k) (y / 2 ^ k)) s.mapNow }; (w ≤ x ∨ h ≤ y)))))) ∧
    (∃ s : State, ∃ p : Nat, ∃ x : Nat, ∃ y : Nat, ∃ pol : Bool, ∃ t : Stamp, ∃ f : Nat, (let w := fld (s.reg (R.OCH_Pn_SIZE p)) 10 0 + 1; (let h := fld (s.reg (R.OCH_Pn_SIZE p)) 26 16 + 1; (let k := s.regN (R.OCH_Pn_CELL_SHIFT p); (let seen := s.setPort p { s.port p with map := (s.port p).map.set (cellKey (x / 2 ^ k) (y / 2 ^ k)) s.mapNow }; (x < w) ∧ (y < h) ∧ (s.isHot p x y = true)))))) ∧
    (∃ s : State, ∃ p : Nat, ∃ x : Nat, ∃ y : Nat, ∃ pol : Bool, ∃ t : Stamp, ∃ f : Nat, (let w := fld (s.reg (R.OCH_Pn_SIZE p)) 10 0 + 1; (let h := fld (s.reg (R.OCH_Pn_SIZE p)) 26 16 + 1; (let k := s.regN (R.OCH_Pn_CELL_SHIFT p); (let seen := s.setPort p { s.port p with map := (s.port p).map.set (cellKey (x / 2 ^ k) (y / 2 ^ k)) s.mapNow }; (let young := (s.port p).young s.mapNow (x / 2 ^ k) (y / 2 ^ k) (s.regFld (R.OCH_Pn_FILT p) 13 0); (x < w) ∧ (y < h) ∧ (s.isHot p x y = false) ∧ (young = true))))))) ∧
    (∃ s : State, ∃ p : Nat, ∃ x : Nat, ∃ y : Nat, ∃ pol : Bool, ∃ t : Stamp, ∃ f : Nat, (let w := fld (s.reg (R.OCH_Pn_SIZE p)) 10 0 + 1; (let h := fld (s.reg (R.OCH_Pn_SIZE p)) 26 16 + 1; (let k := s.regN (R.OCH_Pn_CELL_SHIFT p); (let seen := s.setPort p { s.port p with map := (s.port p).map.set (cellKey (x / 2 ^ k) (y / 2 ^ k)) s.mapNow }; (let near := (neighbours ((w + 2 ^ k - 1) / 2 ^ k) ((h + 2 ^ k - 1) / 2 ^ k) (x / 2 ^ k) (y / 2 ^ k)).any fun c => (seen.port p).young s.mapNow c.1 c.2 (s.regFld (R.OCH_Pn_FILT p) 29 16); (let young := (s.port p).young s.mapNow (x / 2 ^ k) (y / 2 ^ k) (s.regFld (R.OCH_Pn_FILT p) 13 0); (x < w) ∧ (y < h) ∧ (s.isHot p x y = false) ∧ (young = false) ∧ (s.regFld (R.OCH_Pn_FILT p) 29 16 ≠ 0) ∧ (near = false)))))))) ∧
    (∃ s : State, ∃ p : Nat, ∃ x : Nat, ∃ y : Nat, ∃ pol : Bool, ∃ t : Stamp, ∃ f : Nat, (let w := fld (s.reg (R.OCH_Pn_SIZE p)) 10 0 + 1; (let h := fld (s.reg (R.OCH_Pn_SIZE p)) 26 16 + 1; (let k := s.regN (R.OCH_Pn_CELL_SHIFT p); (let seen := s.setPort p { s.port p with map := (s.port p).map.set (cellKey (x / 2 ^ k) (y / 2 ^ k)) s.mapNow }; (let near := (neighbours ((w + 2 ^ k - 1) / 2 ^ k) ((h + 2 ^ k - 1) / 2 ^ k) (x / 2 ^ k) (y / 2 ^ k)).any fun c => (seen.port p).young s.mapNow c.1 c.2 (s.regFld (R.OCH_Pn_FILT p) 29 16); (let young := (s.port p).young s.mapNow (x / 2 ^ k) (y / 2 ^ k) (s.regFld (R.OCH_Pn_FILT p) 13 0); (x < w) ∧ (y < h) ∧ (s.isHot p x y = false) ∧ (young = false) ∧ ((s.regFld (R.OCH_Pn_FILT p) 29 16 = 0 ∨ near = true)) ∧ (s.paused (s.portOwner p) = false) ∧ (65536 ≤ (s.port p).fifo.length)))))))) ∧
    (∃ s : State, ∃ p : Nat, ∃ x : Nat, ∃ y : Nat, (let w := fld (s.reg (R.OCH_Pn_SIZE p)) 10 0 + 1; (let h := fld (s.reg (R.OCH_Pn_SIZE p)) 26 16 + 1; (let k := s.regN (R.OCH_Pn_CELL_SHIFT p); (let seen := s.setPort p { s.port p with map := (s.port p).map.set (cellKey (x / 2 ^ k) (y / 2 ^ k)) s.mapNow }; (let near := (neighbours ((w + 2 ^ k - 1) / 2 ^ k) ((h + 2 ^ k - 1) / 2 ^ k) (x / 2 ^ k) (y / 2 ^ k)).any fun c => (seen.port p).young s.mapNow c.1 c.2 (s.regFld (R.OCH_Pn_FILT p) 29 16); (let young := (s.port p).young s.mapNow (x / 2 ^ k) (y / 2 ^ k) (s.regFld (R.OCH_Pn_FILT p) 13 0); (x < w) ∧ (y < h) ∧ (s.isHot p x y = false) ∧ (young = false) ∧ ((s.regFld (R.OCH_Pn_FILT p) 29 16 = 0 ∨ near = true)) ∧ (s.paused (s.portOwner p) = false) ∧ ((s.port p).fifo.length < 65536) ∧ ((s.port p).gap = none) ∧ ((s.port p).block = []) ∧ (s.regBit (R.OCH_Pn_BLOCK p) 13 = false)))))))) :=
  ⟨⟨tPort, 1, 640, 479, true, st 7, 0, by decide +kernel⟩,
   ⟨tPort.setReg (hotAddr 1 255) 0x801DF27F, 1, 639, 479, true, st 7, 0, by decide +kernel⟩,
   ⟨(withPort 1 (fun x => { x with map := [(cellKey 159 119, 200000 % 32768 - 9)] }) (tPort.setReg (R.OCH_Pn_FILT 1) 10)), 1, 639, 479, true, st 7, 0, by decide +kernel⟩,
   ⟨(withPort 1 (fun x => { x with map := [(cellKey 159 119, 200000 % 32768 - 10)] }) (tPort.setReg (R.OCH_Pn_FILT 1) 0x1000A)), 1, 639, 479, true, st 7, 0, by decide +kernel⟩,
   ⟨tFull 65536, 1, 639, 479, true, st 7, 0, by decide +kernel, by decide +kernel, by decide +kernel, by decide +kernel, by decide +kernel, by decide +kernel, (tFull_length 65536).ge⟩,
   ⟨tPort, 1, 639, 479, by decide +kernel⟩⟩

theorem witness_EncoderEdges_1 :
    (∃ s : State, ∃ up : Bool, ∃ ns : Nat, ∃ frame : Nat, (s.clocksRun) ∧ (s.domUp dCOB = true) ∧ (let f := s.fed dCOB; (let one : Int := if up = f.regBit R.COB_ENC_CFG 2 then -1 else 1; (f.angleSource = 1) ∧ (f.cobalt.sinceEntry + 1 ≤ f.regFld R.COB_ENC_UPD 15 0)))) ∧
    (∃ s : State, ∃ up : Bool, ∃ ns : Nat, ∃ frame : Nat, (s.clocksRun) ∧ (s.domUp dCOB = true) ∧ (let f := s.fed dCOB; (let one : Int := if up = f.regBit R.COB_ENC_CFG 2 then -1 else 1; (f.angleSource = 1) ∧ (f.regFld R.COB_ENC_UPD 15 0 < f.cobalt.sinceEntry + 1)))) ∧
    (∃ s : State, ∃ up : Bool, ∃ ns : Nat, ∃ frame : Nat, (s.clocksRun) ∧ (s.domUp dCOB = true)) ∧
    (∃ s : State, ∃ up : Bool, ∃ ns : Nat, ∃ frame : Nat, (s.clocksRun) ∧ (s.domUp dCOB = true) ∧ (let f := s.fed dCOB; (let one : Int := if up = f.regBit R.COB_ENC_CFG 2 then -1 else 1; (f.angleSource = 1) ∧ (∃ k : Int, (2 * (f.cobalt.count - k * f.regN R.COB_ENC_CPR).natAbs < f.regN R.COB_ENC_CPR))))) ∧
    (∃ s : State, ∃ up : Bool, ∃ ns : Nat, ∃ frame : Nat, (s.clocksRun) ∧ (s.domUp dCOB = true) ∧ (let f := s.fed dCOB; (let one : Int := if up = f.regBit R.COB_ENC_CFG 2 then -1 else 1; (f.angleSource = 2)))) ∧
    (∃ s : State, ∃ up : Bool, ∃ ns : Nat, ∃ frame : Nat, (s.clocksRun) ∧ (s.domUp dCOB = true) ∧ (let f := s.fed dCOB; (let one : Int := if up = f.regBit R.COB_ENC_CFG 2 then -1 else 1; (f.angleSource = 3) ∧ (f.cobalt.hist = []) ∧ (f.cobalt.zSeen = false) ∧ (f.regBit R.COB_ENC_CFG 3 = false) ∧ (f.regBit R.COB_ENC_CFG 2 = false)))) :=
  ⟨⟨(t0.setReg R.COB_ENC_CFG 1).setReg R.COB_ENC_UPD 1, true, 3, 9, (by unfold State.clocksRun; decide +kernel), by decide +kernel⟩,
   ⟨(t0.setReg R.COB_ENC_CFG 1).setReg R.COB_ENC_UPD 0, true, 3, 9, (by unfold State.clocksRun; decide +kernel), by decide +kernel⟩,
   ⟨t0, true, 3, 9, (by unfold State.clocksRun; decide +kernel), by decide +kernel⟩,
   ⟨((t0.setReg R.COB_ENC_CFG 1).setReg R.COB_ENC_CPR 100).modCobalt fun c => { c with count := 149 }, true, 3, 9, (by unfold State.clocksRun; decide +kernel), by decide +kernel, by decide +kernel, 1, by decide +kernel⟩,
   ⟨(t0.setReg R.COB_ENC_CFG 2).setReg R.COB_ENC_CPR 4, true, 3, 9, (by unfold State.clocksRun; decide +kernel), by decide +kernel⟩,
   ⟨(t0.setReg R.COB_ENC_CFG 0xC3), true, 3, 9, (by unfold State.clocksRun; decide +kernel), by decide +kernel⟩⟩

theorem witness_EncoderEdges_2 :
    (∃ s : State, ∃ up : Bool, ∃ ns : Nat, ∃ frame : Nat, (s.clocksRun) ∧ (s.domUp dCOB = true) ∧ (let f := s.fed dCOB; (let one : Int := if up = f.regBit R.COB_ENC_CFG 2 then -1 else 1; (f.angleSource = 0)))) ∧
    (∃ s : State, ∃ up : Bool, ∃ ns : Nat, ∃ frame : Nat, (s.clocksRun) ∧ (s.domUp dCOB = true) ∧ (let f := s.fed dCOB; (let one : Int := if up = f.regBit R.COB_ENC_CFG 2 then -1 else 1; (s.cobalt.lastUpdate + 1000000 ≤ s.now)))) ∧
    (∃ s : State, ∃ up : Bool, ∃ ns : Nat, ∃ frame : Nat, (s.clocksRun) ∧ (s.domUp dCOB = true) ∧ (let f := s.fed dCOB; (let one : Int := if up = f.regBit R.COB_ENC_CFG 2 then -1 else 1; (s.now < s.cobalt.lastUpdate + 1000000)))) :=
  ⟨⟨(t0.setReg R.COB_ENC_CFG 0), true, 3, 9, (by unfold State.clocksRun; decide +kernel), by decide +kernel⟩,
   ⟨t0, true, 3, 9, (by unfold State.clocksRun; decide +kernel), by decide +kernel⟩,
   ⟨(t0).modCobalt fun c => { c with lastUpdate := 199000001 }, true, 3, 9, (by unfold State.clocksRun; decide +kernel), by decide +kernel⟩⟩

theorem witness_ProjectionAndStacks_1 :
    (∃ s : State, (s.clocksRun) ∧ (∃ e, ∃ es, (s.cobalt.inq = e :: es) ∧ ((s.request dSEP).cobalt.inq = e :: es) ∧ ((s.request dSEP).domUp dCOB = true) ∧ (((s.request dSEP).domUp dSEP = false ∨ (s.request dSEP).sepiaRoom = true)) ∧ (let u := (s.request dSEP).modCobalt fun c => { c with inq := es }; (let frame := u.regFld (R.COB_Pn_CFG e.port) 1 0; (frame = 0))))) ∧
    (∃ s : State, (s.clocksRun) ∧ (∃ e, ∃ es, (s.cobalt.inq = e :: es) ∧ ((s.request dSEP).cobalt.inq = e :: es) ∧ ((s.request dSEP).domUp dCOB = true) ∧ (((s.request dSEP).domUp dSEP = false ∨ (s.request dSEP).sepiaRoom = true)) ∧ (let u := (s.request dSEP).modCobalt fun c => { c with inq := es }; (let t := u.bumpSat (R.COB_Pn_IN e.port); (let frame := u.regFld (R.COB_Pn_CFG e.port) 1 0; (frame ≠ 0) ∧ (t.projectPixel e.port e.x e.y e.stamp.steady = .error .geom)))))) ∧
    (∃ s : State, (s.clocksRun) ∧ (∃ e, ∃ es, (s.cobalt.inq = e :: es) ∧ ((s.request dSEP).cobalt.inq = e :: es) ∧ ((s.request dSEP).domUp dCOB = true) ∧ (((s.request dSEP).domUp dSEP = false ∨ (s.request dSEP).sepiaRoom = true)) ∧ (let u := (s.request dSEP).modCobalt fun c => { c with inq := es }; (let t := u.bumpSat (R.COB_Pn_IN e.port); (let frame := u.regFld (R.COB_Pn_CFG e.port) 1 0; (frame ≠ 0) ∧ (t.projectPixel e.port e.x e.y e.stamp.steady = .error .range)))))) ∧
    (∃ s : State, (s.clocksRun) ∧ (∃ e, ∃ es, (s.cobalt.inq = e :: es) ∧ ((s.request dSEP).cobalt.inq = e :: es) ∧ ((s.request dSEP).domUp dCOB = true) ∧ (((s.request dSEP).domUp dSEP = false ∨ (s.request dSEP).sepiaRoom = true)) ∧ (let u := (s.request dSEP).modCobalt fun c => { c with inq := es }; (let t := u.bumpSat (R.COB_Pn_IN e.port); (let frame := u.regFld (R.COB_Pn_CFG e.port) 1 0; (frame ≠ 0) ∧ (t.projectPixel e.port e.x e.y e.stamp.steady = .error .noangle)))))) ∧
    (∃ s : State, (s.clocksRun) ∧ (s.cobalt.inq = [])) ∧
    (∃ s : State, (s.clocksRun) ∧ (∃ k, ∃ r, ((s.stk k).closing = some r) ∧ (r.closeAt ≤ s.now))) :=
  ⟨⟨tGrid.setReg (R.COB_Pn_CFG 0) 0, (by unfold State.clocksRun; decide +kernel), _, _, rfl, rfl, by decide +kernel⟩,
   ⟨tGrid.setReg (R.COB_Pn_PLANE_U 0) 0, (by unfold State.clocksRun; decide +kernel), _, _, rfl, rfl, by decide +kernel⟩,
   ⟨(tGrid).modCobalt fun c => { c with gridLoaded := [] }, (by unfold State.clocksRun; decide +kernel), _, _, rfl, rfl, by decide +kernel⟩,
   ⟨tGrid.setReg (R.COB_Pn_CFG 0) 2, (by unfold State.clocksRun; decide +kernel), _, _, rfl, rfl, by decide +kernel⟩,
   ⟨t0, (by unfold State.clocksRun; decide +kernel), by decide +kernel⟩,
   ⟨t0.setStk 2 { StackDyn.init with closing := some tRun }, (by unfold State.clocksRun; decide +kernel), 2, tRun, rfl, by decide +kernel⟩⟩

theorem witness_ProjectionAndStacks_2 :
    (∃ s : State, (s.clocksRun) ∧ (∃ k, ∃ r, ((s.stk k).closing = some r) ∧ (s.now < r.closeAt))) ∧
    (∃ s : State, (s.clocksRun) ∧ (∃ k, ∃ r, ∃ l, ((s.stk k).copying = (r, none) :: l))) ∧
    (∃ s : State, (s.clocksRun) ∧ (∃ k, ((s.stk k).copying = []))) ∧
    (∃ s : State, ∃ e : Ev, ∃ es : List Ev, ∃ x : Nat, ∃ y : Nat, (s.clocksRun) ∧ (s.cobalt.inq = e :: es) ∧ ((s.request dSEP).cobalt.inq = e :: es) ∧ ((s.request dSEP).domUp dCOB = true) ∧ (((s.request dSEP).domUp dSEP = false ∨ (s.request dSEP).sepiaRoom = true)) ∧ (let u := (s.request dSEP).modCobalt fun c => { c with inq := es }; (let t := u.bumpSat (R.COB_Pn_IN e.port); (let frame := u.regFld (R.COB_Pn_CFG e.port) 1 0; (frame ≠ 0) ∧ (t.projectPixel e.port e.x e.y e.stamp.steady = .ok (x, y)))))) ∧
    (∃ s : State, ∃ e : Ev, ∃ es : List Ev, (s.clocksRun) ∧ (s.cobalt.inq = e :: es) ∧ ((s.request dSEP).cobalt.inq = e :: es) ∧ ((s.request dSEP).domUp dCOB = true) ∧ ((s.request dSEP).domUp dSEP = true) ∧ ((s.request dSEP).sepiaRoom = false) ∧ ((s.request dSEP).sepia.stalled = true)) ∧
    (∃ s : State, ∃ e : Ev, ∃ es : List Ev, (s.clocksRun) ∧ (s.cobalt.inq = e :: es) ∧ ((s.request dSEP).cobalt.inq = e :: es) ∧ ((s.request dSEP).domUp dCOB = true) ∧ ((s.request dSEP).domUp dSEP = true) ∧ ((s.request dSEP).sepiaRoom = false) ∧ ((s.request dSEP).sepia.stalled = false)) :=
  ⟨⟨t0.setStk 2 { StackDyn.init with closing := some { tRun with closeAt := 200000001 } }, (by unfold State.clocksRun; decide +kernel), 2, { tRun with closeAt := 200000001 }, rfl, by decide +kernel⟩,
   ⟨t0.setStk 2 { StackDyn.init with copying := [(tRun, none)] }, (by unfold State.clocksRun; decide +kernel), 2, tRun, [], rfl⟩,
   ⟨t0, (by unfold State.clocksRun; decide +kernel), 2, by decide +kernel⟩,
   ⟨tGrid, ⟨0, st 7⟩, [], 0, 0, (by unfold State.clocksRun; decide +kernel), by decide +kernel⟩,
   ⟨tGrid.modSepia fun p => { p with stalled := true }, ⟨0, st 7⟩, [], (by unfold State.clocksRun; decide +kernel), by decide +kernel⟩,
   ⟨tGrid.modSepia fun p => { p with inq := [tPEv, tPEv, tPEv] }, ⟨0, st 7⟩, [], (by unfold State.clocksRun; decide +kernel), by decide +kernel⟩⟩

theorem witness_ProjectionAndStacks_3 :
    (∃ s : State, ∃ k : Nat, (s.clocksRun) ∧ ((s.stk k).closing = none)) ∧
    (∃ s : State, ∃ k : Nat, ∃ r : StackRun, ∃ b : Nat, ∃ l : List (StackRun × Option Nat), ∃ c : Ctx, ∃ t : State, (s.clocksRun) ∧ ((s.stk k).copying = (r, some b) :: l) ∧ (s.ctx? r.ctx = some c) ∧ (s.dmaWrite c.fn (r.host + b * r.size) r.map = some t)) :=
  ⟨⟨t0, 2, (by unfold State.clocksRun; decide +kernel), by decide +kernel⟩,
   ⟨tDma.setStk 2 { StackDyn.init with copying := [(({ tRun with ctx := 1, host := 4096 } : StackRun), some 1)] }, 2, ({ tRun with ctx := 1, host := 4096 } : StackRun), 1, [], Ctx.new 0 0, (Option.get (tDma.setStk 2 { StackDyn.init with copying := [(({ tRun with ctx := 1, host := 4096 } : StackRun), some 1)] } |>.dmaWrite 0 (4096 + 1 * ({ tRun with ctx := 1, host := 4096 } : StackRun).size) ({ tRun with ctx := 1, host := 4096 } : StackRun).map) (by decide +kernel)), (by unfold State.clocksRun; decide +kernel), by decide +kernel⟩⟩

theorem witness_AttitudeAndAngleSnapshot_1 :
    (∃ s : State, ∃ burst : Bytes, ∃ ns : Nat, (s.clocksRun) ∧ (s.domUp dCOB = true) ∧ (s.regBit R.COB_IMU_CFG 5 = true)) ∧
    (∃ s : State, ∃ burst : Bytes, ∃ ns : Nat, (s.clocksRun) ∧ (s.domUp dCOB = true)) ∧
    (∃ s : State, ∃ burst : Bytes, ∃ ns : Nat, (s.clocksRun) ∧ (s.domUp dCOB = true) ∧ (s.regBit R.COB_IMU_CFG 5 = false)) ∧
    (∃ s : State, ∃ burst : Bytes, ∃ ns : Nat, (s.clocksRun) ∧ (s.domUp dCOB = true) ∧ (s.regBit R.COB_IMU_CFG 5 = true) ∧ (s.cobalt.imuSilentSaid = false) ∧ (s.regFld R.COB_IMU_TIME 28 16 ≠ 0) ∧ (s.cobalt.imuAt + 4000000000 / s.regFld R.COB_IMU_TIME 28 16 ≤ s.now)) ∧
    (∃ s : State, ∃ burst : Bytes, ∃ ns : Nat, (s.clocksRun) ∧ (s.domUp dCOB = true) ∧ (s.cobalt.imuSilentSaid = true)) ∧
    (∃ s : State, ∃ burst : Bytes, ∃ ns : Nat, (s.clocksRun) ∧ (s.domUp dCOB = true) ∧ (∃ v, (bit v 0 = true))) :=
  ⟨⟨t0.setReg R.COB_IMU_CFG 0x20, [1, 2, 3], 3, (by unfold State.clocksRun; decide +kernel), by decide +kernel⟩,
   ⟨t0.setReg R.COB_IMU_CFG 0x20, [1, 2, 3], 3, (by unfold State.clocksRun; decide +kernel), by decide +kernel⟩,
   ⟨t0, [1, 2, 3], 3, (by unfold State.clocksRun; decide +kernel), by decide +kernel⟩,
   ⟨(t0.setReg R.COB_IMU_CFG 0x20).setReg R.COB_IMU_TIME 0x00140001, [1, 2, 3], 3, (by unfold State.clocksRun; decide +kernel), by decide +kernel⟩,
   ⟨(t0).modCobalt fun c => { c with imuSilentSaid := true }, [1, 2, 3], 3, (by unfold State.clocksRun; decide +kernel), by decide +kernel⟩,
   ⟨t0.setReg R.COB_IMU_CFG 0x20, [1, 2, 3], 3, (by unfold State.clocksRun; decide +kernel), by decide +kernel, 1, by decide +kernel⟩⟩

theorem witness_AttitudeAndAngleSnapshot_2 :
    ∃ s : State, ∃ burst : Bytes, ∃ ns : Nat, (s.clocksRun) ∧ (s.domUp dCOB = true) ∧ (∃ v, (bit v 0 = false)) :=
  ⟨t0.setReg R.COB_IMU_CFG 0x20, [1, 2, 3], 3, (by unfold State.clocksRun; decide +kernel), by decide +kernel, 0, by decide +kernel⟩

theorem witness_AngleOfTheRotor :
    (∃ s : State, ∃ t₁ : Nat, ∃ t₀ : Nat, ∃ a₁ : Int, ∃ a₀ : Int, ∃ es : List (Nat × Int), (s.cobalt.hist = (t₁, a₁) :: (t₀, a₀) :: es) ∧ (t₀ < t₁) ∧ (∃ t, (t₁ ≤ t))) ∧
    (∃ s : State, ∃ t₁ : Nat, ∃ t₀ : Nat, ∃ a₁ : Int, ∃ a₀ : Int, ∃ es : List (Nat × Int), (s.cobalt.hist = (t₁, a₁) :: (t₀, a₀) :: es) ∧ (t₀ < t₁)) ∧
    (∃ s : State, ∃ t₁ : Nat, ∃ t₀ : Nat, ∃ a₁ : Int, ∃ a₀ : Int, ∃ es : List (Nat × Int), (s.cobalt.hist = (t₁, a₁) :: (t₀, a₀) :: es) ∧ (t₀ < t₁) ∧ (∃ n : Int, ∃ st : Stamp, (s.cobalt.angleValid = true) ∧ (s.cobalt.maxRev = some n) ∧ (∃ a : Int, (a / 4294967296 ≤ n)))) ∧
    (∃ s : State, ∃ t₁ : Nat, ∃ t₀ : Nat, ∃ a₁ : Int, ∃ a₀ : Int, ∃ es : List (Nat × Int), (s.cobalt.hist = (t₁, a₁) :: (t₀, a₀) :: es) ∧ (t₀ < t₁) ∧ (∃ n : Int, ∃ st : Stamp, (s.cobalt.angleValid = true) ∧ (s.cobalt.maxRev = some n) ∧ (∃ a : Int, (n < a / 4294967296)))) :=
  ⟨⟨(t0).modCobalt fun c => { c with hist := [(7, 50), (5, 40)] }, 7, 5, 50, 40, [], by decide +kernel, by decide +kernel, 7, by decide +kernel⟩,
   ⟨(t0).modCobalt fun c => { c with hist := [(7, 50), (5, 40)] }, 7, 5, 50, 40, [], by decide +kernel⟩,
   ⟨(t0).modCobalt fun c => { c with angleValid := true, maxRev := some 3, hist := [(7, 50), (5, 40)] }, 7, 5, 50, 40, [], by decide +kernel, by decide +kernel, 3, st 9, by decide +kernel, by decide +kernel, 17179869183, by decide +kernel⟩,
   ⟨(t0).modCobalt fun c => { c with angleValid := true, maxRev := some 3, hist := [(7, 50), (5, 40)] }, 7, 5, 50, 40, [], by decide +kernel, by decide +kernel, 3, st 9, by decide +kernel, by decide +kernel, 17179869184, by decide +kernel⟩⟩

theorem witness_SurfaceWork_1 :
    (∃ s : State, (s.clocksRun) ∧ (∃ e, ∃ es, (s.sepia.inq = e :: es))) ∧
    (∃ s : State, (s.clocksRun) ∧ (s.sepia.inq = [])) ∧
    (∃ s : State, (s.clocksRun) ∧ (∃ k, ∃ e, ∃ q, (s.sepia.cornerQ = ⟨k, e⟩ :: q) ∧ (s.surfEn k = true) ∧ (let u := s.modSepia fun p => { p with cornerQ := q }; (let t := u.setSurf k { u.surf k with tests := (u.surf k).tests + 1 }; (t.cornerArcs k e = none))))) ∧
    (∃ s : State, (s.clocksRun) ∧ (s.sepia.cornerQ = [])) ∧
    (∃ s : State, (s.clocksRun) ∧ (∃ k, ∃ e, ∃ q, (s.sepia.flowQ = ⟨k, e⟩ :: q) ∧ (s.surfEn k = true) ∧ (let u := s.modSepia fun p => { p with flowQ := q }; (let fit := flowFit (u.flowCells k e) (s.regFld (R.SEP_Sn_FLOW k) 9 4) (s.reg (R.SEP_Sn_FLOW_MAXRES k)) (s.reg (R.SEP_Sn_FLOW_MAXSPD k)); (fit = none))))) ∧
    (∃ s : State, (s.clocksRun) ∧ (s.sepia.flowQ = [])) :=
  ⟨⟨(tSurf).modSepia fun p => { p with inq := [tPEv] }, (by unfold State.clocksRun; decide +kernel), _, _, rfl⟩,
   ⟨tSurf, (by unfold State.clocksRun; decide +kernel), by decide +kernel⟩,
   ⟨((tSurf.setReg (R.SEP_Sn_CORNER 0) 0x00006631)).modSepia fun p => { p with cornerQ := [⟨0, tPEv⟩] }, (by unfold State.clocksRun; decide +kernel), 0, tPEv, [], by decide +kernel⟩,
   ⟨tSurf, (by unfold State.clocksRun; decide +kernel), by decide +kernel⟩,
   ⟨((((tSurf.setReg (R.SEP_Sn_FLOW 0) 0x00019034).setReg (R.SEP_Sn_FLOW_MAXRES 0) 0x47000000).setReg (R.SEP_Sn_FLOW_MAXSPD 0) 0x4F000000)).modSepia fun p => { p with flowQ := [⟨0, tPEv⟩] }, (by unfold State.clocksRun; decide +kernel), 0, tPEv, [], by decide +kernel⟩,
   ⟨tSurf, (by unfold State.clocksRun; decide +kernel), by decide +kernel⟩⟩

theorem witness_SurfaceWork_2 :
    (∃ s : State, (s.clocksRun)) ∧
    (∃ s : State, (s.clocksRun) ∧ (s.domUp dSEP = true) ∧ (s.regN R.SEP_TICK_US ≠ 0) ∧ (let n := s.regN R.SEP_TICK_US * 1000; (s.sepia.lastTick < s.now / n * n))) ∧
    (∃ s : State, (s.clocksRun) ∧ (s.domUp dSEP = true) ∧ (s.regN R.SEP_TICK_US ≠ 0) ∧ (let n := s.regN R.SEP_TICK_US * 1000; (s.now / n * n ≤ s.sepia.lastTick))) ∧
    (∃ s : State, (s.clocksRun) ∧ (s.sepia.stalled = true) ∧ (s.stagedBytes .sepia < 131072)) ∧
    (∃ s : State, (s.clocksRun) ∧ (s.sepia.stalled = false)) ∧
    (∃ s : State, ∃ k : Nat, ∃ e : PEv, ∃ q : List Cand, ∃ a : Nat, ∃ b : Nat, (s.clocksRun) ∧ (s.sepia.cornerQ = ⟨k, e⟩ :: q) ∧ (s.surfEn k = true) ∧ (let u := s.modSepia fun p => { p with cornerQ := q }; (let t := u.setSurf k { u.surf k with tests := (u.surf k).tests + 1 }; (let v := t.bumpSat (R.SEP_Sn_CORNERS k); (t.cornerArcs k e = some (a, b)) ∧ (v.housekeeping = true))))) :=
  ⟨⟨tSurf, (by unfold State.clocksRun; decide +kernel)⟩,
   ⟨tSurf, (by unfold State.clocksRun; decide +kernel), by decide +kernel⟩,
   ⟨(tSurf).modSepia fun p => { p with lastTick := 200000000 }, (by unfold State.clocksRun; decide +kernel), by decide +kernel⟩,
   ⟨(tSurf).modSepia fun p => { p with stalled := true }, (by unfold State.clocksRun; decide +kernel), by decide +kernel⟩,
   ⟨tSurf, (by unfold State.clocksRun; decide +kernel), by decide +kernel⟩,
   ⟨(withCells [(cellAt 0 10 7, 3392), (cellAt 0 11 7, 3392), (cellAt 0 12 8, 3392)] (tSurf.setReg (R.SEP_Sn_CORNER 0) 0x00000631)).modSepia fun p => { p with cornerQ := [⟨0, tPEv⟩] }, 0, tPEv, [], 3, 0, (by unfold State.clocksRun; decide +kernel), by decide +kernel⟩⟩

theorem witness_SurfaceWork_3 :
    (∃ s : State, ∃ k : Nat, ∃ e : PEv, ∃ q : List Cand, ∃ a : Nat, ∃ b : Nat, (s.clocksRun) ∧ (s.sepia.cornerQ = ⟨k, e⟩ :: q) ∧ (s.surfEn k = true) ∧ (let u := s.modSepia fun p => { p with cornerQ := q }; (let t := u.setSurf k { u.surf k with tests := (u.surf k).tests + 1 }; (let v := t.bumpSat (R.SEP_Sn_CORNERS k); (t.cornerArcs k e = some (a, b)) ∧ (v.housekeeping = false))))) ∧
    (∃ s : State, ∃ k : Nat, ∃ e : PEv, ∃ q : List Cand, ∃ a : Nat, ∃ b : Nat, (s.clocksRun) ∧ (s.sepia.cornerQ = ⟨k, e⟩ :: q) ∧ (s.surfEn k = true) ∧ (let u := s.modSepia fun p => { p with cornerQ := q }; (let t := u.setSurf k { u.surf k with tests := (u.surf k).tests + 1 }; (let v := t.bumpSat (R.SEP_Sn_CORNERS k); (t.cornerArcs k e = some (a, b)) ∧ (v.housekeeping = false) ∧ (s.regBit (R.SEP_Sn_CORNER k) 2 = false))))) ∧
    (∃ s : State, ∃ k : Nat, ∃ e : PEv, ∃ q : List Cand, (s.clocksRun) ∧ (s.sepia.cornerQ = ⟨k, e⟩ :: q) ∧ (s.surfEn k = false)) ∧
    (∃ s : State, ∃ k : Nat, ∃ e : PEv, ∃ q : List Cand, ∃ vx : F32, ∃ vy : F32, ∃ r : F32, ∃ m : Nat, (s.clocksRun) ∧ (s.sepia.flowQ = ⟨k, e⟩ :: q) ∧ (s.surfEn k = true) ∧ (let u := s.modSepia fun p => { p with flowQ := q }; (let fit := flowFit (u.flowCells k e) (s.regFld (R.SEP_Sn_FLOW k) 9 4) (s.reg (R.SEP_Sn_FLOW_MAXRES k)) (s.reg (R.SEP_Sn_FLOW_MAXSPD k)); (let v := u.bumpSat (R.SEP_Sn_FLOWS k); (fit = some (vx, vy, r, m)) ∧ (v.housekeeping = true))))) ∧
    (∃ s : State, ∃ k : Nat, ∃ e : PEv, ∃ q : List Cand, ∃ vx : F32, ∃ vy : F32, ∃ r : F32, ∃ m : Nat, (s.clocksRun) ∧ (s.sepia.flowQ = ⟨k, e⟩ :: q) ∧ (s.surfEn k = true) ∧ (let u := s.modSepia fun p => { p with flowQ := q }; (let fit := flowFit (u.flowCells k e) (s.regFld (R.SEP_Sn_FLOW k) 9 4) (s.reg (R.SEP_Sn_FLOW_MAXRES k)) (s.reg (R.SEP_Sn_FLOW_MAXSPD k)); (let v := u.bumpSat (R.SEP_Sn_FLOWS k); (fit = some (vx, vy, r, m)) ∧ (v.housekeeping = false))))) ∧
    (∃ s : State, ∃ k : Nat, ∃ e : PEv, ∃ q : List Cand, ∃ vx : F32, ∃ vy : F32, ∃ r : F32, ∃ m : Nat, (s.clocksRun) ∧ (s.sepia.flowQ = ⟨k, e⟩ :: q) ∧ (s.surfEn k = true) ∧ (let u := s.modSepia fun p => { p with flowQ := q }; (let fit := flowFit (u.flowCells k e) (s.regFld (R.SEP_Sn_FLOW k) 9 4) (s.reg (R.SEP_Sn_FLOW_MAXRES k)) (s.reg (R.SEP_Sn_FLOW_MAXSPD k)); (let v := u.bumpSat (R.SEP_Sn_FLOWS k); (fit = some (vx, vy, r, m)) ∧ (v.housekeeping = false) ∧ (s.regBit (R.SEP_Sn_FLOW k) 1 = false))))) :=
  ⟨⟨(withCells [(cellAt 0 10 7, 3392), (cellAt 0 11 7, 3392), (cellAt 0 12 8, 3392)] (tSurf.setReg (R.SEP_Sn_CORNER 0) 0x00000631)).modSepia fun p => { p with cornerQ := [⟨0, tPEv⟩], lastTick := 200000000 }, 0, tPEv, [], 3, 0, (by unfold State.clocksRun; decide +kernel), by decide +kernel⟩,
   ⟨(withCells [(cellAt 0 10 7, 3392), (cellAt 0 11 7, 3392), (cellAt 0 12 8, 3392)] (tSurf.setReg (R.SEP_Sn_CORNER 0) 0x00000631)).modSepia fun p => { p with cornerQ := [⟨0, tPEv⟩], lastTick := 200000000 }, 0, tPEv, [], 3, 0, (by unfold State.clocksRun; decide +kernel), by decide +kernel⟩,
   ⟨t0.modSepia fun p => { p with cornerQ := [⟨15, tPEv⟩] }, 15, tPEv, [], (by unfold State.clocksRun; decide +kernel), by decide +kernel⟩,
   ⟨(withCells [(cellAt 0 9 9, 3390), (cellAt 0 10 9, 3391), (cellAt 0 11 9, 3392), (cellAt 0 9 10, 3390), (cellAt 0 10 10, 3391), (cellAt 0 11 10, 3392)] (((tSurf.setReg (R.SEP_Sn_FLOW 0) 0x00019034).setReg (R.SEP_Sn_FLOW_MAXRES 0) 0x47000000).setReg (R.SEP_Sn_FLOW_MAXSPD 0) 0x4F000000)).modSepia fun p => { p with flowQ := [⟨0, tPEv⟩] }, 0, tPEv, [], 1232348160, 0, 0, 6, (by unfold State.clocksRun; decide +kernel), by decide +kernel⟩,
   ⟨(withCells [(cellAt 0 9 9, 3390), (cellAt 0 10 9, 3391), (cellAt 0 11 9, 3392), (cellAt 0 9 10, 3390), (cellAt 0 10 10, 3391), (cellAt 0 11 10, 3392)] (((tSurf.setReg (R.SEP_Sn_FLOW 0) 0x00019034).setReg (R.SEP_Sn_FLOW_MAXRES 0) 0x47000000).setReg (R.SEP_Sn_FLOW_MAXSPD 0) 0x4F000000)).modSepia fun p => { p with flowQ := [⟨0, tPEv⟩], lastTick := 200000000 }, 0, tPEv, [], 1232348160, 0, 0, 6, (by unfold State.clocksRun; decide +kernel), by decide +kernel⟩,
   ⟨(withCells [(cellAt 0 9 9, 3390), (cellAt 0 10 9, 3391), (cellAt 0 11 9, 3392), (cellAt 0 9 10, 3390), (cellAt 0 10 10, 3391), (cellAt 0 11 10, 3392)] (((tSurf.setReg (R.SEP_Sn_FLOW 0) 0x00019034).setReg (R.SEP_Sn_FLOW_MAXRES 0) 0x47000000).setReg (R.SEP_Sn_FLOW_MAXSPD 0) 0x4F000000)).modSepia fun p => { p with flowQ := [⟨0, tPEv⟩], lastTick := 200000000 }, 0, tPEv, [], 1232348160, 0, 0, 6, (by unfold State.clocksRun; decide +kernel), by decide +kernel⟩⟩

theorem witness_SurfaceWork_4 :
    ∃ s : State, ∃ k : Nat, ∃ e : PEv, ∃ q : List Cand, (s.clocksRun) ∧ (s.sepia.flowQ = ⟨k, e⟩ :: q) ∧ (s.surfEn k = false) :=
  ⟨t0.modSepia fun p => { p with flowQ := [⟨15, tPEv⟩] }, 15, tPEv, [], (by unfold State.clocksRun; decide +kernel), by decide +kernel⟩

theorem witness_SurfaceUse :
    (∃ s : State, ∃ k : Nat, ∃ e : PEv, (k < 16) ∧ (s.surfEn k = true) ∧ (s.regBit (R.SEP_Sn_CFG k) (16 + e.ev.port) = true) ∧ (s.portOwner e.ev.port = s.surfOwner k) ∧ (e.frame ≠ (s.surf k).frame)) ∧
    (∃ s : State, ∃ k : Nat, ∃ e : PEv, (k < 16) ∧ (s.surfEn k = true) ∧ (s.regBit (R.SEP_Sn_CFG k) (16 + e.ev.port) = true) ∧ (s.portOwner e.ev.port = s.surfOwner k) ∧ (e.frame = (s.surf k).frame) ∧ ((s.surfW k ≤ e.x ∨ s.surfH k ≤ e.y))) ∧
    (∃ s : State, ∃ k : Nat, ∃ e : PEv, (k < 16) ∧ (s.surfEn k = true) ∧ (s.regBit (R.SEP_Sn_CFG k) (16 + e.ev.port) = true) ∧ (s.portOwner e.ev.port = s.surfOwner k) ∧ (e.frame = (s.surf k).frame) ∧ (e.x < s.surfW k) ∧ (e.y < s.surfH k) ∧ (let n := s.surfShift k; (let plane := if s.regBit (R.SEP_Sn_CFG k) 1 = true then b2n e.ev.pol else 0; (((s.surf k).used + 1) % 2 ^ s.regFld (R.SEP_Sn_CFG k) 10 8 ≠ 0)))) ∧
    (∃ s : State, ∃ k : Nat, ∃ e : PEv, (k < 16) ∧ (s.surfEn k = true) ∧ (s.regBit (R.SEP_Sn_CFG k) (16 + e.ev.port) = true) ∧ (s.portOwner e.ev.port = s.surfOwner k) ∧ (e.frame = (s.surf k).frame) ∧ (e.x < s.surfW k) ∧ (e.y < s.surfH k) ∧ (let n := s.surfShift k; (let plane := if s.regBit (R.SEP_Sn_CFG k) 1 = true then b2n e.ev.pol else 0; (((s.surf k).used + 1) % 2 ^ s.regFld (R.SEP_Sn_CFG k) 10 8 = 0) ∧ (s.regBit (R.SEP_Sn_CORNER k) 0 = true) ∧ (s.regBit (R.SEP_Sn_FLOW k) 0 = false) ∧ (s.sepia.cornerQ.length < 1024)))) ∧
    (∃ s : State, ∃ k : Nat, ∃ e : PEv, (k < 16) ∧ (s.surfEn k = true) ∧ (s.regBit (R.SEP_Sn_CFG k) (16 + e.ev.port) = true) ∧ (s.portOwner e.ev.port = s.surfOwner k) ∧ (e.frame = (s.surf k).frame) ∧ (e.x < s.surfW k) ∧ (e.y < s.surfH k) ∧ (let n := s.surfShift k; (let plane := if s.regBit (R.SEP_Sn_CFG k) 1 = true then b2n e.ev.pol else 0; (let t := (s.bump (R.SEP_Sn_EVENTS k)).setSurf k { s.surf k with cells := (s.surf k).cells.set (cellAt plane (e.x / 2 ^ n) (e.y / 2 ^ n)) (e.ev.stamp.steady / (1000 * 2 ^ s.surfRes k) % 32768), used := (s.surf k).used + 1 }; (((s.surf k).used + 1) % 2 ^ s.regFld (R.SEP_Sn_CFG k) 10 8 = 0) ∧ (s.regBit (R.SEP_Sn_CORNER k) 0 = true) ∧ (s.regBit (R.SEP_Sn_FLOW k) 0 = false) ∧ (1024 ≤ s.sepia.cornerQ.length) ∧ (t.reg R.SEP_CORNER_SKIP = 0))))) :=
  ⟨⟨tSurf, 0, { tPEv with frame := 1 }, by decide +kernel⟩,
   ⟨tSurf, 0, { tPEv with x := 64 }, by decide +kernel⟩,
   ⟨tSurf.setRegFld (R.SEP_Sn_CFG 0) 10 8 1, 0, { tPEv with x := 63, y := 63 }, by decide +kernel⟩,
   ⟨tSurf.setReg (R.SEP_Sn_CORNER 0) 1, 0, tPEv, by decide +kernel⟩,
   ⟨(tSurf.setReg (R.SEP_Sn_CORNER 0) 1).modSepia fun p => { p with cornerQ := List.replicate 1024 ⟨0, tPEv⟩ }, 0, tPEv, by decide +kernel⟩⟩

theorem witness_TrackRules_1 :
    (∃ s : State, ∃ t : Track, (let w := s.reg (R.SEP_Sn_TRK t.surface); (let ct := fld w 15 8; (t.reason = 0) ∧ (t.state = 0) ∧ (ct ≤ t.age + 1)))) ∧
    (∃ s : State, ∃ t : Track, (let w := s.reg (R.SEP_Sn_TRK t.surface); (let ct := fld w 15 8; (t.reason = 0) ∧ (t.state = 0) ∧ (t.age + 1 < ct)))) ∧
    (∃ s : State, ∃ t : Track, (let w := s.reg (R.SEP_Sn_TRK t.surface); (t.reason = 0) ∧ (t.state = 1) ∧ (t.measured = true))) ∧
    (∃ s : State, ∃ t : Track, (let w := s.reg (R.SEP_Sn_TRK t.surface); (let co := fld w 23 16; (t.reason = 0) ∧ (t.state = 1) ∧ (t.measured = false) ∧ (t.ticks + 1 < co)))) ∧
    (∃ s : State, ∃ t : Track, (let w := s.reg (R.SEP_Sn_TRK t.surface); (let co := fld w 23 16; (t.reason = 0) ∧ (t.state = 2) ∧ (t.measured = false) ∧ (co ≤ t.ticks + 1)))) ∧
    (∃ s : State, ∃ t : Track, (let w := s.reg (R.SEP_Sn_TRK t.surface); (t.reason ≠ 0) ∧ (t.state ≠ 3))) :=
  ⟨⟨tSurf.setReg (R.SEP_Sn_TRK 0) 0x00020301, tTrk 0 0 2 0 false 1, by decide +kernel⟩,
   ⟨tSurf.setReg (R.SEP_Sn_TRK 0) 0x00020301, tTrk 0 0 1 0 false 1, by decide +kernel⟩,
   ⟨tSurf.setReg (R.SEP_Sn_TRK 0) 0x00020301, tTrk 1 0 9 0 true 1, by decide +kernel⟩,
   ⟨tSurf.setReg (R.SEP_Sn_TRK 0) 0x00020301, tTrk 1 0 9 0 false 1, by decide +kernel⟩,
   ⟨tSurf.setReg (R.SEP_Sn_TRK 0) 0x00020301, tTrk 2 0 9 1 false 1, by decide +kernel⟩,
   ⟨tSurf.setReg (R.SEP_Sn_TRK 0) 0x00020301, tTrk 1 2 9 1 false 1, by decide +kernel⟩⟩

theorem witness_TrackRules_2 :
    (∃ s : State, ∃ t : Track, (let w := s.reg (R.SEP_Sn_TRK t.surface); (∃ k : Nat, ∃ e : PEv, ∃ z : F32 × F32, ∃ i, (s.regBit (R.SEP_Sn_TRK k) 0 = true) ∧ (nearest z e.ev.stamp.steady (F.mul (s.reg (R.SEP_Sn_TRK_GATE k)) (s.reg (R.SEP_Sn_TRK_GATE k))) (s.liveTracks k) = none) ∧ ((s.sepia.tracks.filter fun q => q.2.surface = k).length < s.regN (R.SEP_Sn_TRK_QUOTA k)) ∧ (freeSlot s.sepia.tracks 4096 0 = some i)))) ∧
    (∃ s : State, ∃ t : Track, (let w := s.reg (R.SEP_Sn_TRK t.surface); (∃ i, ∃ j, ∃ a, ∃ b, ∃ n, (i ≠ j) ∧ (s.sepia.tracks.get? i = some a) ∧ (s.sepia.tracks.get? j = some b) ∧ (a.state = 1) ∧ (b.state = 1) ∧ (a.surface = b.surface) ∧ (F.isZero (s.reg (R.SEP_Sn_TRK_MERGE a.surface)) = false) ∧ (F.le (dist2 (a.pred n) (b.pred n)) (F.mul (s.reg (R.SEP_Sn_TRK_MERGE a.surface)) (s.reg (R.SEP_Sn_TRK_MERGE a.surface))) = true) ∧ (laterId a.id b.id = true)))) ∧
    (∃ s : State, ∃ t : Track, (let w := s.reg (R.SEP_Sn_TRK t.surface); (∃ i, ∃ j, ∃ a, ∃ b, ∃ n, (i ≠ j) ∧ (s.sepia.tracks.get? i = some a) ∧ (s.sepia.tracks.get? j = some b) ∧ (a.state = 1) ∧ (b.state = 1) ∧ (a.surface = b.surface) ∧ (F.isZero (s.reg (R.SEP_Sn_TRK_MERGE a.surface)) = false) ∧ (F.le (dist2 (a.pred n) (b.pred n)) (F.mul (s.reg (R.SEP_Sn_TRK_MERGE a.surface)) (s.reg (R.SEP_Sn_TRK_MERGE a.surface))) = true) ∧ (laterId a.id b.id = false)))) :=
  ⟨⟨(tSurf.setReg (R.SEP_Sn_TRK 0) 0x00020301).setReg (R.SEP_Sn_TRK_QUOTA 0) 1, tTrk 1 0 9 0 true 1, 0, tPEv, (0, 0), 0, by decide +kernel⟩,
   ⟨((tSurf.setReg (R.SEP_Sn_TRK 0) 0x00020301).setReg (R.SEP_Sn_TRK_MERGE 0) 0x3F800000).modSepia fun p => { p with tracks := [(0, tTrk 1 0 9 0 true 2), (1, tTrk 1 0 9 0 true 1)] }, tTrk 1 0 9 0 true 1, 0, 1, _, _, 5, by decide +kernel, rfl, rfl, by decide +kernel⟩,
   ⟨((tSurf.setReg (R.SEP_Sn_TRK 0) 0x00020301).setReg (R.SEP_Sn_TRK_MERGE 0) 0x3F800000).modSepia fun p => { p with tracks := [(0, tTrk 1 0 9 0 true 1), (1, tTrk 1 0 9 0 true 2)] }, tTrk 1 0 9 0 true 1, 0, 1, _, _, 5, by decide +kernel, rfl, rfl, by decide +kernel⟩⟩

theorem witness_FilterFusionInferenceAndGroupPages_1 :
    (∃ s : State, ∃ r : Nat, ∃ v : Word, (bit v 0 = true)) ∧
    (∃ s : State, ∃ r : Nat, ∃ v : Word, (bit v 0 = false)) ∧
    (Passes 0x0701 (fun c s => checkTdm s.projectedAll c s)) ∧
    (Fails 0x0701 (fun c s => checkTdm s.projectedAll c s)) ∧
    (Passes 0x0702 checkAssignCh) ∧
    (Fails 0x0702 checkAssignCh) :=
  ⟨⟨t0, 3, 1, by decide +kernel⟩,
   ⟨t0, 3, 0, by decide +kernel⟩,
   passes (blk [(1, 3), (1, 1), (1, 0), (1, 8), (1, 32), (3, 0), (4, 8000), (2, 1), (1, 0), (9, 0)]) (t0) (by decide +kernel),
   fails (List.replicate 64 0xFF) t0 (badParam 0) (by decide +kernel),
   passes (blk [(1, 39), (1, 3), (2, 1)]) (t0) (by decide +kernel),
   fails (List.replicate 64 0xFF) t0 (badParam 0) (by decide +kernel)⟩

theorem witness_FilterFusionInferenceAndGroupPages_2 :
    (Passes 0x0905 (fun c s => allOf [bindAccess (u16 c.block 0) 0 c.ctx s, inRange (u8 c.block 2) 0 1 2, reserved c.block 3 1])) ∧
    (Fails 0x0905 (fun c s => allOf [bindAccess (u16 c.block 0) 0 c.ctx s, inRange (u8 c.block 2) 0 1 2, reserved c.block 3 1])) ∧
    (Passes 0x0A03 (fun c _ => allOf [inRange (u8 c.block 0) 0 1 0, reserved c.block 1 1, inRange (u16 c.block 2) 1 10000 2])) ∧
    (Fails 0x0A03 (fun c _ => allOf [inRange (u8 c.block 0) 0 1 0, reserved c.block 1 1, inRange (u16 c.block 2) 1 10000 2])) ∧
    (Passes 0x0A04 (fun c _ => allOf [inRange (u8 c.block 0) 0 1 0, reserved c.block 1 3])) ∧
    (Fails 0x0A04 (fun c _ => allOf [inRange (u8 c.block 0) 0 1 0, reserved c.block 1 3])) :=
  ⟨passes (blk [(2, 1), (2, 0)]) (tIdg) (by decide +kernel),
   fails (List.replicate 64 0xFF) t0 (badParam 0) (by decide +kernel),
   passes (blk [(2, 0), (2, 10000)]) (t0) (by decide +kernel),
   fails (List.replicate 64 0xFF) t0 (badParam 0) (by decide +kernel),
   passes (List.replicate 64 0) (t0) (by decide +kernel),
   fails (List.replicate 64 0xFF) t0 (badParam 0) (by decide +kernel)⟩

theorem witness_FilterFusionInferenceAndGroupPages_3 :
    (Passes 0x0A05 (fun c s => allOf [bindAccess (u16 c.block 0) 0 c.ctx s, inRange (u8 c.block 2) 0 1 2, reserved c.block 3 1])) ∧
    (Fails 0x0A05 (fun c s => allOf [bindAccess (u16 c.block 0) 0 c.ctx s, inRange (u8 c.block 2) 0 1 2, reserved c.block 3 1])) ∧
    (Passes 0x1202 (fun _ s => allOf [s.reach dTEAL, need (s.tealState ≠ tealNone) (badParam 0)])) ∧
    (Fails 0x1202 (fun _ s => allOf [s.reach dTEAL, need (s.tealState ≠ tealNone) (badParam 0)])) ∧
    (Passes 0x1203 (fun _ s => s.reach dTEAL)) ∧
    (Fails 0x1203 (fun _ s => s.reach dTEAL)) :=
  ⟨passes (blk [(2, 1), (2, 0)]) (tIdg) (by decide +kernel),
   fails (List.replicate 64 0xFF) t0 (badParam 0) (by decide +kernel),
   passes ([]) (tTeal 2 2) (by decide +kernel),
   fails (List.replicate 64 0xFF) t0 (badParam 0) (by decide +kernel),
   passes (List.replicate 64 0) (t0) (by decide +kernel),
   fails [] ((t0.setReg R.IVR_DOM_UP 0).setReg (R.IVR_DOMd_CFG 15) 0) (asleep) (by decide +kernel)⟩

theorem witness_FilterFusionInferenceAndGroupPages_4 :
    (Passes 0x0707 (fun c s => allOf [chanAccess 0 (u8 c.block 0) c.ctx s, inRange (u8 c.block 1) 0 1 1, reserved c.block 2 2])) ∧
    (Fails 0x0707 (fun c s => allOf [chanAccess 0 (u8 c.block 0) c.ctx s, inRange (u8 c.block 1) 0 1 1, reserved c.block 2 2])) ∧
    (Passes 0x070A (fun c s =>
      let b := c.block
      allOf [inRange (u8 b 0) 0 3 0, s.reach dUMB, inRange (u8 b 1) 0 1 1, inRange (u8 b 2) 0 1 2, inRange (u8 b 3) 0 1 3])) ∧
    (Fails 0x070A (fun c s =>
      let b := c.block
      allOf [inRange (u8 b 0) 0 3 0, s.reach dUMB, inRange (u8 b 1) 0 1 1, inRange (u8 b 2) 0 1 2, inRange (u8 b 3) 0 1 3])) ∧
    (Passes 0x070B (fun c s => allOf [chanAccess 0 (u8 c.block 0) c.ctx s, inRange (u8 c.block 1) 0 1 1, reserved c.block 2 2])) ∧
    (Fails 0x070B (fun c s => allOf [chanAccess 0 (u8 c.block 0) c.ctx s, inRange (u8 c.block 1) 0 1 1, reserved c.block 2 2])) :=
  ⟨passes (blk [(1, 8), (3, 0)]) (tTdm) (by decide +kernel),
   fails (List.replicate 64 0xFF) t0 (badParam 0) (by decide +kernel),
   passes (List.replicate 64 0) (t0) (by decide +kernel),
   fails (List.replicate 64 0xFF) t0 (badParam 0) (by decide +kernel),
   passes (blk [(1, 8), (3, 0)]) (tTdm) (by decide +kernel),
   fails (List.replicate 64 0xFF) t0 (badParam 0) (by decide +kernel)⟩

theorem witness_FilterFusionInferenceAndGroupPages_5 :
    (Passes 0x0802 (fun c s => allOf [ruleAccess (u16 c.block 0) c.ctx s, need (s.ruleEn (u16 c.block 0)) (badParam 0),
      reserved c.block 2 2])) ∧
    (Fails 0x0802 (fun c s => allOf [ruleAccess (u16 c.block 0) c.ctx s, need (s.ruleEn (u16 c.block 0)) (badParam 0),
      reserved c.block 2 2])) ∧
    (Passes 0x0803 (fun c s => allOf [ruleAccess (u16 c.block 0) c.ctx s, inRange (u8 c.block 2) 0 1 2, reserved c.block 3 1])) ∧
    (Fails 0x0803 (fun c s => allOf [ruleAccess (u16 c.block 0) c.ctx s, inRange (u8 c.block 2) 0 1 2, reserved c.block 3 1])) ∧
    (Passes 0x0902 (fun c s => allOf [modelAccess (u16 c.block 0) 0 c.ctx s, reserved c.block 2 2,
      need (!s.modelUsed (u16 c.block 0)) busy])) ∧
    (Fails 0x0902 (fun c s => allOf [modelAccess (u16 c.block 0) 0 c.ctx s, reserved c.block 2 2,
      need (!s.modelUsed (u16 c.block 0)) busy])) :=
  ⟨passes (blk [(2, 2), (2, 0)]) ((t0.setReg (R.VIR_Rn_CFG 2) 1).setReg (R.VIR_Rn_OWNER 2) 1) (by decide +kernel),
   fails (List.replicate 64 0xFF) t0 (badParam 0) (by decide +kernel),
   passes (List.replicate 64 0) (t0) (by decide +kernel),
   fails (List.replicate 64 0xFF) t0 (badParam 0) (by decide +kernel),
   passes (blk [(2, 1), (2, 0)]) ((tIdg.modIndigo fun i => { i with binds := [] })) (by decide +kernel),
   fails (List.replicate 64 0xFF) t0 (badParam 0) (by decide +kernel)⟩

theorem witness_CoefficientSets :
    (∃ s : State, ∃ p : Nat, ∃ l : Latch, (let h := u16 l.cmd.block 0; (let n := u16 l.cmd.block 2; (let own := ∀ k, s.umber.coefs.get? h = some k → k.ctx = l.cmd.ctx; (s.turn p 0x0704 l) ∧ (h = 0) ∧ (own) ∧ (s.reach dUMB = .ok ()) ∧ (1 ≤ n) ∧ (n ≤ 384) ∧ (u32 l.cmd.block 4 = 0) ∧ (u64 l.cmd.block 8 % 4 = 0) ∧ (s.freeHandle.isSome = true) ∧ (n ≤ s.coefFree))))) ∧
    (∃ s : State, ∃ p : Nat, ∃ l : Latch, (let h := u16 l.cmd.block 0; (let n := u16 l.cmd.block 2; (let own := ∀ k, s.umber.coefs.get? h = some k → k.ctx = l.cmd.ctx; (∃ d, (s.latch p = some l) ∧ (l.stage = .resumed d) ∧ (l.cmd.opcode = 0x0704) ∧ (h = 0) ∧ (own) ∧ (s.reach dUMB = .ok ()) ∧ (1 ≤ n) ∧ (n ≤ 384) ∧ (u32 l.cmd.block 4 = 0) ∧ (u64 l.cmd.block 8 % 4 = 0) ∧ (n ≤ s.coefFree) ∧ (s.freeHandle.isSome = true) ∧ (s.dmaRead l.cmd.path (u64 l.cmd.block 8) (4 * n) d = none)))))) ∧
    (∃ s : State, ∃ p : Nat, ∃ l : Latch, (let h := u16 l.cmd.block 0; (let n := u16 l.cmd.block 2; (let own := ∀ k, s.umber.coefs.get? h = some k → k.ctx = l.cmd.ctx; (∃ d, (s.latch p = some l) ∧ (l.stage = .resumed d) ∧ (l.cmd.opcode = 0x0704) ∧ (h = 0) ∧ (own) ∧ (s.reach dUMB = .ok ()) ∧ (1 ≤ n) ∧ (n ≤ 384) ∧ (u32 l.cmd.block 4 = 0) ∧ (u64 l.cmd.block 8 % 4 = 0) ∧ (n ≤ s.coefFree) ∧ (s.freeHandle.isSome = true) ∧ (∃ data, (s.dmaRead l.cmd.path (u64 l.cmd.block 8) (4 * n) d = some data) ∧ (let ws := (List.range n).map fun i => u32 data (4 * i); (∃ k, (s.freeHandle = some k) ∧ ((ws.all fun w => sext 32 w = sext 18 w) = true))))))))) ∧
    (∃ s : State, ∃ p : Nat, ∃ l : Latch, (let h := u16 l.cmd.block 0; (let n := u16 l.cmd.block 2; (let own := ∀ k, s.umber.coefs.get? h = some k → k.ctx = l.cmd.ctx; (∃ d, (s.latch p = some l) ∧ (l.stage = .resumed d) ∧ (l.cmd.opcode = 0x0704) ∧ (h = 0) ∧ (own) ∧ (s.reach dUMB = .ok ()) ∧ (1 ≤ n) ∧ (n ≤ 384) ∧ (u32 l.cmd.block 4 = 0) ∧ (u64 l.cmd.block 8 % 4 = 0) ∧ (n ≤ s.coefFree) ∧ (s.freeHandle.isSome = true) ∧ (∃ data, (s.dmaRead l.cmd.path (u64 l.cmd.block 8) (4 * n) d = some data) ∧ (let ws := (List.range n).map fun i => u32 data (4 * i); ((ws.all fun w => sext 32 w = sext 18 w) = false)))))))) ∧
    (∃ s : State, ∃ p : Nat, ∃ l : Latch, (let h := u16 l.cmd.block 0; (let n := u16 l.cmd.block 2; (let own := ∀ k, s.umber.coefs.get? h = some k → k.ctx = l.cmd.ctx; (s.turn p 0x0704 l) ∧ (0x100 ≤ h) ∧ (h ≤ 0x4FF) ∧ (own) ∧ (s.reach dUMB = .ok ()) ∧ ((s.umber.coefs.get? h).isSome = true) ∧ (s.coefsUsed h = false) ∧ (s.projectedAll.coefsUsed h = false) ∧ (n = 0) ∧ (u32 l.cmd.block 4 = 0) ∧ (u64 l.cmd.block 8 % 4 = 0))))) :=
  ⟨⟨on (lt 0x0704 (blk [(2, 0), (2, 384), (4, 0), (8, 0)])) tDma, 0, (lt 0x0704 (blk [(2, 0), (2, 384), (4, 0), (8, 0)])), ⟨rfl, rfl, rfl, by decide +kernel⟩, by decide +kernel, (fun _ h => nomatch (show none = some _ from h)), by decide +kernel⟩,
   ⟨on (lt 0x0704 (blk [(2, 0), (2, 2), (4, 0), (8, 0)]) (.resumed none)) tDma, 0, (lt 0x0704 (blk [(2, 0), (2, 2), (4, 0), (8, 0)]) (.resumed none)), none, by decide +kernel, by decide +kernel, by decide +kernel, by decide +kernel, (fun _ h => nomatch (show none = some _ from h)), by decide +kernel⟩,
   ⟨on (lt 0x0704 (blk [(2, 0), (2, 2), (4, 0), (8, 0)]) (.resumed (some [1, 0, 0, 0, 255, 255, 255, 255]))) tDma, 0, (lt 0x0704 (blk [(2, 0), (2, 2), (4, 0), (8, 0)]) (.resumed (some [1, 0, 0, 0, 255, 255, 255, 255]))), _, by decide +kernel, rfl, by decide +kernel, by decide +kernel, (fun _ h => nomatch (show none = some _ from h)), by decide +kernel, by decide +kernel, by decide +kernel, by decide +kernel, by decide +kernel, by decide +kernel, by decide +kernel, _, rfl, 0x100, by decide +kernel⟩,
   ⟨on (lt 0x0704 (blk [(2, 0), (2, 2), (4, 0), (8, 0)]) (.resumed (some [1, 0, 0, 0, 255, 255, 255, 127]))) tDma, 0, (lt 0x0704 (blk [(2, 0), (2, 2), (4, 0), (8, 0)]) (.resumed (some [1, 0, 0, 0, 255, 255, 255, 127]))), _, by decide +kernel, rfl, by decide +kernel, by decide +kernel, (fun _ h => nomatch (show none = some _ from h)), by decide +kernel, by decide +kernel, by decide +kernel, by decide +kernel, by decide +kernel, by decide +kernel, by decide +kernel, _, rfl, by decide +kernel⟩,
   ⟨on (lt 0x0704 (blk [(2, 1279), (2, 0), (4, 0), (8, 0)])) (tDma.modUmber fun u => { u with coefs := [(0x4FF, ⟨1, 0, 2⟩)] }), 0, lt 0x0704 (blk [(2, 1279), (2, 0), (4, 0), (8, 0)]), ⟨rfl, rfl, rfl, by decide +kernel⟩, by decide +kernel, by decide +kernel, (fun k h => by cases (show some _ = some k from h); rfl), by decide +kernel⟩⟩

theorem witness_TdmFrames_1 :
    (∃ s : State, ∃ p : Nat, ∃ fr : TdmFrame, (s.clocksRun) ∧ (p < 4) ∧ (s.domUp dUMB = true) ∧ (s.regBit (R.UMB_Pn_CFG p) 0 = true) ∧ (let f := s.fed dUMB; (let raw := f.stampNs fr.ns; (let x := f.tdm p; (x.silentSaid = false) ∧ (s.tdm p = x) ∧ (Nat.max x.since (s.reg64 (R.UMB_Pn_LAST_FS_LO p)) * 65536 + 16 * s.declaredPeriod p ≤ s.now * 65536))))) ∧
    (∃ s : State, ∃ p : Nat, ∃ fr : TdmFrame, (s.clocksRun) ∧ (p < 4) ∧ (s.domUp dUMB = true) ∧ (s.regBit (R.UMB_Pn_CFG p) 0 = true) ∧ (let f := s.fed dUMB; (let raw := f.stampNs fr.ns; (∃ c, (32 ≤ c) ∧ (c < 40) ∧ (s.chEn c = true) ∧ (s.chSource c ≠ 0) ∧ (s.chDiv c ≠ 0) ∧ (s.paused (s.chOwner c) = false) ∧ ((s.chan c).lastTick + s.chDiv c * 5 ≤ s.now) ∧ (s.clocksRun))))) ∧
    (∃ s : State, ∃ p : Nat, ∃ fr : TdmFrame, (s.clocksRun) ∧ (p < 4) ∧ (s.domUp dUMB = true) ∧ (s.regBit (R.UMB_Pn_CFG p) 0 = true) ∧ (let f := s.fed dUMB; (let raw := f.stampNs fr.ns; (∃ c, (s.chEn c = false))))) ∧
    (∃ s : State, ∃ p : Nat, ∃ fr : TdmFrame, (s.clocksRun) ∧ (p < 4) ∧ (s.domUp dUMB = true) ∧ (s.regBit (R.UMB_Pn_CFG p) 0 = true) ∧ ((s.fed dUMB).tdmClocked p = true) ∧ ((s.fed dUMB).frameLen p fr ≠ (s.fed dUMB).frameBits p)) ∧
    (∃ s : State, ∃ p : Nat, ∃ fr : TdmFrame, (s.clocksRun) ∧ (p < 4) ∧ (s.domUp dUMB = true) ∧ (s.regBit (R.UMB_Pn_CFG p) 0 = true) ∧ ((s.fed dUMB).tdmClocked p = true) ∧ ((s.fed dUMB).frameLen p fr = (s.fed dUMB).frameBits p) ∧ (64 ≤ ((s.fed dUMB).tdm p).frames.length)) ∧
    (∃ s : State, ∃ p : Nat, ∃ fr : TdmFrame, (s.clocksRun) ∧ (p < 4) ∧ (s.domUp dUMB = true) ∧ (s.regBit (R.UMB_Pn_CFG p) 0 = true) ∧ (let f := s.fed dUMB; (let chans := (below (f.slots p) fun k => f.chEn (8 * p + k)).map fun k => 8 * p + k; (f.tdmClocked p = true) ∧ (f.frameLen p fr = f.frameBits p) ∧ ((f.tdm p).frames.length < 64) ∧ (chans ≠ []) ∧ (∀ c ∈ chans, f.paused (f.chOwner c) = false)))) :=
  ⟨⟨tTdm, 1, tFrame 256, (by unfold State.clocksRun; decide +kernel), by decide +kernel⟩,
   ⟨tTdm.setReg (R.UMB_CHn_DERIVED 32) 0x3E802, 1, tFrame 256, (by unfold State.clocksRun; decide +kernel), by decide +kernel, by decide +kernel, by decide +kernel, 32, by decide +kernel, by decide +kernel, by decide +kernel, by decide +kernel, by decide +kernel, by decide +kernel, by decide +kernel, (by unfold State.clocksRun; decide +kernel)⟩,
   ⟨tTdm, 1, tFrame 256, (by unfold State.clocksRun; decide +kernel), by decide +kernel, by decide +kernel, by decide +kernel, 39, by decide +kernel⟩,
   ⟨tTdm, 1, tFrame 255, (by unfold State.clocksRun; decide +kernel), by decide +kernel⟩,
   ⟨tTdm.setTdm 1 { tTdm.tdm 1 with frames := List.replicate 64 ⟨[], st 5, [8]⟩ }, 1, tFrame 256, (by unfold State.clocksRun; decide +kernel), by decide +kernel⟩,
   ⟨tTdm, 1, tFrame 256, (by unfold State.clocksRun; decide +kernel), by decide +kernel⟩⟩

theorem witness_TdmFrames_2 :
    (∃ s : State, ∃ p : Nat, (s.clocksRun) ∧ (p < 4) ∧ (s.domUp dUMB = true) ∧ (s.regBit (R.UMB_Pn_CFG p) 0 = true) ∧ ((s.fed dUMB).tdmClocked p = false)) ∧
    (∃ s : State, ∃ p : Nat, (s.clocksRun) ∧ (p < 4) ∧ (s.domUp dUMB = true) ∧ (s.regBit (R.UMB_Pn_CFG p) 0 = true)) ∧
    (∃ s : State, ∃ p : Nat, ∃ fr : TdmFrame, ∃ v : Int, (s.clocksRun) ∧ (p < 4) ∧ (s.domUp dUMB = true) ∧ (s.regBit (R.UMB_Pn_CFG p) 0 = true) ∧ (v ∈ (s.fed dUMB).frameSlots p fr)) ∧
    (∃ s : State, ∃ p : Nat, (s.clocksRun) ∧ (p < 4) ∧ (s.domUp dUMB = true) ∧ (s.regBit (R.UMB_Pn_CFG p) 0 = true) ∧ (((s.fed dUMB).tdm p).silentSaid = true) ∧ (s.tdm p = (s.fed dUMB).tdm p)) ∧
    (∃ s : State, ∃ p : Nat, ∃ c : Nat, (s.clocksRun) ∧ (p < 4) ∧ (s.domUp dUMB = true) ∧ (s.regBit (R.UMB_Pn_CFG p) 0 = true) ∧ (32 ≤ c) ∧ (c < 40) ∧ (s.chEn c = true) ∧ (s.chSource c ≠ 0) ∧ (s.chDiv c ≠ 0) ∧ (s.paused (s.chOwner c) = true) ∧ ((s.chan c).lastTick + s.chDiv c * 5 ≤ s.now)) ∧
    (∃ s : State, ∃ p : Nat, ∃ c : Nat, (s.clocksRun) ∧ (p < 4) ∧ (s.domUp dUMB = true) ∧ (s.regBit (R.UMB_Pn_CFG p) 0 = true) ∧ (32 ≤ c) ∧ (c < 40) ∧ (s.chEn c = true) ∧ (s.chSource c ≠ 0) ∧ (s.chDiv c ≠ 0) ∧ (s.now < (s.chan c).lastTick + s.chDiv c * 5)) :=
  ⟨⟨(tTdm.setReg (R.UMB_Pn_CFG 1) 0x7B).setReg R.UMB_MCLK_CFG 1, 1, (by unfold State.clocksRun; decide +kernel), by decide +kernel⟩,
   ⟨tTdm, 1, (by unfold State.clocksRun; decide +kernel), by decide +kernel⟩,
   ⟨tTdm, 1, tFrame 256, -1, (by unfold State.clocksRun; decide +kernel), by decide +kernel⟩,
   ⟨tTdm.setTdm 1 { tTdm.tdm 1 with silentSaid := true }, 1, (by unfold State.clocksRun; decide +kernel), by decide +kernel⟩,
   ⟨(tTdm.setReg (R.UMB_CHn_DERIVED 32) 0x6401).setCtx 1 { Ctx.new 0 0 with quiesce := some (tQz 200000000) }, 1, 32, (by unfold State.clocksRun; decide +kernel), by decide +kernel⟩,
   ⟨(tTdm.setReg (R.UMB_CHn_DERIVED 32) 0x6401).setChan 32 { tTdm.chan 32 with lastTick := 200000000 }, 1, 32, (by unfold State.clocksRun; decide +kernel), by decide +kernel⟩⟩

theorem witness_FilterWork_1 :
    (∃ s : State, (s.clocksRun) ∧ (∃ c, ∃ v, ∃ t, ∃ u, (s.domUp dUMB = true) ∧ (s.umber.stopped = false) ∧ (s.takeInput c = some (v, t, u)) ∧ (s.chEn c = true))) ∧
    (∃ s : State, (s.clocksRun) ∧ (∃ c, (s.umber.stopped = true ∨ s.takeInput c = none))) ∧
    (∃ s : State, (s.clocksRun) ∧ (∃ c, ∃ b, ((s.chan c).block = some b) ∧ (b.openedAt + s.regFld (R.UMB_CHn_BLOCK c) 29 16 * 1000000 ≤ s.now))) ∧
    (∃ s : State, (s.clocksRun) ∧ (∃ c, ∃ b, ((s.chan c).block = some b) ∧ (s.now < b.openedAt + s.regFld (R.UMB_CHn_BLOCK c) 29 16 * 1000000))) ∧
    (∃ s : State, (s.clocksRun) ∧ (∃ g, (s.armedAt (umbElem g) = none))) ∧
    (∃ s : State, (s.clocksRun) ∧ (∃ g, ∃ a, (s.armedAt (umbElem g) = some a) ∧ (s.slowest g = none))) :=
  ⟨⟨(tTdm.setChan 32 { tTdm.chan 32 with queue := [(5, st 5)] }), (by unfold State.clocksRun; decide +kernel), 32, _, _, _, by decide +kernel, by decide +kernel, rfl, by decide +kernel⟩,
   ⟨tTdm, (by unfold State.clocksRun; decide +kernel), 32, by decide +kernel⟩,
   ⟨(tTdm.setChan 32 { tTdm.chan 32 with block := some ⟨st 5, 5, 0, 0, [], 100000000⟩ }).setRegFld (R.UMB_CHn_BLOCK 32) 29 16 100, (by unfold State.clocksRun; decide +kernel), 32, _, rfl, by decide +kernel⟩,
   ⟨(tTdm.setChan 32 { tTdm.chan 32 with block := some ⟨st 5, 5, 0, 0, [], 100000001⟩ }).setRegFld (R.UMB_CHn_BLOCK 32) 29 16 100, (by unfold State.clocksRun; decide +kernel), 32, _, rfl, by decide +kernel⟩,
   ⟨tTdm, (by unfold State.clocksRun; decide +kernel), 3, by decide +kernel⟩,
   ⟨({ tTdm with host := { tTdm.host with armed := [⟨1, 1, umbElem 3, [], 5⟩] } } : State), (by unfold State.clocksRun; decide +kernel), 3, _, rfl, by decide +kernel⟩⟩

theorem witness_FilterWork_2 :
    (∃ s : State, (s.clocksRun) ∧ ((s.domUp dUMB = true))) ∧
    (∃ s : State, (s.clocksRun)) ∧
    (∃ s : State, (s.clocksRun) ∧ (s.umber.stopped = true) ∧ (s.stagedBytes .umber < 65536)) ∧
    (∃ s : State, (s.clocksRun) ∧ (s.umber.stopped = false)) ∧
    (∃ s : State, ∃ c : Nat, ∃ v : Int, ∃ t : Stamp, ∃ u : State, (s.clocksRun) ∧ (s.domUp dUMB = true) ∧ (s.umber.stopped = false) ∧ (s.takeInput c = some (v, t, u)) ∧ (s.chEn c = false)) ∧
    (∃ s : State, ∃ g : Nat, ∃ a : Armed, ∃ c : Nat, (s.clocksRun) ∧ (s.armedAt (umbElem g) = some a) ∧ (s.slowest g = some c) ∧ (2000000000 ≤ ((s.now - a.at_ : Nat) : Rat) * s.rateAt c (s.chStages c))) :=
  ⟨⟨tTdm, (by unfold State.clocksRun; decide +kernel), by decide +kernel⟩,
   ⟨tTdm, (by unfold State.clocksRun; decide +kernel)⟩,
   ⟨(tTdm).modUmber fun u => { u with stopped := true }, (by unfold State.clocksRun; decide +kernel), by decide +kernel⟩,
   ⟨tTdm, (by unfold State.clocksRun; decide +kernel), by decide +kernel⟩,
   ⟨(tTdm.setReg (R.UMB_CHn_CFG 32) 0).setChan 32 { tTdm.chan 32 with queue := [(5, st 5)] }, 32, 5, st 5, (((tTdm.setReg (R.UMB_CHn_CFG 32) 0).setChan 32 { tTdm.chan 32 with queue := [(5, st 5)] }).setChan 32 { tTdm.chan 32 with queue := [] }), (by unfold State.clocksRun; decide +kernel), by decide +kernel⟩,
   ⟨({ tTdm with host := { tTdm.host with armed := [⟨1, 1, umbElem 0, [], 5⟩] } } : State), 0, ⟨1, 1, umbElem 0, [], 5⟩, 8, (by unfold State.clocksRun; decide +kernel), by decide +kernel⟩⟩

theorem witness_FilterWork_3 :
    (∃ s : State, ∃ g : Nat, ∃ a : Armed, ∃ c : Nat, (s.clocksRun) ∧ (s.armedAt (umbElem g) = some a) ∧ (s.slowest g = some c) ∧ (((s.now - a.at_ : Nat) : Rat) * s.rateAt c (s.chStages c) < 2000000000)) ∧
    (∃ s : State, ∃ g : Nat, (s.clocksRun) ∧ (∀ c, c < 40 → s.chEn c = true → s.chGroup c ≠ g)) ∧
    (∃ s : State, ∃ g : Nat, ∃ c : Nat, (s.clocksRun) ∧ (c < 40) ∧ (s.chEn c = true) ∧ (s.chGroup c = g)) :=
  ⟨⟨({ tTdm with host := { tTdm.host with armed := [⟨1, 1, umbElem 0, [], 199999999⟩] } } : State), 0, ⟨1, 1, umbElem 0, [], 199999999⟩, 8, (by unfold State.clocksRun; decide +kernel), by decide +kernel⟩,
   ⟨tTdm, 3, (by unfold State.clocksRun; decide +kernel), by decide +kernel⟩,
   ⟨tTdm, 0, 32, (by unfold State.clocksRun; decide +kernel), by decide +kernel⟩⟩

theorem witness_StageArithmetic :
    ∃ cs : List Int, ∃ xs : List Int, ∃ sh : Nat, ((∀ n, -140737488355328 ≤ ((cs.zip xs).take n).foldl (fun a p => a + p.1 * p.2) 0 ∧ ((cs.zip xs).take n).foldl (fun a p => a + p.1 * p.2) 0 ≤ 140737488355327)) :=
  ⟨[65536, 3], [8388607, -5], 16, (by intro n; rcases n with _ | _ | _ | n <;> simp [List.take])⟩

theorem witness_FusionWork_1 :
    (∃ s : State, (s.clocksRun) ∧ (∃ m, ∃ q, (s.viridian.queue = m :: q))) ∧
    (∃ s : State, (s.clocksRun) ∧ (s.viridian.queue = [])) ∧
    (∃ s : State, (s.clocksRun) ∧ (∃ r, (s.ruleEn r = true) ∧ (s.rulePeriodic r = true) ∧ (s.domUp dVIR = true) ∧ (s.armedAt (virElem r) = none) ∧ ((s.rule r).nextOpen ≤ s.now))) ∧
    (∃ s : State, (s.clocksRun) ∧ (∃ r, (s.now < (s.rule r).nextOpen))) ∧
    (∃ s : State, (s.clocksRun) ∧ (let due := fun (w : Win) => decide (w.endT + (nth w.cfg 3 0).toNat * 1000 ≤ s.now); (∃ r, ∃ w, (s.domUp dVIR = true) ∧ (((s.rule r).windows.find? due).isSome = true) ∧ ((s.admitAll.rule r).windows.find? due = some w)))) ∧
    (∃ s : State, (s.clocksRun) ∧ (let due := fun (w : Win) => decide (w.endT + (nth w.cfg 3 0).toNat * 1000 ≤ s.now); (∃ r, ((s.rule r).windows.find? due = none)))) :=
  ⟨⟨(t0).modViridian fun v => { v with queue := [tMem] }, (by unfold State.clocksRun; decide +kernel), _, _, rfl⟩,
   ⟨t0, (by unfold State.clocksRun; decide +kernel), by decide +kernel⟩,
   ⟨((t0.setReg (R.VIR_Rn_CFG 2) 0x1).setReg (R.VIR_Rn_LEN 2) 1000), (by unfold State.clocksRun; decide +kernel), 2, by decide +kernel⟩,
   ⟨((t0.setReg (R.VIR_Rn_CFG 2) 0x1).setReg (R.VIR_Rn_LEN 2) 1000).setRule 2 { RuleDyn.init with nextOpen := 200000001 }, (by unfold State.clocksRun; decide +kernel), 2, by decide +kernel⟩,
   ⟨(t0.setRule 2 { RuleDyn.init with windows := [{ tWin 0x1000 [⟨0, 0, 0⟩, ⟨0, 0, 0⟩] with endT := 200000000 }] }), (by unfold State.clocksRun; decide +kernel), 2, { tWin 0x1000 [⟨0, 0, 0⟩, ⟨0, 0, 0⟩] with endT := 200000000 }, by decide +kernel⟩,
   ⟨(t0.setRule 2 { RuleDyn.init with windows := [{ tWin 0x1000 [⟨0, 0, 0⟩, ⟨0, 0, 0⟩] with endT := 200000001 }] }), (by unfold State.clocksRun; decide +kernel), 2, by decide +kernel⟩⟩

theorem witness_FusionWork_2 :
    (∃ s : State, (s.clocksRun) ∧ (∃ f, ∃ l, (s.viridian.closing = f :: l) ∧ (s.stagedBytes .viridian + 64 + 16 * f.entries.length ≤ 65536))) ∧
    (∃ s : State, (s.clocksRun) ∧ (∃ f, ∃ l, (s.viridian.closing = f :: l) ∧ (65536 < s.stagedBytes .viridian + 64 + 16 * f.entries.length) ∧ (s.viridian.waiting = false))) ∧
    (∃ s : State, (s.clocksRun) ∧ (∃ f, ∃ l, (s.viridian.closing = f :: l) ∧ (65536 < s.stagedBytes .viridian + 64 + 16 * f.entries.length) ∧ (s.viridian.waiting = true))) ∧
    (∃ s : State, (s.clocksRun) ∧ (s.viridian.closing = [])) ∧
    (∃ s : State, (s.clocksRun)) :=
  ⟨⟨(t0).modViridian fun v => { v with closing := [tFused] }, (by unfold State.clocksRun; decide +kernel), _, _, rfl, by decide +kernel⟩,
   ⟨(tStaged .viridian 64 t0).modViridian fun v => { v with closing := [tFused] }, (by unfold State.clocksRun; decide +kernel), _, _, rfl, by decide +kernel⟩,
   ⟨(tStaged .viridian 64 t0).modViridian fun v => { v with closing := [tFused], waiting := true }, (by unfold State.clocksRun; decide +kernel), _, _, rfl, by decide +kernel⟩,
   ⟨t0, (by unfold State.clocksRun; decide +kernel), by decide +kernel⟩,
   ⟨t0, (by unfold State.clocksRun; decide +kernel)⟩⟩

theorem witness_FusionReductionsAndOutcome_1 :
    (∃ l : List (F32 × Int), ∃ k : Nat, (l = [])) ∧
    (∃ l : List (F32 × Int), ∃ k : Nat, (l ≠ [])) ∧
    (∃ l : List (F32 × Int), ∃ k : Nat, (∃ m, ∃ t, (l = m :: t) ∧ (k = 0))) ∧
    (∃ l : List (F32 × Int), ∃ k : Nat, (∃ m, ∃ t, (l = m :: t) ∧ (k = 1))) ∧
    (∃ l : List (F32 × Int), ∃ k : Nat, (∃ m, ∃ t, (l = m :: t) ∧ (k = 2))) ∧
    (∃ l : List (F32 × Int), ∃ k : Nat, (∃ m, ∃ t, (l = m :: t) ∧ (k = 3))) :=
  ⟨⟨[], 0, by decide +kernel⟩,
   ⟨[(0x3F800000, 5), (0x40000000, 3), (0xBF800000, 9)], 0, by decide +kernel⟩,
   ⟨[(0x3F800000, 5), (0x40000000, 3), (0xBF800000, 9)], 0, _, _, rfl, by decide +kernel⟩,
   ⟨[(0x3F800000, 5), (0x40000000, 3), (0xBF800000, 9)], 1, _, _, rfl, by decide +kernel⟩,
   ⟨[(0x3F800000, 5), (0x40000000, 3), (0xBF800000, 9)], 2, _, _, rfl, by decide +kernel⟩,
   ⟨[(0x3F800000, 5), (0x40000000, 3), (0xBF800000, 9)], 3, _, _, rfl, by decide +kernel⟩⟩

theorem witness_FusionReductionsAndOutcome_2 :
    (∃ l : List (F32 × Int), ∃ k : Nat, (∃ m, ∃ t, (l = m :: t) ∧ (k = 4))) ∧
    (∃ l : List (F32 × Int), ∃ k : Nat, (∃ m, ∃ t, (l = m :: t) ∧ (k = 5))) ∧
    (∃ l : List (F32 × Int), ∃ k : Nat, (∃ m, ∃ t, (l = m :: t) ∧ (k = 6))) ∧
    (∃ l : List (F32 × Int), ∃ k : Nat, (∃ m, ∃ t, (l = m :: t) ∧ (k = 7))) ∧
    (∃ s : State, ∃ r : Nat, ∃ w : Win, (bit (nth w.cfg 0 0) 3 = false) ∧ (w.entries.length = cfgInputs w.cfg) ∧ (let vals := (List.range (cfgInputs w.cfg)).map fun i => (nth w.entries i ⟨0, 0, 0⟩).value (cfgReduce w.cfg i); ((∀ e ∈ w.entries, e.count = 0)))) ∧
    (∃ s : State, ∃ r : Nat, ∃ w : Win, (bit (nth w.cfg 0 0) 3 = false) ∧ (w.entries.length = cfgInputs w.cfg) ∧ (let vals := (List.range (cfgInputs w.cfg)).map fun i => (nth w.entries i ⟨0, 0, 0⟩).value (cfgReduce w.cfg i); ((∃ e ∈ w.entries, e.count ≠ 0)) ∧ (bit (nth w.cfg 0 0) 15 = true) ∧ ((∃ e ∈ w.entries, e.count = 0)))) :=
  ⟨⟨[(0x3F800000, 5), (0x40000000, 3), (0xBF800000, 9)], 4, _, _, rfl, by decide +kernel⟩,
   ⟨[(0x3F800000, 5), (0x40000000, 3), (0xBF800000, 9)], 5, _, _, rfl, by decide +kernel⟩,
   ⟨[(0x3F800000, 5), (0x40000000, 3), (0xBF800000, 9)], 6, _, _, rfl, by decide +kernel⟩,
   ⟨[(0x3F800000, 5), (0x40000000, 3), (0xBF800000, 9)], 7, _, _, rfl, by decide +kernel⟩,
   ⟨t0, 2, tWin 0x1000 [⟨0, 0, 0⟩, ⟨0, 0, 0⟩], by decide +kernel⟩,
   ⟨t0, 2, tWin 0x9080 [⟨1, 0, 0⟩, ⟨0, 0, 0⟩], by decide +kernel⟩⟩

theorem witness_FusionReductionsAndOutcome_3 :
    (∃ s : State, ∃ r : Nat, ∃ w : Win, (bit (nth w.cfg 0 0) 3 = false) ∧ (w.entries.length = cfgInputs w.cfg) ∧ (let vals := (List.range (cfgInputs w.cfg)).map fun i => (nth w.entries i ⟨0, 0, 0⟩).value (cfgReduce w.cfg i); ((∃ e ∈ w.entries, e.count ≠ 0)) ∧ (fld (nth w.cfg 0 0) 7 6 ≤ 1) ∧ (w.newest = none) ∧ (w.oldest = none))) ∧
    (∃ s : State, ∃ r : Nat, ∃ w : Win, (bit (nth w.cfg 0 0) 3 = false) ∧ (w.entries.length = cfgInputs w.cfg) ∧ (let vals := (List.range (cfgInputs w.cfg)).map fun i => (nth w.entries i ⟨0, 0, 0⟩).value (cfgReduce w.cfg i); ((∃ e ∈ w.entries, e.count ≠ 0)) ∧ (bit (nth w.cfg 0 0) 15 = false) ∧ (2 ≤ fld (nth w.cfg 0 0) 7 6) ∧ (fld (nth w.cfg 0 0) 5 4 = 0))) ∧
    (∃ s : State, ∃ r : Nat, ∃ w : Win, (bit (nth w.cfg 0 0) 3 = false) ∧ (w.entries.length = cfgInputs w.cfg) ∧ (let vals := (List.range (cfgInputs w.cfg)).map fun i => (nth w.entries i ⟨0, 0, 0⟩).value (cfgReduce w.cfg i); (let trig := F.le (nth w.cfg 5 0) (scoreOf w.cfg vals); ((∃ e ∈ w.entries, e.count ≠ 0)) ∧ (bit (nth w.cfg 0 0) 15 = false) ∧ (2 ≤ fld (nth w.cfg 0 0) 7 6) ∧ (fld (nth w.cfg 0 0) 5 4 = 1) ∧ (trig = false)))) ∧
    (∃ l : List (F32 × Int), ∃ m : F32 × Int, (m ∈ l)) :=
  ⟨⟨t0, 2, tWin 0x1040 [⟨1, 0, 0⟩, ⟨1, 0, 0⟩], by decide +kernel⟩,
   ⟨t0, 2, tWin 0x1080 [⟨1, 0, 0⟩, ⟨0, 0, 0⟩], by decide +kernel⟩,
   ⟨t0, 2, { tWin 0x1090 [⟨0, 0, 0⟩, ⟨1, 0, 0⟩] with cfg := (tWin 0x1090 []).cfg.set 5 0x40000000 }, by decide +kernel⟩,
   ⟨[(0x3F800000, 5), (0x40000000, 3)], (0x40000000, 3), by decide +kernel⟩⟩

theorem witness_ModelsLoadAndRun_1 :
    (∃ s : State, ∃ p : Nat, ∃ l : Latch, (∃ d, ∃ b, (s.latch p = some l) ∧ (l.stage = .resumed (some d)) ∧ (l.cmd.opcode = 0x0901) ∧ (u64 l.cmd.block 0 % 64 = 0) ∧ (512 ≤ u64 l.cmd.block 8) ∧ (u64 l.cmd.block 8 ≤ 4294967296) ∧ (s.dmaRead l.cmd.path (u64 l.cmd.block 0) (u64 l.cmd.block 8) d = some b) ∧ (packageCheck b (u64 l.cmd.block 8) = .ok ()) ∧ (s.freeModel = none))) ∧
    (∃ s : State, ∃ p : Nat, ∃ l : Latch, (∃ d, ∃ b, (s.latch p = some l) ∧ (l.stage = .resumed (some d)) ∧ (l.cmd.opcode = 0x0901) ∧ (u64 l.cmd.block 0 % 64 = 0) ∧ (512 ≤ u64 l.cmd.block 8) ∧ (u64 l.cmd.block 8 ≤ 4294967296) ∧ (s.dmaRead l.cmd.path (u64 l.cmd.block 0) (u64 l.cmd.block 8) d = some b) ∧ (∃ h, ∃ t, ∃ a, (packageCheck b (u64 l.cmd.block 8) = .ok ()) ∧ (s.freeModel = some h) ∧ (s.allocDram (u64 l.cmd.block 8) l.cmd.ctx exModel h = some (t, a))))) ∧
    (∃ s : State, ∃ p : Nat, ∃ l : Latch, (s.turn p 0x0901 l) ∧ (u64 l.cmd.block 0 % 64 = 0) ∧ (512 ≤ u64 l.cmd.block 8) ∧ (u64 l.cmd.block 8 ≤ 4294967296)) ∧
    (∃ s : State, ∃ p : Nat, ∃ l : Latch, (∃ d, ∃ b, (s.latch p = some l) ∧ (l.stage = .resumed (some d)) ∧ (l.cmd.opcode = 0x0901) ∧ (u64 l.cmd.block 0 % 64 = 0) ∧ (512 ≤ u64 l.cmd.block 8) ∧ (u64 l.cmd.block 8 ≤ 4294967296) ∧ (s.dmaRead l.cmd.path (u64 l.cmd.block 0) (u64 l.cmd.block 8) d = some b) ∧ (∃ e, (packageCheck b (u64 l.cmd.block 8) = .error e)))) ∧
    (∃ s : State, ∃ p : Nat, ∃ l : Latch, ∃ x : Bind, (s.bind? (u16 l.cmd.block 0) = some x) ∧ (x.ctx = l.cmd.ctx) ∧ (x.kind = 0) ∧ (s.leads (u16 l.cmd.block 0) = true) ∧ (u16 l.cmd.block 0x0A = 0) ∧ (u32 l.cmd.block 0x0C ≤ 999999999) ∧ (u32 l.cmd.block 0x14 < 0x100000) ∧ (u64 l.cmd.block 0x18 % 64 = 0) ∧ (s.turn p 0x0904 l) ∧ (2 ≤ s.pendingOf (u16 l.cmd.block 0))) ∧
    (∃ s : State, ∃ p : Nat, ∃ l : Latch, ∃ x : Bind, ∃ m : Model, (s.bind? (u16 l.cmd.block 0) = some x) ∧ (x.ctx = l.cmd.ctx) ∧ (x.kind = 0) ∧ (s.leads (u16 l.cmd.block 0) = true) ∧ (u16 l.cmd.block 0x0A = 0) ∧ (u32 l.cmd.block 0x0C ≤ 999999999) ∧ (u32 l.cmd.block 0x14 < 0x100000) ∧ (u64 l.cmd.block 0x18 % 64 = 0) ∧ (s.turn p 0x0904 l) ∧ (s.pendingOf (u16 l.cmd.block 0) < 2) ∧ (s.bindLost (u16 l.cmd.block 0) = false) ∧ (s.model? x.model = some m)) :=
  ⟨⟨on (lt 0x0901 (blk [(8, 0), (8, 512)]) (.resumed (some tPkg))) (tDma.modIndigo fun i => { i with models := (List.range 64).map fun k => (k + 1, tMod) }), 0, (lt 0x0901 (blk [(8, 0), (8, 512)]) (.resumed (some tPkg))), tPkg, tPkg, by decide +kernel⟩,
   ⟨on (lt 0x0901 (blk [(8, 0), (8, 512)]) (.resumed (some tPkg))) tDma, 0, (lt 0x0901 (blk [(8, 0), (8, 512)]) (.resumed (some tPkg))), tPkg, tPkg, by decide +kernel, by decide +kernel, by decide +kernel, by decide +kernel, by decide +kernel, by decide +kernel, by decide +kernel, 1, ((on (lt 0x0901 (blk [(8, 0), (8, 512)]) (.resumed (some tPkg))) tDma).allocDram 512 1 exModel 1 |>.getD (t0, 0)).1, dramBase + 0x4000000, by decide +kernel⟩,
   ⟨on (lt 0x0901 (blk [(8, 0), (8, 512)]) .ready) t0, 0, (lt 0x0901 (blk [(8, 0), (8, 512)]) .ready), ⟨rfl, rfl, rfl, by decide +kernel⟩, by decide +kernel⟩,
   ⟨on (lt 0x0901 (blk [(8, 0), (8, 512)]) (.resumed (some (List.replicate 512 0)))) tDma, 0, (lt 0x0901 (blk [(8, 0), (8, 512)]) (.resumed (some (List.replicate 512 0)))), List.replicate 512 0, List.replicate 512 0, by decide +kernel, by decide +kernel, by decide +kernel, by decide +kernel, by decide +kernel, by decide +kernel, by decide +kernel, badParam 0, by decide +kernel⟩,
   ⟨on (lt 0x0904 (blk [(2, 1), (22, 0), (8, 0)])) (tIdg.modIndigo fun i => { i with pendingRuns := [tRunI, tRunI] }), 0, lt 0x0904 (blk [(2, 1), (22, 0), (8, 0)]), tBind, by decide +kernel, by decide +kernel, by decide +kernel, by decide +kernel, by decide +kernel, by decide +kernel, by decide +kernel, by decide +kernel, ⟨rfl, rfl, rfl, by decide +kernel⟩, by decide +kernel⟩,
   ⟨on (lt 0x0904 (blk [(2, 1), (22, 0), (8, 0)])) tIdg, 0, lt 0x0904 (blk [(2, 1), (22, 0), (8, 0)]), tBind, tMod, by decide +kernel, by decide +kernel, by decide +kernel, by decide +kernel, by decide +kernel, by decide +kernel, by decide +kernel, by decide +kernel, ⟨rfl, rfl, rfl, by decide +kernel⟩, by decide +kernel⟩⟩

theorem witness_ModelsLoadAndRun_2 :
    ∃ s : State, ∃ p : Nat, ∃ l : Latch, ∃ x : Bind, ∃ m : Model, ∃ d : Bytes, ∃ t : Bytes, (s.bind? (u16 l.cmd.block 0) = some x) ∧ (x.ctx = l.cmd.ctx) ∧ (x.kind = 0) ∧ (s.leads (u16 l.cmd.block 0) = true) ∧ (u16 l.cmd.block 0x0A = 0) ∧ (u32 l.cmd.block 0x0C ≤ 999999999) ∧ (u32 l.cmd.block 0x14 < 0x100000) ∧ (u64 l.cmd.block 0x18 % 64 = 0) ∧ (s.latch p = some l) ∧ (l.stage = .resumed (some d)) ∧ (l.cmd.opcode = 0x0904) ∧ (s.pendingOf (u16 l.cmd.block 0) < 2) ∧ (s.bindLost (u16 l.cmd.block 0) = false) ∧ (s.model? x.model = some m) ∧ (s.dmaRead l.cmd.path (u64 l.cmd.block 0x18) (elemBytes m.inFmt (m.positions * m.features)) (some d) = some t) :=
  ⟨on (lt 0x0904 (blk [(2, 1), (22, 0), (8, 0)]) (.resumed (some [1, 2]))) (tIdg.setFunc 0 { Func.init with bme := true, dState := 0 }), 0, lt 0x0904 (blk [(2, 1), (22, 0), (8, 0)]) (.resumed (some [1, 2])), tBind, tMod, [1, 2], [1, 2], by decide +kernel⟩

theorem witness_RunsReplaysAndStalls_1 :
    (∃ s : State, (s.clocksRun) ∧ (∃ i, ∃ q, (s.indigo.inq = i :: q))) ∧
    (∃ s : State, (s.clocksRun) ∧ (s.indigo.inq = [])) ∧
    (∃ s : State, (s.clocksRun) ∧ (∃ b, (s.running b = true ∨ s.takeRun b = none))) ∧
    (∃ s : State, (s.clocksRun) ∧ (∃ b, (s.indigo.inflight.find? (fun r => r.binding = b) = none))) ∧
    (∃ s : State, (s.clocksRun) ∧ (s.indigo.windowAt < s.now / 1000000 * 1000000)) ∧
    (∃ s : State, (s.clocksRun) ∧ (s.now / 1000000 * 1000000 ≤ s.indigo.windowAt)) :=
  ⟨⟨(tIdg.modIndigo fun i => { i with inq := [(⟨0, 0, 1, [], st 7, 7, 0, 0, 0⟩ : BindIn)] }), (by unfold State.clocksRun; decide +kernel), (⟨0, 0, 1, [], st 7, 7, 0, 0, 0⟩ : BindIn), [], by decide +kernel⟩,
   ⟨tIdg, (by unfold State.clocksRun; decide +kernel), by decide +kernel⟩,
   ⟨tIdg, (by unfold State.clocksRun; decide +kernel), 1, by decide +kernel⟩,
   ⟨tIdg, (by unfold State.clocksRun; decide +kernel), 1, by decide +kernel⟩,
   ⟨t0, (by unfold State.clocksRun; decide +kernel), by decide +kernel⟩,
   ⟨(t0.modIndigo fun i => { i with windowAt := 200000000 }), (by unfold State.clocksRun; decide +kernel), by decide +kernel⟩⟩

theorem witness_RunsReplaysAndStalls_2 :
    (∃ s : State, ∃ b : Nat, ∃ r : Run, ∃ t : State, ∃ x : Bind, ∃ m : Model, (s.clocksRun) ∧ (s.running b = false) ∧ (s.bind? b = some x) ∧ (s.tilesBusy b x.tiles = false) ∧ (s.takeRun b = some (r, t)) ∧ (s.model? x.model = some m) ∧ (let shut := (quadsOf x.tiles).filter s.quadShut; (let woken := ∀ d ∈ shut, s.domOnDemand d = true ∧ s.ivory.forced = false; woken ∧ (∀ d ∈ shut, s.domUp d = false)))) ∧
    (∃ s : State, ∃ b : Nat, ∃ r : Run, ∃ t : State, ∃ x : Bind, ∃ m : Model, (s.clocksRun) ∧ (s.running b = false) ∧ (s.bind? b = some x) ∧ (s.tilesBusy b x.tiles = false) ∧ (s.takeRun b = some (r, t)) ∧ (s.model? x.model = some m) ∧ (let shut := (quadsOf x.tiles).filter s.quadShut; (let woken := ∀ d ∈ shut, s.domOnDemand d = true ∧ s.ivory.forced = false; woken ∧ (∃ d ∈ shut, s.domUp d = true)))) ∧
    (∃ s : State, ∃ b : Nat, ∃ r : Run, ∃ t : State, ∃ x : Bind, ∃ m : Model, (s.clocksRun) ∧ (s.running b = false) ∧ (s.bind? b = some x) ∧ (s.tilesBusy b x.tiles = false) ∧ (s.takeRun b = some (r, t)) ∧ (s.model? x.model = some m) ∧ (let shut := (quadsOf x.tiles).filter s.quadShut; (let woken := ∀ d ∈ shut, s.domOnDemand d = true ∧ s.ivory.forced = false; ¬ woken))) ∧
    (∃ s : State, ∃ b : Nat, ∃ r : Run, ∃ x : Bind, ∃ m : Model, (s.clocksRun) ∧ (s.indigo.inflight.find? (fun r => r.binding = b) = some r) ∧ (s.bind? b = some x) ∧ (s.model? x.model = some m) ∧ (x.poison = true ∨ s.canFinish b m = true)) ∧
    (∃ s : State, ∃ b : Nat, ∃ r : Run, ∃ x : Bind, ∃ m : Model, (s.clocksRun) ∧ (s.indigo.inflight.find? (fun r => r.binding = b) = some r) ∧ (s.bind? b = some x) ∧ (s.model? x.model = some m) ∧ (x.poison = false) ∧ (s.canFinish b m = false)) ∧
    (∃ s : State, ∃ t : Nat, (s.clocksRun) ∧ (t < 16)) :=
  ⟨⟨(tIdg.modIndigo fun i => { i with pendingRuns := [tRunI] }).setReg (R.IVR_DOMd_CFG 8) 1 |>.setReg R.IVR_DOM_UP 0xFEFF, 1, tRunI, (tIdg.modIndigo fun i => { i with pendingRuns := [] }).setReg (R.IVR_DOMd_CFG 8) 1 |>.setReg R.IVR_DOM_UP 0xFEFF, tBind, tMod, (by unfold State.clocksRun; decide +kernel), by decide +kernel⟩,
   ⟨(tIdg.modIndigo fun i => { i with pendingRuns := [tRunI] }).setReg (R.IVR_DOMd_CFG 8) 1 |>.setReg R.IVR_GATE_CLOSED 0x100, 1, tRunI, (tIdg.modIndigo fun i => { i with pendingRuns := [] }).setReg (R.IVR_DOMd_CFG 8) 1 |>.setReg R.IVR_GATE_CLOSED 0x100, tBind, tMod, (by unfold State.clocksRun; decide +kernel), by decide +kernel⟩,
   ⟨(tIdg.modIndigo fun i => { i with pendingRuns := [tRunI] }).setReg (R.IVR_DOMd_CFG 8) 1 |>.setReg R.IVR_DOM_UP 0xFEFF |>.setReg (R.IVR_DOMd_CFG 8) 0, 1, tRunI, (tIdg.modIndigo fun i => { i with pendingRuns := [] }).setReg (R.IVR_DOMd_CFG 8) 1 |>.setReg R.IVR_DOM_UP 0xFEFF |>.setReg (R.IVR_DOMd_CFG 8) 0, tBind, tMod, (by unfold State.clocksRun; decide +kernel), by decide +kernel⟩,
   ⟨tIdg.modIndigo fun i => { i with inflight := [tRunI] }, 1, tRunI, tBind, tMod, (by unfold State.clocksRun; decide +kernel), by decide +kernel⟩,
   ⟨tIdg.modIndigo fun i => { i with inflight := [tRunI], group := [(1, ⟨0, ⟨[], [], [], 0, [], [], []⟩, 0, 0, [], none⟩)] }, 1, tRunI, tBind, tMod, (by unfold State.clocksRun; decide +kernel), by decide +kernel⟩,
   ⟨t0, 15, (by unfold State.clocksRun; decide +kernel), by decide +kernel⟩⟩

theorem witness_RunsReplaysAndStalls_3 :
    (∃ s : State, ∃ t : Nat, ∃ k : Nat, (s.clocksRun) ∧ (t < 16) ∧ (s.tileLive t = true) ∧ (s.regN (R.IDG_APX_Tn_WIN_WAVES t) * k < s.regN (R.IDG_APX_Tn_WIN_REPLAYS t) * 10000) ∧ (s.regN (R.IDG_APX_Tn_WIN_WAVES t) ≠ 0)) ∧
    (∃ s : State, ∃ t : Nat, ∃ k : Nat, (s.clocksRun) ∧ (t < 16) ∧ (s.tileLive t = false ∨ s.regN (R.IDG_APX_Tn_WIN_REPLAYS t) * 10000 ≤ s.regN (R.IDG_APX_Tn_WIN_WAVES t) * k ∨ s.regN (R.IDG_APX_Tn_WIN_WAVES t) = 0)) ∧
    (∃ s : State, ∃ t : Nat, ∃ r : Run, (s.clocksRun) ∧ (s.indigo.inflight.find? (fun r => (s.bindTiles r.binding).toNat.testBit t) = some r)) ∧
    (∃ s : State, ∃ t : Nat, (s.clocksRun) ∧ (s.indigo.inflight.find? (fun r => (s.bindTiles r.binding).toNat.testBit t) = none)) :=
  ⟨⟨((t0.setReg (R.IDG_APX_Tn_WIN_WAVES 3) 1000).setReg (R.IDG_APX_Tn_WIN_REPLAYS 3) 200).setReg R.IDG_POINT 4, 3, 100, (by unfold State.clocksRun; decide +kernel), by decide +kernel⟩,
   ⟨((t0.setReg (R.IDG_APX_Tn_WIN_WAVES 3) 20000).setReg (R.IDG_APX_Tn_WIN_REPLAYS 3) 200).setReg R.IDG_POINT 4, 3, 100, (by unfold State.clocksRun; decide +kernel), by decide +kernel⟩,
   ⟨tIdg.modIndigo fun i => { i with inflight := [tRunI] }, 0, tRunI, (by unfold State.clocksRun; decide +kernel), by decide +kernel⟩,
   ⟨tIdg.modIndigo fun i => { i with inflight := [tRunI] }, 15, (by unfold State.clocksRun; decide +kernel), by decide +kernel⟩⟩

theorem witness_PathOfARun :
    (∃ x : Bind, ∃ d : Nat, ∃ e : BitVec 16, (x.predEnable = false ∨ x.verify = true ∨ x.mustFull = true ∨ x.lastInput = none ∨ x.refreshK ≤ x.sinceFull + 1)) ∧
    (∃ x : Bind, ∃ d : Nat, ∃ e : BitVec 16, (x.predEnable = true) ∧ (x.verify = false) ∧ (x.mustFull = false) ∧ (x.lastInput.isSome = true) ∧ (x.sinceFull + 1 < x.refreshK) ∧ (∃ z, (x.last = some z) ∧ (d < x.tSkip) ∧ (x.skips < x.maxSkips) ∧ (z.tov.epoch = e))) ∧
    (∃ x : Bind, ∃ d : Nat, ∃ e : BitVec 16, (x.predEnable = true) ∧ (x.verify = false) ∧ (x.mustFull = false) ∧ (x.lastInput.isSome = true) ∧ (x.sinceFull + 1 < x.refreshK) ∧ ((x.tSkip ≤ d ∨ x.maxSkips ≤ x.skips ∨ ∀ z, x.last = some z → z.tov.epoch ≠ e)) ∧ (d < x.tDelta)) ∧
    (∃ x : Bind, ∃ d : Nat, ∃ e : BitVec 16, (x.predEnable = true) ∧ (x.verify = false) ∧ (x.mustFull = false) ∧ (x.lastInput.isSome = true) ∧ (x.sinceFull + 1 < x.refreshK) ∧ ((x.tSkip ≤ d ∨ x.maxSkips ≤ x.skips ∨ ∀ z, x.last = some z → z.tov.epoch ≠ e)) ∧ (x.tDelta ≤ d)) ∧
    (∃ x : Bind, ∃ d : Nat, ∃ e : BitVec 16, (∃ m : Model, ∃ v : F32, (m.inFmt ≤ 1))) ∧
    (∃ x : Bind, ∃ d : Nat, ∃ e : BitVec 16, (∃ m : Model, ∃ v : F32, (m.inFmt ≤ 1) ∧ (F.isNan (F.add (F.div v m.inScale) (F.ofInt m.inZp)) = true))) :=
  ⟨⟨tBind, 4, 0, by decide +kernel⟩,
   ⟨{ tBind with predEnable := true, mustFull := false, lastInput := some [1, 2], tSkip := 5, tDelta := 9, last := some ⟨st 5, 0, 5, []⟩ }, 4, 0, by decide +kernel, by decide +kernel, by decide +kernel, by decide +kernel, by decide +kernel, ⟨st 5, 0, 5, []⟩, by decide +kernel⟩,
   ⟨{ tBind with predEnable := true, mustFull := false, lastInput := some [1, 2], tSkip := 5, tDelta := 9, last := some ⟨st 5, 0, 5, []⟩ }, 5, 0, by decide +kernel⟩,
   ⟨{ tBind with predEnable := true, mustFull := false, lastInput := some [1, 2], tSkip := 5, tDelta := 9, last := some ⟨st 5, 0, 5, []⟩ }, 9, 0, by decide +kernel⟩,
   ⟨{ tBind with predEnable := true, mustFull := false, lastInput := some [1, 2], tSkip := 5, tDelta := 9, last := some ⟨st 5, 0, 5, []⟩ }, 4, 0, tMod, 0x40000000, by decide +kernel⟩,
   ⟨{ tBind with predEnable := true, mustFull := false, lastInput := some [1, 2], tSkip := 5, tDelta := 9, last := some ⟨st 5, 0, 5, []⟩ }, 4, 0, tMod, 0x7FC00000, by decide +kernel⟩⟩

theorem witness_GroupsAndTealLinks_1 :
    (∃ s : State, ∃ p : Nat, ∃ l : Latch, (s.turn p 0x1201 l) ∧ (s.reach dTEAL = .ok ()) ∧ (1 ≤ u8 l.cmd.block 0) ∧ (2 ≤ u8 l.cmd.block 1) ∧ (u8 l.cmd.block 1 ≤ 4) ∧ (u8 l.cmd.block 2 < u8 l.cmd.block 1) ∧ (u8 l.cmd.block 3 = 0) ∧ (10 ≤ u32 l.cmd.block 4) ∧ (u32 l.cmd.block 4 ≤ 10000) ∧ (s.tealState = 2)) ∧
    (∃ s : State, ∃ p : Nat, ∃ l : Latch, (s.turn p 0x1201 l) ∧ (s.reach dTEAL = .ok ()) ∧ (1 ≤ u8 l.cmd.block 0) ∧ (2 ≤ u8 l.cmd.block 1) ∧ (u8 l.cmd.block 1 ≤ 4) ∧ (u8 l.cmd.block 2 < u8 l.cmd.block 1) ∧ (u8 l.cmd.block 3 = 0) ∧ (10 ≤ u32 l.cmd.block 4) ∧ (u32 l.cmd.block 4 ≤ 10000) ∧ (s.tealState = 3)) ∧
    (∃ s : State, ∃ p : Nat, ∃ l : Latch, (∃ q, ∃ dl, (s.indigo.forming = some (q, dl)) ∧ (dl ≤ s.now))) ∧
    (∃ s : State, ∃ p : Nat, ∃ l : Latch, (∃ q, ∃ dl, (s.indigo.forming = some (q, dl)) ∧ (s.now < dl))) ∧
    (∃ s : State, ∃ p : Nat, ∃ l : Latch, (s.indigo.forming = none)) ∧
    (∃ s : State, ∃ p : Nat, ∃ l : Latch, (s.indigo.bindWait.get? p = none)) :=
  ⟨⟨on (lt 0x1201 (blk [(1, 5), (1, 2), (1, 0), (1, 0), (4, 10)])) (t0.setReg R.TEAL_STATE 2), 0, (lt 0x1201 (blk [(1, 5), (1, 2), (1, 0), (1, 0), (4, 10)])), ⟨rfl, rfl, rfl, by decide +kernel⟩, by decide +kernel⟩,
   ⟨on (lt 0x1201 (blk [(1, 5), (1, 2), (1, 0), (1, 0), (4, 10)])) (t0.setReg R.TEAL_STATE 3), 0, (lt 0x1201 (blk [(1, 5), (1, 2), (1, 0), (1, 0), (4, 10)])), ⟨rfl, rfl, rfl, by decide +kernel⟩, by decide +kernel⟩,
   ⟨(t0.modIndigo fun i => { i with forming := some (0, 200000000) }), 0, (lt 0x1201 (blk [(1, 5), (1, 2), (1, 0), (1, 0), (4, 10)])), 0, 200000000, by decide +kernel⟩,
   ⟨(t0.modIndigo fun i => { i with forming := some (0, 200000001) }), 0, (lt 0x1201 (blk [(1, 5), (1, 2), (1, 0), (1, 0), (4, 10)])), 0, 200000001, by decide +kernel⟩,
   ⟨t0, 0, (lt 0x1201 (blk [(1, 5), (1, 2), (1, 0), (1, 0), (4, 10)])), by decide +kernel⟩,
   ⟨t0, 0, (lt 0x1201 (blk [(1, 5), (1, 2), (1, 0), (1, 0), (4, 10)])), by decide +kernel⟩⟩

theorem witness_GroupsAndTealLinks_2 :
    (∃ s : State, ∃ p : Nat, (p < 2) ∧ (s.domUp dTEAL = true) ∧ (s.linkUp p = false)) ∧
    (∃ s : State, ∃ p : Nat, (p < 2) ∧ (s.linkUp p = true)) ∧
    (∃ s : State, ∃ p : Nat, (p < 2) ∧ (s.linkUp p = false)) ∧
    (∃ s : State, ∃ p : Nat, (p < 2) ∧ (∃ t, (s.indigo.retrainAt.get? p = some t) ∧ (t + 1000000 ≤ s.now))) ∧
    (∃ s : State, ∃ p : Nat, (p < 2) ∧ (∃ t, (s.indigo.retrainAt.get? p = some t) ∧ (s.now < t + 1000000))) ∧
    (∃ s : State, ∃ p : Nat, ∃ l : Latch, (s.turn p 0x1201 l) ∧ (s.reach dTEAL = .ok ()) ∧ (1 ≤ u8 l.cmd.block 0) ∧ (2 ≤ u8 l.cmd.block 1) ∧ (u8 l.cmd.block 1 ≤ 4) ∧ (u8 l.cmd.block 2 < u8 l.cmd.block 1) ∧ (u8 l.cmd.block 3 = 0) ∧ (10 ≤ u32 l.cmd.block 4) ∧ (u32 l.cmd.block 4 ≤ 10000) ∧ (s.tealState = 0) ∧ (let t := (s.touch dTEAL).setReg R.TEAL_CTRL (w32 (u8 l.cmd.block 0 + u8 l.cmd.block 1 * 0x100 + u8 l.cmd.block 2 * 0x800 + u8 l.cmd.block 3 * 0x4000)); (let u := ((t.setReg R.TEAL_STATE 1).modIndigo fun i => { i with forming := some (l.cmd.path, s.now + u32 l.cmd.block 4 * 1000000) }).tealAll 0 (.forming (u8 l.cmd.block 0) (u8 l.cmd.block 1)); u.allFormed = false))) :=
  ⟨⟨tTeal 2 0, 1, by decide +kernel⟩,
   ⟨tTeal 2 2, 1, by decide +kernel⟩,
   ⟨t0, 1, by decide +kernel⟩,
   ⟨((tTeal 2 1).modIndigo fun i => { i with retrainAt := [(1, 199000000)] }), 1, by decide +kernel, 199000000, by decide +kernel⟩,
   ⟨((tTeal 2 1).modIndigo fun i => { i with retrainAt := [(1, 199000001)] }), 1, by decide +kernel, 199000001, by decide +kernel⟩,
   ⟨on (lt 0x1201 (blk [(1, 5), (1, 2), (1, 0), (1, 0), (4, 10)])) (t0.modIndigo fun i => { i with heard := [] }), 0, lt 0x1201 (blk [(1, 5), (1, 2), (1, 0), (1, 0), (4, 10)]), ⟨rfl, rfl, rfl, by decide +kernel⟩, by decide +kernel⟩⟩

theorem witness_GroupsAndTealLinks_3 :
    (∃ s : State, ∃ p : Nat, ∃ l : Latch, (s.turn p 0x1201 l) ∧ (s.reach dTEAL = .ok ()) ∧ (1 ≤ u8 l.cmd.block 0) ∧ (2 ≤ u8 l.cmd.block 1) ∧ (u8 l.cmd.block 1 ≤ 4) ∧ (u8 l.cmd.block 2 < u8 l.cmd.block 1) ∧ (u8 l.cmd.block 3 = 0) ∧ (10 ≤ u32 l.cmd.block 4) ∧ (u32 l.cmd.block 4 ≤ 10000) ∧ (s.tealState = 0) ∧ (let t := (s.touch dTEAL).setReg R.TEAL_CTRL (w32 (u8 l.cmd.block 0 + u8 l.cmd.block 1 * 0x100 + u8 l.cmd.block 2 * 0x800 + u8 l.cmd.block 3 * 0x4000)); (let u := ((t.setReg R.TEAL_STATE 1).modIndigo fun i => { i with forming := some (l.cmd.path, s.now + u32 l.cmd.block 4 * 1000000) }).tealAll 0 (.forming (u8 l.cmd.block 0) (u8 l.cmd.block 1)); u.allFormed = true))) ∧
    (∃ s : State, ∃ p : Nat, ∃ l : Latch, ∃ t : Nat, (s.indigo.bindWait.get? p = some t) ∧ (s.latch p = some l) ∧ (l.stage = .yielded) ∧ (s.indigo.bound.foldl (fun k e => k.min e.2.2) t + 100000000 ≤ s.now)) ∧
    (∃ s : State, ∃ p : Nat, ∃ l : Latch, ∃ t : Nat, (s.indigo.bindWait.get? p = some t) ∧ (s.latch p = some l) ∧ (l.stage = .yielded) ∧ (s.now < s.indigo.bound.foldl (fun k e => k.min e.2.2) t + 100000000)) ∧
    (∃ s : State, ∃ p : Nat, (p < 2) ∧ (s.indigo.retrainAt.get? p = none)) ∧
    (∃ s : State, ∃ p : Nat, ∃ f : TealFrame, (p < 2) ∧ (s.clocksRun) ∧ (s.linkUp p = true) ∧ (s.domUp dTEAL = true) ∧ (f.crcOk = false)) ∧
    (∃ s : State, ∃ p : Nat, ∃ f : TealFrame, (p < 2) ∧ (s.clocksRun) ∧ (s.linkUp p = true) ∧ (s.domUp dTEAL = true) ∧ (f.crcOk = true) ∧ ((s.fed dTEAL).tealState ≠ 0) ∧ (f.dest ≠ (s.fed dTEAL).groupIndex)) :=
  ⟨⟨on (lt 0x1201 (blk [(1, 5), (1, 2), (1, 0), (1, 0), (4, 10)])) (t0.modIndigo fun i => { i with heard := [(1, (5, 2))] }), 0, lt 0x1201 (blk [(1, 5), (1, 2), (1, 0), (1, 0), (4, 10)]), ⟨rfl, rfl, rfl, by decide +kernel⟩, by decide +kernel⟩,
   ⟨on (lt 0x0903 [] .yielded) (t0.modIndigo fun i => { i with bindWait := [(0, 150000000)], bound := [(1, (9, 100000000))] }), 0, lt 0x0903 [] .yielded, 150000000, by decide +kernel⟩,
   ⟨on (lt 0x0903 [] .yielded) (t0.modIndigo fun i => { i with bindWait := [(0, 100000001)] }), 0, lt 0x0903 [] .yielded, 100000001, by decide +kernel⟩,
   ⟨t0, 1, by decide +kernel⟩,
   ⟨tTeal 2 2, 1, (⟨false, 1, 0, 0, none⟩ : TealFrame), by decide +kernel, (by unfold State.clocksRun; decide +kernel), by decide +kernel⟩,
   ⟨tTeal 2 2, 1, (⟨true, 1, 1, 0, none⟩ : TealFrame), by decide +kernel, (by unfold State.clocksRun; decide +kernel), by decide +kernel⟩⟩

theorem witness_GroupsAndTealLinks_4 :
    (∃ s : State, ∃ p : Nat, ∃ f : TealFrame, (p < 2) ∧ (s.clocksRun) ∧ (s.linkUp p = true) ∧ (s.domUp dTEAL = true) ∧ (f.crcOk = true) ∧ ((s.fed dTEAL).tealState = 0 ∨ f.dest = (s.fed dTEAL).groupIndex)) ∧
    (∃ s : State, ∃ p : Nat, (p < 2) ∧ (s.clocksRun) ∧ (s.linkUp p = false)) ∧
    (∃ s : State, ∃ p : Nat, (p < 2) ∧ (s.linkOf p = 2)) ∧
    (∃ s : State, ∃ p : Nat, (p < 2) ∧ (s.linkOf p = 1)) ∧
    (∃ s : State, ∃ p : Nat, (p < 2) ∧ (s.linkOf p ≠ 1) ∧ (s.linkOf p ≠ 2)) :=
  ⟨⟨tTeal 2 2, 1, (⟨true, 1, 0, 0, none⟩ : TealFrame), by decide +kernel, (by unfold State.clocksRun; decide +kernel), by decide +kernel⟩,
   ⟨tTeal 2 1, 0, by decide +kernel, (by unfold State.clocksRun; decide +kernel), by decide +kernel⟩,
   ⟨tTeal 2 2, 1, by decide +kernel⟩,
   ⟨tTeal 2 1, 1, by decide +kernel⟩,
   ⟨tTeal 0 0, 1, by decide +kernel⟩⟩

theorem witness_ContextsAndRings_1 :
    (∃ s : State, ∃ p : Nat, ∃ l : Latch, (s.turn p 0x0201 l) ∧ (∃ n, (allOf (ringCheck l.cmd.block l.cmd.fn s) = .ok ()) ∧ ((s.ctxsOf l.cmd.fn).length < s.regN (R.HIF_Fn_CTX_QUOTA l.cmd.fn)) ∧ (s.freeCtx = some n))) ∧
    (∃ s : State, ∃ p : Nat, ∃ l : Latch, (s.turn p 0x0201 l) ∧ (∃ e, (allOf (ringCheck l.cmd.block l.cmd.fn s) = .error e))) ∧
    (∃ s : State, ∃ p : Nat, ∃ l : Latch, (s.turn p 0x0201 l) ∧ (allOf (ringCheck l.cmd.block l.cmd.fn s) = .ok ()) ∧ (s.regN (R.HIF_Fn_CTX_QUOTA l.cmd.fn) ≤ (s.ctxsOf l.cmd.fn).length ∨ s.freeCtx = none)) ∧
    (∃ s : State, ∃ p : Nat, ∃ l : Latch, (s.turn p 0x0204 l) ∧ (let b := l.cmd.block; (let n := ringNo l.cmd.fn (u8 b 0); (∃ e, (ringSetCheck l.cmd s = .error e))))) ∧
    (∃ s : State, ∃ p : Nat, ∃ l : Latch, (s.turn p 0x0204 l) ∧ (let b := l.cmd.block; (let n := ringNo l.cmd.fn (u8 b 0); (ringSetCheck l.cmd s = .ok ()) ∧ (s.ringEn l.cmd.fn (u8 b 0) = true) ∧ (u8 b 1 = 1)))) ∧
    (∃ s : State, ∃ p : Nat, ∃ l : Latch, (s.turn p 0x0204 l) ∧ (let b := l.cmd.block; (let n := ringNo l.cmd.fn (u8 b 0); (ringSetCheck l.cmd s = .ok ()) ∧ (s.ringEn l.cmd.fn (u8 b 0) = false ∨ u8 b 1 ≠ 1) ∧ (u8 b 1 ≠ 1 ∨ u32 b 0x1C = 0)))) :=
  ⟨⟨on (lt 0x0201 (blk [(1, 1), (3, 0)])) ((tRing 0x10C 0).setReg (R.HIF_Fn_CTX_QUOTA 0) 2), 0, (lt 0x0201 (blk [(1, 1), (3, 0)])), ⟨rfl, rfl, rfl, by decide +kernel⟩, 0, by decide +kernel⟩,
   ⟨on (lt 0x0201 (blk [(1, 1), (3, 0)])) t0, 0, (lt 0x0201 (blk [(1, 1), (3, 0)])), ⟨rfl, rfl, rfl, by decide +kernel⟩, badParam 0, by decide +kernel⟩,
   ⟨on (lt 0x0201 (blk [(1, 1), (3, 0)])) ((tRing 0x10C 0).setReg (R.HIF_Fn_CTX_QUOTA 0) 1), 0, (lt 0x0201 (blk [(1, 1), (3, 0)])), ⟨rfl, rfl, rfl, by decide +kernel⟩, by decide +kernel⟩,
   ⟨on (lt 0x0204 (blk [(1, 1), (1, 1), (1, 0), (1, 11), (1, 1), (3, 0), (8, 0x10000), (8, 0), (2, 1), (2, 0), (4, 0), (4, 0)])) t0, 0, (lt 0x0204 (blk [(1, 1), (1, 1), (1, 0), (1, 11), (1, 1), (3, 0), (8, 0x10000), (8, 0), (2, 1), (2, 0), (4, 0), (4, 0)])), ⟨rfl, rfl, rfl, by decide +kernel⟩, badParam 3, by decide +kernel⟩,
   ⟨on (lt 0x0204 (blk [(1, 1), (1, 1), (1, 0), (1, 12), (1, 1), (3, 0), (8, 0x10000), (8, 0), (2, 1), (2, 0), (4, 0), (4, 0)])) (t0.setRingRegs 1 (lt 0x0204 (blk [(1, 1), (1, 1), (1, 0), (1, 12), (1, 1), (3, 0), (8, 0x10000), (8, 0), (2, 1), (2, 0), (4, 0), (4, 0)])).cmd.block), 0, (lt 0x0204 (blk [(1, 1), (1, 1), (1, 0), (1, 12), (1, 1), (3, 0), (8, 0x10000), (8, 0), (2, 1), (2, 0), (4, 0), (4, 0)])), ⟨rfl, rfl, rfl, by decide +kernel⟩, by decide +kernel⟩,
   ⟨on (lt 0x0204 (blk [(1, 1), (1, 1), (1, 0), (1, 12), (1, 1), (3, 0), (8, 0x10000), (8, 0), (2, 1), (2, 0), (4, 0), (4, 0)])) t0, 0, (lt 0x0204 (blk [(1, 1), (1, 1), (1, 0), (1, 12), (1, 1), (3, 0), (8, 0x10000), (8, 0), (2, 1), (2, 0), (4, 0), (4, 0)])), ⟨rfl, rfl, rfl, by decide +kernel⟩, by decide +kernel⟩⟩

theorem witness_ContextsAndRings_2 :
    (∃ s : State, ∃ p : Nat, ∃ l : Latch, (s.turn p 0x0202 l) ∧ (s.ctx? l.cmd.ctx = none)) ∧
    (∃ s : State, ∃ p : Nat, ∃ l : Latch, ∃ x : Ctx, (s.turn p 0x0202 l) ∧ (s.ctx? l.cmd.ctx = some x) ∧ (((s.tearOpen l.cmd.ctx x).drainRings x.fn).recordsOf l.cmd.ctx x.fn = 0)) ∧
    (∃ s : State, ∃ p : Nat, ∃ l : Latch, ∃ x : Ctx, (s.turn p 0x0202 l) ∧ (s.ctx? l.cmd.ctx = some x) ∧ (((s.tearOpen l.cmd.ctx x).drainRings x.fn).recordsOf l.cmd.ctx x.fn ≠ 0)) ∧
    (∃ s : State, ∃ p : Nat, ∃ l : Latch, ∃ u : State, ∃ a : Nat, (let b := l.cmd.block; (let n := ringNo l.cmd.fn (u8 b 0); (let t := (((((s.freeSpill l.cmd.fn (u8 b 0)).setRingRegs n b).setRing l.cmd.fn (u8 b 0) Ring.init).setReg (R.HIF_RINGn_HEAD n) 0).setReg (R.HIF_RINGn_TAIL n) 0).setReg (R.HIF_RINGn_SPILL_LEVEL n) 0; (s.turn p 0x0204 l) ∧ (ringSetCheck l.cmd s = .ok ()) ∧ (s.ringEn l.cmd.fn (u8 b 0) = false) ∧ (u8 b 1 = 1) ∧ (u32 b 0x1C ≠ 0) ∧ (t.allocDram (u32 b 0x1C * 1024) 0xFFFF exSpill n = some (u, a)))))) ∧
    (∃ s : State, ∃ p : Nat, ∃ l : Latch, (let b := l.cmd.block; (let n := ringNo l.cmd.fn (u8 b 0); (let t := (((((s.freeSpill l.cmd.fn (u8 b 0)).setRingRegs n b).setRing l.cmd.fn (u8 b 0) Ring.init).setReg (R.HIF_RINGn_HEAD n) 0).setReg (R.HIF_RINGn_TAIL n) 0).setReg (R.HIF_RINGn_SPILL_LEVEL n) 0; (s.turn p 0x0204 l) ∧ (ringSetCheck l.cmd s = .ok ()) ∧ (s.ringEn l.cmd.fn (u8 b 0) = false) ∧ (u8 b 1 = 1) ∧ (u32 b 0x1C ≠ 0) ∧ (t.allocDram (u32 b 0x1C * 1024) 0xFFFF exSpill n = none))))) :=
  ⟨⟨on (lt 0x0202 []) (t0.modHost fun h => { h with ctxs := [] }), 0, lt 0x0202 [], ⟨rfl, rfl, rfl, by decide +kernel⟩, by decide +kernel⟩,
   ⟨on (lt 0x0202 []) t0, 0, lt 0x0202 [], Ctx.new 0 0, ⟨rfl, rfl, rfl, by decide +kernel⟩, by decide +kernel, (by show (((State.removeEntries _ 1).drainRings 0).recordsOf 1 0) = 0; rw [removeEntries_none _ _ (by decide +kernel)]; decide +kernel)⟩,
   ⟨on (lt 0x0202 []) ((tRing 0x10C 0xFE0).modHost fun h => { h with ctxs := [(1, Ctx.new 0 1)], staged := [tStg] }), 0, lt 0x0202 [], Ctx.new 0 1, ⟨rfl, rfl, rfl, by decide +kernel⟩, by decide +kernel, (by show (((State.removeEntries _ 1).drainRings 0).recordsOf 1 0) ≠ 0; rw [removeEntries_none _ _ (by decide +kernel)]; decide +kernel)⟩,
   ⟨on (lt 0x0204 (blk [(1, 1), (1, 1), (1, 0), (1, 12), (1, 1), (3, 0), (8, 0x10000), (8, 0), (2, 1), (2, 0), (4, 1), (4, 0)])) tDma, 0, lt 0x0204 (blk [(1, 1), (1, 1), (1, 0), (1, 12), (1, 1), (3, 0), (8, 0x10000), (8, 0), (2, 1), (2, 0), (4, 1), (4, 0)]), (on (lt 0x0204 (blk [(1, 1), (1, 1), (1, 0), (1, 12), (1, 1), (3, 0), (8, 0x10000), (8, 0), (2, 1), (2, 0), (4, 1), (4, 0)])) tDma |>.freeSpill 0 1 |>.setRingRegs 1 (lt 0x0204 (blk [(1, 1), (1, 1), (1, 0), (1, 12), (1, 1), (3, 0), (8, 0x10000), (8, 0), (2, 1), (2, 0), (4, 1), (4, 0)])).cmd.block |>.setRing 0 1 Ring.init |>.setReg (R.HIF_RINGn_HEAD 1) 0 |>.setReg (R.HIF_RINGn_TAIL 1) 0 |>.setReg (R.HIF_RINGn_SPILL_LEVEL 1) 0 |>.allocDram 1024 0xFFFF exSpill 1 |>.getD (t0, 0)).1, dramBase + 0x4000000, ⟨rfl, rfl, rfl, by decide +kernel⟩, by decide +kernel⟩,
   ⟨on (lt 0x0204 (blk [(1, 1), (1, 1), (1, 0), (1, 12), (1, 1), (3, 0), (8, 0x10000), (8, 0), (2, 1), (2, 0), (4, 1), (4, 0)])) { tDma with sys := { tDma.sys with dramTrained := false } }, 0, lt 0x0204 (blk [(1, 1), (1, 1), (1, 0), (1, 12), (1, 1), (3, 0), (8, 0x10000), (8, 0), (2, 1), (2, 0), (4, 1), (4, 0)]), ⟨rfl, rfl, rfl, by decide +kernel⟩, by decide +kernel⟩⟩

theorem witness_MailboxAndDma_1 :
    (∃ s : State, ∃ fn : Nat, ∃ v : Word, (s.hostReach) ∧ (s.fnEnabled fn = false)) ∧
    (∃ s : State, ∃ fn : Nat, ∃ v : Word, (s.hostReach) ∧ (s.fnEnabled fn = true) ∧ (s.busyFn fn = true ∨ s.sys.ready = false ∨ s.ethOwned fn = true)) ∧
    (∃ s : State, ∃ fn : Nat, ∃ v : Word, (s.hostReach) ∧ (s.fnEnabled fn = true) ∧ (s.busyFn fn = false) ∧ (s.sys.ready = true) ∧ (s.ethOwned fn = false) ∧ (fn < 32)) ∧
    (∃ s : State, ∃ p : Nat, ∃ d : Option Bytes, ∃ l : Latch, (s.latch p = some l) ∧ (l.stage ≠ .fetch)) ∧
    (∃ s : State, ∃ p : Nat, ∃ d : Option Bytes, ∃ l : Latch, (s.latch p = some l) ∧ (l.stage = .fetch) ∧ (s.dmaRead p (u64 l.cmd.block 0) l.cmd.paramLen d = none)) ∧
    (∃ s : State, ∃ p : Nat, ∃ d : Option Bytes, ∃ l : Latch, (s.latch p = some l) ∧ (∃ b, (l.stage = .fetch) ∧ (s.dmaRead p (u64 l.cmd.block 0) l.cmd.paramLen d = some b) ∧ (∃ e, (fetchedLength l.cmd b = .error e)))) :=
  ⟨⟨t0, 1, 5, (by unfold State.hostReach; decide +kernel), by decide +kernel⟩,
   ⟨on (lt 0 []) t0, 0, 5, (by unfold State.hostReach; decide +kernel), by decide +kernel⟩,
   ⟨(t0.setFunc 0 { Func.init with cmdArea := padTo 512 (tReq 5) }), 0, 5, (by unfold State.hostReach; decide +kernel), by decide +kernel⟩,
   ⟨on (lt 0 []) t0, 0, none, (lt 0 []), by decide +kernel⟩,
   ⟨on (⟨⟨0, 0, 0x0201, 1, 5, 0xFFFF, 0, 4, blk [(8, 64)], 5, 0⟩, .fetch, false, 0⟩ : Latch) tDma, 0, none, (⟨⟨0, 0, 0x0201, 1, 5, 0xFFFF, 0, 4, blk [(8, 64)], 5, 0⟩, .fetch, false, 0⟩ : Latch), by decide +kernel⟩,
   ⟨on (⟨⟨0, 0, 0x0A01, 1, 5, 0xFFFF, 0, 4, blk [(8, 64)], 5, 0⟩, .fetch, false, 0⟩ : Latch) tDma, 0, some [1, 0, 0, 0], (⟨⟨0, 0, 0x0A01, 1, 5, 0xFFFF, 0, 4, blk [(8, 64)], 5, 0⟩, .fetch, false, 0⟩ : Latch), by decide +kernel, [1, 0, 0, 0], by decide +kernel, by decide +kernel, ⟨cBadLength, 0xFFFF⟩, by decide +kernel⟩⟩

theorem witness_MailboxAndDma_2 :
    (∃ s : State, ∃ p : Nat, ∃ d : Option Bytes, ∃ l : Latch, (s.latch p = some l) ∧ (∃ b, (l.stage = .fetch) ∧ (s.dmaRead p (u64 l.cmd.block 0) l.cmd.paramLen d = some b) ∧ (let c := { l.cmd with block := b }; (fetchedLength l.cmd b = .ok ()) ∧ (s.poisonCheck c = false)))) ∧
    (∃ s : State, ∃ p : Nat, ∃ d : Option Bytes, ∃ l : Latch, (s.latch p = some l) ∧ (l.stage = .yielded)) ∧
    (∃ s : State, ∃ p : Nat, ∃ d : Option Bytes, ∃ l : Latch, (s.latch p = some l) ∧ (l.stage ≠ .yielded)) ∧
    (∃ s : State, ∃ p : Nat, ∃ l : Latch, ∃ r : Resp, (s.clocksRun) ∧ (s.latch p = some l) ∧ (l.stage = .answered r) ∧ (l.abandoned = true)) ∧
    (∃ s : State, ∃ p : Nat, ∃ l : Latch, ∃ r : Resp, (s.clocksRun) ∧ (s.latch p = some l) ∧ (l.stage = .answered r) ∧ (l.abandoned = false) ∧ (p = ethPath)) ∧
    (∃ s : State, ∃ p : Nat, ∃ l : Latch, ∃ r : Resp, (s.clocksRun) ∧ (s.latch p = some l) ∧ (l.stage = .answered r) ∧ (l.abandoned = false) ∧ (p ≠ ethPath)) :=
  ⟨⟨on (⟨⟨0, 0, 0x0201, 1, 5, 0xFFFF, 0, 4, blk [(8, 64)], 5, 0⟩, .fetch, false, 0⟩ : Latch) tDma, 0, some [1, 0, 0, 0], (⟨⟨0, 0, 0x0201, 1, 5, 0xFFFF, 0, 4, blk [(8, 64)], 5, 0⟩, .fetch, false, 0⟩ : Latch), by decide +kernel, [1, 0, 0, 0], by decide +kernel⟩,
   ⟨on (lt 0x0903 [] .yielded) t0, 0, none, (lt 0x0903 [] .yielded), by decide +kernel⟩,
   ⟨on (lt 0 []) t0, 0, none, (lt 0 []), by decide +kernel⟩,
   ⟨on (⟨⟨0, 0, 0x0101, 2, 5, 0xFFFF, 0, 0, [], 5, 0⟩, .answered ⟨0, 0, 0, [1, 2]⟩, true, 0⟩ : Latch) t0, 0, (⟨⟨0, 0, 0x0101, 2, 5, 0xFFFF, 0, 0, [], 5, 0⟩, .answered ⟨0, 0, 0, [1, 2]⟩, true, 0⟩ : Latch), ⟨0, 0, 0, [1, 2]⟩, (by unfold State.clocksRun; decide +kernel), by decide +kernel⟩,
   ⟨tEth.setLatch 32 (some (⟨⟨32, 0, 0x0101, 0, 5, 0xFFFF, 0, 0, [], 5, 0⟩, .answered ⟨0, 0, 0, [1, 2]⟩, false, 0⟩ : Latch)), 32, (⟨⟨32, 0, 0x0101, 0, 5, 0xFFFF, 0, 0, [], 5, 0⟩, .answered ⟨0, 0, 0, [1, 2]⟩, false, 0⟩ : Latch), ⟨0, 0, 0, [1, 2]⟩, (by unfold State.clocksRun; decide +kernel), by decide +kernel⟩,
   ⟨on (⟨⟨0, 0, 0x0101, 2, 5, 0xFFFF, 0, 0, [], 5, 0⟩, .answered ⟨0, 0, 0, [1, 2]⟩, false, 0⟩ : Latch) t0, 0, (⟨⟨0, 0, 0x0101, 2, 5, 0xFFFF, 0, 0, [], 5, 0⟩, .answered ⟨0, 0, 0, [1, 2]⟩, false, 0⟩ : Latch), ⟨0, 0, 0, [1, 2]⟩, (by unfold State.clocksRun; decide +kernel), by decide +kernel⟩⟩

theorem witness_MailboxAndDma_3 :
    ∃ s : State, ∃ p : Nat, ∃ d : Option Bytes, ∃ l : Latch, ∃ b : Bytes, (let c := { l.cmd with block := b }; (s.latch p = some l) ∧ (l.stage = .fetch) ∧ (s.dmaRead p (u64 l.cmd.block 0) l.cmd.paramLen d = some b) ∧ (fetchedLength l.cmd b = .ok ()) ∧ (s.poisonCheck c = true)) :=
  ⟨on (⟨⟨0, 0, 0x0703, 1, 5, 1, 0, 4, blk [(8, 64)], 5, 0⟩, .fetch, false, 0⟩) (tDma.setCtx 1 { Ctx.new 0 0 with poisoned := true }), 0, some [1, 0, 0, 0], ⟨⟨0, 0, 0x0703, 1, 5, 1, 0, 4, blk [(8, 64)], 5, 0⟩, .fetch, false, 0⟩, [1, 0, 0, 0], by decide +kernel⟩

theorem witness_HostPathsAndFunctions_1 :
    (∃ s : State, ∃ g : Datagram, (s.hostReach) ∧ (s.ethOn = false)) ∧
    (∃ s : State, ∃ g : Datagram, (s.hostReach) ∧ (s.ethOn = true) ∧ (s.ethLive = false ∨ g.fromPeer = false ∨ dgramOk g.bytes 1 = false ∨ s.sys.ready = false)) ∧
    (∃ s : State, ∃ g : Datagram, (s.hostReach) ∧ (s.ethOn = true) ∧ (s.ethLive = true) ∧ (g.fromPeer = true) ∧ (dgramOk g.bytes 1 = true) ∧ (s.sys.ready = true) ∧ (let t := (s.bumpSat R.HIF_ETH_RX_REQ).assertSource 454; (let area := padTo 512 (g.bytes.drop 16); (let seq := w32 (u32 area 4); (∃ b, (t.host.eth.last = some (seq, b))))))) ∧
    (∃ s : State, ∃ g : Datagram, (s.hostReach) ∧ (s.ethOn = true) ∧ (s.ethLive = true) ∧ (g.fromPeer = true) ∧ (dgramOk g.bytes 1 = true) ∧ (s.sys.ready = true) ∧ (let t := (s.bumpSat R.HIF_ETH_RX_REQ).assertSource 454; (let area := padTo 512 (g.bytes.drop 16); (let seq := w32 (u32 area 4); (let fresh := t.host.eth.last = none ∨ ∃ q b, t.host.eth.last = some (q, b) ∧ q ≠ seq; (fresh) ∧ (t.host.eth.latch.isSome = true)))))) ∧
    (∃ s : State, ∃ g : Datagram, (s.hostReach) ∧ (s.ethOn = true) ∧ (s.ethLive = true) ∧ (g.fromPeer = true) ∧ (dgramOk g.bytes 1 = true) ∧ (s.sys.ready = true) ∧ (let t := (s.bumpSat R.HIF_ETH_RX_REQ).assertSource 454; (let area := padTo 512 (g.bytes.drop 16); (let seq := w32 (u32 area 4); (let fresh := t.host.eth.last = none ∨ ∃ q b, t.host.eth.last = some (q, b) ∧ q ≠ seq; (fresh) ∧ (t.host.eth.latch = none)))))) ∧
    (∃ s : State, ∃ g : Datagram, (s.hostReach) ∧ (s.ethOn = true) ∧ (s.ethLive = false ∨ g.fromPeer = false ∨ dgramOk g.bytes 4 = false ∨ u16 s.host.eth.cfg 0x34 * 1048576 < u64 g.bytes 8 + (g.bytes.drop 16).length)) :=
  ⟨⟨t0, (tDg 1 0 (tReq 5)), (by unfold State.hostReach; decide +kernel), by decide +kernel⟩,
   ⟨tEth, (tDg 2 0 ([])), (by unfold State.hostReach; decide +kernel), by decide +kernel⟩,
   ⟨(tEth.modHost fun h => { h with eth := { h.eth with last := some (5, [1, 2]) } }), (tDg 1 0 (tReq 5)), (by unfold State.hostReach; decide +kernel), by decide +kernel, by decide +kernel, by decide +kernel, by decide +kernel, by decide +kernel, [1, 2], by decide +kernel⟩,
   ⟨(tEth.setLatch 32 (some (⟨⟨32, 0, 0x0101, 0, 5, 0xFFFF, 0, 0, [], 5, 0⟩, .answered ⟨0, 0, 0, [1, 2]⟩, false, 0⟩ : Latch))), (tDg 1 0 (tReq 5)), (by unfold State.hostReach; decide +kernel), by decide +kernel, by decide +kernel, by decide +kernel, by decide +kernel, by decide +kernel, (.inl rfl), by decide +kernel⟩,
   ⟨(tEth.modHost fun h => { h with eth := { h.eth with last := some (5, [1, 2]) } }), (tDg 1 0 (tReq 6)), (by unfold State.hostReach; decide +kernel), by decide +kernel, by decide +kernel, by decide +kernel, by decide +kernel, by decide +kernel, (.inr ⟨5, [1, 2], by decide +kernel⟩), by decide +kernel⟩,
   ⟨tEth, (tDg 4 1048575 ([1, 2])), (by unfold State.hostReach; decide +kernel), by decide +kernel⟩⟩

theorem witness_HostPathsAndFunctions_2 :
    (∃ s : State, ∃ g : Datagram, (s.hostReach) ∧ (s.ethLive = true) ∧ (g.fromPeer = true) ∧ (dgramOk g.bytes 4 = true) ∧ (u64 g.bytes 8 + (g.bytes.drop 16).length ≤ u16 s.host.eth.cfg 0x34 * 1048576)) ∧
    (∃ s : State, ∃ f : EthFrame, (s.hostReach) ∧ (s.ethOn = false)) ∧
    (∃ s : State, ∃ f : EthFrame, (s.hostReach) ∧ (s.ethOn = true)) ∧
    (∃ s : State, ∃ f : Nat, ∃ d : Nat, ∃ b : Bool, (s.hostReach) ∧ (s.fnEnabled f = false)) ∧
    (∃ s : State, ∃ f : Nat, ∃ d : Nat, ∃ b : Bool, (s.hostReach) ∧ (s.fnEnabled f = true)) ∧
    (∃ s : State, ∃ f : Nat, ∃ r : Nat, ∃ v : Word, (s.hostReach) ∧ (s.ringEth f r = true)) :=
  ⟨⟨tEth, (tDg 4 1048574 ([1, 2])), (by unfold State.hostReach; decide +kernel), by decide +kernel⟩,
   ⟨t0, .arp, (by unfold State.hostReach; decide +kernel), by decide +kernel⟩,
   ⟨tEth, .other, (by unfold State.hostReach; decide +kernel), by decide +kernel⟩,
   ⟨t0, 1, 0, true, (by unfold State.hostReach; decide +kernel), by decide +kernel⟩,
   ⟨t0, 0, 3, true, (by unfold State.hostReach; decide +kernel), by decide +kernel⟩,
   ⟨tRing 0x30C 0, 0, 1, 0xFFFFFFFF, (by unfold State.hostReach; decide +kernel), by decide +kernel⟩⟩

theorem witness_HostPathsAndFunctions_3 :
    (∃ s : State, ∃ f : Nat, ∃ r : Nat, ∃ v : Word, (s.hostReach) ∧ (s.ringEth f r = false) ∧ (let t := s.setReg (R.HIF_RINGn_TAIL (ringNo f r)) (v &&& 0xFFFFFFF8); (t.ringEn f r = true) ∧ (t.ringSize f r < t.ringUsed f r))) ∧
    (∃ s : State, ∃ f : Nat, ∃ r : Nat, ∃ v : Word, (s.hostReach) ∧ (s.ringEth f r = false) ∧ (let t := s.setReg (R.HIF_RINGn_TAIL (ringNo f r)) (v &&& 0xFFFFFFF8); (t.ringEn f r = false ∨ t.ringUsed f r ≤ t.ringSize f r))) ∧
    (∃ s : State, ∃ f : Nat, ∃ r : Nat, (s.clocksRun) ∧ (s.ringEn f r = false)) ∧
    (∃ s : State, ∃ f : Nat, ∃ r : Nat, (s.clocksRun) ∧ (s.ringEn f r = true)) ∧
    (∃ s : State, ∃ f : Nat, ∃ n : Nat, (s.hostReach) ∧ (s.fnEnabled f = true)) ∧
    (∃ s : State, ∃ f : Nat, ∃ n : Nat, (s.hostReach) ∧ (s.fnEnabled f = false)) :=
  ⟨⟨tRing 0x10C 0x1000, 0, 1, 0xFFFFFFF7, (by unfold State.hostReach; decide +kernel), by decide +kernel⟩,
   ⟨tRing 0x10C 0x1000, 0, 1, 0, (by unfold State.hostReach; decide +kernel), by decide +kernel⟩,
   ⟨t0, 0, 1, (by unfold State.clocksRun; decide +kernel), by decide +kernel⟩,
   ⟨tRing 0x10C 0, 0, 1, (by unfold State.clocksRun; decide +kernel), by decide +kernel⟩,
   ⟨t0, 0, 2, (by unfold State.hostReach; decide +kernel), by decide +kernel⟩,
   ⟨t0, 1, 2, (by unfold State.hostReach; decide +kernel), by decide +kernel⟩⟩

theorem witness_HostPathsAndFunctions_4 :
    (∃ s : State, ∃ f : Nat, ∃ n : Nat, (s.hostReach) ∧ (n < s.numVfs)) ∧
    (∃ s : State, ∃ f : Nat, ∃ n : Nat, (s.hostReach) ∧ (s.numVfs ≤ n)) ∧
    (∃ s : State, ∃ f : Nat, ∃ n : Nat, (s.hostReach) ∧ (s.numVfs < n)) ∧
    (∃ s : State, ∃ f : Nat, ∃ n : Nat, (s.hostReach) ∧ (n ≤ s.numVfs)) ∧
    (∃ s : State, ∃ f : Nat, ∃ r : Nat, ∃ x : Staged, (s.clocksRun) ∧ (s.ringEn f r = true) ∧ (s.domUp dHOSTETH = true) ∧ (s.domUp dFAB = true) ∧ ((s.ring f r).held = some x) ∧ (s.ringTakes f r x.recd = true)) ∧
    (∃ s : State, ∃ f : Nat, ∃ r : Nat, ∃ x : Staged, ∃ xs : List Staged, (s.clocksRun) ∧ (s.ringEn f r = true) ∧ (s.domUp dHOSTETH = true) ∧ (s.domUp dFAB = true) ∧ ((s.ring f r).held = none) ∧ ((s.ring f r).spill = x :: xs) ∧ (s.ringTakes f r x.recd = true)) :=
  ⟨⟨t0.setReg R.HIF_NUMVFS 3, 0, 2, (by unfold State.hostReach; decide +kernel), by decide +kernel⟩,
   ⟨t0, 0, 2, (by unfold State.hostReach; decide +kernel), by decide +kernel⟩,
   ⟨t0, 0, 2, (by unfold State.hostReach; decide +kernel), by decide +kernel⟩,
   ⟨t0, 0, 0, (by unfold State.hostReach; decide +kernel), by decide +kernel⟩,
   ⟨(tRing 0x10C 0).setRing 0 1 { Ring.init with held := some tStg }, 0, 1, tStg, (by unfold State.clocksRun; decide +kernel), by decide +kernel⟩,
   ⟨(tRing 0x10C 0).setRing 0 1 { Ring.init with spill := [tStg] }, 0, 1, tStg, [], (by unfold State.clocksRun; decide +kernel), by decide +kernel⟩⟩

theorem witness_HostPathsAndFunctions_5 :
    (∃ s : State, ∃ f : Nat, ∃ r : Nat, ∃ y : Staged, ∃ ys : List Staged, (s.clocksRun) ∧ (s.ringEn f r = true) ∧ (s.domUp dHOSTETH = true) ∧ (s.domUp dFAB = true) ∧ ((s.ring f r).held = none) ∧ ((s.ring f r).spill = []) ∧ (takeStaged f r s.host.staged = some (y, ys)) ∧ (s.ringTakes f r y.recd = true)) ∧
    (∃ s : State, ∃ f : Nat, ∃ r : Nat, ∃ y : Staged, ∃ ys : List Staged, (s.clocksRun) ∧ (s.ringEn f r = true) ∧ (s.domUp dHOSTETH = true) ∧ (s.domUp dFAB = true) ∧ ((s.ring f r).held = none) ∧ ((s.ring f r).spill = []) ∧ (takeStaged f r s.host.staged = some (y, ys)) ∧ (s.ringTakes f r y.recd = false)) ∧
    (∃ s : State, ∃ f : Nat, ∃ r : Nat, ∃ x : Staged, ∃ y : Staged, ∃ ys : List Staged, (s.clocksRun) ∧ (s.ringEn f r = true) ∧ (s.domUp dHOSTETH = true) ∧ (s.domUp dFAB = true) ∧ ((s.ring f r).held = some x) ∧ (s.ringTakes f r x.recd = false) ∧ (takeStaged f r s.host.staged = some (y, ys)) ∧ (spillBytes (s.ring f r).spill + y.recd.length ≤ s.regFld (R.HIF_RINGn_SPILL_KIB (ringNo f r)) 16 0 * 1024)) ∧
    (∃ s : State, ∃ f : Nat, ∃ r : Nat, ∃ x : Staged, ∃ y : Staged, ∃ ys : List Staged, (s.clocksRun) ∧ (s.ringEn f r = true) ∧ (s.domUp dHOSTETH = true) ∧ (s.domUp dFAB = true) ∧ ((s.ring f r).held = some x) ∧ (s.ringTakes f r x.recd = false) ∧ (takeStaged f r s.host.staged = some (y, ys)) ∧ (¬ spillBytes (s.ring f r).spill + y.recd.length ≤ s.regFld (R.HIF_RINGn_SPILL_KIB (ringNo f r)) 16 0 * 1024)) ∧
    (∃ s : State, ∃ f : Nat, ∃ r : Nat, (s.clocksRun) ∧ (s.ringEn f r = true) ∧ (s.domUp dHOSTETH = true) ∧ (s.domUp dFAB = true) ∧ ((s.ring f r).held = none) ∧ ((s.ring f r).spill = []) ∧ (takeStaged f r s.host.staged = none)) ∧
    (∃ s : State, (s.clocksRun) ∧ (∀ e ∈ s.host.ctxs, s.settled e.1 e.2 = false)) :=
  ⟨⟨(tRing 0x10C 0xFD8).setStaged [tStg], 0, 1, tStg, [], (by unfold State.clocksRun; decide +kernel), by decide +kernel⟩,
   ⟨(tRing 0x10C 0xFE0).setStaged [tStg], 0, 1, tStg, [], (by unfold State.clocksRun; decide +kernel), by decide +kernel⟩,
   ⟨(((tRing 0x10C 0xFE0).setRing 0 1 { Ring.init with held := some tStg }).setStaged [tStg]).setReg (R.HIF_RINGn_SPILL_KIB 1) 1, 0, 1, tStg, tStg, [], (by unfold State.clocksRun; decide +kernel), by decide +kernel⟩,
   ⟨(((tRing 0x10C 0xFE0).setRing 0 1 { Ring.init with held := some tStg }).setStaged [tStg]).setReg (R.HIF_RINGn_SPILL_KIB 1) 0, 0, 1, tStg, tStg, [], (by unfold State.clocksRun; decide +kernel), by decide +kernel⟩,
   ⟨tRing 0x10C 0, 0, 1, (by unfold State.clocksRun; decide +kernel), by decide +kernel⟩,
   ⟨t0, (by unfold State.clocksRun; decide +kernel), by decide +kernel⟩⟩

theorem witness_SystemAndFirmwarePages_1 :
    (Passes 0x0101 (fun _ _ => .ok ())) ∧
    (Passes 0x0102 (fun _ _ => .ok ())) ∧
    (Passes 0x0103 (fun c _ => allOf [inRange (u8 c.block 0) 0 0 0, reserved c.block 1 1, inRange (u16 c.block 2) 0 1000 2])) ∧
    (Fails 0x0103 (fun c _ => allOf [inRange (u8 c.block 0) 0 0 0, reserved c.block 1 1, inRange (u16 c.block 2) 0 1000 2])) ∧
    (Passes 0x0104 (fun c s =>
      let f := u8 c.block 0
      let q := u16 c.block 2
      allOf [inRange f 0 31 0, reserved c.block 1 1, need (q ≤ 1024 && (s.ctxsOf f).length ≤ q) (badParam 2),
      need ((List.range 32).foldl (fun n g => n + if g = f then q else s.regN (R.HIF_Fn_CTX_QUOTA g)) 0 ≤ 1024) noResource])) ∧
    (Fails 0x0104 (fun c s =>
      let f := u8 c.block 0
      let q := u16 c.block 2
      allOf [inRange f 0 31 0, reserved c.block 1 1, need (q ≤ 1024 && (s.ctxsOf f).length ≤ q) (badParam 2),
      need ((List.range 32).foldl (fun n g => n + if g = f then q else s.regN (R.HIF_Fn_CTX_QUOTA g)) 0 ≤ 1024) noResource])) :=
  ⟨passes ([]) (t0) (by decide +kernel),
   passes ([]) (t0) (by decide +kernel),
   passes (List.replicate 64 0) (t0) (by decide +kernel),
   fails (List.replicate 64 0xFF) t0 (badParam 0) (by decide +kernel),
   passes (blk [(1, 0), (1, 0), (2, 2)]) (t0) (by decide +kernel),
   fails (List.replicate 64 0xFF) t0 (badParam 0) (by decide +kernel)⟩

theorem witness_SystemAndFirmwarePages_12 :
    (Passes 0x0203 (fun c s => allOf (ringCheck c.block c.fn s))) ∧
    (Fails 0x0203 (fun c s => allOf (ringCheck c.block c.fn s))) ∧
    (Passes 0x0205 (fun _ _ => .ok ())) ∧
    (Passes 0x1001 (fun _ _ => .ok ())) ∧
    (Passes 0x0105 ethCheck) ∧
    (Fails 0x0105 ethCheck) :=
  ⟨passes (blk [(1, 1), (3, 0)]) (tRing 0x10C 0) (by decide +kernel),
   fails (List.replicate 64 0xFF) t0 (badParam 0) (by decide +kernel),
   passes ([]) (t0) (by decide +kernel),
   passes ([]) (t0) (by decide +kernel),
   passes (blk [(1, 1), (1, 0), (1, 0), (1, 4), (1, 1), (1, 0), (2, 1024), (4, 10), (12, 0), (4, 10), (12, 0), (6, 2), (2, 0), (2, 576), (2, 1024), (2, 0), (2, 0)]) (t0) (by decide +kernel),
   fails (List.replicate 64 0xFF) t0 (badParam 1) (by decide +kernel)⟩

theorem witness_SystemAndFirmwarePages_2 :
    Resumes 0x1007 :=
  resumes 0x1007

theorem witness_SystemAndFirmwarePages_3 :
    Passes 0x1004 (fun _ s => match s.sys.session with
      | none => .error busy
      | some k => verdictCheck (s.board.slotVerdict k)) :=
  ⟨on (lt 0x1004 []) tSess, 0, lt 0x1004 [], tSess_turn, tSess_verdict⟩

theorem witness_SystemAndFirmwarePages_4 :
    (Passes 0x0106 (fun c _ => allOf [inRange (u8 c.block 0) 0 1 0, reserved c.block 1 3])) ∧
    (Fails 0x0106 (fun c _ => allOf [inRange (u8 c.block 0) 0 1 0, reserved c.block 1 3])) ∧
    (Passes 0x1002 (fun c s => allOf [need (u8 c.block 0 ≤ 1 && u8 c.block 0 ≠ s.sys.running) (badParam 0),
      need (u8 c.block 1 ≤ 7 && (u8 c.block 1 = 0 || s.sys.running ≤ 1)) (badParam 1), reserved c.block 2 2,
      need s.sys.session.isNone busy])) ∧
    (Fails 0x1002 (fun c s => allOf [need (u8 c.block 0 ≤ 1 && u8 c.block 0 ≠ s.sys.running) (badParam 0),
      need (u8 c.block 1 ≤ 7 && (u8 c.block 1 = 0 || s.sys.running ≤ 1)) (badParam 1), reserved c.block 2 2,
      need s.sys.session.isNone busy])) ∧
    (Fails 0x1004 (fun _ s => match s.sys.session with
      | none => .error busy
      | some k => verdictCheck (s.board.slotVerdict k))) ∧
    (Passes 0x1006 (fun c s => allOf [need (s.sys.running ≤ 1 && headState (s.board.header s.sys.running) ≠ slAlternate) (badParam 0),
      inRange (u8 c.block 0) 0 1 0, reserved c.block 1 3])) :=
  ⟨passes (List.replicate 64 0) (t0) (by decide +kernel),
   fails (List.replicate 64 0xFF) t0 (badParam 0) (by decide +kernel),
   passes (List.replicate 64 0) (t0) (by decide +kernel),
   fails (List.replicate 64 0xFF) t0 (badParam 0) (by decide +kernel),
   fails (List.replicate 64 0xFF) t0 (busy) (by decide +kernel),
   passes (blk [(4, 0)]) ({ t0 with sys := { t0.sys with running := 0 } }) (by decide +kernel)⟩

theorem witness_SystemAndFirmwarePages_5 :
    Starts 0x0105 ethCheck
    (fun c _ => if u8 c.block 4 = 1 then some ⟨[(flSettings, 0x10000)], []⟩ else none) :=
  starts (blk [(1, 1), (1, 0), (1, 0), (1, 4), (1, 1), (1, 0), (2, 1024), (4, 10), (12, 0), (4, 10), (12, 0), (6, 2), (2, 0), (2, 576), (2, 1024), (2, 0), (2, 0)]) (t0) (by decide +kernel)

theorem witness_SystemAndFirmwarePages_6 :
    Starts 0x0106 (fun c _ => allOf [inRange (u8 c.block 0) 0 1 0, reserved c.block 1 3])
    (fun _ _ => some ⟨[(flSettings, 0x10000)], []⟩) :=
  starts (List.replicate 64 0) (t0) (by decide +kernel)

theorem witness_SystemAndFirmwarePages_7 :
    (Fails 0x1006 (fun c s => allOf [need (s.sys.running ≤ 1 && headState (s.board.header s.sys.running) ≠ slAlternate) (badParam 0),
      inRange (u8 c.block 0) 0 1 0, reserved c.block 1 3])) ∧
    (Passes 0x1007 (fun c s => allOf [need (s.sys.mode = .restricted) (badParam 0), need (w32 (u32 c.block 0) = s.sys.belrix) (badParam 0),
      need (w32 (u32 c.block 4) = s.sys.denzewen) (badParam 4)])) ∧
    (Fails 0x1007 (fun c s => allOf [need (s.sys.mode = .restricted) (badParam 0), need (w32 (u32 c.block 0) = s.sys.belrix) (badParam 0),
      need (w32 (u32 c.block 4) = s.sys.denzewen) (badParam 4)])) ∧
    (NeedsNoFlash 0x0105 ethCheck
    (fun c _ => if u8 c.block 4 = 1 then some ⟨[(flSettings, 0x10000)], []⟩ else none)) ∧
    (Resumes 0x0105) ∧
    (Resumes 0x0106) :=
  ⟨fails (List.replicate 64 0xFF) t0 (badParam 0) (by decide +kernel),
   passes (blk [(4, 0), (4, 0)]) ({ t0 with sys := { t0.sys with mode := .restricted } }) (by decide +kernel),
   fails (List.replicate 64 0xFF) t0 (badParam 0) (by decide +kernel),
   needsNoFlash (blk [(1, 1), (1, 0), (1, 0), (1, 4), (1, 0), (1, 0), (2, 1024), (4, 10), (12, 0), (4, 10), (12, 0), (6, 2), (2, 0), (2, 576), (2, 1024), (2, 0), (2, 0)]) (t0) (by decide +kernel),
   resumes 0x0105,
   resumes 0x0106⟩

theorem witness_SystemAndFirmwarePages_8 :
    Starts 0x1004 (fun _ s => match s.sys.session with
      | none => .error busy
      | some k => verdictCheck (s.board.slotVerdict k))
    (fun _ s =>
      let k := s.sys.session.getD 0
      some ⟨[], [(k * flCs1 + 4, [0x3F, 0x07]), (k * flCs1 + 8, leBytes 4 (s.newSeq k).toNat)]⟩) :=
  ⟨on (lt 0x1004 []) tSess, 0, lt 0x1004 [], _, tSess_turn, tSess_verdict, rfl⟩

theorem witness_SystemAndFirmwarePages_9 :
    Starts 0x1006 (fun c s => allOf [need (s.sys.running ≤ 1 && headState (s.board.header s.sys.running) ≠ slAlternate) (badParam 0),
      inRange (u8 c.block 0) 0 1 0, reserved c.block 1 3])
    (fun c s =>
      let up := u8 c.block 0 = 1 ∧ s.board.rollback < s.board.minRollback s.sys.running
      match commitJob s with
      | some j => some j
      | none => if up then some ⟨[], []⟩ else none) :=
  starts (blk [(4, 0)]) (tTrial) (by decide +kernel)

theorem witness_SystemAndFirmwarePages_10 :
    Starts 0x1007 (fun c s => allOf [need (s.sys.mode = .restricted) (badParam 0), need (w32 (u32 c.block 0) = s.sys.belrix) (badParam 0),
      need (w32 (u32 c.block 4) = s.sys.denzewen) (badParam 4)])
    (fun c s =>
      if s.sys.running ≤ 1 then
      some ⟨[], [(s.sys.running * flCs1 + 6, [0x7F]), (s.sys.running * flCs1 + 0x0C, slice c.block 0 8)]⟩
      else none) :=
  starts (blk [(4, 0), (4, 0)]) ({ t0 with sys := { t0.sys with mode := .restricted, running := 0 } }) (by decide +kernel)

theorem witness_SystemAndFirmwarePages_11 :
    (Starts 0x1002 (fun c s => allOf [need (u8 c.block 0 ≤ 1 && u8 c.block 0 ≠ s.sys.running) (badParam 0),
      need (u8 c.block 1 ≤ 7 && (u8 c.block 1 = 0 || s.sys.running ≤ 1)) (badParam 1), reserved c.block 2 2,
      need s.sys.session.isNone busy])
    (fun c s => some (beginJob c s))) ∧
    (Resumes 0x1002) ∧
    (Resumes 0x1004) ∧
    (NeedsNoFlash 0x1006 (fun c s => allOf [need (s.sys.running ≤ 1 && headState (s.board.header s.sys.running) ≠ slAlternate) (badParam 0),
      inRange (u8 c.block 0) 0 1 0, reserved c.block 1 3])
    (fun c s =>
      let up := u8 c.block 0 = 1 ∧ s.board.rollback < s.board.minRollback s.sys.running
      match commitJob s with
      | some j => some j
      | none => if up then some ⟨[], []⟩ else none)) ∧
    (Resumes 0x1006) ∧
    (NeedsNoFlash 0x1007 (fun c s => allOf [need (s.sys.mode = .restricted) (badParam 0), need (w32 (u32 c.block 0) = s.sys.belrix) (badParam 0),
      need (w32 (u32 c.block 4) = s.sys.denzewen) (badParam 4)])
    (fun c s =>
      if s.sys.running ≤ 1 then
      some ⟨[], [(s.sys.running * flCs1 + 6, [0x7F]), (s.sys.running * flCs1 + 0x0C, slice c.block 0 8)]⟩
      else none)) :=
  ⟨⟨on (lt 0x1002 (List.replicate 64 0)) t0, 0, lt 0x1002 (List.replicate 64 0), _, ⟨by decide +kernel, rfl, rfl, by decide +kernel⟩, by decide +kernel, rfl⟩,
   resumes 0x1002,
   resumes 0x1004,
   needsNoFlash (blk [(4, 0)]) ({ t0 with sys := { t0.sys with running := 0 } }) (by decide +kernel),
   resumes 0x1006,
   needsNoFlash (blk [(4, 0), (4, 0)]) ({ t0 with sys := { t0.sys with mode := .restricted, running := 2 } }) (by decide +kernel)⟩

theorem witness_FirmwareData_1 :
    (∃ s : State, ∃ p : Nat, ∃ l : Latch, (let b := l.cmd.block; (u8 b 0 = 1 ∨ u8 b 0 = 2 ∨ u8 b 0 = 3) ∧ (slice b 1 3 = [0, 0, 0]) ∧ (u32 b 4 % 65536 = 0) ∧ (u32 b 4 < (region (u8 b 0)).2) ∧ (1 ≤ u32 b 8) ∧ (u32 b 8 ≤ 65536) ∧ (slice b 0x0C 4 = [0, 0, 0, 0]) ∧ (u64 b 0x10 % 64 = 0) ∧ (s.turn p 0x1003 l) ∧ (s.sys.session = none))) ∧
    (∃ s : State, ∃ p : Nat, ∃ l : Latch, (let b := l.cmd.block; (u8 b 0 = 1 ∨ u8 b 0 = 2 ∨ u8 b 0 = 3) ∧ (slice b 1 3 = [0, 0, 0]) ∧ (u32 b 4 % 65536 = 0) ∧ (u32 b 4 < (region (u8 b 0)).2) ∧ (1 ≤ u32 b 8) ∧ (u32 b 8 ≤ 65536) ∧ (slice b 0x0C 4 = [0, 0, 0, 0]) ∧ (u64 b 0x10 % 64 = 0) ∧ (∃ k, (s.sys.session = some k) ∧ (s.turn p 0x1003 l)))) ∧
    (∃ s : State, ∃ p : Nat, ∃ l : Latch, (let b := l.cmd.block; (u8 b 0 = 1 ∨ u8 b 0 = 2 ∨ u8 b 0 = 3) ∧ (slice b 1 3 = [0, 0, 0]) ∧ (u32 b 4 % 65536 = 0) ∧ (u32 b 4 < (region (u8 b 0)).2) ∧ (1 ≤ u32 b 8) ∧ (u32 b 8 ≤ 65536) ∧ (slice b 0x0C 4 = [0, 0, 0, 0]) ∧ (u64 b 0x10 % 64 = 0) ∧ (∃ k, (s.sys.session = some k) ∧ (∃ r, (s.latch p = some l) ∧ (l.stage = .resumed r) ∧ (l.cmd.opcode = 0x1003) ∧ (s.sys.flashJob = none) ∧ (∃ d, (s.dmaRead l.cmd.path (u64 b 0x10) (u32 b 8) r = some d)))))) ∧
    (∃ s : State, ∃ p : Nat, ∃ l : Latch, (let b := l.cmd.block; (u8 b 0 = 1 ∨ u8 b 0 = 2 ∨ u8 b 0 = 3) ∧ (slice b 1 3 = [0, 0, 0]) ∧ (u32 b 4 % 65536 = 0) ∧ (u32 b 4 < (region (u8 b 0)).2) ∧ (1 ≤ u32 b 8) ∧ (u32 b 8 ≤ 65536) ∧ (slice b 0x0C 4 = [0, 0, 0, 0]) ∧ (u64 b 0x10 % 64 = 0) ∧ (∃ k, (s.sys.session = some k) ∧ (∃ r, (s.latch p = some l) ∧ (l.stage = .resumed r) ∧ (l.cmd.opcode = 0x1003) ∧ (s.sys.flashJob = none) ∧ (s.dmaRead l.cmd.path (u64 b 0x10) (u32 b 8) r = none))))) ∧
    (∃ s : State, ∃ p : Nat, ∃ l : Latch, (∃ r, ∃ j, (s.latch p = some l) ∧ (l.stage = .resumed r) ∧ (l.cmd.opcode = 0x1003) ∧ (s.sys.flashJob = some j) ∧ (s.sys.flashDone = some true))) ∧
    (∃ s : State, ∃ p : Nat, ∃ l : Latch, (∃ r, ∃ j, (s.latch p = some l) ∧ (l.stage = .resumed r) ∧ (l.cmd.opcode = 0x1003) ∧ (s.sys.flashJob = some j) ∧ (s.sys.flashDone = some false))) :=
  ⟨⟨on (lt 0x1003 (blk [(1, 2), (3, 0), (4, 0x7F0000), (4, 4), (4, 0), (8, 64)]) .ready) t0, 0, (lt 0x1003 (blk [(1, 2), (3, 0), (4, 0x7F0000), (4, 4), (4, 0), (8, 64)]) .ready), by decide +kernel, by decide +kernel, by decide +kernel, by decide +kernel, by decide +kernel, by decide +kernel, by decide +kernel, by decide +kernel, ⟨rfl, rfl, rfl, by decide +kernel⟩, by decide +kernel⟩,
   ⟨on (lt 0x1003 (blk [(1, 2), (3, 0), (4, 0x7F0000), (4, 4), (4, 0), (8, 64)]) .ready) ({ t0 with sys := { t0.sys with session := some 1 } }), 0, (lt 0x1003 (blk [(1, 2), (3, 0), (4, 0x7F0000), (4, 4), (4, 0), (8, 64)]) .ready), by decide +kernel, by decide +kernel, by decide +kernel, by decide +kernel, by decide +kernel, by decide +kernel, by decide +kernel, by decide +kernel, 1, by decide +kernel, ⟨rfl, rfl, rfl, by decide +kernel⟩⟩,
   ⟨on (lt 0x1003 (blk [(1, 2), (3, 0), (4, 0x7F0000), (4, 4), (4, 0), (8, 64)]) (.resumed (some [1, 2, 3, 4]))) ({ tDma with sys := { tDma.sys with session := some 1 } }), 0, (lt 0x1003 (blk [(1, 2), (3, 0), (4, 0x7F0000), (4, 4), (4, 0), (8, 64)]) (.resumed (some [1, 2, 3, 4]))), by decide +kernel, by decide +kernel, by decide +kernel, by decide +kernel, by decide +kernel, by decide +kernel, by decide +kernel, by decide +kernel, 1, by decide +kernel, some [1, 2, 3, 4], by decide +kernel, by decide +kernel, by decide +kernel, by decide +kernel, [1, 2, 3, 4], by decide +kernel⟩,
   ⟨on (lt 0x1003 (blk [(1, 2), (3, 0), (4, 0x7F0000), (4, 4), (4, 0), (8, 64)]) (.resumed none)) ({ tDma with sys := { tDma.sys with session := some 1 } }), 0, (lt 0x1003 (blk [(1, 2), (3, 0), (4, 0x7F0000), (4, 4), (4, 0), (8, 64)]) (.resumed none)), by decide +kernel, by decide +kernel, by decide +kernel, by decide +kernel, by decide +kernel, by decide +kernel, by decide +kernel, by decide +kernel, 1, by decide +kernel, none, by decide +kernel⟩,
   ⟨on (lt 0x1003 (blk [(1, 2), (3, 0), (4, 0x7F0000), (4, 4), (4, 0), (8, 64)]) (.resumed none)) ({ tDma with sys := { tDma.sys with session := some 1, flashJob := some ⟨[(0, 4)], []⟩, flashDone := some true } }), 0, (lt 0x1003 (blk [(1, 2), (3, 0), (4, 0x7F0000), (4, 4), (4, 0), (8, 64)]) (.resumed none)), none, ⟨[(0, 4)], []⟩, by decide +kernel⟩,
   ⟨on (lt 0x1003 (blk [(1, 2), (3, 0), (4, 0x7F0000), (4, 4), (4, 0), (8, 64)]) (.resumed none)) ({ tDma with sys := { tDma.sys with session := some 1, flashJob := some ⟨[(0, 4)], []⟩, flashDone := some false } }), 0, (lt 0x1003 (blk [(1, 2), (3, 0), (4, 0x7F0000), (4, 4), (4, 0), (8, 64)]) (.resumed none)), none, ⟨[(0, 4)], []⟩, by decide +kernel⟩⟩

theorem witness_FirmwareData_2 :
    (∃ s : State, ∃ p : Nat, ∃ l : Latch, (let b := l.cmd.block; (u64 b 0 % 64 = 0) ∧ (768 ≤ u32 b 8) ∧ (u32 b 8 ≤ 10551296) ∧ (slice b 0x0C 4 = [0, 0, 0, 0]) ∧ (s.turn p 0x1005 l) ∧ (s.sys.running = 3))) ∧
    (∃ s : State, ∃ p : Nat, ∃ l : Latch, (let b := l.cmd.block; (u64 b 0 % 64 = 0) ∧ (768 ≤ u32 b 8) ∧ (u32 b 8 ≤ 10551296) ∧ (slice b 0x0C 4 = [0, 0, 0, 0]) ∧ (∃ r, (s.latch p = some l) ∧ (l.stage = .resumed r) ∧ (l.cmd.opcode = 0x1005) ∧ (s.sys.running = 3) ∧ (s.dmaRead l.cmd.path (u64 b 0) (u32 b 8) r = none)))) ∧
    (∃ s : State, ∃ p : Nat, ∃ l : Latch, (let b := l.cmd.block; (u64 b 0 % 64 = 0) ∧ (768 ≤ u32 b 8) ∧ (u32 b 8 ≤ 10551296) ∧ (slice b 0x0C 4 = [0, 0, 0, 0]) ∧ (∃ r, (s.latch p = some l) ∧ (l.stage = .resumed r) ∧ (l.cmd.opcode = 0x1005) ∧ (s.sys.running = 3) ∧ (∃ d, (s.dmaRead l.cmd.path (u64 b 0) (u32 b 8) r = some d) ∧ (let o2 := padded d 0; (let o3 := o2 + padded d o2; (o3 + padded d o3 ≠ u32 b 8))))))) ∧
    (∃ s : State, ∃ p : Nat, ∃ l : Latch, (let b := l.cmd.block; (u64 b 0 % 64 = 0) ∧ (768 ≤ u32 b 8) ∧ (u32 b 8 ≤ 10551296) ∧ (slice b 0x0C 4 = [0, 0, 0, 0]) ∧ (∃ r, (s.latch p = some l) ∧ (l.stage = .resumed r) ∧ (l.cmd.opcode = 0x1005) ∧ (s.sys.running = 3) ∧ (∃ d, (s.dmaRead l.cmd.path (u64 b 0) (u32 b 8) r = some d) ∧ (let o2 := padded d 0; (let o3 := o2 + padded d o2; (o3 + padded d o3 = u32 b 8) ∧ (let v := s.board.setVerdict (imageAt d 0) (imageAt d o2) (imageAt d o3); (∃ e, (verdictCheck v = .error e))))))))) ∧
    (∃ s : State, ∃ p : Nat, ∃ l : Latch, (let b := l.cmd.block; (u64 b 0 % 64 = 0) ∧ (768 ≤ u32 b 8) ∧ (u32 b 8 ≤ 10551296) ∧ (slice b 0x0C 4 = [0, 0, 0, 0]) ∧ (∃ r, (s.latch p = some l) ∧ (l.stage = .resumed r) ∧ (l.cmd.opcode = 0x1005) ∧ (s.sys.running = 3) ∧ (∃ d, (s.dmaRead l.cmd.path (u64 b 0) (u32 b 8) r = some d) ∧ (let o2 := padded d 0; (let o3 := o2 + padded d o2; (o3 + padded d o3 = u32 b 8) ∧ (let v := s.board.setVerdict (imageAt d 0) (imageAt d o2) (imageAt d o3); (verdictCheck v = .ok ())))))))) ∧
    (∃ s : State, ∃ p : Nat, ∃ l : Latch, (let b := l.cmd.block; (u64 b 0 % 64 = 0) ∧ (768 ≤ u32 b 8) ∧ (u32 b 8 ≤ 10551296) ∧ (slice b 0x0C 4 = [0, 0, 0, 0]) ∧ (s.turn p 0x1005 l) ∧ (s.sys.running ≠ 3))) :=
  ⟨⟨on (lt 0x1005 (blk [(8, 64), (4, 10551296), (4, 0)]) .ready) tRom, 0, (lt 0x1005 (blk [(8, 64), (4, 10551296), (4, 0)]) .ready), by decide +kernel, by decide +kernel, by decide +kernel, by decide +kernel, ⟨rfl, rfl, rfl, by decide +kernel⟩, by decide +kernel⟩,
   ⟨on (lt 0x1005 (blk [(8, 64), (4, 768), (4, 0)]) (.resumed none)) tRom, 0, (lt 0x1005 (blk [(8, 64), (4, 768), (4, 0)]) (.resumed none)), by decide +kernel, by decide +kernel, by decide +kernel, by decide +kernel, none, by decide +kernel⟩,
   ⟨on (lt 0x1005 (blk [(8, 64), (4, 832), (4, 0)]) (.resumed (some (List.replicate 832 0)))) tRom, 0, (lt 0x1005 (blk [(8, 64), (4, 832), (4, 0)]) (.resumed (some (List.replicate 832 0)))), by decide +kernel, by decide +kernel, by decide +kernel, by decide +kernel, some (List.replicate 832 0), by decide +kernel, by decide +kernel, by decide +kernel, by decide +kernel, List.replicate 832 0, by decide +kernel⟩,
   ⟨on (lt 0x1005 (blk [(8, 64), (4, 768), (4, 0)]) (.resumed (some (List.replicate 768 0)))) tRom, 0, (lt 0x1005 (blk [(8, 64), (4, 768), (4, 0)]) (.resumed (some (List.replicate 768 0)))), by decide +kernel, by decide +kernel, by decide +kernel, by decide +kernel, some (List.replicate 768 0), by decide +kernel, by decide +kernel, by decide +kernel, by decide +kernel, (List.replicate 768 0), by decide +kernel, by decide +kernel, badParam 0, by decide +kernel⟩,
   ⟨on (lt 0x1005 (blk [(8, 64), (4, 960), (4, 0)]) (.resumed (some tSet))) tRom, 0, (lt 0x1005 (blk [(8, 64), (4, 960), (4, 0)]) (.resumed (some tSet))), by decide +kernel, by decide +kernel, by decide +kernel, by decide +kernel, some tSet, by decide +kernel, by decide +kernel, by decide +kernel, by decide +kernel, tSet, by decide +kernel⟩,
   ⟨on (lt 0x1005 (blk [(8, 64), (4, 768), (4, 0)]) .ready) ({ t0 with sys := { t0.sys with running := 0 } }), 0, (lt 0x1005 (blk [(8, 64), (4, 768), (4, 0)]) .ready), by decide +kernel, by decide +kernel, by decide +kernel, by decide +kernel, ⟨rfl, rfl, rfl, by decide +kernel⟩, by decide +kernel⟩⟩

theorem witness_BootAndResets_1 :
    (∃ s : State, (∃ a, ∃ c, (a < 600 ∨ c < 580))) ∧
    (∃ s : State, (∃ a, ∃ c, (600 ≤ a) ∧ (580 ≤ c))) ∧
    (∃ s : State, ((s.sys.inPorst = true))) ∧
    (∃ s : State, ((s.sys.inPorst = false))) ∧
    (∃ s : State, (∃ n, (s.sys.inPorst = false) ∧ (25 ≤ n))) ∧
    (∃ s : State, (∃ n, (s.sys.inPorst = true ∨ n < 25))) :=
  ⟨⟨t0, 600, 579, by decide +kernel⟩,
   ⟨t0, 600, 580, by decide +kernel⟩,
   ⟨({ t0 with sys := { t0.sys with inPorst := true } }), by decide +kernel⟩,
   ⟨t0, by decide +kernel⟩,
   ⟨t0, 25, by decide +kernel⟩,
   ⟨t0, 24, by decide +kernel⟩⟩

theorem witness_BootAndResets_2 :
    (∃ s : State, (∃ t, (s.sys.resetAt = some t) ∧ (t ≤ s.now) ∧ (s.sys.inPorst = false))) ∧
    (∃ s : State, (∃ t, (s.sys.resetAt = some t) ∧ (s.now < t))) ∧
    (∃ s : State, (s.sys.resetAt = none)) ∧
    (∃ s : State, (∃ j : FlashJob, (s.sys.flashJob = some j) ∧ (s.sys.flashDone = none))) ∧
    (∃ s : State, ((s.sys.flashJob = none ∨ s.sys.flashDone ≠ none))) :=
  ⟨⟨({ t0 with sys := { t0.sys with resetAt := some 200000000 } }), 200000000, by decide +kernel⟩,
   ⟨({ t0 with sys := { t0.sys with resetAt := some 200000001 } }), 200000001, by decide +kernel⟩,
   ⟨t0, by decide +kernel⟩,
   ⟨({ t0 with sys := { t0.sys with flashJob := some ⟨[(0, 4)], []⟩ } }), ⟨[(0, 4)], []⟩, by decide +kernel⟩,
   ⟨t0, by decide +kernel⟩⟩

theorem witness_GenerationPages_1 :
    (Stages formatPage false) ∧
    (Stages formatPage true) ∧
    (Rejects formatPage) ∧
    (Stages filtersPage false) ∧
    (Stages filtersPage true) ∧
    (Rejects filtersPage) :=
  ⟨stages (blk [(1, 1), (1, 0), (1, 0x30), (1, 1), (4, 0), (2, 2048), (2, 1), (1, 0), (1, 11), (1, 11), (1, 11), (1, 22), (1, 23), (1, 32), (1, 55), (1, 8), (1, 255), (2, 1)]) tAll (Ctx.new 0 0) false (by decide +kernel),
   stages (blk [(1, 1), (1, 0), (1, 0x30), (1, 1), (4, 0), (2, 2048), (2, 1), (1, 0), (1, 11), (1, 11), (1, 11), (1, 22), (1, 23), (1, 32), (1, 55), (1, 8), (1, 255), (2, 1)]) tOpen { Ctx.new 0 0 with set := some ⟨0, false, []⟩ } true (by decide +kernel),
   rejects (List.replicate 64 0xFF) tAll (Ctx.new 0 0) (badParam 0) (by decide +kernel),
   stages (blk [(1, 1), (7, 0), (8, 8)]) tAll (Ctx.new 0 0) false (by decide +kernel),
   stages (blk [(1, 1), (7, 0), (8, 8)]) tOpen { Ctx.new 0 0 with set := some ⟨0, false, []⟩ } true (by decide +kernel),
   rejects (List.replicate 64 0xFF) tAll (Ctx.new 0 0) (badParam 0) (by decide +kernel)⟩

theorem witness_GenerationPages_2 :
    (Stages blockingPage false) ∧
    (Stages blockingPage true) ∧
    (Rejects blockingPage) ∧
    (Stages projPortPage false) ∧
    (Stages projPortPage true) ∧
    (Rejects projPortPage) :=
  ⟨stages (blk [(1, 1), (1, 0), (2, 1), (4, 10), (4, 0), (4, 0)]) tAll (Ctx.new 0 0) false (by decide +kernel),
   stages (blk [(1, 1), (1, 0), (2, 1), (4, 10), (4, 0), (4, 0)]) tOpen { Ctx.new 0 0 with set := some ⟨0, false, []⟩ } true (by decide +kernel),
   rejects (List.replicate 64 0xFF) tAll (Ctx.new 0 0) (badParam 0) (by decide +kernel),
   stages (blk [(1, 1), (1, 0), (1, 0), (1, 3), (4, 0x40000000), (12, 0), (4, 0x40000000), (12, 0), (4, 0x40000000), (60, 0), (4, 1), (4, 1), (4, 0), (8, 0)]) tAll (Ctx.new 0 0) false (by decide +kernel),
   stages (blk [(1, 1), (1, 0), (1, 0), (1, 3), (4, 0x40000000), (12, 0), (4, 0x40000000), (12, 0), (4, 0x40000000), (60, 0), (4, 1), (4, 1), (4, 0), (8, 0)]) tOpen { Ctx.new 0 0 with set := some ⟨0, false, []⟩ } true (by decide +kernel),
   rejects (List.replicate 64 0xFF) tAll (Ctx.new 0 0) (badParam 0) (by decide +kernel)⟩

theorem witness_GenerationPages_3 :
    (Stages stackPage false) ∧
    (Stages stackPage true) ∧
    (Rejects stackPage) ∧
    (Stages surfacePage false) ∧
    (Stages surfacePage true) ∧
    (Rejects surfacePage) :=
  ⟨stages (blk [(1, 0), (1, 1), (1, 2), (1, 0), (2, 1), (2, 0), (2, 0), (2, 0), (2, 1), (2, 1), (1, 1), (7, 0), (8, 64)]) tAll (Ctx.new 0 0) false (by decide +kernel),
   stages (blk [(1, 0), (1, 1), (1, 2), (1, 0), (2, 1), (2, 0), (2, 0), (2, 0), (2, 1), (2, 1), (1, 1), (7, 0), (8, 64)]) tOpen { Ctx.new 0 0 with set := some ⟨0, false, []⟩ } true (by decide +kernel),
   rejects (List.replicate 64 0xFF) tAll (Ctx.new 0 0) (badParam 0) (by decide +kernel),
   stages (blk [(1, 0), (1, 1), (1, 2), (1, 1), (4, 0), (2, 64), (2, 64), (2, 1), (2, 0)]) tAll (Ctx.new 0 0) false (by decide +kernel),
   stages (blk [(1, 0), (1, 1), (1, 2), (1, 1), (4, 0), (2, 64), (2, 64), (2, 1), (2, 0)]) tOpen { Ctx.new 0 0 with set := some ⟨0, false, []⟩ } true (by decide +kernel),
   rejects (List.replicate 64 0xFF) tAll (Ctx.new 0 0) (badParam 0) (by decide +kernel)⟩

theorem witness_GenerationPages_4 :
    (Stages cornerPage false) ∧
    (Stages cornerPage true) ∧
    (Rejects cornerPage) ∧
    (Stages flowPage false) ∧
    (Stages flowPage true) ∧
    (Rejects flowPage) :=
  ⟨stages (blk [(1, 0), (1, 1), (1, 0), (1, 1), (1, 3), (1, 13), (1, 4), (1, 17), (2, 1), (2, 0)]) tAll (Ctx.new 0 0) false (by decide +kernel),
   stages (blk [(1, 0), (1, 1), (1, 0), (1, 1), (1, 3), (1, 13), (1, 4), (1, 17), (2, 1), (2, 0)]) tOpen { Ctx.new 0 0 with set := some ⟨0, false, []⟩ } true (by decide +kernel),
   rejects (List.replicate 64 0xFF) tAll (Ctx.new 0 0) (badParam 0) (by decide +kernel),
   stages (blk [(1, 0), (1, 1), (1, 0), (1, 1), (1, 4), (1, 0), (2, 1), (4, 0x3F800000), (4, 0x3F800000), (2, 1), (2, 0)]) tAll (Ctx.new 0 0) false (by decide +kernel),
   stages (blk [(1, 0), (1, 1), (1, 0), (1, 1), (1, 4), (1, 0), (2, 1), (4, 0x3F800000), (4, 0x3F800000), (2, 1), (2, 0)]) tOpen { Ctx.new 0 0 with set := some ⟨0, false, []⟩ } true (by decide +kernel),
   rejects (List.replicate 64 0xFF) tAll (Ctx.new 0 0) (badParam 0) (by decide +kernel)⟩

theorem witness_GenerationPages_5 :
    (Stages trackerPage false) ∧
    (Stages trackerPage true) ∧
    (Rejects trackerPage) ∧
    (Stages derivedPage false) ∧
    (Stages derivedPage true) ∧
    (Rejects derivedPage) :=
  ⟨stages (blk [(1, 0), (1, 1), (1, 0), (1, 1), (4, 0x3F800000), (4, 0), (6, 0), (1, 2), (1, 1), (1, 1), (3, 0)]) tAll (Ctx.new 0 0) false (by decide +kernel),
   stages (blk [(1, 0), (1, 1), (1, 0), (1, 1), (4, 0x3F800000), (4, 0), (6, 0), (1, 2), (1, 1), (1, 1), (3, 0)]) tOpen { Ctx.new 0 0 with set := some ⟨0, false, []⟩ } true (by decide +kernel),
   rejects (List.replicate 64 0xFF) tAll (Ctx.new 0 0) (badParam 0) (by decide +kernel),
   stages (blk [(1, 32), (1, 0), (1, 7), (1, 0), (4, 1042)]) tAll (Ctx.new 0 0) false (by decide +kernel),
   stages (blk [(1, 32), (1, 0), (1, 7), (1, 0), (4, 1042)]) tOpen { Ctx.new 0 0 with set := some ⟨0, false, []⟩ } true (by decide +kernel),
   rejects (List.replicate 64 0xFF) tAll (Ctx.new 0 0) (badParam 0) (by decide +kernel)⟩

theorem witness_GenerationPages_6 :
    (Stages chainPage false) ∧
    (Stages chainPage true) ∧
    (Rejects chainPage) ∧
    (Stages dcPage false) ∧
    (Stages dcPage true) ∧
    (Rejects dcPage) :=
  ⟨stages (blk [(1, 8), (1, 1), (1, 0), (1, 0), (2, 1), (2, 1), (32, 0)]) tAll (Ctx.new 0 0) false (by decide +kernel),
   stages (blk [(1, 8), (1, 1), (1, 0), (1, 0), (2, 1), (2, 1), (32, 0)]) tOpen { Ctx.new 0 0 with set := some ⟨0, false, []⟩ } true (by decide +kernel),
   rejects (List.replicate 64 0xFF) tAll (Ctx.new 0 0) (badParam 0) (by decide +kernel),
   stages (blk [(1, 8), (1, 1), (1, 0), (1, 4), (1, 0), (3, 0)]) tAll (Ctx.new 0 0) false (by decide +kernel),
   stages (blk [(1, 8), (1, 1), (1, 0), (1, 4), (1, 0), (3, 0)]) tOpen { Ctx.new 0 0 with set := some ⟨0, false, []⟩ } true (by decide +kernel),
   rejects (List.replicate 64 0xFF) tAll (Ctx.new 0 0) (badParam 0) (by decide +kernel)⟩

theorem witness_GenerationPages_7 :
    (Stages thresholdPage false) ∧
    (Stages thresholdPage true) ∧
    (Rejects thresholdPage) ∧
    (Stages bandPage false) ∧
    (Stages bandPage true) ∧
    (Rejects bandPage) :=
  ⟨stages (blk [(1, 8), (3, 0), (4, 1), (4, 1)]) tAll (Ctx.new 0 0) false (by decide +kernel),
   stages (blk [(1, 8), (3, 0), (4, 1), (4, 1)]) tOpen { Ctx.new 0 0 with set := some ⟨0, false, []⟩ } true (by decide +kernel),
   rejects (List.replicate 64 0xFF) tAll (Ctx.new 0 0) (badParam 0) (by decide +kernel),
   stages (blk [(1, 63), (1, 1), (1, 8), (1, 0), (2, 0), (1, 31), (1, 0), (4, 1)]) tAll (Ctx.new 0 0) false (by decide +kernel),
   stages (blk [(1, 63), (1, 1), (1, 8), (1, 0), (2, 0), (1, 31), (1, 0), (4, 1)]) tOpen { Ctx.new 0 0 with set := some ⟨0, false, []⟩ } true (by decide +kernel),
   rejects (List.replicate 64 0xFF) tAll (Ctx.new 0 0) (badParam 0) (by decide +kernel)⟩

theorem witness_GenerationPages_8 :
    (Stages rulePage false) ∧
    (Stages rulePage true) ∧
    (Rejects rulePage) ∧
    (Stages bindPage false) ∧
    (Stages bindPage true) ∧
    (Rejects bindPage) :=
  ⟨stages (blk [(2, 2), (1, 0), (1, 3), (1, 1), (3, 0), (1, 1), (3, 0), (4, 10), (32, 0), (1, 7), (3, 0), (4, 0xFFFFFFFF), (8, 0)]) tAll (Ctx.new 0 0) false (by decide +kernel),
   stages (blk [(2, 2), (1, 0), (1, 3), (1, 1), (3, 0), (1, 1), (3, 0), (4, 10), (32, 0), (1, 7), (3, 0), (4, 0xFFFFFFFF), (8, 0)]) tOpen { Ctx.new 0 0 with set := some ⟨0, false, []⟩ } true (by decide +kernel),
   rejects (List.replicate 64 0xFF) tAll (Ctx.new 0 0) (badParam 0) (by decide +kernel),
   stages (blk [(2, 1), (1, 0), (1, 0), (2, 1), (4, 0), (2, 1), (4, 0)]) tAll (Ctx.new 0 0) false (by decide +kernel),
   stages (blk [(2, 1), (1, 0), (1, 0), (2, 1), (4, 0), (2, 1), (4, 0)]) tOpen { Ctx.new 0 0 with set := some ⟨0, false, []⟩ } true (by decide +kernel),
   rejects (List.replicate 64 0xFF) tAll (Ctx.new 0 0) (badParam 0) (by decide +kernel)⟩

theorem witness_GenerationPages_9 :
    (Stages layersPage false) ∧
    (Stages layersPage true) ∧
    (Rejects layersPage) ∧
    (Stages approxBindPage false) ∧
    (Stages approxBindPage true) ∧
    (Rejects approxBindPage) :=
  ⟨stages (blk [(2, 1), (2, 0), (2, 1), (2, 0), (1, 4), (3, 0)]) tAll (Ctx.new 0 0) false (by decide +kernel),
   stages (blk [(2, 1), (2, 0), (2, 1), (2, 0), (1, 4), (3, 0)]) tOpen { Ctx.new 0 0 with set := some ⟨0, false, []⟩ } true (by decide +kernel),
   rejects (List.replicate 64 0xFF) tAll (Ctx.new 0 0) (badParam 0) (by decide +kernel),
   stages (blk [(2, 1), (1, 1), (1, 1), (1, 1), (3, 0), (2, 1), (2, 1), (4, 5), (4, 5)]) tAll (Ctx.new 0 0) false (by decide +kernel),
   stages (blk [(2, 1), (1, 1), (1, 1), (1, 1), (3, 0), (2, 1), (2, 1), (4, 5), (4, 5)]) tOpen { Ctx.new 0 0 with set := some ⟨0, false, []⟩ } true (by decide +kernel),
   rejects (List.replicate 64 0xFF) tAll (Ctx.new 0 0) (badParam 0) (by decide +kernel)⟩

theorem witness_GenerationPages_10 :
    (∃ (s : State) (l : Latch) (a n : Nat), s.latch 0 = some l ∧ l.cmd.opcode = filtersPage.op ∧ s.ctx? l.cmd.ctx = some (Ctx.new 0 0) ∧ l.stage = .ready ∧ s.mayStart l = true ∧ gCheck filtersPage l.cmd (Ctx.new 0 0) (s.projected l.cmd.ctx) s = .ok () ∧ filtersPage.fetch l.cmd (s.projected l.cmd.ctx) = some (a, n)) ∧
    (∃ (s : State) (l : Latch) (x : Ctx) (r : Option Bytes) (a n : Nat) (data : Bytes), s.latch 0 = some l ∧ l.cmd.opcode = filtersPage.op ∧ s.ctx? l.cmd.ctx = some x ∧ x.set = none ∧ l.stage = .resumed r ∧ gCheck filtersPage l.cmd x (s.projected l.cmd.ctx) s = .ok () ∧ filtersPage.fetch l.cmd (s.projected l.cmd.ctx) = some (a, n) ∧ s.dmaRead l.cmd.path a n r = some data ∧ filtersPage.data l.cmd data (s.projected l.cmd.ctx) = .ok ()) ∧
    (∃ (s : State) (l : Latch) (x : Ctx) (r : Option Bytes) (a n : Nat) (data : Bytes), s.latch 0 = some l ∧ l.cmd.opcode = filtersPage.op ∧ s.ctx? l.cmd.ctx = some x ∧ x.set = some ⟨0, false, []⟩ ∧ l.stage = .resumed r ∧ gCheck filtersPage l.cmd x (s.projected l.cmd.ctx) s = .ok () ∧ filtersPage.fetch l.cmd (s.projected l.cmd.ctx) = some (a, n) ∧ s.dmaRead l.cmd.path a n r = some data ∧ filtersPage.data l.cmd data (s.projected l.cmd.ctx) = .ok ()) ∧
    (∃ (s : State) (l : Latch) (x : Ctx) (e : CErr), s.latch 0 = some l ∧ l.cmd.opcode = stackPage.op ∧ s.ctx? l.cmd.ctx = some x ∧ x.set = none ∧ l.stage = .ready ∧ s.mayStart l = true ∧ gCheck stackPage l.cmd x (s.projected l.cmd.ctx) s = .ok () ∧ stackPage.reserve ⟨l.cmd.opcode, l.cmd.block, [], l.cmd.ctx, 0⟩ l.cmd.ctx (s.projected l.cmd.ctx) s.projectedAll s = .error e) ∧
    (∃ (s : State) (l : Latch) (x : Ctx) (e : CErr), s.latch 0 = some l ∧ l.cmd.opcode = stackPage.op ∧ s.ctx? l.cmd.ctx = some x ∧ x.set = some ⟨0, false, []⟩ ∧ l.stage = .ready ∧ s.mayStart l = true ∧ gCheck stackPage l.cmd x (s.projected l.cmd.ctx) s = .ok () ∧ stackPage.reserve ⟨l.cmd.opcode, l.cmd.block, [], l.cmd.ctx, 0⟩ l.cmd.ctx (s.projected l.cmd.ctx) s.projectedAll s = .error e) :=
  ⟨⟨on (lt 0x0403 (blk [(1, 1), (5, 0), (2, 1), (8, 8)])) tAll, lt 0x0403 (blk [(1, 1), (5, 0), (2, 1), (8, 8)]), 8, 4, by decide +kernel⟩,
   ⟨on (lt 0x0403 (blk [(1, 1), (5, 0), (2, 1), (8, 8)]) (.resumed (some [5, 0, 0, 0]))) tAll, lt 0x0403 (blk [(1, 1), (5, 0), (2, 1), (8, 8)]) (.resumed (some [5, 0, 0, 0])), Ctx.new 0 0, some [5, 0, 0, 0], 8, 4, [5, 0, 0, 0], by decide +kernel⟩,
   ⟨on (lt 0x0403 (blk [(1, 1), (5, 0), (2, 1), (8, 8)]) (.resumed (some [5, 0, 0, 0]))) tOpen, lt 0x0403 (blk [(1, 1), (5, 0), (2, 1), (8, 8)]) (.resumed (some [5, 0, 0, 0])), { Ctx.new 0 0 with set := some ⟨0, false, []⟩ }, some [5, 0, 0, 0], 8, 4, [5, 0, 0, 0], by decide +kernel⟩,
   ⟨on (lt 0x0504 (blk [(1, 0), (1, 1), (1, 2), (1, 0), (2, 1), (2, 0), (2, 0), (2, 0), (2, 1), (2, 1), (1, 1), (7, 0), (8, 64)])) ({ tAll with sys := { tAll.sys with dramTrained := false } }), lt 0x0504 (blk [(1, 0), (1, 1), (1, 2), (1, 0), (2, 1), (2, 0), (2, 0), (2, 0), (2, 1), (2, 1), (1, 1), (7, 0), (8, 64)]), Ctx.new 0 0, noResource, by decide +kernel⟩,
   ⟨on (lt 0x0504 (blk [(1, 0), (1, 1), (1, 2), (1, 0), (2, 1), (2, 0), (2, 0), (2, 0), (2, 1), (2, 1), (1, 1), (7, 0), (8, 64)])) ({ tOpen with sys := { tOpen.sys with dramTrained := false } }), lt 0x0504 (blk [(1, 0), (1, 1), (1, 2), (1, 0), (2, 1), (2, 0), (2, 0), (2, 0), (2, 1), (2, 1), (1, 1), (7, 0), (8, 64)]), { Ctx.new 0 0 with set := some ⟨0, false, []⟩ }, noResource, by decide +kernel⟩⟩

theorem witness_ChangeSetPages_1 :
    (∃ s : State, ∃ p : Nat, ∃ l : Latch, ∃ x : Ctx, (s.ctx? l.cmd.ctx = some x) ∧ (s.turn p 0x0210 l) ∧ (u8 l.cmd.block 2 = 0 ∨ (u8 l.cmd.block 2 = 1 ∧ u16 l.cmd.block 0 = x.gen.toNat)) ∧ (u8 l.cmd.block 3 = 0) ∧ (x.set = none)) ∧
    (∃ s : State, ∃ p : Nat, ∃ l : Latch, ∃ x : Ctx, (s.ctx? l.cmd.ctx = some x) ∧ (s.turn p 0x0210 l) ∧ (u8 l.cmd.block 2 = 0 ∨ (u8 l.cmd.block 2 = 1 ∧ u16 l.cmd.block 0 = x.gen.toNat)) ∧ (u8 l.cmd.block 3 = 0) ∧ (x.set ≠ none)) ∧
    (∃ s : State, ∃ p : Nat, ∃ l : Latch, ∃ x : Ctx, (s.ctx? l.cmd.ctx = some x) ∧ (s.turn p 0x0210 l) ∧ (u8 l.cmd.block 2 = 1) ∧ (u16 l.cmd.block 0 ≠ x.gen.toNat)) ∧
    (∃ s : State, ∃ p : Nat, ∃ l : Latch, ∃ x : Ctx, (s.ctx? l.cmd.ctx = some x) ∧ (s.turn p 0x0211 l) ∧ (x.set = none)) ∧
    (∃ s : State, ∃ p : Nat, ∃ l : Latch, ∃ x : Ctx, (s.ctx? l.cmd.ctx = some x) ∧ (s.turn p 0x0211 l) ∧ (∃ k, (x.set = some k) ∧ (k.stale = true))) ∧
    (∃ s : State, ∃ p : Nat, ∃ l : Latch, ∃ x : Ctx, (s.ctx? l.cmd.ctx = some x) ∧ (s.turn p 0x0211 l) ∧ (∃ k, (x.set = some k) ∧ (k.stale = false) ∧ (k.staged = []))) :=
  ⟨⟨on (lt 0x0210 (blk [(2, 0), (1, 1), (1, 0)])) t0, 0, (lt 0x0210 (blk [(2, 0), (1, 1), (1, 0)])), Ctx.new 0 0, by decide +kernel, ⟨rfl, rfl, rfl, by decide +kernel⟩, by decide +kernel⟩,
   ⟨on (lt 0x0210 (blk [(2, 0), (1, 0), (1, 0)])) (withCtx (fun x => { x with set := some ⟨0, false, []⟩ }) (t0)), 0, (lt 0x0210 (blk [(2, 0), (1, 0), (1, 0)])), { Ctx.new 0 0 with set := some ⟨0, false, []⟩ }, by decide +kernel, ⟨rfl, rfl, rfl, by decide +kernel⟩, by decide +kernel⟩,
   ⟨on (lt 0x0210 (blk [(2, 1), (1, 1), (1, 0)])) t0, 0, (lt 0x0210 (blk [(2, 1), (1, 1), (1, 0)])), Ctx.new 0 0, by decide +kernel, ⟨rfl, rfl, rfl, by decide +kernel⟩, by decide +kernel⟩,
   ⟨on (lt 0x0211 []) t0, 0, (lt 0x0211 []), Ctx.new 0 0, by decide +kernel, ⟨rfl, rfl, rfl, by decide +kernel⟩, by decide +kernel⟩,
   ⟨on (lt 0x0211 []) (withCtx (fun x => { x with set := some ⟨0, true, []⟩ }) (t0)), 0, (lt 0x0211 []), { Ctx.new 0 0 with set := some ⟨0, true, []⟩ }, by decide +kernel, ⟨rfl, rfl, rfl, by decide +kernel⟩, ⟨0, true, []⟩, by decide +kernel⟩,
   ⟨on (lt 0x0211 []) (withCtx (fun x => { x with set := some ⟨0, false, []⟩ }) (t0)), 0, (lt 0x0211 []), { Ctx.new 0 0 with set := some ⟨0, false, []⟩ }, by decide +kernel, ⟨rfl, rfl, rfl, by decide +kernel⟩, ⟨0, false, []⟩, by decide +kernel⟩⟩

theorem witness_ChangeSetPages_2 :
    (∃ s : State, ∃ p : Nat, ∃ l : Latch, ∃ x : Ctx, (s.ctx? l.cmd.ctx = some x) ∧ (s.turn p 0x0211 l) ∧ (∃ k, (x.set = some k) ∧ (k.stale = false) ∧ (k.staged ≠ []) ∧ (s.setBlocked k.staged = true))) ∧
    (∃ s : State, ∃ p : Nat, ∃ l : Latch, ∃ x : Ctx, (s.ctx? l.cmd.ctx = some x) ∧ (s.turn p 0x0211 l) ∧ (∃ k, (x.set = some k) ∧ (k.stale = false) ∧ (k.staged ≠ []) ∧ (s.setBlocked k.staged = false))) ∧
    (Passes 0x0212 (fun c s => need (s.setOpen c.ctx) notInSet)) ∧
    (Fails 0x0212 (fun c s => need (s.setOpen c.ctx) notInSet)) ∧
    (Passes 0x0214 (fun _ _ => .ok ())) ∧
    (Passes 0x0215 (fun c _ => allOf [inRange (u8 c.block 0) 0 1 0, reserved c.block 1 3])) :=
  ⟨⟨on (lt 0x0211 []) (withCtx (fun x => { x with set := some ⟨0, false, [tG]⟩ }) (t0.modHost fun h => { h with armed := [⟨1, 1, ⟨0, 0⟩, [tG], 5⟩] })), 0, (lt 0x0211 []), { Ctx.new 0 0 with set := some ⟨0, false, [tG]⟩ }, by decide +kernel, ⟨rfl, rfl, rfl, by decide +kernel⟩, ⟨0, false, [tG]⟩, by decide +kernel⟩,
   ⟨on (lt 0x0211 []) (withCtx (fun x => { x with set := some ⟨0, false, [tG]⟩ }) (t0)), 0, (lt 0x0211 []), { Ctx.new 0 0 with set := some ⟨0, false, [tG]⟩ }, by decide +kernel, ⟨rfl, rfl, rfl, by decide +kernel⟩, ⟨0, false, [tG]⟩, by decide +kernel⟩,
   passes ([]) (withCtx (fun x => { x with set := some ⟨0, false, []⟩ }) t0) (by decide +kernel),
   fails (List.replicate 64 0xFF) t0 (notInSet) (by decide +kernel),
   passes ([]) (t0) (by decide +kernel),
   passes (List.replicate 64 0) (t0) (by decide +kernel)⟩

theorem witness_ChangeSetPages_3 :
    Fails 0x0215 (fun c _ => allOf [inRange (u8 c.block 0) 0 1 0, reserved c.block 1 3]) :=
  fails (List.replicate 64 0xFF) t0 (badParam 0) (by decide +kernel)

theorem witness_CommitOfASet :
    (∃ s : State, ∃ c : Nat, ∃ x : Ctx, ∃ l : List GCmd, ∃ at' : Nat, (s.ctx? c = some x) ∧ ((∀ g ∈ l, (g.elem s).blk ≤ 2))) ∧
    (∃ s : State, ∃ c : Nat, ∃ x : Ctx, ∃ l : List GCmd, ∃ at' : Nat, (s.ctx? c = some x) ∧ ((∀ g ∈ l, (g.elem s).blk ≤ 2)) ∧ (let t := s.commit c l at'; (∃ y, (t.ctx? c = some y)))) ∧
    (∃ s : State, ∃ c : Nat, ∃ x : Ctx, ∃ l : List GCmd, ∃ at' : Nat, (s.ctx? c = some x) ∧ ((∀ g ∈ l, (g.elem s).blk ≤ 2)) ∧ (∃ d, (d ≠ c))) :=
  ⟨⟨t0, 1, Ctx.new 0 0, [tG], 7, by decide +kernel⟩,
   ⟨t0, 1, Ctx.new 0 0, [tG], 7, by decide +kernel, by decide +kernel, ((t0.commit 1 [tG] 7).ctx? 1).getD (Ctx.new 0 0), by decide +kernel⟩,
   ⟨t0, 1, Ctx.new 0 0, [tG], 7, by decide +kernel, by decide +kernel, 2, by decide +kernel⟩⟩

theorem witness_QuiesceCommit_1 :
    (∃ s : State, ∃ p : Nat, ∃ l : Latch, ∃ x : Ctx, ∃ k : ChangeSet, (s.ctx? l.cmd.ctx = some x) ∧ (s.turn p 0x0213 l) ∧ (x.set = some k) ∧ (k.stale = false) ∧ (100 ≤ u32 l.cmd.block 0) ∧ (u32 l.cmd.block 0 ≤ 100000) ∧ (x.quiesce = none) ∧ (k.staged = [])) ∧
    (∃ s : State, ∃ p : Nat, ∃ l : Latch, ∃ x : Ctx, ∃ k : ChangeSet, (s.ctx? l.cmd.ctx = some x) ∧ (s.turn p 0x0213 l) ∧ (x.set = some k) ∧ (k.stale = false) ∧ (100 ≤ u32 l.cmd.block 0) ∧ (u32 l.cmd.block 0 ≤ 100000) ∧ (x.quiesce = none) ∧ (k.staged ≠ []) ∧ (s.setBlocked k.staged = false) ∧ ((∀ g ∈ k.staged, s.reach (g.elem s).domain = .ok ()))) ∧
    (∃ s : State, ∃ p : Nat, ∃ l : Latch, ∃ x : Ctx, ∃ k : ChangeSet, (s.ctx? l.cmd.ctx = some x) ∧ (s.turn p 0x0213 l) ∧ (x.set = some k) ∧ (k.stale = false) ∧ (100 ≤ u32 l.cmd.block 0) ∧ (u32 l.cmd.block 0 ≤ 100000) ∧ (x.quiesce = none) ∧ (k.staged ≠ []) ∧ (s.setBlocked k.staged = true) ∧ ((∀ g ∈ k.staged, s.reach (g.elem s).domain = .ok ()))) ∧
    (∃ s : State, ∃ p : Nat, ∃ l : Latch, ∃ x : Ctx, ∃ k : ChangeSet, (∃ c, ∃ q, (s.ctx? c = some x) ∧ (x.quiesce = some q) ∧ (x.set = some k) ∧ (s.inputsLeft c = true))) ∧
    (∃ s : State, ∃ p : Nat, ∃ l : Latch, ∃ x : Ctx, ∃ k : ChangeSet, (∃ c, ∃ q, (s.ctx? c = some x) ∧ (x.quiesce = some q) ∧ (x.set = some k) ∧ (s.inputsLeft c = false) ∧ ((s.virFlush c).resultsLeft c = true ∨ q.deadline < s.now))) ∧
    (∃ s : State, ∃ p : Nat, ∃ l : Latch, ∃ x : Ctx, ∃ k : ChangeSet, (∃ c, ∃ q, (s.ctx? c = some x) ∧ (x.quiesce = some q) ∧ (x.set = some k) ∧ (s.inputsLeft c = false) ∧ ((s.virFlush c).resultsLeft c = false) ∧ (s.now ≤ q.deadline) ∧ (let f := s.virFlush c; (k.stale = false)))) :=
  ⟨⟨on (lt 0x0213 (blk [(4, 100)])) (withCtx (fun x => { x with set := some ⟨0, false, []⟩ }) (t0)), 0, (lt 0x0213 (blk [(4, 100)])), { Ctx.new 0 0 with set := some ⟨0, false, []⟩ }, ⟨0, false, []⟩, by decide +kernel, ⟨rfl, rfl, rfl, by decide +kernel⟩, by decide +kernel⟩,
   ⟨on (lt 0x0213 (blk [(4, 100000)])) (withCtx (fun x => { x with set := some ⟨0, false, [tG]⟩ }) (t0)), 0, (lt 0x0213 (blk [(4, 100000)])), { Ctx.new 0 0 with set := some ⟨0, false, [tG]⟩ }, ⟨0, false, [tG]⟩, by decide +kernel, ⟨rfl, rfl, rfl, by decide +kernel⟩, by decide +kernel⟩,
   ⟨on (lt 0x0213 (blk [(4, 100000)])) (withCtx (fun x => { x with set := some ⟨0, false, [tG]⟩ }) (t0.modHost fun h => { h with armed := [⟨1, 1, ⟨0, 0⟩, [tG], 5⟩] })), 0, (lt 0x0213 (blk [(4, 100000)])), { Ctx.new 0 0 with set := some ⟨0, false, [tG]⟩ }, ⟨0, false, [tG]⟩, by decide +kernel, ⟨rfl, rfl, rfl, by decide +kernel⟩, by decide +kernel⟩,
   ⟨(withCtx (fun x => { x with set := some ⟨0, false, [tG]⟩, quiesce := some (tQz 300000000) }) ((t0.modViridian fun v => { v with queue := [tMem] }))), 0, (lt 0 []), { Ctx.new 0 0 with set := some ⟨0, false, [tG]⟩, quiesce := some (tQz 300000000) }, ⟨0, false, [tG]⟩, 1, tQz 300000000, by decide +kernel⟩,
   ⟨(withCtx (fun x => { x with set := some ⟨0, false, [tG]⟩, quiesce := some (tQz 300000000) }) ((t0.modViridian fun v => { v with closing := [tFused] }))), 0, (lt 0 []), { Ctx.new 0 0 with set := some ⟨0, false, [tG]⟩, quiesce := some (tQz 300000000) }, ⟨0, false, [tG]⟩, 1, tQz 300000000, by decide +kernel⟩,
   ⟨(withCtx (fun x => { x with set := some ⟨0, false, [tG]⟩, quiesce := some (tQz 200000000) }) (t0)), 0, (lt 0 []), { Ctx.new 0 0 with set := some ⟨0, false, [tG]⟩, quiesce := some (tQz 200000000) }, ⟨0, false, [tG]⟩, 1, tQz 200000000, by decide +kernel⟩⟩

theorem witness_QuiesceCommit_2 :
    (∃ s : State, ∃ p : Nat, ∃ l : Latch, ∃ x : Ctx, ∃ k : ChangeSet, (∃ c, ∃ q, (s.ctx? c = some x) ∧ (x.quiesce = some q) ∧ (x.set = some k) ∧ (s.inputsLeft c = false) ∧ ((s.virFlush c).resultsLeft c = false) ∧ (s.now ≤ q.deadline) ∧ (k.stale = true))) ∧
    (∃ s : State, ∃ p : Nat, ∃ l : Latch, ∃ x : Ctx, ∃ k : ChangeSet, (∃ c, ∃ q, (s.ctx? c = some x) ∧ (x.quiesce = some q) ∧ (q.deadline ≤ s.now))) ∧
    (∃ s : State, ∃ p : Nat, ∃ l : Latch, ∃ x : Ctx, ∃ k : ChangeSet, (∃ c, ∃ q, (s.ctx? c = some x) ∧ (x.quiesce = some q) ∧ (s.now < q.deadline))) ∧
    (∃ s : State, ∃ p : Nat, ∃ l : Latch, ∃ x : Ctx, ∃ k : ChangeSet, (∃ c, (s.ctx? c = some x) ∧ (x.quiesce = none))) :=
  ⟨⟨(withCtx (fun x => { x with set := some ⟨0, true, [tG]⟩, quiesce := some (tQz 200000000) }) (t0)), 0, (lt 0 []), { Ctx.new 0 0 with set := some ⟨0, true, [tG]⟩, quiesce := some (tQz 200000000) }, ⟨0, true, [tG]⟩, 1, tQz 200000000, by decide +kernel⟩,
   ⟨(withCtx (fun x => { x with set := some ⟨0, false, [tG]⟩, quiesce := some (tQz 200000000) }) (t0)), 0, (lt 0 []), { Ctx.new 0 0 with set := some ⟨0, false, [tG]⟩, quiesce := some (tQz 200000000) }, ⟨0, false, [tG]⟩, 1, tQz 200000000, by decide +kernel⟩,
   ⟨(withCtx (fun x => { x with set := some ⟨0, false, [tG]⟩, quiesce := some (tQz 200000001) }) (t0)), 0, (lt 0 []), { Ctx.new 0 0 with set := some ⟨0, false, [tG]⟩, quiesce := some (tQz 200000001) }, ⟨0, false, [tG]⟩, 1, tQz 200000001, by decide +kernel⟩,
   ⟨t0, 0, (lt 0 []), Ctx.new 0 0, ⟨0, false, []⟩, 1, by decide +kernel⟩⟩

theorem witness_GuardAndFaultPages_1 :
    (Passes 0x0D01 accessSetCheck) ∧
    (Fails 0x0D01 accessSetCheck) ∧
    (Passes 0x0D03 (fun c _ => need (u32 c.block 0 < 2 ^ 19) (badParam 0))) ∧
    (Fails 0x0D03 (fun c _ => need (u32 c.block 0 < 2 ^ 19) (badParam 0))) ∧
    (Passes 0x0D04 (fun _ _ => .ok ())) ∧
    (Passes 0x0F01 (fun _ _ => .ok ())) :=
  ⟨passes (blk [(1, 2), (1, 31), (1, 6), (1, 15), (2, 0x100), (2, 0xFFF), (8, 0x20000000)]) (t0) (by decide +kernel),
   fails (List.replicate 64 0xFF) t0 (badParam 0) (by decide +kernel),
   passes (List.replicate 64 0) (t0) (by decide +kernel),
   fails (List.replicate 64 0xFF) t0 (badParam 0) (by decide +kernel),
   passes ([]) (t0) (by decide +kernel),
   passes ([]) (t0) (by decide +kernel)⟩

theorem witness_GuardAndFaultPages_2 :
    (Passes 0x0F04 selftestCheck) ∧
    (Fails 0x0F04 selftestCheck) ∧
    (Passes 0x0F05 (fun _ _ => .ok ())) ∧
    (Passes 0x0F07 (fun _ _ => .ok ())) ∧
    (Passes 0x0F03 (fun _ s => need s.sys.session.isNone busy)) ∧
    (Resumes 0x0F03) :=
  ⟨passes (blk [(1, 2), (15, 0)]) (t0) (by decide +kernel),
   fails (List.replicate 64 0xFF) t0 (badParam 0) (by decide +kernel),
   passes ([]) (t0) (by decide +kernel),
   passes ([]) (t0) (by decide +kernel),
   passes ([]) (t0) (by decide +kernel),
   resumes 0x0F03⟩

theorem witness_GuardAndFaultPages_3 :
    Starts 0x0F03 (fun _ s => need s.sys.session.isNone busy)
    (fun _ _ => some ⟨[(flLog, 0x100000)], []⟩) :=
  starts ([]) (t0) (by decide +kernel)

theorem witness_TablesLogAndDebugWindow_1 :
    (∃ s : State, ∃ p : Nat, ∃ l : Latch, (let b := l.cmd.block; (s.turn p 0x0D02 l) ∧ (u8 b 0 ≤ 18) ∧ (u8 b 1 = 0) ∧ (u16 b 2 < guardEntries (u8 b 0)) ∧ (1 ≤ u16 b 4) ∧ (u16 b 2 + u16 b 4 ≤ guardEntries (u8 b 0)) ∧ (u16 b 6 = 0) ∧ (u64 b 8 % 8 = 0) ∧ (let d := s.entryBytes (u8 b 0) (u16 b 4) (u16 b 2); (∃ t, (s.dmaWrite (s.pathFn l.cmd.path) (u64 b 8) d = some t))))) ∧
    (∃ s : State, ∃ p : Nat, ∃ l : Latch, (let b := l.cmd.block; (s.turn p 0x0D02 l) ∧ (u8 b 0 ≤ 18) ∧ (u8 b 1 = 0) ∧ (u16 b 2 < guardEntries (u8 b 0)) ∧ (1 ≤ u16 b 4) ∧ (u16 b 2 + u16 b 4 ≤ guardEntries (u8 b 0)) ∧ (u16 b 6 = 0) ∧ (u64 b 8 % 8 = 0) ∧ (let d := s.entryBytes (u8 b 0) (u16 b 4) (u16 b 2); (s.dmaWrite (s.pathFn l.cmd.path) (u64 b 8) d = none)))) ∧
    (∃ s : State, ∃ p : Nat, ∃ l : Latch, (let b := l.cmd.block; (s.turn p 0x0F02 l) ∧ (1 ≤ u32 b 4) ∧ (u32 b 4 ≤ 16384) ∧ (u64 b 8 % 8 = 0) ∧ (s.validLog = []))) ∧
    (∃ s : State, ∃ p : Nat, ∃ l : Latch, (let b := l.cmd.block; (s.turn p 0x0F02 l) ∧ (1 ≤ u32 b 4) ∧ (u32 b 4 ≤ 16384) ∧ (u64 b 8 % 8 = 0) ∧ (let got := ((s.validLog.filter fun e => u32 b 0 ≤ e.1).take (u32 b 4)).map fun e => e.2; (∃ e, ∃ es, (s.validLog = e :: es) ∧ (got = []))))) ∧
    (∃ s : State, ∃ p : Nat, ∃ l : Latch, (let b := l.cmd.block; (s.turn p 0x0F02 l) ∧ (1 ≤ u32 b 4) ∧ (u32 b 4 ≤ 16384) ∧ (u64 b 8 % 8 = 0) ∧ (let got := ((s.validLog.filter fun e => u32 b 0 ≤ e.1).take (u32 b 4)).map fun e => e.2; (∃ e, ∃ es, ∃ u : State, (s.validLog = e :: es) ∧ (got ≠ []) ∧ (s.dmaWrite l.cmd.fn (u64 b 8) got.flatten = some u))))) ∧
    (∃ s : State, ∃ p : Nat, ∃ l : Latch, (let b := l.cmd.block; (s.turn p 0x0F02 l) ∧ (1 ≤ u32 b 4) ∧ (u32 b 4 ≤ 16384) ∧ (u64 b 8 % 8 = 0) ∧ (let got := ((s.validLog.filter fun e => u32 b 0 ≤ e.1).take (u32 b 4)).map fun e => e.2; (got ≠ []) ∧ (s.dmaWrite l.cmd.fn (u64 b 8) got.flatten = none)))) :=
  ⟨⟨on (lt 0x0D02 (blk [(1, 0), (1, 0), (2, 0), (2, 1), (2, 0), (8, 8)])) tDma, 0, (lt 0x0D02 (blk [(1, 0), (1, 0), (2, 0), (2, 1), (2, 0), (8, 8)])), ⟨rfl, rfl, rfl, by decide +kernel⟩, by decide +kernel, by decide +kernel, by decide +kernel, by decide +kernel, by decide +kernel, by decide +kernel, by decide +kernel, ((on (lt 0x0D02 (blk [(1, 0), (1, 0), (2, 0), (2, 1), (2, 0), (8, 8)])) tDma).dmaWrite 0 8 ((on (lt 0x0D02 (blk [(1, 0), (1, 0), (2, 0), (2, 1), (2, 0), (8, 8)])) tDma).entryBytes 0 1 0)).getD t0, by decide +kernel⟩,
   ⟨on (lt 0x0D02 (blk [(1, 0), (1, 0), (2, 63), (2, 1), (2, 0), (8, 8)])) t0, 0, (lt 0x0D02 (blk [(1, 0), (1, 0), (2, 63), (2, 1), (2, 0), (8, 8)])), ⟨rfl, rfl, rfl, by decide +kernel⟩, by decide +kernel⟩,
   ⟨on (lt 0x0F02 (blk [(4, 0), (4, 1), (8, 8)])) t0, 0, (lt 0x0F02 (blk [(4, 0), (4, 1), (8, 8)])), ⟨rfl, rfl, rfl, by decide +kernel⟩, by decide +kernel⟩,
   ⟨on (lt 0x0F02 (blk [(4, 1), (4, 1), (8, 8)])) (tDma.modFaults fun f => { f with log := [(0, tLog)] }), 0, (lt 0x0F02 (blk [(4, 1), (4, 1), (8, 8)])), ⟨rfl, rfl, rfl, by decide +kernel⟩, by decide +kernel, by decide +kernel, by decide +kernel, (0, tLog), [], by decide +kernel⟩,
   ⟨on (lt 0x0F02 (blk [(4, 0), (4, 1), (8, 8)])) (tDma.modFaults fun f => { f with log := [(0, tLog)] }), 0, (lt 0x0F02 (blk [(4, 0), (4, 1), (8, 8)])), ⟨rfl, rfl, rfl, by decide +kernel⟩, by decide +kernel, by decide +kernel, by decide +kernel, (0, tLog), [], ((on (lt 0x0F02 (blk [(4, 0), (4, 1), (8, 8)])) (tDma.modFaults fun f => { f with log := [(0, tLog)] })).dmaWrite 0 8 tLog).getD t0, by decide +kernel⟩,
   ⟨on (lt 0x0F02 (blk [(4, 0), (4, 1), (8, 8)])) (t0.modFaults fun f => { f with log := [(0, tLog)] }), 0, (lt 0x0F02 (blk [(4, 0), (4, 1), (8, 8)])), ⟨rfl, rfl, rfl, by decide +kernel⟩, by decide +kernel⟩⟩

theorem witness_TablesLogAndDebugWindow_2 :
    (∃ s : State, ∃ p : Nat, ∃ l : Latch, (let b := l.cmd.block; (s.turn p 0x0F06 l) ∧ (slice b 0x61 3 = [0, 0, 0]) ∧ (∃ n, (s.faults.nonce = some n) ∧ (s.board.keyOk (b.take 97) = true) ∧ (signed (b.take 97) (slice b 0x64 96) (n ++ leBytes 8 s.board.serial.toNat) = true)))) ∧
    (∃ s : State, ∃ p : Nat, ∃ l : Latch, (let b := l.cmd.block; (s.turn p 0x0F06 l) ∧ (slice b 0x61 3 = [0, 0, 0]) ∧ (∃ n, (s.faults.nonce = some n) ∧ (s.board.keyOk (b.take 97) = false ∨ signed (b.take 97) (slice b 0x64 96) (n ++ leBytes 8 s.board.serial.toNat) = false)))) ∧
    (∃ s : State, ∃ p : Nat, ∃ l : Latch, (let b := l.cmd.block; (s.turn p 0x0F06 l) ∧ (slice b 0x61 3 = [0, 0, 0]) ∧ (s.faults.nonce = none))) ∧
    (∃ s : State, ∃ p : Nat, ∃ l : Latch, (∃ v : Word, (bit v 0 = true))) ∧
    (∃ s : State, ∃ p : Nat, ∃ l : Latch, (∃ v : Word, (bit v 0 = false))) ∧
    (∃ s : State, ∃ p : Nat, ∃ l : Latch, (∃ g : Nat, ∃ i : Nat, (i < guardEntries g) ∧ (let e := s.guardEntry g i; (bit e.2.2.2 3 = true)))) :=
  ⟨⟨on (lt 0x0F06 (tKey ++ List.replicate 3 0 ++ tSign ((List.replicate 48 7) ++ leBytes 8 State.reset.board.serial.toNat))) ({ (tDma.modFaults fun f => { f with nonce := some (List.replicate 48 7) }) with board := { tDma.board with keyHash := sha384 tKey } }), 0, (lt 0x0F06 (tKey ++ List.replicate 3 0 ++ tSign ((List.replicate 48 7) ++ leBytes 8 State.reset.board.serial.toNat))), ⟨rfl, rfl, rfl, by decide +kernel⟩, by decide +kernel, (List.replicate 48 7), by decide +kernel⟩,
   ⟨on (lt 0x0F06 (tKey ++ List.replicate 3 0 ++ List.replicate 96 0)) ({ (tDma.modFaults fun f => { f with nonce := some (List.replicate 48 7) }) with board := { tDma.board with keyHash := sha384 tKey } }), 0, (lt 0x0F06 (tKey ++ List.replicate 3 0 ++ List.replicate 96 0)), ⟨rfl, rfl, rfl, by decide +kernel⟩, by decide +kernel, (List.replicate 48 7), by decide +kernel⟩,
   ⟨on (lt 0x0F06 (tKey ++ List.replicate 3 0 ++ List.replicate 96 0)) t0, 0, (lt 0x0F06 (tKey ++ List.replicate 3 0 ++ List.replicate 96 0)), ⟨rfl, rfl, rfl, by decide +kernel⟩, by decide +kernel⟩,
   ⟨t0, 0, (lt 0 []), 1, by decide +kernel⟩,
   ⟨t0, 0, (lt 0 []), 0, by decide +kernel⟩,
   ⟨tGrd 0x9, 0, (lt 0 []), 2, 5, by decide +kernel⟩⟩

theorem witness_TablesLogAndDebugWindow_3 :
    (∃ s : State, ∃ p : Nat, ∃ l : Latch, (∃ g : Nat, ∃ i : Nat, (i < guardEntries g) ∧ (let e := s.guardEntry g i; (bit e.2.2.2 3 = false) ∧ (bit e.2.2.2 0 = false)))) ∧
    (∃ s : State, ∃ p : Nat, ∃ l : Latch, (∃ g : Nat, ∃ i : Nat, (i < guardEntries g) ∧ (let e := s.guardEntry g i; (bit e.2.2.2 3 = false) ∧ (bit e.2.2.2 0 = false) ∧ (regionOk g (e.1.toNat + fld e.2.1 7 0 * 0x100000000) (fld e.2.1 13 8) = true)))) ∧
    (∃ s : State, ∃ p : Nat, ∃ l : Latch, (∃ c : Nat, ∃ u : Nat, ∃ x, (s.faults.pairs.get? (pairKey c u) = some x) ∧ (∃ r, (x.pend = some r) ∧ (x.stagedAt + 1000000 ≤ s.now)))) ∧
    (∃ s : State, ∃ p : Nat, ∃ l : Latch, (∃ c : Nat, ∃ u : Nat, ∃ x, (s.faults.pairs.get? (pairKey c u) = some x) ∧ (x.pend = none ∨ s.now < x.stagedAt + 1000000))) ∧
    (∃ s : State, ∃ p : Nat, ∃ l : Latch, (∃ e, ∃ es, (s.faults.queue = e :: es) ∧ (s.sys.flashJob = none) ∧ (s.sys.inPorst = false))) ∧
    (∃ s : State, ∃ p : Nat, ∃ l : Latch, (∃ e, ∃ es, (s.faults.queue = e :: es) ∧ (s.sys.flashJob ≠ none))) :=
  ⟨⟨tGrd 0, 0, (lt 0 []), 2, 5, by decide +kernel⟩,
   ⟨tGrd 0, 0, (lt 0 []), 2, 5, by decide +kernel⟩,
   ⟨(t0.modFaults fun f => { f with pairs := [(pairKey 4 0, ⟨5, 199000000, some ⟨4, 0, 0xFFFF, 0, [], 2, st 5, true, none, 1⟩⟩)] }), 0, (lt 0 []), 4, 0, ⟨5, 199000000, some ⟨4, 0, 0xFFFF, 0, [], 2, st 5, true, none, 1⟩⟩, by decide +kernel, ⟨4, 0, 0xFFFF, 0, [], 2, st 5, true, none, 1⟩, by decide +kernel⟩,
   ⟨(t0.modFaults fun f => { f with pairs := [(pairKey 4 0, ⟨5, 199000001, some ⟨4, 0, 0xFFFF, 0, [], 2, st 5, true, none, 1⟩⟩)] }), 0, (lt 0 []), 4, 0, ⟨5, 199000001, some ⟨4, 0, 0xFFFF, 0, [], 2, st 5, true, none, 1⟩⟩, by decide +kernel⟩,
   ⟨(t0.modFaults fun f => { f with queue := [[1]] }), 0, (lt 0 []), [1], [], by decide +kernel⟩,
   ⟨(({ t0 with sys := { t0.sys with flashJob := some ⟨[(0, 4)], []⟩ } }).modFaults fun f => { f with queue := [[1]] }), 0, (lt 0 []), [1], [], by decide +kernel⟩⟩

theorem witness_TablesLogAndDebugWindow_4 :
    (∃ s : State, ∃ p : Nat, ∃ l : Latch, ((s.faults.queue = []))) ∧
    (∃ s : State, ∃ p : Nat, ∃ l : Latch, (s.turn p 0x0F06 l) ∧ (reserved l.cmd.block 97 3 ≠ .ok ())) :=
  ⟨⟨t0, 0, (lt 0 []), by decide +kernel⟩,
   ⟨on (lt 0x0F06 (List.replicate 97 0 ++ [1, 0, 0] ++ List.replicate 96 0)) t0, 0, lt 0x0F06 (List.replicate 97 0 ++ [1, 0, 0] ++ List.replicate 96 0), ⟨rfl, rfl, rfl, by decide +kernel⟩, by decide +kernel⟩⟩

theorem witness_FirstMatchDecides :
    (∃ s : State, ∃ a : Nat, ∃ m : Nat, ∃ wr : Bool, (masterValid m = false)) ∧
    (∃ s : State, ∃ a : Nat, ∃ m : Nat, ∃ wr : Bool, (masterValid m = true) ∧ (inMap a = false)) ∧
    (∃ s : State, ∃ a : Nat, ∃ m : Nat, ∃ wr : Bool, (masterValid m = true) ∧ (inMap a = true) ∧ (∃ i, (i < guardEntries (guardOf a)) ∧ (entryMatches (s.guardEntry (guardOf a) i) a m = true) ∧ ((∀ j, j < i → entryMatches (s.guardEntry (guardOf a) j) a m = false)) ∧ (let w := (s.guardEntry (guardOf a) i).2.2.2; (bit w (if wr then 2 else 1) = false)))) ∧
    (∃ s : State, ∃ a : Nat, ∃ m : Nat, ∃ wr : Bool, (masterValid m = true) ∧ (inMap a = true) ∧ (∃ i, (i < guardEntries (guardOf a)) ∧ (entryMatches (s.guardEntry (guardOf a) i) a m = true) ∧ ((∀ j, j < i → entryMatches (s.guardEntry (guardOf a) j) a m = false)) ∧ (let w := (s.guardEntry (guardOf a) i).2.2.2; (bit w (if wr then 2 else 1) = true) ∧ (s.mapped a = false)))) ∧
    (∃ s : State, ∃ a : Nat, ∃ m : Nat, ∃ wr : Bool, (masterValid m = true) ∧ (inMap a = true) ∧ (∃ i, (i < guardEntries (guardOf a)) ∧ (entryMatches (s.guardEntry (guardOf a) i) a m = true) ∧ ((∀ j, j < i → entryMatches (s.guardEntry (guardOf a) j) a m = false)) ∧ (let w := (s.guardEntry (guardOf a) i).2.2.2; (bit w (if wr then 2 else 1) = true) ∧ (s.mapped a = true)))) ∧
    (∃ s : State, ∃ a : Nat, ∃ m : Nat, ∃ wr : Bool, (masterValid m = true) ∧ (inMap a = true) ∧ ((∀ i, i < guardEntries (guardOf a) → entryMatches (s.guardEntry (guardOf a) i) a m = false))) :=
  ⟨⟨t0, 0x20000000, 5, false, by decide +kernel⟩,
   ⟨t0, 0x1000000, 1, false, by decide +kernel⟩,
   ⟨tGrd 0x5, 0x20000000, 1, false, by decide +kernel, by decide +kernel, 5, by decide +kernel⟩,
   ⟨tGrd 0x3, 0x200FFFFC, 1, false, by decide +kernel, by decide +kernel, 5, by decide +kernel⟩,
   ⟨tGrd 0x3, 0x20000000, 1, false, by decide +kernel, by decide +kernel, 5, by decide +kernel⟩,
   ⟨tGrd 0x2, 0x20000000, 1, false, by decide +kernel⟩⟩

theorem witness_InternalAccesses_1 :
    (∃ s : State, ∃ m : Nat, ∃ a : Nat, ∃ len : Nat, ∃ ecc : Nat, ∃ b : Bytes, (inMap a = true) ∧ (s.domUp (targetDomain a) = false) ∧ (s.domOnDemand (targetDomain a) = false)) ∧
    (∃ s : State, ∃ m : Nat, ∃ a : Nat, ∃ len : Nat, ∃ ecc : Nat, ∃ b : Bytes, (isMemory a = true)) ∧
    (∃ s : State, ∃ m : Nat, ∃ a : Nat, ∃ len : Nat, ∃ ecc : Nat, ∃ b : Bytes, (s.hostReach)) ∧
    (∃ s : State, ∃ m : Nat, ∃ a : Nat, ∃ len : Nat, ∃ ecc : Nat, ∃ b : Bytes, (s.hostReach) ∧ (s.regBit R.FLT_DEBUG 0 = false)) ∧
    (∃ s : State, ∃ m : Nat, ∃ a : Nat, ∃ len : Nat, ∃ ecc : Nat, ∃ b : Bytes, (s.hostReach) ∧ (s.regBit R.FLT_DEBUG 0 = false)) ∧
    (∃ s : State, ∃ m : Nat, ∃ a : Nat, ∃ len : Nat, ∃ c : Nat, (inMap a = true) ∧ (s.domUp (targetDomain a) = true) ∧ (ownGuard a len false = false) ∧ ((s.touch (targetDomain a)).denial a m false = some c)) :=
  ⟨⟨(t0.setReg R.IVR_DOM_UP 0).setReg (R.IVR_DOMd_CFG 2) 0, 1, 0x20000000, 4, 0, [1, 0, 0, 0], by decide +kernel⟩,
   ⟨t0, 1, 0x10000000, 4, 0, [1, 0, 0, 0], by decide +kernel⟩,
   ⟨t0, 1, 0x20000000, 4, 0, [1, 0, 0, 0], (by unfold State.hostReach; decide +kernel)⟩,
   ⟨t0, 1, 0x20000000, 4, 0, [1, 0, 0, 0], (by unfold State.hostReach; decide +kernel), by decide +kernel⟩,
   ⟨t0, 1, 0x20000000, 4, 0, [1, 0, 0, 0], (by unfold State.hostReach; decide +kernel), by decide +kernel⟩,
   ⟨tGrd 0x5, 1, 0x20000000, 4, 2, by decide +kernel⟩⟩

theorem witness_InternalAccesses_2 :
    (∃ s : State, ∃ m : Nat, ∃ a : Nat, ∃ len : Nat, ∃ ecc : Nat, (inMap a = true) ∧ (s.domUp (targetDomain a) = true) ∧ (ownGuard a len false = true ∨ (s.touch (targetDomain a)).denial a m false = none) ∧ (ecc = 0)) ∧
    (∃ s : State, ∃ m : Nat, ∃ a : Nat, ∃ b : Bytes, ∃ c : Nat, (inMap a = true) ∧ (s.domUp (targetDomain a) = true) ∧ (ownGuard a b.length true = false) ∧ ((s.touch (targetDomain a)).denial a m true = some c)) ∧
    (∃ s : State, ∃ m : Nat, ∃ a : Nat, ∃ b : Bytes, (inMap a = true) ∧ (s.domUp (targetDomain a) = true) ∧ (ownGuard a b.length true = false) ∧ ((s.touch (targetDomain a)).denial a m true = none)) ∧
    (∃ s : State, ∃ a : Nat, ∃ b : Bytes, (inMap a = true) ∧ (s.domUp (targetDomain a) = true) ∧ (ownGuard a b.length true = true)) ∧
    (∃ s : State, ∃ m : Nat, ∃ a : Nat, ∃ n : Nat, ∃ v : BitVec 64, (inMap a = true) ∧ (s.domUp (targetDomain a) = true) ∧ (ownGuard a (leBytes n v.toNat).length true = false) ∧ ((s.touch (targetDomain a)).denial a m true = none)) ∧
    (∃ s : State, ∃ a : Nat, ∃ n : Nat, ∃ v : BitVec 64, (inMap a = true) ∧ (s.domUp (targetDomain a) = true) ∧ (ownGuard a (leBytes n v.toNat).length true = true)) :=
  ⟨⟨tGrd 0x3, 1, 0x20000000, 4, 0, by decide +kernel⟩,
   ⟨tGrd 0x3, 1, 0x20000000, [1, 0, 0, 0], 2, by decide +kernel⟩,
   ⟨tGrd 0x5, 1, 0x20000000, [1, 0, 0, 0], by decide +kernel⟩,
   ⟨t0, R.SLT_SEND 5 + 8, [1, 0, 0, 0], by decide +kernel⟩,
   ⟨tGrd 0x5, 1, 0x20000000, 4, 7, by decide +kernel⟩,
   ⟨t0, R.SLT_SEND 5 + 8, 4, 7, by decide +kernel⟩⟩

theorem witness_InternalAccesses_3 :
    ∃ m : Nat, ∃ a : Nat, (inMap a = false) ∧ (masterValid m = true) :=
  ⟨0x240, 0x30000000, by decide +kernel⟩

theorem witness_SlateSendAndReceive_1 :
    (∃ s : State, (∃ m : Nat, ∃ q : Nat, ∃ off : Nat, (s.domUp dFAB = true) ∧ ((s.stage m).stalled = none) ∧ (s.denial (R.SLT_SEND q + off) m true = none) ∧ (off ≠ 0) ∧ (off ≤ 0x20))) ∧
    (∃ s : State, (∃ m : Nat, ∃ q : Nat, ∃ off : Nat, (s.domUp dFAB = true) ∧ ((s.stage m).stalled = none) ∧ (∃ c, (s.denial (R.SLT_SEND q + off) m true = some c)))) ∧
    (∃ s : State, (∃ m : Nat, ∃ q : Nat, ∃ h, (s.domUp dFAB = true) ∧ ((s.stage m).stalled = none) ∧ (s.denial (R.SLT_SEND q) m true = none) ∧ (bit h 31 = false))) ∧
    (∃ s : State, (∃ m : Nat, ∃ q : Nat, ∃ h, (s.domUp dFAB = true) ∧ ((s.stage m).stalled = none) ∧ (s.denial (R.SLT_SEND q) m true = none) ∧ (let b := if (s.stage m).queue = q then s.stage m else { StageBuf.init with queue := q }; (let t := { s with readErr := false }; (∃ c, (bit h 31 = true) ∧ (t.refusal q h b = some c)))))) ∧
    (∃ s : State, (∃ m : Nat, ∃ q : Nat, ∃ h, (s.domUp dFAB = true) ∧ ((s.stage m).stalled = none) ∧ (s.denial (R.SLT_SEND q) m true = none) ∧ (let b := if (s.stage m).queue = q then s.stage m else { StageBuf.init with queue := q }; (let t := { s with readErr := false }; (bit h 31 = true) ∧ (t.refusal q h b = none) ∧ (t.mustStall q b = true))))) ∧
    (∃ s : State, (∃ m : Nat, ∃ q : Nat, ∃ h, (s.domUp dFAB = true) ∧ ((s.stage m).stalled = none) ∧ (s.denial (R.SLT_SEND q) m true = none) ∧ (let b := if (s.stage m).queue = q then s.stage m else { StageBuf.init with queue := q }; (let t := { s with readErr := false }; (bit h 31 = true) ∧ (t.refusal q h b = none) ∧ (t.mustStall q b = false))))) :=
  ⟨⟨tQ 0x11 [], 0, 5, 0x20, by decide +kernel⟩,
   ⟨tQ 0x11 [], 1, 5, 0x20, by decide +kernel, by decide +kernel, 1, by decide +kernel⟩,
   ⟨tQ 0x11 [], 0, 5, 0x7FFFFFFF, by decide +kernel⟩,
   ⟨tQ 0x11 [], 0, 5, 0x90000000, by decide +kernel, by decide +kernel, by decide +kernel, 2, by decide +kernel⟩,
   ⟨tQ 0x01 [tD], 0, 5, 0x80000000, by decide +kernel⟩,
   ⟨tQ 0x11 [], 0, 5, 0x80000000, by decide +kernel⟩⟩

theorem witness_SlateSendAndReceive_2 :
    (∃ s : State, (∃ m : Nat, ∃ h, (s.clocksRun) ∧ (s.domUp dFAB = true) ∧ (m < 4096) ∧ ((s.stage m).stalled = some h) ∧ (let b := s.stage m; (∃ c, (s.refusal b.queue h b = some c))))) ∧
    (∃ s : State, (∃ m : Nat, ∃ h, (s.clocksRun) ∧ (s.domUp dFAB = true) ∧ (m < 4096) ∧ ((s.stage m).stalled = some h) ∧ (let b := s.stage m; (s.refusal b.queue h b = none) ∧ (s.mustStall b.queue b = true)))) ∧
    (∃ s : State, (∃ m : Nat, ∃ h, (s.clocksRun) ∧ (s.domUp dFAB = true) ∧ (m < 4096) ∧ ((s.stage m).stalled = some h) ∧ (let b := s.stage m; (s.refusal b.queue h b = none) ∧ (s.mustStall b.queue b = false)))) ∧
    (∃ s : State, (∃ m : Nat, ∃ q : Nat, (s.domUp dFAB = true) ∧ (s.denial (R.SLT_POP q) m false = none) ∧ (∃ d, ∃ ds, (s.queue q = d :: ds) ∧ (s.qEn q = true) ∧ (s.qType q = 0)))) ∧
    (∃ s : State, (∃ m : Nat, ∃ q : Nat, (s.domUp dFAB = true) ∧ (s.denial (R.SLT_POP q) m false = none) ∧ (s.queue q = []))) ∧
    (∃ s : State, (∃ m : Nat, ∃ q : Nat, ∃ off, ∃ d, (s.domUp dFAB = true) ∧ (s.denial (R.SLT_POP q + off) m false = none) ∧ (off ≠ 0) ∧ (s.slate.pop.get? m = some (q, d)) ∧ (s.qType q = 0))) :=
  ⟨⟨(withStage (⟨5, [], some 0x80000000⟩ : StageBuf) (tQ 0x10 [])), 0, 0x80000000, (by unfold State.clocksRun; decide +kernel), by decide +kernel, by decide +kernel, by decide +kernel, 1, by decide +kernel⟩,
   ⟨(withStage (⟨5, [], some 0x80000000⟩ : StageBuf) (tQ 0x01 [tD])), 0, 0x80000000, (by unfold State.clocksRun; decide +kernel), by decide +kernel⟩,
   ⟨(withStage (⟨5, [], some 0x80000000⟩ : StageBuf) (tQ 0x11 [tD])), 0, 0x80000000, (by unfold State.clocksRun; decide +kernel), by decide +kernel⟩,
   ⟨tQ 0x11 [tD], 0, 5, by decide +kernel, by decide +kernel, tD, [], by decide +kernel⟩,
   ⟨tQ 0x11 [], 0, 5, by decide +kernel⟩,
   ⟨((tQ 0x11 []).modSlate fun x => { x with pop := [(0, (5, tD))] }), 0, 5, 0x1C, tD, by decide +kernel⟩⟩

theorem witness_SlateSendAndReceive_3 :
    (∃ s : State, (∃ q : Nat, ∃ d, ∃ rest, (s.clocksRun) ∧ (s.domUp dFAB = true) ∧ (takeLanding s.landable s.slate.landing = some ((q, d), rest)))) ∧
    (∃ s : State, (s.clocksRun) ∧ (takeLanding s.landable s.slate.landing = none)) ∧
    (∃ s : State, (∃ q : Nat, ∃ v, (s.qEn q = true) ∧ (s.qType q = 1) ∧ (s.domUp dFAB = true) ∧ (let n := (v - s.reg (R.SLT_Qn_DEQ_SEQ q)).toNat; (n ≤ s.occupancy q - s.inLanding q)))) ∧
    (∃ s : State, (∃ q : Nat, ∃ v, (s.qEn q = true) ∧ (s.qType q = 1) ∧ (s.domUp dFAB = true) ∧ (let n := (v - s.reg (R.SLT_Qn_DEQ_SEQ q)).toNat; (s.occupancy q - s.inLanding q < n)))) ∧
    (∃ s : State, (∃ p, ∃ l, (s.turn p 0x1101 l) ∧ (u16 l.cmd.block 0 ≤ 4095) ∧ (s.reach dFAB = .ok ()) ∧ (1 ≤ u16 l.cmd.block 2) ∧ (u16 l.cmd.block 2 ≤ 4096 - u16 l.cmd.block 0) ∧ (u32 l.cmd.block 4 = 0) ∧ (u64 l.cmd.block 8 % 8 = 0) ∧ (let d := (List.range (u16 l.cmd.block 2)).flatMap fun i => s.queueEntry l.cmd.fn (u16 l.cmd.block 0 + i); (∃ t, (s.dmaWrite (s.pathFn l.cmd.path) (u64 l.cmd.block 8) d = some t))))) ∧
    (∃ s : State, (∃ p, ∃ l, (s.turn p 0x1101 l) ∧ (u16 l.cmd.block 0 ≤ 4095) ∧ (s.reach dFAB = .ok ()) ∧ (1 ≤ u16 l.cmd.block 2) ∧ (u16 l.cmd.block 2 ≤ 4096 - u16 l.cmd.block 0) ∧ (u32 l.cmd.block 4 = 0) ∧ (u64 l.cmd.block 8 % 8 = 0) ∧ (let d := (List.range (u16 l.cmd.block 2)).flatMap fun i => s.queueEntry l.cmd.fn (u16 l.cmd.block 0 + i); (s.dmaWrite (s.pathFn l.cmd.path) (u64 l.cmd.block 8) d = none)))) :=
  ⟨⟨((tQ 0x3 [tD]).modSlate fun x => { x with landing := [(5, tD)] }), 5, tD, [], (by unfold State.clocksRun; decide +kernel), by decide +kernel⟩,
   ⟨tQ 0x11 [], (by unfold State.clocksRun; decide +kernel), by decide +kernel⟩,
   ⟨tQ 0x13 [tD], 5, 1, by decide +kernel⟩,
   ⟨((tQ 0x3 [tD]).modSlate fun x => { x with landing := [(5, tD)] }), 5, 1, by decide +kernel⟩,
   ⟨on (lt 0x1101 (blk [(2, 4095), (2, 1), (4, 0), (8, 8)])) tDma, 0, (lt 0x1101 (blk [(2, 4095), (2, 1), (4, 0), (8, 8)])), ⟨rfl, rfl, rfl, by decide +kernel⟩, by decide +kernel, by decide +kernel, by decide +kernel, by decide +kernel, by decide +kernel, by decide +kernel, ((on (lt 0x1101 (blk [(2, 4095), (2, 1), (4, 0), (8, 8)])) tDma).dmaWrite 0 8 ((on (lt 0x1101 (blk [(2, 4095), (2, 1), (4, 0), (8, 8)])) tDma).queueEntry 0 4095)).getD t0, by decide +kernel⟩,
   ⟨on (lt 0x1101 (blk [(2, 0), (2, 4096), (4, 0), (8, 8)])) t0, 0, (lt 0x1101 (blk [(2, 0), (2, 4096), (4, 0), (8, 8)])), ⟨rfl, rfl, rfl, by decide +kernel⟩, by decide +kernel⟩⟩

theorem witness_SlateSendAndReceive_4 :
    ∃ s : State, ∃ m : Nat, ∃ q : Nat, ∃ h : Word, ∃ b : StageBuf, (let t := (((s.settleReply q b).setQueue q (s.queue q ++ [s.descOf m q h b])).countCommit q); (s.qType q = 0) ∧ (t.qType q = 0)) :=
  ⟨tQ 0x11 [], 0, 5, 0x80000000, { StageBuf.init with queue := 5 }, by decide +kernel⟩

theorem witness_SlateCombining_1 :
    (∃ s : State, ∃ c : Nat, (∃ q : Nat, ∃ d, ∃ ds, (s.clocksRun) ∧ (s.domUp dFAB = true) ∧ (s.cEn c = true) ∧ ((s.comb c).result = none) ∧ (s.combQueue c = some q) ∧ (s.queue q = d :: ds) ∧ (let n := s.cLen c * 4; (let i := d.arg.toNat % 256; (let r := d.arg.toNat / 65536 % 65536; (let rd := s.engineRead q (d.addr.toNat % 2 ^ 40) n; (let b := rd.2.getD (List.replicate n 0); (let t := rd.1.consume q 1; (t.cFp c = false ∨ t.cOrdered c = false) ∧ (r = t.cRound c))))))))) ∧
    (∃ s : State, ∃ c : Nat, (∃ q : Nat, ∃ d, ∃ ds, (s.clocksRun) ∧ (s.domUp dFAB = true) ∧ (s.cEn c = true) ∧ ((s.comb c).result = none) ∧ (s.combQueue c = some q) ∧ (s.queue q = d :: ds) ∧ (let n := s.cLen c * 4; (let i := d.arg.toNat % 256; (let r := d.arg.toNat / 65536 % 65536; (let rd := s.engineRead q (d.addr.toNat % 2 ^ 40) n; (let b := rd.2.getD (List.replicate n 0); (let t := rd.1.consume q 1; (t.cFp c = false ∨ t.cOrdered c = false) ∧ (r ≠ t.cRound c))))))))) ∧
    (∃ s : State, ∃ c : Nat, (∃ q : Nat, ∃ d, ∃ ds, (s.clocksRun) ∧ (s.domUp dFAB = true) ∧ (s.cEn c = true) ∧ ((s.comb c).result = none) ∧ (s.combQueue c = some q) ∧ (s.queue q = d :: ds) ∧ (let n := s.cLen c * 4; (let i := d.arg.toNat % 256; (let r := d.arg.toNat / 65536 % 65536; (let rd := s.engineRead q (d.addr.toNat % 2 ^ 40) n; (let b := rd.2.getD (List.replicate n 0); (let t := rd.1.consume q 1; (t.cFp c = true) ∧ (t.cOrdered c = true) ∧ (let u := t.engineWrite q (t.cBuf c + r % 2 * t.cRoundSize c + i * s.cLen c * 4) b; (r = u.cRound c)))))))))) ∧
    (∃ s : State, ∃ c : Nat, (s.clocksRun) ∧ (s.cEn c = false ∨ (s.comb c).result ≠ none ∨ s.combQueue c = none)) ∧
    (∃ s : State, ∃ c : Nat, (∃ v : Word, (s.domUp dFAB = true) ∧ (let r := v.toNat % 65536; (r ∈ (s.comb c).held)))) ∧
    (∃ s : State, ∃ c : Nat, (∃ v : Word, (s.domUp dFAB = true) ∧ (let r := v.toNat % 65536; (r ∉ (s.comb c).held)))) :=
  ⟨⟨tComb 0x70021 Comb.init [tD], 3, 5, tD, [], (by unfold State.clocksRun; decide +kernel), by decide +kernel⟩,
   ⟨tComb 0x70021 Comb.init [{ tD with arg := 0x10000 }], 3, 5, { tD with arg := 0x10000 }, [], (by unfold State.clocksRun; decide +kernel), by decide +kernel⟩,
   ⟨tComb 0x70027 Comb.init [tD], 3, 5, tD, [], (by unfold State.clocksRun; decide +kernel), by decide +kernel⟩,
   ⟨t0, 3, (by unfold State.clocksRun; decide +kernel), by decide +kernel⟩,
   ⟨tComb 0x70021 { Comb.init with result := some (0, 3), held := [0] } [], 3, 0, by decide +kernel⟩,
   ⟨t0, 3, 0, by decide +kernel⟩⟩

theorem witness_SlateCombining_2 :
    (∃ s : State, ∃ c : Nat, (∃ q : Nat, ∃ d, ∃ ds, (s.clocksRun) ∧ (s.domUp dFAB = true) ∧ (s.cEn c = true) ∧ ((s.comb c).result = none) ∧ (s.combQueue c = some q) ∧ (s.queue q = d :: ds) ∧ (let n := s.cLen c * 4; (let i := d.arg.toNat % 256; (let r := d.arg.toNat / 65536 % 65536; (let rd := s.engineRead q (d.addr.toNat % 2 ^ 40) n; (let b := rd.2.getD (List.replicate n 0); (let t := rd.1.consume q 1; (t.cFp c = true) ∧ (t.cOrdered c = true) ∧ (let u := t.engineWrite q (t.cBuf c + r % 2 * t.cRoundSize c + i * s.cLen c * 4) b; (r ≠ u.cRound c)))))))))) ∧
    (∃ s : State, ∃ c : Nat, (∃ r, ∃ bm, (s.clocksRun) ∧ (s.domUp dFAB = true) ∧ ((s.comb c).result = some (r, bm)) ∧ (let q := s.cResultQ c; (let a := s.cBuf c + r % 2 * s.cRoundSize c; (let h := w32 (0x80000000 + s.qNet q * 0x10000000 + s.regFld (R.SLT_Cn_KIND c) 15 0); (let b : StageBuf := ⟨q, [(0x08, w32 a), (0x0C, w32 (a / 0x100000000)), (0x10, w32 (s.cLen c * 4)), (0x14, w32 r), (0x18, w32 bm.toNat), (0x1C, w32 (bm.toNat / 0x100000000))], none⟩; (s.qEn q = true) ∧ (s.qNet q = 0) ∧ (s.qType q ≤ 1) ∧ (s.mustStall q b = false))))))) ∧
    (∃ s : State, ∃ c : Nat, (∃ r, ∃ bm, (s.clocksRun) ∧ (s.domUp dFAB = true) ∧ ((s.comb c).result = some (r, bm)) ∧ (let q := s.cResultQ c; (let a := s.cBuf c + r % 2 * s.cRoundSize c; (let b : StageBuf := ⟨q, [(0x08, w32 a), (0x0C, w32 (a / 0x100000000)), (0x10, w32 (s.cLen c * 4)), (0x14, w32 r), (0x18, w32 bm.toNat), (0x1C, w32 (bm.toNat / 0x100000000))], none⟩; (s.qEn q = false ∨ s.qNet q ≠ 0 ∨ 1 < s.qType q ∨ s.mustStall q b = true) ∧ ((s.stage (combStage c)).stalled = none)))))) ∧
    (∃ s : State, ∃ c : Nat, (∃ r, ∃ bm, (s.clocksRun) ∧ (s.domUp dFAB = true) ∧ ((s.comb c).result = some (r, bm)) ∧ (let q := s.cResultQ c; (let a := s.cBuf c + r % 2 * s.cRoundSize c; (let b : StageBuf := ⟨q, [(0x08, w32 a), (0x0C, w32 (a / 0x100000000)), (0x10, w32 (s.cLen c * 4)), (0x14, w32 r), (0x18, w32 bm.toNat), (0x1C, w32 (bm.toNat / 0x100000000))], none⟩; (s.qEn q = false ∨ s.qNet q ≠ 0 ∨ 1 < s.qType q ∨ s.mustStall q b = true) ∧ ((s.stage (combStage c)).stalled ≠ none)))))) :=
  ⟨⟨tComb 0x70027 Comb.init [{ tD with arg := 0x10000 }], 3, 5, { tD with arg := 0x10000 }, [], (by unfold State.clocksRun; decide +kernel), by decide +kernel⟩,
   ⟨tComb 0x70021 { Comb.init with result := some (0, 3), held := [0] } [], 3, 0, 3, (by unfold State.clocksRun; decide +kernel), by decide +kernel, by decide +kernel, by decide +kernel, by decide +kernel, by decide +kernel, by decide +kernel⟩,
   ⟨(tComb 0x70021 ({ Comb.init with result := some (0, 3), held := [0] }) []).setReg (R.SLT_Qn_CFG 7) 0x10, 3, 0, 3, (by unfold State.clocksRun; decide +kernel), by decide +kernel, by decide +kernel, by decide +kernel, by decide +kernel⟩,
   ⟨((tComb 0x70021 ({ Comb.init with result := some (0, 3), held := [0] }) []).setReg (R.SLT_Qn_CFG 7) 0x10).modSlate fun x => { x with staging := [(0x10003, (⟨7, [], some 0x80000000⟩ : StageBuf))] }, 3, 0, 3, (by unfold State.clocksRun; decide +kernel), by decide +kernel, by decide +kernel, by decide +kernel, by decide +kernel⟩⟩

theorem witness_IntegerSumsInAnyOrder :
    ∃ n : Nat, ∃ acc : List Int, ∃ l : List (List Int), ∃ k : List (List Int), (l.Perm k) ∧ ((∀ v ∈ l, v.length = n)) ∧ ((acc = [] ∨ acc.length = n)) :=
  ⟨2, [], [[2147483647, 1], [1, -1], [-2147483648, 3]], [[-2147483648, 3], [2147483647, 1], [1, -1]], by decide +kernel⟩

theorem witness_SourceSensing_1 :
    (∃ s : State, ∃ n : Nat, ((n < 512))) ∧
    (∃ s : State, ∃ n : Nat, (∃ l : Bool, (512 ≤ n) ∧ ((s.src n).raw = l))) ∧
    (∃ s : State, ∃ n : Nat, (∃ l : Bool, (512 ≤ n) ∧ ((s.src n).raw ≠ l) ∧ (s.ivory.state = 0 ∨ s.ivory.state = 2))) ∧
    (∃ s : State, ∃ n : Nat, (∃ l : Bool, (512 ≤ n) ∧ ((s.src n).raw ≠ l) ∧ (s.ivory.state ≠ 0) ∧ (s.ivory.state ≠ 2))) ∧
    (∃ s : State, ∃ n : Nat, ((s.ivory.state = 0 ∨ s.ivory.state = 2))) ∧
    (∃ s : State, ∃ n : Nat, (∃ e : Edge, (s.ivory.state ≠ 0) ∧ (s.ivory.state ≠ 2) ∧ (edgeMatches (s.sense n) (decide (e = .rise)) = true))) :=
  ⟨⟨t0, 511, by decide +kernel⟩,
   ⟨t0, 512, false, by decide +kernel⟩,
   ⟨t0, 512, true, by decide +kernel⟩,
   ⟨({ t0 with ivory := { t0.ivory with state := 1 } }), 512, true, by decide +kernel⟩,
   ⟨t0, 512, by decide +kernel⟩,
   ⟨({ t0 with ivory := { t0.ivory with state := 1 } }), 512, .rise, by decide +kernel⟩⟩

theorem witness_SourceSensing_2 :
    (∃ s : State, ∃ n : Nat, (∃ e : Edge, (edgeMatches (s.sense n) (decide (e = .rise)) = false))) ∧
    (∃ s : State, ∃ n : Nat, (∃ v : Word, (v.toNat % 1024 = n) ∧ (544 ≤ n))) ∧
    (∃ s : State, ∃ n : Nat, ((s.domUp dCTL = true))) ∧
    (∃ s : State, ∃ n : Nat, ((s.src n).becameAt + s.holdoffUs n * 1000 ≤ s.now) ∧ (s.target n = 5) ∧ (s.eligible n = true) ∧ (s.domUp dCTL = true)) ∧
    (∃ s : State, ∃ n : Nat, (s.now < (s.src n).becameAt + s.holdoffUs n * 1000)) ∧
    (∃ n : Nat, ∃ v : Word, (v.toNat % 1024 = n) ∧ (n < 544)) :=
  ⟨⟨({ t0 with ivory := { t0.ivory with state := 1 } }), 512, .fall, by decide +kernel⟩,
   ⟨t0, 544, 544, by decide +kernel⟩,
   ⟨t0, 0, by decide +kernel⟩,
   ⟨((tInt 5 3 [] none).setReg (R.CARM_Sn_CFG 0) (1 + 5 * 512 + 3 * 16)), 0, by decide +kernel⟩,
   ⟨((tInt 5 3 [] none).setReg (R.CARM_Sn_MOD 0) 1), 0, by decide +kernel⟩,
   ⟨543, 0x400 + 543, by decide +kernel⟩⟩

theorem witness_SourceSensing_3 :
    (∃ s : State, ∃ n : Nat, ∃ x : Src, (s.src n = x) ∧ (x.raw = x.filtered) ∧ (x.run = 0)) ∧
    (∃ s : State, ∃ n : Nat, ∃ x : Src, (s.src n = x) ∧ (x.raw = x.filtered) ∧ (x.run ≠ 0)) ∧
    (∃ s : State, ∃ n : Nat, ∃ x : Src, (s.src n = x) ∧ (x.raw ≠ x.filtered) ∧ (x.run < s.filt n)) ∧
    (∃ s : State, ∃ n : Nat, ∃ x : Src, (s.src n = x) ∧ (x.raw ≠ x.filtered) ∧ (s.filt n ≤ x.run)) ∧
    (∃ s : State, ∃ n : Nat, ((s.src n).active = true ∨ (s.src n).relayed = true)) :=
  ⟨⟨t0.setSrc 511 { Src.init with raw := false, run := 0 }, 511, { Src.init with raw := false, run := 0 }, by decide +kernel⟩,
   ⟨t0.setSrc 511 { Src.init with raw := false, run := 2 }, 511, { Src.init with raw := false, run := 2 }, by decide +kernel⟩,
   ⟨(t0.setReg (R.CARM_Sn_CFG 511) 0x000F0005).setSrc 511 { Src.init with raw := true, run := 1 }, 511, { Src.init with raw := true, run := 1 }, by decide +kernel⟩,
   ⟨(t0.setReg (R.CARM_Sn_CFG 511) 0x000F0005).setSrc 511 { Src.init with raw := true, run := 15 }, 511, { Src.init with raw := true, run := 15 }, by decide +kernel⟩,
   ⟨t0.setSrc 511 { Src.init with relayed := true }, 511, by decide +kernel⟩⟩

theorem witness_DeliveryAndCompletion_1 :
    (∃ s : State, ∃ t : Nat, (s.domUp dCTL = true) ∧ (s.clocksRun) ∧ ((s.tgt t).prov = none) ∧ (s.candidate t = none)) ∧
    (∃ s : State, ∃ t : Nat, (s.domUp dCTL = true) ∧ (s.clocksRun) ∧ (∃ p, ∃ c, ((s.tgt t).prov = some p) ∧ (s.candidate t = some c) ∧ (c.1 < p.1))) ∧
    (∃ s : State, ∃ t : Nat, (s.domUp dCTL = true) ∧ (s.clocksRun) ∧ (∃ p, ((s.tgt t).prov = some p) ∧ ((∀ c, s.candidate t = some c → p.1 ≤ c.1)))) ∧
    (∃ s : State, ∃ t : Nat, (s.domUp dCTL = true) ∧ (s.clocksRun) ∧ ((s.tgt t).prov = none)) ∧
    (∃ s : State, ∃ t : Nat, (s.domUp dCTL = true) ∧ (s.clocksRun) ∧ (∃ v : Word, ∃ e, ∃ es, (t < 5) ∧ ((s.tgt t).stack = e :: es) ∧ (v.toNat % 32 = e.1))) ∧
    (∃ s : State, ∃ t : Nat, (s.domUp dCTL = true) ∧ (s.clocksRun) ∧ (∃ v : Word, ∃ e, ∃ es, (t < 5) ∧ ((s.tgt t).stack = e :: es) ∧ (v.toNat % 32 ≠ e.1))) :=
  ⟨⟨t0, 0, by decide +kernel, (by unfold State.clocksRun; decide +kernel), by decide +kernel⟩,
   ⟨(tInt 0 3 [] (some (4, 9))), 0, by decide +kernel, (by unfold State.clocksRun; decide +kernel), (4, 9), (3, 0), by decide +kernel⟩,
   ⟨(tInt 0 3 [] (some (3, 9))), 0, by decide +kernel, (by unfold State.clocksRun; decide +kernel), (3, 9), by decide +kernel⟩,
   ⟨t0, 0, by decide +kernel, (by unfold State.clocksRun; decide +kernel), by decide +kernel⟩,
   ⟨(tInt 0 3 [(4, 9)] none), 0, by decide +kernel, (by unfold State.clocksRun; decide +kernel), 4, (4, 9), [], by decide +kernel⟩,
   ⟨(tInt 0 3 [(4, 9)] none), 0, by decide +kernel, (by unfold State.clocksRun; decide +kernel), 5, (4, 9), [], by decide +kernel⟩⟩

theorem witness_DeliveryAndCompletion_2 :
    (∃ s : State, ∃ t : Nat, (s.domUp dCTL = true) ∧ (s.clocksRun) ∧ ((t < 5) ∧ ((s.tgt t).stack = []))) ∧
    (∃ s : State, ∃ t : Nat, (s.domUp dCTL = true) ∧ (s.clocksRun) ∧ (∃ v : Word, (t < 5) ∧ (bit v 0 = true))) ∧
    (∃ s : State, ∃ t : Nat, (s.domUp dCTL = true) ∧ (s.clocksRun) ∧ (∃ v : Word, (bit v 0 = false))) ∧
    (∃ s : State, ∃ t : Nat, (s.domUp dCTL = true) ∧ (s.clocksRun) ∧ (∃ c, (s.candidate 5 = some c) ∧ (s.carmine.lastRelay + 100 ≤ s.now))) ∧
    (∃ s : State, ∃ t : Nat, (s.domUp dCTL = true) ∧ (s.clocksRun) ∧ (∃ c, (s.candidate 5 = some c) ∧ (s.now < s.carmine.lastRelay + 100))) ∧
    (∃ s : State, ∃ t : Nat, (s.domUp dCTL = true) ∧ (s.clocksRun) ∧ (s.candidate 5 = none)) :=
  ⟨⟨t0, 0, by decide +kernel, (by unfold State.clocksRun; decide +kernel), by decide +kernel⟩,
   ⟨t0, 0, by decide +kernel, (by unfold State.clocksRun; decide +kernel), 1, by decide +kernel⟩,
   ⟨t0, 0, by decide +kernel, (by unfold State.clocksRun; decide +kernel), 4, by decide +kernel⟩,
   ⟨(tInt 5 3 [] none), 0, by decide +kernel, (by unfold State.clocksRun; decide +kernel), (3, 0), by decide +kernel⟩,
   ⟨((tInt 5 3 [] none).modCarmine fun k => { k with lastRelay := 199999901 }), 0, by decide +kernel, (by unfold State.clocksRun; decide +kernel), (3, 0), by decide +kernel⟩,
   ⟨t0, 0, by decide +kernel, (by unfold State.clocksRun; decide +kernel), by decide +kernel⟩⟩

theorem witness_DeliveryAndCompletion_3 :
    (∃ s : State, ∃ t : Nat, ∃ c : Nat × Nat, (s.domUp dCTL = true) ∧ (s.clocksRun) ∧ ((s.tgt t).prov = none) ∧ ((s.tgt t).exitAt = some s.now) ∧ (s.candidate t = some c) ∧ (beats c.1 (s.tgt t).stack = true)) ∧
    (∃ s : State, ∃ t : Nat, ∃ c : Nat × Nat, (s.domUp dCTL = true) ∧ (s.clocksRun) ∧ ((s.tgt t).prov = none) ∧ ((s.tgt t).exitAt = some s.now) ∧ (s.candidate t = some c) ∧ (beats c.1 (s.tgt t).stack = false)) ∧
    (∃ s : State, ∃ t : Nat, ∃ c : Nat × Nat, (s.domUp dCTL = true) ∧ (s.clocksRun) ∧ ((s.tgt t).prov = none) ∧ ((s.tgt t).exitAt ≠ some s.now) ∧ (s.candidate t = some c) ∧ (beats c.1 (s.tgt t).stack = true)) ∧
    (∃ s : State, ∃ t : Nat, ∃ c : Nat × Nat, (s.domUp dCTL = true) ∧ (s.clocksRun) ∧ ((s.tgt t).prov = none) ∧ ((s.tgt t).exitAt ≠ some s.now) ∧ (s.candidate t = some c) ∧ (beats c.1 (s.tgt t).stack = false)) :=
  ⟨⟨(tInt 0 3 [(4, 9)] none).setTgt 0 { Target.init with stack := [(4, 9)], exitAt := some 200000000 }, 0, (3, 0), by decide +kernel, (by unfold State.clocksRun; decide +kernel), by decide +kernel⟩,
   ⟨(tInt 0 3 [(3, 9)] none).setTgt 0 { Target.init with stack := [(3, 9)], exitAt := some 200000000 }, 0, (3, 0), by decide +kernel, (by unfold State.clocksRun; decide +kernel), by decide +kernel⟩,
   ⟨tInt 0 3 [(4, 9)] none, 0, (3, 0), by decide +kernel, (by unfold State.clocksRun; decide +kernel), by decide +kernel⟩,
   ⟨tInt 0 3 [(3, 9)] none, 0, (3, 0), by decide +kernel, (by unfold State.clocksRun; decide +kernel), by decide +kernel⟩⟩

theorem witness_PriorityStacksStayOrdered :
    (∃ s : State, ∃ t : Nat, (s.stacksOrdered) ∧ (t < 5)) ∧
    (∃ s : State, ∃ u : State, ∃ t : Nat, ∃ v : Word, ∃ c : Instr, (t < 5) ∧ (s.stacksOrdered) ∧ (c = .interruptAcknowledge t ∨ c = .interruptCommit t ∨ c = .carmTnEoi t v ∨ c = .carmTnStackRst t v ∨ c = .carmSetpend v ∨ c = .carmTnHold t v) ∧ (exec c s = .next u)) :=
  ⟨⟨tInt 0 3 [(4, 9), (31, 1)] none, 0, (by intro t h; interval_cases t <;> exact ⟨by decide +kernel, by decide +kernel, fun p hp => by cases (show (none : Option (Nat × Nat)) = some p from hp)⟩), by decide +kernel⟩,
   ⟨tInt 0 3 [(4, 9), (31, 1)] none, _, 0, 4, .carmTnEoi 0 4, by decide +kernel, (by intro t h; interval_cases t <;> exact ⟨by decide +kernel, by decide +kernel, fun p hp => by cases (show (none : Option (Nat × Nat)) = some p from hp)⟩), (.inr (.inr (.inl rfl))), rfl⟩⟩

theorem witness_PowerBatteryInterruptAndFabricPages_1 :
    (∃ s : State, ∃ p : Nat, ∃ l : Latch, (u8 l.cmd.block 0 ≤ 3) ∧ (reserved l.cmd.block 1 7 = .ok ()) ∧ (u64 l.cmd.block 8 % 8 = 0) ∧ (s.turn p 0x0C02 l)) ∧
    (∃ s : State, ∃ p : Nat, ∃ l : Latch, (u8 l.cmd.block 0 ≤ 3) ∧ (reserved l.cmd.block 1 7 = .ok ()) ∧ (u64 l.cmd.block 8 % 8 = 0) ∧ (∃ r, (s.latch p = some l) ∧ (l.stage = .resumed r) ∧ (l.cmd.opcode = 0x0C02) ∧ (s.dmaRead l.cmd.path (u64 l.cmd.block 8) 480 r = none))) ∧
    (∃ s : State, ∃ p : Nat, ∃ l : Latch, (u8 l.cmd.block 0 ≤ 3) ∧ (reserved l.cmd.block 1 7 = .ok ()) ∧ (u64 l.cmd.block 8 % 8 = 0) ∧ (∃ r, (s.latch p = some l) ∧ (l.stage = .resumed r) ∧ (l.cmd.opcode = 0x0C02) ∧ (∃ t, (s.dmaRead l.cmd.path (u64 l.cmd.block 8) 480 r = some t) ∧ (tablesOk t = false)))) ∧
    (∃ s : State, ∃ p : Nat, ∃ l : Latch, (u8 l.cmd.block 0 ≤ 3) ∧ (reserved l.cmd.block 1 7 = .ok ()) ∧ (u64 l.cmd.block 8 % 8 = 0) ∧ (∃ r, (s.latch p = some l) ∧ (l.stage = .resumed r) ∧ (l.cmd.opcode = 0x0C02) ∧ (∃ t, (s.dmaRead l.cmd.path (u64 l.cmd.block 8) 480 r = some t) ∧ (tablesOk t = true)))) ∧
    (∃ s : State, ∃ p : Nat, ∃ l : Latch, (s.turn p 0x0B02 l) ∧ (∃ e, (setDomainCheck l.cmd s = .error e))) ∧
    (∃ s : State, ∃ p : Nat, ∃ l : Latch, (s.turn p 0x0B02 l) ∧ (setDomainCheck l.cmd s = .ok ()) ∧ (let d := u8 l.cmd.block 0; (u8 l.cmd.block 2 = 0))) :=
  ⟨⟨on (lt 0x0C02 (blk [(1, 3), (7, 0), (8, 8)]) .ready) t0, 0, (lt 0x0C02 (blk [(1, 3), (7, 0), (8, 8)]) .ready), by decide +kernel, by decide +kernel, by decide +kernel, ⟨rfl, rfl, rfl, by decide +kernel⟩⟩,
   ⟨on (lt 0x0C02 (blk [(1, 0), (7, 0), (8, 8)]) (.resumed none)) tDma, 0, (lt 0x0C02 (blk [(1, 0), (7, 0), (8, 8)]) (.resumed none)), by decide +kernel, by decide +kernel, by decide +kernel, none, by decide +kernel⟩,
   ⟨on (lt 0x0C02 (blk [(1, 0), (7, 0), (8, 8)]) (.resumed (some (List.replicate 480 0)))) tDma, 0, (lt 0x0C02 (blk [(1, 0), (7, 0), (8, 8)]) (.resumed (some (List.replicate 480 0)))), by decide +kernel, by decide +kernel, by decide +kernel, some (List.replicate 480 0), by decide +kernel, by decide +kernel, by decide +kernel, List.replicate 480 0, by decide +kernel⟩,
   ⟨on (lt 0x0C02 (blk [(1, 0), (7, 0), (8, 8)]) (.resumed (some tTabs))) tDma, 0, (lt 0x0C02 (blk [(1, 0), (7, 0), (8, 8)]) (.resumed (some tTabs))), by decide +kernel, by decide +kernel, by decide +kernel, some tTabs, by decide +kernel, by decide +kernel, by decide +kernel, tTabs, by decide +kernel⟩,
   ⟨on (lt 0x0B02 (blk [(1, 12), (1, 0), (1, 0), (1, 0), (4, 5)])) t0, 0, (lt 0x0B02 (blk [(1, 12), (1, 0), (1, 0), (1, 0), (4, 5)])), ⟨rfl, rfl, rfl, by decide +kernel⟩, badParam 0, by decide +kernel⟩,
   ⟨on (lt 0x0B02 (blk [(1, 2), (1, 0), (1, 0), (1, 0), (4, 5)])) t0, 0, (lt 0x0B02 (blk [(1, 2), (1, 0), (1, 0), (1, 0), (4, 5)])), ⟨rfl, rfl, rfl, by decide +kernel⟩, by decide +kernel⟩⟩

theorem witness_PowerBatteryInterruptAndFabricPages_2 :
    (∃ s : State, ∃ p : Nat, ∃ l : Latch, (s.turn p 0x0B02 l) ∧ (setDomainCheck l.cmd s = .ok ()) ∧ (let d := u8 l.cmd.block 0; (let t := s.setReg (R.IVR_DOMd_CFG d) (w32 (u8 l.cmd.block 1 + u8 l.cmd.block 2 * 2 + u32 l.cmd.block 4 * 0x100)); (u8 l.cmd.block 2 ≠ 0) ∧ (((t.takeDown d 6).ivory.draining.get? d).isSome = false)))) ∧
    (∃ s : State, ∃ p : Nat, ∃ l : Latch, (s.turn p 0x0B02 l) ∧ (setDomainCheck l.cmd s = .ok ()) ∧ (let d := u8 l.cmd.block 0; (let t := s.setReg (R.IVR_DOMd_CFG d) (w32 (u8 l.cmd.block 1 + u8 l.cmd.block 2 * 2 + u32 l.cmd.block 4 * 0x100)); (u8 l.cmd.block 2 ≠ 0) ∧ (((t.takeDown d 6).ivory.draining.get? d).isSome = true)))) ∧
    (∃ s : State, ∃ p : Nat, ∃ l : Latch, (s.turn p 0x0B03 l) ∧ (u8 l.cmd.block 0 ≤ 3) ∧ (u8 l.cmd.block 1 ≤ 1) ∧ (u8 l.cmd.block 2 ≤ 1) ∧ (u8 l.cmd.block 3 = 0) ∧ (u32 l.cmd.block 8 ≤ 86400000) ∧ (10 ≤ u32 l.cmd.block 12) ∧ (u32 l.cmd.block 12 ≤ 10000) ∧ (let k := (s.armPower l.cmd.block).chooseState (fun _ => true) (u8 l.cmd.block 0); (k ≠ 3 ∨ u8 l.cmd.block 1 = 1 ∨ s.host.dram = []))) ∧
    (∃ s : State, ∃ p : Nat, ∃ l : Latch, (s.turn p 0x0B03 l) ∧ (u8 l.cmd.block 0 ≤ 3) ∧ (u8 l.cmd.block 1 ≤ 1) ∧ (u8 l.cmd.block 2 ≤ 1) ∧ (u8 l.cmd.block 3 = 0) ∧ (u32 l.cmd.block 8 ≤ 86400000) ∧ (10 ≤ u32 l.cmd.block 12) ∧ (u32 l.cmd.block 12 ≤ 10000) ∧ (let k := (s.armPower l.cmd.block).chooseState (fun _ => true) (u8 l.cmd.block 0); (k = 3) ∧ (u8 l.cmd.block 1 = 0) ∧ (s.host.dram ≠ []))) ∧
    (Passes 0x0B01 (fun _ _ => .ok ())) ∧
    (Passes 0x0B04 (fun _ _ => .ok ())) :=
  ⟨⟨on (lt 0x0B02 (blk [(1, 8), (1, 0), (1, 1), (1, 0), (4, 5)])) t0, 0, (lt 0x0B02 (blk [(1, 8), (1, 0), (1, 1), (1, 0), (4, 5)])), ⟨rfl, rfl, rfl, by decide +kernel⟩, by decide +kernel⟩,
   ⟨on (lt 0x0B02 (blk [(1, 8), (1, 0), (1, 1), (1, 0), (4, 5)])) (tIdg.modIndigo fun i => { i with inflight := [tRunI] }), 0, (lt 0x0B02 (blk [(1, 8), (1, 0), (1, 1), (1, 0), (4, 5)])), ⟨rfl, rfl, rfl, by decide +kernel⟩, by decide +kernel⟩,
   ⟨on (lt 0x0B03 (blk [(1, 3), (1, 1), (2, 0), (4, 0), (4, 0), (4, 10)])) t0, 0, (lt 0x0B03 (blk [(1, 3), (1, 1), (2, 0), (4, 0), (4, 0), (4, 10)])), ⟨rfl, rfl, rfl, by decide +kernel⟩, by decide +kernel⟩,
   ⟨on (lt 0x0B03 (blk [(1, 3), (1, 0), (2, 0), (4, 0), (4, 0), (4, 10)])) (t0.modHost fun h => { h with dram := [⟨dramBase + 0x4000000, 64, 0xFFFF, 6, 0⟩] }), 0, (lt 0x0B03 (blk [(1, 3), (1, 0), (2, 0), (4, 0), (4, 0), (4, 10)])), ⟨rfl, rfl, rfl, by decide +kernel⟩, by decide +kernel⟩,
   passes ([]) (t0) (by decide +kernel),
   passes ([]) (t0) (by decide +kernel)⟩

theorem witness_PowerBatteryInterruptAndFabricPages_3 :
    (Passes 0x0B05 schedBudgetCheck) ∧
    (Fails 0x0B05 schedBudgetCheck) ∧
    (Passes 0x0B06 schedThermalCheck) ∧
    (Fails 0x0B06 schedThermalCheck) ∧
    (Passes 0x0B07 (fun c s => allOf [bindAccess (u16 c.block 0) 0 c.ctx s, reserved c.block 2 2, inRange (u32 c.block 4) 0 10000000 4])) ∧
    (Fails 0x0B07 (fun c s => allOf [bindAccess (u16 c.block 0) 0 c.ctx s, reserved c.block 2 2, inRange (u32 c.block 4) 0 10000000 4])) :=
  ⟨passes (blk [(4, 30000), (4, 60), (4, 0), (1, 10), (1, 1), (6, 0)]) (t0) (by decide +kernel),
   fails (List.replicate 64 0xFF) t0 (badParam 0) (by decide +kernel),
   passes (blk [(1, 40), (1, 45), (1, 50), (1, 0)]) (t0) (by decide +kernel),
   fails (List.replicate 64 0xFF) t0 (badParam 0) (by decide +kernel),
   passes (blk [(2, 1), (2, 0), (4, 10000000)]) (tIdg) (by decide +kernel),
   fails (List.replicate 64 0xFF) t0 (badParam 0) (by decide +kernel)⟩

theorem witness_PowerBatteryInterruptAndFabricPages_4 :
    (Passes 0x0C05 batSocCheck) ∧
    (Fails 0x0C05 batSocCheck) ∧
    (Passes 0x0C06 (fun _ _ => .ok ())) ∧
    (Passes 0x0E01 intrSetCheck) ∧
    (Fails 0x0E01 intrSetCheck) ∧
    (Passes 0x0E02 (fun c _ => allOf [inRange (u16 c.block 0) 0 543 0, reserved c.block 2 2])) :=
  ⟨passes (blk [(1, 0), (1, 3), (2, 10000), (4, 100)]) ((t0.setReg R.SBL_CTRL 1).setReg (R.SBL_Sn_DESIGN_MAH 0) 100) (by decide +kernel),
   fails (List.replicate 64 0xFF) t0 (badParam 0) (by decide +kernel),
   passes ([]) (t0) (by decide +kernel),
   passes (blk [(2, 543), (1, 1), (1, 5), (1, 31), (1, 4), (1, 255), (1, 1), (2, 0), (1, 0), (1, 63), (1, 0), (3, 0)]) (t0) (by decide +kernel),
   fails (List.replicate 64 0xFF) t0 (badParam 0) (by decide +kernel),
   passes (List.replicate 64 0) (t0) (by decide +kernel)⟩

theorem witness_PowerBatteryInterruptAndFabricPages_9 :
    (Passes 0x0C01 batStringCheck) ∧
    (Fails 0x0C01 batStringCheck) ∧
    (Passes 0x0C03 batLevelsCheck) ∧
    (Fails 0x0C03 batLevelsCheck) ∧
    (Passes 0x0C04 (fun c _ =>
      allOf [inRange (u16 c.block 0) 0 3600 0, reserved c.block 2 2, inRange (u32 c.block 4) 1 1000000 4])) ∧
    (Fails 0x0C04 (fun c _ =>
      allOf [inRange (u16 c.block 0) 0 3600 0, reserved c.block 2 2, inRange (u32 c.block 4) 1 1000000 4])) :=
  ⟨passes (blk [(1, 3), (3, 0), (1, 1), (3, 0), (4, 10), (4, 0x10000), (4, 100), (4, 1), (4, 60), (4, 1000), (4, 0x447A0000)]) (t0) (by decide +kernel),
   fails (List.replicate 64 0xFF) t0 (badParam 0) (by decide +kernel),
   passes (blk [(1, 0), (1, 2), (1, 1), (5, 0)]) (t0) (by decide +kernel),
   fails (List.replicate 64 0xFF) t0 (badParam 0) (by decide +kernel),
   passes (blk [(4, 0), (4, 1)]) (t0) (by decide +kernel),
   fails (List.replicate 64 0xFF) t0 (badParam 0) (by decide +kernel)⟩

theorem witness_PowerBatteryInterruptAndFabricPages_6 :
    (Fails 0x0E02 (fun c _ => allOf [inRange (u16 c.block 0) 0 543 0, reserved c.block 2 2])) ∧
    (Passes 0x0E03 (fun c s =>
      allOf [inRange (u16 c.block 0) 0 543 0, need (!s.srcLocked (u16 c.block 0)) noPermission, reserved c.block 2 2])) ∧
    (Fails 0x0E03 (fun c s =>
      allOf [inRange (u16 c.block 0) 0 543 0, need (!s.srcLocked (u16 c.block 0)) noPermission, reserved c.block 2 2])) ∧
    (Passes 0x0E04 (fun c _ => allOf [inRange (u16 c.block 0) 1 246 0, reserved c.block 2 2])) ∧
    (Fails 0x0E04 (fun c _ => allOf [inRange (u16 c.block 0) 1 246 0, reserved c.block 2 2])) ∧
    (Passes 0x0E05 intrAckCheck) :=
  ⟨fails (List.replicate 64 0xFF) t0 (badParam 0) (by decide +kernel),
   passes (List.replicate 64 0) (t0) (by decide +kernel),
   fails (List.replicate 64 0xFF) t0 (badParam 0) (by decide +kernel),
   passes (blk [(2, 246), (2, 0)]) (t0) (by decide +kernel),
   fails (List.replicate 64 0xFF) t0 (badParam 0) (by decide +kernel),
   passes (blk [(2, 1), (2, 0), (2, 0)]) ((t0.setReg (R.CARM_Sn_CFG 0) 0xA00)) (by decide +kernel)⟩

theorem witness_PowerBatteryInterruptAndFabricPages_7 :
    (Fails 0x0E05 intrAckCheck) ∧
    (Passes 0x0E06 (fun c _ =>
      allOf [inRange (u8 c.block 0) 0 5 0, inRange (u8 c.block 1) 0 1 1, reserved c.block 2 2])) ∧
    (Fails 0x0E06 (fun c _ =>
      allOf [inRange (u8 c.block 0) 0 5 0, inRange (u8 c.block 1) 0 1 1, reserved c.block 2 2])) ∧
    (Passes 0x1102 (fun c s =>
      allOf [inRange (u16 c.block 0) 0 4095 0, need (s.seesQueue c.fn (u16 c.block 0)) noPermission, s.reach dFAB,
      inRange (u16 c.block 2) 0 4095 2])) ∧
    (Fails 0x1102 (fun c s =>
      allOf [inRange (u16 c.block 0) 0 4095 0, need (s.seesQueue c.fn (u16 c.block 0)) noPermission, s.reach dFAB,
      inRange (u16 c.block 2) 0 4095 2])) ∧
    (Passes 0x1103 (fun c s => allOf [s.reach dFAB, inRange (u8 c.block 0) 0 1 0, reserved c.block 1 3])) :=
  ⟨fails (List.replicate 64 0xFF) t0 (badParam 0) (by decide +kernel),
   passes (List.replicate 64 0) (t0) (by decide +kernel),
   fails (List.replicate 64 0xFF) t0 (badParam 0) (by decide +kernel),
   passes (List.replicate 64 0) (t0) (by decide +kernel),
   fails (List.replicate 64 0xFF) t0 (badParam 0) (by decide +kernel),
   passes (List.replicate 64 0) (t0) (by decide +kernel)⟩

theorem witness_PowerBatteryInterruptAndFabricPages_8 :
    (Fails 0x1103 (fun c s => allOf [s.reach dFAB, inRange (u8 c.block 0) 0 1 0, reserved c.block 1 3])) ∧
    (Passes 0x1104 (fun c s =>
      allOf [need (s.cEn (u8 c.block 0)) (badParam 0), s.reach dFAB, reserved c.block 1 1])) ∧
    (Fails 0x1104 (fun c s =>
      allOf [need (s.cEn (u8 c.block 0)) (badParam 0), s.reach dFAB, reserved c.block 1 1])) :=
  ⟨fails (List.replicate 64 0xFF) t0 (badParam 0) (by decide +kernel),
   passes (blk [(1, 3), (3, 0)]) (tComb 0x70021 Comb.init []) (by decide +kernel),
   fails (List.replicate 64 0xFF) t0 (badParam 0) (by decide +kernel)⟩

theorem witness_PowerTransitions_1 :
    (∃ s : State, (∃ c, (s.ivory.armedCeiling = some c) ∧ (s.ivory.trans = none) ∧ (s.ivory.state = 0) ∧ (s.noLatch = true) ∧ (s.ivory.draining = []) ∧ (let k := s.chooseState s.dramFree c; (k = 0)))) ∧
    (∃ s : State, (∃ c, (s.ivory.armedCeiling = some c) ∧ (s.ivory.trans = none) ∧ (s.ivory.state = 0) ∧ (s.noLatch = true) ∧ (s.ivory.draining = []) ∧ (let k := s.chooseState s.dramFree c; (k ≠ 0) ∧ (k = 1 ∨ (s.hostethMay = true ∧ s.fabIdle = true))))) ∧
    (∃ s : State, (∃ c, (s.ivory.armedCeiling = some c) ∧ (s.ivory.trans = none) ∧ (s.ivory.state = 0) ∧ (s.noLatch = true) ∧ (s.ivory.draining = []) ∧ (let k := s.chooseState s.dramFree c; (1 < k) ∧ (s.hostethMay = false ∨ s.fabIdle = false)))) ∧
    (∃ s : State, (s.ivory.armedCeiling = none ∨ s.ivory.trans ≠ none ∨ s.noLatch = false)) ∧
    (∃ s : State, (s.ivory.state = 0) ∧ (s.ivory.trans = none) ∧ (s.regBit R.IVR_REQ 2 = true) ∧ (s.noLatch = true) ∧ (s.stateFits 1 = true) ∧ ((∀ t, t < 5 → (s.tgt t).stack = [] ∧ (s.tgt t).prov = none))) ∧
    (∃ s : State, (s.ivory.state ≠ 0 ∨ s.regBit R.IVR_REQ 2 = false ∨ s.noLatch = false)) :=
  ⟨⟨(ivr (fun i => { i with armedCeiling := some 3 }) ((withCtx (fun x => { x with maxWake := 4 }) (tQuiet)))), 3, by decide +kernel⟩,
   ⟨(ivr (fun i => { i with armedCeiling := some 2 }) (tQuiet)), 2, by decide +kernel⟩,
   ⟨(ivr (fun i => { i with armedCeiling := some 2 }) (tQuiet.setReg R.HIF_LINK 1)), 2, by decide +kernel⟩,
   ⟨t0, by decide +kernel⟩,
   ⟨tQuiet.setReg R.IVR_REQ 4, by decide +kernel⟩,
   ⟨t0, by decide +kernel⟩⟩

theorem witness_PowerTransitions_2 :
    (∃ s : State, (∃ n, (s.mayWake n = true) ∧ (∃ x, (s.ivory.trans = some x) ∧ (x.pnr = false)))) ∧
    (∃ s : State, (∃ n, (s.mayWake n = true) ∧ (∃ x, (s.ivory.trans = some x) ∧ (x.pnr = true)))) ∧
    (∃ s : State, (∃ n, (s.mayWake n = true) ∧ (s.ivory.trans = none) ∧ (s.ivory.state = 0))) ∧
    (∃ s : State, (∃ n, (s.mayWake n = true) ∧ (s.ivory.trans = none) ∧ (s.ivory.state ≠ 0))) ∧
    (∃ s : State, (∃ n, (s.mayWake n = false))) ∧
    (∃ s : State, (∃ t, (s.wakeTimer = some t) ∧ (t ≤ s.now))) :=
  ⟨⟨(ivr (fun i => { i with trans := some (tTr [4] false) }) (t0)), 0x401, by decide +kernel, tTr [4] false, by decide +kernel⟩,
   ⟨(ivr (fun i => { i with trans := some (tTr [4] true) }) (t0)), 0x401, by decide +kernel, tTr [4] true, by decide +kernel⟩,
   ⟨t0, 0x401, by decide +kernel⟩,
   ⟨(ivr (fun i => { i with state := 2 }) (t0)), 0x401, by decide +kernel⟩,
   ⟨t0, 0x402, by decide +kernel⟩,
   ⟨t0.setReg R.IVR_WAKE_TIMER_LO 200000000, 200000000, by decide +kernel⟩⟩

theorem witness_PowerTransitions_3 :
    (∃ s : State, ((∀ t, s.wakeTimer = some t → s.now < t))) ∧
    (∃ s : State, (∃ d : Nat, (d < 16) ∧ (s.ivory.state = 0) ∧ (s.ivory.trans = none) ∧ (s.ivory.forced = false) ∧ (s.domOnDemand d = true) ∧ (s.ivory.draining.get? d = none))) ∧
    (∃ s : State, (∃ d : Nat, (d < 16) ∧ (s.ivory.state = 0) ∧ (s.ivory.trans = none) ∧ (s.ivory.forced = false) ∧ (s.domOnDemand d = true) ∧ (∃ e, (s.ivory.draining.get? d = some e) ∧ (s.ivory.wakeAfter.contains d = false)))) ∧
    (∃ s : State, (∃ d : Nat, (s.domOnDemand d = false ∨ s.ivory.forced = true ∨ s.ivory.state = 3))) ∧
    (∃ s : State, (∃ d : Nat, ∃ x, (s.ivory.trans = some x) ∧ (x.todo.head? = some d) ∧ (s.ivory.draining.get? d = none) ∧ (d ≠ dFAB ∨ s.fabIdle = true) ∧ (s.quadBusy d = false))) ∧
    (∃ s : State, (∃ d : Nat, ∃ x, (s.ivory.trans = some x) ∧ (x.todo.head? = some d) ∧ (s.ivory.draining.get? d = none) ∧ (d ≠ dFAB ∨ s.fabIdle = true) ∧ (s.quadBusy d = true))) :=
  ⟨⟨t0.setReg R.IVR_WAKE_TIMER_LO 200000001, (fun t h => by have e : t = 200000001 := Option.some.inj (h.symm.trans (by decide +kernel)); subst e; decide +kernel)⟩,
   ⟨((t0).setReg (R.IVR_DOMd_CFG 15) 1), 15, by decide +kernel⟩,
   ⟨(ivr (fun i => { i with draining := [(4, (st 5, 1))] }) (((t0).setReg (R.IVR_DOMd_CFG 4) 1))), 4, by decide +kernel, by decide +kernel, by decide +kernel, by decide +kernel, by decide +kernel, (st 5, 1), by decide +kernel⟩,
   ⟨((t0).setReg (R.IVR_DOMd_CFG 4) 0), 4, by decide +kernel⟩,
   ⟨(ivr (fun i => { i with trans := some (tTr [4] false) }) (t0)), 4, tTr [4] false, by decide +kernel⟩,
   ⟨(ivr (fun i => { i with trans := some (tTr [8] false) }) ((tIdg.modIndigo fun i => { i with inflight := [tRunI] }))), 8, tTr [8] false, by decide +kernel⟩⟩

theorem witness_PowerTransitions_4 :
    (∃ s : State, (∃ d : Nat, ∃ x, (s.ivory.trans = some x) ∧ (x.todo.head? ≠ some d))) ∧
    (∃ s : State, (∃ d : Nat, (s.ivory.trans = none) ∧ (s.ivory.state = 0) ∧ (s.runDown d = true) ∧ (s.ivory.draining.get? d = none))) ∧
    (∃ s : State, (∃ d : Nat, ∃ e, (s.ivory.draining.get? d = some e) ∧ (s.quadBusy d = true))) ∧
    (∃ s : State, (∃ d : Nat, ∃ e, (s.ivory.draining.get? d = some e) ∧ (s.quadBusy d = false) ∧ (s.ivory.trans = none))) ∧
    (∃ s : State, (∃ d : Nat, (s.ivory.draining.get? d = none))) ∧
    (∃ s : State, (∃ d : Nat, (d < 16) ∧ (s.ivory.state = 0) ∧ (s.ivory.trans = none) ∧ (s.domUp d = false) ∧ (s.fastStart d = true))) :=
  ⟨⟨(ivr (fun i => { i with trans := some (tTr [4] false) }) (t0)), 5, tTr [4] false, by decide +kernel⟩,
   ⟨((t0).setReg (R.IVR_DOMd_CFG 4) 2), 4, by decide +kernel⟩,
   ⟨(ivr (fun i => { i with draining := [(8, (st 5, 1))] }) ((tIdg.modIndigo fun i => { i with inflight := [tRunI] }))), 8, (st 5, 1), by decide +kernel⟩,
   ⟨(ivr (fun i => { i with draining := [(4, (st 5, 1))] }) (t0)), 4, (st 5, 1), by decide +kernel⟩,
   ⟨t0, 4, by decide +kernel⟩,
   ⟨((((t0).setReg (R.IVR_DOMd_CFG 4) 0)).setReg R.IVR_DOM_UP 0xFFEF), 4, by decide +kernel⟩⟩

theorem witness_PowerTransitions_5 :
    (∃ s : State, (∃ d : Nat, (d < 16) ∧ (s.ivory.state = 0) ∧ (s.ivory.trans = none) ∧ (s.domUp d = false) ∧ (s.fastStart d = false))) ∧
    (∃ s : State, (∃ d : Nat, (d < 16) ∧ (s.ivory.state = 0) ∧ (s.ivory.trans = none) ∧ (s.domOnDemand d = true) ∧ (s.domUp d = true) ∧ (s.ivory.draining.get? d = none) ∧ ((domChildren d).filter s.domUp = []) ∧ (let us := s.regFld (R.IVR_DOMd_CFG d) 31 8; (us ≠ 0) ∧ (s.ivory.lastUse.getD d 0 + us * 1000 ≤ s.now) ∧ (s.quadBusy d = false)))) ∧
    (∃ s : State, (∃ d : Nat, (d < 16) ∧ (s.ivory.state = 0) ∧ (s.ivory.trans = none) ∧ (s.domOnDemand d = true) ∧ (s.domUp d = true) ∧ (s.ivory.draining.get? d = none) ∧ ((domChildren d).filter s.domUp = []) ∧ (let us := s.regFld (R.IVR_DOMd_CFG d) 31 8; (us = 0 ∨ s.now < s.ivory.lastUse.getD d 0 + us * 1000 ∨ s.quadBusy d = true)))) :=
  ⟨⟨((((t0).setReg (R.IVR_DOMd_CFG 4) 1)).setReg R.IVR_DOM_UP 0xFFEF), 4, by decide +kernel⟩,
   ⟨(ivr (fun i => { i with lastUse := [(4, 199999000)] }) (((t0).setReg (R.IVR_DOMd_CFG 4) 257))), 4, by decide +kernel⟩,
   ⟨(ivr (fun i => { i with lastUse := [(4, 199999001)] }) (((t0).setReg (R.IVR_DOMd_CFG 4) 257))), 4, by decide +kernel⟩⟩

theorem witness_ThermalPointsBudgetsAndBattery_1 :
    (∃ s : State, (∃ p : Nat, ∃ at' : Nat, ∃ target : Nat, (s.ivory.raising = some (p, target, at')))) ∧
    (∃ s : State, (∃ mv : Nat, ∃ p : Nat, ∃ at' : Nat, ∃ target : Nat, (s.ivory.raising = some (p, target, at')) ∧ (target ≤ mv + 10) ∧ (mv ≤ target + 10))) ∧
    (∃ s : State, (∃ mv : Nat, ∃ p : Nat, ∃ at' : Nat, ∃ target : Nat, (s.ivory.raising = some (p, target, at')) ∧ (mv + 10 < target ∨ target + 10 < mv))) ∧
    (∃ s : State, (∃ p : Nat, ∃ at' : Nat, ∃ target : Nat, (s.ivory.raising = some (p, target, at')) ∧ (at' + 1000000 ≤ s.now) ∧ (s.regBit R.IVR_PT_STATUS 0 = false))) ∧
    (∃ s : State, (∃ p : Nat, ∃ at' : Nat, ∃ target : Nat, (s.ivory.raising = some (p, target, at')) ∧ (s.now < at' + 1000000 ∨ s.regBit R.IVR_PT_STATUS 0 = true))) ∧
    (∃ s : State, ((s.ivory.raising = none))) :=
  ⟨⟨(ivr (fun i => { i with raising := some (0, 800, 199000000) }) (t0)), 0, 199000000, 800, by decide +kernel⟩,
   ⟨(ivr (fun i => { i with raising := some (0, 800, 199000000) }) (t0)), 810, 0, 199000000, 800, by decide +kernel⟩,
   ⟨(ivr (fun i => { i with raising := some (0, 800, 199000000) }) (t0)), 811, 0, 199000000, 800, by decide +kernel⟩,
   ⟨(ivr (fun i => { i with raising := some (0, 800, 199000000) }) (t0)), 0, 199000000, 800, by decide +kernel⟩,
   ⟨(ivr (fun i => { i with raising := some (0, 800, 199000001) }) (t0)), 0, 199000001, 800, by decide +kernel⟩,
   ⟨t0, by decide +kernel⟩⟩

theorem witness_ThermalPointsBudgetsAndBattery_2 :
    (∃ s : State, (s.clocksRun) ∧ (s.now / 10000000 * 10000000 ≤ s.ivory.windowAt)) ∧
    (∃ s : State, (s.clocksRun) ∧ (s.ivory.windowAt < s.now / 10000000 * 10000000)) ∧
    (∃ s : State, (∃ codes : List BatCode, (let w := s.applyWaiting; (let r := w.sampleDue codes; (w.supplyDue codes = false) ∧ (r.2 = 0))))) ∧
    (∃ s : State, (∃ codes : List BatCode, (let w := s.applyWaiting; (let r := w.sampleDue codes; (w.supplyDue codes = false) ∧ (r.2 ≠ 0))))) ∧
    (∃ s : State, (∃ codes : List BatCode, (let w := s.applyWaiting; (let r := w.sampleDue codes; (w.supplyDue codes = true))))) ∧
    (∃ s : State, (let p := s.regN R.SBL_PERIOD_S * 1000000000; (p = 0 ∨ s.now < s.sable.lastReport + p))) :=
  ⟨⟨(ivr (fun i => { i with windowAt := 200000000 }) (t0)), (by unfold State.clocksRun; decide +kernel), by decide +kernel⟩,
   ⟨t0, (by unfold State.clocksRun; decide +kernel), by decide +kernel⟩,
   ⟨t0, [], by decide +kernel⟩,
   ⟨(t0.setReg R.SBL_CTRL 1), [⟨32767, 0, 0⟩], by decide +kernel⟩,
   ⟨(t0.modSable fun b => { b with onBattery := true }), [], by decide +kernel⟩,
   ⟨t0.setReg R.SBL_PERIOD_S 0, by decide +kernel⟩⟩

theorem witness_ThermalPointsBudgetsAndBattery_3 :
    (∃ s : State, (let p := s.regN R.SBL_PERIOD_S * 1000000000; (p ≠ 0) ∧ (s.sable.lastReport + p ≤ s.now))) ∧
    (∃ s : State, ∃ n : Nat, (n ≠ 0) ∧ (s.ivory.state = 3)) ∧
    (∃ s : State, ∃ n : Nat, (n ≠ 0) ∧ (s.ivory.state ≠ 3)) :=
  ⟨⟨at0 1000000000 (t0.setReg R.SBL_PERIOD_S 1), by decide +kernel⟩,
   ⟨ivr (fun i => { i with state := 3 }) t0, 8, by decide +kernel⟩,
   ⟨t0, 8, by decide +kernel⟩⟩

end Sys2Proof.Tests
end
end

section

namespace Sys2Proof.Machine

/-! ## The state of power-on reset (00 R8, 02 R34, 11 R219, 17 R341, 19 R369) -/

@[simp] theorem State.reset_reg (a : Nat) : State.reset.reg a = regReset a := rfl
@[simp] theorem State.reset_readMem (a : Nat) : readByte State.reset.mem a = 0 := rfl
@[simp] theorem State.reset_readHostMem (a : Nat) : readByte State.reset.hostMem a = 0 := rfl
@[simp] theorem State.reset_port (p : Nat) : State.reset.port p = OchPort.init := rfl
@[simp] theorem State.reset_tgt (t : Nat) : State.reset.tgt t = Target.init := rfl

/-- The stacks of a device in reset are empty and nothing is provisional, so their order holds of them. -/
theorem State.reset_stacksOrdered : State.reset.stacksOrdered := by
  intro t _
  rw [State.reset_tgt]
  refine ⟨List.Pairwise.nil, fun e he => ?_, fun p hp => ?_⟩
  · exact absurd he List.not_mem_nil
  · exact absurd hp (Option.some_ne_none p).symm

/-- Settles O3: every register stands at its Reset column because none is listed, and each store's accessor falls back on
the initial value of what it holds. -/
theorem resetState : Obligations.ResetState := by
  unfold Obligations.ResetState
  refine ⟨State.reset_reg, State.reset_mems, rfl, rfl, fun a => ⟨State.reset_readMem a, State.reset_readHostMem a⟩, ?columns,
    rfl, rfl, rfl, rfl, fun p => ?fifo, fun t => ?stack, rfl, rfl, rfl, State.reset_stacksOrdered⟩
  case columns =>
    simp only [State.reset_reg]
    decide
  case fifo => rw [State.reset_port]; rfl
  case stack => rw [State.reset_tgt]; rfl

/-! ## Every command completes (00 R5)

Most meanings are written as one next state. The others branch over results of their own, or are work carried out under a
gate of the power state (`Machine/Wake.lean`), which completes when the work does. -/

/-- A result that is a next state. -/
def Completes (r : Res) : Prop := ∃ t, r = .next t

theorem completes_next (t : State) : Completes (.next t) := ⟨t, rfl⟩

/-- A choice between results completes when both do. -/
theorem completes_ite (p : Prop) [Decidable p] {r q : Res} (hr : Completes r) (hq : Completes q) :
    Completes (if p then r else q) := by
  split
  · exact hr
  · exact hq

/-! ### The gates of the power state -/

section Gates
variable {f : State → Res} (hf : ∀ t, Completes (f t)) (s : State)
include hf

theorem hosted_completes : Completes (hosted f s) := completes_ite _ (completes_next s) (hf _)
theorem received_completes (d : Nat) : Completes (received d f s) := hf _
theorem clocked_completes : Completes (clocked f s) := completes_ite _ (completes_next s) (hf s)
theorem sampled_completes (d : Nat) : Completes (sampled d f s) := clocked_completes (fun t => hf (t.fed d)) s
theorem timed_completes : Completes (timed f s) := clocked_completes hf _

end Gates

/-! ### The work that branches over results -/

theorem workDoorbell_completes (fn : Nat) (v : Word) (s : State) : Completes (workDoorbell fn v s) :=
  completes_ite _ (completes_next _) (completes_ite _ (completes_next _) (completes_next _))

theorem workFunctionMasterEnable_completes (fn dstate : Nat) (bme : Bool) (s : State) :
    Completes (workFunctionMasterEnable fn dstate bme s) :=
  completes_ite _ (completes_next _) (completes_next _)

theorem workEthRequest_completes (g : Datagram) (s : State) : Completes (workEthRequest g s) := by
  refine completes_ite _ (completes_next _) (completes_ite _ (completes_next _) ?_)
  dsimp only
  split
  · exact completes_next _
  · exact completes_next _

theorem workEthUpload_completes (g : Datagram) (s : State) : Completes (workEthUpload g s) :=
  completes_ite _ (completes_next _) (completes_ite _ (completes_next _) (completes_next _))

theorem workEthFrameReceived_completes (f : EthFrame) (s : State) : Completes (workEthFrameReceived f s) := by
  refine completes_ite _ (completes_next _) ?_
  cases f <;> exact completes_next _

theorem workResponsePost_completes (p : Nat) (s : State) : Completes (workResponsePost p s) := by
  unfold workResponsePost
  split
  · split
    · exact completes_ite _ (completes_next _) (completes_ite _ (completes_next _) (completes_next _))
    · exact completes_next _
  · exact completes_next _

theorem execParamIndirectFetchDone_completes (p : Nat) (data : Option Bytes) (s : State) :
    Completes (execParamIndirectFetchDone p data s) := by
  unfold execParamIndirectFetchDone
  split
  · refine completes_ite _ (completes_next _) ?_
    split
    · exact completes_next _
    · split
      · exact completes_next _
      · exact completes_ite _ (completes_next _) (completes_next _)
  · exact completes_next _

theorem execCommandDmaFetchDone_completes (p : Nat) (data : Option Bytes) (s : State) :
    Completes (execCommandDmaFetchDone p data s) := by
  unfold execCommandDmaFetchDone
  split
  · exact completes_ite _ (completes_next _) (completes_next _)
  · exact completes_next _

theorem execAmbCapPop_completes (input : Nat) (s : State) : Completes (execAmbCapPop input s) := by
  unfold execAmbCapPop
  cases s.capsOf input
  · exact completes_next _
  · exact completes_next _

/-! ### Gated work with a step of its own beside the gate -/

theorem execTealFrameReceived_completes (port : Nat) (f : TealFrame) (s : State) :
    Completes (execTealFrameReceived port f s) := by
  unfold execTealFrameReceived
  exact received_completes (fun _ => completes_next _) s dTEAL

theorem execRecordDeliver_completes (fn ring : Nat) (s : State) : Completes (execRecordDeliver fn ring s) := by
  unfold execRecordDeliver
  exact clocked_completes (fun _ => completes_next _) s

theorem workEventHandoff_completes (s : State) : Completes (workEventHandoff s) := completes_next _

theorem execEventHandoff_completes (s : State) : Completes (execEventHandoff s) := by
  unfold execEventHandoff
  exact clocked_completes (fun _ => workEventHandoff_completes _) s

theorem workCobaltProject_completes (s : State) : Completes (workCobaltProject s) := completes_next _

theorem execCobaltProject_completes (s : State) : Completes (execCobaltProject s) := by
  unfold execCobaltProject
  exact clocked_completes (fun _ => workCobaltProject_completes _) s

/-! ### Every command, every step, every run -/

/-- Every command answers a next state: work that branches by its own lemma, gated work by its gate's, and every other
meaning is a next state as it is written. -/
theorem exec_completes (c : Instr) (s : State) : Completes (exec c s) := by
  cases c with
  | ambCapPop input => exact execAmbCapPop_completes input s
  | tealFrameReceived port f => exact execTealFrameReceived_completes port f s
  | recordDeliver fn ring => exact execRecordDeliver_completes fn ring s
  | eventHandoff => exact execEventHandoff_completes s
  | cobaltProject => exact execCobaltProject_completes s
  | paramIndirectFetchDone p data => exact execParamIndirectFetchDone_completes p data s
  | commandDmaFetchDone p data => exact execCommandDmaFetchDone_completes p data s
  | doorbell fn v => exact hosted_completes (workDoorbell_completes fn v) s
  | functionMasterEnable fn d bme => exact hosted_completes (workFunctionMasterEnable_completes fn d bme) s
  | ethRequest g => exact hosted_completes (workEthRequest_completes g) s
  | ethUpload g => exact hosted_completes (workEthUpload_completes g) s
  | ethFrameReceived f => exact hosted_completes (workEthFrameReceived_completes f) s
  | responsePost p => exact clocked_completes (workResponsePost_completes p) s
  | ringTailWrite | syncReceived | announceReceived | ptpMessageReceived | flr | vfDisable | vfEnable =>
    refine hosted_completes ?_ s
    exact fun _ => completes_next _
  | csi2PacketReceived port pkt =>
    exact received_completes (f := workCsi2PacketReceived port pkt) (fun _ => completes_next _) s (portDomain port)
  | tdmFrame port f => exact received_completes (f := workTdmFrame port f) (fun _ => completes_next _) s dUMB
  | encoderEntry | encoderIndex | ssiPoll | imuDrdyEdge | encoderCountEdge =>
    refine sampled_completes ?_ s _
    exact fun _ => completes_next _
  | blockTimeout | decayTick | windowOpen | windowClose | angleTick | budgetWindowBoundary =>
    refine timed_completes ?_ s
    exact fun _ => completes_next _
  | eventDecode | gapContinues | filterMapScrub | portSilent | portActivityWindow | triggerFire | triggerPulseEnd |
    stackClose | rotorMap | imuSilent | surfaceUpdate | cornerTest | flowFit | surfaceScrub | sepiaStagingResume |
    derivedTick | chainSample | filterBlockTimeout | umberApplyFallback | sigSyncEdge | umberStagingResume |
    tdmPortSilent | memberAdmit | fusedRecordStage | coregMapScrub | bindingInput | runComplete | replayWindowEnd |
    tileWstallWindow | ptpEventTransmit | stalledCommitAdmit | landingWrite | contributionProcess |
    combineResultCommit | ringModerationHoldoff | interruptAcknowledge | interruptCommit | hostRelay |
    runDispatch =>
    refine clocked_completes ?_ s
    exact fun _ => completes_next _
  | _ => exact completes_next _

/-- A step is a tick or the command at the front of the queue, and both complete. -/
theorem step_completes (s : State) : Completes (step s) := by
  unfold step
  split
  · exact completes_next _
  · exact exec_completes _ _

theorem safeRun (n : Nat) (s : State) : SafeRun n s := by
  induction n generalizing s with
  | zero => exact True.intro
  | succ n ih =>
    obtain ⟨t, ht⟩ := step_completes s
    exact ⟨t, ht, ih t⟩

/-- Settles O2: every command's meaning is a next state in every branch, so a run goes on by induction on its steps. -/
theorem everyRunIsSafe : Obligations.EveryRunIsSafe := by
  unfold Obligations.EveryRunIsSafe
  exact ⟨exec_completes, safeRun⟩

end Sys2Proof.Machine

end

section

namespace Sys2Proof.Machine

/-! ## What a step does to the two memories (00 R17, 01_journey.md)

The `_keeps` and `_mems` laws of `Laws/Mem….lean` say of each meaning that it leaves both memories alone or that its writes
of bytes and clearings of ranges keep their canonical form. `mayStore` draws the line between the two. -/

@[simp] theorem State.withQueue_mems (s : State) (q : List Instr) : (s.withQueue q).Mems ↔ s.Mems := Iff.rfl

/-- What a command does to the memories: one that may store keeps their form, by the `_mems` law of its meaning, and any
other keeps all of them, by the `_keeps` law of its meaning. -/
theorem exec_keeps_or_mayStore (c : Instr) (s : State) :
    ResKeeps s (exec c s) ∨ mayStore c = true ∧ (s.Mems → ResMems (exec c s)) := by
  cases c with
  | accessReadTable | approxSetBinding | approxSetLayers | autoDoze | changesetCommit | cobaltProject | combineResultCommit |
    contributionProcess | ctxDestroy | descriptorCommit | diagSelftest | domainDrainDone | domainIdleTimeout |
    domainPowerDown | encoderCountEdge | encoderEntry | encoderIndex | ethUpload | evportSetBlocking | evportSetFilters |
    evportSetFormat | faultReadLog | featSetCorner | featSetFlow | featSetSurface | featSetTracker | filterSetBand |
    filterSetChain | filterSetDcblock | filterSetDerived | filterSetThreshold | flr | fuseSetRule | inferBind |
    inferLoadModel | internalAccess | landingWrite | porstNAssert | powerSetDomain | projSetPort | projSetStack |
    queueGetStatus | quiesceDrainEnd | recordDeliver | registerWrite | rotorMap | runComplete | runDispatch |
    singleCommandCommit | ssiPoll | stageGenerationCommand | stalledCommitAdmit | stateEntry | tealFrameReceived |
    tjSample | vfDisable | vfEnable | voltageDetectorReset =>
    right
    exact ⟨rfl, fun h => by simp [exec, h]⟩
  | _ =>
    left
    simp [exec]

/-- A command that stores nothing keeps both memories whole. -/
theorem exec_keeps (c : Instr) (s : State) (hc : mayStore c = false) : ResKeeps s (exec c s) := by
  rcases exec_keeps_or_mayStore c s with hk | ⟨hm, -⟩
  · exact hk
  · exact absurd hm (Bool.eq_false_iff.mp hc)

/-- Every command keeps both memories canonical. -/
theorem exec_mems (c : Instr) (s : State) (h : s.Mems) : ResMems (exec c s) := by
  rcases exec_keeps_or_mayStore c s with hk | ⟨-, hm⟩
  · exact hk.mems h
  · exact hm h

/-- A step is a tick, which stores nothing, or the command at the front of the queue. -/
theorem step_mems (s : State) (h : s.Mems) : ResMems (step s) := by
  unfold step
  split
  · exact (resMems_next _).mpr ((State.tick_mems s).mpr h)
  · exact exec_mems _ _ ((State.withQueue_mems s _).mpr h)

/-- Settles O5: a tick and a command outside `mayStore` keep both memories, and every store keeps their canonical form. -/
theorem memoriesStayCanonical : Obligations.MemoriesStayCanonical := by
  unfold Obligations.MemoriesStayCanonical
  exact ⟨fun c s t h => exec_mems c s h t, fun s t h => step_mems s h t⟩

/-- Settles O6: both memories are the same before and after a command outside `mayStore`, so every byte reads the same. -/
theorem memoryFrame : Obligations.MemoryFrame := by
  unfold Obligations.MemoryFrame
  intro c s t hc he a
  obtain ⟨hmem, hhost⟩ := exec_keeps c s hc t he
  exact ⟨by rw [hmem], by rw [hhost]⟩

end Sys2Proof.Machine

end

section

namespace Sys2Proof.Machine

/-! ## Amber under the shared operations -/

/-- A view that every step of a fold keeps is kept by the fold. -/
theorem foldl_view {α β : Type} (view : State → β) (f : State → α → State) (h : ∀ t a, view (f t a) = view t) (l : List α)
    (s : State) : view (l.foldl f s) = view s := by
  induction l generalizing s with
  | nil => rfl
  | cons a l ih => rw [List.foldl_cons, ih, h]

@[simp] theorem State.assertSource_amber (s : State) (n : Nat) : (s.assertSource n).amber = s.amber := by
  unfold State.assertSource
  split <;> rfl

@[simp] theorem State.modAmber_amber (s : State) (f : Amber → Amber) : (s.modAmber f).amber = f s.amber := rfl

/-- With no servo offset due the servo applies nothing (02 R38). -/
theorem State.servoApply_of_not_due (s : State) (h : s.amber.servoDue = false) : s.servoApply = s :=
  if_neg (Bool.eq_false_iff.mp h)

end Sys2Proof.Machine

end

section

namespace Sys2Proof.Machine

/-! ## What the boot leaves of the time base (02 R34)

What R34 speaks of: both clocks, the epoch, the time state and AMB_FREQ_ADJ. No operation of the boot writes any of it; each
of them writes fields outside Amber, registers that are not AMB_FREQ_ADJ, or what Amber holds for PTP. -/

/-- Farm time, steady time, the epoch, the time state and AMB_FREQ_ADJ. -/
def State.timeBase (s : State) : Nat × Nat × BitVec 16 × TimeState × Word :=
  (s.amber.farmQ, s.amber.steadyQ, s.amber.epoch, s.amber.state, s.reg R.AMB_FREQ_ADJ)

@[simp] theorem foldl_timeBase {α : Type} (f : State → α → State) (h : ∀ t a, (f t a).timeBase = t.timeBase) (l : List α)
    (s : State) : (l.foldl f s).timeBase = s.timeBase := foldl_view State.timeBase f h l s

@[simp] theorem ite_timeBase (c : Prop) [Decidable c] (s t : State) :
    (if c then s else t).timeBase = if c then s.timeBase else t.timeBase := apply_ite State.timeBase c s t

/-! ### Registers -/

theorem State.setReg_timeBase {a : Nat} (h : R.AMB_FREQ_ADJ ≠ a) (s : State) (v : Word) :
    (s.setReg a v).timeBase = s.timeBase := by
  unfold State.timeBase
  rw [State.setReg_amber, State.reg_setReg_other s a _ v h]

theorem State.bump_timeBase {a : Nat} (h : R.AMB_FREQ_ADJ ≠ a) (s : State) (n : Nat) : (s.bump a n).timeBase = s.timeBase :=
  State.setReg_timeBase h s _

theorem State.bumpSat_timeBase {a : Nat} (h : R.AMB_FREQ_ADJ ≠ a) (s : State) (n : Nat) :
    (s.bumpSat a n).timeBase = s.timeBase := State.setReg_timeBase h s _

/-- Registers written from an address above AMB_FREQ_ADJ upwards. -/
theorem State.setRegs_timeBase (vs : List Word) {a : Nat} (h : R.AMB_FREQ_ADJ < a) (s : State) :
    (s.setRegs a vs).timeBase = s.timeBase := by
  induction vs generalizing a s with
  | nil => rfl
  | cons v vs ih =>
    rw [State.setRegs, ih (Nat.lt_add_right 4 h), State.setReg_timeBase (Nat.ne_of_lt h)]

/-- A status place, where there is one, that is not AMB_FREQ_ADJ. -/
def OffFreqAdj (o : Option (Nat × Nat)) : Prop := ∀ a k, o = some (a, k) → R.AMB_FREQ_ADJ ≠ a

theorem offFreqAdj_ite {c : Prop} [Decidable c] {a k : Nat} {o : Option (Nat × Nat)} (h : R.AMB_FREQ_ADJ ≠ a)
    (ho : OffFreqAdj o) : OffFreqAdj (if c then some (a, k) else o) := by
  split
  · rintro b j ⟨⟩
    exact h
  · exact ho

/-- No internal source has its status bit in AMB_FREQ_ADJ (15 R280). -/
theorem intStatus_offFreqAdj (n : Nat) : OffFreqAdj (intStatus n) := by
  have hlatch : R.AMB_FREQ_ADJ ≠ R.GRD_FAULT_LATCH (n - 480) := by unfold R.AMB_FREQ_ADJ R.GRD_FAULT_LATCH; omega
  have hnone : OffFreqAdj none := fun _ _ h => nomatch h
  unfold intStatus
  iterate 16 refine offFreqAdj_ite (by decide) ?_
  exact offFreqAdj_ite hlatch (offFreqAdj_ite (by decide) hnone)

@[simp] theorem State.assertSource_timeBase (s : State) (n : Nat) : (s.assertSource n).timeBase = s.timeBase := by
  unfold State.assertSource
  split
  · next a k h => exact State.setReg_timeBase (intStatus_offFreqAdj n a k h) s _
  · rfl

@[simp] theorem State.setGuardEntry_timeBase (s : State) (g i : Nat) (a b c d : Word) :
    (s.setGuardEntry g i a b c d).timeBase = s.timeBase := by
  have h : R.AMB_FREQ_ADJ < entryAddr g i 0 := by unfold entryAddr R.AMB_FREQ_ADJ R.GRD_CFG; omega
  exact State.setRegs_timeBase _ h s

/-! ### Heaps -/

@[simp] theorem State.addEntry_timeBase (s : State) (g base log2 idVal idMask perms owner : Nat) :
    (s.addEntry g base log2 idVal idMask perms owner).timeBase = s.timeBase := by
  unfold State.addEntry
  split
  · exact State.setGuardEntry_timeBase ..
  · rfl

@[simp] theorem State.cover_timeBase (s : State) (g idVal idMask perms owner base k n : Nat) :
    (s.cover g idVal idMask perms owner base k n).timeBase = s.timeBase := by
  induction k generalizing s base n with
  | zero => rfl
  | succ k ih =>
    rw [State.cover]
    split
    · rfl
    · rw [ih, State.addEntry_timeBase]

@[simp] theorem State.dropFence_timeBase (s : State) (g c base len n i : Nat) :
    (s.dropFence g c base len n i).timeBase = s.timeBase := by
  induction n generalizing s i with
  | zero => rfl
  | succ n ih => simp only [State.dropFence, ih, ite_timeBase, State.setGuardEntry_timeBase, ite_self]

theorem State.allocDram_timeBase {s t : State} {len ctx what idx a : Nat} (h : s.allocDram len ctx what idx = some (t, a)) :
    t.timeBase = s.timeBase := by
  unfold State.allocDram at h
  dsimp only at h
  split at h
  · simp only [Option.some.injEq, Prod.mk.injEq] at h
    obtain ⟨rfl, -⟩ := h
    split
    · exact State.cover_timeBase ..
    · rfl
  · exact absurd h.symm (Option.some_ne_none _)

@[simp] theorem State.freeDram_timeBase (s : State) (what idx : Nat) : (s.freeDram what idx).timeBase = s.timeBase := by
  unfold State.freeDram
  dsimp only
  rw [foldl_timeBase _ fun t e => by simp]
  rfl

/-! ### Faults -/

@[simp] theorem State.stageRec_timeBase (s : State) (p : Producer) (ctx : Option Nat) (r : Rec) :
    (s.stageRec p ctx r).timeBase = s.timeBase := by
  unfold State.stageRec
  split
  · rfl
  · split
    · exact State.bumpSat_timeBase (by decide) s 1
    · rfl

@[simp] theorem State.emit_timeBase (s : State) (p : Producer) (ctx : Option Nat) (type : Nat) (tov : Stamp) (oldest : Int)
    (flags mask : Word) (gen : BitVec 16) (body : Bytes) :
    (s.emit p ctx type tov oldest flags mask gen body).timeBase = s.timeBase := State.stageRec_timeBase ..

@[simp] theorem State.stageFault_timeBase (s : State) (r : FaultRec) : (s.stageFault r).timeBase = s.timeBase := by
  unfold State.stageFault
  split <;> simp

@[simp] theorem State.queueLog_timeBase (s : State) (cls faultSeq unit master : Nat) (t : Stamp) (addr : Nat)
    (args : List Word) : (s.queueLog cls faultSeq unit master t addr args).timeBase = s.timeBase := by
  unfold State.queueLog
  split
  · exact State.bump_timeBase (by decide) _ 1
  · rw [State.assertSource_timeBase, State.bumpSat_timeBase (by decide)]
    rfl

@[simp] theorem State.mk_timeBase_faults (s : State) (f : FaultUnit) : ({ s with faults := f } : State).timeBase = s.timeBase := rfl

@[simp] theorem State.raiseFault_timeBase (s : State) (cls unit master addr : Nat) (args : List Word) (copyCtx : Option Nat)
    (log : Bool) : (s.raiseFault cls unit master addr args copyCtx log).timeBase = s.timeBase := by
  have h : R.AMB_FREQ_ADJ ≠ R.FLT_CLASS_COUNT + 4 * (cls - 1) := by unfold R.AMB_FREQ_ADJ R.FLT_CLASS_COUNT; omega
  have hs : ((s.bump R.FLT_SEQ).bumpSat (R.FLT_CLASS_COUNT + 4 * (cls - 1))).timeBase = s.timeBase := by
    rw [State.bumpSat_timeBase h, State.bump_timeBase (by decide)]
  unfold State.raiseFault
  dsimp only
  (repeat' split) <;> simp only [State.mk_timeBase_faults, State.queueLog_timeBase, State.stageFault_timeBase, hs]

/-! ### The boot -/

@[simp] theorem State.modHost_timeBase (s : State) (f : HostIf → HostIf) : (s.modHost f).timeBase = s.timeBase := rfl
@[simp] theorem State.modSys_timeBase (s : State) (f : Sys → Sys) : (s.modSys f).timeBase = s.timeBase := rfl
@[simp] theorem State.modBoard_timeBase (s : State) (f : Board → Board) : (s.modBoard f).timeBase = s.timeBase := rfl

@[simp] theorem State.addSystem_timeBase (s : State) (e : Nat × Nat × Nat × Nat × Nat × Nat) :
    (s.addSystem e).timeBase = s.timeBase := by
  unfold State.addSystem
  split
  · exact State.setGuardEntry_timeBase ..
  · rfl

@[simp] theorem State.installSystem_timeBase (s : State) : s.installSystem.timeBase = s.timeBase :=
  foldl_timeBase _ State.addSystem_timeBase _ s

theorem State.ethWindow_timeBase {s t : State} {b : Bytes} (h : s.ethWindow b = some t) : t.timeBase = s.timeBase := by
  unfold State.ethWindow at h
  dsimp only at h
  generalize (if u8 b 0 = 1 then u16 b 0x34 * 1048576 else 0) = n at h
  split at h
  · obtain rfl := Option.some.inj h
    exact State.freeDram_timeBase ..
  · obtain ⟨⟨u, a⟩, hu, rfl⟩ := Option.map_eq_some_iff.mp h
    rw [State.allocDram_timeBase hu, State.freeDram_timeBase]

@[simp] theorem State.applyEth_timeBase (s : State) (b : Bytes) : (s.applyEth b).timeBase = s.timeBase := by
  unfold State.applyEth
  rw [State.modHost_timeBase, State.setReg_timeBase (by decide), State.modHost_timeBase, State.freeDram_timeBase]

@[simp] theorem State.restoreEth_timeBase (s : State) : s.restoreEth.timeBase = s.timeBase := by
  unfold State.restoreEth
  split
  · split
    · next hu => rw [State.applyEth_timeBase, State.ethWindow_timeBase hu]
    · rfl
  · rfl

@[simp] theorem State.scanLog_timeBase (s : State) : s.scanLog.timeBase = s.timeBase :=
  State.setReg_timeBase (by decide) s _

@[simp] theorem State.lockSources_timeBase (s : State) : s.lockSources.timeBase = s.timeBase := by
  refine foldl_timeBase _ (fun t n => State.setReg_timeBase ?_ t _) _ s
  unfold R.AMB_FREQ_ADJ R.CARM_Sn_CFG
  omega

@[simp] theorem State.setMode_timeBase (s : State) : s.setMode.timeBase = s.timeBase := by
  simp [State.setMode, State.reportOverride]

@[simp] theorem State.reportFallback_timeBase (s : State) (k : Nat) : (s.reportFallback k).timeBase = s.timeBase := by
  simp [State.reportFallback]

@[simp] theorem State.setPtp_timeBase (s : State) (n : Nat) (x : PtpPort) : (s.setPtp n x).timeBase = s.timeBase := rfl

/-- The ports start with what Amber holds for PTP and with their state registers (02 R373). -/
@[simp] theorem State.startPtp_timeBase (s : State) : s.startPtp.timeBase = s.timeBase := by
  unfold State.startPtp State.restartBmca forEach
  dsimp only
  rw [foldl_timeBase]
  · rfl
  · intro t n
    rw [State.setPtp_timeBase, State.setReg_timeBase]
    unfold R.AMB_FREQ_ADJ R.AMB_PTPn_PORT_STATE
    omega

@[simp] theorem State.startBelrix_timeBase (s : State) (running : Nat) (belrix denzewen : Word) (pairs : List (Word × Word)) :
    (s.startBelrix running belrix denzewen pairs).timeBase = s.timeBase := by
  simp [State.startBelrix, State.setReg_timeBase]

@[simp] theorem State.romRecovery_timeBase (s : State) : s.romRecovery.timeBase = s.timeBase := rfl

@[simp] theorem State.trySlots_timeBase (s : State) (ks : List Nat) : (s.trySlots ks).timeBase = s.timeBase := by
  induction ks generalizing s with
  | nil => rfl
  | cons k ks ih => simp [State.trySlots, ih]

@[simp] theorem State.boot_timeBase (s : State) : s.boot.timeBase = s.timeBase := by
  simp [State.boot]

/-! ### Power-on reset and its release (11 R218, R219) -/

/-- The registers and Amber of a device held by PORST_N are those of reset. -/
theorem State.cold_timeBase (s : State) : s.cold.timeBase = (0, 0, 0, .freerun, 0) := by
  have hreg : s.cold.reg R.AMB_FREQ_ADJ = 0 := by
    show regReset R.AMB_FREQ_ADJ = 0
    decide
  unfold State.timeBase
  rw [hreg]
  rfl

/-- PORST_N released on a device that it held boots it, with the straps sampled and the DRAM trained. -/
def State.releasePorst (s : State) (straps : Nat) (trained : Bool) : State :=
  ((s.modSys fun y => { y with inPorst := false, bootMode := straps % 4, dramTrained := trained }).setReg R.DDR_ECC_CTRL
    (w32 (b2n (s.board.eccSaved.getD true)))).boot

theorem execPorstNRelease_of_inPorst (s : State) (straps : Nat) (trained : Bool) (h : s.sys.inPorst = true) :
    execPorstNRelease straps trained s = .next (s.releasePorst straps trained) := by
  rw [execPorstNRelease, h]
  rfl

@[simp] theorem State.releasePorst_timeBase (s : State) (straps : Nat) (trained : Bool) :
    (s.releasePorst straps trained).timeBase = s.timeBase := by
  rw [State.releasePorst, State.boot_timeBase, State.setReg_timeBase (by decide), State.modSys_timeBase]

/-- Settles O4: power-on reset leaves the time base at its reset values, and no operation of the boot writes it. -/
theorem timeStartsAtRelease : Obligations.TimeStartsAtRelease := by
  unfold Obligations.TimeStartsAtRelease
  intro s straps trained
  have h := (s.cold.releasePorst_timeBase straps trained).trans s.cold_timeBase
  simp only [State.timeBase, Prod.mk.injEq] at h
  exact ⟨s.cold, s.cold.releasePorst straps trained, rfl, execPorstNRelease_of_inPorst s.cold straps trained rfl, h⟩

end Sys2Proof.Machine

end

section

namespace Sys2Proof.Machine

/-! ## The register commands of Amber (02 R38, R50) -/

/-- The signed value of a word is that of its 32 bits. -/
theorem sext_toNat (v : Word) : sext 32 v.toNat = v.toInt := by
  rw [BitVec.toInt_eq_toNat_cond]
  unfold sext
  have hlt := v.isLt
  dsimp only
  split_ifs <;> omega

/-- With no servo offset and no step due the present tick applies nothing. -/
theorem State.settleClock_of_not_due (s : State) (hservo : s.amber.servoDue = false) (hstep : s.amber.stepDue = false) :
    s.settleClock = s := by
  rw [State.settleClock, s.servoApply_of_not_due hservo, State.epochStep, if_neg (Bool.eq_false_iff.mp hstep)]

/-- AMB_CAP_POP with an entry (02 R50): the oldest leaves the FIFO, its words fill the window. -/
theorem execAmbCapPop_cons (n : Nat) (s : State) (e : Capture) (es : List Capture) (h : s.capsOf n = e :: es) :
    execAmbCapPop n s = .next {
      ((s.setCaps n es).setRegs (R.AMB_CTRL + 0xA0 + n * 8)
        [w32 e.stamp.sec, w32 (e.stamp.sec / 0x100000000 + e.stamp.epoch.toNat * 65536)]).setRegs
        (R.AMB_CTRL + 0xC0 + n * 16) [w32 e.stamp.ns, w32 e.stamp.steady, w32 (e.stamp.steady / 0x100000000)] with
      readData := leBytes 4 e.stamp.sec, readErr := false } := by
  unfold execAmbCapPop
  rw [h]

/-- AMB_CAP_POP of an empty FIFO (log entry 10). -/
theorem execAmbCapPop_nil (n : Nat) (s : State) (h : s.capsOf n = []) :
    execAmbCapPop n s = .next {
      (s.setRegs (R.AMB_CTRL + 0xA0 + n * 8) [0, 0]).setRegs (R.AMB_CTRL + 0xC0 + n * 16) [0, 0, 0] with
      readData := leBytes 4 0, readErr := false } := by
  unfold execAmbCapPop
  rw [h]

/-- Settles O9: each register's meaning, with the slew request as the word's signed value and the pop by the FIFO's front. -/
theorem amberRegisterCommands : Obligations.AmberRegisterCommands := by
  unfold Obligations.AmberRegisterCommands
  intro s v n
  refine ⟨rfl, ?slew, State.settleClock_of_not_due s, rfl, fun e es h => execAmbCapPop_cons n s e es h,
    execAmbCapPop_nil n s⟩
  case slew =>
    show execAmbSlewReq v s = _
    rw [execAmbSlewReq, sext_toNat]
    rfl

/-! ## Edges at the capture inputs (02 R41, R49) -/

/-- An edge that AMB_CAP_EDGE does not select is not captured. -/
theorem State.capture_of_not_selected (s : State) (n : Nat) (e : Edge) (t : Stamp) (src : Nat) (h : s.capSelects n e = false) :
    s.capture n e t src = s := by
  simp [State.capture, h]

/-- A selected edge is captured while its FIFO has room. -/
theorem State.capture_of_room (s : State) (n : Nat) (e : Edge) (t : Stamp) (src : Nat) (h : s.capSelects n e = true)
    (hroom : (s.capsOf n).length < 16) :
    s.capture n e t src = (s.setCaps n (s.capsOf n ++ [⟨t, e⟩])).assertSource src := by
  simp [State.capture, h, hroom]

/-- A selected edge at a full FIFO is dropped and counted up to 255. -/
theorem State.capture_of_full (s : State) (n : Nat) (e : Edge) (t : Stamp) (src : Nat) (h : s.capSelects n e = true)
    (hfull : 16 ≤ (s.capsOf n).length) :
    s.capture n e t src = (s.setRegFld R.AMB_CAP_OVF (8 * n + 7) (8 * n)
      (Nat.min (s.regFld R.AMB_CAP_OVF (8 * n + 7) (8 * n) + 1) 255)).assertSource 361 := by
  simp [State.capture, h, Nat.not_lt.mpr hfull]

/-- An edge at PPS_IN that is no pulse of the reference is captured and no more. -/
theorem execPpsInEdge_of_not_pulse (s : State) (e : Edge) (ns : Nat) (h : s.reference ≠ 2 ∨ e = .fall) :
    execPpsInEdge e ns s = .next (s.capture 0 e (s.stampNs ns) 357) := by
  have hn : ¬(e = .rise ∧ s.reference = 2) := by
    rintro ⟨rfl, href⟩
    exact h.elim (· href) (nomatch ·)
  simp [execPpsInEdge, hn]

/-- Settles O12: a capture by its selection and the room in its FIFO, and the pulse of the reference at PPS_IN. -/
theorem capturePinEdges : Obligations.CapturePinEdges := by
  unfold Obligations.CapturePinEdges
  refine ⟨fun s n e ns src => ⟨s.capture_of_room n e _ src, s.capture_of_full n e _ src, s.capture_of_not_selected n e _ src⟩,
    fun s n e ns => rfl, fun s e ns => ⟨execPpsInEdge_of_not_pulse s e ns, ?pulse⟩⟩
  case pulse =>
    rintro href rfl
    show execPpsInEdge .rise ns s = _
    rw [execPpsInEdge, if_pos ⟨rfl, href⟩]
    rfl

end Sys2Proof.Machine

end

section

namespace Sys2Proof.Machine

/-! ## What happens at an instant of Amber's (02 R36, R38, R42, R48, R373) -/

/-! ### Deadlines of masters and ports -/

/-- ANNOUNCE_TIMEOUT's own part once the selected master's Announces have stopped (02 R42). -/
theorem State.masterTimeout_of_overdue (s : State) (m : Foreign) (hm : s.selectedMaster = some m)
    (hlate : s.amber.lastAnnounce + 3 * announceNs m.msg.logInterval ≤ s.now) :
    s.masterTimeout =
      let t := ((s.modAmber fun a => { a with
        masters := a.masters.filter fun x => (x.msg.identity, x.msg.port) ≠ (m.msg.identity, m.msg.port),
        selected := none }).bumpSat (R.AMB_PTPn_ANN_TMO m.msg.port)).assertSource (362 + m.msg.port)
      let u := (if t.masterCapable then t.enterPort m.msg.port 6 else t).runBmca
      if s.reference = 1 then u.enterHoldover else u := by
  unfold State.masterTimeout
  rw [hm]
  exact if_pos hlate

theorem State.masterTimeout_of_none (s : State) (hm : s.selectedMaster = none) (hd : s.amber.overdueAt = none) :
    s.masterTimeout = s := by
  unfold State.masterTimeout
  rw [hm, hd]

/-- A port in PRE_MASTER whose qualification has passed becomes MASTER. -/
theorem State.portTimer_of_preMaster (s : State) (n : Nat) (h : s.portState n = 5) (hq : (s.ptpPort n).masterAt ≤ s.now) :
    s.portTimer n = s.enterPort n 6 := if_pos ⟨h, hq⟩

/-- Only PRE_MASTER and LISTENING have a timer. -/
theorem State.portTimer_of_other (s : State) (n : Nat) (h5 : s.portState n ≠ 5) (h4 : s.portState n ≠ 4) : s.portTimer n = s := by
  simp [State.portTimer, h5, h4]

/-! ### PPS_IN and PPS_OUT -/

/-- A pulse of the reference that is 0.5 s late is counted, and the third in a row ends LOCKED (02 R42). -/
theorem State.ppsMissed_of_late (s : State) (t : Nat) (ht : s.amber.ppsInLast = some t) (href : s.reference = 2)
    (hlate : t + (s.amber.ppsMisses + 1) * 1000000000 + 500000000 ≤ s.now) :
    s.ppsMissed =
      let u := ((s.modAmber fun a => { a with ppsMisses := s.amber.ppsMisses + 1 }).bumpSat R.AMB_PPS_IN_MISS).assertSource 358
      if 2 ≤ s.amber.ppsMisses then u.enterHoldover else u := by
  have hthird : (3 ≤ s.amber.ppsMisses + 1) = (2 ≤ s.amber.ppsMisses) := by simp
  unfold State.ppsMissed
  simp only [ht, href, hlate, hthird, and_self, if_true]

/-- No settings wait for the crossing. -/
theorem State.ppsSwitch_of_none (s : State) (k : Int) (h : s.amber.ppsNext = none) : s.ppsSwitch k = s := by
  unfold State.ppsSwitch
  rw [h]

/-- The first crossing of a second with PPS_OUT low raises it (02 R48). -/
theorem State.ppsSecond_of_pulse (s : State) (k : Int) (hk : s.amber.ppsDue = some k)
    (hen : s.regBit R.AMB_PPS_OUT_WIDTH 31 = true) (hlow : s.amber.ppsOut = false) (hg : s.ppsGuarded k = false)
    (hseen : seenSecond k s.amber.ppsSeen = false) (hnext : s.amber.ppsNext = none) :
    s.ppsSecond = (((s.modAmber fun a => { a with
      ppsDue := none, ppsSeen := addSecond k a.ppsSeen, ppsOut := true,
      ppsFallAt := s.now + s.regFld R.AMB_PPS_OUT_WIDTH 30 0 * 1000 }).assertSource 356)).modAmber fun a =>
        { a with ppsGuard := none } := by
  unfold State.ppsSecond
  simp only [hk, hen, hlow, hg, hseen, if_true, Bool.false_eq_true, if_false]
  rw [State.ppsSwitch_of_none]
  · rfl
  · simpa [State.modAmber] using hnext

/-! ### The commands -/

/-- An event that settles its tick when it is due, and changes nothing when it is not. -/
theorem settles_tick_of_due (s : State) (p : Prop) [Decidable p] {r : Res} (h : r = .next (if p then s.settleTick else s)) :
    (p → r = .next s.settleTick) ∧ (¬p → r = .next s) :=
  ⟨fun hp => by rw [h, if_pos hp], fun hp => by rw [h, if_neg hp]⟩

/-- The same for an event whose mark is a flag of Amber. -/
theorem settles_tick_of_flag (s : State) (b : Bool) {r : Res} (h : r = .next (if b then s.settleTick else s)) :
    (b = true → r = .next s.settleTick) ∧ (b = false → r = .next s) := by
  rw [← Bool.not_eq_true]
  exact settles_tick_of_due s (b = true) h

/-- The end of a slew raises source 364 (02 R38). -/
theorem State.slewComplete_of_due (s : State) (h : s.amber.slewDue = true) :
    s.slewComplete = (s.modAmber fun a => { a with slewDue := false }).assertSource 364 := if_pos h

/-- The pulse of PPS_OUT ends at its width (02 R48). -/
theorem State.ppsEnd_of_fall (s : State) (h : s.amber.ppsOut = true) (hf : s.amber.ppsFallAt ≤ s.now) :
    s.ppsEnd = s.modAmber fun a => { a with ppsOut := false } := if_pos ⟨h, hf⟩

/-- Settles O10: each command is its event's meaning, which the lemmas above give for an event that is due. -/
theorem amberTicks : Obligations.AmberTicks := by
  unfold Obligations.AmberTicks
  refine ⟨fun s => ?anchors, fun s => ⟨?slew, ?lost, ?noMaster, fun n => ?timer, ?missed, ?second, ?pulseEnd⟩⟩
  case anchors =>
    obtain ⟨hstep, hnoStep⟩ := settles_tick_of_flag s s.amber.stepDue (r := exec .epochStep s) rfl
    obtain ⟨hwrap, hnoWrap⟩ := settles_tick_of_flag s s.amber.wrapDue (r := exec .ts32Wrap s) rfl
    obtain ⟨hperiod, hnoPeriod⟩ := settles_tick_of_due s (s.amber.lastAnchor + s.regN R.AMB_ANCHOR_PERIOD ≤ s.now)
      (r := exec .anchorPeriodExpiry s) rfl
    obtain ⟨hservo, hnoServo⟩ := settles_tick_of_flag s s.amber.servoDue (r := exec .servoOffsetApply s) rfl
    exact ⟨hstep, hnoStep, hwrap, hnoWrap, hperiod, fun h => hnoPeriod (Nat.not_le.mpr h), hservo, hnoServo⟩
  case slew => exact fun h => congrArg Host.Outcome.next (s.slewComplete_of_due h)
  case lost =>
    intro m hm hlate
    show Host.Outcome.next ((s.masterTimeout.portTimer 0).portTimer 1) = _
    rw [s.masterTimeout_of_overdue m hm hlate]
  case noMaster =>
    intro hm hd
    show Host.Outcome.next ((s.masterTimeout.portTimer 0).portTimer 1) = _
    rw [s.masterTimeout_of_none hm hd]
  case timer => exact ⟨s.portTimer_of_preMaster n, s.portTimer_of_other n⟩
  case missed => exact fun t ht href hlate => congrArg Host.Outcome.next (s.ppsMissed_of_late t ht href hlate)
  case second =>
    exact fun k hk hen hlow hg hseen hnext => congrArg Host.Outcome.next (s.ppsSecond_of_pulse k hk hen hlow hg hseen hnext)
  case pulseEnd => exact fun h hf => congrArg Host.Outcome.next (s.ppsEnd_of_fall h hf)

end Sys2Proof.Machine

end

section

namespace Sys2Proof.Machine

/-! ## A step of farm time (02 R32, R37, R39, R48)

The step itself writes Amber once. What the tick settles after it (marks, pulses, timeouts, the anchor, the blocks' boundary)
leaves the clocks, the epoch, the slew remainder and the mark of a step as the step left them. -/

/-- What a step of farm time sets, and steady time. -/
def Amber.farmClock (a : Amber) : Nat × BitVec 16 × Int × Bool × Nat := (a.farmQ, a.epoch, a.slewQ, a.stepDue, a.steadyQ)

/-! ### Operations that leave Amber as it was -/

@[simp] theorem foldl_amber {α : Type} (f : State → α → State) (h : ∀ t a, (f t a).amber = t.amber) (l : List α) (s : State) :
    (l.foldl f s).amber = s.amber := foldl_view State.amber f h l s

@[simp] theorem forEach_amber (f : Nat → State → State) (h : ∀ n t, (f n t).amber = t.amber) (l : List Nat) (s : State) :
    (forEach l f s).amber = s.amber := foldl_amber _ (fun t n => h n t) l s

@[simp] theorem ite_amber (c : Prop) [Decidable c] (s t : State) : (if c then s else t).amber = if c then s.amber else t.amber :=
  apply_ite State.amber c s t

@[simp] theorem State.stageRec_amber (s : State) (p : Producer) (ctx : Option Nat) (r : Rec) :
    (s.stageRec p ctx r).amber = s.amber := by
  unfold State.stageRec
  split
  · rfl
  · split <;> rfl

/-! ### A block boundary of a port (03 R66) -/

@[simp] theorem State.closeBlock_amber (s : State) (p : Nat) : (s.closeBlock p).amber = s.amber := by
  unfold State.closeBlock
  dsimp only
  split
  · rfl
  · simp [State.emit]

@[simp] theorem State.copyAnchors_amber (s : State) (p : Nat) : (s.copyAnchors p).amber = s.amber := by
  simp [State.copyAnchors]

@[simp] theorem applyFilters_amber (b d : Bytes) (s : State) : (applyFilters b d s).amber = s.amber := by
  unfold applyFilters
  rw [forEach_amber]
  · exact State.setReg_amber ..
  · exact fun n t => State.setReg_amber ..

@[simp] theorem State.setSize_amber (s : State) (p : Nat) (size : Word) : (s.setSize p size).amber = s.amber := by
  unfold State.setSize
  split <;> rfl

@[simp] theorem applyFormat_amber (b : Bytes) (s : State) : (applyFormat b s).amber = s.amber := by
  rw [applyFormat, State.setSize_amber, State.setReg_amber, State.setReg_amber, State.setReg_amber, State.setReg_amber,
    State.setReg_amber, State.setRegFld_amber]

@[simp] theorem applyOchre_amber (c : GCmd) (s : State) : (applyOchre c s).amber = s.amber := by
  simp [applyOchre, applyBlocking]

@[simp] theorem State.dropArmed_amber (s : State) (e : Elem) : (s.dropArmed e).amber = s.amber := rfl

@[simp] theorem State.markApply_amber (s : State) (ctx blk : Nat) : (s.markApply ctx blk).amber = s.amber := by
  unfold State.markApply
  split <;> rfl

@[simp] theorem State.applyElem_amber (s : State) (e : Elem) (f : GCmd → State → State)
    (h : ∀ c t, (f c t).amber = t.amber) : (s.applyElem e f).amber = s.amber := by
  unfold State.applyElem
  split
  · simp [h]
  · rfl

@[simp] theorem State.boundary_amber (s : State) (p : Nat) : (s.boundary p).amber = s.amber := by
  simp [State.boundary]

/-! ### What the tick settles after a step -/

@[simp] theorem ite_farmClock (c : Prop) [Decidable c] (a b : Amber) :
    (if c then a else b).farmClock = if c then a.farmClock else b.farmClock := apply_ite Amber.farmClock c a b

@[simp] theorem State.anchorReason_farmClock (s : State) (f : Anchor → Anchor) :
    (s.anchorReason f).amber.farmClock = s.amber.farmClock := rfl

@[simp] theorem State.setPtp_farmClock (s : State) (n : Nat) (x : PtpPort) :
    (s.setPtp n x).amber.farmClock = s.amber.farmClock := rfl

@[simp] theorem State.ts32Wrap_farmClock (s : State) : s.ts32Wrap.amber.farmClock = s.amber.farmClock := by
  unfold State.ts32Wrap
  split
  · rw [State.anchorReason_farmClock, State.assertSource_amber]
    rfl
  · rfl

@[simp] theorem State.slewComplete_farmClock (s : State) : s.slewComplete.amber.farmClock = s.amber.farmClock := by
  unfold State.slewComplete
  split
  · rw [State.assertSource_amber]
    rfl
  · rfl

@[simp] theorem State.ppsSwitch_farmClock (s : State) (k : Int) : (s.ppsSwitch k).amber.farmClock = s.amber.farmClock := by
  unfold State.ppsSwitch
  split <;> rfl

/-- A pulse and its count write what Amber holds for PPS_OUT. -/
@[simp] theorem State.ppsSecond_farmClock (s : State) : s.ppsSecond.amber.farmClock = s.amber.farmClock := by
  unfold State.ppsSecond
  split
  · rfl
  · dsimp only
    split
    · rw [State.ppsSwitch_farmClock]
      rfl
    · rw [State.ppsSwitch_farmClock, State.modAmber_amber]
      (repeat' split) <;> simp only [State.assertSource_amber, State.bumpSat_amber, State.modAmber_amber] <;> rfl

@[simp] theorem State.ppsEnd_farmClock (s : State) : s.ppsEnd.amber.farmClock = s.amber.farmClock := by
  unfold State.ppsEnd
  split <;> rfl

@[simp] theorem State.enterHoldover_farmClock (s : State) : s.enterHoldover.amber.farmClock = s.amber.farmClock := by
  unfold State.enterHoldover
  split
  · show ((s.setTimeState .holdover).amber).farmClock = _
    rw [State.setTimeState, State.assertSource_amber, State.anchorReason_farmClock]
    rfl
  · rfl

@[simp] theorem State.ppsMissed_farmClock (s : State) : s.ppsMissed.amber.farmClock = s.amber.farmClock := by
  unfold State.ppsMissed
  dsimp only
  split
  · split
    · split
      · rw [State.enterHoldover_farmClock, State.assertSource_amber]
        rfl
      · rw [State.assertSource_amber]
        rfl
    · rfl
  · rfl

@[simp] theorem State.enterPort_farmClock (s : State) (n st steps : Nat) :
    (s.enterPort n st steps).amber.farmClock = s.amber.farmClock := by
  unfold State.enterPort
  split <;> rfl

@[simp] theorem State.runBmca_farmClock (s : State) : s.runBmca.amber.farmClock = s.amber.farmClock := by
  unfold State.runBmca
  rw [State.modAmber_amber]
  exact foldl_view (fun t => t.amber.farmClock) _ (fun t n => State.enterPort_farmClock ..) _ s

@[simp] theorem State.masterTimeout_farmClock (s : State) : s.masterTimeout.amber.farmClock = s.amber.farmClock := by
  unfold State.masterTimeout
  dsimp only
  split
  · split
    · simp only [ite_amber, ite_farmClock, State.enterHoldover_farmClock, State.runBmca_farmClock, State.enterPort_farmClock,
        State.assertSource_amber, State.bumpSat_amber, State.modAmber_amber, ite_self]
      rfl
    · rfl
  · split
    · split
      · simp only [ite_amber, ite_farmClock, State.enterHoldover_farmClock, State.modAmber_amber, ite_self]
        rfl
      · rfl
    · rfl

@[simp] theorem State.portTimer_farmClock (s : State) (n : Nat) : (s.portTimer n).amber.farmClock = s.amber.farmClock := by
  unfold State.portTimer
  dsimp only
  (repeat' split) <;> simp

@[simp] theorem State.anchorPeriod_farmClock (s : State) : s.anchorPeriod.amber.farmClock = s.amber.farmClock := by
  unfold State.anchorPeriod
  split <;> rfl

@[simp] theorem State.emitAnchor_farmClock (s : State) : s.emitAnchor.amber.farmClock = s.amber.farmClock := by
  unfold State.emitAnchor
  split
  · rfl
  · simp [Amber.farmClock]

/-- What the tick settles leaves the farm clock as its steps left it. -/
theorem State.settleAmber_farmClock (s : State) : s.settleAmber.amber.farmClock = s.settleClock.amber.farmClock := by
  simp [State.settleAmber, State.announceTimeout]

theorem State.settleTick_farmClock (s : State) : s.settleTick.amber.farmClock = s.settleClock.amber.farmClock := by
  rw [← State.settleAmber_farmClock]
  unfold State.settleTick
  dsimp only
  split
  · rfl
  · rw [forEach_amber _ fun n t => State.boundary_amber t n]
    simp only [State.modAmber_amber, Amber.farmClock]

/-! ### The step -/

/-- With no servo offset due, the step that AMB_STEP_CMD armed is what the tick applies. -/
theorem State.settleClock_of_stepDue (s : State) (hstep : s.amber.stepDue = true) (hservo : s.amber.servoDue = false) :
    s.settleClock = s.doStep s.stepTarget := by
  rw [State.settleClock, s.servoApply_of_not_due hservo, State.epochStep, if_pos hstep]

/-- 02 R39: a step sets farm time, raises the epoch, drops the slew remainder and leaves steady time. -/
theorem State.doStep_farmClock (s : State) (target : Nat) :
    (s.doStep target).amber.farmClock = (target * 65536 % farmModQ, s.amber.epoch + 1, 0, false, s.amber.steadyQ) := by
  unfold State.doStep
  dsimp only
  split
  · rw [State.assertSource_amber, State.bumpSat_amber _ _ (Int.toNat _), State.anchorReason_farmClock,
      State.assertSource_amber, State.bumpSat_amber, State.modAmber_amber, Amber.farmClock]
  · rw [State.anchorReason_farmClock, State.assertSource_amber, State.bumpSat_amber, State.modAmber_amber, Amber.farmClock]

/-- Settles O11: the farm clock is the step's own, and the rest of the tick keeps it; the operation by its skipped seconds. -/
theorem stepOfFarmTime : Obligations.StepOfFarmTime := by
  unfold Obligations.StepOfFarmTime
  refine ⟨fun s hstep hservo => ?tick, fun s target => ⟨fun hnone => ?_, fun hskip => ?_⟩⟩
  case tick =>
    have h : s.settleTick.amber.farmClock = _ := s.settleTick_farmClock
    rw [s.settleClock_of_stepDue hstep hservo, s.doStep_farmClock] at h
    simp only [Amber.farmClock, Prod.mk.injEq] at h
    obtain ⟨hfarm, hepoch, hslew, hdue, hsteady⟩ := h
    refine ⟨s.settleTick, ?_, hfarm, hepoch, hslew, hdue, hsteady⟩
    show execEpochStep s = _
    rw [execEpochStep, if_pos hstep]
  · exact if_neg (Int.not_lt.mpr hnone)
  · exact if_pos hskip

end Sys2Proof.Machine

end

section

namespace Sys2Proof.Machine

/-! ## PTP messages at a port (02 R44, R47, R373) -/

/-! ### The gates that a reachable device passes -/

/-- A request that arrives and wakes nothing is carried out as it is (16 R302, R310). -/
theorem hosted_of_hostReach (f : State → Res) (s : State) (h : s.hostReach) : hosted f s = f s := by
  obtain ⟨hup, hrun⟩ := h
  simp [hosted, hup, hrun]

/-- Work on a clock that runs is carried out (16 R306). -/
theorem clocked_of_clocksRun (f : State → Res) (s : State) (h : s.clocksRun) : clocked f s = f s := if_neg h

/-! ### What a port admits (02 R44) -/

/-- A port that is not enabled admits no message. -/
theorem State.ptpAdmit_of_disabled (s : State) (n tags dom : Nat) (h : s.ptpEnabled n = false) :
    s.ptpAdmit n tags dom = false := by
  simp [State.ptpAdmit, h]

theorem State.ptpAdmit_of_other_domain (s : State) (n tags dom : Nat) (h : dom ≠ s.ptpDomain) :
    s.ptpAdmit n tags dom = false := by
  simp [State.ptpAdmit, h]

/-- A count of an ignored message changes no port's part in forwarding. -/
theorem State.ptpIgnore_forwards (s : State) (n m : Nat) : (s.ptpIgnore n).forwards m = s.forwards m := by
  have hctrl : R.AMB_CTRL ≠ R.AMB_PTPn_IGNORED n := by unfold R.AMB_CTRL R.AMB_PTPn_IGNORED; omega
  have hcfg : R.AMB_PTPn_CFG (1 - m) ≠ R.AMB_PTPn_IGNORED n := by unfold R.AMB_PTPn_CFG R.AMB_PTPn_IGNORED; omega
  have hc : (s.ptpIgnore n).reg R.AMB_CTRL = s.reg R.AMB_CTRL := s.reg_setReg_other _ _ _ hctrl
  have hp : (s.ptpIgnore n).reg (R.AMB_PTPn_CFG (1 - m)) = s.reg (R.AMB_PTPn_CFG (1 - m)) := s.reg_setReg_other _ _ _ hcfg
  unfold State.forwards State.isTc State.clockType State.ptpEnabled State.regFld State.regBit
  rw [hc, hp]

theorem State.ptpReject_of_disabled (s : State) (m : PtpMsg) (h : s.ptpEnabled m.port = false) : s.ptpReject m = s := by
  simp [State.ptpReject, h]

/-- A message that is not admitted is counted where nothing forwards it. -/
theorem State.ptpReject_of_not_tc (s : State) (m : PtpMsg) (h : s.ptpEnabled m.port = true) (htc : s.isTc = false) :
    s.ptpReject m = s.ptpIgnore m.port := by
  simp [State.ptpReject, h, State.forwards, htc]

/-- A transparent clock also forwards it. -/
theorem State.ptpReject_of_forwards (s : State) (m : PtpMsg) (h : s.ptpEnabled m.port = true) (htags : m.tags ≤ 1)
    (hf : s.forwards m.port = true) :
    s.ptpReject m = (s.ptpIgnore m.port).send (.ptpForward (1 - m.port) m.kind m.seqId) := by
  simp [State.ptpReject, h, htags, hf]

/-! ### The commands of a received message -/

section Received
variable (s : State) (m : PtpMsg) (h : s.hostReach)
include h

theorem exec_syncReceived : exec (.syncReceived m) s =
    .next (if s.ptpAdmit m.port m.tags m.domain then s.ptpSync m else s.ptpReject m) := hosted_of_hostReach _ s h

theorem exec_ptpMessageReceived : exec (.ptpMessageReceived m) s =
    .next (if s.ptpAdmit m.port m.tags m.domain then s.ptpReceive m else s.ptpReject m) := hosted_of_hostReach _ s h

/-- A message that the port admits has its effect. -/
theorem exec_ptp_of_admitted (ha : s.ptpAdmit m.port m.tags m.domain = true) :
    exec (.syncReceived m) s = .next (s.ptpSync m) ∧ exec (.ptpMessageReceived m) s = .next (s.ptpReceive m) :=
  ⟨by rw [exec_syncReceived s m h, if_pos ha], by rw [exec_ptpMessageReceived s m h, if_pos ha]⟩

/-- A message that is not admitted is rejected, of whatever kind it is. -/
theorem exec_ptp_of_not_admitted (ha : s.ptpAdmit m.port m.tags m.domain = false) {t : State} (ht : s.ptpReject m = t) :
    exec (.syncReceived m) s = .next t ∧ exec (.ptpMessageReceived m) s = .next t := by
  have hn := Bool.eq_false_iff.mp ha
  exact ⟨by rw [exec_syncReceived s m h, if_neg hn, ht], by rw [exec_ptpMessageReceived s m h, if_neg hn, ht]⟩

end Received

/-! ### An Announce -/

/-- An Announce at a reachable device, by the port's state and its admission. -/
theorem exec_announceReceived (s : State) (m : Announce) (h : s.hostReach) :
    exec (.announceReceived m) s = .next (if !s.ptpEnabled m.port then s
      else if s.ptpAdmit m.port m.tags m.domain then (s.hearAnnounce m).runBmca.forwardAnnounce m
      else (s.ptpIgnore m.port).forwardAnnounce m) := hosted_of_hostReach _ s h

/-- A message that a port admits came in at an enabled port. -/
theorem State.ptpEnabled_of_admitted (s : State) (n tags dom : Nat) (h : s.ptpAdmit n tags dom = true) : s.ptpEnabled n = true := by
  simp only [State.ptpAdmit, Bool.and_eq_true] at h
  obtain ⟨⟨he, -⟩, -⟩ := h
  exact he

/-- An Announce stays at a port that forwards nothing, and one of two tags stays at any port. -/
theorem State.forwardAnnounce_of_not (s : State) (m : Announce) (h : s.forwards m.port = false ∨ 1 < m.tags) :
    s.forwardAnnounce m = s := by
  refine if_neg ?_
  rintro ⟨hf, htags⟩
  rcases h with h | h
  · exact absurd (h.symm.trans hf) Bool.false_ne_true
  · exact absurd htags (Nat.not_le.mpr h)

/-! ### A message committed for egress (02 R47) -/

section Egress
variable (s : State) (m : PtpTx)

/-- The message of a one-step Sync carries its egress time; of every other kind it leaves as it is. -/
theorem State.ptpOwn_oneStepSync (hk : msgKind m.msg = .sync) (ho : s.regBit (R.AMB_PTPn_CFG m.port) 5 = true) :
    s.ptpOwn m = (s.bump (R.AMB_PTPn_TX_EVENT m.port)).send
      (.ptp m.port (ptpFrame (s.ptpTransport m.port) m.head (putOrigin m.msg (s.egress m.port m.ns)))) := by
  simp [State.ptpOwn, hk, ho]

theorem State.ptpOwn_twoStepSync (hk : msgKind m.msg = .sync) (ho : s.regBit (R.AMB_PTPn_CFG m.port) 5 = false) :
    s.ptpOwn m = ((s.bump (R.AMB_PTPn_TX_EVENT m.port)).send
      (.ptp m.port (ptpFrame (s.ptpTransport m.port) m.head m.msg))).send
      (.ptpReply m.port (s.ptpTransport m.port) .followUp (msgSeq m.msg) (s.egress m.port m.ns)) := by
  simp [State.ptpOwn, hk, ho]

theorem State.ptpOwn_twoStepPdelayResp (hk : msgKind m.msg = .pdelayResp) (ho : s.regBit (R.AMB_PTPn_CFG m.port) 5 = false) :
    s.ptpOwn m = ((s.bump (R.AMB_PTPn_TX_EVENT m.port)).send
      (.ptp m.port (ptpFrame (s.ptpTransport m.port) m.head m.msg))).send
      (.ptpReply m.port (s.ptpTransport m.port) .pdelayRespFollowUp (msgSeq m.msg) (s.egress m.port m.ns)) := by
  simp [State.ptpOwn, hk, ho]

theorem State.ptpOwn_oneStepPdelayResp (hk : msgKind m.msg = .pdelayResp) (ho : s.regBit (R.AMB_PTPn_CFG m.port) 5 = true) :
    s.ptpOwn m = (s.bump (R.AMB_PTPn_TX_EVENT m.port)).send
      (.ptp m.port (ptpFrame (s.ptpTransport m.port) m.head m.msg)) := by
  simp [State.ptpOwn, hk, ho]

/-- The egress time of a request is kept for its answer. -/
theorem State.ptpOwn_request (hk : msgKind m.msg = .delayReq ∨ msgKind m.msg = .pdelayReq) :
    s.ptpOwn m =
      let u := (s.bump (R.AMB_PTPn_TX_EVENT m.port)).send (.ptp m.port (ptpFrame (s.ptpTransport m.port) m.head m.msg))
      u.setPtp m.port { u.ptpPort m.port with sent := some (msgSeq m.msg, s.egress m.port m.ns) } := by
  rcases hk with hk | hk <;> simp [State.ptpOwn, hk]

/-- A message that the other port noted leaves with its residence time in its correctionField. -/
theorem State.ptpForwarded_of_noted (k : PtpKind) (q : Nat) (tin : Int)
    (hf : (s.ptpPort (1 - m.port)).transit.find? (fun x => (x.1, x.2.1) = (msgKind m.msg, msgSeq m.msg)) = some (k, q, tin)) :
    s.ptpForwarded m = ((s.bump (R.AMB_PTPn_TX_EVENT m.port)).setPtp (1 - m.port) { s.ptpPort (1 - m.port) with
        transit := (s.ptpPort (1 - m.port)).transit.filter fun x => (x.1, x.2.1) ≠ (msgKind m.msg, msgSeq m.msg) }).send
      (.ptp m.port (ptpFrame m.transport m.head (addCorrection m.msg (s.egress m.port m.ns - tin)))) := by
  unfold State.ptpForwarded
  dsimp only
  rw [hf]

/-- A message committed while the clocks run, by its port's state and by whose it is. -/
theorem exec_ptpEventTransmit (h : s.clocksRun) : exec (.ptpEventTransmit m) s =
    .next (if !s.ptpEnabled m.port then s else if m.forwarded then s.ptpForwarded m else s.ptpOwn m) :=
  clocked_of_clocksRun _ s h

end Egress

/-- Settles O13: each message by its gate, its admission, and for egress by its kind and the port's one-step setting. -/
theorem ptpMessages : Obligations.PtpMessages := by
  unfold Obligations.PtpMessages
  refine ⟨fun s m h => ⟨exec_ptp_of_admitted s m h, ?ignored, ?forwarded, ?disabled⟩,
    fun s m h => ⟨?heard, s.forwardAnnounce_of_not m, ?notHeard, ?announceDisabled⟩, fun s m h => ?egress⟩
  case ignored => exact fun he ha htc => exec_ptp_of_not_admitted s m h ha (s.ptpReject_of_not_tc m he htc)
  case forwarded =>
    intro he htags hd hf
    rw [State.ptpIgnore_forwards] at hf
    exact exec_ptp_of_not_admitted s m h (s.ptpAdmit_of_other_domain _ _ _ hd) (s.ptpReject_of_forwards m he htags hf)
  case disabled => exact fun he => exec_ptp_of_not_admitted s m h (s.ptpAdmit_of_disabled _ _ _ he) (s.ptpReject_of_disabled m he)
  case heard =>
    intro ha
    rw [exec_announceReceived s m h, s.ptpEnabled_of_admitted _ _ _ ha, ha]
    rfl
  case notHeard =>
    intro he ha
    rw [exec_announceReceived s m h, he, ha]
    rfl
  case announceDisabled =>
    intro he
    rw [exec_announceReceived s m h, he]
    rfl
  case egress =>
    refine ⟨fun he => ?off, fun he hf => ?own, fun k q tin he hf hn => ?forwarded⟩
    case off =>
      rw [exec_ptpEventTransmit s m h, he]
      rfl
    case own =>
      have own {t : State} (ht : s.ptpOwn m = t) : exec (.ptpEventTransmit m) s = .next t := by
        rw [exec_ptpEventTransmit s m h, he, hf, ← ht]
        rfl
      exact ⟨fun hk ho => own (s.ptpOwn_oneStepSync m hk ho), fun hk ho => own (s.ptpOwn_twoStepSync m hk ho),
        fun hk ho => own (s.ptpOwn_twoStepPdelayResp m hk ho), fun hk ho => own (s.ptpOwn_oneStepPdelayResp m hk ho),
        fun hk => own (s.ptpOwn_request m hk)⟩
    case forwarded =>
      rw [exec_ptpEventTransmit s m h, he, hf, ← s.ptpForwarded_of_noted m k q tin hn]
      rfl

end Sys2Proof.Machine

end

section

namespace Sys2Proof.Machine

/-! ## The gates of the power state while the clocks run (16 R303, R306, R310) -/

/-- A timer of a device that is awake runs as it is. -/
theorem timed_of_clocksRun (f : State → Res) (s : State) (h : s.clocksRun) : timed f s = f s := by
  unfold timed
  rw [if_neg fun hd => h hd.1]
  exact clocked_of_clocksRun f s h

/-- Data that reaches a device that is awake is use of the block's domain and no wake. -/
theorem received_of_clocksRun (d : Nat) (f : State → Res) (s : State) (h : s.clocksRun) : received d f s = f (s.fed d) := by
  unfold received
  rw [if_neg h]

/-- A request to a domain that is up is a use of it. -/
theorem State.request_of_domUp (s : State) (d : Nat) (h : s.domUp d = true) : s.request d = s.fed d := if_pos h

@[simp] theorem State.fed_domUp (s : State) (d e : Nat) : (s.fed d).domUp e = s.domUp e := by
  unfold State.fed
  split <;> rfl

/-! ## What a port and the FIFOs beside it keep under the shared operations -/

/-- What leaves Ochre leaves its ports. -/
theorem State.port_of_ochre {s t : State} (h : s.ochre = t.ochre) (p : Nat) : s.port p = t.port p := by
  unfold State.port
  rw [h]

@[simp] theorem State.setReg_port (s : State) (a : Nat) (v : Word) (p : Nat) : (s.setReg a v).port p = s.port p :=
  State.port_of_ochre (s.setReg_ochre a v) p
@[simp] theorem State.setReg64_port (s : State) (a v p : Nat) : (s.setReg64 a v).port p = s.port p :=
  State.port_of_ochre (s.setReg64_ochre a v) p

/-- A write of Ochre beside its ports. -/
theorem State.modOchre_port (s : State) (f : Ochre → Ochre) (h : ∀ o, (f o).ports = o.ports) (p : Nat) :
    (s.modOchre f).port p = s.port p := congrArg (AMap.getD · p OchPort.init) (h s.ochre)

@[simp] theorem ite_port (c : Prop) [Decidable c] (s t : State) (p : Nat) :
    (if c then s else t).port p = if c then s.port p else t.port p := apply_ite (State.port · p) c s t

end Sys2Proof.Machine

end

section

namespace Sys2Proof.Machine

/-! ## The filters of an event (03 R57, R60, R61, R64) -/

/-! ### The filter map at an event's cell -/

/-- The event at (x, y) enters the filter map: its cell takes the present time. -/
def State.markCell (s : State) (p x y : Nat) : State :=
  let k := s.regN (R.OCH_Pn_CELL_SHIFT p)
  s.setPort p { s.port p with map := (s.port p).map.set (cellKey (x / 2 ^ k) (y / 2 ^ k)) s.mapNow }

/-- The cell of (x, y) holds an entry younger than `us`. -/
def State.cellYoung (s : State) (p x y us : Nat) : Bool :=
  let k := s.regN (R.OCH_Pn_CELL_SHIFT p)
  (s.port p).young s.mapNow (x / 2 ^ k) (y / 2 ^ k) us

/-- A neighbour of the cell of (x, y), in a sensor of `w` by `h` pixels, holds an entry younger than `us`. -/
def State.neighbourYoung (s : State) (p w h x y us : Nat) : Bool :=
  let k := s.regN (R.OCH_Pn_CELL_SHIFT p)
  (neighbours ((w + 2 ^ k - 1) / 2 ^ k) ((h + 2 ^ k - 1) / 2 ^ k) (x / 2 ^ k) (y / 2 ^ k)).any fun c =>
    (s.port p).young s.mapNow c.1 c.2 us

/-- The queue, the gap, the block and the window of the port stand. -/
theorem State.markCell_port (s : State) (p x y : Nat) :
    ((s.markCell p x y).port p).fifo = (s.port p).fifo ∧ ((s.markCell p x y).port p).gap = (s.port p).gap ∧
    ((s.markCell p x y).port p).block = (s.port p).block ∧ ((s.markCell p x y).port p).postGap = (s.port p).postGap ∧
    ((s.markCell p x y).port p).active = (s.port p).active := by
  rw [State.markCell, State.port_setPort_same]
  exact ⟨rfl, rfl, rfl, rfl, rfl⟩

/-! ### The filters in their order -/

/-- Columns and rows of a port's sensor. -/
def State.sensorW (s : State) (p : Nat) : Nat := fld (s.reg (R.OCH_Pn_SIZE p)) 10 0 + 1
def State.sensorH (s : State) (p : Nat) : Nat := fld (s.reg (R.OCH_Pn_SIZE p)) 26 16 + 1

section Filters
variable (s : State) (p x y : Nat) (pol : Bool) (t : Stamp) (f : Nat)

/-- Range, hot pixels, refractory period, background activity, admission. -/
theorem State.filterEvent_eq : s.filterEvent p x y pol t f =
    if s.sensorW p ≤ x ∨ s.sensorH p ≤ y then (s.bumpSat (R.OCH_Pn_DROP_RANGE p)).assertSource (p * 8 + 4)
    else if s.isHot p x y then s.bumpSat (R.OCH_Pn_DROP_HOT p)
    else if s.cellYoung p x y (s.regFld (R.OCH_Pn_FILT p) 13 0) then s.bumpSat (R.OCH_Pn_DROP_REFR p)
    else if s.regFld (R.OCH_Pn_FILT p) 29 16 ≠ 0 &&
        !(s.markCell p x y).neighbourYoung p (s.sensorW p) (s.sensorH p) x y (s.regFld (R.OCH_Pn_FILT p) 29 16) then
      (s.markCell p x y).bumpSat (R.OCH_Pn_DROP_BA p)
    else (s.markCell p x y).admitEvent p (fun g => evWord t.ts32 x y pol p (f + g)) t := rfl

theorem State.filterEvent_of_outside (h : s.sensorW p ≤ x ∨ s.sensorH p ≤ y) :
    s.filterEvent p x y pol t f = (s.bumpSat (R.OCH_Pn_DROP_RANGE p)).assertSource (p * 8 + 4) := by
  rw [State.filterEvent_eq, if_pos h]

variable (hx : x < s.sensorW p) (hy : y < s.sensorH p)
include hx hy

theorem State.filterEvent_of_hot (hhot : s.isHot p x y = true) :
    s.filterEvent p x y pol t f = s.bumpSat (R.OCH_Pn_DROP_HOT p) := by
  rw [State.filterEvent_eq, if_neg (by omega), if_pos hhot]

variable (hhot : s.isHot p x y = false)
include hhot

theorem State.filterEvent_of_young (hyoung : s.cellYoung p x y (s.regFld (R.OCH_Pn_FILT p) 13 0) = true) :
    s.filterEvent p x y pol t f = s.bumpSat (R.OCH_Pn_DROP_REFR p) := by
  rw [State.filterEvent_eq, if_neg (by omega), hhot, if_neg Bool.false_ne_true, if_pos hyoung]

variable (hyoung : s.cellYoung p x y (s.regFld (R.OCH_Pn_FILT p) 13 0) = false)
include hyoung

/-- Background activity: no neighbour has seen an event lately. -/
theorem State.filterEvent_of_lonely (hba : s.regFld (R.OCH_Pn_FILT p) 29 16 ≠ 0)
    (hnear : (s.markCell p x y).neighbourYoung p (s.sensorW p) (s.sensorH p) x y (s.regFld (R.OCH_Pn_FILT p) 29 16) = false) :
    s.filterEvent p x y pol t f = (s.markCell p x y).bumpSat (R.OCH_Pn_DROP_BA p) := by
  rw [State.filterEvent_eq, if_neg (by omega), hhot, if_neg Bool.false_ne_true, hyoung, if_neg Bool.false_ne_true, if_pos]
  simp [hba, hnear]

/-- An event that passes all of them is offered to the FIFO. -/
theorem State.filterEvent_of_passed (hnear : s.regFld (R.OCH_Pn_FILT p) 29 16 = 0 ∨
      (s.markCell p x y).neighbourYoung p (s.sensorW p) (s.sensorH p) x y (s.regFld (R.OCH_Pn_FILT p) 29 16) = true) :
    s.filterEvent p x y pol t f =
      (s.markCell p x y).admitEvent p (fun g => evWord t.ts32 x y pol p (f + g)) t := by
  rw [State.filterEvent_eq, if_neg (by omega), hhot, if_neg Bool.false_ne_true, hyoung, if_neg Bool.false_ne_true, if_neg]
  rcases hnear with hba | hnear
  · simp [hba]
  · simp [hnear]

end Filters

/-! ### The offer to the FIFO -/

theorem State.closeGap_of_none (s : State) (p : Nat) (h : (s.port p).gap = none) : s.closeGap p = s := by
  unfold State.closeGap
  rw [h]

theorem State.splitBlock_of_nil (s : State) (p : Nat) (e : BitVec 16) (h : (s.port p).block = []) : s.splitBlock p e = s := by
  unfold State.splitBlock
  rw [h]

section Offer
variable (s : State) (p : Nat) (mk : Nat → BitVec 64) (t : Stamp) (hp : s.paused (s.portOwner p) = false)
include hp

/-- An event offered to a full FIFO is dropped into a gap. -/
theorem State.admitEvent_of_full (hfull : 65536 ≤ (s.port p).fifo.length) :
    s.admitEvent p mk t = (s.bumpSat (R.OCH_Pn_DROP_OVF p)).portDrop p 0x01 1 0 t := by
  unfold State.admitEvent
  dsimp only
  rw [hp, if_neg Bool.false_ne_true, if_pos hfull]

/-- An event offered to a port with room, no gap and no block enters the FIFO at its end, flagged after a gap. -/
theorem State.admitEvent_port (hroom : (s.port p).fifo.length < 65536) (hgap : (s.port p).gap = none)
    (hblock : (s.port p).block = []) (hraw : s.regBit (R.OCH_Pn_BLOCK p) 13 = false) :
    (s.admitEvent p mk t).port p = { s.port p with
      fifo := (s.port p).fifo ++ [⟨mk (if (s.port p).postGap then evPostGap else 0), t⟩], postGap := false,
      active := (s.port p).active + 1 } := by
  unfold State.admitEvent
  dsimp only
  rw [hp, if_neg Bool.false_ne_true, if_neg (Nat.not_le.mpr hroom), s.closeGap_of_none p hgap, s.splitBlock_of_nil p _ hblock]
  simp only [hraw, Bool.false_and, Bool.false_eq_true, false_and, if_false, ite_port, State.setReg_port, ite_self,
    State.modOchre_port, implies_true, State.setReg64_port, State.port_setPort_same]

end Offer

/-- Settles O18: the filters are the branches of the path in their order, and an event that passes them all is offered to the
FIFO of a port that differs from the given one in its filter map alone. -/
theorem eventFilters : Obligations.EventFilters := by
  unfold Obligations.EventFilters
  intro s p x y pol t f
  obtain ⟨hfifo, hgap', hblock', hpost, hactive⟩ := s.markCell_port p x y
  refine ⟨s.filterEvent_of_outside p x y pol t f, s.filterEvent_of_hot p x y pol t f, s.filterEvent_of_young p x y pol t f,
    s.filterEvent_of_lonely p x y pol t f, ?full, ?admitted⟩
  case full =>
    intro hx hy hhot hyoung hnear hp hfull
    rw [s.filterEvent_of_passed p x y pol t f hx hy hhot hyoung hnear]
    exact State.admitEvent_of_full _ p _ t hp (by rwa [hfifo])
  case admitted =>
    intro hx hy hhot hyoung hnear hp hroom hgap hblock hraw
    rw [s.filterEvent_of_passed p x y pol t f hx hy hhot hyoung hnear]
    have hport := (s.markCell p x y).admitEvent_port p (fun g => evWord t.ts32 x y pol p (f + g)) t hp (by rwa [hfifo])
      (by rwa [hgap']) (by rwa [hblock']) hraw
    rw [hfifo, hpost, hactive] at hport
    exact ⟨_, hport, rfl, rfl⟩

end Sys2Proof.Machine

end

section

namespace Sys2Proof.Machine

/-! ## The sensor buses (03 R70) -/

/-! ### SENSOR_XFER -/

/-- A page whose transfer has ended and whose body ends: the answer is formed (10 R195, R197). -/
theorem runPage_resumed_done (op : Nat) (b : PageBody) (p : Nat) (s t : State) (l : Latch) (d : Option Bytes) (r : Bytes)
    (hl : s.latch p = some l) (ho : l.cmd.opcode = op) (hs : l.stage = .resumed d) (hb : b l.cmd (some d) s = .done t r) :
    runPage op b p s = t.replyOk p l r := by
  simp [runPage, hl, ho, hs, hb, State.replyOk]

/-- A transfer over SPI goes to the port's chip select with the page's mode. -/
theorem sensorXferBody_spi (c : Cmd) (s : State) (hc : checkXfer c s = .ok ()) (h : u8 c.block 1 = 2) :
    sensorXferBody c none s = .wait ((s.touch dEVTA).sbusStart 2 ((s.port (u8 c.block 0)).spiCs.getD 0) (u8 c.block 2)
      (u16 c.block 4) (slice c.block 16 (u16 c.block 6)) (u16 c.block 8) (some c.path)) := by
  simp only [sensorXferBody, hc, h, if_true]

/-- A transfer over I2C goes to the port's address. -/
theorem sensorXferBody_i2c (c : Cmd) (s : State) (bus a : Nat) (hc : checkXfer c s = .ok ()) (h : u8 c.block 1 ≠ 2)
    (ha : (s.port (u8 c.block 0)).i2c = some (bus, a)) :
    sensorXferBody c none s = .wait ((s.touch dEVTA).sbusStart (u8 c.block 1) a 0
      (u16 c.block 4) (slice c.block 16 (u16 c.block 6)) (u16 c.block 8) (some c.path)) := by
  simp only [sensorXferBody, hc, h, ha, if_false]

theorem sensorXferBody_error (c : Cmd) (s : State) (e : CErr) (hc : checkXfer c s = .error e) :
    sensorXferBody c none s = .fail e := by
  simp only [sensorXferBody, hc]

section Turn
variable {s : State} {p : Nat} {l : Latch} (h : s.turn p 0x0406 l)
include h

/-- SENSOR_XFER whose body waits for its transfer yields. -/
theorem exec_sensorXfer_of_wait {t : State} (hb : sensorXferBody l.cmd none s = .wait t) :
    exec (.sensorXfer p) s = .next (t.toStage p .yielded) := by
  obtain ⟨hl, hstage, hop, hstart⟩ := h
  exact congrArg Host.Outcome.next (runPage_wait _ _ p s t l hl hop hstage hstart hb)

theorem exec_sensorXfer_of_fail {e : CErr} (hb : sensorXferBody l.cmd none s = .fail e) :
    exec (.sensorXfer p) s = .next (s.answerErr p e (s.respGen l.cmd)) := by
  obtain ⟨hl, hstage, hop, hstart⟩ := h
  exact congrArg Host.Outcome.next (runPage_fail _ _ p s l e hl hop hstage hstart hb)

end Turn

/-! ### OCH_SBUS_GO and OCH_SBUS_DATA -/

section Go
variable (v : Word) (s : State)

/-- The transfer that the registers describe (03 R70), on the bus that OCH_SBUS_SEL names. -/
theorem execOchSbusGo_of_idle (hv : bit v 0 = true) (hidle : s.sbusBusy (s.regFld R.OCH_SBUS_SEL 1 0) = false)
    (hbus : s.regFld R.OCH_SBUS_SEL 1 0 < 3) :
    execOchSbusGo v s = .next (
      let bus := s.regFld R.OCH_SBUS_SEL 1 0
      let n := s.regFld R.OCH_SBUS_LEN 8 0
      (s.modOchre fun o => { o with sbusTx := o.sbusTx.drop n, sbusRx := [] }).sbusStart bus
        (if bus = 2 then s.regFld R.OCH_SBUS_CFG 10 8 else s.regFld R.OCH_SBUS_CFG 6 0)
        (if bus = 2 then s.regFld R.OCH_SBUS_CFG 13 12 else 0) (s.regFld R.OCH_SBUS_CFG 31 16) (slice s.ochre.sbusTx 0 n)
        (s.regFld R.OCH_SBUS_LEN 24 16) none) :=
  congrArg Host.Outcome.next (if_pos ⟨hv, Bool.eq_false_iff.mp hidle, hbus⟩)

/-- A 0, a busy bus and bus 3 start nothing (log entry 15). -/
theorem execOchSbusGo_ignored (h : bit v 0 = false ∨ s.sbusBusy (s.regFld R.OCH_SBUS_SEL 1 0) = true ∨
    s.regFld R.OCH_SBUS_SEL 1 0 = 3) : execOchSbusGo v s = .next s := by
  refine congrArg Host.Outcome.next (if_neg ?_)
  rintro ⟨hv, hidle, hbus⟩
  rcases h with h | h | h
  · exact Bool.eq_false_iff.mp h hv
  · exact hidle h
  · omega

end Go

theorem execOchSbusDataPop_cons (s : State) (x : Byte) (xs : Bytes) (h : s.ochre.sbusRx = x :: xs) :
    execOchSbusDataPop none s =
      .next { s with ochre := { s.ochre with sbusRx := xs }, readData := [x], readErr := false } := by
  unfold execOchSbusDataPop
  rw [h]
  rfl

/-- What an empty receive FIFO reads is free (log entry 15). -/
theorem execOchSbusDataPop_nil (s : State) (h : s.ochre.sbusRx = []) :
    execOchSbusDataPop none s = .next { s.tookFree with readData := [s.free.setWidth 8], readErr := false } := by
  unfold execOchSbusDataPop
  rw [h]

/-! ### The end of a transfer -/

/-- The bus is free and shows the status and the count of its last transfer. -/
def State.sbusEnded (s : State) (bus st n : Nat) : State := s.modOchre fun o => { o with
  sbusRuns := o.sbusRuns.erase bus, sbusLast := o.sbusLast.set bus (w32 (st % 4 * 2 + n % 512 * 0x10000)) }

section TransferDone
variable (s : State) (bus st n : Nat) (d : Bytes)

theorem execSensorBusTransferDone_of_idle (h : s.ochre.sbusRuns.get? bus = none) :
    execSensorBusTransferDone ⟨bus, st⟩ n d s = .next s := by
  unfold execSensorBusTransferDone
  rw [h]

/-- The end of a register transfer fills the receive FIFO. -/
theorem execSensorBusTransferDone_of_register (h : s.ochre.sbusRuns.get? bus = some none) :
    execSensorBusTransferDone ⟨bus, st⟩ n d s = .next ((s.sbusEnded bus st n).modOchre fun o => { o with sbusRx := d }) := by
  unfold execSensorBusTransferDone
  rw [h]
  rfl

/-- The end of a command's transfer resumes the command. -/
theorem execSensorBusTransferDone_of_command (q : Nat) (h : s.ochre.sbusRuns.get? bus = some (some q)) :
    execSensorBusTransferDone ⟨bus, st⟩ n d s = .next ((s.sbusEnded bus st n).toStage q
      (.resumed (some (leBytes 1 st ++ leBytes 1 0 ++ leBytes 2 n ++ d)))) := by
  unfold execSensorBusTransferDone
  rw [h]
  rfl

end TransferDone

/-- Settles O14: the page by its body, OCH_SBUS_GO by its guard and its bus, OCH_SBUS_DATA by the receive FIFO, and the end of
a transfer by what runs on the bus. -/
theorem sensorTransfers : Obligations.SensorTransfers := by
  unfold Obligations.SensorTransfers
  intro s p l
  refine ⟨?spi, ?i2c, ?refused, ?resumed, ⟨?goI2c, ?goSpi, fun v => execOchSbusGo_ignored v s⟩, fun x => rfl,
    execOchSbusDataPop_cons s, execOchSbusDataPop_nil s, fun bus st n d => ⟨execSensorBusTransferDone_of_idle s bus st n d,
    execSensorBusTransferDone_of_register s bus st n d, execSensorBusTransferDone_of_command s bus st n d⟩⟩
  case spi => exact fun h hc hspi => exec_sensorXfer_of_wait h (sensorXferBody_spi _ s hc hspi)
  case i2c => exact fun bus a h hc hi2c ha => exec_sensorXfer_of_wait h (sensorXferBody_i2c _ s bus a hc hi2c ha)
  case refused => exact fun e h hc => exec_sensorXfer_of_fail h (sensorXferBody_error _ s e hc)
  case resumed =>
    exact fun r hl hstage hop => congrArg Host.Outcome.next (runPage_resumed_done _ _ p s s l _ _ hl hop hstage rfl)
  case goI2c =>
    intro v hv hidle hbus
    refine (execOchSbusGo_of_idle v s hv hidle (Nat.lt_succ_of_lt hbus)).trans ?_
    simp only [Nat.ne_of_lt hbus, if_false]
  case goSpi =>
    intro v hv hidle hbus
    refine (execOchSbusGo_of_idle v s hv hidle (hbus ▸ Nat.lt_succ_self 2)).trans ?_
    simp only [hbus, if_true]

end Sys2Proof.Machine

end

section

namespace Sys2Proof.Machine

/-! ## A CSI-2 packet at a port (03 R53, R54) -/

/-- The time of a packet that a port receives is kept, and the port's silence ends. -/
def State.heardPacket (s : State) (p : Nat) (k : Csi2Packet) : State :=
  let t := s.setReg64 (R.OCH_Pn_LAST_PKT_LO p) (s.stampEvt k.cycles).steady
  t.setPort p { t.port p with silentSaid := false }

/-- T_pkt: the packet's stamp less the port's latency (03 R58). -/
def State.packetStamp (s : State) (p : Nat) (k : Csi2Packet) : Stamp :=
  (s.stampEvt k.cycles).shift (-(s.regFld (R.OCH_Pn_TIMING p) 15 0 : Int))

/-- A packet of the data type and of a virtual channel that the port takes. -/
abbrev State.packetFits (s : State) (p : Nat) (k : Csi2Packet) : Prop :=
  k.dt = s.regFld (R.OCH_Pn_FMT p) 7 0 ∧ s.regBit (R.OCH_Pn_LINK p) (8 + k.vc % 4) = true

/-- A packet with a header that can be read, at a port with an owner: by its data type and virtual channel. -/
def State.takePacket (s : State) (p : Nat) (k : Csi2Packet) : State :=
  let t := if k.hdr = .corrected then (s.heardPacket p k).bumpSat (R.OCH_Pn_HDR_CORR p) else s.heardPacket p k
  if k.dt < 4 then t
  else if s.packetFits p k then t.acceptPacket p k (s.packetStamp p k)
  else (t.bumpSat (R.OCH_Pn_IGN_DT p)).assertSource (p * 8 + 3)

section Reception
variable (s : State) (p : Nat) (k : Csi2Packet)

/-- A port that does not receive takes nothing. -/
theorem workCsi2PacketReceived_of_deaf (h : s.portReceives p = false) : workCsi2PacketReceived p k s = .next s :=
  congrArg Host.Outcome.next (if_neg fun hr => Bool.eq_false_iff.mp h hr.2)

variable (hp : p < 8) (h : s.portReceives p = true)
include hp h

theorem workCsi2PacketReceived_of_no_owner (ho : s.portOwner p = noOwner) :
    workCsi2PacketReceived p k s = .next ((s.heardPacket p k).bumpSat (R.OCH_Pn_IGN_PKT p)) := by
  unfold workCsi2PacketReceived
  rw [if_pos ⟨hp, h⟩]
  exact congrArg Host.Outcome.next (if_pos ho)

variable (ho : s.portOwner p ≠ noOwner)
include ho

theorem workCsi2PacketReceived_of_uncorrectable (hh : k.hdr = .uncorrectable) :
    workCsi2PacketReceived p k s = .next ((s.heardPacket p k).packetError p 0 k.payload.length (s.packetStamp p k)) := by
  unfold workCsi2PacketReceived
  simp only [hp, h, ho, hh, and_self, if_true, if_false]
  rfl

theorem workCsi2PacketReceived_of_readable (hh : k.hdr ≠ .uncorrectable) :
    workCsi2PacketReceived p k s = .next (s.takePacket p k) := by
  unfold workCsi2PacketReceived State.takePacket
  simp only [hp, h, ho, and_self, if_true, if_false]
  cases hk : k.hdr with
  | uncorrectable => exact absurd hk hh
  | _ => rfl

end Reception

/-- Settles O15: a device that is awake meets the packet with the port's domain fed, and the port by its owner, the packet's
header, and its data type and virtual channel. -/
theorem packetReception : Obligations.PacketReception := by
  unfold Obligations.PacketReception
  intro s p k hrun hp
  have received {t : State} (h : workCsi2PacketReceived p k (s.fed (portDomain p)) = .next t) :
      exec (.csi2PacketReceived p k) s = .next t := (received_of_clocksRun (portDomain p) _ s hrun).trans h
  generalize s.fed (portDomain p) = f at received ⊢
  have taken {t : State} (h : f.portReceives p = true) (ho : f.portOwner p ≠ noOwner) (hh : k.hdr ≠ .uncorrectable)
      (ht : f.takePacket p k = t) : exec (.csi2PacketReceived p k) s = .next t :=
    received (ht ▸ workCsi2PacketReceived_of_readable f p k hp h ho hh)
  refine ⟨fun h => received (workCsi2PacketReceived_of_deaf f p k h),
    fun h ho => received (workCsi2PacketReceived_of_no_owner f p k hp h ho), fun h ho => ⟨?bad, ?short, ?fits, ?other⟩⟩
  case bad => exact fun hh => received (workCsi2PacketReceived_of_uncorrectable f p k hp h ho hh)
  case short => exact fun hh hdt => taken h ho hh (if_pos hdt)
  case fits => exact fun hh hdt hfits => taken h ho hh ((if_neg (Nat.not_lt.mpr hdt)).trans (if_pos hfits))
  case other => exact fun hh hdt hfits => taken h ho hh ((if_neg (Nat.not_lt.mpr hdt)).trans (if_neg hfits))

end Sys2Proof.Machine

end

section

namespace Sys2Proof.Machine

/-! ## Decoding and hand-off (03 R62, R63) -/

/-! ### One word or unit of the receive buffer -/

/-- A port without an owner decodes nothing, and neither does one with an empty buffer. -/
theorem State.decodeOne_of_idle (s : State) (p : Nat) (h : (s.port p).rx = [] ∨ s.portOwner p = noOwner) :
    s.decodeOne p = s := by
  unfold State.decodeOne
  split
  · rfl
  · next hrx =>
    rcases h with h | h
    · exact absurd (hrx.symm.trans h) (List.cons_ne_nil _ _)
    · rw [if_pos h]

theorem State.unitBytes_pos (s : State) (p : Nat) : 0 < s.unitBytes p := by
  unfold State.unitBytes
  split <;> decide

section Decode
variable (s : State) (p : Nat) (k : RxPkt) (ks : List RxPkt) (hrx : (s.port p).rx = k :: ks) (ho : s.portOwner p ≠ noOwner)
include hrx ho

/-- A packet that is used up goes. -/
theorem State.decodeOne_of_used (h : k.rest = []) : s.decodeOne p = s.setPort p { s.port p with rx := ks } := by
  simp only [State.decodeOne, hrx, if_neg ho, if_pos h]

/-- Fewer bytes than a word are dropped. -/
theorem State.decodeOne_of_short (hne : k.rest ≠ []) (h : k.rest.length < s.unitBytes p) :
    s.decodeOne p = (s.setPort p { s.port p with rx := ks }).bumpSat (R.OCH_Pn_IGN_WORD p) := by
  simp only [State.decodeOne, hrx, if_neg ho, if_neg hne, if_pos h]

/-- A whole word or unit is turned into its events, and the packet keeps the rest or goes. -/
theorem State.decodeOne_of_whole (h : s.unitBytes p ≤ k.rest.length) {r : State × RxPkt}
    (hr : s.decodeUnit p k (k.rest.take (s.unitBytes p)) = r) :
    s.decodeOne p = r.1.setPort p { r.1.port p with
      rx := if k.rest.drop (s.unitBytes p) = [] then ks else { r.2 with rest := k.rest.drop (s.unitBytes p) } :: ks } := by
  have hne : k.rest ≠ [] := List.ne_nil_of_length_pos (Nat.lt_of_lt_of_le (s.unitBytes_pos p) h)
  simp only [State.decodeOne, hrx, if_neg ho, if_neg hne, if_neg (Nat.not_lt.mpr h), hr]

end Decode

theorem State.decodeUnit_of_none (s : State) (p : Nat) (k : RxPkt) (u : Bytes) (h : s.unitMask p u = none) :
    s.decodeUnit p k u = (s.bumpSat (R.OCH_Pn_IGN_WORD p), k) := by
  unfold State.decodeUnit
  rw [h]

theorem State.decodeUnit_of_some (s : State) (p : Nat) (k : RxPkt) (u : Bytes) (offs : List Nat)
    (h : s.unitMask p u = some offs) : s.decodeUnit p k u = s.produce p k u offs := by
  unfold State.decodeUnit
  rw [h]

/-! ### The commands -/

section Commands
variable (s : State) (hrun : s.clocksRun)
include hrun

theorem exec_eventDecode (p : Nat) (hp : p < 8) (hup : s.domUp (portDomain p) = true) :
    exec (.eventDecode p) s = .next (s.decodeOne p) :=
  (clocked_of_clocksRun _ s hrun).trans (congrArg Host.Outcome.next (if_pos ⟨hp, hup⟩))

theorem exec_eventDecode_of_down (p : Nat) (hdown : s.domUp (portDomain p) = false) : exec (.eventDecode p) s = .next s :=
  (clocked_of_clocksRun _ s hrun).trans (congrArg Host.Outcome.next (if_neg fun h => Bool.eq_false_iff.mp hdown h.2))

/-- An event on offer is a request to Cobalt, and what the lanes have free is granted. -/
theorem exec_eventHandoff : exec .eventHandoff s =
    workEventHandoff (if (s.grantPorts 1).isEmpty then s else s.request dCOB) :=
  clocked_of_clocksRun (fun t => workEventHandoff (if (t.grantPorts 1).isEmpty then t else t.request dCOB)) s hrun

end Commands

/-- The grants of a cycle with Cobalt up. -/
theorem workEventHandoff_of_up (s : State) (hup : s.domUp dCOB = true) : workEventHandoff s =
    .next (forEach (s.grantPorts (3 - s.cobalt.inq.length)) (fun q t => t.grantEvent q) s) :=
  congrArg Host.Outcome.next (if_pos hup)

/-- A granted event leaves its port's FIFO at the head and joins Cobalt's queue at the end. -/
theorem State.grantEvent_moves (s : State) (p : Nat) (e : Ev) (es : List Ev) (h : (s.port p).fifo = e :: es) :
    (s.grantEvent p).cobalt.inq = s.cobalt.inq ++ [e] ∧ ((s.grantEvent p).port p).fifo = es ∧
      (s.grantEvent p).ochre.lastGrant = p := by
  unfold State.grantEvent
  rw [h]
  refine ⟨rfl, ?_, rfl⟩
  exact congrArg OchPort.fifo (s.port_setPort_same p { s.port p with fifo := es })

/-- Settles O16: EVENT_DECODE by what stands at the front of the receive buffer, EVENT_HANDOFF by whether there is an event to
pass, and a grant by its two queues. -/
theorem eventDecodeAndHandOff : Obligations.EventDecodeAndHandOff := by
  unfold Obligations.EventDecodeAndHandOff
  intro s p hrun hp
  refine ⟨fun k ks hup hrx ho => ?decode, ?idle, ?nothing, ?offer, s.grantEvent_moves p⟩
  case decode =>
    rw [exec_eventDecode s hrun p hp hup]
    refine ⟨fun hle hm => ?_, fun offs hle hm => ?_, fun h => ?_, fun hne h => ?_⟩
    · rw [s.decodeOne_of_whole p k ks hrx ho hle (s.decodeUnit_of_none p k _ hm)]
    · rw [s.decodeOne_of_whole p k ks hrx ho hle (s.decodeUnit_of_some p k _ offs hm)]
    · rw [s.decodeOne_of_used p k ks hrx ho h]
    · rw [s.decodeOne_of_short p k ks hrx ho hne h]
  case idle =>
    intro h
    by_cases hup : s.domUp (portDomain p) = true
    · rw [exec_eventDecode s hrun p hp hup, s.decodeOne_of_idle p]
      simpa [hup] using h
    · exact exec_eventDecode_of_down s hrun p (Bool.eq_false_iff.mpr hup)
  case nothing =>
    intro hup hempty
    rw [exec_eventHandoff s hrun, if_pos hempty, workEventHandoff_of_up s hup]
  case offer =>
    intro hup hsome
    rw [exec_eventHandoff s hrun, if_neg (Bool.eq_false_iff.mp hsome), s.request_of_domUp dCOB hup,
      workEventHandoff_of_up _ ((s.fed_domUp dCOB dCOB).trans hup)]

end Sys2Proof.Machine

end

section

namespace Sys2Proof.Machine

/-! ## Timers of a port and of a trigger output (03 R61, R64, R66, R71, R72, R73) -/

/-! ### A port -/

section Port
variable (s : State) (p : Nat)

/-- Before the timeout no block ends (03 R66). -/
theorem workBlockTimeout_of_early (h : s.now < (s.port p).timer + s.regN (R.OCH_Pn_BLOCK_TMO p) * 1000) :
    workBlockTimeout p s = .next s := congrArg Host.Outcome.next (if_neg fun hd => Nat.not_le.mpr h hd.2)

/-- A silence that is not reported: switched off, or said already (03 R72). -/
theorem workPortSilent_of_quiet (h : s.regN (R.OCH_Pn_SILENT_US p) = 0 ∨ (s.port p).silentSaid = true) :
    workPortSilent p s = .next s := by
  refine congrArg Host.Outcome.next (if_neg ?_)
  rintro ⟨-, hon, hsaid, -⟩
  exact h.elim hon hsaid

/-- A write of 0 to CNT_CLR clears nothing. -/
theorem execOchPnCntClr_of_zero (v : Word) (h : bit v 0 = false) : execOchPnCntClr p v s = .next s :=
  congrArg Host.Outcome.next (if_neg fun hc => Bool.eq_false_iff.mp h hc.2)

theorem execDphyResyncDone_of_synced (h : (s.port p).resync = false) : execDphyResyncDone p s = .next s :=
  congrArg Host.Outcome.next (if_neg fun hc => Bool.eq_false_iff.mp h hc.2)

variable (hp : p < 8)
include hp

/-- The timeout makes a block boundary (03 R66). -/
theorem workBlockTimeout_of_due (h : (s.port p).timer + s.regN (R.OCH_Pn_BLOCK_TMO p) * 1000 ≤ s.now) :
    workBlockTimeout p s = .next (s.boundary p) := congrArg Host.Outcome.next (if_pos ⟨hp, h⟩)

/-- The scrub keeps the entries younger than half the map's range (03 R61). -/
theorem workFilterMapScrub_port : workFilterMapScrub p s = .next (s.setPort p { s.port p with
    map := (s.port p).map.filter fun e => mapAge s.mapNow e.2 < 16384 }) := congrArg Host.Outcome.next (if_pos hp)

/-- A silence is said once (03 R72). -/
theorem workPortSilent_of_silence (hon : s.regN (R.OCH_Pn_SILENT_US p) ≠ 0) (hsaid : (s.port p).silentSaid = false)
    (h : s.reg64 (R.OCH_Pn_LAST_PKT_LO p) + s.regN (R.OCH_Pn_SILENT_US p) * 1000 ≤ s.now) :
    workPortSilent p s = .next ((s.setPort p { s.port p with silentSaid := true }).assertSource (p * 8 + 6)) :=
  congrArg Host.Outcome.next (if_pos ⟨hp, hon, Bool.eq_false_iff.mp hsaid, h⟩)

/-- A window ends, and one with enough events wakes (03 R72). -/
theorem workPortActivityWindow_of_end (h : (s.port p).activeFrom + 1000000 ≤ s.now) :
    workPortActivityWindow p s = .next (
      let t := s.setPort p { s.port p with active := 0, activeFrom := s.now / 1000000 * 1000000 }
      if s.regN (R.OCH_Pn_WAKE_THR p) ≠ 0 ∧ s.regN (R.OCH_Pn_WAKE_THR p) ≤ (s.port p).active then t.assertSource (p * 8 + 5)
      else t) := by
  refine (congrArg Host.Outcome.next (if_pos ⟨hp, h⟩)).trans ?_
  simp only [State.assertSourceIf, Bool.and_eq_true, decide_eq_true_eq]

/-- A write of 1 to CNT_CLR clears the port's counters (03 R73). -/
theorem execOchPnCntClr_of_one (v : Word) (h : bit v 0 = true) : execOchPnCntClr p v s =
    .next (s.resetRegs (R.OCH_Pn_ACCEPTED_LO p) (R.OCH_Pn_BLK_DROP p + 4)) := congrArg Host.Outcome.next (if_pos ⟨hp, h⟩)

theorem execDphyResyncDone_of_resync (h : (s.port p).resync = true) :
    execDphyResyncDone p s = .next (s.setPort p { s.port p with resync := false }) :=
  congrArg Host.Outcome.next (if_pos ⟨hp, h⟩)

end Port

/-! ### A trigger output (03 R71) -/

section Trigger
variable (s : State) (n : Nat) (hn : n < 8)
include hn

/-- An armed output fires at its start time. -/
theorem workTriggerFire_of_armed (hup : s.domUp dEVTA = true) (harmed : s.regBit (R.OCH_TRIGn_CFG n) 2 = true)
    (h : s.trigStart n ≤ s.clock.farmQ / 65536) : workTriggerFire n s = .next (s.fireTrig n s.now) := by
  rw [workTriggerFire, if_pos ⟨hn, hup⟩, if_pos harmed, if_pos h]

/-- An output that has fired fires again at its next period. -/
theorem workTriggerFire_of_period (t : Nat) (hup : s.domUp dEVTA = true) (harmed : s.regBit (R.OCH_TRIGn_CFG n) 2 = false)
    (hnext : (s.trig n).next = some t) (h : t ≤ s.now) : workTriggerFire n s = .next (s.fireTrig n t) := by
  rw [workTriggerFire, if_pos ⟨hn, hup⟩, if_neg (Bool.eq_false_iff.mp harmed)]
  simp only [hnext, if_pos h]

theorem workTriggerPulseEnd_of_fall (hmode : 2 ≤ s.regFld (R.OCH_TRIGn_CFG n) 1 0) (hlevel : (s.trig n).level = true)
    (h : (s.trig n).fallAt ≤ 2 * s.now) : workTriggerPulseEnd n s = .next (s.setTrig n { s.trig n with level := false }) :=
  congrArg Host.Outcome.next (if_pos ⟨hn, hmode, hlevel, h⟩)

end Trigger

/-! ### An open gap (03 R64) -/

section Gap
variable (s : State) (p : Nat)

theorem State.gapContinue_of_none (h : (s.port p).gap = none) : s.gapContinue p = s := by
  unfold State.gapContinue
  rw [h]

theorem State.tdmContinue_of_none (h : (s.tdm p).gap = none) : s.tdmContinue p = s := by
  unfold State.tdmContinue
  rw [h]

variable (g : Gap)

/-- A gap is reported again 10 ms after its last report, with its counts from there. -/
theorem State.gapContinue_of_some (h : (s.port p).gap = some g) : s.gapContinue p =
    if g.reportAt + 10000000 ≤ s.now then (s.setPort p { s.port p with
      gap := some { g with events := 0, bytes := 0, reportAt := g.reportAt + 10000000 } }).emitGap p g true
    else s := by
  unfold State.gapContinue
  rw [h]

theorem State.tdmContinue_of_some (h : (s.tdm p).gap = some g) : s.tdmContinue p =
    if g.reportAt + 10000000 ≤ s.now then (s.setTdm p { s.tdm p with
      gap := some { g with events := 0, reportAt := g.reportAt + 10000000 } }).emitTdmGap p g true
    else s := by
  unfold State.tdmContinue
  rw [h]

end Gap

/-- Settles O17: each command is its timer's meaning on a device that is awake, which the lemmas above give for a timer that
is due and for one that is not. -/
theorem ochreTimers : Obligations.OchreTimers := by
  unfold Obligations.OchreTimers
  intro s p hrun hp
  have clockedDoes {f : State → Res} {r : Res} (h : f s = r) : clocked f s = r := (clocked_of_clocksRun f s hrun).trans h
  have timedDoes {f : State → Res} {r : Res} (h : f s = r) : timed f s = r := (timed_of_clocksRun f s hrun).trans h
  have eventGap : exec (.gapContinues false p) s = .next (s.gapContinue p) :=
    clocked_of_clocksRun (workGapContinues false p) s hrun
  have tdmGap : exec (.gapContinues true p) s = .next (s.tdmContinue p) :=
    clocked_of_clocksRun (workGapContinues true p) s hrun
  refine ⟨?timeout, ?early, ?scrub, ?silence, ?quiet, ?window, ?armed, ?period, ?fall, fun g hg => ?eventGap, ?noEventGap,
    fun g hg => ?tdmGap, ?noTdmGap, fun v => execOchPnCntClr_of_one s p hp v, fun v => execOchPnCntClr_of_zero s p v,
    execDphyResyncDone_of_resync s p hp, execDphyResyncDone_of_synced s p⟩
  case timeout => exact fun h => timedDoes (workBlockTimeout_of_due s p hp h)
  case early => exact fun h => timedDoes (workBlockTimeout_of_early s p h)
  case scrub => exact clockedDoes (workFilterMapScrub_port s p hp)
  case silence => exact fun hon hsaid h => clockedDoes (workPortSilent_of_silence s p hp hon hsaid h)
  case quiet => exact fun h => clockedDoes (workPortSilent_of_quiet s p h)
  case window => exact fun h => clockedDoes (workPortActivityWindow_of_end s p hp h)
  case armed => exact fun hup harmed h => clockedDoes (workTriggerFire_of_armed s p hp hup harmed h)
  case period =>
    exact fun t hup harmed hnext h => clockedDoes (workTriggerFire_of_period s p hp t hup harmed hnext h)
  case fall =>
    exact fun hmode hlevel h => clockedDoes (workTriggerPulseEnd_of_fall s p hp hmode hlevel h)
  case eventGap =>
    rw [eventGap, s.gapContinue_of_some p g hg]
    exact ⟨fun h => by rw [if_pos h], fun h => by rw [if_neg (Nat.not_le.mpr h)]⟩
  case noEventGap => exact fun hg => by rw [eventGap, s.gapContinue_of_none p hg]
  case tdmGap =>
    rw [tdmGap, s.tdmContinue_of_some p g hg]
    exact ⟨fun h => by rw [if_pos h], fun h => by rw [if_neg (Nat.not_le.mpr h)]⟩
  case noTdmGap => exact fun hg => by rw [tdmGap, s.tdmContinue_of_none p hg]

end Sys2Proof.Machine

end

section

namespace Sys2Proof.Machine

/-! ## The rotor angle at a time (04 R79) and the revolution boundary (04 R83) -/

section Angle
variable (s : State) {t₁ t₀ : Nat} {a₁ a₀ : Int} {es : List (Nat × Int)} (h : s.cobalt.hist = (t₁, a₁) :: (t₀, a₀) :: es)
include h

/-- The rate is taken over the newest two entries. -/
theorem State.angleRate_of_two : s.angleRate = (a₁ - a₀) * 4294967296 / ((t₁ : Int) - t₀) := by
  unfold State.angleRate
  rw [h]
  rfl

/-- From the newest entry on the angle goes on at the rate. -/
theorem State.angleAt_of_after {t : Nat} (ht : t₁ ≤ t) :
    s.angleAt t = a₁ + (a₁ - a₀) * 4294967296 / ((t₁ : Int) - t₀) * ((t : Int) - t₁) / 4294967296 := by
  rw [← s.angleRate_of_two h]
  unfold State.angleAt
  rw [h]
  exact if_pos ht

/-- No time has passed since the newest entry at its own time. -/
theorem State.angleAt_newest : s.angleAt t₁ = a₁ := by
  rw [s.angleAt_of_after h (Nat.le_refl t₁), Int.sub_self, Int.mul_zero, Int.zero_ediv, Int.add_zero]

/-- The interpolation between the newest two entries starts at the angle of the earlier one. -/
theorem State.angleAt_second (ht : t₀ < t₁) : s.angleAt t₀ = a₀ := by
  unfold State.angleAt
  simp only [h, angleIn, if_neg (Nat.not_le.mpr ht), if_pos (Nat.le_refl t₀), if_neg (Nat.ne_of_gt ht), Int.sub_self,
    Int.mul_zero, Int.zero_ediv, Int.add_zero]

end Angle

/-- With a valid angle and a largest revolution reached, an angle is compared with it by its whole part. -/
theorem State.revCheck_of_max (s : State) (a n : Int) (st : Stamp) (hvalid : s.cobalt.angleValid = true)
    (hmax : s.cobalt.maxRev = some n) : s.revCheck a st =
      if n < a / 4294967296 then forEach (List.range 16) (fun k u => u.stkBoundary k (a / 4294967296) st)
        (s.modCobalt fun c => { c with maxRev := some (a / 4294967296) })
      else s := by
  simp only [State.revCheck, hvalid, hmax, Bool.not_true, Bool.false_eq_true, if_false]

/-- Settles O22: the branch of the angle by its time, with no time passed at an entry's own, and the boundary by the whole part
of the angle against the largest. -/
theorem angleOfTheRotor : Obligations.AngleOfTheRotor := by
  unfold Obligations.AngleOfTheRotor
  intro s t₁ t₀ a₁ a₀ es h ht
  refine ⟨fun t hle => s.angleAt_of_after h hle, s.angleAt_newest h, s.angleAt_second h ht,
    fun n st hvalid hmax => ⟨fun a hle => ?stays, fun a hlt => ?boundary⟩⟩
  case stays => rw [s.revCheck_of_max a n st hvalid hmax, if_neg (Int.not_lt.mpr hle)]
  case boundary => rw [s.revCheck_of_max a n st hvalid hmax, if_pos hlt]

end Sys2Proof.Machine

end

section

namespace Sys2Proof.Machine

/-! ## The encoder moves the rotor angle (04 R78, R80) -/

/-! ### The gates of Cobalt's inputs and timers -/

/-- Input that a device which is awake samples is use of the block's domain (16 R306, R313). -/
theorem sampled_of_clocksRun (d : Nat) (f : State → Res) (s : State) (h : s.clocksRun) : sampled d f s = f (s.fed d) :=
  clocked_of_clocksRun (fun t => f (t.fed d)) s h

/-! ### QUADRATURE -/

/-- The spec's reading of DIR_INV: an edge in the direction that the bit names counts down. -/
theorem State.encStep_eq (s : State) (up : Bool) :
    s.encStep up = if up = s.regBit R.COB_ENC_CFG 2 then -1 else 1 := by
  simp only [State.encStep, bne_iff_ne, ne_eq, ite_not]

/-- An edge counted, with no entry yet. -/
def State.edgeCounted (s : State) (up : Bool) : State :=
  s.modCobalt fun c => { c with count := c.count + s.encStep up, sinceEntry := c.sinceEntry + 1 }

section Quadrature
variable (s : State) (up : Bool) (t : Stamp)

theorem State.quadCount_of_other_source (h : s.angleSource ≠ 1) : s.quadCount up t = s := if_neg fun hq => h hq.1

variable (hsrc : s.angleSource = 1) (hup : s.domUp dCOB = true)
include hsrc hup

/-- Up to update_counts an edge is counted only. -/
theorem State.quadCount_of_few (h : s.cobalt.sinceEntry + 1 ≤ s.regFld R.COB_ENC_UPD 15 0) :
    s.quadCount up t = s.edgeCounted up :=
  (if_pos ⟨hsrc, hup⟩).trans (if_neg (Nat.not_lt.mpr h))

/-- Past update_counts an edge makes an entry of the history. -/
theorem State.quadCount_of_due (h : s.regFld R.COB_ENC_UPD 15 0 < s.cobalt.sinceEntry + 1) :
    s.quadCount up t = (s.edgeCounted up).angleEntry
      ((s.edgeCounted up).countAngle (s.cobalt.count + s.encStep up) (s.regN R.COB_ENC_CPR)) t :=
  (if_pos ⟨hsrc, hup⟩).trans (if_pos h)

end Quadrature

/-! ### The index -/

/-- A count nearer to a whole revolution than half of one has it as its nearest. -/
theorem nearestRev_eq (n k : Int) (cpr : Nat) (h : 2 * (n - k * cpr).natAbs < cpr) : nearestRev n cpr = k := by
  have hsplit : 2 * n + (cpr : Int) = (2 * (n - k * cpr) + cpr) + 2 * (cpr : Int) * k := by ring
  have hlow : 0 ≤ 2 * (n - k * cpr) + (cpr : Int) := by omega
  have hhigh : 2 * (n - k * cpr) + (cpr : Int) < 2 * (cpr : Int) := by omega
  have hpos : 2 * (cpr : Int) ≠ 0 := by omega
  unfold nearestRev
  rw [hsplit, Int.add_mul_ediv_left _ _ hpos, Int.ediv_eq_zero_of_lt hlow hhigh, Int.zero_add]

section Index
variable (s : State) (ns : Nat)

theorem workEncoderIndex_of_no_source (h : s.angleSource = 0) : workEncoderIndex ns s = .next s := by
  simp only [workEncoderIndex, h, Nat.reduceEqDiff, if_false, ite_self]

variable (hup : s.domUp dCOB = true)
include hup

/-- QUADRATURE: the count goes to the whole revolution that is near (04 R78). -/
theorem workEncoderIndex_of_quadrature (hsrc : s.angleSource = 1) (k : Int)
    (h : 2 * (s.cobalt.count - k * s.regN R.COB_ENC_CPR).natAbs < s.regN R.COB_ENC_CPR) :
    workEncoderIndex ns s = .next (
      let t := (s.bumpSat R.COB_ENC_INDEX).modCobalt fun c =>
        { c with count := k * s.regN R.COB_ENC_CPR, zSeen := true, angleValid := true }
      let u := if 1 < (s.cobalt.count - k * s.regN R.COB_ENC_CPR).natAbs then
        (t.bumpSat R.COB_ENC_INDEX_ERR).assertSource 82 else t
      u.angleEntry (u.countAngle (k * s.regN R.COB_ENC_CPR) (s.regN R.COB_ENC_CPR)) (s.stampNs ns)) := by
  unfold workEncoderIndex
  dsimp only
  rw [if_neg (not_not.mpr hup), if_pos hsrc, nearestRev_eq _ k _ h]

/-- INDEX_ONLY: one pulse on, in the direction of DIR_INV (04 R78). -/
theorem workEncoderIndex_of_index_only (hsrc : s.angleSource = 2) : workEncoderIndex ns s = .next (
    let t := (s.bumpSat R.COB_ENC_INDEX).modCobalt fun c =>
      { c with count := c.count + s.encStep true, angleValid := c.zSeen, zSeen := true }
    t.angleEntry (t.countAngle t.cobalt.count (s.regN R.COB_ENC_CPR)) (s.stampNs ns)) := by
  unfold workEncoderIndex
  dsimp only
  rw [if_neg (not_not.mpr hup), if_neg (by omega), if_pos hsrc]

end Index

/-! ### SSI -/

/-- A number below 2^k is itself in k bits. -/
theorem wrapBits_mod (k n : Nat) : wrapBits k ((n % 2 ^ k : Nat) : Int) = n % 2 ^ k := by
  have hk : ((2 : Int) ^ k) = ((2 ^ k : Nat) : Int) := (Int.natCast_pow 2 k).symm
  unfold wrapBits
  rw [hk, ← Int.natCast_emod, Int.toNat_natCast, Nat.mod_mod]

section Ssi
variable (s : State) (frame ns : Nat)

theorem workSsiPoll_of_other_source (h : s.angleSource ≠ 3) : workSsiPoll frame ns s = .next s :=
  congrArg Host.Outcome.next (if_neg fun hs => h hs.1)

/-- The first frame is taken as it is read, in no code and in the encoder's own direction; one frame of SSI_BITS bits is one
revolution (log entry 18). -/
theorem workSsiPoll_of_first (hup : s.domUp dCOB = true) (hsrc : s.angleSource = 3) (hnone : s.cobalt.hist = [])
    (hfirst : s.cobalt.zSeen = false) (hgray : s.regBit R.COB_ENC_CFG 3 = false) (hdir : s.regBit R.COB_ENC_CFG 2 = false) :
    workSsiPoll frame ns s = .next (
      let t := s.modCobalt fun c => { c with
        count := (frame % 2 ^ s.regFld R.COB_ENC_CFG 9 4 : Nat), angleValid := false, zSeen := true }
      t.angleEntry (t.countAngle t.cobalt.count (2 ^ s.regFld R.COB_ENC_CFG 9 4)) (s.stampNs ns)) := by
  simp only [workSsiPoll, State.modCobalt, hnone, hup, hsrc, hfirst, hgray, hdir, and_self, Bool.false_eq_true, if_true,
    if_false, Int.one_mul, wrapBits_mod]

end Ssi

/-! ### The tick -/

theorem workAngleTick_of_due (s : State) (hup : s.domUp dCOB = true) (h : s.cobalt.lastUpdate + 1000000 ≤ s.now) :
    workAngleTick s = .next ((s.bumpSat R.COB_ANG_TICKS).angleUpdate) := congrArg Host.Outcome.next (if_pos ⟨hup, h⟩)

theorem workAngleTick_of_early (s : State) (h : s.now < s.cobalt.lastUpdate + 1000000) : workAngleTick s = .next s :=
  congrArg Host.Outcome.next (if_neg fun hd => Nat.not_le.mpr h hd.2)

/-! ### The commands -/

section Commands
variable (s : State) (hrun : s.clocksRun) (ns : Nat)
include hrun

/-- ENCODER_ENTRY is an edge counted in its direction. -/
theorem exec_encoderEntry (up : Bool) :
    exec (.encoderEntry up ns) s = .next ((s.fed dCOB).quadCount up ((s.fed dCOB).stampNs ns)) :=
  sampled_of_clocksRun dCOB (workEncoderEntry up ns) s hrun

/-- ENCODER_COUNT_EDGE of a legal transition is the same. -/
theorem exec_encoderCountEdge (up : Bool) : exec (.encoderCountEdge ⟨if up then .up else .down, ns⟩) s =
    .next ((s.fed dCOB).quadCount up ((s.fed dCOB).stampNs ns)) := by
  refine (sampled_of_clocksRun dCOB (workEncoderCountEdge ⟨if up then .up else .down, ns⟩) s hrun).trans ?_
  cases up
  · rfl
  · rfl

end Commands

/-- Settles O19: the samples of a device that is awake meet it with Cobalt's domain fed, and move the angle by their source,
as the lemmas above say. -/
theorem encoderEdges : Obligations.EncoderEdges := by
  unfold Obligations.EncoderEdges
  intro s up ns frame hrun hcob
  have hup : (s.fed dCOB).domUp dCOB = true := (s.fed_domUp dCOB dCOB).trans hcob
  have sampledDoes {f : State → Res} {r : Res} (h : f (s.fed dCOB) = r) : sampled dCOB f s = r :=
    (sampled_of_clocksRun dCOB f s hrun).trans h
  have timedDoes {r : Res} (h : workAngleTick s = r) : exec .angleTick s = r :=
    (timed_of_clocksRun workAngleTick s hrun).trans h
  rw [exec_encoderEntry s hrun ns up, exec_encoderCountEdge s hrun ns up]
  dsimp only
  rw [← State.encStep_eq]
  refine ⟨fun hsrc h => ?few, fun hsrc h => ?due, sampledDoes rfl, fun hsrc k h => ?quadrature, fun hsrc => ?indexOnly,
    fun hsrc hnone hfirst hgray hdir => ?ssi, fun hsrc => ?none, fun h => timedDoes (workAngleTick_of_due s hcob h),
    fun h => timedDoes (workAngleTick_of_early s h)⟩
  case few =>
    rw [State.quadCount_of_few _ up _ hsrc hup h]
    exact ⟨rfl, rfl⟩
  case due =>
    rw [State.quadCount_of_due _ up _ hsrc hup h]
    exact ⟨rfl, rfl⟩
  case quadrature => exact sampledDoes (workEncoderIndex_of_quadrature _ ns hup hsrc k h)
  case indexOnly =>
    refine sampledDoes ((workEncoderIndex_of_index_only _ ns hup hsrc).trans ?_)
    simp only [State.encStep_eq, eq_comm (a := true)]
  case ssi => exact sampledDoes (workSsiPoll_of_first _ frame ns hup hsrc hnone hfirst hgray hdir)
  case none =>
    rw [State.quadCount_of_other_source _ up _ (by omega)]
    exact ⟨rfl, sampledDoes (workEncoderIndex_of_no_source _ ns hsrc), rfl,
      sampledDoes (workSsiPoll_of_other_source _ frame ns (by omega))⟩

end Sys2Proof.Machine

end

section

namespace Sys2Proof.Machine

/-! ## Projection, and the closing and the copies of the stacks (04 R75, R76, R84, R86) -/

/-! ### The event at the front through the chain -/

/-- The counter of a port's events that go no further. -/
def Drop.counter (p : Nat) : Drop → Nat
  | .geom => R.COB_Pn_DROP_GEOM p
  | .range => R.COB_Pn_DROP_RANGE p
  | .noangle => R.COB_Pn_DROP_NOANGLE p

/-- An event of ROTOR_POLAR whose valid angle is extrapolated too far (04 R80). -/
def State.staleEvent (s : State) (e : Ev) : Bool :=
  decide (s.regFld (R.COB_Pn_CFG e.port) 1 0 = 2) && s.cobalt.angleValid && s.angleStale e.stamp.steady

/-- An event with a stale angle is counted, with source 80 at the first. -/
def State.markExtrap (s : State) (p : Nat) : State :=
  ((s.bumpSat (R.COB_Pn_EXTRAP p)).assertSourceIf (!s.cobalt.extrap) 80).modCobalt fun c => { c with extrap := true }

section Head
variable (s : State) (e : Ev)

/-- A port in the frame SENSOR passes its events as they are. -/
theorem State.projectHead_of_sensor (h : s.regFld (R.COB_Pn_CFG e.port) 1 0 = 0) :
    s.projectHead e = (s.bumpSat (R.COB_Pn_IN e.port)).passEvent ⟨e, e.x, e.y, 0, false, false⟩ := if_pos h

variable (h : s.regFld (R.COB_Pn_CFG e.port) 1 0 ≠ 0)
include h

/-- An event that the chain drops is counted by the reason. -/
theorem State.projectHead_of_drop (d : Drop)
    (hd : (s.bumpSat (R.COB_Pn_IN e.port)).projectPixel e.port e.x e.y e.stamp.steady = .error d) :
    s.projectHead e = (s.bumpSat (R.COB_Pn_IN e.port)).bumpSat (d.counter e.port) := by
  unfold State.projectHead
  simp only [if_neg h, hd]
  cases d <;> rfl

/-- An event with an output coordinate passes with it. -/
theorem State.projectHead_of_pixel (x y : Nat)
    (hxy : (s.bumpSat (R.COB_Pn_IN e.port)).projectPixel e.port e.x e.y e.stamp.steady = .ok (x, y)) :
    s.projectHead e = (if s.staleEvent e then (s.bumpSat (R.COB_Pn_IN e.port)).markExtrap e.port
      else s.bumpSat (R.COB_Pn_IN e.port)).passEvent
        ⟨e, x, y, s.regFld (R.COB_Pn_CFG e.port) 1 0, s.staleEvent e, s.attApplies e.port⟩ := by
  unfold State.projectHead
  simp only [if_neg h, hxy]
  rfl

end Head

/-! ### COBALT_PROJECT -/

section Project
variable (s : State)

/-- An event that waits is a request to Sepia (16 R303). -/
theorem exec_cobaltProject (hrun : s.clocksRun) : exec .cobaltProject s =
    workCobaltProject (if s.cobalt.inq.isEmpty then s else s.request dSEP) :=
  clocked_of_clocksRun (fun t => workCobaltProject (if t.cobalt.inq.isEmpty then t else t.request dSEP)) s hrun

/-- With no event waiting nothing is asked of Sepia and nothing happens. -/
theorem exec_cobaltProject_of_nil (hrun : s.clocksRun) (h : s.cobalt.inq = []) : exec .cobaltProject s = .next s := by
  rw [exec_cobaltProject s hrun, h]
  simp only [List.isEmpty_nil, if_true, workCobaltProject, h]

variable {e : Ev} {es : List Ev} (h : s.cobalt.inq = e :: es)
include h

theorem exec_cobaltProject_of_cons (hrun : s.clocksRun) :
    exec .cobaltProject s = workCobaltProject (s.request dSEP) := by
  rw [exec_cobaltProject s hrun, h]
  rfl

variable (hcob : s.domUp dCOB = true)
include hcob

/-- An event goes through the chain when Sepia takes it, or is down and takes nothing (05 R94). -/
theorem workCobaltProject_of_room (hroom : s.domUp dSEP = false ∨ s.sepiaRoom = true) :
    workCobaltProject s = .next ((s.modCobalt fun c => { c with inq := es }).projectHead e) := by
  simp only [workCobaltProject, h, hcob, Bool.not_true, Bool.false_eq_true, if_false, Bool.not_eq_true, if_pos hroom]

/-- An event that Sepia withholds acceptance of is kept back; the cycle is counted but for an output stall (log entry 14). -/
theorem workCobaltProject_of_withheld (hsep : s.domUp dSEP = true) (hroom : s.sepiaRoom = false) :
    workCobaltProject s = .next (if s.sepia.stalled then s else s.bumpSat R.SEP_STALL_CYC) := by
  simp only [workCobaltProject, h, hcob, hsep, hroom, Bool.not_true, not_true_eq_false, Bool.false_eq_true, or_self,
    if_false]

end Project

/-! ### STACK_CLOSE -/

section Close
variable (s : State) (k : Nat)

theorem workStackClose_of_none (h : (s.stk k).closing = none) : workStackClose k s = .next s := by
  unfold workStackClose
  rw [h]

/-- A run closes at the end of its delay (04 R84). -/
theorem workStackClose_of_some (r : StackRun) (h : (s.stk k).closing = some r) : workStackClose k s =
    .next (if r.closeAt ≤ s.now then (s.setStk k { s.stk k with closing := none }).stkClose k r else s) := by
  unfold workStackClose
  rw [h]

end Close

/-! ### ROTOR_MAP -/

section Map
variable (s : State) (k : Nat)

theorem workRotorMap_of_nil (h : (s.stk k).copying = []) : workRotorMap k s = .next s := by
  simp only [workRotorMap, h]

variable (r : StackRun) (l : List (StackRun × Option Nat))

/-- A map that found no host buffer is lost, and its record says so (04 R86). -/
theorem workRotorMap_of_no_buffer (h : (s.stk k).copying = (r, none) :: l) : workRotorMap k s =
    .next ((((s.setStk k { s.stk k with copying := l }).bumpSat (R.COB_Sn_NOBUF k)).assertSource 86).emitMap k r none) := by
  simp only [workRotorMap, h]

/-- A map copied to its host buffer: the buffer is held until the host releases it (04 R86). -/
theorem workRotorMap_of_buffer (b : Nat) (c : Ctx) (t : State) (h : (s.stk k).copying = (r, some b) :: l)
    (hc : s.ctx? r.ctx = some c) (ht : s.dmaWrite c.fn (r.host + b * r.size) r.map = some t) : workRotorMap k s =
    .next (((t.setStk k { s.stk k with copying := l }).setRegFld (R.COB_Sn_STATUS k) (10 + b) (10 + b) 1).emitMap k r
      (some b)) := by
  simp only [workRotorMap, h, hc, ht]

end Map

/-- Settles O20: COBALT_PROJECT by the event at the front and Sepia's room for it, and the two commands of a stack by what it
has to close and to copy. -/
theorem projectionAndStacks : Obligations.ProjectionAndStacks := by
  unfold Obligations.ProjectionAndStacks
  intro s hrun
  have clockedDoes {f : State → Res} {r : Res} (h : f s = r) : clocked f s = r := (clocked_of_clocksRun f s hrun).trans h
  refine ⟨fun e es hinq hreq hcob hroom => ?project, fun e es hinq hreq hcob hsep hroom => ?withheld,
    exec_cobaltProject_of_nil s hrun, fun k r h hdue => ?close, fun k r h hearly => ?early,
    fun k h => clockedDoes (workStackClose_of_none s k h),
    fun k r b l c t h hc ht => clockedDoes (workRotorMap_of_buffer s k r l b c t h hc ht),
    fun k r l h => clockedDoes (workRotorMap_of_no_buffer s k r l h), fun k h => clockedDoes (workRotorMap_of_nil s k h)⟩
  case project =>
    rw [exec_cobaltProject_of_cons s hinq hrun, workCobaltProject_of_room _ hreq hcob hroom]
    generalize (s.request dSEP).modCobalt (fun c => { c with inq := es }) = u
    have answers {x y : State} (h : x = y) : (Host.Outcome.next x : Res) = .next y := congrArg Host.Outcome.next h
    exact ⟨fun h => answers (u.projectHead_of_sensor e h), fun h hd => answers (u.projectHead_of_drop e h .geom hd),
      fun h hd => answers (u.projectHead_of_drop e h .range hd), fun h hd => answers (u.projectHead_of_drop e h .noangle hd),
      fun x y h hxy => answers (u.projectHead_of_pixel e h x y hxy)⟩
  case withheld =>
    rw [exec_cobaltProject_of_cons s hinq hrun, workCobaltProject_of_withheld _ hreq hcob hsep hroom]
    exact ⟨fun h => by rw [if_pos h], fun h => by rw [if_neg (Bool.eq_false_iff.mp h)]⟩
  case close => exact clockedDoes ((workStackClose_of_some s k r h).trans (congrArg Host.Outcome.next (if_pos hdue)))
  case early =>
    exact clockedDoes ((workStackClose_of_some s k r h).trans
      (congrArg Host.Outcome.next (if_neg (Nat.not_le.mpr hearly))))

end Sys2Proof.Machine

end

section

namespace Sys2Proof.Machine

/-! ## The attitude and the snapshot of the angle (04 R81, R82, 04 Register map) -/

/-- What is clamped lies within the bounds. -/
theorem clampI_mem (lo hi i : Int) (h : lo ≤ hi) : lo ≤ clampI lo hi i ∧ clampI lo hi i ≤ hi := by
  unfold clampI
  split
  · exact ⟨Int.le_refl lo, h⟩
  · split
    · exact ⟨h, Int.le_refl hi⟩
    · omega

/-- The use of a domain is all that its input changes before its meaning. -/
theorem State.fed_eq (s : State) (d : Nat) : ∃ v, s.fed d = { s with ivory := v } := by
  unfold State.fed
  split
  · exact ⟨_, rfl⟩
  · exact ⟨s.ivory, rfl⟩

/-- The deviation of an axis after a sample at a time, from the one of an earlier time (04 R81). -/
def State.nextDeviation (s : State) (burst : Bytes) (t last : Nat) (d : Int) (axis : Nat) : Int :=
  clampI (-attMax) attMax
    (leak d (s.gyro burst axis * s.regN R.COB_IMU_SCALE) (t - last) (s.regFld R.COB_IMU_TIME 15 0))

section Imu
variable (s : State) (burst : Bytes) (ns : Nat)

theorem workImuDrdyEdge_of_off (h : s.regBit R.COB_IMU_CFG 5 = false) : workImuDrdyEdge burst ns s = .next s :=
  congrArg Host.Outcome.next (if_neg fun hon => Bool.eq_false_iff.mp h hon.2)

/-- A sample of the IMU leaves the newest deviation, from the one before it or from zero, and ends a silence. -/
theorem workImuDrdyEdge_of_on (hcob : s.domUp dCOB = true) (hon : s.regBit R.COB_IMU_CFG 5 = true) : ∃ t,
    let now := (s.stampNs ns).steady
    let old := s.cobalt.att.headD (now, 0, 0, 0)
    workImuDrdyEdge burst ns s = .next t ∧
    t.cobalt.att.head? = some (now, s.nextDeviation burst now old.1 old.2.1 0, s.nextDeviation burst now old.1 old.2.2.1 1,
      s.nextDeviation burst now old.1 old.2.2.2 2) ∧
    t.cobalt.imuSilentSaid = false ∧ t.cobalt.imuAt = now := by
  refine ⟨_, congrArg Host.Outcome.next (if_pos ⟨hcob, hon⟩), ?_, rfl, rfl⟩
  cases s.cobalt.att with
  | nil => rfl
  | cons => rfl

/-- A silence of 4 sample periods is said once (04 R82). -/
theorem workImuSilent_of_silence (hcob : s.domUp dCOB = true) (hon : s.regBit R.COB_IMU_CFG 5 = true)
    (hsaid : s.cobalt.imuSilentSaid = false) (hrate : s.regFld R.COB_IMU_TIME 28 16 ≠ 0)
    (h : s.cobalt.imuAt + 4000000000 / s.regFld R.COB_IMU_TIME 28 16 ≤ s.now) :
    workImuSilent s = .next ((s.modCobalt fun c => { c with imuSilentSaid := true }).assertSource 83) :=
  congrArg Host.Outcome.next (if_pos ⟨hcob, hon, Bool.eq_false_iff.mp hsaid, hrate, h⟩)

theorem workImuSilent_of_said (h : s.cobalt.imuSilentSaid = true) : workImuSilent s = .next s :=
  congrArg Host.Outcome.next (if_neg fun ⟨_, _, hsaid, _⟩ => hsaid h)

end Imu

/-- Settles O21: the IMU's edge as Cobalt with its use noted samples it, its silence by the guard of the command, and
COB_ANG_SNAP by the bit written. -/
theorem attitudeAndAngleSnapshot : Obligations.AttitudeAndAngleSnapshot := by
  unfold Obligations.AttitudeAndAngleSnapshot
  intro s burst ns hrun hcob
  have edge : exec (.imuDrdyEdge burst ns) s = workImuDrdyEdge burst ns (s.fed dCOB) :=
    sampled_of_clocksRun dCOB (workImuDrdyEdge burst ns) s hrun
  have silent {r : Res} (h : workImuSilent s = r) : exec .imuSilent s = r := (clocked_of_clocksRun workImuSilent s hrun).trans h
  obtain ⟨v, hfed⟩ := s.fed_eq dCOB
  refine ⟨fun hon => ?on, fun d w dt τ => clampI_mem _ _ _ (by decide), fun hoff => ?off,
    fun hon hsaid hrate h => silent (workImuSilent_of_silence s hcob hon hsaid hrate h),
    fun h => silent (workImuSilent_of_said s h), fun v hv => congrArg Host.Outcome.next (if_pos hv),
    fun v hv => congrArg Host.Outcome.next (if_neg (Bool.eq_false_iff.mp hv))⟩
  case on =>
    rw [edge, hfed]
    exact workImuDrdyEdge_of_on { s with ivory := v } burst ns (hfed ▸ (s.fed_domUp dCOB dCOB).trans hcob) hon
  case off =>
    rw [edge, hfed]
    exact workImuDrdyEdge_of_off { s with ivory := v } burst ns hoff

end Sys2Proof.Machine

end

section

namespace Sys2Proof.Machine

/-! ## What a surface does with an event (05 R91, R94, R95) -/

/-- The event written into its cell and counted: what every event that a surface uses leaves, before the candidate queues. -/
def State.storeEvent (s : State) (k : Nat) (e : PEv) : State :=
  let plane := if s.regBit (R.SEP_Sn_CFG k) 1 then b2n e.ev.pol else 0
  (s.bump (R.SEP_Sn_EVENTS k)).setSurf k { s.surf k with
    cells := (s.surf k).cells.set (cellAt plane (e.x / 2 ^ s.surfShift k) (e.y / 2 ^ s.surfShift k))
      (surfUnits e.ev.stamp.steady (s.surfRes k)),
    used := (s.surf k).used + 1 }

/-- The event offered to the candidate queues of the surface as `s` configures it. -/
def State.offerCandidate (s t : State) (k : Nat) (e : PEv) : State :=
  let u := if s.regBit (R.SEP_Sn_CORNER k) 0 then t.enqueue k false e else t
  if s.regBit (R.SEP_Sn_FLOW k) 0 then u.enqueue k true e else u

/-- With corners enabled and flow not, the corner queue alone is offered the candidate. -/
theorem State.offerCandidate_of_corners (s t : State) (k : Nat) (e : PEv) (hcorner : s.regBit (R.SEP_Sn_CORNER k) 0 = true)
    (hflow : s.regBit (R.SEP_Sn_FLOW k) 0 = false) : s.offerCandidate t k e = t.enqueue k false e := by
  unfold State.offerCandidate
  rw [hflow, if_pos hcorner, if_neg Bool.false_ne_true]

section Queue
variable (t : State) (k : Nat) (e : PEv)

theorem State.enqueue_corner_of_room (h : t.sepia.cornerQ.length < 1024) :
    t.enqueue k false e = t.modSepia fun p => { p with cornerQ := p.cornerQ ++ [⟨k, e⟩] } := if_pos h

/-- A full queue skips the candidate; the first skip since the counter was read asserts source 112. -/
theorem State.enqueue_corner_of_first_skip (h : 1024 ≤ t.sepia.cornerQ.length) (hskip : t.reg R.SEP_CORNER_SKIP = 0) :
    t.enqueue k false e = ((t.assertSource 112).bumpSat R.SEP_CORNER_SKIP).setSurf k
      { t.surf k with cornerSkipped := (t.surf k).cornerSkipped + 1 } := by
  have hassert : t.assertSourceIf (decide (t.reg R.SEP_CORNER_SKIP = 0)) 112 = t.assertSource 112 :=
    if_pos (decide_eq_true hskip)
  rw [← hassert]
  exact if_neg (Nat.not_lt.mpr h)

end Queue

section Use
variable (s : State) (k : Nat) (e : PEv) (hen : s.surfEn k = true)
  (hmask : s.regBit (R.SEP_Sn_CFG k) (16 + e.ev.port) = true) (hown : s.portOwner e.ev.port = s.surfOwner k)
include hen hmask hown

/-- The frame, the size and the sampling, in this order, at a surface that takes the port's events. -/
theorem State.surfUse_of_taken : s.surfUse k e =
    if e.frame ≠ (s.surf k).frame then s.bumpSat (R.SEP_Sn_SKIPFRAME k)
    else if s.surfW k ≤ e.x ∨ s.surfH k ≤ e.y then s.bumpSat (R.SEP_Sn_SKIPRANGE k)
    else if ((s.surf k).used + 1) % 2 ^ s.regFld (R.SEP_Sn_CFG k) 10 8 ≠ 0 then s.storeEvent k e
    else s.offerCandidate (s.storeEvent k e) k e := by
  have htaken : ¬ (!(s.surfEn k && s.regBit (R.SEP_Sn_CFG k) (16 + e.ev.port) &&
      decide (s.portOwner e.ev.port = s.surfOwner k))) = true := by
    rw [hen, hmask, decide_eq_true hown]
    decide
  exact if_neg htaken

theorem State.surfUse_of_other_frame (h : e.frame ≠ (s.surf k).frame) :
    s.surfUse k e = s.bumpSat (R.SEP_Sn_SKIPFRAME k) := by
  rw [s.surfUse_of_taken k e hen hmask hown, if_pos h]

variable (hframe : e.frame = (s.surf k).frame)
include hframe

theorem State.surfUse_of_outside (h : s.surfW k ≤ e.x ∨ s.surfH k ≤ e.y) :
    s.surfUse k e = s.bumpSat (R.SEP_Sn_SKIPRANGE k) := by
  rw [s.surfUse_of_taken k e hen hmask hown, if_neg (not_not.mpr hframe), if_pos h]

variable (hx : e.x < s.surfW k) (hy : e.y < s.surfH k)
include hx hy

/-- Between the samples an event is stored only. -/
theorem State.surfUse_of_unsampled (h : ((s.surf k).used + 1) % 2 ^ s.regFld (R.SEP_Sn_CFG k) 10 8 ≠ 0) :
    s.surfUse k e = s.storeEvent k e := by
  rw [s.surfUse_of_taken k e hen hmask hown, if_neg (not_not.mpr hframe), if_neg (by omega), if_pos h]

theorem State.surfUse_of_sampled (h : ((s.surf k).used + 1) % 2 ^ s.regFld (R.SEP_Sn_CFG k) 10 8 = 0) :
    s.surfUse k e = s.offerCandidate (s.storeEvent k e) k e := by
  rw [s.surfUse_of_taken k e hen hmask hown, if_neg (not_not.mpr hframe), if_neg (by omega), if_neg (not_not.mpr h)]

end Use

/-- Settles O24: the checks of a surface in their order, and a sampled event against the room in the corner queue, which
storing the event leaves as it was. -/
theorem surfaceUse : Obligations.SurfaceUse := by
  unfold Obligations.SurfaceUse
  intro s k e _ hen hmask hown
  refine ⟨s.surfUse_of_other_frame k e hen hmask hown, s.surfUse_of_outside k e hen hmask hown,
    fun hframe hx hy => ⟨s.surfUse_of_unsampled k e hen hmask hown hframe hx hy, fun hsampled hcorner hflow => ?sampled⟩⟩
  case sampled =>
    rw [s.surfUse_of_sampled k e hen hmask hown hframe hx hy hsampled, s.offerCandidate_of_corners _ k e hcorner hflow]
    exact ⟨(s.storeEvent k e).enqueue_corner_of_room k e, (s.storeEvent k e).enqueue_corner_of_first_skip k e⟩

end Sys2Proof.Machine

end

section

namespace Sys2Proof.Machine

/-! ## A track's life (05 R101) -/

/-! ### Housekeeping of one track -/

/-- A track one tick older: its ticks without a measurement go on, and a new period begins. -/
def Track.aged (t : Track) : Track :=
  { t with age := t.age + 1, ticks := if t.measured then t.ticks else t.ticks + 1, measured := false }

theorem Track.aged_ticks_of_measured {t : Track} (h : t.measured = true) : t.aged.ticks = t.ticks := if_pos h

theorem Track.aged_ticks_of_unmeasured {t : Track} (h : t.measured = false) : t.aged.ticks = t.ticks + 1 :=
  if_neg (Bool.eq_false_iff.mp h)

/-- A confirmed track without a measurement in the period coasts. -/
def Track.coasted (t : Track) : Track :=
  if t.state = tConfirmed ∧ !t.measured then { t.aged with state := tCoasting } else t.aged

theorem Track.coasted_of_not_confirmed {t : Track} (h : t.state ≠ tConfirmed) : t.coasted = t.aged :=
  if_neg fun hc => h hc.1

theorem Track.coasted_of_measured {t : Track} (h : t.measured = true) : t.coasted = t.aged := by
  unfold Track.coasted
  rw [h]
  exact if_neg fun hc => Bool.false_ne_true hc.2

theorem Track.coasted_of_unmeasured {t : Track} (hs : t.state = tConfirmed) (h : t.measured = false) :
    t.coasted = { t.aged with state := tCoasting } := by
  unfold Track.coasted
  rw [h]
  exact if_pos ⟨hs, rfl⟩

section Age
variable (s : State) (t : Track)

/-- The steps in their order: an end that was due, UNCONFIRMED, coasting, LOST. -/
theorem State.ageTrack_eq : s.ageTrack t =
    if t.state ≠ tEnded ∧ t.reason ≠ 0 then { t.aged with state := tEnded }
    else if t.state = tTentative ∧ fld (s.reg (R.SEP_Sn_TRK t.surface)) 15 8 ≤ t.age + 1 then t.aged.end' 3
    else if t.coasted.state = tCoasting ∧ fld (s.reg (R.SEP_Sn_TRK t.surface)) 23 16 ≤ t.coasted.ticks then t.coasted.end' 1
    else t.coasted := rfl

/-- Housekeeping leaves the identity, the position and the hits. -/
theorem State.ageTrack_keeps : (s.ageTrack t).id = t.id ∧ (s.ageTrack t).x = t.x ∧ (s.ageTrack t).y = t.y ∧
    (s.ageTrack t).hits = t.hits := by
  have hcoasted : t.coasted.id = t.id ∧ t.coasted.x = t.x ∧ t.coasted.y = t.y ∧ t.coasted.hits = t.hits := by
    unfold Track.coasted
    split
    · exact ⟨rfl, rfl, rfl, rfl⟩
    · exact ⟨rfl, rfl, rfl, rfl⟩
  rw [State.ageTrack_eq]
  split_ifs
  · exact ⟨rfl, rfl, rfl, rfl⟩
  · exact ⟨rfl, rfl, rfl, rfl⟩
  · exact hcoasted
  · exact hcoasted

/-- An end that was due takes place at the tick, for the reason that it has. -/
theorem State.ageTrack_of_due (hr : t.reason ≠ 0) (hs : t.state ≠ tEnded) :
    s.ageTrack t = { t.aged with state := tEnded } := by
  rw [State.ageTrack_eq, if_pos ⟨hs, hr⟩]

variable (hr : t.reason = 0)
include hr

/-- A tentative track of confirm_ticks ticks ends UNCONFIRMED. -/
theorem State.ageTrack_of_unconfirmed (hs : t.state = tTentative)
    (h : fld (s.reg (R.SEP_Sn_TRK t.surface)) 15 8 ≤ t.age + 1) : s.ageTrack t = t.aged.end' 3 := by
  rw [State.ageTrack_eq, if_neg fun hd => hd.2 hr, if_pos ⟨hs, h⟩]

/-- A younger one goes on. -/
theorem State.ageTrack_of_tentative (hs : t.state = tTentative)
    (h : t.age + 1 < fld (s.reg (R.SEP_Sn_TRK t.surface)) 15 8) : s.ageTrack t = t.aged := by
  have hstays : t.aged.state ≠ tCoasting := fun hc => absurd (hs.symm.trans hc) (by decide)
  rw [State.ageTrack_eq, if_neg fun hd => hd.2 hr, if_neg fun hu => Nat.not_le.mpr h hu.2,
    Track.coasted_of_not_confirmed (by rw [hs]; decide), if_neg fun hc => hstays hc.1]

/-- Past the tentative state a track lives on unless it coasts for coast_ticks ticks. -/
theorem State.ageTrack_of_settled (hs : t.state ≠ tTentative) : s.ageTrack t =
    if t.coasted.state = tCoasting ∧ fld (s.reg (R.SEP_Sn_TRK t.surface)) 23 16 ≤ t.coasted.ticks then t.coasted.end' 1
    else t.coasted := by
  rw [State.ageTrack_eq, if_neg fun hd => hd.2 hr, if_neg fun hu => hs hu.1]

theorem State.ageTrack_of_measured (hs : t.state = tConfirmed) (hm : t.measured = true) : s.ageTrack t = t.aged := by
  have hstays : t.aged.state ≠ tCoasting := fun hc => absurd (hs.symm.trans hc) (by decide)
  rw [s.ageTrack_of_settled t hr (by rw [hs]; decide), Track.coasted_of_measured hm, if_neg fun hc => hstays hc.1]

theorem State.ageTrack_of_unmeasured (hs : t.state = tConfirmed) (hm : t.measured = false)
    (h : t.ticks + 1 < fld (s.reg (R.SEP_Sn_TRK t.surface)) 23 16) :
    s.ageTrack t = { t.aged with state := tCoasting } := by
  rw [s.ageTrack_of_settled t hr (by rw [hs]; decide), Track.coasted_of_unmeasured hs hm,
    if_neg fun hc => Nat.not_le.mpr h (Track.aged_ticks_of_unmeasured hm ▸ hc.2)]

theorem State.ageTrack_of_lost (hs : t.state = tCoasting) (hm : t.measured = false)
    (h : fld (s.reg (R.SEP_Sn_TRK t.surface)) 23 16 ≤ t.ticks + 1) : s.ageTrack t = t.aged.end' 1 := by
  rw [s.ageTrack_of_settled t hr (by rw [hs]; decide), Track.coasted_of_not_confirmed (by rw [hs]; decide),
    if_pos ⟨hs, Track.aged_ticks_of_unmeasured hm ▸ h⟩]

end Age

/-! ### A new track -/

/-- A corner that meets no track, with quota and a slot free, is known by the next identity. -/
theorem State.trackCorner_id_of_created (s : State) (k : Nat) (e : PEv) (z : F32 × F32) (i : Nat)
    (hen : s.regBit (R.SEP_Sn_TRK k) 0 = true)
    (hnone : nearest z e.ev.stamp.steady (F.mul (s.reg (R.SEP_Sn_TRK_GATE k)) (s.reg (R.SEP_Sn_TRK_GATE k)))
      (s.liveTracks k) = none)
    (hquota : (s.sepia.tracks.filter fun q => q.2.surface = k).length < s.regN (R.SEP_Sn_TRK_QUOTA k))
    (hslot : freeSlot s.sepia.tracks 4096 0 = some i) : (s.trackCorner k e z).2 = s.reg R.SEP_TRK_NEXT_ID := by
  unfold State.trackCorner
  simp only [hen, hnone, if_pos hquota, hslot, Bool.not_true, Bool.false_eq_true, if_false]

/-! ### A merging pair -/

/-- Two confirmed tracks of a surface within its merge distance: the one of later identity ends MERGED. -/
theorem State.mergePair_of_near (s : State) (n i j : Nat) (a b : Track) (hi : s.sepia.tracks.get? i = some a)
    (hj : s.sepia.tracks.get? j = some b) (ha : a.state = tConfirmed) (hb : b.state = tConfirmed)
    (hsurf : a.surface = b.surface) (hon : F.isZero (s.reg (R.SEP_Sn_TRK_MERGE a.surface)) = false)
    (hnear : F.le (dist2 (a.pred n) (b.pred n))
      (F.mul (s.reg (R.SEP_Sn_TRK_MERGE a.surface)) (s.reg (R.SEP_Sn_TRK_MERGE a.surface))) = true) :
    s.mergePair n i j = if laterId a.id b.id then s.setTrack i (a.end' 2) else s.setTrack j (b.end' 2) := by
  unfold State.mergePair
  simp only [hi, hj, ha, hb, ← hsurf, hon, hnear, decide_true, Bool.true_or, Bool.and_self, Bool.not_false, if_true]

/-- Settles O25: housekeeping by the state of the track and its ticks, a new track by what the tracker finds, and a merging
pair by its identities. -/
theorem trackRules : Obligations.TrackRules := by
  unfold Obligations.TrackRules
  intro s t
  obtain ⟨hid, hx, hy, hhits⟩ := s.ageTrack_keeps t
  refine ⟨fun hr hs h => ?unconfirmed, fun hr hs h => ?tentative, fun hr hs hm => ?measured, fun hr hs hm h => ?coasting,
    fun hr hs hm h => ?lost, fun hr hs => ?due, hid, hx, hy, hhits, s.trackCorner_id_of_created,
    fun i j a b n _ hi hj ha hb hsurf hon hnear => ?merged⟩
  case unconfirmed =>
    rw [s.ageTrack_of_unconfirmed t hr hs h]
    exact ⟨rfl, rfl⟩
  case tentative =>
    rw [s.ageTrack_of_tentative t hr hs h]
    exact hs
  case measured =>
    rw [s.ageTrack_of_measured t hr hs hm]
    exact ⟨hs, Track.aged_ticks_of_measured hm⟩
  case coasting =>
    rw [s.ageTrack_of_unmeasured t hr hs hm h]
    exact ⟨rfl, Track.aged_ticks_of_unmeasured hm⟩
  case lost =>
    rw [s.ageTrack_of_lost t hr hs hm h]
    exact ⟨rfl, rfl⟩
  case due =>
    rw [s.ageTrack_of_due t hr hs]
    exact ⟨rfl, rfl⟩
  case merged =>
    rw [s.mergePair_of_near n i j a b hi hj ha hb hsurf hon hnear]
    exact ⟨fun h => if_pos h, fun h => if_neg (Bool.eq_false_iff.mp h)⟩

end Sys2Proof.Machine

end

section

namespace Sys2Proof.Machine

/-! ## What a member of a surface is marked with (07 R131, R132)

The tracker and the admission queue of Viridian stand between a corner and the member that it offers. Neither writes what the
member is marked with. -/

/-- The armed shadows and the contexts, which give the generation, and the owner of the surface. -/
def State.marks (s : State) (k : Nat) : List Armed × AMap Ctx × Nat := (s.host.armed, s.host.ctxs, s.surfOwner k)

/-- A member takes nothing of the state but its marks. -/
theorem State.surfMember_of_marks {s t : State} {k : Nat} (h : s.marks k = t.marks k) (kind : Nat) (key : Word)
    (fields : List Word) (e : PEv) (px py : F32) :
    s.surfMember k kind key fields e px py = t.surfMember k kind key fields e px py := by
  obtain ⟨harmed, hctxs, hown⟩ : s.host.armed = t.host.armed ∧ s.host.ctxs = t.host.ctxs ∧ s.surfOwner k = t.surfOwner k := by
    simpa only [State.marks, Prod.mk.injEq] using h
  simp only [State.surfMember, State.elemGen, State.armedAt, State.ctxGen, State.ctx?, harmed, hctxs, hown]

@[simp] theorem ite_marks (c : Prop) [Decidable c] (s t : State) (k : Nat) :
    (if c then s else t).marks k = if c then s.marks k else t.marks k := apply_ite (State.marks · k) c s t

/-! ### Registers -/

theorem State.setReg_marks {a k : Nat} (h : R.SEP_Sn_OWNER k ≠ a) (s : State) (v : Word) :
    (s.setReg a v).marks k = s.marks k := by
  unfold State.marks State.surfOwner State.regN
  rw [State.setReg_host, State.reg_setReg_other s a _ v h]

theorem State.bumpSat_marks {a k : Nat} (h : R.SEP_Sn_OWNER k ≠ a) (s : State) : (s.bumpSat a).marks k = s.marks k :=
  State.setReg_marks h s _

/-- A source is asserted in its status register alone. -/
theorem State.assertSource_marks {n a j k : Nat} (hn : intStatus n = some (a, j)) (h : R.SEP_Sn_OWNER k ≠ a) (s : State) :
    (s.assertSource n).marks k = s.marks k := by
  unfold State.assertSource
  rw [hn]
  exact State.setReg_marks h s _

@[simp] theorem State.setSurf_marks (s : State) (j : Nat) (x : SurfDyn) (k : Nat) : (s.setSurf j x).marks k = s.marks k := rfl
@[simp] theorem State.setTrack_marks (s : State) (i : Nat) (t : Track) (k : Nat) : (s.setTrack i t).marks k = s.marks k := rfl
@[simp] theorem State.modViridian_marks (s : State) (f : Viridian → Viridian) (k : Nat) :
    (s.modViridian f).marks k = s.marks k := rfl

/-! ### Use of a domain: a surface that an input can name has no register among those written -/

section Touch
variable {k : Nat} (hk : k < 256) (s : State)
include hk

/-- The registers past those of 256 surfaces. -/
theorem surfOwner_ne_of_past {a : Nat} (h : 0x20210000 ≤ a) : R.SEP_Sn_OWNER k ≠ a := by unfold R.SEP_Sn_OWNER; omega

theorem State.setDom_setGate_marks (d : Nat) (up closed iso : Bool) :
    ((s.setDom d up).setGate d closed iso).marks k = s.marks k := by
  have past {a : Nat} (h : 0x20210000 ≤ a) (t : State) (v : Word) : (t.setReg a v).marks k = t.marks k :=
    State.setReg_marks (surfOwner_ne_of_past hk h) t v
  unfold State.setGate State.setDom State.setRegFld
  rw [past (by decide), past (by decide), past (by decide)]

theorem State.emit_marks (p : Producer) (ctx : Option Nat) (type : Nat) (tov : Stamp) (oldest : Int) (flags mask : Word)
    (gen : BitVec 16) (body : Bytes) : (s.emit p ctx type tov oldest flags mask gen body).marks k = s.marks k := by
  unfold State.emit State.stageRec
  split
  · rfl
  · split
    · exact State.bumpSat_marks (surfOwner_ne_of_past hk (by decide)) s
    · rfl

theorem State.powerUp_marks (d cause : Nat) : (s.powerUp d cause).marks k = s.marks k := by
  have hup : (forEach (domParents d ++ [d]) (fun e t => (t.setDom e true).setGate e false false) s).marks k = s.marks k :=
    foldl_view (State.marks · k) _ (fun t e => t.setDom_setGate_marks hk e true false false) _ s
  have hwoke (t : State) : (if d = dVIR then t.wokeVir else t).marks k = t.marks k := by
    rw [ite_marks]
    exact ite_self _
  unfold State.powerUp State.emitPower
  split
  · rfl
  · rw [State.emit_marks hk]
    exact (hwoke _).trans hup

theorem State.touch_marks (d : Nat) : (s.touch d).marks k = s.marks k := by
  have hwakes : R.SEP_Sn_OWNER k ≠ R.IVR_DOMd_WAKES d :=
    surfOwner_ne_of_past hk (by unfold R.IVR_DOMd_WAKES; omega)
  have hstatus : R.SEP_Sn_OWNER k ≠ R.IVR_INT_STATUS := surfOwner_ne_of_past hk (by decide)
  unfold State.touch
  split
  · rfl
  · split
    · rw [State.bumpSat_marks hwakes, State.assertSourceIf, ite_marks,
        State.assertSource_marks (n := 393) rfl hstatus, ite_self, State.powerUp_marks hk]
    · rfl

end Touch

/-! ### A member offered -/

/-- An input names its source's index in eight bits. -/
theorem cfgNames_index_lt {cfg : List Word} {kind index : Nat} (h : cfgNames cfg kind index = true) : index < 256 := by
  unfold cfgNames at h
  obtain ⟨i, _, hi⟩ := List.any_eq_true.mp (Bool.and_eq_true_iff.mp h).2
  rw [Bool.and_eq_true_iff, decide_eq_true_iff, decide_eq_true_iff] at hi
  rw [← hi.2]
  exact Nat.mod_lt _ (by decide)

/-- So no rule takes a source of index 256 or more. -/
theorem State.rulesFor_of_large (s : State) (kind ctx : Nat) {index : Nat} (h : 256 ≤ index) :
    s.rulesFor kind index ctx = [] := by
  have hnames (cfg : List Word) : cfgNames cfg kind index = false :=
    Bool.eq_false_iff.mpr fun hn => Nat.not_le.mpr (cfgNames_index_lt hn) h
  unfold State.rulesFor below
  simp [hnames]

theorem State.offerMember_of_no_rule (s : State) (m : Member) (h : s.rulesFor m.kind m.index m.ctx = []) :
    s.offerMember m = s := by
  unfold State.offerMember
  simp only [h, List.isEmpty_nil, if_true, Bool.or_true]

/-- The offer of a surface's member writes nothing that marks one. -/
theorem State.offerMember_marks (s : State) (m : Member) : (s.offerMember m).marks m.index = s.marks m.index := by
  by_cases hk : m.index < 256
  · have htouch : (if (s.rulesFor m.kind m.index m.ctx).isEmpty then s else s.touch dVIR).marks m.index = s.marks m.index := by
      rw [ite_marks, State.touch_marks hk, ite_self]
    have hstatus : R.SEP_Sn_OWNER m.index ≠ R.VIR_INT_STATUS := surfOwner_ne_of_past hk (by decide)
    have hdrop : R.SEP_Sn_OWNER m.index ≠ R.VIR_ADMIT_DROP := surfOwner_ne_of_past hk (by decide)
    unfold State.offerMember
    dsimp only
    generalize (if (s.rulesFor m.kind m.index m.ctx).isEmpty then s else s.touch dVIR) = t at htouch ⊢
    split
    · exact htouch
    · split
      · exact htouch
      · rw [State.assertSource_marks (n := 194) rfl hstatus, State.bumpSat_marks hdrop, State.modViridian_marks, htouch]
  · rw [s.offerMember_of_no_rule m (s.rulesFor_of_large m.kind m.ctx (Nat.le_of_not_lt hk))]

/-! ### The tracker -/

theorem State.measure_marks (s : State) (k i : Nat) (t : Track) (e : PEv) (x y vx vy : F32) (corner : Bool) :
    (s.measure k i t e x y vx vy corner).marks k = s.marks k := by
  unfold State.measure
  exact (State.offerMember_marks _ _).trans (State.setTrack_marks s i _ k)

/-- The tracker writes nothing that marks a member of the surface: its own registers lie beside the owner's. -/
theorem State.trackCorner_marks (s : State) (k : Nat) (e : PEv) (z : F32 × F32) : (s.trackCorner k e z).1.marks k = s.marks k := by
  have hid : R.SEP_Sn_OWNER k ≠ R.SEP_TRK_NEXT_ID := by unfold R.SEP_Sn_OWNER R.SEP_TRK_NEXT_ID; omega
  have hcreated : R.SEP_Sn_OWNER k ≠ R.SEP_Sn_TRK_CREATED k := by unfold R.SEP_Sn_OWNER R.SEP_Sn_TRK_CREATED; omega
  have hfull : R.SEP_Sn_OWNER k ≠ R.SEP_TRK_FULL := by unfold R.SEP_Sn_OWNER R.SEP_TRK_FULL; omega
  have hstatus : R.SEP_Sn_OWNER k ≠ R.SEP_INT_STATUS := by unfold R.SEP_Sn_OWNER R.SEP_INT_STATUS; omega
  unfold State.trackCorner
  dsimp only
  split
  · rfl
  · split
    · exact State.measure_marks ..
    · split
      · rw [State.measure_marks, State.bumpSat_marks hcreated, State.setReg_marks hid]
      · rw [State.assertSource_marks (n := 114) rfl hstatus, State.bumpSat_marks hfull]

end Sys2Proof.Machine

end

section

namespace Sys2Proof.Machine

/-! ## The commands of Sepia (05 R93, R96, R98, R104, R107) -/

/-! ### SURFACE_UPDATE -/

theorem workSurfaceUpdate_of_cons (s : State) {e : PEv} {es : List PEv} (h : s.sepia.inq = e :: es) :
    workSurfaceUpdate s =
      .next (forEach (List.range 16) (fun k t => t.surfUse k e) (s.modSepia fun p => { p with inq := es })) := by
  unfold workSurfaceUpdate
  rw [h]

theorem workSurfaceUpdate_of_nil (s : State) (h : s.sepia.inq = []) : workSurfaceUpdate s = .next s := by
  unfold workSurfaceUpdate
  rw [h]

/-! ### A measurement and the housekeeping of a tick (05 R107) -/

section Measured
variable (s : State) (m : Meas)

theorem State.measured_of_housekeeping (h : s.housekeeping = true) :
    s.measured m = s.modSepia fun p => { p with held := p.held ++ [m] } := if_pos h

theorem State.measured_of_idle (h : s.housekeeping = false) : s.measured m = s.applyMeas m := if_neg (Bool.eq_false_iff.mp h)

end Measured

/-- A corner of a surface without emission goes to the tracker and to Viridian; no batch takes it. -/
theorem State.applyMeas_corner_of_no_emission (s : State) (k : Nat) (e : PEv) (a b : Nat)
    (h : s.regBit (R.SEP_Sn_CORNER k) 2 = false) :
    s.applyMeas (.corner k e a b) =
      let z := (inCells e.x (s.surfShift k), inCells e.y (s.surfShift k))
      (s.trackCorner k e z).1.offerMember (s.surfMember k 1 (s.trackCorner k e z).2 [F.one] e z.1 z.2) := by
  dsimp only
  rw [← State.surfMember_of_marks (s.trackCorner_marks k e _)]
  exact if_neg (Bool.eq_false_iff.mp h)

theorem State.applyMeas_flow_of_no_emission (s : State) (k : Nat) (e : PEv) (vx vy r : F32) (m : Nat)
    (h : s.regBit (R.SEP_Sn_FLOW k) 1 = false) :
    s.applyMeas (.flow k e vx vy r m) =
      let z := (inCells e.x (s.surfShift k), inCells e.y (s.surfShift k))
      (s.trackFlow k e z vx vy).offerMember ((s.trackFlow k e z vx vy).surfMember k 2 0
        [F.sqrt (F.add (F.mul vx vx) (F.mul vy vy)), vx, vy] e z.1 z.2) := if_neg (Bool.eq_false_iff.mp h)

/-! ### CORNER_TEST -/

/-- The state with the front of the corner queue taken. -/
def State.popCorner (s : State) (q : List Cand) : State := s.modSepia fun p => { p with cornerQ := q }

/-- A candidate counted as tested. -/
def State.countTest (s : State) (k : Nat) : State := s.setSurf k { s.surf k with tests := (s.surf k).tests + 1 }

/-- A corner counted. -/
def State.countCorner (s : State) (k : Nat) : State := (s.countTest k).bumpSat (R.SEP_Sn_CORNERS k)

/-- The count of a surface's corners is none of its other registers. -/
theorem State.countCorner_reg (s : State) (k : Nat) {a : Nat} (h : a ≠ R.SEP_Sn_CORNERS k) :
    (s.countCorner k).reg a = s.reg a := State.reg_setReg_other (s.countTest k) _ a _ h

theorem State.countCorner_surfShift (s : State) (k : Nat) : (s.countCorner k).surfShift k = s.surfShift k := by
  unfold State.surfShift State.regFld
  rw [s.countCorner_reg k (by unfold R.SEP_Sn_CFG R.SEP_Sn_CORNERS; omega)]

theorem State.countCorner_emits (s : State) (k : Nat) :
    (s.countCorner k).regBit (R.SEP_Sn_CORNER k) 2 = s.regBit (R.SEP_Sn_CORNER k) 2 := by
  unfold State.regBit
  rw [s.countCorner_reg k (by unfold R.SEP_Sn_CORNER R.SEP_Sn_CORNERS; omega)]

theorem State.countCorner_marks (s : State) (k : Nat) : (s.countCorner k).marks k = s.marks k :=
  (State.bumpSat_marks (by unfold R.SEP_Sn_OWNER R.SEP_Sn_CORNERS; omega) (s.countTest k)).trans (s.setSurf_marks k _ k)

/-- The corner counted, with its place in cells and the marks of its member as they were before the count. -/
theorem State.applyMeas_countCorner_of_no_emission (s : State) (k : Nat) (e : PEv) (a b : Nat)
    (h : s.regBit (R.SEP_Sn_CORNER k) 2 = false) :
    (s.countCorner k).applyMeas (.corner k e a b) =
      let z := (inCells e.x ((s.countTest k).surfShift k), inCells e.y ((s.countTest k).surfShift k))
      ((s.countCorner k).trackCorner k e z).1.offerMember
        ((s.countTest k).surfMember k 1 ((s.countCorner k).trackCorner k e z).2 [F.one] e z.1 z.2) := by
  rw [State.applyMeas_corner_of_no_emission _ k e a b ((s.countCorner_emits k).trans h), s.countCorner_surfShift k]
  exact congrArg (State.offerMember _) (State.surfMember_of_marks (s.countCorner_marks k) ..)

section TestCorner
variable (s : State) (k : Nat) (e : PEv)

theorem State.testCorner_of_disabled (hoff : s.surfEn k = false) : s.testCorner ⟨k, e⟩ = s := by
  unfold State.testCorner
  simp only [hoff, Bool.not_false, if_true]

variable (hen : s.surfEn k = true)
include hen

/-- A candidate that is no corner is only counted as a test. -/
theorem State.testCorner_of_none (h : (s.countTest k).cornerArcs k e = none) : s.testCorner ⟨k, e⟩ = s.countTest k := by
  unfold State.testCorner State.countTest at *
  simp only [hen, h, Bool.not_true, Bool.false_eq_true, if_false]

theorem State.testCorner_of_some {a b : Nat} (h : (s.countTest k).cornerArcs k e = some (a, b)) :
    s.testCorner ⟨k, e⟩ = (s.countCorner k).measured (.corner k e a b) := by
  unfold State.testCorner State.countCorner State.countTest at *
  simp only [hen, h, Bool.not_true, Bool.false_eq_true, if_false]

end TestCorner

theorem workCornerTest_of_cons (s : State) {c : Cand} {q : List Cand} (h : s.sepia.cornerQ = c :: q) :
    workCornerTest s = .next ((s.popCorner q).testCorner c) := by
  unfold workCornerTest
  rw [h]
  rfl

theorem workCornerTest_of_nil (s : State) (h : s.sepia.cornerQ = []) : workCornerTest s = .next s := by
  unfold workCornerTest
  rw [h]

/-! ### FLOW_FIT -/

/-- The state with the front of the flow queue taken. -/
def State.popFlow (s : State) (q : List Cand) : State := s.modSepia fun p => { p with flowQ := q }

/-- The fit of a candidate under the bounds of its surface (05 R98). -/
def State.fitOf (s : State) (k : Nat) (e : PEv) : Option (F32 × F32 × F32 × Nat) :=
  flowFit (s.flowCells k e) (s.regFld (R.SEP_Sn_FLOW k) 9 4) (s.reg (R.SEP_Sn_FLOW_MAXRES k))
    (s.reg (R.SEP_Sn_FLOW_MAXSPD k))

section FitFlow
variable (s : State) (k : Nat) (e : PEv)

theorem State.fitFlow_of_disabled (hoff : s.surfEn k = false) : s.fitFlow ⟨k, e⟩ = s := by
  unfold State.fitFlow
  simp only [hoff, Bool.not_false, if_true]

variable (hen : s.surfEn k = true)
include hen

theorem State.fitFlow_of_none (h : s.fitOf k e = none) : s.fitFlow ⟨k, e⟩ =
    (s.setSurf k { s.surf k with rejects := (s.surf k).rejects + 1 }).bumpSat (R.SEP_Sn_FLOW_REJ k) := by
  unfold State.fitFlow State.fitOf at *
  simp only [hen, h, Bool.not_true, Bool.false_eq_true, if_false]

theorem State.fitFlow_of_some {vx vy r : F32} {m : Nat} (h : s.fitOf k e = some (vx, vy, r, m)) :
    s.fitFlow ⟨k, e⟩ = (s.bumpSat (R.SEP_Sn_FLOWS k)).measured (.flow k e vx vy r m) := by
  unfold State.fitFlow State.fitOf at *
  simp only [hen, h, Bool.not_true, Bool.false_eq_true, if_false]

end FitFlow

/-- The count of a surface's flows is none of its other registers. -/
theorem State.countFlow_reg (s : State) (k : Nat) {a : Nat} (h : a ≠ R.SEP_Sn_FLOWS k) :
    (s.bumpSat (R.SEP_Sn_FLOWS k)).reg a = s.reg a := State.reg_setReg_other s _ a _ h

/-- The flow counted, with its place in cells as it was before the count. -/
theorem State.applyMeas_countFlow_of_no_emission (s : State) (k : Nat) (e : PEv) (vx vy r : F32) (m : Nat)
    (h : s.regBit (R.SEP_Sn_FLOW k) 1 = false) :
    (s.bumpSat (R.SEP_Sn_FLOWS k)).applyMeas (.flow k e vx vy r m) =
      let z := (inCells e.x (s.surfShift k), inCells e.y (s.surfShift k))
      let t := (s.bumpSat (R.SEP_Sn_FLOWS k)).trackFlow k e z vx vy
      t.offerMember (t.surfMember k 2 0 [F.sqrt (F.add (F.mul vx vx) (F.mul vy vy)), vx, vy] e z.1 z.2) := by
  have hflow : (s.bumpSat (R.SEP_Sn_FLOWS k)).reg (R.SEP_Sn_FLOW k) = s.reg (R.SEP_Sn_FLOW k) :=
    s.countFlow_reg k (by unfold R.SEP_Sn_FLOW R.SEP_Sn_FLOWS; omega)
  have hshift : (s.bumpSat (R.SEP_Sn_FLOWS k)).surfShift k = s.surfShift k :=
    congrArg (fld · 3 2) (s.countFlow_reg k (by unfold R.SEP_Sn_CFG R.SEP_Sn_FLOWS; omega))
  rw [State.applyMeas_flow_of_no_emission _ k e vx vy r m ((congrArg (bit · 1) hflow).trans h), hshift]

theorem workFlowFit_of_cons (s : State) {c : Cand} {q : List Cand} (h : s.sepia.flowQ = c :: q) :
    workFlowFit s = .next ((s.popFlow q).fitFlow c) := by
  unfold workFlowFit
  rw [h]
  rfl

theorem workFlowFit_of_nil (s : State) (h : s.sepia.flowQ = []) : workFlowFit s = .next s := by
  unfold workFlowFit
  rw [h]

/-! ### DECAY_TICK and SEPIA_STAGING_RESUME -/

section Tick
variable (s : State)

/-- With Sepia up and a period set, housekeeping is a multiple of the period crossed since the last tick. -/
theorem State.housekeeping_eq (hup : s.domUp dSEP = true) (hperiod : s.regN R.SEP_TICK_US ≠ 0) :
    s.housekeeping = decide (s.sepia.lastTick < s.tickAt) := by
  unfold State.housekeeping
  rw [hup, decide_eq_true hperiod]
  rfl

theorem workDecayTick_of_housekeeping (h : s.housekeeping = true) :
    workDecayTick s = .next (s.decayTick (s.tickStamp.shift (-((s.now - s.tickAt : Nat) : Int)))) :=
  congrArg Host.Outcome.next (if_pos h)

theorem workDecayTick_of_idle (h : s.housekeeping = false) : workDecayTick s = .next s :=
  congrArg Host.Outcome.next (if_neg (Bool.eq_false_iff.mp h))

/-- A stall ends once the staging has space. -/
theorem workSepiaStagingResume_of_space (hstall : s.sepia.stalled = true) (hspace : s.stagedBytes .sepia < 131072) :
    workSepiaStagingResume s = .next (s.modSepia fun p => { p with stalled := false }) :=
  congrArg Host.Outcome.next (if_pos ⟨hstall, hspace⟩)

theorem workSepiaStagingResume_of_no_stall (hstall : s.sepia.stalled = false) : workSepiaStagingResume s = .next s :=
  congrArg Host.Outcome.next (if_neg fun h => Bool.eq_false_iff.mp hstall h.1)

end Tick

/-- Settles O23: each command is its meaning on a device that is awake, which the lemmas above give by what stands at the front
of its queue and by whether housekeeping is under way. -/
theorem surfaceWork : Obligations.SurfaceWork := by
  unfold Obligations.SurfaceWork
  intro s hrun
  have clockedDoes {f : State → Res} {r : Res} (h : f s = r) : clocked f s = r := (clocked_of_clocksRun f s hrun).trans h
  have timedDoes {r : Res} (h : workDecayTick s = r) : exec .decayTick s = r := (timed_of_clocksRun workDecayTick s hrun).trans h
  refine ⟨fun e es h => clockedDoes (workSurfaceUpdate_of_cons s h), fun h => clockedDoes (workSurfaceUpdate_of_nil s h),
    fun k e q h hen => ?corner, fun k e q h hoff => ?cornerOff, fun h => clockedDoes (workCornerTest_of_nil s h),
    fun k e q h hen => ?flow, fun k e q h hoff => ?flowOff, fun h => clockedDoes (workFlowFit_of_nil s h),
    fun k => clockedDoes rfl, fun hup hperiod => ?tick,
    fun hstall hspace => clockedDoes (workSepiaStagingResume_of_space s hstall hspace),
    fun hstall => clockedDoes (workSepiaStagingResume_of_no_stall s hstall)⟩
  case corner =>
    have tests {t : State} (ht : (s.popCorner q).testCorner ⟨k, e⟩ = t) : exec .cornerTest s = .next t :=
      clockedDoes ((workCornerTest_of_cons s h).trans (congrArg Host.Outcome.next ht))
    have decided {a b : Nat} := (s.popCorner q).testCorner_of_some k e hen (a := a) (b := b)
    have applied {a b : Nat} := ((s.popCorner q).countCorner k).measured_of_idle (.corner k e a b)
    exact ⟨fun hnone => tests ((s.popCorner q).testCorner_of_none k e hen hnone),
      fun a b harcs hkeeping => tests ((decided harcs).trans (State.measured_of_housekeeping _ _ hkeeping)),
      fun a b harcs hidle => tests ((decided harcs).trans (applied hidle)),
      fun a b harcs hidle hquiet => tests (((decided harcs).trans (applied hidle)).trans
        ((s.popCorner q).applyMeas_countCorner_of_no_emission k e a b hquiet))⟩
  case cornerOff =>
    exact clockedDoes ((workCornerTest_of_cons s h).trans
      (congrArg Host.Outcome.next ((s.popCorner q).testCorner_of_disabled k e hoff)))
  case flow =>
    have fits {t : State} (ht : (s.popFlow q).fitFlow ⟨k, e⟩ = t) : exec .flowFit s = .next t :=
      clockedDoes ((workFlowFit_of_cons s h).trans (congrArg Host.Outcome.next ht))
    have decided {vx vy r : F32} {m : Nat} := (s.popFlow q).fitFlow_of_some k e hen (vx := vx) (vy := vy) (r := r) (m := m)
    have applied {vx vy r : F32} {m : Nat} :=
      ((s.popFlow q).bumpSat (R.SEP_Sn_FLOWS k)).measured_of_idle (.flow k e vx vy r m)
    exact ⟨fun hnone => fits ((s.popFlow q).fitFlow_of_none k e hen hnone),
      fun vx vy r m hfit hkeeping => fits ((decided hfit).trans (State.measured_of_housekeeping _ _ hkeeping)),
      fun vx vy r m hfit hidle => fits ((decided hfit).trans (applied hidle)),
      fun vx vy r m hfit hidle hquiet => fits (((decided hfit).trans (applied hidle)).trans
        ((s.popFlow q).applyMeas_countFlow_of_no_emission k e vx vy r m hquiet))⟩
  case flowOff =>
    exact clockedDoes ((workFlowFit_of_cons s h).trans
      (congrArg Host.Outcome.next ((s.popFlow q).fitFlow_of_disabled k e hoff)))
  case tick =>
    have hdue := s.housekeeping_eq hup hperiod
    exact ⟨fun h => timedDoes (workDecayTick_of_housekeeping s (hdue.trans (decide_eq_true h))),
      fun h => timedDoes (workDecayTick_of_idle s (hdue.trans (decide_eq_false (Nat.not_lt.mpr h))))⟩

end Sys2Proof.Machine

end

section

namespace Sys2Proof.Machine

/-! ## The arithmetic of a stage (06 R113) -/

/-! ### Clamping -/

theorem clampI_of_mem {lo hi i : Int} (hlo : lo ≤ i) (hhi : i ≤ hi) : clampI lo hi i = i :=
  (if_neg (Int.not_lt.mpr hlo)).trans (if_neg (Int.not_lt.mpr hhi))

/-- Clamping moves just the numbers outside the range. -/
theorem clampI_ne_iff {lo hi i : Int} (h : lo ≤ hi) : clampI lo hi i ≠ i ↔ i < lo ∨ hi < i := by
  constructor
  · intro hne
    by_contra hmem
    rw [not_or, Int.not_lt, Int.not_lt] at hmem
    exact hne (clampI_of_mem hmem.1 hmem.2)
  · intro hout hfix
    have hmem := hfix ▸ clampI_mem lo hi i h
    omega

/-! ### The accumulator -/

/-- A product added, with no bound on the sum. -/
def addTap (a : Int) (p : Int × Int) : Int := a + p.1 * p.2

/-- A product added in the 48-bit accumulator, with its mark of saturation. -/
def accTap (a : Int × Bool) (p : Int × Int) : Int × Bool :=
  (sat48 (addTap a.1 p), a.2 || sat48 (addTap a.1 p) ≠ addTap a.1 p)

theorem mac_eq (cs xs : List Int) : mac cs xs = (cs.zip xs).foldl accTap (0, false) := rfl

/-- The range of the accumulator. -/
def Fits48 (n : Int) : Prop := -140737488355328 ≤ n ∧ n ≤ 140737488355327

theorem accTap_of_fits {a : Int} {p : Int × Int} (h : Fits48 (addTap a p)) : accTap (a, false) p = (addTap a p, false) := by
  have hsat : sat48 (addTap a p) = addTap a p := clampI_of_mem h.1 h.2
  unfold accTap
  simp only [hsat, ne_eq, not_true_eq_false, decide_false, Bool.or_false]

/-- An accumulator that no partial sum leaves holds the plain sum. -/
theorem foldl_accTap_of_fits (l : List (Int × Int)) (a : Int) (h : ∀ n, Fits48 ((l.take n).foldl addTap a)) :
    l.foldl accTap (a, false) = (l.foldl addTap a, false) := by
  induction l generalizing a with
  | nil => rfl
  | cons p l ih =>
    rw [List.foldl_cons, accTap_of_fits (h 1)]
    exact ih (addTap a p) fun n => h (n + 1)

/-- The output of a stage is within 24 bits, whatever the accumulator holds. -/
theorem firOut_mem (cs xs : List Int) (sh : Nat) : -8388608 ≤ (firOut cs xs sh).1 ∧ (firOut cs xs sh).1 ≤ 8388607 :=
  clampI_mem (-8388608) 8388607 _ (by decide)

theorem firOut_of_mac {cs xs : List Int} {acc : Int} (h : mac cs xs = (acc, false)) (sh : Nat) :
    let y := if sh = 0 then acc else (acc + 2 ^ (sh - 1)) / 2 ^ sh
    firOut cs xs sh = (clampI (-8388608) 8388607 y, decide (y < -8388608 ∨ 8388607 < y)) := by
  unfold firOut sat24
  simp only [h, Bool.false_or, clampI_ne_iff (show (-8388608 : Int) ≤ 8388607 by decide)]

/-- Settles O30: clamping bounds every output, and an accumulator that no partial sum leaves is the plain sum. -/
theorem stageArithmetic : Obligations.StageArithmetic := by
  unfold Obligations.StageArithmetic
  intro cs xs sh
  obtain ⟨hlo, hhi⟩ := firOut_mem cs xs sh
  refine ⟨hlo, hhi, fun hfits => ?_⟩
  exact firOut_of_mac ((mac_eq cs xs).trans (foldl_accTap_of_fits (cs.zip xs) 0 hfits)) sh

end Sys2Proof.Machine

end

section

namespace Sys2Proof.Machine

/-! ## The filter library (06 R122, R123) -/

/-- A list before its own mirror image, the middle element once, reads the same from both ends. -/
theorem LibFilter.coefs_reverse (f : LibFilter) (h : f.half ≠ []) : f.coefs.reverse = f.coefs := by
  have hmiddle : f.half.reverse = f.half.getLast h :: f.half.dropLast.reverse := by
    rw [← List.reverse_concat', List.dropLast_append_getLast h]
  unfold LibFilter.coefs
  rw [hmiddle, List.drop_one, List.tail_cons, List.reverse_append, List.reverse_reverse, hmiddle, ← List.singleton_append,
    ← List.append_assoc, List.dropLast_append_getLast h]

theorem library_half_ne_nil : ∀ f ∈ library, f.half ≠ [] := by decide

/-- Settles O31: the identities, lengths and sums by evaluation of the library, and the symmetry by how a filter's
coefficients are made of its half. -/
theorem filterLibraryShape : Obligations.FilterLibraryShape := by
  unfold Obligations.FilterLibraryShape
  refine ⟨by decide +kernel, fun f hf => (f.coefs_reverse (library_half_ne_nil f hf)).symm, by decide +kernel⟩

end Sys2Proof.Machine

end

section

namespace Sys2Proof.Machine

/-! ## Inputs of the filter chain (06 R108, R110, R111, R112) -/

/-! ### The samples of a frame (06 R108) -/

/-- A number in two's complement is within the range of its bits. -/
theorem sext_mem (k n : Nat) (hk : 0 < k) : -(2 : Int) ^ (k - 1) ≤ sext k n ∧ sext k n < 2 ^ (k - 1) := by
  obtain ⟨j, rfl⟩ : ∃ j, k = j + 1 := ⟨k - 1, by omega⟩
  have hlt : n % 2 ^ (j + 1) < 2 ^ j * 2 := Nat.mod_lt n (by positivity)
  have hcast : ((2 ^ j : Nat) : Int) = 2 ^ j := Nat.cast_pow 2 j
  unfold sext
  rw [Nat.add_sub_cancel, pow_succ (2 : Int) j, ← hcast]
  dsimp only
  generalize 2 ^ j = m at *
  split
  · omega
  · omega

theorem State.slotValue_mem (s : State) (p : Nat) (fr : TdmFrame) (k : Nat) :
    -8388608 ≤ s.slotValue p fr k ∧ s.slotValue p fr k ≤ 8388607 := by
  have hmem : -(2 : Int) ^ 23 ≤ s.slotValue p fr k ∧ s.slotValue p fr k < 2 ^ 23 := sext_mem 24 _ (by decide)
  exact ⟨hmem.1, Int.le_of_lt_add_one hmem.2⟩

/-- Every sample of a frame is the value of one of its slots. -/
theorem State.frameSlots_mem (s : State) (p : Nat) (fr : TdmFrame) {v : Int} (h : v ∈ s.frameSlots p fr) :
    -8388608 ≤ v ∧ v ≤ 8388607 := by
  obtain ⟨k, -, rfl⟩ := List.mem_map.mp h
  exact s.slotValue_mem p fr k

theorem State.frameSlots_length (s : State) (p : Nat) (fr : TdmFrame) : (s.frameSlots p fr).length = s.slots p := by
  unfold State.frameSlots
  rw [List.length_map, List.length_range]

/-! ### TDM_FRAME (06 R110, R111) -/

/-- The stamp of a frame: its FS edge less the latency of the converter. -/
def State.tdmStamp (s : State) (p : Nat) (fr : TdmFrame) : Stamp :=
  (s.stampNs fr.ns).shift (-(s.regN (R.UMB_Pn_LAT_NS p) : Int))

/-- The kept intervals with the one that an FS edge at a steady time ends. -/
def TdmPort.intervalsTo (x : TdmPort) (t : Nat) : List Nat :=
  match x.lastFs with
  | some a => ((t - a) :: x.intervals).take 256
  | none => x.intervals

/-- An FS edge at a steady time noted, with what it leaves of the port. -/
def State.noteFs (s : State) (p : Nat) (x : TdmPort) (t : Nat) : State :=
  ((s.setTdm p x).setReg64 (R.UMB_Pn_LAST_FS_LO p) t).setPeriod p

/-- A frame of the configured length noted: its FS edge ends an interval and begins the next. -/
def State.noteFrame (s : State) (p : Nat) (t : Nat) : State :=
  s.noteFs p { s.tdm p with lastFs := some t, intervals := (s.tdm p).intervalsTo t, silentSaid := false } t

/-- The enabled channels that a port feeds. -/
def State.tdmChans (s : State) (p : Nat) : List Nat :=
  (below (s.slots p) fun k => s.chEn (8 * p + k)).map fun k => 8 * p + k

/-- UMB_Pn_BUF keeps the peak of the buffered frames. -/
def State.keepPeak (s : State) (p : Nat) : State :=
  if s.regFld (R.UMB_Pn_BUF p) 14 8 < (s.tdm p).frames.length then s.setRegFld (R.UMB_Pn_BUF p) 14 8 (s.tdm p).frames.length
  else s

/-- No context is counted as paused where no owner of the channels is paused. -/
theorem State.pausedOwners_eq_nil (s : State) (chans : List Nat) (h : ∀ c ∈ chans, s.paused (s.chOwner c) = false) :
    ((chans.map fun c => s.chOwner c).eraseDups.filter fun c => s.paused c) = [] := by
  refine List.filter_eq_nil_iff.mpr fun o ho => ?_
  obtain ⟨c, hc, rfl⟩ := List.mem_map.mp (List.mem_eraseDups.mp ho)
  exact Bool.eq_false_iff.mp (h c hc)

section Frame
variable (s : State) (p : Nat) (fr : TdmFrame)

theorem workTdmFrame_of_no_clock (h : s.tdmClocked p = false) : workTdmFrame p fr s = .next s :=
  congrArg Host.Outcome.next (if_neg fun hon => Bool.eq_false_iff.mp h hon.2.2.2)

section Clocked
variable (hp : p < 4) (hup : s.domUp dUMB = true) (hen : s.regBit (R.UMB_Pn_CFG p) 0 = true) (hclk : s.tdmClocked p = true)
include hp hup hen hclk

theorem workTdmFrame_of_other_length (hlen : s.frameLen p fr ≠ s.frameBits p) : workTdmFrame p fr s =
    .next ((((s.noteFs p { s.tdm p with lastFs := none, silentSaid := false } (s.stampNs fr.ns).steady).bumpSat
      (R.UMB_Pn_FRAME_ERR p)).assertSource (132 + p)).tdmDrop p 0x11 1 (s.tdmStamp p fr)) := by
  unfold workTdmFrame
  rw [if_pos ⟨hp, hup, hen, hclk⟩]
  simp only [hlen, not_false_eq_true, if_true, if_false]
  cases (s.tdm p).lastFs
  · rfl
  · rfl

variable (hlen : s.frameLen p fr = s.frameBits p)
include hlen

theorem workTdmFrame_of_overrun (hfull : 64 ≤ (s.tdm p).frames.length) : workTdmFrame p fr s =
    .next (((s.noteFrame p (s.stampNs fr.ns).steady).bumpSat (R.UMB_Pn_DROP_OVR p)).tdmDrop p 0x10 1 (s.tdmStamp p fr)) := by
  unfold workTdmFrame
  rw [if_pos ⟨hp, hup, hen, hclk⟩]
  simp only [hlen, hfull, not_true_eq_false, if_true, if_false]
  rfl

theorem workTdmFrame_of_accepted (hroom : (s.tdm p).frames.length < 64) (hne : s.tdmChans p ≠ [])
    (hlive : ∀ c ∈ s.tdmChans p, s.paused (s.chOwner c) = false) : workTdmFrame p fr s = .next (
      let v := ((s.noteFrame p (s.stampNs fr.ns).steady).tdmCloseGap p).bump (R.UMB_Pn_FRAMES p)
      (v.setTdm p { v.tdm p with
        frames := (v.tdm p).frames ++ [⟨s.frameSlots p fr, s.tdmStamp p fr, s.tdmChans p⟩] }).keepPeak p) := by
  have hnone := s.pausedOwners_eq_nil (s.tdmChans p) hlive
  have hall : ((s.tdmChans p).filter fun c => !s.paused (s.chOwner c)) = s.tdmChans p :=
    List.filter_eq_self.mpr fun c hc => by rw [hlive c hc]; rfl
  have hsome : (s.tdmChans p).isEmpty = false := List.isEmpty_eq_false_iff.mpr hne
  unfold State.tdmChans at hnone hall hsome
  unfold workTdmFrame
  rw [if_pos ⟨hp, hup, hen, hclk⟩]
  simp only [hlen, Nat.not_le.mpr hroom, hnone, hall, hsome, not_true_eq_false, List.foldl_nil, Bool.false_eq_true,
    if_true, if_false]
  rfl

end Clocked

end Frame

/-! ### TDM_PORT_SILENT (06 R110) -/

section Silent
variable (s : State) (p : Nat)

theorem workTdmPortSilent_of_said (h : (s.tdm p).silentSaid = true) : workTdmPortSilent p s = .next s :=
  congrArg Host.Outcome.next (if_neg fun hdue => hdue.2.2.2.1 h)

theorem workTdmPortSilent_of_due (hp : p < 4) (hup : s.domUp dUMB = true) (hen : s.regBit (R.UMB_Pn_CFG p) 0 = true)
    (hsaid : (s.tdm p).silentSaid = false)
    (h : Nat.max (s.tdm p).since (s.reg64 (R.UMB_Pn_LAST_FS_LO p)) * 65536 + 16 * s.declaredPeriod p ≤ s.now * 65536) :
    workTdmPortSilent p s = .next ((s.setTdm p { s.tdm p with silentSaid := true }).assertSource (136 + p)) :=
  congrArg Host.Outcome.next (if_pos ⟨hp, hup, hen, Bool.eq_false_iff.mp hsaid, h⟩)

end Silent

/-! ### DERIVED_TICK (06 R112) -/

section Derived
variable (s : State) (c : Nat)

/-- The time at which the divider of a derived channel expires. -/
def State.derivedDue (s : State) (c : Nat) : Nat := (s.chan c).lastTick + s.chDiv c * 5

/-- A tick of a derived channel noted. -/
def State.noteTick (s : State) (c : Nat) : State :=
  s.setChan c { s.chan c with lastTick := s.derivedDue c, tickCount := (s.derivedValue c).2 }

theorem workDerivedTick_of_disabled (h : s.chEn c = false) : workDerivedTick c s = .next s :=
  congrArg Host.Outcome.next (if_neg fun hdue => Bool.eq_false_iff.mp h hdue.2.2.2.1)

theorem workDerivedTick_of_early (h : s.now < s.derivedDue c) : workDerivedTick c s = .next s :=
  congrArg Host.Outcome.next (if_neg fun hdue => Nat.not_le.mpr h hdue.2.2.2.2.2.2)

/-- A tick that is due is counted for a paused context, and its sample queued for another. -/
theorem workDerivedTick_of_due (hlo : 32 ≤ c) (hhi : c < 40) (hup : s.domUp dUMB = true) (hen : s.chEn c = true)
    (hsrc : s.chSource c ≠ 0) (hdiv : s.chDiv c ≠ 0) (h : s.derivedDue c ≤ s.now) : workDerivedTick c s = .next (
      if s.paused (s.chOwner c) then (s.noteTick c).countPaused (s.chOwner c) c 1
      else (s.noteTick c).setChan c { (s.noteTick c).chan c with
        queue := (s.chan c).queue ++
          [((s.derivedValue c).1, s.tickStamp.shift (-((s.now - s.derivedDue c : Nat) : Int)))] }) :=
  congrArg Host.Outcome.next (if_pos ⟨hlo, hhi, hup, hen, hsrc, hdiv, h⟩)

end Derived

/-- Settles O28: a frame meets Umber with its use noted, by the port's clock, the frame's length and the room in the buffer;
silence and a derived tick by the guard of their commands. -/
theorem tdmFrames : Obligations.TdmFrames := by
  unfold Obligations.TdmFrames
  intro s p fr hrun hp hdom hcfg f raw t x iv good
  have hup : f.domUp dUMB = true := (s.fed_domUp dUMB dUMB).trans hdom
  have hen : f.regBit (R.UMB_Pn_CFG p) 0 = true := by
    obtain ⟨v, hfed⟩ := s.fed_eq dUMB
    exact (congrArg (fun u : State => u.regBit (R.UMB_Pn_CFG p) 0) hfed).trans hcfg
  have receivedDoes {r : Res} (h : workTdmFrame p fr f = r) : exec (.tdmFrame p fr) s = r :=
    (received_of_clocksRun dUMB (workTdmFrame p fr) s hrun).trans h
  have clockedDoes {g : State → Res} {r : Res} (h : g s = r) : clocked g s = r := (clocked_of_clocksRun g s hrun).trans h
  refine ⟨fun hclk hlen => receivedDoes (workTdmFrame_of_other_length f p fr hp hup hen hclk hlen),
    fun hclk hlen hfull => receivedDoes (workTdmFrame_of_overrun f p fr hp hup hen hclk hlen hfull),
    fun hclk hlen hroom hne hlive =>
      receivedDoes (workTdmFrame_of_accepted f p fr hp hup hen hclk hlen hroom hne hlive),
    fun hclk => receivedDoes (workTdmFrame_of_no_clock f p fr hclk),
    ⟨rfl, rfl, rfl, f.frameSlots_length p fr, fun v hv => f.frameSlots_mem p fr hv⟩, fun hsaid hx h => ?silent,
    fun hsaid hx => ?said, fun c hlo hhi hch hsrc hdiv => ?tick,
    fun c hoff => clockedDoes (workDerivedTick_of_disabled s c hoff)⟩
  case silent =>
    rw [← hx] at hsaid h ⊢
    exact clockedDoes (workTdmPortSilent_of_due s p hp hdom hcfg hsaid h)
  case said => exact clockedDoes (workTdmPortSilent_of_said s p ((congrArg TdmPort.silentSaid hx).trans hsaid))
  case tick =>
    have due := workDerivedTick_of_due s c hlo hhi hdom hch hsrc hdiv
    exact ⟨fun hlive h => clockedDoes ((due h).trans (congrArg Host.Outcome.next (if_neg (Bool.eq_false_iff.mp hlive)))),
      fun hpaused h => clockedDoes ((due h).trans (congrArg Host.Outcome.next (if_pos hpaused))),
      fun h => clockedDoes (workDerivedTick_of_early s c h)⟩

end Sys2Proof.Machine

end

section

namespace Sys2Proof.Machine

/-! ## The work of the filter chain (06 R118, R124, R126, R127) -/

/-! ### An input, a block and the engine's stop -/

section Chain
variable (s : State) (c : Nat)

theorem workChainSample_of_input {v : Int} {t : Stamp} {u : State} (hup : s.domUp dUMB = true)
    (hrun : s.umber.stopped = false) (hin : s.takeInput c = some (v, t, u)) :
    workChainSample c s = .next (if s.chEn c then u.chInput c v t else u) := by
  unfold workChainSample
  rw [if_pos ⟨hup, Bool.eq_false_iff.mp hrun⟩, hin]

theorem workChainSample_of_idle (h : s.umber.stopped = true ∨ s.takeInput c = none) : workChainSample c s = .next s := by
  unfold workChainSample
  split
  · next hruns => rw [h.resolve_left hruns.2]
  · rfl

section Block
variable {b : FBlock} (hb : (s.chan c).block = some b)
include hb

theorem workFilterBlockTimeout_of_due (h : b.openedAt + s.regFld (R.UMB_CHn_BLOCK c) 29 16 * 1000000 ≤ s.now) :
    workFilterBlockTimeout c s = .next (s.closeFBlock c) := by
  unfold workFilterBlockTimeout
  rw [hb]
  exact congrArg Host.Outcome.next (if_pos h)

theorem workFilterBlockTimeout_of_early (h : s.now < b.openedAt + s.regFld (R.UMB_CHn_BLOCK c) 29 16 * 1000000) :
    workFilterBlockTimeout c s = .next s := by
  unfold workFilterBlockTimeout
  rw [hb]
  exact congrArg Host.Outcome.next (if_neg (Nat.not_le.mpr h))

end Block

theorem workUmberStagingResume_of_space (hstop : s.umber.stopped = true) (hspace : s.stagedBytes .umber < 65536) :
    workUmberStagingResume s = .next (s.modUmber fun u => { u with stopped := false }) :=
  congrArg Host.Outcome.next (if_pos ⟨hstop, hspace⟩)

theorem workUmberStagingResume_of_run (hrun : s.umber.stopped = false) : workUmberStagingResume s = .next s :=
  congrArg Host.Outcome.next (if_neg fun h => Bool.eq_false_iff.mp hrun h.1)

end Chain

/-! ### The apply fallback -/

section Fallback
variable (s : State) (g : Nat)

theorem workUmberApplyFallback_of_unarmed (h : s.armedAt (umbElem g) = none) : workUmberApplyFallback g s = .next s := by
  unfold workUmberApplyFallback
  rw [h]

variable {a : Armed} (ha : s.armedAt (umbElem g) = some a)
include ha

theorem workUmberApplyFallback_of_no_channel (h : s.slowest g = none) :
    workUmberApplyFallback g s = .next (s.umbApply g) := by
  unfold workUmberApplyFallback
  rw [ha, h]

/-- With a slowest channel the fallback waits for two of its output periods. -/
theorem workUmberApplyFallback_of_slowest {c : Nat} (h : s.slowest g = some c) :
    workUmberApplyFallback g s = .next (
      if (2000000000 : Rat) ≤ ((s.now - a.at_ : Nat) : Rat) * s.rateAt c (s.chStages c) then s.umbApply g else s) := by
  unfold workUmberApplyFallback
  rw [ha, h]

end Fallback

/-! ### Resets of a group -/

section Reset
variable (s : State) (g t : Nat)

theorem workSigSyncEdge_of_domUp (e : Edge) (ns : Nat) (hup : s.domUp dUMB = true) : workSigSyncEdge e ns s =
    .next (forEach (below 4 fun g => s.regBit R.UMB_SYNC_CFG g && (s.regBit R.UMB_SYNC_CFG (4 + g) = decide (e = .fall)))
      (fun g t => t.resetGroup g (s.stampNs ns).steady) s) := congrArg Host.Outcome.next (if_pos hup)

/-- The enabled channels of a group. -/
def State.groupChans (s : State) (g : Nat) : List Nat := below 40 fun c => s.chEn c && s.chGroup c = g

theorem State.mem_groupChans (c : Nat) : c ∈ s.groupChans g ↔ c < 40 ∧ s.chEn c = true ∧ s.chGroup c = g := by
  unfold State.groupChans below
  rw [List.mem_filter, List.mem_range, Bool.and_eq_true, decide_eq_true_iff]

theorem State.resetGroup_of_empty (h : s.groupChans g = []) : s.resetGroup g t = s.countReset t :=
  if_pos (List.isEmpty_iff.mpr h)

theorem State.resetGroup_of_nonempty (h : s.groupChans g ≠ []) :
    s.resetGroup g t = s.setGroup g { resets := (s.group g).resets ++ [⟨t, s.groupChans g, false⟩] } :=
  if_neg fun he => h (List.isEmpty_iff.mp he)

end Reset

/-- Settles O29: each command is its meaning on a device that is awake, which the lemmas above give by what is buffered, due,
armed or stopped; a reset by whether the group has an enabled channel. -/
theorem filterWork : Obligations.FilterWork := by
  unfold Obligations.FilterWork
  intro s hrun
  have clockedDoes {f : State → Res} {r : Res} (h : f s = r) : clocked f s = r := (clocked_of_clocksRun f s hrun).trans h
  refine ⟨fun c v t u hup hruns hin hen => ?enabled, fun c v t u hup hruns hin hoff => ?disabled,
    fun c h => clockedDoes (workChainSample_of_idle s c h), fun c b hb => ?timeout,
    fun g h => clockedDoes (workUmberApplyFallback_of_unarmed s g h),
    fun g a ha h => clockedDoes (workUmberApplyFallback_of_no_channel s g ha h), fun g a c ha h => ?fallback,
    fun e ns hup => clockedDoes (workSigSyncEdge_of_domUp s e ns hup), fun v => rfl, fun g t hnone => ?empty,
    fun g t c hc hen hg => ?owed, fun hstop hspace => clockedDoes (workUmberStagingResume_of_space s hstop hspace),
    fun hruns => clockedDoes (workUmberStagingResume_of_run s hruns)⟩
  case enabled =>
    exact clockedDoes ((workChainSample_of_input s c hup hruns hin).trans (congrArg Host.Outcome.next (if_pos hen)))
  case disabled =>
    exact clockedDoes ((workChainSample_of_input s c hup hruns hin).trans
      (congrArg Host.Outcome.next (if_neg (Bool.eq_false_iff.mp hoff))))
  case timeout =>
    exact ⟨fun h => clockedDoes (workFilterBlockTimeout_of_due s c hb h),
      fun h => clockedDoes (workFilterBlockTimeout_of_early s c hb h)⟩
  case fallback =>
    have waits := workUmberApplyFallback_of_slowest s g ha h
    exact ⟨fun hdue => clockedDoes (waits.trans (congrArg Host.Outcome.next (if_pos hdue))),
      fun hearly => clockedDoes (waits.trans (congrArg Host.Outcome.next (if_neg (not_le.mpr hearly))))⟩
  case empty =>
    refine s.resetGroup_of_empty g t (List.eq_nil_iff_forall_not_mem.mpr fun c hmem => ?_)
    obtain ⟨hc, hen, hg⟩ := (s.mem_groupChans g c).mp hmem
    exact hnone c hc hen hg
  case owed => exact s.resetGroup_of_nonempty g t (List.ne_nil_of_mem ((s.mem_groupChans g c).mpr ⟨hc, hen, hg⟩))

end Sys2Proof.Machine

end

section

namespace Sys2Proof.Machine

/-! ## An input's members and a window's close (07 R135, R138, R139) -/

/-! ### The reduction of an input's members -/

/-- An input of a window after its members, in admission order. -/
def Entry.ofMembers (k : Nat) (l : List (F32 × Int)) : Entry := l.foldl (fun e m => e.add k m.1 m.2) ⟨0, 0, 0⟩

/-- What a reduction keeps of an input's first member. -/
def reduceFirst (k : Nat) (v : F32) : F32 := (Entry.add ⟨0, 0, 0⟩ k v 0).acc

/-- What a reduction that holds `a` keeps after one member more. -/
def reduceNext (k : Nat) (a v : F32) : F32 := (Entry.add ⟨1, a, 0⟩ k v 0).acc

section Reduction
variable (k : Nat)

theorem Entry.add_of_empty (v : F32) (o : Int) : Entry.add ⟨0, 0, 0⟩ k v o = ⟨1, reduceFirst k v, o⟩ := rfl

theorem Entry.add_of_member {e : Entry} (h : e.count ≠ 0) (v : F32) (o : Int) :
    e.add k v o = ⟨e.count + 1, reduceNext k e.acc v, min e.oldest o⟩ := by
  simp [Entry.add, reduceNext, h]

/-- Members into an input that has one: the count, what the reduction holds and the oldest origin go their own ways. -/
theorem Entry.foldl_add_of_member (l : List (F32 × Int)) (e : Entry) (h : e.count ≠ 0) :
    l.foldl (fun e m => e.add k m.1 m.2) e =
      ⟨e.count + l.length, l.foldl (fun a m => reduceNext k a m.1) e.acc, (l.map Prod.snd).foldl min e.oldest⟩ := by
  induction l generalizing e with
  | nil => rfl
  | cons m t ih =>
    rw [List.foldl_cons, Entry.add_of_member k h, ih _ (Nat.succ_ne_zero _), List.length_cons, Nat.add_assoc,
      Nat.add_comm 1]
    rfl

theorem Entry.ofMembers_cons (m : F32 × Int) (t : List (F32 × Int)) : Entry.ofMembers k (m :: t) =
    ⟨t.length + 1, t.foldl (fun a n => reduceNext k a n.1) (reduceFirst k m.1), (t.map Prod.snd).foldl min m.2⟩ := by
  rw [Entry.ofMembers, List.foldl_cons, Entry.add_of_empty, Entry.foldl_add_of_member k t _ Nat.one_ne_zero, Nat.add_comm]

theorem Entry.ofMembers_count (l : List (F32 × Int)) : (Entry.ofMembers k l).count = l.length := by
  cases l with
  | nil => rfl
  | cons m t => rw [Entry.ofMembers_cons, List.length_cons]

theorem Entry.ofMembers_oldest {l : List (F32 × Int)} (h : l ≠ []) :
    (l.map Prod.snd).min? = some (Entry.ofMembers k l).oldest := by
  cases l with
  | nil => exact absurd rfl h
  | cons m t => rw [Entry.ofMembers_cons, List.map_cons, List.min?_cons']

theorem Entry.ofMembers_oldest_le {l : List (F32 × Int)} {m : F32 × Int} (h : m ∈ l) : (Entry.ofMembers k l).oldest ≤ m.2 :=
  (List.min?_eq_some_iff.mp (Entry.ofMembers_oldest k (List.ne_nil_of_mem h))).2 m.2 (List.mem_map_of_mem h)

theorem Entry.exists_mem_ofMembers_oldest {l : List (F32 × Int)} (h : l ≠ []) :
    ∃ m ∈ l, (Entry.ofMembers k l).oldest = m.2 := by
  obtain ⟨m, hm, ho⟩ := List.mem_map.mp (List.min?_eq_some_iff.mp (Entry.ofMembers_oldest k h)).1
  exact ⟨m, hm, ho.symm⟩

/-- What an input shows that holds `a` after `n` members and one. -/
def reduceShow (k : Nat) (a : F32) (n : Nat) : F32 := Entry.value ⟨n + 1, a, 0⟩ k

theorem Entry.ofMembers_value (m : F32 × Int) (t : List (F32 × Int)) : (Entry.ofMembers k (m :: t)).value k =
    reduceShow k (t.foldl (fun a n => reduceNext k a n.1) (reduceFirst k m.1)) t.length := by
  rw [Entry.ofMembers_cons]
  rfl

end Reduction

theorem foldl_newest (t : List (F32 × Int)) (m : F32 × Int) : t.foldl (fun _ n => n.1) m.1 = (t.getLastD m).1 := by
  induction t generalizing m with
  | nil => rfl
  | cons n t ih => rw [List.foldl_cons, ih, List.getLastD_cons]

/-! ### A window's score and its close -/

/-- The values that a window's inputs show. -/
def Win.vals (w : Win) : List F32 :=
  (List.range (cfgInputs w.cfg)).map fun i => (nth w.entries i ⟨0, 0, 0⟩).value (cfgReduce w.cfg i)

/-- The score of a window reaches its threshold. -/
def Win.trig (w : Win) : Bool := F.le (nth w.cfg 5 0) (scoreOf w.cfg w.vals)

/-- The emit mode of a rule whose last outcome was `prev` lets an outcome out (07 R139). -/
def emitsAt (mode : Nat) (trig prev : Bool) : Bool := mode = 0 || (mode = 1 && trig) || (mode = 2 && trig != prev)

theorem emitsAt_always (trig prev : Bool) : emitsAt 0 trig prev = true := rfl

theorem emitsAt_onTrigger_of_low (prev : Bool) : emitsAt 1 false prev = false := rfl

/-- A rule with the outcome of its last window noted and counted. -/
def State.noteOutcome (s : State) (r : Nat) (trig : Bool) : State :=
  let t := s.setRule r { s.rule r with prevTrig := trig }
  if trig then t.bumpSat (R.VIR_Rn_TRIGGERED r) else t

theorem State.noteOutcome_closing (s : State) (r : Nat) (trig : Bool) :
    (s.noteOutcome r trig).viridian.closing = s.viridian.closing := by
  cases trig <;> rfl

theorem Win.all_empty_iff (w : Win) : ((w.entries.map fun e => e.count).all fun c => c = 0) = true ↔
    ∀ e ∈ w.entries, e.count = 0 := by
  simp

theorem Win.any_empty_iff (w : Win) : ((w.entries.map fun e => e.count).any fun c => c = 0) = true ↔
    ∃ e ∈ w.entries, e.count = 0 := by
  simp

theorem Win.not_all_empty (w : Win) (h : ∃ e ∈ w.entries, e.count ≠ 0) :
    ¬((w.entries.map fun e => e.count).all fun c => c = 0) = true := by
  obtain ⟨e, he, hne⟩ := h
  exact fun hall => hne (w.all_empty_iff.mp hall e he)

section Close
variable (s : State) (r : Nat) (w : Win)

theorem State.winTov_of_no_anchor (hmode : fld (nth w.cfg 0 0) 7 6 ≤ 1) (hnew : w.newest = none) (hold : w.oldest = none) :
    s.winTov w 0 = none := by
  obtain h | h := Nat.le_one_iff_eq_zero_or_eq_one.mp hmode
  · rw [State.winTov, h, hnew]
    rfl
  · rw [State.winTov, h, hold]
    rfl

theorem State.winTov_isSome (hmode : 2 ≤ fld (nth w.cfg 0 0) 7 6) (cut : Nat) : (s.winTov w cut).isSome = true := by
  unfold State.winTov
  split
  · omega
  · omega
  · rfl
  · rfl

variable (hper : bit (nth w.cfg 0 0) 3 = false)
include hper

theorem State.closeWindow_of_empty (h : ∀ e ∈ w.entries, e.count = 0) :
    s.closeWindow r w 0 = s.bumpSat (R.VIR_Rn_EMPTY r) := by
  unfold State.closeWindow
  dsimp only
  rw [if_pos (w.all_empty_iff.mpr h), hper]
  rfl

variable (hany : ∃ e ∈ w.entries, e.count ≠ 0)
include hany

theorem State.closeWindow_of_incomplete
    (h : (bit (nth w.cfg 0 0) 15 = true ∧ ∃ e ∈ w.entries, e.count = 0) ∨ s.winTov w 0 = none) :
    s.closeWindow r w 0 = (s.bumpSat (R.VIR_Rn_INCOMPLETE r)).assertSource 197 := by
  unfold State.closeWindow
  dsimp only
  rw [if_neg (w.not_all_empty hany), if_pos, hper]
  · rfl
  · rwa [Bool.or_eq_true, Bool.and_eq_true, w.any_empty_iff, Option.isNone_iff_eq_none]

theorem State.closeWindow_of_evaluated (hall : bit (nth w.cfg 0 0) 15 = false) (htov : (s.winTov w 0).isSome = true) :
    ∃ f : Fused, s.closeWindow r w 0 =
        (if !emitsAt (fld (nth w.cfg 0 0) 5 4) w.trig (s.rule r).prevTrig then s.noteOutcome r w.trig
        else ((s.noteOutcome r w.trig).bumpSat (R.VIR_Rn_EMITTED r)).modViridian fun v =>
          { v with closing := v.closing ++ [f] }) ∧
      f.rule = r ∧ f.score = scoreOf w.cfg w.vals ∧ f.outcome = b2n w.trig ∧ f.openT = w.openT ∧ f.endT = w.endT := by
  have hcomplete (b : Bool) : ¬(bit (nth w.cfg 0 0) 15 && b || (s.winTov w 0).isNone) = true := by
    rw [hall, Option.isNone_eq_false_iff.mpr htov]
    exact Bool.false_ne_true
  refine ⟨?f, ?eq, ?rest⟩
  case eq =>
    unfold State.closeWindow
    dsimp only
    rw [if_neg (w.not_all_empty hany), if_neg (hcomplete _), hper]
    rfl
  case rest => exact ⟨rfl, rfl, rfl, rfl, rfl⟩

end Close

/-- Settles O33: an input by the closed form of its members, a close by what its entries and its anchor show, an evaluated one
by the rule's emit mode. -/
theorem fusionReductionsAndOutcome : Obligations.FusionReductionsAndOutcome := by
  unfold Obligations.FusionReductionsAndOutcome
  refine ⟨fun l k => ⟨Entry.ofMembers_count k l, ?none, fun m hm => Entry.ofMembers_oldest_le k hm,
    Entry.exists_mem_ofMembers_oldest k, ?value⟩, fun s r w hper _ => ⟨s.closeWindow_of_empty r w hper,
    fun hany hall hnone => s.closeWindow_of_incomplete r w hper hany (.inl ⟨hall, hnone⟩),
    fun hany hmode hnew hold =>
      s.closeWindow_of_incomplete r w hper hany (.inr (s.winTov_of_no_anchor w hmode hnew hold)), ?evaluated⟩⟩
  case none =>
    rintro rfl
    rfl
  case value =>
    rintro m t rfl
    refine ⟨?_, ?_, ?_, ?_, ?_, ?_, ?_, ?_⟩ <;> rintro rfl <;> refine (Entry.ofMembers_value _ m t).trans ?_
    · exact (foldl_newest t m).trans (congrArg Prod.fst List.getLastD_cons.symm)
    · exact List.foldl_fixed t
    -- SUM, MEAN, MIN, MAX, COUNT and RMS: what the input holds is the fold that is stated.
    all_goals rfl
  case evaluated =>
    intro hany hall hmode
    obtain ⟨f, hclose, hf⟩ := s.closeWindow_of_evaluated r w hper hany hall (s.winTov_isSome w hmode 0)
    refine ⟨fun halways => ⟨f, ?_, hf⟩, fun htrigger hlow => ?_⟩
    · rw [hclose, halways, emitsAt_always, Bool.not_true, if_neg Bool.false_ne_true, State.modViridian, State.bumpSat_viridian,
        State.noteOutcome_closing]
    · have hquiet : w.trig = false := hlow
      rw [hclose, htrigger, hquiet, emitsAt_onTrigger_of_low, Bool.not_false, if_pos rfl, State.noteOutcome_closing]

end Sys2Proof.Machine

end

section

namespace Sys2Proof.Machine

/-! ## The work of the fusion engine (07 R133, R136, R143, R145) -/

section Fusion
variable (s : State)

/-! ### Admission -/

theorem State.admitFront_of_cons {m : Member} {q : List Member} (h : s.viridian.queue = m :: q) :
    s.admitFront = (s.modViridian fun v => { v with queue := q }).admitMember m := by
  unfold State.admitFront
  rw [h]

theorem State.admitFront_of_nil (h : s.viridian.queue = []) : s.admitFront = s := by
  unfold State.admitFront
  rw [h]

/-! ### Windows -/

section Window
variable (r : Nat)

/-- With nothing armed, a window opens at the boundary that is reached, and the boundary after it is the next. -/
theorem workWindowOpen_of_due (hen : s.ruleEn r = true) (hper : s.rulePeriodic r = true) (hup : s.domUp dVIR = true)
    (harm : s.armedAt (virElem r) = none) (hdue : (s.rule r).nextOpen ≤ s.now) :
    workWindowOpen r s = .next (
      let u := s.openWindow r (s.rule r).nextOpen
      u.setRule r { u.rule r with nextOpen := u.firstBoundary r ((s.rule r).nextOpen + 1) }) := by
  unfold workWindowOpen
  simp only [hen, hper, hup, hdue, harm, Bool.and_self, decide_true, if_true]

theorem workWindowOpen_of_early (h : s.now < (s.rule r).nextOpen) : workWindowOpen r s = .next s := by
  have hearly : ¬((s.ruleEn r && s.rulePeriodic r && s.domUp dVIR) && (s.rule r).nextOpen ≤ s.now) = true := by
    rw [decide_eq_false (Nat.not_le.mpr h), Bool.and_false]
    exact Bool.false_ne_true
  exact congrArg Host.Outcome.next (if_neg hearly)

/-- A window's end and hold have passed at an instant. -/
def Win.dueAt (w : Win) (now : Nat) : Bool := w.endT + (nth w.cfg 3 0).toNat * 1000 ≤ now

/-- The window to close is looked for anew once every queued member is admitted. -/
theorem workWindowClose_of_due {w : Win} (hup : s.domUp dVIR = true)
    (hsome : ((s.rule r).windows.find? (Win.dueAt · s.now)).isSome = true)
    (hw : (s.admitAll.rule r).windows.find? (Win.dueAt · s.now) = some w) :
    workWindowClose r s = .next (((s.admitAll.setRule r { s.admitAll.rule r with
      windows := (s.admitAll.rule r).windows.erase w }).closeWindow r w 0).virRest r) := by
  obtain ⟨v, hv⟩ := Option.isSome_iff_exists.mp hsome
  unfold Win.dueAt at hv hw
  unfold workWindowClose
  simp only [hup, hv, hw, Bool.not_true, Bool.false_eq_true, if_false]

theorem workWindowClose_of_none (h : (s.rule r).windows.find? (Win.dueAt · s.now) = none) : workWindowClose r s = .next s := by
  unfold Win.dueAt at h
  unfold workWindowClose
  simp only [h, ite_self]

end Window

/-! ### Staging and the scrub -/

theorem workFusedRecordStage_of_nil (h : s.viridian.closing = []) : workFusedRecordStage s = .next s := by
  unfold workFusedRecordStage
  rw [h]

section Staging
variable {f : Fused} {l : List Fused} (h : s.viridian.closing = f :: l)
include h

theorem State.stageFront_of_cons :
    s.stageFront = (s.modViridian fun v => { v with closing := l, waiting := false }).stageFused f := by
  unfold State.stageFront
  rw [h]

theorem workFusedRecordStage_of_cons : workFusedRecordStage s = .next (
    if s.stagedBytes .viridian + 64 + 16 * f.entries.length ≤ 65536 then s.stageFront
    else if s.viridian.waiting then s
    else (s.modViridian fun v => { v with waiting := true }).assertSource 195) := by
  unfold workFusedRecordStage
  rw [h]

theorem workFusedRecordStage_of_room (hroom : s.stagedBytes .viridian + 64 + 16 * f.entries.length ≤ 65536) :
    workFusedRecordStage s = .next ((s.modViridian fun v => { v with closing := l, waiting := false }).stageFused f) := by
  rw [workFusedRecordStage_of_cons s h, if_pos hroom, s.stageFront_of_cons h]

variable (hfull : 65536 < s.stagedBytes .viridian + 64 + 16 * f.entries.length)
include hfull

theorem workFusedRecordStage_of_full (hwait : s.viridian.waiting = false) :
    workFusedRecordStage s = .next ((s.modViridian fun v => { v with waiting := true }).assertSource 195) := by
  rw [workFusedRecordStage_of_cons s h, if_neg (Nat.not_le.mpr hfull), if_neg (Bool.eq_false_iff.mp hwait)]

theorem workFusedRecordStage_of_waiting (hwait : s.viridian.waiting = true) : workFusedRecordStage s = .next s := by
  rw [workFusedRecordStage_of_cons s h, if_neg (Nat.not_le.mpr hfull), if_pos hwait]

end Staging

end Fusion

/-- Settles O32: each command is its meaning on a device that is awake, which the lemmas above give by what is queued, due,
closed or armed, and by the room for a record. -/
theorem fusionWork : Obligations.FusionWork := by
  unfold Obligations.FusionWork
  intro s hrun
  have clockedDoes {f : State → Res} {o : Res} (h : f s = o) : clocked f s = o := (clocked_of_clocksRun f s hrun).trans h
  have timedDoes {f : State → Res} {o : Res} (h : f s = o) : timed f s = o := (timed_of_clocksRun f s hrun).trans h
  exact ⟨fun m q h => clockedDoes (congrArg Host.Outcome.next (s.admitFront_of_cons h)),
    fun h => clockedDoes (congrArg Host.Outcome.next (s.admitFront_of_nil h)),
    fun r hen hper hup harm hdue => timedDoes (workWindowOpen_of_due s r hen hper hup harm hdue),
    fun r h => timedDoes (workWindowOpen_of_early s r h),
    ⟨fun r w hup hsome hw => timedDoes (workWindowClose_of_due s r hup hsome hw),
      fun r h => timedDoes (workWindowClose_of_none s r h)⟩,
    fun f l h => ⟨fun hroom => clockedDoes (workFusedRecordStage_of_room s h hroom),
      fun hfull hwait => clockedDoes (workFusedRecordStage_of_full s h hfull hwait),
      fun hfull hwait => clockedDoes (workFusedRecordStage_of_waiting s h hfull hwait)⟩,
    fun h => clockedDoes (workFusedRecordStage_of_nil s h), clockedDoes rfl⟩

end Sys2Proof.Machine

end

section

namespace Sys2Proof.Machine

/-! ## The path of a run and the quantiser (08 R156, 09 R174) -/

/-! ### The path -/

/-- The rules of 09 R174 that make a run FULL before its distance is looked at. -/
def Bind.fullDue (x : Bind) : Bool :=
  !x.predEnable || x.verify || x.mustFull || x.lastInput.isNone || x.refreshK ≤ x.sinceFull + 1

/-- An input of an epoch, at a distance from the last one, may be answered by the last result again. -/
def Bind.maySkip (x : Bind) (d : Nat) (e : BitVec 16) : Bool :=
  d < x.tSkip && x.skips < x.maxSkips && x.last.any fun z => z.tov.epoch = e

section Path
variable (x : Bind) (d : Nat) (e : BitVec 16)

/-- The rules in their order: FULL is due, SKIP, DELTA. -/
theorem choosePath_eq : choosePath x d e =
    if x.fullDue then 0 else if x.maySkip d e then 2 else if d < x.tDelta then 1 else 0 := by
  unfold choosePath Bind.maySkip
  cases x.last with
  | none => rfl
  | some z => rfl

theorem Bind.fullDue_iff : x.fullDue = true ↔ x.predEnable = false ∨ x.verify = true ∨ x.mustFull = true ∨ x.lastInput = none ∨
    x.refreshK ≤ x.sinceFull + 1 := by
  simp [Bind.fullDue, or_assoc]

theorem Bind.maySkip_iff : x.maySkip d e = true ↔
    d < x.tSkip ∧ x.skips < x.maxSkips ∧ ∃ z, x.last = some z ∧ z.tov.epoch = e := by
  simp [Bind.maySkip, and_assoc, Option.any_eq_true]

theorem choosePath_of_fullDue (h : x.fullDue = true) : choosePath x d e = 0 := by
  rw [choosePath_eq, if_pos h]

variable (hfull : ¬x.fullDue = true)
include hfull

theorem choosePath_of_maySkip (h : x.maySkip d e = true) : choosePath x d e = 2 := by
  rw [choosePath_eq, if_neg hfull, if_pos h]

/-- An input that no result answers is taken by DELTA below t_delta, and by FULL from there on. -/
theorem choosePath_of_not_maySkip (h : ¬x.maySkip d e = true) : choosePath x d e = if d < x.tDelta then 1 else 0 := by
  rw [choosePath_eq, if_neg hfull, if_neg h]

end Path

/-! ### The quantiser -/

/-- A value in units of a model's input scale, moved by its zero point. -/
def Model.scaled (m : Model) (v : F32) : F32 := F.add (F.div v m.inScale) (F.ofInt m.inZp)

theorem fmtRange_le (fmt : Nat) : (fmtRange fmt).1 ≤ (fmtRange fmt).2 := by
  unfold fmtRange
  split <;> decide

section Quantise
variable (m : Model) (v : F32) (hfmt : m.inFmt ≤ 1)
include hfmt

theorem quantise_of_intFmt : quantise m v =
    if F.isNan (m.scaled v) then clampI (fmtRange m.inFmt).1 (fmtRange m.inFmt).2 m.inZp
    else if F.isInf (m.scaled v) then (if F.neg? (m.scaled v) then (fmtRange m.inFmt).1 else (fmtRange m.inFmt).2)
    else clampI (fmtRange m.inFmt).1 (fmtRange m.inFmt).2 (F.toIntRne (m.scaled v) 0) := if_pos hfmt

/-- An infinity takes an end of the range, and every other value is clamped into it. -/
theorem quantise_mem : (fmtRange m.inFmt).1 ≤ quantise m v ∧ quantise m v ≤ (fmtRange m.inFmt).2 := by
  have hrange := fmtRange_le m.inFmt
  rw [quantise_of_intFmt m v hfmt]
  split_ifs
  · exact clampI_mem _ _ _ hrange
  · exact ⟨Int.le_refl _, hrange⟩
  · exact ⟨hrange, Int.le_refl _⟩
  · exact clampI_mem _ _ _ hrange

end Quantise

/-- Settles O36: the path by the rules in their order, the quantiser by what its expression comes to. -/
theorem pathOfARun : Obligations.PathOfARun := by
  unfold Obligations.PathOfARun
  intro x d e
  refine ⟨fun h => choosePath_of_fullDue x d e (x.fullDue_iff.mpr h), fun hon hverify hmust hlast hrefresh => ?path,
    fun m v hfmt => ?quantise⟩
  case path =>
    have hfull : ¬x.fullDue = true := by
      rw [x.fullDue_iff, hon, hverify, hmust, ← Option.isNone_iff_eq_none, ← Option.not_isSome, hlast]
      simpa using hrefresh
    refine ⟨fun z hz hd hskips he => ?skip, fun hno => ?noSkip⟩
    case skip => exact choosePath_of_maySkip x d e hfull ((x.maySkip_iff d e).mpr ⟨hd, hskips, z, hz, he⟩)
    case noSkip =>
      have hnot : ¬x.maySkip d e = true := by
        rw [x.maySkip_iff]
        rintro ⟨hd, hskips, z, hz, he⟩
        rcases hno with hno | hno | hno
        · exact Nat.not_le.mpr hd hno
        · exact Nat.not_le.mpr hskips hno
        · exact hno z hz he
      rw [choosePath_of_not_maySkip x d e hfull hnot]
      exact ⟨fun h => if_pos h, fun h => if_neg (Nat.not_lt.mpr h)⟩
  case quantise =>
    obtain ⟨hlow, hhigh⟩ := quantise_mem m v hfmt
    exact ⟨hlow, hhigh, fun hnan => (quantise_of_intFmt m v hfmt).trans (if_pos hnan)⟩

end Sys2Proof.Machine

end

section

namespace Sys2Proof.Machine

/-! ## INFER_LOAD_MODEL and INFER_RUN (08 R155, R157) -/

/-! ### A page by the turn of its command, and by what its transfer brought (10 R195, R197, R198) -/

section Page
variable {op : Nat} {b : PageBody} {p : Nat} {s t : State} {l : Latch}

theorem runPage_wait_of_turn (h : s.turn p op l) (hb : b l.cmd none s = .wait t) :
    runPage op b p s = t.toStage p .yielded := by
  obtain ⟨hl, hstage, hop, hstart⟩ := h
  exact runPage_wait op b p s t l hl hop hstage hstart hb

theorem runPage_fail_of_turn {e : CErr} (h : s.turn p op l) (hb : b l.cmd none s = .fail e) :
    runPage op b p s = s.answerErr p e (s.respGen l.cmd) := by
  obtain ⟨hl, hstage, hop, hstart⟩ := h
  exact runPage_fail op b p s l e hl hop hstage hstart hb

theorem runPage_done_of_turn {r : Bytes} (h : s.turn p op l) (hb : b l.cmd none s = .done t r) :
    runPage op b p s = t.replyOk p l r := by
  obtain ⟨hl, hstage, hop, hstart⟩ := h
  exact runPage_done op b p s t l r hl hop hstage hstart hb

variable {d : Option Bytes} (hl : s.latch p = some l) (hs : l.stage = .resumed d) (ho : l.cmd.opcode = op)
include hl hs ho

theorem runPage_resumed_fail {e : CErr} (hb : b l.cmd (some d) s = .fail e) :
    runPage op b p s = s.answerErr p e (s.respGen l.cmd) := by
  simp [runPage, hl, ho, hs, hb]

theorem runPage_resumed_accepted (hb : b l.cmd (some d) s = .accepted t) : runPage op b p s = t.replyAccepted p l := by
  simp [runPage, hl, ho, hs, hb, State.replyAccepted]

end Page

/-! ### Checks -/

theorem need_of_true {c : Bool} (h : c = true) (e : CErr) : need c e = .ok () := if_pos h
theorem need_of_false {c : Bool} (h : c = false) (e : CErr) : need c e = .error e := if_neg (Bool.eq_false_iff.mp h)

theorem inRange_of_mem {v lo hi : Nat} (hlo : lo ≤ v) (hhi : v ≤ hi) (off : Nat) : inRange v lo hi off = .ok () := by
  simp [inRange, need, hlo, hhi]

/-- A check that passes leaves the decision to those after it. -/
theorem allOf_cons_of_ok {c : Check} (h : c = .ok ()) (cs : List Check) : allOf (c :: cs) = allOf cs := by
  rw [h]
  rfl

/-- The first check that fails decides. -/
theorem allOf_cons_of_error {c : Check} {e : CErr} (h : c = .error e) (cs : List Check) : allOf (c :: cs) = .error e := by
  rw [h]
  rfl

/-- Bytes that spell zero are zero. -/
theorem eq_zero_of_leNat_eq_zero {b : Bytes} (h : leNat b = 0) : ∀ x ∈ b, x = 0 := by
  induction b with
  | nil => simp
  | cons x t ih =>
    obtain ⟨hx, ht⟩ : x.toNat = 0 ∧ leNat t = 0 := by
      rw [leNat] at h
      omega
    intro y hy
    rcases List.mem_cons.mp hy with rfl | hy
    · exact BitVec.eq_of_toNat_eq hx
    · exact ih ht y hy

/-- A reserved half-word passes when it spells zero (00 R10). -/
theorem reserved_of_u16_eq_zero {b : Bytes} {off : Nat} (h : u16 b off = 0) : reserved b off 2 = .ok () :=
  need_of_true (List.all_eq_true.mpr fun x hx => decide_eq_true (eq_zero_of_leNat_eq_zero h x hx)) _

/-! ### INFER_LOAD_MODEL -/

/-- The checks of an INFER_LOAD_MODEL page before its package is fetched. -/
def loadModelCheck (c : Cmd) : Check :=
  allOf [need (u64 c.block 0 % 64 = 0) (badParam 0), need (512 ≤ u64 c.block 8 && u64 c.block 8 ≤ 4294967296) (badParam 8)]

theorem loadModelCheck_of_fields {c : Cmd} (halign : u64 c.block 0 % 64 = 0) (hmin : 512 ≤ u64 c.block 8)
    (hmax : u64 c.block 8 ≤ 4294967296) : loadModelCheck c = .ok () := by
  rw [loadModelCheck, allOf_cons_of_ok (need_of_true (decide_eq_true halign) _),
    allOf_cons_of_ok (need_of_true (by simp [hmin, hmax]) _)]
  rfl

section Load
variable {c : Cmd} {s : State} (hcheck : loadModelCheck c = .ok ())
include hcheck

theorem loadModelBody_asks : loadModelBody c none s = .wait (s.dmaAsk c.path (u64 c.block 0) (u64 c.block 8)) := by
  unfold loadModelCheck at hcheck
  simp only [loadModelBody, hcheck]

variable {d : Option Bytes} {b : Bytes} (hread : s.dmaRead c.path (u64 c.block 0) (u64 c.block 8) d = some b)
include hread

/-- A check of 08 R155 that the package fails decides. -/
theorem loadModelBody_of_bad_package {e : CErr} (h : packageCheck b (u64 c.block 8) = .error e) :
    loadModelBody c (some d) s = .fail e := by
  unfold loadModelCheck at hcheck
  simp only [loadModelBody, hcheck, hread, h]

variable (hgood : packageCheck b (u64 c.block 8) = .ok ())
include hgood

theorem loadModelBody_of_no_handle (h : s.freeModel = none) : loadModelBody c (some d) s = .fail noResource := by
  unfold loadModelCheck at hcheck
  simp only [loadModelBody, hcheck, hread, hgood, h]

/-- A package that passes is written to DRAM for its context and held under the lowest free handle. -/
theorem loadModelBody_of_good_package {h a : Nat} {t : State} (hfree : s.freeModel = some h)
    (halloc : s.allocDram (u64 c.block 8) c.ctx exModel h = some (t, a)) :
    loadModelBody c (some d) s = .done (((t.blockWrite (0x400 + c.ctx) a b).modIndigo fun i => { i with
      models := i.models.set h ⟨c.ctx, b.take 256, (List.range (u16 b 0x0E)).map fun j => layerOf (layerEntry b j), a,
        u64 c.block 8⟩ }).countModels) (leBytes 4 h) := by
  unfold loadModelCheck at hcheck
  simp only [loadModelBody, hcheck, hread, hgood, hfree, halloc]

end Load

/-! ### INFER_RUN -/

/-- The checks of an INFER_RUN page in their order. -/
def inferRunCheck (c : Cmd) (x : Bind) (s : State) : Check :=
  let b := c.block
  let h := u16 b 0
  allOf [bindAccess h 0 c.ctx s, need (x.kind = 0 && s.leads h) (badParam 0), reserved b 0x0A 2, inRange (u32 b 0x0C) 0 999999999 0x0C,
    need (u32 b 0x14 / 0x100000 = 0) (badParam 0x14), need (u64 b 0x18 % 64 = 0) (badParam 0x18),
    need (s.pendingOf h < 2) busy, need (!s.bindLost h) peerLost]

/-- The position that element `i` of a host tensor gives a run: with the stamp, the age and the mask of the page. -/
def State.hostPosition (s : State) (c : Cmd) (x : Bind) (m : Model) (t : Bytes) (i : Nat) : Position :=
  ⟨(List.range m.features).map fun k => tensorElem m.inFmt t (i * m.features + k),
    ⟨u48 c.block 4, u32 c.block 0x0C, BitVec.ofNat 16 (u16 c.block 2), c.latchedAt, false⟩,
    (c.latchedAt : Int) - u32 c.block 0x10 * 1000, 0, w32 (u32 c.block 0x14), s.elemGen x.ctx (idgElem (u16 c.block 0))⟩

/-- The last two checks: a binding has room for a run, and its group has lost no peer. -/
def State.runRoom (s : State) (h : Nat) : Check := allOf [need (s.pendingOf h < 2) busy, need (!s.bindLost h) peerLost]

theorem State.runRoom_of_two_pending {s : State} {h : Nat} (hfull : 2 ≤ s.pendingOf h) : s.runRoom h = .error busy :=
  allOf_cons_of_error (need_of_false (decide_eq_false (Nat.not_lt.mpr hfull)) _) _

theorem State.runRoom_of_fewer_pending {s : State} {h : Nat} (hroom : s.pendingOf h < 2) (hlost : s.bindLost h = false) :
    s.runRoom h = .ok () := by
  rw [State.runRoom, allOf_cons_of_ok (need_of_true (decide_eq_true hroom) _), hlost]
  rfl

section Run
variable {c : Cmd} {s : State} {x : Bind} (hx : s.bind? (u16 c.block 0) = some x)
include hx

/-- A well-formed page for a HOST binding that its context holds and this device leads is left to the last two checks. -/
theorem inferRunCheck_of_page (hctx : x.ctx = c.ctx) (hkind : x.kind = 0) (hleads : s.leads (u16 c.block 0) = true)
    (hres : u16 c.block 0x0A = 0) (hns : u32 c.block 0x0C ≤ 999999999) (hmask : u32 c.block 0x14 < 0x100000)
    (halign : u64 c.block 0x18 % 64 = 0) : inferRunCheck c x s = s.runRoom (u16 c.block 0) := by
  have haccess : bindAccess (u16 c.block 0) 0 c.ctx s = .ok () := by
    simp only [bindAccess, hx]
    exact need_of_true (decide_eq_true hctx) _
  rw [inferRunCheck, allOf_cons_of_ok haccess, allOf_cons_of_ok (need_of_true (by simp [hkind, hleads]) _),
    allOf_cons_of_ok (reserved_of_u16_eq_zero hres), allOf_cons_of_ok (inRange_of_mem (Nat.zero_le _) hns _),
    allOf_cons_of_ok (need_of_true (decide_eq_true (Nat.div_eq_of_lt hmask)) _),
    allOf_cons_of_ok (need_of_true (decide_eq_true halign) _), State.runRoom]

theorem inferRunBody_of_error {d : Option (Option Bytes)} {e : CErr} (h : inferRunCheck c x s = .error e) :
    inferRunBody c d s = .fail e := by
  unfold inferRunCheck at h
  simp only [inferRunBody, hx, Option.getD_some, h]

variable {m : Model} (h : inferRunCheck c x s = .ok ()) (hm : s.model? x.model = some m)
include h hm

theorem inferRunBody_asks : inferRunBody c none s =
    .wait (s.dmaAsk c.path (u64 c.block 0x18) (elemBytes m.inFmt (m.positions * m.features))) := by
  unfold inferRunCheck at h
  simp only [inferRunBody, hx, Option.getD_some, h, hm]

/-- The tensor that came triggers a run of its positions. -/
theorem inferRunBody_triggers {d : Option Bytes} {t : Bytes}
    (hread : s.dmaRead c.path (u64 c.block 0x18) (elemBytes m.inFmt (m.positions * m.features)) d = some t) :
    inferRunBody c (some d) s =
      .accepted (s.trigger (u16 c.block 0) ((List.range m.positions).map (s.hostPosition c x m t))) := by
  unfold inferRunCheck at h
  simp only [inferRunBody, hx, Option.getD_some, h, hm, hread]
  rfl

end Run

/-- Settles O34: both pages by their bodies, before their transfer and with what it brought. -/
theorem modelsLoadAndRun : Obligations.ModelsLoadAndRun := by
  unfold Obligations.ModelsLoadAndRun
  intro s p l
  refine ⟨fun hturn halign hmin hmax => ?asks, fun d b hl hstage hop halign hmin hmax hread => ?came,
    fun x hx hctx hkind hleads hres hns hmask halign => ?run⟩
  case asks =>
    exact congrArg Host.Outcome.next
      (runPage_wait_of_turn hturn (loadModelBody_asks (loadModelCheck_of_fields halign hmin hmax)))
  case came =>
    have hcheck := loadModelCheck_of_fields halign hmin hmax
    have fails {e : CErr} (hb : loadModelBody l.cmd (some d) s = .fail e) :
        exec (.inferLoadModel p) s = .next (s.answerErr p e (s.respGen l.cmd)) :=
      congrArg Host.Outcome.next (runPage_resumed_fail hl hstage hop hb)
    exact ⟨fun e hbad => fails (loadModelBody_of_bad_package hcheck hread hbad),
      fun hgood hnone => fails (loadModelBody_of_no_handle hcheck hread hgood hnone),
      fun h t a hgood hfree halloc => congrArg Host.Outcome.next (runPage_resumed_done _ _ p s _ l d _ hl hop hstage
        (loadModelBody_of_good_package hcheck hread hgood hfree halloc))⟩
  case run =>
    have hcheck := inferRunCheck_of_page hx hctx hkind hleads hres hns hmask halign
    have room (hroom : s.pendingOf (u16 l.cmd.block 0) < 2) (hlost : s.bindLost (u16 l.cmd.block 0) = false) :
        inferRunCheck l.cmd x s = .ok () := hcheck.trans (State.runRoom_of_fewer_pending hroom hlost)
    exact ⟨fun hturn hfull => congrArg Host.Outcome.next (runPage_fail_of_turn hturn
        (inferRunBody_of_error hx (hcheck.trans (State.runRoom_of_two_pending hfull)))),
      fun m hturn hroom hlost hm => congrArg Host.Outcome.next (runPage_wait_of_turn hturn
        (inferRunBody_asks hx (room hroom hlost) hm)),
      fun m d t hl hstage hop hroom hlost hm hread => congrArg Host.Outcome.next (runPage_resumed_accepted hl hstage hop
        (inferRunBody_triggers hx (room hroom hlost) hm hread))⟩

end Sys2Proof.Machine

end

section

namespace Sys2Proof.Machine

/-! ## Runs, replay windows and stalls (08 R151, R156, R157, R165, 09 R176, R179) -/

section Runs
variable (s : State)

/-! ### An input -/

theorem workBindingInput_of_nil (h : s.indigo.inq = []) : workBindingInput s = .next s := by
  simp only [workBindingInput, h]

/-- The oldest input goes to every binding of its kind, source and context that has not stopped and is led here. -/
theorem workBindingInput_of_cons {i : BindIn} {q : List BindIn} (h : s.indigo.inq = i :: q) : workBindingInput s = .next (
    (s.indigo.binds.filter fun e => e.2.kind = i.kind && e.2.source = i.source && e.2.ctx = i.ctx && !e.2.stopped && s.leads e.1).foldl
      (fun t e => t.bindTakes i e.1 e.2.model) (s.modIndigo fun x => { x with inq := q })) := by
  simp only [workBindingInput, h]

/-! ### RUN_DISPATCH -/

section Dispatch
variable (b : Nat)

theorem workRunDispatch_of_nothing (h : s.running b = true ∨ s.takeRun b = none) : workRunDispatch b s = .next s := by
  unfold workRunDispatch
  rcases h with h | h
  · rw [h]
    rfl
  · rw [h]
    exact congrArg Host.Outcome.next (ite_self s)

/-- The quads of a binding that are down or have their gates closed. -/
def State.shutQuads (s : State) (x : Bind) : List Nat := (quadsOf x.tiles).filter s.quadShut

/-- Every such quad is ON-DEMAND and may wake (16 R303, R315). -/
def State.quadsWake (s : State) (x : Bind) : Bool := (s.shutQuads x).all fun d => s.domOnDemand d && !s.ivory.forced

theorem State.quadsWake_iff (x : Bind) :
    s.quadsWake x = true ↔ ∀ d ∈ s.shutQuads x, s.domOnDemand d = true ∧ s.ivory.forced = false := by
  simp only [State.quadsWake, List.all_eq_true, Bool.and_eq_true, Bool.not_eq_true']

/-- A run that can be taken, with its tiles free: a shut quad that is not to be woken ends it DOMAIN_ASLEEP (08 Edges), one
that is up drains yet and holds it until its wake, and else the quads that are down are powered and the run starts. -/
theorem workRunDispatch_of_run {r : Run} {t : State} {x : Bind} {m : Model} (hidle : s.running b = false)
    (hx : s.bind? b = some x) (hfree : s.tilesBusy b x.tiles = false) (htake : s.takeRun b = some (r, t))
    (hm : s.model? x.model = some m) : workRunDispatch b s = .next (
    if s.quadsWake x then
      if (s.shutQuads x).any fun d => s.domUp d then
        { s with ivory := { s.ivory with
          wakeAfter := s.ivory.wakeAfter ++ (s.shutQuads x).filter fun d => !s.ivory.wakeAfter.contains d } }
      else (forEach (quadsOf x.tiles) (fun d u => u.touch d) t).startRun r x m
    else (t.endRun r 5 s.now s.idgPoint).idgBoundary b) := by
  have htiles : s.bindTiles b = x.tiles := by simp only [State.bindTiles, hx]
  simp only [workRunDispatch, htiles, hidle, hfree, htake, hx, hm, Bool.or_self, Bool.false_eq_true, if_false]
  rfl

end Dispatch

/-! ### RUN_COMPLETE -/

section Complete
variable (b : Nat)

theorem State.runDone_of_none (h : s.indigo.inflight.find? (fun r => r.binding = b) = none) : s.runDone b = s := by
  unfold State.runDone
  rw [h]

variable {r : Run} {x : Bind} {m : Model} (hr : s.indigo.inflight.find? (fun r => r.binding = b) = some r)
  (hx : s.bind? b = some x) (hm : s.model? x.model = some m)
include hr hx hm

theorem State.runDone_of_some :
    s.runDone b = if x.poison || s.canFinish b m then (s.finishRun r x m).idgBoundary b else s := by
  simp only [State.runDone, hr, hx, hm]

theorem State.runDone_of_finish (h : x.poison = true ∨ s.canFinish b m = true) :
    s.runDone b = (s.finishRun r x m).idgBoundary b := by
  rw [s.runDone_of_some b hr hx hm, if_pos ((Bool.or_eq_true _ _).mpr h)]

theorem State.runDone_of_unfinished (hpoison : x.poison = false) (h : s.canFinish b m = false) : s.runDone b = s := by
  rw [s.runDone_of_some b hr hx hm, hpoison, h, Bool.or_self, if_neg Bool.false_ne_true]

end Complete

/-! ### The end of a replay window -/

theorem State.endWindow_of_due (h : s.indigo.windowAt < s.now / 1000000 * 1000000) : s.endWindow =
    (((forEach (List.range 16) (fun t u => u.replayTest (s.regN R.IDG_APX_REPLAY_LIMIT) t) s.progress).bump
      R.IDG_APX_WINDOW_SEQ).nextLimit.modIndigo fun i =>
        { i with windowAt := s.now / 1000000 * 1000000, replayNext := none }) := if_neg (Nat.not_le.mpr h)

theorem State.endWindow_of_early (h : s.now / 1000000 * 1000000 ≤ s.indigo.windowAt) : s.endWindow = s := if_pos h

section Replay
variable (k t : Nat)

/-- A tile's shadow latches are active at an S-point, unless REPLAY_LIMIT or its binding demotes it (09 R176). -/
theorem State.tileLive_iff : s.tileLive t = true ↔
    4 ≤ s.idgPoint ∧ s.regBit R.IDG_APX_DEMOTED t = false ∧ s.specBarred t = false := by
  simp [State.tileLive, State.demoted]

/-- A tile demoted for its erring waves of the window: counted, raised and reported (09 R179). -/
def State.demote (s : State) (k t : Nat) : State :=
  (((s.setRegFld R.IDG_APX_DEMOTED t t 1).bumpSat (R.IDG_APX_Tn_DEMOTIONS t)).assertSource (256 + t)).raiseFault 3 t
    (args := [w32 (s.regN (R.IDG_APX_Tn_WIN_REPLAYS t)), w32 (s.regN (R.IDG_APX_Tn_WIN_WAVES t)), w32 k])

/-- A tile's window counts start again. -/
def State.clearWindow (s : State) (t : Nat) : State :=
  (s.setReg (R.IDG_APX_Tn_WIN_WAVES t) 0).setReg (R.IDG_APX_Tn_WIN_REPLAYS t) 0

/-- A live tile has more erring waves in the window than the limit allows. -/
def State.stormy (s : State) (k t : Nat) : Bool :=
  s.tileLive t && s.regN (R.IDG_APX_Tn_WIN_WAVES t) * k < s.regN (R.IDG_APX_Tn_WIN_REPLAYS t) * 10000 &&
    s.regN (R.IDG_APX_Tn_WIN_WAVES t) ≠ 0

theorem State.replayTest_eq : s.replayTest k t = (if s.stormy k t then s.demote k t else s).clearWindow t := rfl

theorem State.stormy_iff : s.stormy k t = true ↔ s.tileLive t = true ∧
    s.regN (R.IDG_APX_Tn_WIN_WAVES t) * k < s.regN (R.IDG_APX_Tn_WIN_REPLAYS t) * 10000 ∧
    s.regN (R.IDG_APX_Tn_WIN_WAVES t) ≠ 0 := by
  simp [State.stormy, and_assoc]

theorem State.replayTest_of_stormy (h : s.stormy k t = true) : s.replayTest k t = (s.demote k t).clearWindow t := by
  rw [s.replayTest_eq, if_pos h]

theorem State.replayTest_of_calm (h : ¬s.stormy k t = true) : s.replayTest k t = s.clearWindow t := by
  rw [s.replayTest_eq, if_neg h]

end Replay

/-! ### A tile stalled for a whole window -/

section Stall
variable (t : Nat)

theorem workTileWstallWindow_of_none (h : s.runOn t = none) : workTileWstallWindow t s = .next s := by
  simp only [workTileWstallWindow, h]

theorem workTileWstallWindow_of_run {r : Run} (h : s.runOn t = some r) : workTileWstallWindow t s = .next (
    (((s.setReg (R.IDG_Tn_STATE t) 2).bumpSat (R.IDG_Tn_WSTALL t) (s.tileMhz t * 1000)).assertSource (240 + t)).modIndigo
      fun i => { i with inflight := i.inflight.map fun q =>
        if q = r then { q with stalled := q.stalled.set t (q.stalled.getD t 0 + 1000000) } else q }) := by
  simp only [workTileWstallWindow, h]

end Stall

end Runs

/-- Settles O35: each command is its meaning on a device that is awake, which the lemmas above give by the queue, the quads,
the run in flight, the window and the tile. -/
theorem runsReplaysAndStalls : Obligations.RunsReplaysAndStalls := by
  unfold Obligations.RunsReplaysAndStalls
  refine ⟨fun s hrun => ?runs, fun s hrun => ?windows⟩
  case runs =>
    have clockedDoes {f : State → Res} {o : Res} (h : f s = o) : clocked f s = o := (clocked_of_clocksRun f s hrun).trans h
    have completes {b : Nat} {t : State} (h : s.runDone b = t) : exec (.runComplete b) s = .next t :=
      clockedDoes (congrArg Host.Outcome.next h)
    refine ⟨fun i q h => clockedDoes (workBindingInput_of_cons s h), fun h => clockedDoes (workBindingInput_of_nil s h),
      fun b r t x m hidle hx hfree htake hm => ?dispatch, fun b h => clockedDoes (workRunDispatch_of_nothing s b h),
      fun b r x m hr hx hm => ⟨fun h => completes (s.runDone_of_finish b hr hx hm h),
        fun hpoison h => completes (s.runDone_of_unfinished b hr hx hm hpoison h)⟩,
      fun b h => completes (s.runDone_of_none b h)⟩
    case dispatch =>
      have hrest := clockedDoes (workRunDispatch_of_run s b hidle hx hfree htake hm)
      have hwake := s.quadsWake_iff x
      refine ⟨fun h hdown => ?starts, fun h hup => ?waits, fun h => ?asleep⟩
      case starts =>
        have hnone : ¬((s.shutQuads x).any fun d => s.domUp d) = true := by
          rw [Bool.not_eq_true, List.any_eq_false]
          exact fun d hd => Bool.eq_false_iff.mp (hdown d hd)
        exact hrest.trans (congrArg Host.Outcome.next ((if_pos (hwake.mpr h)).trans (if_neg hnone)))
      case waits =>
        exact hrest.trans (congrArg Host.Outcome.next ((if_pos (hwake.mpr h)).trans (if_pos (List.any_eq_true.mpr hup))))
      case asleep => exact hrest.trans (congrArg Host.Outcome.next (if_neg (mt hwake.mp h)))
  case windows =>
    have clockedDoes {f : State → Res} {o : Res} (h : f s = o) : clocked f s = o := (clocked_of_clocksRun f s hrun).trans h
    refine ⟨fun h => clockedDoes (congrArg Host.Outcome.next (s.endWindow_of_due h)),
      fun h => clockedDoes (congrArg Host.Outcome.next (s.endWindow_of_early h)),
      fun t k _ => ⟨s.tileLive_iff t, fun hlive hstorm hwaves => ?demoted, fun h => ?kept⟩,
      fun t r h => clockedDoes (workTileWstallWindow_of_run s t h), fun t h => clockedDoes (workTileWstallWindow_of_none s t h)⟩
    case demoted => exact s.replayTest_of_stormy k t ((s.stormy_iff k t).mpr ⟨hlive, hstorm, hwaves⟩)
    case kept =>
      refine s.replayTest_of_calm k t fun hstormy => ?_
      obtain ⟨hlive, hstorm, hwaves⟩ := (s.stormy_iff k t).mp hstormy
      rcases h with h | h | h
      · exact Bool.false_ne_true (h.symm.trans hlive)
      · exact Nat.not_le.mpr hstorm h
      · exact hwaves h

end Sys2Proof.Machine

end

section

namespace Sys2Proof.Machine

/-! ## The Teal group and its links (08 R160, R161, R163, R166) -/

/-! ### GROUP_FORM -/

/-- The checks of a GROUP_FORM page in their order. -/
def groupFormCheck (c : Cmd) (s : State) : Check :=
  let b := c.block
  allOf [s.reach dTEAL, inRange (u8 b 0) 1 255 0, inRange (u8 b 1) 2 4 1, need (u8 b 2 < u8 b 1) (badParam 2),
    need (u8 b 3 ≤ 1 && (u8 b 3 = 0 || u8 b 1 = 2)) (badParam 3), inRange (u32 b 4) 10 10000 4,
    need (s.tealState ≠ tealLost) peerLost, need (s.tealState = tealNone) busy]

/-- The fields of the page taken, FORMING entered with its deadline, and the other members told. -/
def State.groupForming (s : State) (c : Cmd) : State :=
  let b := c.block
  let t := (s.touch dTEAL).setReg R.TEAL_CTRL (w32 (u8 b 0 + u8 b 1 * 0x100 + u8 b 2 * 0x800 + u8 b 3 * 0x4000))
  ((t.setReg R.TEAL_STATE tealForming).modIndigo fun i => { i with
    forming := some (c.path, s.now + u32 b 4 * 1000000) }).tealAll 0 (.forming (u8 b 0) (u8 b 1))

theorem leNat_lt (b : Bytes) : leNat b < 256 ^ b.length := by
  induction b with
  | nil => exact Nat.one_pos
  | cons x t ih =>
    have hx := x.isLt
    rw [leNat, List.length_cons, Nat.pow_succ]
    omega

theorem length_slice (b : Bytes) (off k : Nat) : (slice b off k).length = k := by
  simp only [slice, List.length_append, List.length_take, List.length_drop, List.length_replicate]
  omega

theorem u8_le (b : Bytes) (off : Nat) : u8 b off ≤ 255 := by
  have h := leNat_lt (slice b off 1)
  rw [length_slice] at h
  exact Nat.le_of_lt_succ h

section Form
variable (c : Cmd) (s : State) (d : Option (Option Bytes))

theorem groupFormBody_of_error {e : CErr} (h : groupFormCheck c s = .error e) : groupFormBody c d s = .fail e := by
  unfold groupFormCheck at h
  simp only [groupFormBody, h]

theorem groupFormBody_of_ok (h : groupFormCheck c s = .ok ()) : groupFormBody c d s =
    if (s.groupForming c).allFormed then .done (s.groupForming c).groupUp [] else .wait (s.groupForming c) := by
  unfold groupFormCheck at h
  simp only [groupFormBody, h]
  rfl

/-- The last two checks: no peer is lost, and there is no group. -/
def State.groupFree (s : State) : Check := allOf [need (s.tealState ≠ tealLost) peerLost, need (s.tealState = tealNone) busy]

theorem State.groupFree_of_none {s : State} (h : s.tealState = tealNone) : s.groupFree = .ok () := by
  rw [State.groupFree, h]
  rfl

theorem State.groupFree_of_formed {s : State} (h : s.tealState = tealFormed) : s.groupFree = .error busy := by
  rw [State.groupFree, h]
  rfl

theorem State.groupFree_of_lost {s : State} (h : s.tealState = tealLost) : s.groupFree = .error peerLost := by
  rw [State.groupFree, h]
  rfl

/-- A page of good fields is left to the last two checks. -/
theorem groupFormCheck_of_fields (hreach : s.reach dTEAL = .ok ()) (hgroup : 1 ≤ u8 c.block 0) (hmin : 2 ≤ u8 c.block 1)
    (hmax : u8 c.block 1 ≤ 4) (hindex : u8 c.block 2 < u8 c.block 1) (hdual : u8 c.block 3 = 0) (hshort : 10 ≤ u32 c.block 4)
    (hlong : u32 c.block 4 ≤ 10000) : groupFormCheck c s = s.groupFree := by
  rw [groupFormCheck, allOf_cons_of_ok hreach, allOf_cons_of_ok (inRange_of_mem hgroup (u8_le _ _) _),
    allOf_cons_of_ok (inRange_of_mem hmin hmax _), allOf_cons_of_ok (need_of_true (decide_eq_true hindex) _),
    allOf_cons_of_ok (need_of_true (by simp [hdual]) _), allOf_cons_of_ok (inRange_of_mem hshort hlong _), State.groupFree]

end Form

/-! ### The timeouts of a group (08 R161, R163) -/

/-- What happens at an instant and not before it. -/
theorem next_at_instant {r : Res} {at' now : Nat} {t s : State} (h : r = .next (if at' ≤ now then t else s)) :
    (at' ≤ now → r = .next t) ∧ (now < at' → r = .next s) :=
  ⟨fun hdue => h.trans (congrArg Host.Outcome.next (if_pos hdue)),
    fun hearly => h.trans (congrArg Host.Outcome.next (if_neg (Nat.not_le.mpr hearly)))⟩

section Timeouts
variable (s : State)

theorem execGroupFormTimeout_of_none (h : s.indigo.forming = none) : execGroupFormTimeout s = .next s := by
  simp only [execGroupFormTimeout, h]

theorem execGroupFormTimeout_of_some {q dl : Nat} (h : s.indigo.forming = some (q, dl)) :
    execGroupFormTimeout s = .next (if dl ≤ s.now then s.groupGone.answerErr q peerLost 0 else s) := by
  simp only [execGroupFormTimeout, h]

variable (p : Nat)

theorem execGroupBindTimeout_of_none (h : s.indigo.bindWait.get? p = none) : execGroupBindTimeout p s = .next s := by
  unfold execGroupBindTimeout
  rw [h]

theorem execGroupBindTimeout_of_yielded {t : Nat} {l : Latch} (h : s.indigo.bindWait.get? p = some t) (hl : s.latch p = some l)
    (hstage : l.stage = .yielded) : execGroupBindTimeout p s = .next (
      if s.indigo.bound.foldl (fun k e => Nat.min k e.2.2) t + 100000000 ≤ s.now then
        (s.modIndigo fun i => { i with bindWait := i.bindWait.erase p, bound := [] }).answerErr p peerLost (s.respGen l.cmd)
      else s) := by
  simp only [execGroupBindTimeout, h, hl, hstage, and_true]

/-! ### Links -/

theorem execTealLinkUp_of_up (h : s.linkUp p = true) : execTealLinkUp p s = .next s := by
  simp only [execTealLinkUp, h, Bool.not_true, Bool.and_false, Bool.false_eq_true, if_false]

/-- A link that comes up sends what it held. -/
theorem execTealLinkUp_of_not_up (hteal : s.domUp dTEAL = true) (h : s.linkUp p = false) : execTealLinkUp p s = .next (
    (((s.setReg (R.TEAL_Pn_LINK p) 2).assertSource (416 + p)).modIndigo fun i =>
      { i with retrainAt := i.retrainAt.erase p }).releaseFrames p) := by
  simp only [execTealLinkUp, hteal, h, Bool.not_false, Bool.and_self, if_true]

theorem execTealRetrainTimeout_of_none (h : s.indigo.retrainAt.get? p = none) : execTealRetrainTimeout p s = .next s := by
  simp only [execTealRetrainTimeout, h]

theorem execTealRetrainTimeout_of_some {t : Nat} (h : s.indigo.retrainAt.get? p = some t) : execTealRetrainTimeout p s = .next (
    if t + 1000000 ≤ s.now then
      let u := ((s.setReg (R.TEAL_Pn_LINK p) 0).modIndigo fun i => { i with retrainAt := i.retrainAt.erase p }).releaseFrames p
      u.losePeers u.unreachable
    else s) := by
  simp only [execTealRetrainTimeout, h]

end Timeouts

/-! ### A frame received -/

@[simp] theorem State.fed_linkUp (s : State) (d p : Nat) : (s.fed d).linkUp p = s.linkUp p := by
  unfold State.fed
  split <;> rfl

/-- A frame of this member, sound and on a link that is up. -/
def State.takesFrame (s : State) (p : Nat) (f : TealFrame) : Bool :=
  s.linkUp p && s.domUp dTEAL && f.crcOk && !s.passesOn f

section Frame
variable (s : State) (p : Nat) (f : TealFrame)

/-- A frame at a device that is awake: what its link does with it, and where the member takes it the access that it asks for. -/
theorem exec_tealFrameReceived (hrun : s.clocksRun) {t : State} (h : workTealFrameReceived p f (s.fed dTEAL) = .next t) :
    exec (.tealFrameReceived p f) s = .next (if (s.fed dTEAL).takesFrame p f then t.serveTeal f else t) := by
  show execTealFrameReceived p f s = _
  rw [execTealFrameReceived, received_of_clocksRun _ _ s hrun]
  simp only [h, after]
  rfl

theorem State.passesOn_iff : s.passesOn f = true ↔ s.tealState ≠ tealNone ∧ f.dest ≠ s.groupIndex := by
  simp [State.passesOn]

theorem workTealFrameReceived_of_not_up (h : s.linkUp p = false) : workTealFrameReceived p f s = .next s := by
  simp only [workTealFrameReceived, h, Bool.not_false, Bool.true_or, if_true]

section Up
variable (hup : s.linkUp p = true) (hteal : s.domUp dTEAL = true)
include hup hteal

/-- A frame at a link that is up: its CRC, then whose it is (08 R160, R161). -/
theorem workTealFrameReceived_of_up : workTealFrameReceived p f s = .next (
    if !f.crcOk then
      ((s.assertSourceIf (s.reg (R.TEAL_Pn_REPLAY p) = 0) 420).bumpSat (R.TEAL_Pn_CRC_ERR p)).bumpSat (R.TEAL_Pn_REPLAY p)
    else if s.passesOn f then
      (s.setReg64 (R.TEAL_Pn_FWD_LO p) (s.reg64 (R.TEAL_Pn_FWD_LO p) + 64)).putFrame (1 - p) f.source f.dest f.id f.msg
    else (s.setReg64 (R.TEAL_Pn_RX_LO p) (s.reg64 (R.TEAL_Pn_RX_LO p) + 64)).hearFrame p f) := by
  simp only [workTealFrameReceived, hup, hteal, Bool.not_true, Bool.or_self, Bool.false_eq_true, if_false]

end Up

section Received
variable (hrun : s.clocksRun)
include hrun

theorem exec_tealFrameReceived_of_not_up (h : s.linkUp p = false) :
    exec (.tealFrameReceived p f) s = .next (s.fed dTEAL) := by
  have h' : (s.fed dTEAL).linkUp p = false := (s.fed_linkUp dTEAL p).trans h
  rw [exec_tealFrameReceived s p f hrun (workTealFrameReceived_of_not_up _ p f h'), State.takesFrame, h']
  simp only [Bool.false_and, Bool.false_eq_true, if_false]

variable (hup : s.linkUp p = true) (hteal : s.domUp dTEAL = true)
include hup hteal

/-- Whether the member takes a frame rests on its CRC and on whose it is. -/
theorem exec_tealFrameReceived_of_up {t : State} (h : workTealFrameReceived p f (s.fed dTEAL) = .next t) :
    exec (.tealFrameReceived p f) s = .next (if f.crcOk && !(s.fed dTEAL).passesOn f then t.serveTeal f else t) := by
  have htakes : (s.fed dTEAL).takesFrame p f = (f.crcOk && !(s.fed dTEAL).passesOn f) := by
    simp only [State.takesFrame, State.fed_linkUp, State.fed_domUp, hup, hteal, Bool.true_and]
  rw [exec_tealFrameReceived s p f hrun h, htakes]

/-- A frame that fails its CRC is counted and replayed, and the first replay is told. -/
theorem exec_tealFrameReceived_of_bad_crc (hcrc : f.crcOk = false) :
    let g := s.fed dTEAL
    exec (.tealFrameReceived p f) s = .next (((g.assertSourceIf (g.reg (R.TEAL_Pn_REPLAY p) = 0) 420).bumpSat
      (R.TEAL_Pn_CRC_ERR p)).bumpSat (R.TEAL_Pn_REPLAY p)) := by
  have hwork := workTealFrameReceived_of_up _ p f ((s.fed_linkUp dTEAL p).trans hup) ((s.fed_domUp dTEAL dTEAL).trans hteal)
  rw [hcrc, Bool.not_false, if_pos rfl] at hwork
  rw [exec_tealFrameReceived_of_up s p f hrun hup hteal hwork, hcrc, Bool.false_and, if_neg Bool.false_ne_true]

variable (hcrc : f.crcOk = true)
include hcrc

/-- A frame for another member goes on by the other port. -/
theorem exec_tealFrameReceived_of_other (hpass : (s.fed dTEAL).passesOn f = true) :
    let g := s.fed dTEAL
    exec (.tealFrameReceived p f) s = .next ((g.setReg64 (R.TEAL_Pn_FWD_LO p) (g.reg64 (R.TEAL_Pn_FWD_LO p) + 64)).putFrame
      (1 - p) f.source f.dest f.id f.msg) := by
  have hwork := workTealFrameReceived_of_up _ p f ((s.fed_linkUp dTEAL p).trans hup) ((s.fed_domUp dTEAL dTEAL).trans hteal)
  rw [hcrc, Bool.not_true, if_neg Bool.false_ne_true, hpass, if_pos rfl] at hwork
  rw [exec_tealFrameReceived_of_up s p f hrun hup hteal hwork, hcrc, hpass, Bool.not_true, Bool.and_false,
    if_neg Bool.false_ne_true]

/-- A frame for this member is heard, and served where it asks for an access. -/
theorem exec_tealFrameReceived_of_own (hpass : (s.fed dTEAL).passesOn f = false) :
    let g := s.fed dTEAL
    exec (.tealFrameReceived p f) s =
      .next (((g.setReg64 (R.TEAL_Pn_RX_LO p) (g.reg64 (R.TEAL_Pn_RX_LO p) + 64)).hearFrame p f).serveTeal f) := by
  have hwork := workTealFrameReceived_of_up _ p f ((s.fed_linkUp dTEAL p).trans hup) ((s.fed_domUp dTEAL dTEAL).trans hteal)
  rw [hcrc, Bool.not_true, if_neg Bool.false_ne_true, hpass, if_neg Bool.false_ne_true] at hwork
  rw [exec_tealFrameReceived_of_up s p f hrun hup hteal hwork, hcrc, hpass, Bool.not_false, Bool.and_self, if_pos rfl]

end Received

/-! ### A frame put on a link -/

theorem State.putFrame_of_up (source dest id : Nat) (m : Option TealMsg) (h : s.linkOf p = 2) :
    s.putFrame p source dest id m = (s.send (.teal p source dest id m)).setReg64 (R.TEAL_Pn_TX_LO p)
      (s.reg64 (R.TEAL_Pn_TX_LO p) + if source = s.groupIndex then 64 else 0) := if_pos (decide_eq_true h)

theorem State.putFrame_of_not_up (source dest id : Nat) (m : Option TealMsg) (h : s.linkOf p ≠ 2) :
    s.putFrame p source dest id m = if s.linkOf p = 1 then
      s.modIndigo fun i => { i with held := i.held ++ [(p, source, dest, id, m)] } else s :=
  if_neg fun hup => h (of_decide_eq_true hup)

end Frame

/-- Settles O37: the page by its checks and by who has formed, each timeout by its instant, each link by its state, and a frame
by its CRC and its member. -/
theorem groupsAndTealLinks : Obligations.GroupsAndTealLinks := by
  unfold Obligations.GroupsAndTealLinks
  refine ⟨fun s p l => ⟨fun hturn hreach hgroup hmin hmax hindex hdual hshort hlong => ?form,
    fun q dl h => next_at_instant (execGroupFormTimeout_of_some s h), execGroupFormTimeout_of_none s,
    fun t h hl hstage => next_at_instant (execGroupBindTimeout_of_yielded s p h hl hstage), execGroupBindTimeout_of_none s p⟩,
    fun s p _ => ⟨execTealLinkUp_of_not_up s p, execTealLinkUp_of_up s p, fun h => congrArg Host.Outcome.next (if_pos h),
      fun h => congrArg Host.Outcome.next (if_neg (Bool.eq_false_iff.mp h)),
      fun t h => next_at_instant (execTealRetrainTimeout_of_some s p h), execTealRetrainTimeout_of_none s p,
      fun f hrun hup hteal => ⟨exec_tealFrameReceived_of_bad_crc s p f hrun hup hteal, fun hcrc hgroup hdest => ?other,
        fun hcrc hown => ?own⟩,
      exec_tealFrameReceived_of_not_up s p, fun source dest id m => ⟨s.putFrame_of_up p source dest id m, fun h => ?held,
        fun hheld hup => ?lost⟩⟩⟩
  case form =>
    have hcheck := groupFormCheck_of_fields l.cmd s hreach hgroup hmin hmax hindex hdual hshort hlong
    have fails {e : CErr} (h : s.groupFree = .error e) :
        exec (.groupForm p) s = .next (s.answerErr p e (s.respGen l.cmd)) :=
      congrArg Host.Outcome.next (runPage_fail_of_turn hturn (groupFormBody_of_error l.cmd s none (hcheck.trans h)))
    refine ⟨fun hnone => ?none, fun h => fails (State.groupFree_of_formed h), fun h => fails (State.groupFree_of_lost h)⟩
    case none =>
      have hbody := groupFormBody_of_ok l.cmd s none (hcheck.trans (State.groupFree_of_none hnone))
      exact ⟨fun h => congrArg Host.Outcome.next (runPage_wait_of_turn hturn (hbody.trans (if_neg (Bool.eq_false_iff.mp h)))),
        fun h => congrArg Host.Outcome.next (runPage_done_of_turn hturn (hbody.trans (if_pos h)))⟩
  case other =>
    exact exec_tealFrameReceived_of_other s p f hrun hup hteal hcrc (((s.fed dTEAL).passesOn_iff f).mpr ⟨hgroup, hdest⟩)
  case own =>
    have hpass : (s.fed dTEAL).passesOn f = false := Bool.eq_false_iff.mpr fun hpass =>
      have ⟨hgroup, hdest⟩ := ((s.fed dTEAL).passesOn_iff f).mp hpass
      hown.elim hgroup hdest
    exact exec_tealFrameReceived_of_own s p f hrun hup hteal hcrc hpass
  case held => exact (s.putFrame_of_not_up p source dest id m (by omega)).trans (if_pos h)
  case lost => exact (s.putFrame_of_not_up p source dest id m hup).trans (if_neg hheld)

end Sys2Proof.Machine

end

section

namespace Sys2Proof.Machine

/-! ## Pages that need no generation

A page's row carries out its command by `runPage` on the page's body, so each clause is `pageDoes` (a plain page) or
`flashPageDoes` (a page that needs the flash) with the page's opcode, checks and effect (10 R198, 11 R223). -/

/-! ### The counters that a register write zeroes -/

theorem exec_sepSnCntClr_of_one (s : State) (k : Nat) (v : Word) (h : bit v 0 = true) :
    exec (.sepSnCntClr k v) s = .next (s.clearSurf k) := congrArg Host.Outcome.next (if_pos h)

theorem exec_sepSnCntClr_of_zero (s : State) (k : Nat) (v : Word) (h : bit v 0 = false) :
    exec (.sepSnCntClr k v) s = .next s := congrArg Host.Outcome.next (if_neg (Bool.eq_false_iff.mp h))

theorem exec_virRnCntClr_of_one (s : State) (r : Nat) (v : Word) (h : bit v 0 = true) :
    exec (.virRnCntClr r v) s = .next (s.clearRule r) := congrArg Host.Outcome.next (if_pos h)

theorem exec_virRnCntClr_of_zero (s : State) (r : Nat) (v : Word) (h : bit v 0 = false) :
    exec (.virRnCntClr r v) s = .next s := congrArg Host.Outcome.next (if_neg (Bool.eq_false_iff.mp h))

/-! ### The pages by family -/

/-- Settles O8: each page by its body, and the counters of a surface by the bit written. -/
theorem timePortProjectionAndFeaturePages : Obligations.TimePortProjectionAndFeaturePages := by
  unfold Obligations.TimePortProjectionAndFeaturePages
  refine ⟨?time, ?ports, ?projection, ?features⟩
  case time =>
    exact ⟨pageDoes .timeGet _ _ _ fun _ _ => rfl, pageDoes .timeSetServo _ _ _ fun _ _ => rfl,
      pageDoes .ptpSetPort _ _ _ fun _ _ => rfl, pageDoes .timeStep _ _ _ fun _ _ => rfl,
      pageDoes .timeSetPins _ _ _ fun _ _ => rfl, pageDoes .timeReadCaptures _ _ _ fun _ _ => rfl⟩
  case ports =>
    exact ⟨pageDoes .evportAssign _ _ _ fun _ _ => rfl, pageDoes .evportGetStats _ _ _ fun _ _ => rfl,
      pageDoes .sensorSetTrigger _ _ _ fun _ _ => rfl⟩
  case projection =>
    exact ⟨pageDoes .projSetRotor _ _ _ fun _ _ => rfl, pageDoes .projSetImu _ _ _ fun _ _ => rfl,
      pageDoes .projReleaseMap _ _ _ fun _ _ => rfl, pageDoes .projGetState _ _ _ fun _ _ => rfl⟩
  case features =>
    exact ⟨pageDoes .featSetTick _ _ _ fun _ _ => rfl, pageDoes .featGetStats _ _ _ fun _ _ => rfl,
      fun s k v => ⟨exec_sepSnCntClr_of_one s k v, exec_sepSnCntClr_of_zero s k v⟩⟩

/-- Settles O26: each page by its body, and the counters of a rule by the bit written. -/
theorem filterFusionInferenceAndGroupPages : Obligations.FilterFusionInferenceAndGroupPages := by
  unfold Obligations.FilterFusionInferenceAndGroupPages
  refine ⟨?filter, ?fusion, ?inference, ?group⟩
  case filter =>
    exact ⟨pageDoes .filterSetPort _ _ _ fun _ _ => rfl, pageDoes .filterAssignChannel _ _ _ fun _ _ => rfl,
      pageDoes .filterFreezeDc _ _ _ fun _ _ => rfl, pageDoes .filterSetSync _ _ _ fun _ _ => rfl,
      pageDoes .filterGetStats _ _ _ fun _ _ => rfl⟩
  case fusion =>
    exact ⟨pageDoes .fuseFlush _ _ _ fun _ _ => rfl, pageDoes .fuseGetStats _ _ _ fun _ _ => rfl,
      fun s r v => ⟨exec_virRnCntClr_of_one s r v, exec_virRnCntClr_of_zero s r v⟩⟩
  case inference =>
    exact ⟨pageDoes .inferUnloadModel _ _ _ fun _ _ => rfl, pageDoes .inferGetStats _ _ _ fun _ _ => rfl,
      pageDoes .approxSetSpeculation _ _ _ fun _ _ => rfl, pageDoes .approxSetVerify _ _ _ fun _ _ => rfl,
      pageDoes .approxGetStats _ _ _ fun _ _ => rfl⟩
  case group =>
    exact ⟨pageDoes .groupDissolve _ _ _ fun _ _ => rfl, pageDoes .groupGetStatus _ _ _ fun _ _ => rfl⟩

/-- Settles O41: the plain pages by their bodies, and those that need the flash by their bodies around its operation. -/
theorem systemAndFirmwarePages : Obligations.SystemAndFirmwarePages := by
  unfold Obligations.SystemAndFirmwarePages
  exact ⟨pageDoes .identify _ _ _ fun _ _ => rfl, pageDoes .getVersion _ _ _ fun _ _ => rfl,
    pageDoes .reset _ _ _ fun _ _ => rfl, pageDoes .funcSetLimits _ _ _ fun _ _ => rfl,
    pageDoes .ctxSetRing _ _ _ fun _ _ => rfl, pageDoes .ctxGetInfo _ _ _ fun _ _ => rfl,
    pageDoes .fwGetSlots _ _ _ fun _ _ => rfl, flashPageDoes .ethSetHost _ _ _ _ fun _ _ => rfl,
    flashPageDoes .memSetEcc _ _ _ _ fun _ _ => rfl, flashPageDoes .fwBegin _ _ _ _ fun _ _ => rfl,
    flashPageDoes .fwFinish _ _ _ _ fun _ _ => rfl, flashPageDoes .fwCommit _ _ _ _ fun _ _ => rfl,
    flashPageDoes .compatOverride _ _ _ _ fun _ _ => rfl⟩

/-- Settles O48: the plain pages by their bodies, and FAULT_ERASE_LOG by its body around the erasure. -/
theorem guardAndFaultPages : Obligations.GuardAndFaultPages := by
  unfold Obligations.GuardAndFaultPages
  exact ⟨pageDoes .accessSetEntry _ _ _ fun _ _ => rfl, pageDoes .accessGetFaults _ _ _ fun _ _ => rfl,
    pageDoes .accessCtxViolations _ _ _ fun _ _ => rfl, pageDoes .faultGetStatus _ _ _ fun _ _ => rfl,
    pageDoes .diagSelftest _ _ _ fun _ _ => rfl, pageDoes .debugChallenge _ _ _ fun _ _ => rfl,
    pageDoes .debugLock _ _ _ fun _ _ => rfl, flashPageDoes .faultEraseLog _ _ _ _ fun _ _ => rfl⟩

end Sys2Proof.Machine

end

section

namespace Sys2Proof.Machine

/-! ## The mailbox: doorbell, fetches and responses (10 R193, R195, R196, R197, R205) -/

/-! ### DOORBELL -/

section Doorbell
variable (s : State) (fn : Nat) (v : Word)

theorem workDoorbell_of_absent (h : s.fnEnabled fn = false) : workDoorbell fn v s = .next s := by
  simp only [workDoorbell, h, Bool.not_false, if_true]

variable (hen : s.fnEnabled fn = true)
include hen

theorem workDoorbell_of_ignored (h : s.busyFn fn = true ∨ s.sys.ready = false ∨ s.ethOwned fn = true) :
    workDoorbell fn v s =
      .next ((s.setFunc fn { s.func fn with dbIgnored := true }).bumpSat (R.HIF_Fn_DB_IGN fn)) := by
  have hcond : (s.busyFn fn || !s.sys.ready || s.ethOwned fn) = true := by
    rcases h with h | h | h <;> simp [h]
  simp only [workDoorbell, hen, Bool.not_true, Bool.false_eq_true, if_false, hcond, if_true]

theorem workDoorbell_of_taken (hbusy : s.busyFn fn = false) (hready : s.sys.ready = true) (heth : s.ethOwned fn = false) :
    workDoorbell fn v s = .next (s.latchCmd fn (parseCmd fn fn (s.func fn).cmdArea v s.now)) := by
  simp only [workDoorbell, hen, hbusy, hready, heth, Bool.not_true, Bool.or_self, Bool.false_eq_true, if_false]

end Doorbell

/-- A command latched in the mailbox of a function: its stage, its order, its fetch, and the counts of the function. -/
theorem State.latchCmd_of_function (s : State) {p : Nat} (hp : p ≠ ethPath) (c : Cmd) :
    let l : Latch := ⟨c, s.firstStage c, false, s.host.latched⟩
    let t := (if s.firstStage c = .fetch then s.dmaAsk p (u64 c.block 0) c.paramLen else s).modHost fun h =>
      { h with latched := h.latched + 1 }
    s.latchCmd p c = ((((t.setFunc p { t.func p with latch := some l, respValid := false, dbIgnored := false }).setReg
      (R.HIF_Fn_LAST_SEQ c.fn) c.seq).bump (R.HIF_Fn_CMDS c.fn)).assertSource 448).usePoison c (s.firstStage c) := by
  simp only [State.latchCmd, if_neg hp]

/-! ### What a fetch brings (10 R196 steps 6 and 7, R197) -/

section Fetch
variable {s : State} {p : Nat} {l : Latch} (hl : s.latch p = some l) {d : Option Bytes}
include hl

theorem execParamIndirectFetchDone_of_other_stage (h : l.stage ≠ .fetch) :
    execParamIndirectFetchDone p d s = .next s := by
  simp only [execParamIndirectFetchDone, hl]
  exact if_pos h

theorem execParamIndirectFetchDone_of_no_block (hstage : l.stage = .fetch)
    (hread : s.dmaRead p (u64 l.cmd.block 0) l.cmd.paramLen d = none) : execParamIndirectFetchDone p d s =
      .next (((s.fetchFailed p d).countDmaErr l.cmd.fn).answerErr p dmaError (s.respGen l.cmd)) := by
  simp only [execParamIndirectFetchDone, hl, hstage, ne_eq, not_true_eq_false, if_false, hread]

section Block
variable {b : Bytes} (hstage : l.stage = .fetch) (hread : s.dmaRead p (u64 l.cmd.block 0) l.cmd.paramLen d = some b)
include hstage hread

theorem execParamIndirectFetchDone_of_bad_length {e : CErr} (h : fetchedLength l.cmd b = .error e) :
    execParamIndirectFetchDone p d s = .next (s.answerErr p e (s.respGen l.cmd)) := by
  simp only [execParamIndirectFetchDone, hl, hstage, ne_eq, not_true_eq_false, if_false, hread, h]

/-- A block of the length it implies becomes the command's, unless the command uses a poisoned word. -/
theorem execParamIndirectFetchDone_of_good_length (h : fetchedLength l.cmd b = .ok ()) :
    let c := { l.cmd with block := b }
    execParamIndirectFetchDone p d s = .next (
      if s.poisonCheck c then (s.usePoison c (.answered ⟨cHwFault, 2, 0, []⟩)).answerErr p ⟨cHwFault, 2⟩ (s.respGen c)
      else s.setLatch p (some { l with cmd := c, stage := .ready })) := by
  simp only [execParamIndirectFetchDone, hl, hstage, ne_eq, not_true_eq_false, if_false, hread, h]
  exact (apply_ite Host.Outcome.next _ _ _).symm

end Block

theorem execCommandDmaFetchDone_of_yielded (h : l.stage = .yielded) : execCommandDmaFetchDone p d s =
    .next ((s.fetchFailed p d).setLatch p (some { l with stage := .resumed d })) := by
  simp only [execCommandDmaFetchDone, hl]
  exact if_pos h

theorem execCommandDmaFetchDone_of_other_stage (h : l.stage ≠ .yielded) : execCommandDmaFetchDone p d s = .next s := by
  simp only [execCommandDmaFetchDone, hl]
  exact if_neg h

/-! ### RESPONSE_POST -/

/-- An answered command leaves its path, by the path that it came on unless an FLR abandoned it, and what follows its response
follows. -/
theorem exec_responsePost_of_answered {r : Resp} (hrun : s.clocksRun) (h : l.stage = .answered r) :
    exec (.responsePost p) s = .next (
      (if l.abandoned then s.setLatch p none else if p = ethPath then s.postEth l.cmd r
        else s.postMailbox p l.cmd r).afterPost l.cmd r) := by
  refine (clocked_of_clocksRun (workResponsePost p) s hrun).trans ?_
  simp only [workResponsePost, hl, h]
  split_ifs <;> rfl

end Fetch

/-- Settles O39: the doorbell by what it finds of its function, a fetch by what it brought for the command at its stage, and
a response by whether its command was abandoned and by its path. -/
theorem mailboxAndDma : Obligations.MailboxAndDma := by
  unfold Obligations.MailboxAndDma
  refine ⟨fun s fn v hreach => ?doorbell, fun s p d l hl => ?fetch, fun s p l r hrun hl hstage => ?response⟩
  case doorbell =>
    have arrives : exec (.doorbell fn v) s = workDoorbell fn v s := hosted_of_hostReach _ s hreach
    rw [arrives]
    exact ⟨workDoorbell_of_absent s fn v, fun hen => workDoorbell_of_ignored s fn v hen,
      fun hen hbusy hready heth hfn => (workDoorbell_of_taken s fn v hen hbusy hready heth).trans
        (congrArg Host.Outcome.next (s.latchCmd_of_function (Nat.ne_of_lt hfn) _))⟩
  case fetch =>
    refine ⟨execParamIndirectFetchDone_of_other_stage hl, execParamIndirectFetchDone_of_no_block hl,
      fun b hstage hread => ?block, execCommandDmaFetchDone_of_yielded hl, execCommandDmaFetchDone_of_other_stage hl⟩
    case block =>
      refine ⟨fun e => execParamIndirectFetchDone_of_bad_length hl hstage hread, fun hlen hpoison => ?_,
        fun hlen hpoison => ?_⟩
      · exact (execParamIndirectFetchDone_of_good_length hl hstage hread hlen).trans
          (congrArg Host.Outcome.next (if_neg (Bool.eq_false_iff.mp hpoison)))
      · exact (execParamIndirectFetchDone_of_good_length hl hstage hread hlen).trans
          (congrArg Host.Outcome.next (if_pos hpoison))
  case response =>
    rw [exec_responsePost_of_answered hl hrun hstage]
    refine ⟨fun habandoned => ?_, fun habandoned hp => ?_, fun habandoned hp => ?_⟩
    · rw [if_pos habandoned]
    · rw [if_neg (Bool.eq_false_iff.mp habandoned), if_pos hp]
    · rw [if_neg (Bool.eq_false_iff.mp habandoned), if_neg hp]
      rfl

end Sys2Proof.Machine

end

section

namespace Sys2Proof.Machine

/-! ## Firmware data (10 R197, 11 R225, R227) -/

/-! ### A page that goes on after its transfer (10 R197) -/

section Resumed
variable {op : Nat} {b : PageBody} {p : Nat} {s t : State} {l : Latch} {d : Option Bytes}
  (hl : s.latch p = some l) (hs : l.stage = .resumed d) (ho : l.cmd.opcode = op)
include hl hs ho

theorem runPage_resumed_failWith {e : CErr} (hb : b l.cmd (some d) s = .failWith t e) :
    runPage op b p s = t.answerErr p e (t.respGen l.cmd) := by
  simp [runPage, hl, ho, hs, hb]

theorem runPage_resumed_wait (hb : b l.cmd (some d) s = .wait t) : runPage op b p s = t.toStage p .yielded := by
  simp [runPage, hl, ho, hs, hb]

end Resumed

/-! ### The end of a flash operation (11 R223) -/

section Flash
variable (finish : Cmd → State → State × Bytes) (c : Cmd) (d : Option (Option Bytes)) {s : State} {j : FlashJob}
  (hj : s.sys.flashJob = some j)
include hj

theorem flashResume_of_done (h : s.sys.flashDone = some true) :
    let t := s.modSys fun y => { y with flashJob := none, flashDone := none }
    flashResume finish c d s = .done (finish c t).1 (finish c t).2 := by
  simp only [flashResume, hj, h, if_true]

theorem flashResume_of_failed (h : s.sys.flashDone = some false) : flashResume finish c d s =
    .failWith ((s.modSys fun y => { y with flashJob := none, flashDone := none }).flashError j true) blockFault := by
  simp only [flashResume, hj, h, Bool.false_eq_true, if_false]

end Flash

/-! ### Checks -/

/-- A reserved field of zero bytes passes (00 R10). -/
theorem reserved_of_slice_eq_zeros {b : Bytes} {off n : Nat} (h : slice b off n = List.replicate n 0) :
    reserved b off n = .ok () := by
  simp [reserved, need, h]

/-! ### FW_WRITE -/

/-- The checks of an FW_WRITE page in their order. -/
def fwWriteCheck (c : Cmd) (s : State) : Check :=
  let b := c.block
  allOf [inRange (u8 b 0) 1 3 0, reserved b 1 3,
    need (u32 b 4 % 65536 = 0 && u32 b 4 < (region (u8 b 0)).2) (badParam 4), inRange (u32 b 8) 1 65536 8, reserved b 0x0C 4,
    need (u64 b 0x10 % 64 = 0) (badParam 0x10), need s.sys.session.isSome busy]

/-- The last check of an FW_WRITE page: an update is open. -/
def State.sessionOpen (s : State) : Check := allOf [need s.sys.session.isSome busy]

theorem State.sessionOpen_of_none {s : State} (h : s.sys.session = none) : s.sessionOpen = .error busy := by
  rw [State.sessionOpen, h]
  rfl

theorem State.sessionOpen_of_some {s : State} {k : Nat} (h : s.sys.session = some k) : s.sessionOpen = .ok () := by
  rw [State.sessionOpen, h]
  rfl

/-- A page of good fields is left to the last check. -/
theorem fwWriteCheck_of_fields {c : Cmd} (s : State) (hkind : u8 c.block 0 = 1 ∨ u8 c.block 0 = 2 ∨ u8 c.block 0 = 3)
    (hres : slice c.block 1 3 = [0, 0, 0]) (hsector : u32 c.block 4 % 65536 = 0)
    (hregion : u32 c.block 4 < (region (u8 c.block 0)).2) (hmin : 1 ≤ u32 c.block 8) (hmax : u32 c.block 8 ≤ 65536)
    (hres' : slice c.block 0x0C 4 = [0, 0, 0, 0]) (halign : u64 c.block 0x10 % 64 = 0) :
    fwWriteCheck c s = s.sessionOpen := by
  rw [fwWriteCheck, allOf_cons_of_ok (inRange_of_mem (by omega) (by omega) _),
    allOf_cons_of_ok (reserved_of_slice_eq_zeros hres), allOf_cons_of_ok (need_of_true (by simp [hsector, hregion]) _),
    allOf_cons_of_ok (inRange_of_mem hmin hmax _), allOf_cons_of_ok (reserved_of_slice_eq_zeros hres'),
    allOf_cons_of_ok (need_of_true (decide_eq_true halign) _), State.sessionOpen]

section Write
variable {c : Cmd} {s : State}

theorem fwWriteBody_of_error {e : CErr} (h : fwWriteCheck c s = .error e) : fwWriteBody c none s = .fail e := by
  unfold fwWriteCheck at h
  simp only [fwWriteBody, h]

theorem fwWriteBody_asks (h : fwWriteCheck c s = .ok ()) :
    fwWriteBody c none s = .wait (s.dmaAsk c.path (u64 c.block 0x10) (u32 c.block 8)) := by
  unfold fwWriteCheck at h
  simp only [fwWriteBody, h]

/-- With its flash operation started the page is at the end of that operation. -/
theorem fwWriteBody_of_job (d : Option Bytes) (h : s.sys.flashJob.isSome = true) :
    fwWriteBody c (some d) s = flashResume (fun _ s => (s, [])) c (some d) s := by
  simp only [fwWriteBody, h, if_true]

variable {d : Option Bytes} (hjob : s.sys.flashJob = none) (h : fwWriteCheck c s = .ok ())
include hjob h

theorem fwWriteBody_of_no_data (hread : s.dmaRead c.path (u64 c.block 0x10) (u32 c.block 8) d = none) :
    fwWriteBody c (some d) s = .failWith (s.countDmaErr c.fn) dmaError := by
  unfold fwWriteCheck at h
  simp only [fwWriteBody, hjob, Option.isSome_none, Bool.false_eq_true, if_false, h, hread]

/-- The data that came are to be programmed in their sector of the open slot, which is erased first. -/
theorem fwWriteBody_programs {k : Nat} {data : Bytes} (hk : s.sys.session = some k)
    (hread : s.dmaRead c.path (u64 c.block 0x10) (u32 c.block 8) d = some data) :
    let a := k * flCs1 + (region (u8 c.block 0)).1 + u32 c.block 4
    fwWriteBody c (some d) s =
      .wait (s.modSys fun y => { y with flashJob := some ⟨[(a, 0x10000)], [(a, data)]⟩, flashDone := none }) := by
  unfold fwWriteCheck at h
  simp only [fwWriteBody, hjob, Option.isSome_none, Bool.false_eq_true, if_false, h, hread]
  rw [hk]
  rfl

end Write

/-! ### FW_HOST_LOAD -/

/-- The checks of an FW_HOST_LOAD page in their order. -/
def hostLoadCheck (c : Cmd) (s : State) : Check :=
  allOf [need (u64 c.block 0 % 64 = 0) (badParam 0), inRange (u32 c.block 8) 768 10551296 8, reserved c.block 0x0C 4,
    need (s.sys.running = 3) busy]

/-- The last check of an FW_HOST_LOAD page: the device is in ROM recovery. -/
def State.inRomRecovery (s : State) : Check := allOf [need (s.sys.running = 3) busy]

theorem State.inRomRecovery_of_rom {s : State} (h : s.sys.running = 3) : s.inRomRecovery = .ok () := by
  rw [State.inRomRecovery, h]
  rfl

theorem State.inRomRecovery_of_other {s : State} (h : s.sys.running ≠ 3) : s.inRomRecovery = .error busy :=
  allOf_cons_of_error (need_of_false (decide_eq_false h) _) _

/-- A page of good fields is left to the last check. -/
theorem hostLoadCheck_of_fields {c : Cmd} (s : State) (halign : u64 c.block 0 % 64 = 0) (hmin : 768 ≤ u32 c.block 8)
    (hmax : u32 c.block 8 ≤ 10551296) (hres : slice c.block 0x0C 4 = [0, 0, 0, 0]) :
    hostLoadCheck c s = s.inRomRecovery := by
  rw [hostLoadCheck, allOf_cons_of_ok (need_of_true (decide_eq_true halign) _),
    allOf_cons_of_ok (inRange_of_mem hmin hmax _), allOf_cons_of_ok (reserved_of_slice_eq_zeros hres), State.inRomRecovery]

/-- The place of the second image of a set. -/
def secondImage (d : Bytes) : Nat := padded d 0

/-- The place of the third image of a set. -/
def thirdImage (d : Bytes) : Nat := secondImage d + padded d (secondImage d)

/-- The length that the images of a set add up to. -/
def imagesLength (d : Bytes) : Nat := thirdImage d + padded d (thirdImage d)

section HostLoad
variable {c : Cmd} {s : State}

theorem hostLoadBody_of_error {d : Option (Option Bytes)} {e : CErr} (h : hostLoadCheck c s = .error e) :
    hostLoadBody c d s = .fail e := by
  unfold hostLoadCheck at h
  simp only [hostLoadBody, h]

variable (h : hostLoadCheck c s = .ok ())
include h

theorem hostLoadBody_asks : hostLoadBody c none s = .wait (s.dmaAsk c.path (u64 c.block 0) (u32 c.block 8)) := by
  unfold hostLoadCheck at h
  simp only [hostLoadBody, h]

variable {d : Option Bytes}

theorem hostLoadBody_of_no_data (hread : s.dmaRead c.path (u64 c.block 0) (u32 c.block 8) d = none) :
    hostLoadBody c (some d) s = .failWith (s.countDmaErr c.fn) dmaError := by
  unfold hostLoadCheck at h
  simp only [hostLoadBody, h, hread]

variable {set : Bytes} (hread : s.dmaRead c.path (u64 c.block 0) (u32 c.block 8) d = some set)
include hread

theorem hostLoadBody_of_other_length (hlen : imagesLength set ≠ u32 c.block 8) :
    hostLoadBody c (some d) s = .fail (badParam 0) := by
  unfold hostLoadCheck at h
  simp only [hostLoadBody, h, hread]
  exact if_pos hlen

variable (hlen : imagesLength set = u32 c.block 8)
include hlen

theorem hostLoadBody_of_bad_verdict {e : CErr} (hverdict : verdictCheck (s.board.setVerdict (imageAt set 0)
    (imageAt set (secondImage set)) (imageAt set (thirdImage set))) = .error e) :
    hostLoadBody c (some d) s = .fail e := by
  unfold thirdImage secondImage at hverdict
  unfold imagesLength thirdImage secondImage at hlen
  unfold hostLoadCheck at h
  simp only [hostLoadBody, h, hread, hlen, ne_eq, not_true_eq_false, if_false, hverdict]

/-- A set that passes is kept for the start of Belrix. -/
theorem hostLoadBody_of_good_verdict (hverdict : verdictCheck (s.board.setVerdict (imageAt set 0)
    (imageAt set (secondImage set)) (imageAt set (thirdImage set))) = .ok ()) :
    hostLoadBody c (some d) s = .done (s.modSys fun z => { z with
      hostLoad := some ((imageAt set (secondImage set)).version, (imageAt set (thirdImage set)).version,
        manifestPairs (imageAt set 0).body) }) [] := by
  unfold thirdImage secondImage at hverdict
  unfold imagesLength thirdImage secondImage at hlen
  unfold hostLoadCheck at h
  simp only [hostLoadBody, h, hread, hlen, ne_eq, not_true_eq_false, if_false, hverdict]
  rfl

end HostLoad

/-- Settles O42: both pages by their bodies, before their transfer, with what it brought, and after the flash operation. -/
theorem firmwareData : Obligations.FirmwareData := by
  unfold Obligations.FirmwareData
  intro s p l
  refine ⟨fun hkind hres hsector hregion hmin hmax hres' halign => ?write, fun r j hl hstage hop hj => ?ended,
    fun halign hmin hmax hres => ?load⟩
  case write =>
    have hcheck := fwWriteCheck_of_fields s hkind hres hsector hregion hmin hmax hres' halign
    refine ⟨fun hturn hnone => ?closed, fun k hk => ?opened⟩
    case closed =>
      exact congrArg Host.Outcome.next
        (runPage_fail_of_turn hturn (fwWriteBody_of_error (hcheck.trans (State.sessionOpen_of_none hnone))))
    case opened =>
      have hok := hcheck.trans (State.sessionOpen_of_some hk)
      exact ⟨fun hturn => congrArg Host.Outcome.next (runPage_wait_of_turn hturn (fwWriteBody_asks hok)),
        fun r hl hstage hop hjob => ⟨fun d hread => congrArg Host.Outcome.next
            (runPage_resumed_wait hl hstage hop (fwWriteBody_programs hjob hok hk hread)),
          fun hread => congrArg Host.Outcome.next
            (runPage_resumed_failWith hl hstage hop (fwWriteBody_of_no_data hjob hok hread))⟩⟩
  case ended =>
    have hbody := fwWriteBody_of_job (c := l.cmd) r (Option.isSome_of_eq_some hj)
    exact ⟨fun hdone => congrArg Host.Outcome.next (runPage_resumed_done _ _ p s _ l r _ hl hop hstage
        (hbody.trans (flashResume_of_done _ _ _ hj hdone))),
      fun hfailed => congrArg Host.Outcome.next (runPage_resumed_failWith hl hstage hop
        (hbody.trans (flashResume_of_failed _ _ _ hj hfailed)))⟩
  case load =>
    have hcheck := hostLoadCheck_of_fields s halign hmin hmax hres
    refine ⟨fun hturn hother => ?other, fun hturn hrom => ?asks, fun r hl hstage hop hrom => ?came⟩
    case other =>
      exact congrArg Host.Outcome.next
        (runPage_fail_of_turn hturn (hostLoadBody_of_error (hcheck.trans (State.inRomRecovery_of_other hother))))
    case asks =>
      exact congrArg Host.Outcome.next
        (runPage_wait_of_turn hturn (hostLoadBody_asks (hcheck.trans (State.inRomRecovery_of_rom hrom))))
    case came =>
      have hok := hcheck.trans (State.inRomRecovery_of_rom hrom)
      have fails {e : CErr} (hb : hostLoadBody l.cmd (some r) s = .fail e) :
          exec (.fwHostLoad p) s = .next (s.answerErr p e (s.respGen l.cmd)) :=
        congrArg Host.Outcome.next (runPage_resumed_fail hl hstage hop hb)
      exact ⟨fun hread => congrArg Host.Outcome.next
          (runPage_resumed_failWith hl hstage hop (hostLoadBody_of_no_data hok hread)),
        fun d hread => ⟨fun hlen => fails (hostLoadBody_of_other_length hok hread hlen),
          fun hlen => ⟨fun e hbad => fails (hostLoadBody_of_bad_verdict hok hread hlen hbad),
            fun hgood => congrArg Host.Outcome.next (runPage_resumed_done _ _ p s _ l r _ hl hop hstage
              (hostLoadBody_of_good_verdict hok hread hlen hgood))⟩⟩⟩

end Sys2Proof.Machine

end

section

namespace Sys2Proof.Machine

/-! ## The Ethernet host path, the links, the rings and the functions (10 R189, R205, R206, R208 to R214) -/

/-! ### A REQUEST of the Ethernet host (10 R211) -/

/-- The command area that a REQUEST carries. -/
def requestArea (g : Datagram) : Bytes := padTo 512 (g.bytes.drop 16)

/-- The sequence of a REQUEST. -/
def requestSeq (g : Datagram) : Word := w32 (u32 (requestArea g) 4)

/-- A REQUEST of the peer, well formed, is counted. -/
def State.ethCounted (s : State) : State := (s.bumpSat R.HIF_ETH_RX_REQ).assertSource 454

/-- A REQUEST of a new sequence is latched, and its response goes to the port that it came from; it is dropped while a command
runs. -/
def State.ethNew (s : State) (g : Datagram) : State :=
  if s.host.eth.latch.isSome then s.ethDrop
  else
    let u := s.modHost fun h => { h with eth := { h.eth with replyPort := g.srcPort } }
    u.latchCmd ethPath (parseCmd ethPath u.ethFn (requestArea g) (requestSeq g) u.now)

/-- A repeated sequence is answered again from the kept response. -/
def State.ethSequenced (s : State) (g : Datagram) : State :=
  match s.host.eth.last with
  | some (q, b) => if q = requestSeq g then (s.bumpSat R.HIF_ETH_RX_DUP).sendDatagram 2 0 0 g.srcPort b else s.ethNew g
  | none => s.ethNew g

section Ethernet
variable (s : State) (g : Datagram)

theorem State.ethNew_of_busy (h : s.host.eth.latch.isSome = true) : s.ethNew g = s.ethDrop := if_pos h

theorem State.ethNew_of_idle (h : s.host.eth.latch = none) :
    let u := s.modHost fun h => { h with eth := { h.eth with replyPort := g.srcPort } }
    s.ethNew g = u.latchCmd ethPath (parseCmd ethPath u.ethFn (requestArea g) (requestSeq g) u.now) :=
  if_neg fun hbusy => Option.ne_none_iff_isSome.mpr hbusy h

theorem State.ethSequenced_of_repeated {b : Bytes} (h : s.host.eth.last = some (requestSeq g, b)) :
    s.ethSequenced g = (s.bumpSat R.HIF_ETH_RX_DUP).sendDatagram 2 0 0 g.srcPort b := by
  simp only [State.ethSequenced, h, if_true]

theorem State.ethSequenced_of_new
    (h : s.host.eth.last = none ∨ ∃ q b, s.host.eth.last = some (q, b) ∧ q ≠ requestSeq g) :
    s.ethSequenced g = s.ethNew g := by
  rcases h with h | ⟨q, b, h, hq⟩
  · simp only [State.ethSequenced, h]
  · simp only [State.ethSequenced, h, if_neg hq]

theorem workEthRequest_of_off (h : s.ethOn = false) : workEthRequest g s = .next s := by
  simp only [workEthRequest, h, Bool.not_false, if_true]

theorem workEthUpload_of_off (h : s.ethOn = false) : workEthUpload g s = .next s := by
  simp only [workEthUpload, h, Bool.not_false, if_true]

theorem workEthRequest_of_dropped (hon : s.ethOn = true)
    (h : s.ethLive = false ∨ g.fromPeer = false ∨ dgramOk g.bytes 1 = false ∨ s.sys.ready = false) :
    workEthRequest g s = .next s.ethDrop := by
  have hdrop : (!s.ethLive || !g.fromPeer || !dgramOk g.bytes 1 || !s.sys.ready) = true := by
    rcases h with h | h | h | h <;> simp [h]
  simp only [workEthRequest, hon, Bool.not_true, Bool.false_eq_true, if_false, hdrop, if_true]

section Request
variable (hon : s.ethOn = true) (hlive : s.ethLive = true) (hpeer : g.fromPeer = true) (hform : dgramOk g.bytes 1 = true)
  (hready : s.sys.ready = true)
include hon hlive hpeer hform hready

/-- A REQUEST of the peer that is well formed goes by its sequence. -/
theorem workEthRequest_of_good : workEthRequest g s = .next (s.ethCounted.ethSequenced g) := by
  simp only [workEthRequest, hon, hlive, hpeer, hform, hready, Bool.not_true, Bool.or_self, Bool.false_eq_true, if_false,
    State.ethSequenced, State.ethNew, State.ethCounted, requestSeq, requestArea, State.modHost]
  split
  · next hlast => simp only [hlast]
  · next hlast => simp only [hlast]

end Request

/-! ### An UPLOAD and other frames (10 R210, R212) -/

theorem workEthUpload_of_dropped (hon : s.ethOn = true) (h : s.ethLive = false ∨ g.fromPeer = false ∨
    dgramOk g.bytes 4 = false ∨ s.uploadLen < u64 g.bytes 8 + (g.bytes.drop 16).length) :
    workEthUpload g s = .next s.ethDrop := by
  have hdrop : (!s.ethLive || !g.fromPeer || !dgramOk g.bytes 4 ||
      s.uploadLen < u64 g.bytes 8 + (g.bytes.drop 16).length) = true := by
    rcases h with h | h | h | h <;> simp only [h, Bool.not_false, decide_true, Bool.true_or, Bool.or_true]
  simp only [workEthUpload, hon, Bool.not_true, Bool.false_eq_true, if_false, hdrop, if_true]

theorem State.ethOn_of_live (h : s.ethLive = true) : s.ethOn = true := (Bool.and_eq_true_iff.mp h).1

/-- An UPLOAD inside the window is written there, counted and acknowledged. -/
theorem workEthUpload_of_inside (hlive : s.ethLive = true) (hpeer : g.fromPeer = true) (hform : dgramOk g.bytes 4 = true)
    (h : u64 g.bytes 8 + (g.bytes.drop 16).length ≤ s.uploadLen) : workEthUpload g s = .next (((
      (s.blockWrite ethMaster (s.host.eth.uploadBase + u64 g.bytes 8) (g.bytes.drop 16)).bumpSat R.HIF_ETH_UPLOAD_BYTES
        (g.bytes.drop 16).length).send (.datagram 5 g.srcPort
          (leBytes 2 0x5A51 ++ leBytes 1 5 ++ leBytes 1 0 ++ slice g.bytes 4 4 ++ leBytes 8 0))).bumpSat
            R.HIF_ETH_TX_DGRAMS) := by
  have hinside : decide (s.uploadLen < u64 g.bytes 8 + (g.bytes.drop 16).length) = false :=
    decide_eq_false (Nat.not_lt.mpr h)
  simp only [workEthUpload, s.ethOn_of_live hlive, hlive, hpeer, hform, hinside, Bool.not_true, Bool.or_self,
    Bool.false_eq_true, if_false]

theorem workEthFrameReceived_of_off (f : EthFrame) (h : s.ethOn = false) : workEthFrameReceived f s = .next s := by
  simp only [workEthFrameReceived, h, Bool.not_false, if_true]

theorem workEthFrameReceived_of_on (f : EthFrame) (h : s.ethOn = true) : workEthFrameReceived f s =
    .next (if f = .other then s.ethDrop else s.send .resolution) := by
  cases f <;> simp [workEthFrameReceived, h]

end Ethernet

/-! ### Functions and TAIL (10 R189, R190, R208) -/

section Functions
variable (s : State) (f : Nat)

theorem workFunctionMasterEnable_of_absent (d : Nat) (b : Bool) (h : s.fnEnabled f = false) :
    workFunctionMasterEnable f d b s = .next s := by
  simp only [workFunctionMasterEnable, h, Bool.not_false, if_true]

theorem workFunctionMasterEnable_of_enabled (d : Nat) (b : Bool) (h : s.fnEnabled f = true) :
    workFunctionMasterEnable f d b s = .next ((s.setFunc f
      { s.func f with dState := d, bme := b, msixEnable := (s.func f).msixEnable || b }).releaseMsix f) := by
  simp only [workFunctionMasterEnable, h, Bool.not_true, Bool.false_eq_true, if_false]

variable (r : Nat) (v : Word)

/-- TAIL with the value written, its low bits zero. -/
def State.tailSet (s : State) (f r : Nat) (v : Word) : State := s.setReg (R.HIF_RINGn_TAIL (ringNo f r)) (v &&& 0xFFFFFFF8)

theorem State.tailWrite_of_eth (h : s.ringEth f r = true) : s.tailWrite f r v = s := if_pos h

theorem State.tailWrite_of_host (h : s.ringEth f r = false) : s.tailWrite f r v =
    if (s.tailSet f r v).ringEn f r ∧ (s.tailSet f r v).ringSize f r < (s.tailSet f r v).ringUsed f r then
      ((s.tailSet f r v).bumpSat (R.HIF_RINGn_TAIL_INVALID (ringNo f r))).assertSource 457
    else s.tailSet f r v :=
  if_neg (Bool.eq_false_iff.mp h)

theorem State.tailWrite_of_invalid (h : s.ringEth f r = false) (hen : (s.tailSet f r v).ringEn f r = true)
    (hused : (s.tailSet f r v).ringSize f r < (s.tailSet f r v).ringUsed f r) : s.tailWrite f r v =
      ((s.tailSet f r v).bumpSat (R.HIF_RINGn_TAIL_INVALID (ringNo f r))).assertSource 457 :=
  (s.tailWrite_of_host f r v h).trans (if_pos ⟨hen, hused⟩)

theorem State.tailWrite_of_valid (h : s.ringEth f r = false) (hvalid : (s.tailSet f r v).ringEn f r = false ∨
    (s.tailSet f r v).ringUsed f r ≤ (s.tailSet f r v).ringSize f r) : s.tailWrite f r v = s.tailSet f r v := by
  refine (s.tailWrite_of_host f r v h).trans (if_neg fun ⟨hen, hused⟩ => ?_)
  rcases hvalid with hdis | hfits
  · exact Bool.false_ne_true (hdis.symm.trans hen)
  · exact Nat.not_lt.mpr hfits hused

end Functions

/-! ### Delivery (10 R206, R208) -/

section Deliver
variable (s : State) (f r : Nat)

/-! What the state of waiting leaves as it was. -/

@[simp] theorem State.assertSource_host (n : Nat) : (s.assertSource n).host = s.host := by
  unfold State.assertSource
  split <;> rfl

@[simp] theorem State.ring_setRing_same (x : Ring) : (s.setRing f r x).ring f r = x := AMap.getD_set_same _ _ x _

@[simp] theorem State.ringWaits_staged : (s.ringWaits f r).host.staged = s.host.staged := by
  unfold State.ringWaits
  split
  · rfl
  · rw [State.assertSource_host]
    rfl

theorem State.assertSource_ring (n : Nat) : (s.assertSource n).ring f r = s.ring f r := by
  simp only [State.ring, State.assertSource_host]

@[simp] theorem State.ringWaits_held : ((s.ringWaits f r).ring f r).held = (s.ring f r).held := by
  unfold State.ringWaits
  split
  · rfl
  · rw [State.assertSource_ring, State.ring_setRing_same]

@[simp] theorem State.ringWaits_spill : ((s.ringWaits f r).ring f r).spill = (s.ring f r).spill := by
  unfold State.ringWaits
  split
  · rfl
  · rw [State.assertSource_ring, State.ring_setRing_same]

/-- The rings' registers lie past the status register that source 452 sets. -/
@[simp] theorem State.ringWaits_spillKib (hi lo : Nat) : (s.ringWaits f r).regFld (R.HIF_RINGn_SPILL_KIB (ringNo f r)) hi lo =
    s.regFld (R.HIF_RINGn_SPILL_KIB (ringNo f r)) hi lo := by
  have hne : R.HIF_RINGn_SPILL_KIB (ringNo f r) ≠ R.HIF_INT_STATUS := by
    unfold R.HIF_RINGn_SPILL_KIB R.HIF_INT_STATUS
    omega
  unfold State.ringWaits
  split
  · rfl
  · exact congrArg (fun v => fld v hi lo) (State.reg_setReg_other _ _ _ _ hne)

/-! The oldest record: the one that waits, then the spill buffer, then staging. -/

theorem State.nextRecord_of_held {x : Staged} (h : (s.ring f r).held = some x) :
    s.nextRecord f r = some (x, s.setRing f r { s.ring f r with held := none }) := by
  simp only [State.nextRecord, h]

theorem State.nextRecord_of_spill {x : Staged} {xs : List Staged} (hheld : (s.ring f r).held = none)
    (h : (s.ring f r).spill = x :: xs) : s.nextRecord f r = some (x, s.setSpill f r xs) := by
  simp only [State.nextRecord, hheld, h]

theorem State.nextRecord_of_staged {y : Staged} {ys : List Staged} (hheld : (s.ring f r).held = none)
    (hspill : (s.ring f r).spill = []) (h : takeStaged f r s.host.staged = some (y, ys)) :
    s.nextRecord f r = some (y, s.setStaged ys) := by
  simp only [State.nextRecord, hheld, hspill, h]

theorem State.nextRecord_of_none (hheld : (s.ring f r).held = none) (hspill : (s.ring f r).spill = [])
    (h : takeStaged f r s.host.staged = none) : s.nextRecord f r = none := by
  simp only [State.nextRecord, hheld, hspill, h]

/-! A record that reaches a ring that waits. -/

theorem State.spillNext_of_first {y : Staged} {ys : List Staged} (h : takeStaged f r s.host.staged = some (y, ys))
    (hheld : (s.ring f r).held = none) (hspill : (s.ring f r).spill = []) :
    s.spillNext f r = (s.setStaged ys).setRing f r { s.ring f r with held := some y } := by
  simp only [State.spillNext, h, hheld, hspill, Option.isNone_none, List.isEmpty_nil, Bool.and_self, if_true]

theorem State.spillNext_of_later {x y : Staged} {ys : List Staged} (h : takeStaged f r s.host.staged = some (y, ys))
    (hheld : (s.ring f r).held = some x) : s.spillNext f r =
      if spillBytes (s.ring f r).spill + y.recd.length ≤ s.regFld (R.HIF_RINGn_SPILL_KIB (ringNo f r)) 16 0 * 1024 then
        (s.setStaged ys).setSpill f r ((s.ring f r).spill ++ [y])
      else s := by
  simp only [State.spillNext, h, hheld, Option.isNone_some, Bool.false_and, Bool.false_eq_true, if_false]

/-! RECORD_DELIVER. -/

theorem State.recordDeliver_of_disabled (h : s.ringEn f r = false) : s.recordDeliver f r = s := by
  simp only [State.recordDeliver, h, Bool.not_false, Bool.true_or, if_true]

section Enabled
variable (hen : s.ringEn f r = true) (hhost : s.domUp dHOSTETH = true) (hfab : s.domUp dFAB = true)
include hen hhost hfab

theorem State.recordDeliver_of_nothing (h : s.nextRecord f r = none) : s.recordDeliver f r = s := by
  simp only [State.recordDeliver, hen, hhost, hfab, Bool.not_true, Bool.or_self, Bool.false_eq_true, if_false, h]

theorem State.recordDeliver_of_taken {x : Staged} {t : State} (h : s.nextRecord f r = some (x, t))
    (htakes : s.ringTakes f r x.recd = true) : s.recordDeliver f r = t.deliver f r x.recd := by
  simp only [State.recordDeliver, hen, hhost, hfab, Bool.not_true, Bool.or_self, Bool.false_eq_true, if_false, h, htakes,
    if_true]

theorem State.recordDeliver_of_waiting {x : Staged} {t : State} (h : s.nextRecord f r = some (x, t))
    (htakes : s.ringTakes f r x.recd = false) : s.recordDeliver f r = (s.ringWaits f r).spillNext f r := by
  simp only [State.recordDeliver, hen, hhost, hfab, Bool.not_true, Bool.or_self, Bool.false_eq_true, if_false, h, htakes]

/-- The first record that a ring does not take waits itself. -/
theorem State.recordDeliver_of_first_waiting {y : Staged} {ys : List Staged} (hheld : (s.ring f r).held = none)
    (hspill : (s.ring f r).spill = []) (h : takeStaged f r s.host.staged = some (y, ys))
    (htakes : s.ringTakes f r y.recd = false) : s.recordDeliver f r =
      ((s.ringWaits f r).setStaged ys).setRing f r { (s.ringWaits f r).ring f r with held := some y } := by
  rw [s.recordDeliver_of_waiting f r hen hhost hfab (s.nextRecord_of_staged f r hheld hspill h) htakes]
  refine State.spillNext_of_first _ f r ?_ ?_ ?_
  · rw [State.ringWaits_staged, h]
  · rw [State.ringWaits_held, hheld]
  · rw [State.ringWaits_spill, hspill]

/-- The records behind the one that waits go into the spill buffer while it has room. -/
theorem State.recordDeliver_of_later_waiting {x y : Staged} {ys : List Staged} (hheld : (s.ring f r).held = some x)
    (htakes : s.ringTakes f r x.recd = false) (h : takeStaged f r s.host.staged = some (y, ys)) : s.recordDeliver f r =
      if spillBytes (s.ring f r).spill + y.recd.length ≤ s.regFld (R.HIF_RINGn_SPILL_KIB (ringNo f r)) 16 0 * 1024 then
        ((s.ringWaits f r).setStaged ys).setSpill f r ((s.ring f r).spill ++ [y])
      else s.ringWaits f r := by
  rw [s.recordDeliver_of_waiting f r hen hhost hfab (s.nextRecord_of_held f r hheld) htakes,
    State.spillNext_of_later _ f r ((congrArg _ (s.ringWaits_staged f r)).trans h) ((s.ringWaits_held f r).trans hheld),
    State.ringWaits_spill, State.ringWaits_spillKib]

end Enabled

/-- With no record settled no teardown ends (10 R204). -/
theorem State.settleTeardowns_of_unsettled (h : ∀ e ∈ s.host.ctxs, s.settled e.1 e.2 = false) : s.settleTeardowns = s := by
  have hnone : (s.host.ctxs.filter fun e => s.settled e.1 e.2) = [] :=
    List.filter_eq_nil_iff.mpr fun e he => Bool.eq_false_iff.mp (h e he)
  rw [State.settleTeardowns, hnone]
  rfl

/-- A delivery, and the teardowns that its record was the last to hold up. -/
theorem exec_recordDeliver (hrun : s.clocksRun) {t : State} (h : s.recordDeliver f r = t) :
    exec (.recordDeliver f r) s = .next t.settleTeardowns := by
  show execRecordDeliver f r s = _
  rw [execRecordDeliver, clocked_of_clocksRun _ s hrun, ← h]
  rfl

theorem exec_ringModerationHoldoff (hrun : s.clocksRun) :
    exec (.ringModerationHoldoff f r) s = .next (if s.ringEn f r then s.ringSignal f r else s) :=
  clocked_of_clocksRun _ s hrun

end Deliver

/-- Settles O40: each arrival by the gates that it passes, a delivery by the oldest record and what the ring takes. -/
theorem hostPathsAndFunctions : Obligations.HostPathsAndFunctions := by
  unfold Obligations.HostPathsAndFunctions
  refine ⟨fun s g hreach => ?ethernet, fun s f hreach => ?frame, fun _ _ _ _ => rfl, fun _ _ _ => rfl,
    fun s f d b hreach => ?master, fun s f r v hreach => ?tail, fun s f r hrun => ?deliver, fun s f n hreach => ?functions⟩
  case ethernet =>
    have request : exec (.ethRequest g) s = workEthRequest g s := hosted_of_hostReach _ s hreach
    have upload : exec (.ethUpload g) s = workEthUpload g s := hosted_of_hostReach _ s hreach
    rw [request, upload]
    refine ⟨fun hoff => ⟨workEthRequest_of_off s g hoff, workEthUpload_of_off s g hoff⟩, workEthRequest_of_dropped s g,
      fun hon hlive hpeer hform hready => ?good, workEthUpload_of_dropped s g, workEthUpload_of_inside s g⟩
    case good =>
      have goes {t : State} (h : s.ethCounted.ethSequenced g = t) : workEthRequest g s = .next t :=
        (workEthRequest_of_good s g hon hlive hpeer hform hready).trans (congrArg Host.Outcome.next h)
      exact ⟨fun b hrepeated => goes (s.ethCounted.ethSequenced_of_repeated g hrepeated),
        fun hnew hbusy => goes ((s.ethCounted.ethSequenced_of_new g hnew).trans (s.ethCounted.ethNew_of_busy g hbusy)),
        fun hnew hidle => goes ((s.ethCounted.ethSequenced_of_new g hnew).trans (s.ethCounted.ethNew_of_idle g hidle))⟩
  case frame =>
    have arrives : exec (.ethFrameReceived f) s = workEthFrameReceived f s := hosted_of_hostReach _ s hreach
    rw [arrives]
    exact ⟨workEthFrameReceived_of_off s f, workEthFrameReceived_of_on s f⟩
  case master =>
    have arrives : exec (.functionMasterEnable f d b) s = workFunctionMasterEnable f d b s := hosted_of_hostReach _ s hreach
    rw [arrives]
    exact ⟨workFunctionMasterEnable_of_absent s f d b, workFunctionMasterEnable_of_enabled s f d b⟩
  case tail =>
    have arrives : exec (.ringTailWrite f r v) s = .next (s.tailWrite f r v) := hosted_of_hostReach _ s hreach
    rw [arrives]
    exact ⟨fun heth => congrArg Host.Outcome.next (s.tailWrite_of_eth f r v heth),
      fun hring => ⟨fun hen hused => congrArg Host.Outcome.next (s.tailWrite_of_invalid f r v hring hen hused),
        fun hvalid => congrArg Host.Outcome.next (s.tailWrite_of_valid f r v hring hvalid)⟩⟩
  case deliver =>
    have delivers {t : State} (h : s.recordDeliver f r = t) : exec (.recordDeliver f r) s = .next t.settleTeardowns :=
      exec_recordDeliver s f r hrun h
    have holdoff := exec_ringModerationHoldoff s f r hrun
    refine ⟨fun hdis => ⟨delivers (s.recordDeliver_of_disabled f r hdis),
        holdoff.trans (congrArg Host.Outcome.next (if_neg (Bool.eq_false_iff.mp hdis)))⟩,
      fun hen hhost hfab => ?enabled, s.settleTeardowns_of_unsettled,
      fun hen => holdoff.trans (congrArg Host.Outcome.next (if_pos hen))⟩
    case enabled =>
      refine ⟨fun x hheld htakes => ?held, fun x xs hheld hspill htakes => ?spilled, fun y ys hheld hspill hstaged => ?staged,
        fun x y ys hheld htakes hstaged => ?later, fun hheld hspill hstaged => ?nothing⟩
      case held =>
        exact delivers (s.recordDeliver_of_taken f r hen hhost hfab (s.nextRecord_of_held f r hheld) htakes)
      case spilled =>
        exact delivers (s.recordDeliver_of_taken f r hen hhost hfab (s.nextRecord_of_spill f r hheld hspill) htakes)
      case staged =>
        exact ⟨fun htakes => delivers
            (s.recordDeliver_of_taken f r hen hhost hfab (s.nextRecord_of_staged f r hheld hspill hstaged) htakes),
          fun htakes => delivers (s.recordDeliver_of_first_waiting f r hen hhost hfab hheld hspill hstaged htakes)⟩
      case later =>
        have hlater := s.recordDeliver_of_later_waiting f r hen hhost hfab hheld htakes hstaged
        exact ⟨fun hroom => delivers (hlater.trans (if_pos hroom)), fun hfull => delivers (hlater.trans (if_neg hfull))⟩
      case nothing =>
        exact delivers
          (s.recordDeliver_of_nothing f r hen hhost hfab (s.nextRecord_of_none f r hheld hspill hstaged))
  case functions =>
    have resets : exec (.flr f) s = .next (if s.fnEnabled f then s.flr f else s) := hosted_of_hostReach _ s hreach
    have disables : exec (.vfDisable n) s = .next (if n < s.numVfs then s.setNumVfs n else s) :=
      hosted_of_hostReach _ s hreach
    have enables : exec (.vfEnable n) s = .next (if s.numVfs < n then s.setNumVfs n else s) := hosted_of_hostReach _ s hreach
    rw [resets, disables, enables]
    exact ⟨fun hen => congrArg Host.Outcome.next (if_pos hen),
      fun habsent => congrArg Host.Outcome.next (if_neg (Bool.eq_false_iff.mp habsent)),
      fun hfewer => congrArg Host.Outcome.next (if_pos hfewer),
      fun hmore => congrArg Host.Outcome.next (if_neg (Nat.not_lt.mpr hmore)),
      fun hmore => congrArg Host.Outcome.next (if_pos hmore),
      fun hfewer => congrArg Host.Outcome.next (if_neg (Nat.not_lt.mpr hfewer))⟩

end Sys2Proof.Machine

end

section

namespace Sys2Proof.Machine

/-! ## Boot, the resets and the end of a flash operation (11 R218, R219, R232, 19 R365, R369, R371) -/

/-! ### What a warm reset keeps -/

/-- Counting into registers, one after another, writes nothing else. -/
theorem forEach_bumpSat (a n : Nat → Nat) (l : List Nat) (s : State) :
    forEach l (fun i t => t.bumpSat (a i) (n i)) s =
      { s with regs := (forEach l (fun i t => t.bumpSat (a i) (n i)) s).regs } := by
  induction l generalizing s with
  | nil => rfl
  | cons i is ih => exact ih (s.bumpSat (a i) (n i))

/-- The records that a warm reset discards are counted in registers, so the rest is what the reset itself leaves. -/
theorem State.warm_frame (s : State) :
    s.warm.board = s.board ∧ s.warm.mem = s.mem ∧ s.warm.amber = s.amber ∧ s.warm.sable = s.sable ∧
      s.warm.host.ctxs = [] ∧ s.warm.sys.bootMode = s.sys.bootMode := by
  unfold State.warm
  dsimp only
  rw [forEach_bumpSat]
  split <;> exact ⟨rfl, rfl, rfl, rfl, rfl, rfl⟩

section Resets
variable (s : State)

/-! ### PORST_N and WRST_N -/

theorem execVoltageDetectorReset_of_low {a c : Nat} (h : a < 600 ∨ c < 580) : execVoltageDetectorReset a c s = .next s.cold :=
  congrArg Host.Outcome.next (if_pos h)

theorem execVoltageDetectorReset_of_supplied {a c : Nat} (ha : 600 ≤ a) (hc : 580 ≤ c) :
    execVoltageDetectorReset a c s = .next s :=
  congrArg Host.Outcome.next (if_neg (not_or.mpr ⟨ha.not_gt, hc.not_gt⟩))

theorem execPorstNRelease_of_high (straps : Nat) (trained : Bool) (h : s.sys.inPorst = false) :
    execPorstNRelease straps trained s = .next s := by
  rw [execPorstNRelease, h]
  rfl

theorem State.warmReset_of_running (h : s.sys.inPorst = false) : s.warmReset = s.warm.boot :=
  if_neg (Bool.eq_false_iff.mp h)

theorem execWrstNAssert_of_long {samples : Nat} (straps : Nat) (hrun : s.sys.inPorst = false) (h : 25 ≤ samples) :
    execWrstNAssert samples straps s = .next (s.modSys fun y => { y with bootMode := straps % 4 }).warm.boot := by
  have hresets : ¬(samples < 25 ∨ s.sys.inPorst) := not_or.mpr ⟨h.not_gt, Bool.eq_false_iff.mp hrun⟩
  rw [execWrstNAssert, if_neg hresets]
  exact congrArg Host.Outcome.next (State.warmReset_of_running _ hrun)

theorem execWrstNAssert_of_ignored {samples : Nat} (straps : Nat) (h : s.sys.inPorst = true ∨ samples < 25) :
    execWrstNAssert samples straps s = .next s :=
  congrArg Host.Outcome.next (if_pos h.symm)

/-! ### The delay of RESET -/

theorem execResetDelayExpiry_of_due {t : Nat} (h : s.sys.resetAt = some t) (hdue : t ≤ s.now) (hrun : s.sys.inPorst = false) :
    execResetDelayExpiry s = .next s.warm.boot := by
  simp only [execResetDelayExpiry, h, hdue, if_true, s.warmReset_of_running hrun]

theorem execResetDelayExpiry_of_early {t : Nat} (h : s.sys.resetAt = some t) (hearly : s.now < t) :
    execResetDelayExpiry s = .next s := by
  simp only [execResetDelayExpiry, h, hearly.not_ge, if_false]

theorem execResetDelayExpiry_of_none (h : s.sys.resetAt = none) : execResetDelayExpiry s = .next s := by
  simp only [execResetDelayExpiry, h]

/-! ### The end of a flash operation -/

theorem execFlashOperationDone_of_running (ok : Bool) {j : FlashJob} (hjob : s.sys.flashJob = some j)
    (hdone : s.sys.flashDone = none) :
    execFlashOperationDone ok s = .next (((s.flashRan j ok).flashWake 0).flashWake ethPath) := by
  simp only [execFlashOperationDone, hjob, hdone]

theorem execFlashOperationDone_of_idle (ok : Bool) (h : s.sys.flashJob = none ∨ s.sys.flashDone ≠ none) :
    execFlashOperationDone ok s = .next s := by
  unfold execFlashOperationDone
  split
  · next j hjob hdone => simp [hjob, hdone] at h
  · rfl

end Resets

/-- Settles O43: each pin, delay and end of a flash operation by its own equations, and what the two resets leave. -/
theorem bootAndResets : Obligations.BootAndResets := by
  unfold Obligations.BootAndResets
  intro s
  exact ⟨rfl,
    fun _ _ => execVoltageDetectorReset_of_low s,
    fun _ _ => execVoltageDetectorReset_of_supplied s,
    ⟨rfl, rfl, rfl, rfl, rfl, rfl⟩,
    execPorstNRelease_of_inPorst s,
    execPorstNRelease_of_high s,
    fun _ straps => execWrstNAssert_of_long s straps,
    fun _ straps => execWrstNAssert_of_ignored s straps,
    fun _ => execResetDelayExpiry_of_due s,
    fun _ => execResetDelayExpiry_of_early s,
    execResetDelayExpiry_of_none s,
    s.warm_frame,
    fun ok _ => execFlashOperationDone_of_running s ok,
    execFlashOperationDone_of_idle s⟩

end Sys2Proof.Machine

end

section

namespace Sys2Proof.Machine

/-! ## The step (95_what_each_step_holds.md) -/

theorem step_withQueue_cons (c : Instr) (q : List Instr) (s : State) : step (s.withQueue (c :: q)) = exec c (s.withQueue q) := rfl

theorem step_of_pending_nil {s : State} (h : s.pending = []) : step s = .next s.tick := by
  simp only [step, h]

/-- Settles O1: the two branches of a step. -/
theorem stepRunsTheFrontCommand : Obligations.StepRunsTheFrontCommand := by
  unfold Obligations.StepRunsTheFrontCommand
  exact ⟨step_withQueue_cons, fun _ => step_of_pending_nil⟩

end Sys2Proof.Machine

end

section

namespace Sys2Proof.Machine

/-! ## Generation-bearing commands (12 R233, R234, R235) -/

/-- The pages have distinct opcodes, so an opcode finds its own page. -/
theorem gPage?_of_mem : ∀ pg ∈ gPages, gPage? pg.op = some pg := by
  simp only [gPages, List.forall_mem_cons]
  exact ⟨rfl, rfl, rfl, rfl, rfl, rfl, rfl, rfl, rfl, rfl, rfl, rfl, rfl, rfl, rfl, rfl, rfl, rfl, List.forall_mem_nil _⟩

section Latched
variable {pg : GPage} (hpg : pg ∈ gPages) {p : Nat} {s : State} {l : Latch} (hl : s.latch p = some l)
  (hop : l.cmd.opcode = pg.op)
include hpg hl hop

theorem exec_stageGenerationCommand_of_setOpen (h : s.setOpen l.cmd.ctx = true) :
    exec (.stageGenerationCommand p) s = .next (runPage pg.op (gBody pg) p s) := by
  show execStageGenerationCommand p s = _
  simp only [execStageGenerationCommand, hl, hop, gPage?_of_mem pg hpg, h, if_true]

theorem exec_singleCommandCommit_of_no_set (h : s.setOpen l.cmd.ctx = false) :
    exec (.singleCommandCommit p) s = .next (runPage pg.op (gBody pg) p s) := by
  show execSingleCommandCommit p s = _
  simp only [execSingleCommandCommit, hl, hop, gPage?_of_mem pg hpg, h, Bool.false_eq_true, if_false]

end Latched

/-- A row of one generation-bearing command runs its page whatever the set. -/
theorem generationRowDoes (i : Nat → Instr) (pg : GPage) (h : ∀ p s, exec (i p) s = .next (runPage pg.op (gBody pg) p s)) :
    GenerationPageDoes i pg fun _ _ => True :=
  generationPageDoes i pg _ fun p s _ _ _ _ => h p s

/-- Settles O44: each row runs the body of its page, and the two rows of staging that of the latched command. -/
theorem generationPages : Obligations.GenerationPages := by
  unfold Obligations.GenerationPages
  exact ⟨generationRowDoes _ _ fun _ _ => rfl, generationRowDoes _ _ fun _ _ => rfl, generationRowDoes _ _ fun _ _ => rfl,
    generationRowDoes _ _ fun _ _ => rfl, generationRowDoes _ _ fun _ _ => rfl, generationRowDoes _ _ fun _ _ => rfl,
    generationRowDoes _ _ fun _ _ => rfl, generationRowDoes _ _ fun _ _ => rfl, generationRowDoes _ _ fun _ _ => rfl,
    generationRowDoes _ _ fun _ _ => rfl, generationRowDoes _ _ fun _ _ => rfl, generationRowDoes _ _ fun _ _ => rfl,
    generationRowDoes _ _ fun _ _ => rfl, generationRowDoes _ _ fun _ _ => rfl, generationRowDoes _ _ fun _ _ => rfl,
    generationRowDoes _ _ fun _ _ => rfl, generationRowDoes _ _ fun _ _ => rfl, generationRowDoes _ _ fun _ _ => rfl,
    fun pg hpg => ⟨generationPageDoes _ pg _ fun _ _ _ hl hop => exec_stageGenerationCommand_of_setOpen hpg hl hop,
      generationPageDoes _ pg _ fun _ _ _ hl hop => exec_singleCommandCommit_of_no_set hpg hl hop⟩⟩

end Sys2Proof.Machine

end

section

namespace Sys2Proof.Machine

/-! ## Change sets (12 R236, R237) -/

/-! ### A page that fails with an effect (10 R198) -/

theorem runPage_failWith_of_turn {op : Nat} {b : PageBody} {p : Nat} {s t : State} {l : Latch} {e : CErr}
    (h : s.turn p op l) (hb : b l.cmd none s = .failWith t e) : runPage op b p s = t.answerErr p e (t.respGen l.cmd) := by
  obtain ⟨hl, hstage, hop, hstart⟩ := h
  simp [runPage, hl, hop, hstage, hstart, hb]

/-! ### The set of a context that is there -/

section Context
variable {s : State} {c : Nat} {x : Ctx} (hx : s.ctx? c = some x)
include hx

theorem State.setChanges_of_ctx (k : Option ChangeSet) : s.setChanges c k = s.setCtx c { x with set := k } := by
  simp only [State.setChanges, hx]

theorem State.dropSet_of_set {k : ChangeSet} (hk : x.set = some k) :
    s.dropSet c = (k.staged.foldl (fun t g => t.unreserve g) s).setChanges c none := by
  simp only [State.dropSet, hx, hk]

theorem State.ctxGen_of_ctx : s.ctxGen c = x.gen := by
  simp only [State.ctxGen, hx]

end Context

/-! ### Checks -/

/-- Checks pass in order when each passes. -/
theorem allOf_eq_ok {cs : List Check} (h : ∀ c ∈ cs, c = .ok ()) : allOf cs = .ok () := by
  induction cs with
  | nil => rfl
  | cons c cs ih =>
    obtain ⟨hc, hcs⟩ := List.forall_mem_cons.mp h
    rw [allOf_cons_of_ok hc]
    exact ih hcs

/-- A reserved field that spells zero passes (00 R10). -/
theorem reserved_of_leNat_eq_zero {b : Bytes} {off n : Nat} (h : leNat (slice b off n) = 0) : reserved b off n = .ok () :=
  need_of_true (List.all_eq_true.mpr fun x hx => decide_eq_true (eq_zero_of_leNat_eq_zero h x hx)) _

/-! ### CHANGESET_BEGIN -/

/-- The checks of a CHANGESET_BEGIN page in their order. -/
def beginCheck (c : Cmd) (x : Ctx) : Check :=
  allOf [need (u8 c.block 2 ≠ 1 || u16 c.block 0 = x.gen.toNat) staleGen, inRange (u8 c.block 2) 0 1 2,
    reserved c.block 3 1, need x.set.isNone busy]

/-- A page of good fields is left to the last check: no set is open. -/
theorem beginCheck_of_fields {c : Cmd} {x : Ctx}
    (hgen : u8 c.block 2 = 0 ∨ (u8 c.block 2 = 1 ∧ u16 c.block 0 = x.gen.toNat)) (hres : u8 c.block 3 = 0) :
    beginCheck c x = allOf [need x.set.isNone busy] := by
  have hmode : u8 c.block 2 ≤ 1 := by omega
  have hfresh : (u8 c.block 2 ≠ 1 || u16 c.block 0 = x.gen.toNat : Bool) = true := by
    rcases hgen with h | ⟨h, hx⟩
    · simp [h]
    · simp [hx]
  rw [beginCheck, allOf_cons_of_ok (need_of_true hfresh _), allOf_cons_of_ok (inRange_of_mem (Nat.zero_le _) hmode _),
    allOf_cons_of_ok (reserved_of_leNat_eq_zero hres)]

theorem beginCheck_of_stale {c : Cmd} {x : Ctx} (hmode : u8 c.block 2 = 1) (hgen : u16 c.block 0 ≠ x.gen.toNat) :
    beginCheck c x = .error staleGen :=
  allOf_cons_of_error (need_of_false (by simp [hmode, hgen]) _) _

section Begin
variable {c : Cmd} {s : State} {x : Ctx} (hx : s.ctx? c.ctx = some x)
include hx

theorem beginBody_of_error {d : Option (Option Bytes)} {e : CErr} (h : beginCheck c x = .error e) :
    beginBody c d s = .fail e := by
  unfold beginCheck at h
  simp only [beginBody, hx, h]

theorem beginBody_of_ok {d : Option (Option Bytes)} (h : beginCheck c x = .ok ()) :
    beginBody c d s = .done (s.setCtx c.ctx { x with set := some ⟨x.gen, false, []⟩ }) [] := by
  unfold beginCheck at h
  simp only [beginBody, hx, h, State.setChanges_of_ctx hx]

end Begin

/-! ### CHANGESET_COMMIT -/

section Commit
variable {c : Cmd} {s : State} {x : Ctx} (hx : s.ctx? c.ctx = some x) (d : Option (Option Bytes))
include hx

theorem commitBody_of_no_set (h : x.set = none) : commitBody c d s = .fail notInSet := by
  simp only [commitBody, hx, h]

variable {k : ChangeSet} (hk : x.set = some k)
include hk

theorem commitBody_of_stale (h : k.stale = true) : commitBody c d s = .failWith (s.dropSet c.ctx) staleGen := by
  simp only [commitBody, hx, hk, h, if_true]

variable (hfresh : k.stale = false)
include hfresh

theorem commitBody_of_empty (h : k.staged = []) :
    commitBody c d s = .done (s.setCtx c.ctx { x with set := none }) (leBytes 2 x.gen.toNat ++ leBytes 6 0) := by
  simp only [commitBody, hx, hk, hfresh, h, Bool.false_eq_true, if_true, if_false, State.setChanges_of_ctx hx]

variable (hstaged : k.staged ≠ [])
include hstaged

theorem commitBody_of_blocked (h : s.setBlocked k.staged = true) : commitBody c d s = .fail busy := by
  simp only [commitBody, hx, hk, hfresh, hstaged, h, Bool.false_eq_true, if_true, if_false]

theorem commitBody_of_unblocked (h : s.setBlocked k.staged = false) :
    let t := (s.setCtx c.ctx { x with set := none }).commit c.ctx k.staged c.latchedAt
    commitBody c d s = .done t (t.commitResult c.ctx k.staged.length) := by
  simp only [commitBody, hx, hk, hfresh, hstaged, h, Bool.false_eq_true, if_false, State.setChanges_of_ctx hx]

end Commit

/-- Settles O45: the plain pages by their bodies, CHANGESET_BEGIN by its checks, CHANGESET_COMMIT by the state of the set. -/
theorem changeSetPages : Obligations.ChangeSetPages := by
  unfold Obligations.ChangeSetPages
  refine ⟨pageDoes .changesetAbort _ _ _ fun _ _ => rfl, pageDoes .changesetGetStatus _ _ _ fun _ _ => rfl,
    pageDoes .changesetSetPolicy _ _ _ fun _ _ => rfl, fun s p l x hx => ⟨fun hturn hgen hres => ?begins,
    fun hturn hmode hgen => ?stale, fun hturn => ?commits⟩⟩
  case begins =>
    have hcheck := beginCheck_of_fields hgen hres
    refine ⟨fun hnone => ?_, fun hsome => ?_⟩
    · exact congrArg Host.Outcome.next (runPage_done_of_turn hturn
        (beginBody_of_ok hx (hcheck.trans (allOf_cons_of_ok (need_of_true (Option.isNone_iff_eq_none.mpr hnone) _) _))))
    · have hopen : x.set.isNone = false := Option.isNone_eq_false_iff.mpr (Option.isSome_iff_ne_none.mpr hsome)
      exact congrArg Host.Outcome.next (runPage_fail_of_turn hturn
        (beginBody_of_error hx (hcheck.trans (allOf_cons_of_error (need_of_false hopen _) _))))
  case stale =>
    exact congrArg Host.Outcome.next (runPage_fail_of_turn hturn (beginBody_of_error hx (beginCheck_of_stale hmode hgen)))
  case commits =>
    exact ⟨fun hnone => congrArg Host.Outcome.next (runPage_fail_of_turn hturn (commitBody_of_no_set hx _ hnone)),
      fun k hk => ⟨
        fun hstale => congrArg Host.Outcome.next (runPage_failWith_of_turn hturn (commitBody_of_stale hx _ hk hstale)),
        fun hfresh hnil =>
          congrArg Host.Outcome.next (runPage_done_of_turn hturn (commitBody_of_empty hx _ hk hfresh hnil)),
        fun hfresh hcons hblocked =>
          congrArg Host.Outcome.next (runPage_fail_of_turn hturn (commitBody_of_blocked hx _ hk hfresh hcons hblocked)),
        fun hfresh hcons hfree =>
          congrArg Host.Outcome.next (runPage_done_of_turn hturn (commitBody_of_unblocked hx _ hk hfresh hcons hfree))⟩⟩

end Sys2Proof.Machine

end

section

namespace Sys2Proof.Machine

/-! ## A commit (12 R237, R238) -/

/-! ### What the use of a domain leaves of the contexts and of what is armed -/

/-- The clock, the armed shadows and the contexts. -/
def State.setView (s : State) : Amber × List Armed × AMap Ctx := (s.amber, s.host.armed, s.host.ctxs)

@[simp] theorem State.assertSource_setView (s : State) (n : Nat) : (s.assertSource n).setView = s.setView := by
  unfold State.assertSource
  split <;> rfl

@[simp] theorem State.emit_setView (s : State) (p : Producer) (ctx : Option Nat) (type : Nat) (tov : Stamp) (oldest : Int)
    (flags mask : Word) (gen : BitVec 16) (body : Bytes) :
    (s.emit p ctx type tov oldest flags mask gen body).setView = s.setView := by
  unfold State.emit State.stageRec
  split
  · rfl
  · split <;> rfl

@[simp] theorem State.powerUp_setView (s : State) (d cause : Nat) : (s.powerUp d cause).setView = s.setView := by
  have hup : (forEach (domParents d ++ [d]) (fun e t => (t.setDom e true).setGate e false false) s).setView = s.setView :=
    foldl_view State.setView (fun t e => (t.setDom e true).setGate e false false) (fun _ _ => rfl) _ s
  unfold State.powerUp State.emitPower
  split
  · rfl
  · rw [State.emit_setView, ← hup]
    split <;> rfl

@[simp] theorem State.touch_setView (s : State) (d : Nat) : (s.touch d).setView = s.setView := by
  unfold State.touch State.assertSourceIf
  split
  · rfl
  · split
    · show (if _ then _ else _ : State).setView = _
      split <;> simp
    · rfl

/-! ### Arming -/

/-- The shadow that a commit at a time arms for an element: under the generation before it, with the set's commands for it. -/
def shadow (s : State) (c : Nat) (gen : BitVec 16) (l : List GCmd) (now : Nat) (e : Elem) : Armed :=
  ⟨c, gen, e, l.filter fun g => g.elem s = e, now⟩

theorem State.setView_arm (u : State) (c : Nat) (gen : BitVec 16) (e : Elem) (cmds : List GCmd) :
    (u.arm c gen e cmds).setView = (u.amber, u.host.armed ++ [⟨c, gen, e, cmds, u.now⟩], u.host.ctxs) := by
  obtain ⟨hamber, harmed, hctxs⟩ : (u.touch e.domain).amber = u.amber ∧ (u.touch e.domain).host.armed = u.host.armed ∧
      (u.touch e.domain).host.ctxs = u.host.ctxs := by
    simpa only [State.setView, Prod.mk.injEq] using u.touch_setView e.domain
  simp only [State.setView, State.arm, State.modHost, State.now, hamber, harmed, hctxs]

/-- Arming a list of elements adds one shadow for each, in order, and leaves the clock and the contexts. -/
theorem foldl_setView_arm (s : State) (c : Nat) (gen : BitVec 16) (l : List GCmd) (es : List Elem) (u : State) :
    (es.foldl (fun u e => u.arm c gen e (l.filter fun g => g.elem s = e)) u).setView =
      (u.amber, u.host.armed ++ es.map (shadow s c gen l u.now), u.host.ctxs) := by
  induction es generalizing u with
  | nil => simp only [List.foldl_nil, List.map_nil, List.append_nil, State.setView]
  | cons e es ih =>
    obtain ⟨hamber, harmed, hctxs⟩ : (u.arm c gen e (l.filter fun g => g.elem s = e)).amber = u.amber ∧
        (u.arm c gen e (l.filter fun g => g.elem s = e)).host.armed = u.host.armed ++ [shadow s c gen l u.now e] ∧
        (u.arm c gen e (l.filter fun g => g.elem s = e)).host.ctxs = u.host.ctxs := by
      simpa only [State.setView, shadow, Prod.mk.injEq] using u.setView_arm c gen e (l.filter fun g => g.elem s = e)
    rw [List.foldl_cons, ih, State.now, hamber, harmed, hctxs, List.append_assoc, List.singleton_append]
    rfl

/-! ### The elements of a set of ports, projection elements and surfaces -/

/-- An element of a set is that of one of its commands. -/
theorem exists_of_mem_elemsOf {s : State} {l : List GCmd} {e : Elem} (h : e ∈ elemsOf s l) : ∃ g ∈ l, g.elem s = e := by
  obtain ⟨_, _, hall⟩ := List.mem_flatMap.mp h
  exact List.mem_map.mp (List.mem_eraseDups.mp (List.mem_of_mem_filter hall))

/-- A port, a projection element or a surface waits for its apply point. -/
theorem State.applyIfRest_of_waiting (u : State) {e : Elem} (h : e.blk ≤ 2) (cmds : List GCmd) : u.applyIfRest e cmds = u := by
  unfold State.applyIfRest
  split
  · omega
  · omega
  · omega
  · rfl

/-- What member 0 forwards is of a binding. -/
theorem State.forwardG_of_waiting (u s : State) {g : GCmd} (h : (g.elem s).blk ≤ 2) : u.forwardG g = u := by
  refine if_neg fun hf => ?_
  rcases hf.1 with hop | hop <;> simp [GCmd.elem, hop] at h

theorem foldl_eq_self {α β : Type} {f : β → α → β} {l : List α} (h : ∀ a ∈ l, ∀ b, f b a = b) (b : β) : l.foldl f b = b := by
  induction l with
  | nil => rfl
  | cons a l ih =>
    obtain ⟨ha, hl⟩ := List.forall_mem_cons.mp h
    rw [List.foldl_cons, ha, ih hl]

/-- The committed state under the view: the context's generation, and a shadow for each element. -/
theorem State.commit_setView {s : State} {c : Nat} {x : Ctx} {l : List GCmd} (at' : Nat) (hx : s.ctx? c = some x)
    (hl : ∀ g ∈ l, (g.elem s).blk ≤ 2) : (s.commit c l at').setView =
      (s.amber, s.host.armed ++ (elemsOf s l).map (shadow s c x.gen l s.now),
        s.host.ctxs.set c { x with gen := x.gen + 1, lastCommit := at' }) := by
  have hforward : l.foldl (fun t g => t.forwardG g) s = s := foldl_eq_self (fun g hg u => u.forwardG_of_waiting s (hl g hg)) s
  have hrest (u : State) :
      (elemsOf s l).foldl (fun u e => u.applyIfRest e (l.filter fun g => g.elem s = e)) u = u := by
    refine foldl_eq_self (fun e he u => ?_) u
    obtain ⟨g, hg, rfl⟩ := exists_of_mem_elemsOf he
    exact u.applyIfRest_of_waiting (hl g hg) _
  simp only [State.commit, hx, hforward, hrest]
  exact foldl_setView_arm s c x.gen l (elemsOf s l) _

/-- Settles O46: the committed state's contexts and shadows, read off its view. -/
theorem commitOfASet : Obligations.CommitOfASet := by
  unfold Obligations.CommitOfASet
  intro s c x l at' hx hl t
  obtain ⟨-, harmed, hctxs⟩ : t.amber = s.amber ∧ t.host.armed = s.host.armed ++ (elemsOf s l).map (shadow s c x.gen l s.now) ∧
      t.host.ctxs = s.host.ctxs.set c { x with gen := x.gen + 1, lastCommit := at' } := by
    simpa only [State.setView, Prod.mk.injEq] using State.commit_setView at' hx hl
  have hsame : t.ctx? c = some { x with gen := x.gen + 1, lastCommit := at' } := by
    rw [State.ctx?, hctxs, AMap.get?_set_same]
  refine ⟨State.ctxGen_of_ctx hsame, fun y hy => ?_, fun d hd => ?_, harmed⟩
  · rw [hsame] at hy
    rw [← Option.some.inj hy]
  · simp only [State.ctxGen, State.ctx?, hctxs, AMap.get?_set_other _ _ _ _ hd]

end Sys2Proof.Machine

end

section

namespace Sys2Proof.Machine

/-! ## QUIESCE_COMMIT (12 R241, R242) -/

/-! ### The page -/

/-- The checks of a QUIESCE_COMMIT page in their order, for the commands staged. -/
def quiesceCheck (c : Cmd) (x : Ctx) (l : List GCmd) (s : State) : Check :=
  allOf ([need (l.all fun g => (s.reach (g.elem s).domain).isOk) asleep, need x.set.isSome notInSet] ++
    [need (match x.set with | some k => !k.stale | none => true) staleGen,
      inRange (u32 c.block 0) 100 100000 0, need (!s.setBlocked l && x.quiesce.isNone) busy])

section Page
variable {c : Cmd} {s : State} {x : Ctx} {k : ChangeSet} (hk : x.set = some k)
include hk

/-- A page of good fields on a fresh set whose domains answer is left to the last check. -/
theorem quiesceCheck_of_fields (hfresh : k.stale = false) (hmin : 100 ≤ u32 c.block 0) (hmax : u32 c.block 0 ≤ 100000)
    (hnone : x.quiesce = none) (hreach : ∀ g ∈ k.staged, s.reach (g.elem s).domain = .ok ()) :
    quiesceCheck c x k.staged s = allOf [need (!s.setBlocked k.staged) busy] := by
  have hawake : (k.staged.all fun g => (s.reach (g.elem s).domain).isOk) = true :=
    List.all_eq_true.mpr fun g hg => by rw [hreach g hg]; rfl
  rw [quiesceCheck, List.cons_append, List.cons_append, List.nil_append, allOf_cons_of_ok (need_of_true hawake _),
    allOf_cons_of_ok (need_of_true (by rw [hk]; rfl) _), allOf_cons_of_ok (need_of_true (by simp only [hk, hfresh]; rfl) _),
    allOf_cons_of_ok (inRange_of_mem hmin hmax _), hnone, Option.isNone_none, Bool.and_true]

variable (hx : s.ctx? c.ctx = some x) {d : Option (Option Bytes)}
include hx

theorem quiesceBody_of_busy (h : quiesceCheck c x k.staged s = .error busy) : quiesceBody c d s = .fail busy := by
  unfold quiesceCheck at h
  rw [hk] at h
  simp only [quiesceBody, hx, hk, h]
  exact if_neg (by decide)

variable (h : quiesceCheck c x k.staged s = .ok ())
include h

theorem quiesceBody_of_empty (hnil : k.staged = []) :
    quiesceBody c d s = .done (s.setCtx c.ctx { x with set := none }) (leBytes 2 x.gen.toNat ++ leBytes 22 0) := by
  unfold quiesceCheck at h
  rw [hk] at h
  simp only [quiesceBody, hx, hk, h, State.setChanges_of_ctx hx]
  exact if_pos hnil

theorem quiesceBody_of_staged (hcons : k.staged ≠ []) : quiesceBody c d s = .wait (s.setCtx c.ctx
    { x with quiesce := some ⟨s.tickStamp, c.path, s.now + u32 c.block 0 * 1000, []⟩ }) := by
  unfold quiesceCheck at h
  rw [hk] at h
  simp only [quiesceBody, hx, hk, h]
  exact if_neg hcons

end Page

/-! ### The end of the drain and the limit of the pause -/

section Pause
variable {s : State} {c : Nat} {x : Ctx} (hx : s.ctx? c = some x)
include hx

theorem execQuiesceDrainEnd_of_no_pause (h : x.quiesce = none) : execQuiesceDrainEnd c s = .next s := by
  simp only [execQuiesceDrainEnd, hx, h]

theorem execQuiescePauseTimeout_of_no_pause (h : x.quiesce = none) : execQuiescePauseTimeout c s = .next s := by
  simp only [execQuiescePauseTimeout, hx, h]

variable {q : Quiesce} (hq : x.quiesce = some q)
include hq

theorem execQuiescePauseTimeout_of_due (h : q.deadline ≤ s.now) :
    execQuiescePauseTimeout c s = .next (((s.resume c).quiescedGaps c q s.now).endQuiesce q c (.error busy)) := by
  simp only [execQuiescePauseTimeout, hx, hq, h, if_true]

theorem execQuiescePauseTimeout_of_early (h : s.now < q.deadline) : execQuiescePauseTimeout c s = .next s := by
  simp only [execQuiescePauseTimeout, hx, hq, Nat.not_le.mpr h, if_false]

variable {k : ChangeSet} (hk : x.set = some k)
include hk

theorem execQuiesceDrainEnd_of_inputs (h : s.inputsLeft c = true) : execQuiesceDrainEnd c s = .next s := by
  simp only [execQuiesceDrainEnd, hx, hq, hk, h, if_true]

variable (hin : s.inputsLeft c = false)
include hin

theorem execQuiesceDrainEnd_of_results (h : (s.virFlush c).resultsLeft c = true ∨ q.deadline < s.now) :
    execQuiesceDrainEnd c s = .next (s.virFlush c) := by
  simp only [execQuiesceDrainEnd, hx, hq, hk, hin, Bool.false_eq_true, if_false]
  exact congrArg Host.Outcome.next (if_pos (by simpa using h))

theorem execQuiesceDrainEnd_of_drained (hres : (s.virFlush c).resultsLeft c = false) (hnow : s.now ≤ q.deadline) :
    execQuiesceDrainEnd c s = .next ((s.virFlush c).drainEnded c q k) := by
  simp only [execQuiesceDrainEnd, hx, hq, hk, hin, Bool.false_eq_true, if_false]
  exact congrArg Host.Outcome.next (if_neg (by simpa using And.intro hres hnow))

end Pause

/-- Settles O47: the page by its checks and what is staged, the end of the drain by what is left, the limit by its instant. -/
theorem quiesceCommit : Obligations.QuiesceCommit := by
  unfold Obligations.QuiesceCommit
  intro s p l x k
  refine ⟨fun hx hturn hk hfresh hmin hmax hnone => ?page, fun c q hx hq => ?pause, fun c hx hnone => ?running⟩
  case page =>
    have hcheck := quiesceCheck_of_fields (s := s) (c := l.cmd) hk hfresh hmin hmax hnone
    have hclear (h : s.setBlocked k.staged = false) (hreach : ∀ g ∈ k.staged, s.reach (g.elem s).domain = .ok ()) :
        quiesceCheck l.cmd x k.staged s = .ok () :=
      (hcheck hreach).trans (allOf_cons_of_ok (need_of_true (by rw [h]; rfl) _) _)
    refine ⟨fun hnil => ?_, fun hcons hfree hreach => ?_, fun hcons hblocked hreach => ?_⟩
    · have hok := hclear (by rw [hnil]; rfl) (by simp [hnil])
      exact congrArg Host.Outcome.next (runPage_done_of_turn hturn (quiesceBody_of_empty hk hx hok hnil))
    · exact congrArg Host.Outcome.next (runPage_wait_of_turn hturn (quiesceBody_of_staged hk hx (hclear hfree hreach) hcons))
    · have hbusy := (hcheck hreach).trans (allOf_cons_of_error (need_of_false (by rw [hblocked]; rfl) _) _)
      exact congrArg Host.Outcome.next (runPage_fail_of_turn hturn (quiesceBody_of_busy hk hx hbusy))
  case pause =>
    refine ⟨execQuiesceDrainEnd_of_inputs hx hq, execQuiesceDrainEnd_of_results hx hq, fun hk hin hres hnow => ?ended,
      execQuiescePauseTimeout_of_due hx hq, execQuiescePauseTimeout_of_early hx hq⟩
    case ended =>
      have hend := execQuiesceDrainEnd_of_drained hx hq hk hin hres hnow
      exact ⟨fun hfresh => hend.trans (congrArg Host.Outcome.next (if_neg (Bool.eq_false_iff.mp hfresh))),
        fun hstale => hend.trans (congrArg Host.Outcome.next (if_pos hstale))⟩
  case running =>
    exact ⟨execQuiesceDrainEnd_of_no_pause hx hnone, execQuiescePauseTimeout_of_no_pause hx hnone⟩

end Sys2Proof.Machine

end

section

namespace Sys2Proof.Machine

/-! ## The decision of a guard (13 R246, R247) -/

section Match
variable {s : State} {g a m : Nat}

theorem State.firstMatch_of_match {n i : Nat} (h : entryMatches (s.guardEntry g i) a m = true) :
    s.firstMatch g a m (n + 1) i = some (s.guardEntry g i).2.2.2 := by
  simp only [State.firstMatch, h, if_true]

theorem State.firstMatch_of_no_match {n i : Nat} (h : entryMatches (s.guardEntry g i) a m = false) :
    s.firstMatch g a m (n + 1) i = s.firstMatch g a m n (i + 1) := by
  simp only [State.firstMatch, h, Bool.false_eq_true, if_false]

/-- From any entry on, the lowest that matches is found. -/
theorem State.firstMatch_of_lowest {k : Nat} (hk : entryMatches (s.guardEntry g k) a m = true) (n i : Nat) (hi : i ≤ k)
    (hn : k < i + n) (hlow : ∀ j, i ≤ j → j < k → entryMatches (s.guardEntry g j) a m = false) :
    s.firstMatch g a m n i = some (s.guardEntry g k).2.2.2 := by
  induction n generalizing i with
  | zero => omega
  | succ n ih =>
    rcases Nat.eq_or_lt_of_le hi with rfl | hlt
    · exact State.firstMatch_of_match hk
    · rw [State.firstMatch_of_no_match (hlow i (Nat.le_refl i) hlt)]
      exact ih (i + 1) hlt (by omega) fun j hj => hlow j (by omega)

theorem State.firstMatch_of_none (n i : Nat) (h : ∀ j, i ≤ j → j < i + n → entryMatches (s.guardEntry g j) a m = false) :
    s.firstMatch g a m n i = none := by
  induction n generalizing i with
  | zero => rfl
  | succ n ih =>
    rw [State.firstMatch_of_no_match (h i (Nat.le_refl i) (by omega))]
    exact ih (i + 1) fun j hj hlt => h j (by omega) (by omega)

end Match

section Decision
variable {s : State} {a m : Nat} {wr : Bool}

theorem State.denial_of_reserved (h : masterValid m = false) : s.denial a m wr = some causeReserved := by
  simp only [State.denial, h, Bool.not_false, if_true]

variable (hm : masterValid m = true)
include hm

theorem State.denial_of_outside (h : inMap a = false) : s.denial a m wr = some causeOutside := by
  simp only [State.denial, hm, h, Bool.not_true, Bool.not_false, Bool.false_eq_true, if_false, if_true]

variable (ha : inMap a = true)
include ha

theorem State.denial_of_no_match (h : s.firstMatch (guardOf a) a m (guardEntries (guardOf a)) 0 = none) :
    s.denial a m wr = some causeNoMatch := by
  simp only [State.denial, hm, ha, h, Bool.not_true, Bool.false_eq_true, if_false]

/-- The word of the entry that decides holds the permission, or not; with it the address is looked at. -/
theorem State.denial_of_match {w : Word} (h : s.firstMatch (guardOf a) a m (guardEntries (guardOf a)) 0 = some w) :
    s.denial a m wr = if !bit w (if wr then 2 else 1) then some causePermission
      else if !s.mapped a then some causeUnmapped else none := by
  simp only [State.denial, hm, ha, h, Bool.not_true, Bool.false_eq_true, if_false]

end Decision

/-- Settles O50: the checks in their order, and the entry found by the search from entry 0. -/
theorem firstMatchDecides : Obligations.FirstMatchDecides := by
  unfold Obligations.FirstMatchDecides
  intro s a m wr
  refine ⟨State.denial_of_reserved, State.denial_of_outside, fun hm ha => ⟨fun i hi hmatch hlow => ?found, fun hnone => ?none⟩⟩
  case found =>
    have hfirst := State.firstMatch_of_lowest hmatch (guardEntries (guardOf a)) 0 (Nat.zero_le i) (by omega)
      fun j _ => hlow j
    dsimp only
    rw [State.denial_of_match hm ha hfirst]
    refine ⟨fun hperm => ?_, fun hperm hmap => ?_, fun hperm hmap => ?_⟩
    · simp [hperm]
    · simp [hperm, hmap]
    · simp [hperm, hmap]
  case none =>
    exact State.denial_of_no_match hm ha (State.firstMatch_of_none _ 0 fun j _ hj => hnone j (by omega))

end Sys2Proof.Machine

end

section

namespace Sys2Proof.Machine

/-! ## The sums of INT32 combining (14 R274) -/

theorem zipWith_add_right_comm (z x y : List Int) :
    List.zipWith (· + ·) (List.zipWith (· + ·) z x) y = List.zipWith (· + ·) (List.zipWith (· + ·) z y) x := by
  induction z generalizing x y with
  | nil => rfl
  | cons a z ih =>
    cases x with
    | nil => cases y <;> rfl
    | cons b x =>
      cases y with
      | nil => rfl
      | cons c y => simp only [List.zipWith_cons_cons, ih, add_right_comm]

/-- A contribution to an empty accumulator is the accumulator. -/
theorem addVector_false_nil (v : List Int) : addVector false [] v = v := by
  induction v with
  | nil => rfl
  | cons a v ih => simpa [addVector] using ih

theorem addVector_false_of_ne_nil {z : List Int} (h : z ≠ []) (v : List Int) :
    addVector false z v = List.zipWith (· + ·) z v := by
  simp only [addVector, h, if_false, Bool.false_eq_true]

/-- Two contributions of one length may change places. -/
theorem addVector_false_right_comm {x y : List Int} (h : x.length = y.length) (z : List Int) :
    addVector false (addVector false z x) y = addVector false (addVector false z y) x := by
  cases x with
  | nil =>
    obtain rfl : y = [] := List.length_eq_zero_iff.mp h.symm
    rfl
  | cons b x =>
    cases y with
    | nil => exact absurd h (Nat.succ_ne_zero _)
    | cons c y =>
      cases z with
      | nil =>
        rw [addVector_false_nil, addVector_false_nil, addVector_false_of_ne_nil (List.cons_ne_nil b x),
          addVector_false_of_ne_nil (List.cons_ne_nil c y)]
        exact List.zipWith_comm_of_comm fun _ _ => Int.add_comm _ _
      | cons a z =>
        rw [addVector_false_of_ne_nil (List.cons_ne_nil a z), addVector_false_of_ne_nil (List.cons_ne_nil a z),
          List.zipWith_cons_cons, List.zipWith_cons_cons, addVector_false_of_ne_nil (List.cons_ne_nil (a + b) _), addVector_false_of_ne_nil (List.cons_ne_nil (a + c) _)]
        exact zipWith_add_right_comm (a :: z) (b :: x) (c :: y)

/-- Settles O54: any two contributions may change places, so every order of arrival gives the same accumulator. -/
theorem integerSumsInAnyOrder : Obligations.IntegerSumsInAnyOrder := by
  unfold Obligations.IntegerSumsInAnyOrder
  intro n acc l k hperm hlen _
  exact hperm.foldl_eq' (fun x hx y hy z => addVector_false_right_comm ((hlen x hx).trans (hlen y hy).symm) z) acc

end Sys2Proof.Machine

end

section

namespace Sys2Proof.Machine

/-! ## Lines, detection and pending state of a source (15 R282, R283, R284, R285, R287, R294, R295) -/

/-! ### The filter clock -/

section Sensing
variable {s : State} {n : Nat}

theorem State.filterRuns_of_state (h : s.ivory.state = 0 ∨ s.ivory.state = 2) : s.filterRuns = true := by
  simpa [State.filterRuns] using h

theorem State.filterRuns_of_other_state (h0 : s.ivory.state ≠ 0) (h2 : s.ivory.state ≠ 2) : s.filterRuns = false := by
  simp [State.filterRuns, h0, h2]

/-- A line that is written leaves the state of the device. -/
theorem State.trackActive_ivory (s : State) (n : Nat) (was is : Bool) : (s.trackActive n was is).ivory = s.ivory := by
  unfold State.trackActive
  split <;> rfl

/-! ### SOURCE_LINE_CHANGE -/

theorem execSourceLineChange_of_internal (l : Bool) (h : n < 512) :
    execSourceLineChange n l s = .next (s.noticeLine n) := by
  simp only [execSourceLineChange, h, if_true]

theorem execSourceLineChange_of_same_level {l : Bool} (h : 512 ≤ n) (hraw : (s.src n).raw = l) :
    execSourceLineChange n l s = .next s := by
  simp only [execSourceLineChange, Nat.not_lt.mpr h, hraw, if_true, if_false]

theorem execSourceLineChange_of_new_level {l : Bool} (h : 512 ≤ n) (hraw : (s.src n).raw ≠ l) :
    let t := (s.setSrc n { s.src n with raw := l }).trackActive n (activeLevel (s.sense n) (s.src n).raw)
      (activeLevel (s.sense n) l)
    execSourceLineChange n l s = .next (if s.filterRuns then t else t.latchEdge n l) := by
  simp only [execSourceLineChange, Nat.not_lt.mpr h, hraw, if_false]

/-! ### ASYNC_LATCH_EDGE -/

theorem State.latchEdge_of_match {rise : Bool} (h : edgeMatches (s.sense n) rise = true) :
    s.latchEdge n rise = s.setSrc n { s.src n with latched := true } := if_pos h

theorem State.latchEdge_of_no_match {rise : Bool} (h : edgeMatches (s.sense n) rise = false) : s.latchEdge n rise = s :=
  if_neg (Bool.eq_false_iff.mp h)

theorem execAsyncLatchEdge_of_filter (e : Edge) (h : s.filterRuns = true) : execAsyncLatchEdge n e s = .next s := by
  simp only [execAsyncLatchEdge, h, if_true]

theorem execAsyncLatchEdge_of_no_filter (e : Edge) (h : s.filterRuns = false) :
    execAsyncLatchEdge n e s = .next (s.latchEdge n (decide (e = .rise))) := by
  simp only [execAsyncLatchEdge, h, Bool.false_eq_true, if_false]

theorem execAsyncLatchEdge_of_no_match {e : Edge} (h : edgeMatches (s.sense n) (decide (e = .rise)) = false) :
    execAsyncLatchEdge n e s = .next s := by
  simp only [execAsyncLatchEdge, State.latchEdge_of_no_match h, ite_self]

/-! ### SETPEND -/

theorem State.setPend_of_source (h : n < 544) :
    let t := if s.sense n < 2 then s.setSrc n { s.src n with soft := true } else s.countEdge n
    s.setPend n = t.setSrc n { t.src n with becameAt := s.now } := by
  simp only [State.setPend, Nat.not_le.mpr h, if_false, State.isLevel, decide_eq_true_eq]

theorem State.setPend_of_past (h : 544 ≤ n) : s.setPend n = s := if_pos h

/-! ### The glitch filter -/

theorem State.filterSample_of_agreeing (h : (s.src n).raw = (s.src n).filtered) :
    s.filterSample n = if (s.src n).run = 0 then s else s.setSrc n { s.src n with run := 0 } := if_pos h

theorem State.filterSample_of_differing (h : (s.src n).raw ≠ (s.src n).filtered) : s.filterSample n =
    if s.filt n ≤ (s.src n).run then s.detect n (s.src n).raw
    else s.setSrc n { s.src n with run := (s.src n).run + 1 } := if_neg h

/-! ### What else a source meets -/

theorem State.srcPending_of_taken (h : (s.src n).active = true ∨ (s.src n).relayed = true) : s.srcPending n = true := by
  rcases h with h | h <;> simp [State.srcPending, h]

theorem execCarmTnHold_of_domUp (v : Word) (h : s.domUp dCTL = true) :
    execCarmTnHold n v s = .next (s.setReg (R.CARM_Tn_HOLD n) (v &&& 1)) := by
  simp only [execCarmTnHold, h, if_true]

theorem execModerationHoldoffExpiry_of_due (h : (s.src n).becameAt + s.holdoffUs n * 1000 ≤ s.now) (ht : s.target n = 5)
    (he : s.eligible n = true) (hd : s.domUp dCTL = true) : execModerationHoldoffExpiry n s = .next s.hostRelay :=
  congrArg Host.Outcome.next (if_pos ⟨h, ht, he, hd⟩)

theorem execModerationHoldoffExpiry_of_early (h : s.now < (s.src n).becameAt + s.holdoffUs n * 1000) :
    execModerationHoldoffExpiry n s = .next s :=
  congrArg Host.Outcome.next (if_neg fun hd => Nat.not_le.mpr h hd.1)

end Sensing

/-- Settles O55: each command by its number, its level and the filter clock, the sample by how the level has stood. -/
theorem sourceSensing : Obligations.SourceSensing := by
  unfold Obligations.SourceSensing
  intro s n
  refine ⟨fun l => execSourceLineChange_of_internal l, fun l => execSourceLineChange_of_same_level, fun l hn hraw => ?level,
    fun e => ⟨fun hrun => ?_, fun h0 h2 hmatch => ?_, execAsyncLatchEdge_of_no_match⟩, fun v hv => ⟨fun hn => ?_, fun hn => ?_⟩,
    fun x hx => ?sample, State.srcPending_of_taken, fun v => execCarmTnHold_of_domUp v, execModerationHoldoffExpiry_of_due,
    execModerationHoldoffExpiry_of_early⟩
  case level =>
    have hnew := execSourceLineChange_of_new_level (s := s) hn hraw
    exact ⟨fun hrun => hnew.trans (congrArg Host.Outcome.next (if_pos (State.filterRuns_of_state hrun))),
      fun h0 h2 => hnew.trans
        (congrArg Host.Outcome.next (if_neg (Bool.eq_false_iff.mp (State.filterRuns_of_other_state h0 h2))))⟩
  · exact execAsyncLatchEdge_of_filter e (State.filterRuns_of_state hrun)
  · exact (execAsyncLatchEdge_of_no_filter e (State.filterRuns_of_other_state h0 h2)).trans
      (congrArg Host.Outcome.next (State.latchEdge_of_match hmatch))
  · subst hv
    exact congrArg Host.Outcome.next (State.setPend_of_source hn)
  · subst hv
    exact congrArg Host.Outcome.next (State.setPend_of_past hn)
  case sample =>
    subst hx
    refine ⟨fun hraw hrun => ?_, fun hraw hrun => ?_, fun hraw hrun => ?_, fun hraw hrun => ?_⟩
    · exact (State.filterSample_of_agreeing hraw).trans (if_pos hrun)
    · exact (State.filterSample_of_agreeing hraw).trans (if_neg hrun)
    · exact (State.filterSample_of_differing hraw).trans (if_neg (Nat.not_le.mpr hrun))
    · exact (State.filterSample_of_differing hraw).trans (if_pos hrun)

end Sys2Proof.Machine

end

section

namespace Sys2Proof.Machine

/-! ## Delivery and completion (15 R288 to R293, R298) -/

/-- A target that holds anything is read back as it was written. -/
theorem State.tgt_setTgt_of_ne_init {x : Target} (h : x ≠ Target.init) (s : State) (t : Nat) : (s.setTgt t x).tgt t = x := by
  show (s.carmine.tgts.put t x Target.init).getD t Target.init = x
  rw [AMap.put, if_neg h, AMap.getD_set_same]

/-- A target with a provisional source holds something. -/
theorem Target.ne_init_of_prov {x : Target} {p : Nat × Nat} (h : x.prov = some p) : x ≠ Target.init := by
  rintro rfl
  exact absurd h (Option.some_ne_none p).symm

@[simp] theorem State.bumpSat_tgt (s : State) (a t : Nat) : (s.bumpSat a).tgt t = s.tgt t := rfl

/-! ### The entry window (15 R290) -/

section Delivery
variable {s : State} {t : Nat}

theorem State.replaceProv_of_more_urgent {p c : Nat × Nat} (hp : (s.tgt t).prov = some p) (hc : s.candidate t = some c)
    (h : c.1 < p.1) :
    s.replaceProv t = (s.setTgt t { s.tgt t with prov := some c }).bumpSat (R.CARM_Tn_REPLACED t) := by
  simp only [State.replaceProv, hp, hc, h, if_true]

theorem State.replaceProv_of_no_more_urgent {p : Nat × Nat} (hp : (s.tgt t).prov = some p)
    (h : ∀ c, s.candidate t = some c → p.1 ≤ c.1) : s.replaceProv t = s := by
  unfold State.replaceProv
  split
  · next q c hq hc =>
    obtain rfl : p = q := Option.some.inj (hp.symm.trans hq)
    exact if_neg (Nat.not_lt.mpr (h c hc))
  · rfl

theorem State.replaceProv_of_no_prov (h : (s.tgt t).prov = none) : s.replaceProv t = s := by
  simp only [State.replaceProv, h]

/-! ### The exit window (15 R291) -/

theorem State.handoff_of_candidate {c : Nat × Nat} (hp : (s.tgt t).prov = none) (hc : s.candidate t = some c) :
    s.handoff t = if beats c.1 (s.tgt t).stack then (s.commitSource t c.1 c.2).bumpSat (R.CARM_Tn_HANDOFF t) else s := by
  simp only [State.handoff, hp, hc]

theorem State.handoff_of_no_candidate (hc : s.candidate t = none) : s.handoff t = s := by
  unfold State.handoff
  split
  · next c _ h => exact absurd (hc.symm.trans h) (Option.some_ne_none c).symm
  · rfl

/-! ### INTERRUPT_ACKNOWLEDGE and INTERRUPT_COMMIT -/

section Acknowledge
variable (hup : s.domUp dCTL = true)
include hup

theorem workInterruptAcknowledge_of_entry_window {p : Nat × Nat} (hp : (s.tgt t).prov = some p) :
    workInterruptAcknowledge t s = .next (s.replaceProv t) := by
  simp only [workInterruptAcknowledge, hup, hp, Option.isSome_some, Bool.not_true, Bool.false_eq_true, if_false, if_true]

variable (hp : (s.tgt t).prov = none)
include hp

theorem workInterruptAcknowledge_of_exit_window (h : (s.tgt t).exitAt = some s.now) :
    workInterruptAcknowledge t s = .next (s.handoff t) := by
  simp only [workInterruptAcknowledge, hup, hp, h, Option.isSome_none, Bool.not_true, Bool.false_eq_true, if_false, if_true]

theorem workInterruptAcknowledge_of_candidate {c : Nat × Nat} (h : (s.tgt t).exitAt ≠ some s.now) (hc : s.candidate t = some c) :
    workInterruptAcknowledge t s = .next
      (if beats c.1 (s.tgt t).stack then (s.setTgt t { s.tgt t with prov := some c }).tookFree else s) := by
  simp only [workInterruptAcknowledge, hup, hp, h, hc, Option.isSome_none, Bool.not_true, Bool.false_eq_true, if_false]

theorem workInterruptAcknowledge_of_no_candidate (hc : s.candidate t = none) : workInterruptAcknowledge t s = .next s := by
  by_cases h : (s.tgt t).exitAt = some s.now
  · rw [workInterruptAcknowledge_of_exit_window hup hp h, State.handoff_of_no_candidate hc]
  · simp only [workInterruptAcknowledge, hup, hp, h, hc, Option.isSome_none, Bool.not_true, Bool.false_eq_true, if_false]

end Acknowledge

theorem workInterruptCommit_of_prov {p : Nat × Nat} (h : ((s.replaceProv t).tgt t).prov = some p) :
    workInterruptCommit t s = .next ((s.replaceProv t).commitSource t p.1 p.2) := by
  simp only [workInterruptCommit, h]

theorem workInterruptCommit_of_no_prov (h : (s.tgt t).prov = none) : workInterruptCommit t s = .next s := by
  simp only [workInterruptCommit, State.replaceProv_of_no_prov h, h]

/-! ### CARM_TN_EOI and CARM_TN_STACK_RST -/

section Completion
variable (hup : s.domUp dCTL = true) (ht : t < 5)
include hup ht

theorem execCarmTnEoi_of_top (v : Word) {e : Nat × Nat} {es : List (Nat × Nat)} (h : (s.tgt t).stack = e :: es) :
    execCarmTnEoi t v s = .next (
      if e.1 = v.toNat % 32 then ((s.setTgt t { s.tgt t with stack := es, exitAt := some s.now }).released e.2).handoff t
      else s.refuseEoi t (v.toNat % 32)) := by
  have hin : ¬(5 ≤ t ∨ (!s.domUp dCTL) = true) := by simp [hup, ht]
  simp only [execCarmTnEoi, if_neg hin, h]

theorem execCarmTnEoi_of_empty (v : Word) (h : (s.tgt t).stack = []) :
    execCarmTnEoi t v s = .next (s.refuseEoi t (v.toNat % 32)) := by
  have hin : ¬(5 ≤ t ∨ (!s.domUp dCTL) = true) := by simp [hup, ht]
  simp only [execCarmTnEoi, if_neg hin, h]

theorem execCarmTnStackRst_of_one {v : Word} (hv : bit v 0 = true) : execCarmTnStackRst t v s =
    .next ((s.tgt t).stack.foldl (fun u e => u.released e.2)
      (s.setTgt t { s.tgt t with stack := [], orderPend := false })) := by
  have hin : ¬(5 ≤ t ∨ (!bit v 0) = true ∨ (!s.domUp dCTL) = true) := by simp [hup, ht, hv]
  simp only [execCarmTnStackRst, if_neg hin]

end Completion

theorem execCarmTnStackRst_of_zero {v : Word} (hv : bit v 0 = false) : execCarmTnStackRst t v s = .next s :=
  congrArg Host.Outcome.next (if_pos (.inr (.inl (by rw [hv]; rfl))))

end Delivery

/-! ### The relay (15 R298) -/

section Relay
variable {s : State}

theorem State.hostRelay_of_no_candidate (h : s.candidate 5 = none) : s.hostRelay = s := by
  unfold State.hostRelay
  rw [h]

variable {c : Nat × Nat} (hc : s.candidate 5 = some c)
include hc

theorem State.hostRelay_of_early (h : s.now < s.carmine.lastRelay + 100) : s.hostRelay = s := by
  unfold State.hostRelay
  rw [hc]
  exact if_pos h

theorem State.hostRelay_of_due (h : s.carmine.lastRelay + 100 ≤ s.now) : s.hostRelay =
    (((s.msix (s.relayFn c.2) (s.relayVector c.2)).setSrc c.2 { s.src c.2 with
      relayed := true, count := 0, soft := false, lastAt := s.now }).bumpSat (R.CARM_Sn_TAKEN c.2)).modCarmine fun k =>
        { k with lastRelay := s.now } := by
  unfold State.hostRelay
  rw [hc]
  exact if_neg (Nat.not_lt.mpr h)

end Relay

/-- Settles O56: acknowledge and commit by the window that the target is in and its candidate, completion by the top of the
stack, the relay by its instant. -/
theorem deliveryAndCompletion : Obligations.DeliveryAndCompletion := by
  unfold Obligations.DeliveryAndCompletion
  intro s t hup hrun
  have hack : exec (.interruptAcknowledge t) s = workInterruptAcknowledge t s := clocked_of_clocksRun _ s hrun
  have hcommit : exec (.interruptCommit t) s = workInterruptCommit t s := clocked_of_clocksRun _ s hrun
  have hrelay : exec .hostRelay s = .next s.hostRelay :=
    (clocked_of_clocksRun workHostRelay s hrun).trans (congrArg Host.Outcome.next (if_pos hup))
  rw [hack, hcommit, hrelay]
  refine ⟨fun c hp hexit hc => ?exit, fun c hp hexit hc => ?waiting, workInterruptAcknowledge_of_no_candidate hup,
    fun p c hp hc hlt => ?replaced, fun p hp hle => ?kept, workInterruptCommit_of_no_prov, fun v e es ht hst => ⟨?_, ?_⟩,
    fun v ht => execCarmTnEoi_of_empty hup ht v, fun v ht => execCarmTnStackRst_of_one hup ht,
    fun v => execCarmTnStackRst_of_zero, fun c hc => ⟨fun h => ?_, fun h => ?_⟩, fun h => ?_⟩
  case exit =>
    have hwork := (workInterruptAcknowledge_of_exit_window hup hp hexit).trans
      (congrArg Host.Outcome.next (State.handoff_of_candidate hp hc))
    exact ⟨fun hb => hwork.trans (congrArg Host.Outcome.next (if_pos hb)),
      fun hb => hwork.trans (congrArg Host.Outcome.next (if_neg (Bool.eq_false_iff.mp hb)))⟩
  case waiting =>
    have hwork := workInterruptAcknowledge_of_candidate hup hp hexit hc
    exact ⟨fun hb => hwork.trans (congrArg Host.Outcome.next (if_pos hb)),
      fun hb => hwork.trans (congrArg Host.Outcome.next (if_neg (Bool.eq_false_iff.mp hb)))⟩
  case replaced =>
    have hnew := State.replaceProv_of_more_urgent hp hc hlt
    have hprov : ((s.replaceProv t).tgt t).prov = some c := by
      rw [hnew, State.bumpSat_tgt, State.tgt_setTgt_of_ne_init (Target.ne_init_of_prov rfl)]
    refine ⟨?_, ?_⟩
    · rw [workInterruptAcknowledge_of_entry_window hup hp, hnew]
    · rw [workInterruptCommit_of_prov hprov, hnew]
  case kept =>
    have hsame := State.replaceProv_of_no_more_urgent hp hle
    refine ⟨?_, ?_⟩
    · rw [workInterruptAcknowledge_of_entry_window hup hp, hsame]
    · rw [workInterruptCommit_of_prov (p := p) (by rw [hsame]; exact hp), hsame]
  · exact fun hv => (execCarmTnEoi_of_top hup ht v hst).trans (congrArg Host.Outcome.next (if_pos hv.symm))
  · exact fun hv => (execCarmTnEoi_of_top hup ht v hst).trans (congrArg Host.Outcome.next (if_neg (Ne.symm hv)))
  · exact congrArg Host.Outcome.next (State.hostRelay_of_due hc h)
  · exact congrArg Host.Outcome.next (State.hostRelay_of_early hc h)
  · exact congrArg Host.Outcome.next (State.hostRelay_of_no_candidate h)

end Sys2Proof.Machine

end

section

namespace Sys2Proof.Machine

/-! ## The priority stacks (15 R288 to R293)

A stack whose levels rise strictly below 32 holds at most 32 entries. That the commands of Carmine keep the order fails of a
state whose table of targets is not in canonical form: a stack reset that leaves a target as it was at reset removes its first
entry in the table, and a second one under the same number comes to light. -/

/-- Levels that rise strictly and lie below 32 are distinct numbers below 32. -/
theorem length_le_of_pairwise_lt {l : List Nat} {n : Nat} (h : l.Pairwise (· < ·)) (hn : ∀ x ∈ l, x < n) : l.length ≤ n := by
  have hsub : l ⊆ List.range n := fun x hx => List.mem_range.mpr (hn x hx)
  have hnodup : l.Nodup := h.imp Nat.ne_of_lt
  simpa using (List.subperm_of_subset hnodup hsub).length_le

theorem State.stack_length_le (s : State) (t : Nat) (h : s.stacksOrdered) (ht : t < 5) : (s.tgt t).stack.length ≤ 32 := by
  obtain ⟨hlevels, hbelow, -⟩ := h t ht
  simpa using length_le_of_pairwise_lt hlevels fun x hx => by
    obtain ⟨e, he, rfl⟩ := List.mem_map.mp hx
    exact hbelow e he

@[simp] theorem State.released_tgt (s : State) (n t : Nat) : (s.released n).tgt t = s.tgt t := by
  unfold State.released
  split <;> rfl

/-- CTL up and target 0 twice in the table: with source 3 on its stack at level 5, and behind that a stack out of order. -/
def targetTwice : State :=
  (State.reset.setReg R.IVR_DOM_UP 2).modCarmine fun k => { k with
    tgts := [(0, ⟨[(5, 3)], none, false, none⟩), (0, ⟨[(2, 1), (1, 2)], none, false, none⟩)] }

theorem targetTwice_domUp : targetTwice.domUp dCTL = true := by
  have hreg : targetTwice.reg R.IVR_DOM_UP = 2 := State.reg_setReg_same State.reset R.IVR_DOM_UP 2 rfl
  rw [State.domUp, State.regBit, hreg]
  decide

/-- What is read of the table is in order. -/
theorem targetTwice_stacksOrdered : targetTwice.stacksOrdered := by
  intro t ht
  interval_cases t <;> decide

/-- The stack reset of target 0 leaves the second entry. -/
theorem targetTwice_tgt_of_reset : (((targetTwice.tgt 0).stack.foldl (fun u e => u.released e.2)
    (targetTwice.setTgt 0 { targetTwice.tgt 0 with stack := [], orderPend := false })).tgt 0).stack = [(2, 1), (1, 2)] := by
  have hreleased := foldl_view (State.tgt · 0) (fun u (e : Nat × Nat) => u.released e.2) (fun u e => u.released_tgt e.2 0)
    (targetTwice.tgt 0).stack (targetTwice.setTgt 0 { targetTwice.tgt 0 with stack := [], orderPend := false })
  exact (congrArg Target.stack hreleased).trans rfl

/-- Refutes O57: the stack reset of `targetTwice`, whose table lists target 0 twice, leaves a stack of levels 2 and 1. -/
theorem not_priorityStacksStayOrdered : ¬ Obligations.PriorityStacksStayOrdered := by
  unfold Obligations.PriorityStacksStayOrdered
  rintro ⟨-, hkeeps⟩
  have hreset : exec (.carmTnStackRst 0 1) targetTwice = _ :=
    execCarmTnStackRst_of_one targetTwice_domUp (by decide) (by decide)
  obtain ⟨hlevels, -, -⟩ := hkeeps targetTwice _ 0 1 _ (by decide) targetTwice_stacksOrdered
    (.inr (.inr (.inr (.inl rfl)))) hreset 0 (by decide)
  rw [targetTwice_tgt_of_reset] at hlevels
  exact absurd hlevels (by decide)

end Sys2Proof.Machine

end

section

namespace Sys2Proof.Machine

/-! ## Slate's queues (14 R259 to R266, R268) -/

/-! ### A request at its guard (13 R247) -/

theorem State.guarded_of_pass {s : State} {a m : Nat} {wr : Bool} (h : s.denial a m wr = none) :
    s.guarded a m wr = (s, true) := by
  simp only [State.guarded, h]

theorem State.guarded_of_denial {s : State} {a m c : Nat} {wr : Bool} (h : s.denial a m wr = some c) :
    s.guarded a m wr = (s.deny a m wr c, false) := by
  simp only [State.guarded, h]

/-! ### SEND_WINDOW_STAGE and DESCRIPTOR_COMMIT (14 R262 to R264) -/

/-- The staging buffer that a master writes for a queue: its own, or one begun anew. -/
def State.stageFor (s : State) (m q : Nat) : StageBuf :=
  if (s.stage m).queue = q then s.stage m else { StageBuf.init with queue := q }

section Send
variable {s : State} {m q : Nat} (hup : s.domUp dFAB = true) (hfree : (s.stage m).stalled = none)
include hup hfree

theorem execSendWindowStage_of_pass {off : Nat} (v : Word) (h : s.denial (R.SLT_SEND q + off) m true = none) (h0 : off ≠ 0)
    (hmax : off ≤ 0x20) : execSendWindowStage m q off v s = .next (s.modSlate fun x => { x with
      staging := x.staging.set m { s.stageFor m q with words := (s.stageFor m q).words.set off v } }) := by
  have hword : ¬(off = 0 ∨ 0x20 < off) := by omega
  simp only [execSendWindowStage, hfree, hup, State.guarded_of_pass h, if_neg hword, Option.isSome_none, Bool.not_true,
    Bool.false_eq_true, or_self, if_false]
  rfl

theorem execSendWindowStage_of_denial {off c : Nat} (v : Word) (h : s.denial (R.SLT_SEND q + off) m true = some c) :
    execSendWindowStage m q off v s = .next { s.deny (R.SLT_SEND q + off) m true c with readErr := true } := by
  simp only [execSendWindowStage, hfree, hup, State.guarded_of_denial h, Option.isSome_none, Bool.not_true, Bool.not_false,
    Bool.false_eq_true, or_self, if_false, if_true]

variable (h : s.denial (R.SLT_SEND q) m true = none) {w : Word}
include h

theorem execDescriptorCommit_of_invalid (hv : bit w 31 = false) : execDescriptorCommit m q w s =
    .next ({ s with readErr := false }.modSlate fun x => { x with staging := x.staging.erase m }) := by
  simp only [execDescriptorCommit, hfree, hup, State.guarded_of_pass h, hv, Option.isSome_none, Bool.not_true,
    Bool.not_false, Bool.false_eq_true, if_false, if_true]

variable (hv : bit w 31 = true)
include hv

theorem execDescriptorCommit_of_refusal {c : Nat} (hc : { s with readErr := false }.refusal q w (s.stageFor m q) = some c) :
    execDescriptorCommit m q w s = .next ({ s with readErr := false }.refuse m q c) := by
  unfold State.stageFor at hc
  simp only [execDescriptorCommit, hfree, hup, State.guarded_of_pass h, hv, Option.isSome_none, Bool.not_true,
    Bool.false_eq_true, if_false, hc]

variable (hc : { s with readErr := false }.refusal q w (s.stageFor m q) = none)
include hc

theorem execDescriptorCommit_of_no_refusal : execDescriptorCommit m q w s = .next (
    if { s with readErr := false }.mustStall q (s.stageFor m q) then { s with readErr := false }.stall m q w (s.stageFor m q)
    else ({ s with readErr := false }.admitCommit m q w (s.stageFor m q)).modSlate fun x =>
      { x with staging := x.staging.erase m }) := by
  unfold State.stageFor at hc
  simp only [execDescriptorCommit, hfree, hup, State.guarded_of_pass h, hv, Option.isSome_none, Bool.not_true,
    Bool.false_eq_true, if_false, hc]
  rfl

end Send

/-! ### STALLED_COMMIT_ADMIT (14 R264) -/

section Stalled
variable {s : State} {m : Nat} {w : Word} (h : (s.stage m).stalled = some w)
include h

theorem State.admitStalled_of_refusal {c : Nat} (hc : s.refusal (s.stage m).queue w (s.stage m) = some c) :
    s.admitStalled m = s.refuse m (s.stage m).queue c := by
  simp only [State.admitStalled, h, hc]

theorem State.admitStalled_of_no_refusal (hc : s.refusal (s.stage m).queue w (s.stage m) = none) :
    s.admitStalled m = if s.mustStall (s.stage m).queue (s.stage m) then s
      else ({ s with readErr := false }.admitCommit m (s.stage m).queue w (s.stage m)).modSlate fun x =>
        { x with staging := x.staging.erase m } := by
  simp only [State.admitStalled, h, hc]

end Stalled

/-! ### QUEUE_POP (14 R265) -/

section Pop
variable {s : State} {m q : Nat} (hup : s.domUp dFAB = true)
include hup

theorem execQueuePop_of_head {d : Desc} {ds : List Desc} (h : s.denial (R.SLT_POP q) m false = none)
    (hq : s.queue q = d :: ds) (hen : s.qEn q = true) (ht : s.qType q = 0) : execQueuePop m q 0 s =
      .next { (s.consume q 1).modSlate (fun x => { x with pop := x.pop.set m (q, d) }) with
        readErr := false, readData := leBytes 4 d.header.toNat } := by
  simp only [execQueuePop, hup, Nat.add_zero, State.guarded_of_pass h, hq, hen, ht, Bool.not_true, Bool.false_eq_true,
    if_false, if_true, decide_true, Bool.and_self]

theorem execQueuePop_of_empty (h : s.denial (R.SLT_POP q) m false = none) (hq : s.queue q = []) :
    execQueuePop m q 0 s = .next { s with readErr := false, readData := leBytes 4 0 } := by
  simp only [execQueuePop, hup, Nat.add_zero, State.guarded_of_pass h, hq, Bool.not_true, Bool.false_eq_true, if_false, if_true]

theorem execQueuePop_of_latch {off : Nat} {d : Desc} (h : s.denial (R.SLT_POP q + off) m false = none) (h0 : off ≠ 0)
    (hpop : s.slate.pop.get? m = some (q, d)) (ht : s.qType q = 0) :
    execQueuePop m q off s = .next { s with readErr := false, readData := slice d.bytes off 4 } := by
  simp only [execQueuePop, hup, State.guarded_of_pass h, h0, hpop, ht, Bool.not_true, Bool.false_eq_true, if_false, if_true,
    and_self]

end Pop

/-! ### Where an admitted descriptor is written (14 R259, R268)

An admission writes a queue's occupancy, sequence and peak, and counters, and none of the registers that say where the queue
stores its descriptors. -/

/-- The registers that place a queue's descriptors. -/
def State.placing (s : State) (q : Nat) : Word × Word × Word :=
  (s.reg (R.SLT_Qn_CFG q), s.reg (R.SLT_Qn_BASE_LO q), s.reg (R.SLT_Qn_BASE_HI q))

/-- A register that is none of the first three of a queue. -/
def besidePlacing (a : Nat) : Prop := a < 0x20640000 ∨ 12 ≤ a % 64

theorem State.setReg_placing (s : State) {a : Nat} (h : besidePlacing a) (v : Word) (q : Nat) :
    (s.setReg a v).placing q = s.placing q := by
  unfold besidePlacing at h
  simp only [State.placing]
  rw [State.reg_setReg_other s a _ v (by unfold R.SLT_Qn_CFG; omega),
    State.reg_setReg_other s a _ v (by unfold R.SLT_Qn_BASE_LO; omega),
    State.reg_setReg_other s a _ v (by unfold R.SLT_Qn_BASE_HI; omega)]

theorem State.setReg64_placing (s : State) {a : Nat} (h : besidePlacing a) (h4 : besidePlacing (a + 4)) (v q : Nat) :
    (s.setReg64 a v).placing q = s.placing q :=
  (State.setReg_placing _ h4 _ q).trans (State.setReg_placing s h _ q)

theorem besidePlacing_occ (q : Nat) : besidePlacing (R.SLT_Qn_OCC q) := by
  unfold besidePlacing R.SLT_Qn_OCC
  omega

theorem State.settleReply_placing (s : State) (k : Nat) (b : StageBuf) (q : Nat) :
    (s.settleReply k b).placing q = s.placing q := by
  unfold State.settleReply
  split
  · exact s.setReg_placing (besidePlacing_occ _) _ q
  · split
    · exact s.setReg_placing (besidePlacing_occ _) _ q
    · rfl

/-- The lines of the watermarks are sources of Slate's own status register. -/
theorem intStatus_of_watermark {n : Nat} (h : n < 32) : intStatus (288 + n) = some (R.SLT_INT_STATUS_LO, n) := by
  interval_cases n <;> rfl

theorem State.setQueue_placing (s : State) (k : Nat) (l : List Desc) (q : Nat) :
    (s.setQueue k l).placing q = s.placing q := by
  have hpeak : besidePlacing (R.SLT_Qn_PEAK k) := by
    unfold besidePlacing R.SLT_Qn_PEAK
    omega
  have hsource (t : State) (c : Bool) : (t.assertSourceIf c (288 + t.regFld (R.SLT_Qn_CFG k) 12 8)).placing q = t.placing q := by
    have hline : t.regFld (R.SLT_Qn_CFG k) 12 8 < 32 := Nat.mod_lt _ (by decide)
    unfold State.assertSourceIf State.assertSource
    rw [intStatus_of_watermark hline]
    split
    · exact t.setReg_placing (.inl (by decide)) _ q
    · rfl
  have hraised (t : State) (c : Prop) [Decidable c] (v : Word) :
      (if c then t.setReg (R.SLT_Qn_PEAK k) v else t).placing q = t.placing q := by
    split
    · exact t.setReg_placing hpeak v q
    · rfl
  unfold State.setQueue
  rw [hsource, hraised]
  exact State.setReg_placing _ (besidePlacing_occ k) _ q

theorem State.countCommit_placing (s : State) (k q : Nat) : (s.countCommit k).placing q = s.placing q := by
  have henq : besidePlacing (R.SLT_Qn_ENQ_SEQ k) := by
    unfold besidePlacing R.SLT_Qn_ENQ_SEQ
    omega
  have hlast : besidePlacing (R.SLT_Qn_LAST_LO k) ∧ besidePlacing (R.SLT_Qn_LAST_LO k + 4) := by
    unfold besidePlacing R.SLT_Qn_LAST_LO
    omega
  have hcount : ((s.bump (R.SLT_Qn_ENQ_SEQ k)).setReg64 (R.SLT_Qn_LAST_LO k) s.now).placing q = s.placing q :=
    (State.setReg64_placing _ hlast.1 hlast.2 _ q).trans (s.setReg_placing henq _ q)
  unfold State.countCommit
  split
  · exact (State.setReg64_placing _ (.inl (by decide)) (.inl (by decide)) _ q).trans hcount
  · exact (State.setReg64_placing _ (.inl (by decide)) (.inl (by decide)) _ q).trans hcount

theorem State.descAt_of_placing {s t : State} {q : Nat} (h : t.placing q = s.placing q) (seq : Word) :
    t.descAt q seq = s.descAt q seq := by
  obtain ⟨hcfg, hlo, hhi⟩ : t.reg (R.SLT_Qn_CFG q) = s.reg (R.SLT_Qn_CFG q) ∧
      t.reg (R.SLT_Qn_BASE_LO q) = s.reg (R.SLT_Qn_BASE_LO q) ∧ t.reg (R.SLT_Qn_BASE_HI q) = s.reg (R.SLT_Qn_BASE_HI q) := by
    simpa only [State.placing, Prod.mk.injEq] using h
  simp only [State.descAt, State.qBase, State.qDepth, State.regN, State.regFld, hcfg, hlo, hhi]

/-- The descriptor of a POPPED queue is also written at its place in the queue's storage. -/
theorem State.admitCommit_of_popped {s : State} {q : Nat} (m : Nat) (w : Word) (b : StageBuf) (ht : s.qType q = 0) :
    let d := s.descOf m q w b
    let t := ((s.settleReply q b).setQueue q (s.queue q ++ [d])).countCommit q
    s.admitCommit m q w b = t.engineWrite q (t.descAt q d.seq) d.bytes := by
  intro d t
  have hplace : t.placing q = s.placing q :=
    (State.countCommit_placing _ q q).trans ((State.setQueue_placing _ q _ q).trans (s.settleReply_placing q b q))
  have hone : s.qType q ≠ 1 := by omega
  have htwo : s.qType q ≠ 2 := by omega
  rw [State.descAt_of_placing hplace]
  simp only [State.admitCommit, hone, htwo, if_false]
  rfl

/-! ### LANDING_WRITE and SLT_QN_ACK (14 R266) -/

section Landing
variable {s : State}

theorem workLandingWrite_of_none (h : takeLanding s.landable s.slate.landing = none) : workLandingWrite s = .next s := by
  simp only [workLandingWrite, h, ite_self]

theorem workLandingWrite_of_some {q : Nat} {d : Desc} {rest : List (Nat × Desc)} (hup : s.domUp dFAB = true)
    (h : takeLanding s.landable s.slate.landing = some ((q, d), rest)) : workLandingWrite s =
      .next ((((s.modSlate fun x => { x with landing := rest }).showLanding).landWrite q (s.descAt q d.seq) d.bytes).landWrite q
        (s.statusAt q) (leBytes 4 (d.seq.toNat + 1) ++ leBytes 4 (s.occupancy q))) := by
  simp only [workLandingWrite, hup, h, Bool.not_true, Bool.false_eq_true, if_false]

theorem execSltQnAck_of_landing {q : Nat} (v : Word) (hen : s.qEn q = true) (ht : s.qType q = 1) (hup : s.domUp dFAB = true) :
    let n := (v - s.reg (R.SLT_Qn_DEQ_SEQ q)).toNat
    execSltQnAck q v s = .next (if n ≤ s.occupancy q - s.inLanding q then s.consume q n
      else (s.bumpSat R.SLT_BAD_ACK).assertSource 324) := by
  have hin : ¬((!s.qEn q) = true ∨ s.qType q ≠ 1 ∨ (!s.domUp dFAB) = true) := by simp [hen, ht, hup]
  simp only [execSltQnAck, if_neg hin]

end Landing

/-! ### QUEUE_GET_STATUS -/

/-- The checks of a QUEUE_GET_STATUS page in their order. -/
def queueStatusCheck (c : Cmd) (s : State) : Check :=
  let b := c.block
  allOf [inRange (u16 b 0) 0 4095 0, s.reach dFAB, need (1 ≤ u16 b 2 && u16 b 2 ≤ 4096 - u16 b 0) (badParam 2),
    reserved b 4 4, need (u64 b 8 % 8 = 0) (badParam 8)]

theorem queueStatusCheck_of_fields {c : Cmd} {s : State} (hq : u16 c.block 0 ≤ 4095) (hreach : s.reach dFAB = .ok ())
    (hmin : 1 ≤ u16 c.block 2) (hmax : u16 c.block 2 ≤ 4096 - u16 c.block 0) (hres : u32 c.block 4 = 0)
    (halign : u64 c.block 8 % 8 = 0) : queueStatusCheck c s = .ok () := by
  rw [queueStatusCheck, allOf_cons_of_ok (inRange_of_mem (Nat.zero_le _) hq _), allOf_cons_of_ok hreach,
    allOf_cons_of_ok (need_of_true (by simp [hmin, hmax]) _), allOf_cons_of_ok (reserved_of_leNat_eq_zero hres),
    allOf_cons_of_ok (need_of_true (decide_eq_true halign) _)]
  rfl

section Status
variable {c : Cmd} {s : State} (h : queueStatusCheck c s = .ok ()) (d : Option (Option Bytes))
include h

theorem queueStatusBody_of_write {t : State} (hw : s.dmaWrite (s.pathFn c.path) (u64 c.block 8)
    ((List.range (u16 c.block 2)).flatMap fun i => s.queueEntry c.fn (u16 c.block 0 + i)) = some t) :
    queueStatusBody c d s = .done t [] := by
  unfold queueStatusCheck at h
  simp only [queueStatusBody, h, hw]

theorem queueStatusBody_of_no_write (hw : s.dmaWrite (s.pathFn c.path) (u64 c.block 8)
    ((List.range (u16 c.block 2)).flatMap fun i => s.queueEntry c.fn (u16 c.block 0 + i)) = none) :
    queueStatusBody c d s = .failWith (s.countDmaErr c.fn) dmaError := by
  unfold queueStatusCheck at h
  simp only [queueStatusBody, h, hw]

end Status

/-- Settles O52: each command by its guard, what is staged, queued or landing, and the room. -/
theorem slateSendAndReceive : Obligations.SlateSendAndReceive := by
  unfold Obligations.SlateSendAndReceive
  intro s
  refine ⟨fun m q off v hup hfree => ⟨fun hpass h0 hmax => execSendWindowStage_of_pass hup hfree v hpass h0 hmax,
      fun c hc => execSendWindowStage_of_denial hup hfree v hc⟩,
    fun m q w hup hfree hpass => ⟨fun hv => execDescriptorCommit_of_invalid hup hfree hpass hv,
      fun c hv hc => execDescriptorCommit_of_refusal hup hfree hpass hv hc, fun hv hc hstall => ?_, fun hv hc hroom => ?_⟩,
    fun m w hrun hup hm hw => ?stalled,
    fun m q hup hpass => ⟨fun d ds hq hen ht => execQueuePop_of_head hup hpass hq hen ht,
      fun hq => execQueuePop_of_empty hup hpass hq⟩,
    fun m q off d hup hpass h0 hpop ht => execQueuePop_of_latch hup hpass h0 hpop ht,
    fun q d rest hrun hup htake => (clocked_of_clocksRun workLandingWrite s hrun).trans (workLandingWrite_of_some hup htake),
    fun m q w b ht _ => State.admitCommit_of_popped m w b ht,
    fun hrun hnone => (clocked_of_clocksRun workLandingWrite s hrun).trans (workLandingWrite_of_none hnone),
    fun q v hen ht hup => ⟨fun hn => (execSltQnAck_of_landing v hen ht hup).trans (congrArg Host.Outcome.next (if_pos hn)),
      fun hn => (execSltQnAck_of_landing v hen ht hup).trans (congrArg Host.Outcome.next (if_neg (Nat.not_le.mpr hn)))⟩,
    fun p l hturn hq hreach hmin hmax hres halign => ?status⟩
  · exact (execDescriptorCommit_of_no_refusal hup hfree hpass hv hc).trans (congrArg Host.Outcome.next (if_pos hstall))
  · exact (execDescriptorCommit_of_no_refusal hup hfree hpass hv hc).trans
      (congrArg Host.Outcome.next (if_neg (Bool.eq_false_iff.mp hroom)))
  case stalled =>
    have hadmit : exec (.stalledCommitAdmit m) s = .next (s.admitStalled m) :=
      (clocked_of_clocksRun _ s hrun).trans (congrArg Host.Outcome.next (if_pos (by simp [hup, hm])))
    rw [hadmit]
    refine ⟨fun c hc => ?_, fun hc hstall => ?_, fun hc hroom => ?_⟩
    · rw [State.admitStalled_of_refusal hw hc]
    · rw [State.admitStalled_of_no_refusal hw hc, if_pos hstall]
    · rw [State.admitStalled_of_no_refusal hw hc, if_neg (Bool.eq_false_iff.mp hroom)]
  case status =>
    have hcheck := queueStatusCheck_of_fields hq hreach hmin hmax hres halign
    exact ⟨fun t hw => congrArg Host.Outcome.next (runPage_done_of_turn hturn (queueStatusBody_of_write hcheck _ hw)),
      fun hw => congrArg Host.Outcome.next (runPage_failWith_of_turn hturn (queueStatusBody_of_no_write hcheck _ hw))⟩

end Sys2Proof.Machine

end

section

namespace Sys2Proof.Machine

/-! ## Slate's combining blocks (14 R271 to R275) -/

section Combining
variable {s : State} {c : Nat}

/-! ### A contribution (14 R272, R274) -/

theorem workContributionProcess_of_waiting (h : s.cEn c = false ∨ (s.comb c).result ≠ none ∨ s.combQueue c = none) :
    workContributionProcess c s = .next s := by
  refine congrArg Host.Outcome.next ?_
  split
  · rfl
  · next hcond =>
    obtain ⟨-, hen, hres⟩ : s.domUp dFAB = true ∧ s.cEn c = true ∧ (s.comb c).result = none := by simpa using hcond
    have hnone : s.combQueue c = none := by simpa [hen, hres] using h
    simp only [hnone]

section Head
variable (hup : s.domUp dFAB = true) (hen : s.cEn c = true) (hres : (s.comb c).result = none) {q : Nat}
  (hq : s.combQueue c = some q) {d : Desc} {ds : List Desc} (hd : s.queue q = d :: ds)

/-- The bytes of a contribution read under its queue's master ID, zeros on an error, and the state without it. -/
def State.takeContribution (s : State) (c q : Nat) (d : Desc) : State × Bytes :=
  let rd := s.engineRead q (d.addr.toNat % 2 ^ 40) (s.cLen c * 4)
  (rd.1.consume q 1, rd.2.getD (List.replicate (s.cLen c * 4) 0))

include hup hen hres hq hd

/-- A contribution that is summed as it comes. -/
theorem workContributionProcess_of_summed
    (h : (s.takeContribution c q d).1.cFp c = false ∨ (s.takeContribution c q d).1.cOrdered c = false) :
    let i := d.arg.toNat % 256
    let r := d.arg.toNat / 65536 % 65536
    let t := (s.takeContribution c q d).1
    let v := vectorOf (t.cFp c) (s.takeContribution c q d).2 (s.cLen c)
    let x := t.comb c
    let k := BitVec.ofNat 64 (2 ^ i)
    workContributionProcess c s = .next (if r = t.cRound c then
        ((t.setComb c { x with acc := addVector (t.cFp c) x.acc v }).setReg64 (R.SLT_Cn_ARRIVED_LO c)
          (t.cArrived c ||| k).toNat).combDone c
      else t.setComb c { x with accNext := addVector (t.cFp c) x.accNext v, arrivedNext := x.arrivedNext ||| k }) := by
  have hstore : ((s.takeContribution c q d).1.cFp c && (s.takeContribution c q d).1.cOrdered c) = false :=
    Bool.and_eq_false_iff.mpr h
  unfold State.takeContribution at hstore
  simp only [workContributionProcess, hup, hen, hres, hq, hd, hstore, Option.isSome_none, Bool.not_true, Bool.false_eq_true,
    or_self, if_false]
  rfl

/-- A contribution of an ORDERED FP32 block is stored in its slot. -/
theorem workContributionProcess_of_stored (hfp : (s.takeContribution c q d).1.cFp c = true)
    (hord : (s.takeContribution c q d).1.cOrdered c = true) :
    let i := d.arg.toNat % 256
    let r := d.arg.toNat / 65536 % 65536
    let t := (s.takeContribution c q d).1
    let u := t.engineWrite q (t.cBuf c + r % 2 * t.cRoundSize c + i * s.cLen c * 4) (s.takeContribution c q d).2
    let k := BitVec.ofNat 64 (2 ^ i)
    workContributionProcess c s = .next (if r = u.cRound c then
        ((u.setComb c (t.comb c)).setReg64 (R.SLT_Cn_ARRIVED_LO c) (u.cArrived c ||| k).toNat).combDone c
      else u.setComb c { t.comb c with arrivedNext := (t.comb c).arrivedNext ||| k }) := by
  have hstore : ((s.takeContribution c q d).1.cFp c && (s.takeContribution c q d).1.cOrdered c) = true := by simp [hfp, hord]
  unfold State.takeContribution at hstore
  simp only [workContributionProcess, hup, hen, hres, hq, hd, hstore, Option.isSome_none, Bool.not_true, Bool.false_eq_true,
    or_self, if_false, if_true]
  rfl

end Head

/-! ### The result and the release of its buffer (14 R275) -/

/-- The buffer of a round's result. -/
def State.resultAt (s : State) (c r : Nat) : Nat := s.cBuf c + r % 2 * s.cRoundSize c

/-- The header of a result's descriptor. -/
def State.resultHeader (s : State) (c : Nat) : Word :=
  w32 (0x80000000 + s.qNet (s.cResultQ c) * 0x10000000 + s.regFld (R.SLT_Cn_KIND c) 15 0)

/-- The words of a result's descriptor, as staged for the result queue. -/
def State.resultStage (s : State) (c r : Nat) (bm : BitVec 64) : StageBuf :=
  ⟨s.cResultQ c, [(0x08, w32 (s.resultAt c r)), (0x0C, w32 (s.resultAt c r / 0x100000000)), (0x10, w32 (s.cLen c * 4)),
    (0x14, w32 r), (0x18, w32 bm.toNat), (0x1C, w32 (bm.toNat / 0x100000000))], none⟩

section Result
variable (hup : s.domUp dFAB = true) {r : Nat} {bm : BitVec 64} (hres : (s.comb c).result = some (r, bm))
include hup hres

/-- The result queue takes the result: an enabled REQ queue of type POPPED or LANDING with room. -/
theorem workCombineResultCommit_of_room (hen : s.qEn (s.cResultQ c) = true) (hnet : s.qNet (s.cResultQ c) = 0)
    (htype : s.qType (s.cResultQ c) ≤ 1) (hroom : s.mustStall (s.cResultQ c) (s.resultStage c r bm) = false) :
    let t := (s.admitCommit 0x030 (s.cResultQ c) (s.resultHeader c) (s.resultStage c r bm)).modSlate fun x =>
      { x with staging := x.staging.erase (combStage c) }
    workCombineResultCommit c s = .next ((t.setComb c { t.comb c with result := none }).combDone c) := by
  unfold State.resultStage State.resultAt at hroom
  have hin : ¬((!s.qEn (s.cResultQ c)) = true ∨ s.qNet (s.cResultQ c) ≠ 0 ∨ 1 < s.qType (s.cResultQ c) ∨ False) := by
    simp [hen, hnet, htype]
  simp only [workCombineResultCommit, hres, hup, hroom, Bool.not_true, Bool.false_eq_true, if_false, if_neg hin]
  rfl

theorem workCombineResultCommit_of_stall (h : s.qEn (s.cResultQ c) = false ∨ s.qNet (s.cResultQ c) ≠ 0 ∨
    1 < s.qType (s.cResultQ c) ∨ s.mustStall (s.cResultQ c) (s.resultStage c r bm) = true) :
    workCombineResultCommit c s = .next (if (s.stage (combStage c)).stalled.isSome then s
      else s.stall (combStage c) (s.cResultQ c) (s.resultHeader c) (s.resultStage c r bm)) := by
  have hcond : (!s.qEn (s.cResultQ c)) = true ∨ s.qNet (s.cResultQ c) ≠ 0 ∨ 1 < s.qType (s.cResultQ c) ∨
      s.mustStall (s.cResultQ c) (s.resultStage c r bm) = true := by simpa using h
  unfold State.resultStage State.resultAt at hcond
  simp only [workCombineResultCommit, hres, hup, Bool.not_true, Bool.false_eq_true, if_false, if_pos hcond]
  rfl

end Result

theorem execSltCnRelease_of_held (v : Word) (hup : s.domUp dFAB = true) (h : v.toNat % 65536 ∈ (s.comb c).held) :
    execSltCnRelease c v s = .next
      ((s.setComb c { s.comb c with held := (s.comb c).held.erase (v.toNat % 65536) }).showComb c (s.cRound c)) :=
  congrArg Host.Outcome.next (if_neg (by simp [hup, h]))

theorem execSltCnRelease_of_not_held (v : Word) (h : v.toNat % 65536 ∉ (s.comb c).held) : execSltCnRelease c v s = .next s :=
  congrArg Host.Outcome.next (if_pos (.inr (by simp [h])))

end Combining

/-- Settles O53: a contribution by how its block sums, a result by its queue, a release by the rounds held. -/
theorem slateCombining : Obligations.SlateCombining := by
  unfold Obligations.SlateCombining
  intro s c
  refine ⟨fun q d ds hrun hup hen hres hq hd => ?contribution, fun hrun h => ?waiting, fun r bm hrun hup hres => ?result,
    fun v hup => ⟨execSltCnRelease_of_held v hup, execSltCnRelease_of_not_held v⟩⟩
  case contribution =>
    have hexec : exec (.contributionProcess c) s = workContributionProcess c s := clocked_of_clocksRun _ s hrun
    refine ⟨fun hsum => ⟨fun hr => ?_, fun hr => ?_⟩, fun hfp hord => ⟨fun hr => ?_, fun hr => ?_⟩⟩
    · exact hexec.trans ((workContributionProcess_of_summed hup hen hres hq hd hsum).trans
        (congrArg Host.Outcome.next (if_pos hr)))
    · exact hexec.trans ((workContributionProcess_of_summed hup hen hres hq hd hsum).trans
        (congrArg Host.Outcome.next (if_neg hr)))
    · exact hexec.trans ((workContributionProcess_of_stored hup hen hres hq hd hfp hord).trans
        (congrArg Host.Outcome.next (if_pos hr)))
    · exact hexec.trans ((workContributionProcess_of_stored hup hen hres hq hd hfp hord).trans
        (congrArg Host.Outcome.next (if_neg hr)))
  case waiting => exact (clocked_of_clocksRun _ s hrun).trans (workContributionProcess_of_waiting h)
  case result =>
    have hexec : exec (.combineResultCommit c) s = workCombineResultCommit c s := clocked_of_clocksRun _ s hrun
    refine ⟨fun hen hnet htype hroom => hexec.trans (workCombineResultCommit_of_room hup hres hen hnet htype hroom),
      fun h => ⟨fun hfree => ?_, fun hstalled => ?_⟩⟩
    · exact hexec.trans ((workCombineResultCommit_of_stall hup hres h).trans
        (congrArg Host.Outcome.next (if_neg (by simp [hfree]))))
    · exact hexec.trans ((workCombineResultCommit_of_stall hup hres h).trans
        (congrArg Host.Outcome.next (if_pos (Option.isSome_iff_ne_none.mpr hstalled))))

end Sys2Proof.Machine

end

section

namespace Sys2Proof.Machine

/-! ## The tables, the log and the debug window (13 R245, R256, 18 R346, R347, R350) -/

/-! ### ACCESS_READ_TABLE -/

/-- The checks of an ACCESS_READ_TABLE page in their order. -/
def accessReadCheck (c : Cmd) : Check :=
  let b := c.block
  let g := u8 b 0
  allOf [inRange g 0 18 0, reserved b 1 1, need (u16 b 2 < guardEntries g) (badParam 2),
    need (1 ≤ u16 b 4 && u16 b 2 + u16 b 4 ≤ guardEntries g) (badParam 4), reserved b 6 2,
    need (u64 b 8 % 8 = 0) (badParam 8)]

theorem accessReadCheck_of_fields {c : Cmd} (hg : u8 c.block 0 ≤ 18) (hres : u8 c.block 1 = 0)
    (hfirst : u16 c.block 2 < guardEntries (u8 c.block 0)) (hmin : 1 ≤ u16 c.block 4)
    (hmax : u16 c.block 2 + u16 c.block 4 ≤ guardEntries (u8 c.block 0)) (hres' : u16 c.block 6 = 0)
    (halign : u64 c.block 8 % 8 = 0) : accessReadCheck c = .ok () := by
  rw [accessReadCheck, allOf_cons_of_ok (inRange_of_mem (Nat.zero_le _) hg _),
    allOf_cons_of_ok (reserved_of_leNat_eq_zero hres), allOf_cons_of_ok (need_of_true (decide_eq_true hfirst) _),
    allOf_cons_of_ok (need_of_true (by simp [hmin, hmax]) _), allOf_cons_of_ok (reserved_of_leNat_eq_zero hres'),
    allOf_cons_of_ok (need_of_true (decide_eq_true halign) _)]
  rfl

section ReadTable
variable {c : Cmd} {s : State} (h : accessReadCheck c = .ok ()) (d : Option (Option Bytes))
include h

theorem accessReadBody_of_write {t : State} (hw : s.dmaWrite (s.pathFn c.path) (u64 c.block 8)
    (s.entryBytes (u8 c.block 0) (u16 c.block 4) (u16 c.block 2)) = some t) : accessReadBody c d s = .done t [] := by
  unfold accessReadCheck at h
  simp only [accessReadBody, h, hw]

theorem accessReadBody_of_no_write (hw : s.dmaWrite (s.pathFn c.path) (u64 c.block 8)
    (s.entryBytes (u8 c.block 0) (u16 c.block 4) (u16 c.block 2)) = none) :
    accessReadBody c d s = .failWith (s.countDmaErr c.fn) dmaError := by
  unfold accessReadCheck at h
  simp only [accessReadBody, h, hw]

end ReadTable

/-! ### FAULT_READ_LOG -/

/-- The entries that a FAULT_READ_LOG page asks for. -/
def State.logAsked (s : State) (b : Bytes) : List Bytes :=
  ((s.validLog.filter fun e => u32 b 0 ≤ e.1).take (u32 b 4)).map fun e => e.2

theorem faultReadLogCheck_of_fields {b : Bytes} (hmin : 1 ≤ u32 b 4) (hmax : u32 b 4 ≤ 16384) (halign : u64 b 8 % 8 = 0) :
    allOf [inRange (u32 b 4) 1 16384 4, need (u64 b 8 % 8 = 0) (badParam 8)] = .ok () := by
  rw [allOf_cons_of_ok (inRange_of_mem hmin hmax _), allOf_cons_of_ok (need_of_true (decide_eq_true halign) _)]
  rfl

/-- The result of a FAULT_READ_LOG page: how many entries, and the oldest log_seq, a free value for an empty log. -/
def State.logReply (s : State) (b : Bytes) : Bytes :=
  leBytes 4 (s.logAsked b).length ++ leBytes 4 (match s.validLog with | e :: _ => e.1 | [] => s.free.toNat % 0x100000000)

/-- The state once the oldest log_seq has been named. -/
def State.logNamed (s : State) : State := if s.validLog.isEmpty then s.tookFree else s

section Log
variable {s : State} (b : Bytes)

/-- With no valid entry none is asked for. -/
theorem State.logAsked_of_empty (h : s.validLog = []) : s.logAsked b = [] := by
  simp [State.logAsked, h]

theorem State.logReply_of_empty (h : s.validLog = []) :
    s.logReply b = leBytes 4 0 ++ leBytes 4 (s.free.toNat % 0x100000000) := by
  simp only [State.logReply, State.logAsked_of_empty b h, h, List.length_nil]

theorem State.logNamed_of_empty (h : s.validLog = []) : s.logNamed = s.tookFree := if_pos (List.isEmpty_iff.mpr h)

variable {e : Nat × Bytes} {es : List (Nat × Bytes)} (h : s.validLog = e :: es)
include h

theorem State.logReply_of_cons : s.logReply b = leBytes 4 (s.logAsked b).length ++ leBytes 4 e.1 := by
  simp only [State.logReply, h]

theorem State.logNamed_of_cons : s.logNamed = s := if_neg (by rw [h]; exact Bool.false_ne_true)

end Log

section ReadLog
variable {c : Cmd} {s : State} (hmin : 1 ≤ u32 c.block 4) (hmax : u32 c.block 4 ≤ 16384) (halign : u64 c.block 8 % 8 = 0)
  (d : Option (Option Bytes))
include hmin hmax halign

theorem faultReadLogBody_of_none_asked (h : s.logAsked c.block = []) :
    faultReadLogBody c d s = .done s.logNamed (s.logReply c.block) := by
  have hempty : (s.logAsked c.block).isEmpty = true := List.isEmpty_iff.mpr h
  unfold State.logAsked at hempty
  simp only [faultReadLogBody, faultReadLogCheck_of_fields hmin hmax halign, if_pos hempty]
  rfl

variable (hsome : s.logAsked c.block ≠ [])
include hsome

theorem faultReadLogBody_of_write {u : State}
    (hw : s.logNamed.dmaWrite c.fn (u64 c.block 8) (s.logAsked c.block).flatten = some u) :
    faultReadLogBody c d s = .done u (s.logReply c.block) := by
  have hfull : ¬(s.logAsked c.block).isEmpty = true := fun h => hsome (List.isEmpty_iff.mp h)
  unfold State.logAsked at hfull
  unfold State.logNamed State.logAsked at hw
  simp only [faultReadLogBody, faultReadLogCheck_of_fields hmin hmax halign, if_neg hfull, hw]
  rfl

theorem faultReadLogBody_of_no_write
    (hw : s.logNamed.dmaWrite c.fn (u64 c.block 8) (s.logAsked c.block).flatten = none) :
    faultReadLogBody c d s = .failWith (s.countDmaErr c.fn) dmaError := by
  have hfull : ¬(s.logAsked c.block).isEmpty = true := fun h => hsome (List.isEmpty_iff.mp h)
  unfold State.logAsked at hfull
  unfold State.logNamed State.logAsked at hw
  simp only [faultReadLogBody, faultReadLogCheck_of_fields hmin hmax halign, if_neg hfull, hw]

end ReadLog

/-! ### DEBUG_UNLOCK (18 R350) -/

section Unlock
variable {c : Cmd} {s : State} (d : Option (Option Bytes))

theorem debugUnlockBody_of_reserved (h : reserved c.block 0x61 3 ≠ .ok ()) :
    debugUnlockBody c d s = .fail (badParam 0x61) := by
  have hfail : reserved c.block 0x61 3 = .error (badParam 0x61) := if_neg fun hz => h (if_pos hz)
  simp only [debugUnlockBody, hfail]

variable (hres : reserved c.block 0x61 3 = .ok ())
include hres

theorem debugUnlockBody_of_no_nonce (h : s.faults.nonce = none) : debugUnlockBody c d s = .fail ⟨cSignature, 0⟩ := by
  simp only [debugUnlockBody, hres, h]

theorem debugUnlockBody_of_nonce {n : Bytes} (h : s.faults.nonce = some n) :
    let t := s.modFaults fun x => { x with nonce := none }
    debugUnlockBody c d s =
      if s.board.keyOk (c.block.take 97) && signed (c.block.take 97) (slice c.block 0x64 96) (n ++ leBytes 8 s.board.serial.toNat)
      then .done (((t.setReg R.FLT_DEBUG 1).raiseFault 0x0B 0 (args := [1])).assertSource 506) []
      else .failWith t ⟨cSignature, 0⟩ := by
  simp only [debugUnlockBody, hres, h]

end Unlock

/-! ### Writes of a guard's registers (13 R245, R248, R256) -/

section Entry
variable {s : State} {g i : Nat} (hi : i < guardEntries g)
include hi

theorem execGrdEntryWrite_of_locked (w : Nat) (v : Word) (h : bit (s.guardEntry g i).2.2.2 3 = true) :
    execGrdEntryWrite g i w v s = .next (s.bumpSat (R.GRD_LOCK_DROP g)) := by
  simp only [execGrdEntryWrite, Nat.not_le.mpr hi, h, if_false, if_true]

variable (hopen : bit (s.guardEntry g i).2.2.2 3 = false)
include hopen

/-- A word of an unlocked entry that is not VALID is replaced but for its reserved bits. -/
theorem execGrdEntryWrite_of_invalid (v : Word) (h : bit (s.guardEntry g i).2.2.2 0 = false) :
    let e := s.guardEntry g i
    execGrdEntryWrite g i 0 v s = .next (s.setGuardEntry g i (v &&& 0xFFFFFFC0) e.2.1 e.2.2.1 e.2.2.2) ∧
    execGrdEntryWrite g i 1 v s = .next (s.setGuardEntry g i e.1 (v &&& 0x3FFF) e.2.2.1 e.2.2.2) ∧
    execGrdEntryWrite g i 2 v s = .next (s.setGuardEntry g i e.1 e.2.1 (v &&& 0x0FFF0FFF) e.2.2.2) := by
  refine ⟨?_, ?_, ?_⟩ <;>
    simp only [execGrdEntryWrite, Nat.not_le.mpr hi, hopen, h, Bool.false_and, Bool.false_eq_true, if_false]

/-- The last word takes effect when the region is one that R245 allows. -/
theorem execGrdEntryWrite_flags_of_regionOk (v : Word) :
    let e := s.guardEntry g i
    regionOk g (e.1.toNat + fld e.2.1 7 0 * 0x100000000) (fld e.2.1 13 8) = true →
    execGrdEntryWrite g i 3 v s = .next (s.setGuardEntry g i e.1 e.2.1 e.2.2.1
      (v &&& 0xFFFF000F ||| if hostFirst g ≤ i then 0x10 else 0)) := by
  intro e h
  simp only [execGrdEntryWrite, Nat.not_le.mpr hi, hopen, Bool.false_eq_true, if_false]
  exact congrArg Host.Outcome.next (if_neg (by rw [h]; simp))

end Entry

/-! ### FAULT_MERGE_RELEASE (18 R346) -/

section Merge
variable {s : State} {c u : Nat} {x : FaultPair} (hx : s.faults.pairs.get? (pairKey c u) = some x)
include hx

theorem execFaultMergeRelease_of_pending {r : FaultRec} (hr : x.pend = some r) : execFaultMergeRelease c u s = .next (
    if x.stagedAt + 1000000 ≤ s.now then
      (s.modFaults fun y => { y with pairs := y.pairs.set (pairKey c u) ⟨x.formedAt, s.now, none⟩ }).stageFault r
    else s) := by
  obtain ⟨formed, staged, pend⟩ := x
  obtain rfl : pend = some r := hr
  simp only [execFaultMergeRelease, hx]

theorem execFaultMergeRelease_of_none (hr : x.pend = none) : execFaultMergeRelease c u s = .next s := by
  obtain ⟨formed, staged, pend⟩ := x
  obtain rfl : pend = none := hr
  simp only [execFaultMergeRelease, hx]

theorem execFaultMergeRelease_of_early (h : x.pend = none ∨ s.now < x.stagedAt + 1000000) :
    execFaultMergeRelease c u s = .next s := by
  cases hr : x.pend with
  | none => exact execFaultMergeRelease_of_none hx hr
  | some r =>
    have hearly : s.now < x.stagedAt + 1000000 := h.resolve_left (by rw [hr]; exact Option.some_ne_none r)
    exact (execFaultMergeRelease_of_pending hx hr).trans (congrArg Host.Outcome.next (if_neg (Nat.not_le.mpr hearly)))

end Merge

/-! ### LOG_APPEND_PROGRAM (18 R347) -/

section Append
variable {s : State} (ok : Bool)

theorem execLogAppendProgram_of_empty (h : s.faults.queue = []) : execLogAppendProgram ok s = .next s := by
  simp only [execLogAppendProgram, h]

variable {e : Bytes} {es : List Bytes} (hq : s.faults.queue = e :: es)
include hq

theorem execLogAppendProgram_of_busy (h : s.sys.flashJob ≠ none) : execLogAppendProgram ok s = .next s := by
  have hjob : (s.sys.flashJob.isSome || s.sys.inPorst) = true := by simp [Option.isSome_iff_ne_none.mpr h]
  simp only [execLogAppendProgram, hq, hjob, if_true]

theorem execLogAppendProgram_of_idle (hjob : s.sys.flashJob = none) (hrun : s.sys.inPorst = false) :
    let t := s.modFaults fun x => { x with queue := es }
    execLogAppendProgram ok s = .next (if ok then t.modFaults fun x => { x with log := logStore x.log (u32 e 4) e }
      else (t.flashError (appendJob e) false).assertSource 504).tellDrops := by
  simp only [execLogAppendProgram, hq, hjob, hrun, Option.isSome_none, Bool.or_self, Bool.false_eq_true, if_false]

end Append

/-- Settles O49: each page by its body, each write by the entry that it meets, the release and the append by what waits. -/
theorem tablesLogAndDebugWindow : Obligations.TablesLogAndDebugWindow := by
  unfold Obligations.TablesLogAndDebugWindow
  intro s p l
  refine ⟨fun hturn hg hres hfirst hmin hmax hres' halign => ?table, fun hturn hmin hmax halign => ?log,
    fun hturn hres => congrArg Host.Outcome.next (runPage_fail_of_turn hturn (debugUnlockBody_of_reserved _ hres)),
    fun hturn hres => ?unlock, fun g v => ⟨fun h => congrArg Host.Outcome.next (if_pos h),
      fun h => congrArg Host.Outcome.next (if_neg (Bool.eq_false_iff.mp h))⟩, fun g i v hi => ⟨fun h w =>
      execGrdEntryWrite_of_locked hi w v h, fun hopen h => ?entry⟩,
    fun c u x hx => ⟨fun r hr hdue => (execFaultMergeRelease_of_pending hx hr).trans
        (congrArg Host.Outcome.next (if_pos hdue)), execFaultMergeRelease_of_early hx⟩,
    fun ok e es hq => ⟨execLogAppendProgram_of_idle ok hq, execLogAppendProgram_of_busy ok hq⟩,
    fun ok => execLogAppendProgram_of_empty ok⟩
  case table =>
    have hcheck := accessReadCheck_of_fields hg hres hfirst hmin hmax hres' halign
    exact ⟨fun t hw => congrArg Host.Outcome.next (runPage_done_of_turn hturn (accessReadBody_of_write hcheck _ hw)),
      fun hw => congrArg Host.Outcome.next (runPage_failWith_of_turn hturn (accessReadBody_of_no_write hcheck _ hw))⟩
  case log =>
    refine ⟨fun hnil => ?_, fun e es hlog hnone => ?_, fun e es u hlog hsome hw => ?_, fun hsome hw => ?_⟩
    · have hbody := faultReadLogBody_of_none_asked hmin hmax halign none (State.logAsked_of_empty l.cmd.block hnil)
      rw [State.logNamed_of_empty hnil, State.logReply_of_empty _ hnil] at hbody
      exact congrArg Host.Outcome.next (runPage_done_of_turn hturn hbody)
    · have hbody := faultReadLogBody_of_none_asked (s := s) hmin hmax halign none hnone
      rw [State.logNamed_of_cons hlog, State.logReply_of_cons _ hlog, show s.logAsked l.cmd.block = [] from hnone] at hbody
      exact congrArg Host.Outcome.next (runPage_done_of_turn hturn hbody)
    · have hbody := faultReadLogBody_of_write (s := s) hmin hmax halign none hsome
        (by rw [State.logNamed_of_cons hlog]; exact hw)
      rw [State.logReply_of_cons _ hlog] at hbody
      exact congrArg Host.Outcome.next (runPage_done_of_turn hturn hbody)
    · obtain ⟨e, es, hlog⟩ := List.exists_cons_of_ne_nil fun h => hsome (State.logAsked_of_empty l.cmd.block h)
      exact congrArg Host.Outcome.next (runPage_failWith_of_turn hturn (faultReadLogBody_of_no_write hmin hmax halign none hsome
        (by rw [State.logNamed_of_cons hlog]; exact hw)))
  case unlock =>
    have hok : reserved l.cmd.block 0x61 3 = .ok () := reserved_of_slice_eq_zeros hres
    refine ⟨fun n hn hkey hsig => ?_, fun n hn hbad => ?_, fun hn => ?_⟩
    · exact congrArg Host.Outcome.next (runPage_done_of_turn hturn
        ((debugUnlockBody_of_nonce _ hok hn).trans (if_pos (by simp [hkey, hsig]))))
    · exact congrArg Host.Outcome.next (runPage_failWith_of_turn hturn
        ((debugUnlockBody_of_nonce _ hok hn).trans (if_neg (Bool.eq_false_iff.mp (Bool.and_eq_false_iff.mpr hbad)))))
    · exact congrArg Host.Outcome.next (runPage_fail_of_turn hturn (debugUnlockBody_of_no_nonce _ hok hn))
  case entry =>
    obtain ⟨hbase, hsize, hids⟩ := execGrdEntryWrite_of_invalid hi hopen v h
    exact ⟨hbase, hsize, hids, execGrdEntryWrite_flags_of_regionOk hi hopen v⟩

end Sys2Proof.Machine

end

section

namespace Sys2Proof.Machine

/-! ## Accesses to registers and memories (00 R8, 01 R16, 10 R190, R192, 13 R247, 16 R303, 18 R350) -/

/-! ### The domain of the target -/

section Domain
variable {s : State} {a : Nat}

/-- The use of a domain that is up is noted, and nothing else. -/
theorem State.touch_of_domUp {d : Nat} (h : s.domUp d = true) :
    s.touch d = { s with ivory := { s.ivory with lastUse := s.ivory.lastUse.set d s.now } } := if_pos h

theorem State.touch_domUp_of_domUp {d : Nat} (h : s.domUp d = true) (e : Nat) : (s.touch d).domUp e = s.domUp e := by
  rw [State.touch_of_domUp h]
  rfl

theorem State.demand_of_not_onDemand {d : Nat} (h : s.domOnDemand d = false) : s.demand d = s :=
  if_pos (.inr (.inl (by rw [h]; rfl)))

theorem State.openDomain_of_outside (h : inMap a = false) : s.openDomain a = s := if_pos (by rw [h]; rfl)

variable (ha : inMap a = true)
include ha

theorem State.openDomain_of_up (h : s.domUp (targetDomain a) = true) : s.openDomain a = s.touch (targetDomain a) := by
  simp only [State.openDomain, ha, h, Bool.not_true, Bool.false_eq_true, if_false, if_true]

theorem State.openDomain_of_down (h : s.domUp (targetDomain a) = false) (hd : s.domOnDemand (targetDomain a) = false) :
    s.openDomain a = s := by
  simp only [State.openDomain, ha, h, Bool.not_true, Bool.false_eq_true, if_false, State.demand_of_not_onDemand hd]

end Domain

/-- The send and pop windows lie in the map. -/
theorem ownGuard_of_outside {a : Nat} (h : inMap a = false) (len : Nat) (wr : Bool) : ownGuard a len wr = false := by
  refine Bool.eq_false_iff.mpr fun hown => Bool.eq_false_iff.mp h ?_
  have hwindow : 0x20000000 ≤ a ∧ a < 0x20F00000 := by
    cases wr <;> simp [ownGuard, R.SLT_POP, R.SLT_SEND] at hown <;> omega
  simp [inMap, hwindow]

/-! ### An access in a domain that is up -/

/-- A read without an ECC error is served. -/
theorem State.passRead_of_no_error (s : State) (m : Nat) (bar2 : Bool) (a len : Nat) :
    let x := (s.answerRead [] false).serveRead m bar2 a len
    s.passRead m bar2 a len 0 = x.1.answerRead x.2 x.1.readErr := by
  simp [State.passRead]

section Up
variable {s : State} {m a : Nat} (ha : inMap a = true) (hup : s.domUp (targetDomain a) = true)
include ha hup

/-- A read goes on at its guard, with the domain's use noted. -/
theorem State.accessRead_of_up (bar2 : Bool) (len ecc : Nat) : s.accessRead m bar2 a len ecc =
    if ownGuard a len false && !bar2 then (s.touch (targetDomain a)).passRead m bar2 a len ecc
    else if ((s.touch (targetDomain a)).guarded a m false).2 then
      ((s.touch (targetDomain a)).guarded a m false).1.passRead m bar2 a len ecc
    else ((s.touch (targetDomain a)).guarded a m false).1.answerRead (List.replicate len 0) true := by
  have hserved : (inMap a && !(s.touch (targetDomain a)).domUp (targetDomain a)) = false := by
    rw [State.touch_domUp_of_domUp hup, hup]
    exact Bool.and_false _
  simp only [State.accessRead, State.openDomain_of_up ha hup, hserved, Bool.false_eq_true, if_false]

/-- A write likewise. -/
theorem State.accessWrite_of_up (b : Bytes) : s.accessWrite m a b =
    if ownGuard a b.length true then ((s.touch (targetDomain a)).answerRead [] false).serveWrite m a b
    else if ((s.touch (targetDomain a)).guarded a m true).2 then
      (((s.touch (targetDomain a)).guarded a m true).1.serveWrite m a b).answerRead [] false
    else ((s.touch (targetDomain a)).guarded a m true).1.answerRead [] true := by
  have hserved : (inMap a && !(s.touch (targetDomain a)).domUp (targetDomain a)) = false := by
    rw [State.touch_domUp_of_domUp hup, hup]
    exact Bool.and_false _
  simp only [State.accessWrite, State.openDomain_of_up ha hup, hserved, Bool.false_eq_true, if_false]

theorem State.accessRead_of_denial {len c : Nat} (ecc : Nat) (hown : ownGuard a len false = false)
    (hc : (s.touch (targetDomain a)).denial a m false = some c) : s.accessRead m false a len ecc =
      ((s.touch (targetDomain a)).deny a m false c).answerRead (List.replicate len 0) true := by
  rw [State.accessRead_of_up ha hup, hown, State.guarded_of_denial hc]
  rfl

theorem State.accessRead_of_pass {len : Nat} (ecc : Nat)
    (h : ownGuard a len false = true ∨ (s.touch (targetDomain a)).denial a m false = none) :
    s.accessRead m false a len ecc = (s.touch (targetDomain a)).passRead m false a len ecc := by
  rw [State.accessRead_of_up ha hup]
  cases hown : ownGuard a len false with
  | true => rfl
  | false =>
    have hpass : (s.touch (targetDomain a)).denial a m false = none := h.resolve_left (by simp [hown])
    rw [State.guarded_of_pass hpass]
    rfl

variable {b : Bytes}

theorem State.accessWrite_of_own (hown : ownGuard a b.length true = true) :
    s.accessWrite m a b = ((s.touch (targetDomain a)).answerRead [] false).serveWrite m a b := by
  rw [State.accessWrite_of_up ha hup, if_pos hown]

variable (hown : ownGuard a b.length true = false)
include hown

theorem State.accessWrite_of_denial {c : Nat} (hc : (s.touch (targetDomain a)).denial a m true = some c) :
    s.accessWrite m a b = ((s.touch (targetDomain a)).deny a m true c).answerRead [] true := by
  rw [State.accessWrite_of_up ha hup, hown, State.guarded_of_denial hc]
  rfl

theorem State.accessWrite_of_pass (h : (s.touch (targetDomain a)).denial a m true = none) :
    s.accessWrite m a b = ((s.touch (targetDomain a)).serveWrite m a b).answerRead [] false := by
  rw [State.accessWrite_of_up ha hup, hown, State.guarded_of_pass h]
  rfl

end Up

/-! ### An access to a domain that stays down, and one outside the map -/

section Down
variable {s : State} {a : Nat} (ha : inMap a = true) (hdown : s.domUp (targetDomain a) = false)
  (hstays : s.domOnDemand (targetDomain a) = false)
include ha hdown hstays

theorem State.accessRead_of_down (m : Nat) (bar2 : Bool) (len ecc : Nat) :
    s.accessRead m bar2 a len ecc = s.answerRead (List.replicate len 0) true := by
  simp only [State.accessRead, State.openDomain_of_down ha hdown hstays, ha, hdown, Bool.not_false, Bool.and_self, if_true]

theorem State.accessWrite_of_down (m : Nat) (b : Bytes) : s.accessWrite m a b = s.answerRead [] true := by
  simp only [State.accessWrite, State.openDomain_of_down ha hdown hstays, ha, hdown, Bool.not_false, Bool.and_self, if_true]

end Down

section Outside
variable {s : State} {m a : Nat} (ha : inMap a = false) (hm : masterValid m = true)
include ha hm

theorem State.accessRead_of_outside (bar2 : Bool) (len ecc : Nat) : s.accessRead m bar2 a len ecc =
    (s.deny a m false causeOutside).answerRead (List.replicate len 0) true := by
  simp only [State.accessRead, State.openDomain_of_outside ha, ha, ownGuard_of_outside ha, Bool.false_and, Bool.false_eq_true,
    if_false, State.guarded_of_denial (State.denial_of_outside hm ha)]

theorem State.accessWrite_of_outside (b : Bytes) :
    s.accessWrite m a b = (s.deny a m true causeOutside).answerRead [] true := by
  simp only [State.accessWrite, State.openDomain_of_outside ha, ha, ownGuard_of_outside ha, Bool.false_and, Bool.false_eq_true,
    if_false, State.guarded_of_denial (State.denial_of_outside hm ha)]

end Outside

/-! ### The host's accesses (10 R190, R192, 18 R350) -/

/-- A TLP to a device that is awake with the host link up arrives and wakes nothing. -/
theorem State.tlp_of_hostReach {s : State} (h : s.hostReach) (f : State → State) : s.tlp f = f s := by
  obtain ⟨hup, hrun⟩ := h
  simp only [State.tlp, hup, hrun, Bool.not_true, Bool.false_eq_true, if_false]

section Bar2
variable {s : State} (h : s.hostReach) (hlocked : s.regBit R.FLT_DEBUG 0 = false)
include h hlocked

theorem execRegisterWrite_bar2_of_locked (a n : Nat) (v : BitVec 64) : execRegisterWrite ⟨.bar2, a, n, v⟩ s = .next s :=
  congrArg Host.Outcome.next ((State.tlp_of_hostReach h _).trans (if_neg (Bool.eq_false_iff.mp hlocked)))

theorem execInternalAccess_bar2_write_of_locked (m a len ecc : Nat) (b : Bytes) :
    execInternalAccess ⟨m, true, a, len, some b, ecc⟩ s = .next s := by
  simp only [execInternalAccess, State.tlp_of_hostReach h, hlocked, Bool.false_eq_true, if_false, if_true]

end Bar2

/-- Settles O51: each access by its place in the map, its domain, the windows that judge themselves and its guard. -/
theorem internalAccesses : Obligations.InternalAccesses := by
  unfold Obligations.InternalAccesses
  intro s m a len ecc b
  refine ⟨fun ha hup => ⟨fun hown c hc => congrArg Host.Outcome.next (State.accessRead_of_denial ha hup ecc hown hc),
      fun hpass hecc => ?served, fun hown => ⟨fun c hc => congrArg Host.Outcome.next (State.accessWrite_of_denial ha hup hown hc),
        fun hpass => congrArg Host.Outcome.next (State.accessWrite_of_pass ha hup hown hpass)⟩,
      fun hown => congrArg Host.Outcome.next (State.accessWrite_of_own ha hup hown),
      fun n v => ⟨fun hown hpass => congrArg Host.Outcome.next (State.accessWrite_of_pass ha hup hown hpass),
        fun hown => congrArg Host.Outcome.next (State.accessWrite_of_own ha hup hown)⟩⟩,
    fun ha hdown hstays => ⟨congrArg Host.Outcome.next (State.accessRead_of_down ha hdown hstays m false len ecc),
      congrArg Host.Outcome.next (State.accessWrite_of_down ha hdown hstays m b)⟩,
    fun ha hm => ⟨congrArg Host.Outcome.next (State.accessRead_of_outside ha hm false len ecc),
      congrArg Host.Outcome.next (State.accessWrite_of_outside ha hm b)⟩,
    fun hmem => ⟨if_pos hmem, if_pos hmem⟩,
    fun hreach => ⟨fun f n v => congrArg Host.Outcome.next (State.tlp_of_hostReach hreach _),
      fun hlocked => ⟨execRegisterWrite_bar2_of_locked hreach hlocked a,
        execInternalAccess_bar2_write_of_locked hreach hlocked m a len ecc b⟩⟩⟩
  case served =>
    subst hecc
    exact congrArg Host.Outcome.next ((State.accessRead_of_pass ha hup 0 hpass).trans (State.passRead_of_no_error _ m false a len))

end Sys2Proof.Machine

end

section

namespace Sys2Proof.Machine

/-! ## FILTER_LOAD_COEFFS (06 Command pages) -/

theorem State.foreignCoefs_of_own {s : State} {h ctx : Nat} (hown : ∀ k, s.umber.coefs.get? h = some k → k.ctx = ctx) :
    s.foreignCoefs h ctx = false := by
  unfold State.foreignCoefs
  split
  case _ k hk => exact decide_eq_false (not_not.mpr (hown k hk))
  case _ => rfl

/-- The checks of a FILTER_LOAD_COEFFS page in their order, where `v` is the projected state. -/
def coeffsCheck (v : State) (c : Cmd) (s : State) : Check :=
  let b := c.block
  let h := u16 b 0
  let n := u16 b 2
  allOf [need (h = 0 || (0x100 ≤ h && h ≤ 0x4FF)) (badParam 0), need (!s.foreignCoefs h c.ctx) noPermission,
    s.reach dUMB, need (h = 0 || ((s.umber.coefs.get? h).isSome && !s.coefsUsed h && !v.coefsUsed h)) (badParam 0),
    need (if h = 0 then 1 ≤ n && n ≤ 384 else n = 0) (badParam 2), reserved b 4 4, need (u64 b 8 % 4 = 0) (badParam 8),
    need (h ≠ 0 || (s.freeHandle.isSome && n ≤ s.coefFree)) noResource]

section Coeffs
variable {v s : State} {c : Cmd}
  (hown : ∀ k, s.umber.coefs.get? (u16 c.block 0) = some k → k.ctx = c.ctx) (hreach : s.reach dUMB = .ok ())
  (hres : u32 c.block 4 = 0) (hword : u64 c.block 8 % 4 = 0)
include hown hreach hres hword

/-- A held handle that nothing uses may be freed. -/
theorem coeffsCheck_of_unused (hlo : 0x100 ≤ u16 c.block 0) (hhi : u16 c.block 0 ≤ 0x4FF)
    (hheld : (s.umber.coefs.get? (u16 c.block 0)).isSome = true) (hs : s.coefsUsed (u16 c.block 0) = false)
    (hv : v.coefsUsed (u16 c.block 0) = false) (hn : u16 c.block 2 = 0) : coeffsCheck v c s = .ok () := by
  have hne : u16 c.block 0 ≠ 0 := by omega
  have hr := reserved_of_leNat_eq_zero (off := 4) (n := 4) hres
  simp [coeffsCheck, allOf, need, State.foreignCoefs_of_own hown, hreach, hr, hword, hlo, hhi, hheld, hs, hv, hn, hne]

/-- A set that fits the pool may be loaded. -/
theorem coeffsCheck_of_room (h0 : u16 c.block 0 = 0) (hlo : 1 ≤ u16 c.block 2) (hhi : u16 c.block 2 ≤ 384)
    (hfree : s.freeHandle.isSome = true) (hroom : u16 c.block 2 ≤ s.coefFree) : coeffsCheck v c s = .ok () := by
  have hr := reserved_of_leNat_eq_zero (off := 4) (n := 4) hres
  have hf := State.foreignCoefs_of_own hown
  rw [h0] at hf
  simp [coeffsCheck, allOf, need, hf, hreach, hr, hword, h0, hlo, hhi, hfree, hroom]

end Coeffs

section Body
variable {v s : State} {c : Cmd} (hchk : coeffsCheck v c s = .ok ())
include hchk

theorem coeffsBody_of_handle (h : u16 c.block 0 ≠ 0) (d : Option (Option Bytes)) : coeffsBody v c d s =
    .done ((s.touch dUMB).packCoefs (s.coefSets.erase (u16 c.block 0))) (leBytes 4 (u16 c.block 0)) := by
  unfold coeffsCheck at hchk
  simp only [coeffsBody, hchk]
  exact if_pos h

variable (h : u16 c.block 0 = 0)
include h

theorem coeffsBody_of_new :
    coeffsBody v c none s = .wait (s.dmaAsk c.path (u64 c.block 8) (4 * u16 c.block 2)) := by
  unfold coeffsCheck at hchk
  simp only [coeffsBody, hchk]
  exact if_neg (not_not.mpr h)

variable {r : Option Bytes}

theorem coeffsBody_of_failed_fetch (hd : s.dmaRead c.path (u64 c.block 8) (4 * u16 c.block 2) r = none) :
    coeffsBody v c (some r) s = .failWith (s.countDmaErr c.fn) dmaError := by
  unfold coeffsCheck at hchk
  simp only [coeffsBody, hchk, hd]
  exact if_neg (not_not.mpr h)

variable {data : Bytes} (hd : s.dmaRead c.path (u64 c.block 8) (4 * u16 c.block 2) r = some data)
include hd

theorem coeffsBody_of_words {k : Nat} (hk : s.freeHandle = some k)
    (hws : (((List.range (u16 c.block 2)).map fun i => u32 data (4 * i)).all fun w => sext 32 w = sext 18 w) = true) :
    coeffsBody v c (some r) s = .done ((s.touch dUMB).packCoefs (s.coefSets.set k (c.ctx,
      ((List.range (u16 c.block 2)).map fun i => u32 data (4 * i)).map fun w => w32 (w % 0x40000)))) (leBytes 4 k) := by
  have hk : s.freeHandle.getD 0 = k := by rw [hk, Option.getD_some]
  unfold coeffsCheck at hchk
  simp only [coeffsBody, hchk, hd, hws, hk, if_true]
  exact if_neg (not_not.mpr h)

theorem coeffsBody_of_wide_word
    (hws : (((List.range (u16 c.block 2)).map fun i => u32 data (4 * i)).all fun w => sext 32 w = sext 18 w) = false) :
    coeffsBody v c (some r) s = .fail (badParam 8) := by
  unfold coeffsCheck at hchk
  simp only [coeffsBody, hchk, hd, hws, Bool.false_eq_true, if_false]
  exact if_neg (not_not.mpr h)

end Body

/-- Settles O27: the page's checks pass, and its body does what its handle asks for with the data that came. -/
theorem coefficientSets : Obligations.CoefficientSets := by
  intro s p l
  refine ⟨?free, ?ask, ?load⟩
  case free =>
    intro hturn hlo hhi hown hreach hheld hs hv hn hres hword
    have hchk := coeffsCheck_of_unused hown hreach hres hword hlo hhi hheld hs hv hn
    exact congrArg Host.Outcome.next
      (runPage_done_of_turn hturn (coeffsBody_of_handle hchk (Nat.ne_of_gt (Nat.lt_of_lt_of_le (by decide) hlo)) none))
  case ask =>
    intro hturn h0 hown hreach hlo hhi hres hword hfree hroom
    have hchk := coeffsCheck_of_room (v := s.projectedAll) hown hreach hres hword h0 hlo hhi hfree hroom
    exact congrArg Host.Outcome.next (runPage_wait_of_turn hturn (coeffsBody_of_new hchk h0))
  case load =>
    intro d hl hs ho h0 hown hreach hlo hhi hres hword hroom hfree
    have hchk := coeffsCheck_of_room (v := s.projectedAll) hown hreach hres hword h0 hlo hhi hfree hroom
    refine ⟨fun hd => ?_, fun data hd => ⟨fun k hk hws => ?_, fun hws => ?_⟩⟩
    · exact congrArg Host.Outcome.next
        (runPage_resumed_failWith hl hs ho (coeffsBody_of_failed_fetch hchk h0 hd))
    · exact congrArg Host.Outcome.next
        (runPage_resumed_done _ _ _ _ _ _ _ _ hl ho hs (coeffsBody_of_words hchk h0 hd hk hws))
    · exact congrArg Host.Outcome.next
        (runPage_resumed_fail hl hs ho (coeffsBody_of_wide_word hchk h0 hd hws))

end Sys2Proof.Machine
end

section

namespace Sys2Proof.Machine

/-! ## Contexts and rings (10 R203, R204, R206) -/

theorem runPage_doneGen_of_turn {op : Nat} {b : PageBody} {p : Nat} {s t : State} {l : Latch} {g : BitVec 16}
    (h : s.turn p op l) (hb : b l.cmd none s = .doneGen t g) : runPage op b p s = t.answer p ⟨cOk, 0, g, []⟩ := by
  obtain ⟨hl, hstage, hop, hstart⟩ := h
  simp [runPage, hl, hop, hstage, hstart, hb]

/-- Checks that pass leave the decision to those after them. -/
theorem allOf_append_of_ok {cs : List Check} (h : allOf cs = .ok ()) (ds : List Check) : allOf (cs ++ ds) = allOf ds := by
  induction cs with
  | nil => rfl
  | cons c cs ih =>
    match c, h with
    | .ok _, h => exact ih h

/-- A check that fails decides before those after it. -/
theorem allOf_append_of_error {cs : List Check} {e : CErr} (h : allOf cs = .error e) (ds : List Check) :
    allOf (cs ++ ds) = .error e := by
  induction cs with
  | nil => exact absurd h (by simp [allOf])
  | cons c cs ih =>
    match c, h with
    | .ok _, h => exact ih h
    | .error _, h => exact h

/-! ### CTX_CREATE -/

section Create
variable {c : Cmd} {s : State} (d : Option (Option Bytes))

theorem createBody_of_bad_ring {e : CErr} (h : allOf (ringCheck c.block c.fn s) = .error e) :
    createBody c d s = .fail e := by
  simp only [createBody, allOf_append_of_error h]

variable (h : allOf (ringCheck c.block c.fn s) = .ok ())
include h

theorem createBody_of_quota_used (hq : s.regN (R.HIF_Fn_CTX_QUOTA c.fn) ≤ (s.ctxsOf c.fn).length) :
    createBody c d s = .fail noResource := by
  have hquota := need_of_false (decide_eq_false (Nat.not_lt.mpr hq)) noResource
  simp only [createBody, allOf_append_of_ok h, allOf_cons_of_error hquota]

variable (hq : (s.ctxsOf c.fn).length < s.regN (R.HIF_Fn_CTX_QUOTA c.fn))
include hq

theorem createCheck_of_quota_left : allOf (ringCheck c.block c.fn s ++
    [need ((s.ctxsOf c.fn).length < s.regN (R.HIF_Fn_CTX_QUOTA c.fn)) noResource]) = .ok () := by
  rw [allOf_append_of_ok h, need_of_true (decide_eq_true hq)]
  rfl

theorem createBody_of_free_number {n : Nat} (hn : s.freeCtx = some n) : createBody c d s =
    .done (((s.setCtx n (Ctx.new c.fn (u8 c.block 0))).showUsed c.fn).fenceSpill n c.fn (u8 c.block 0))
      (leBytes 2 n ++ leBytes 2 0) := by
  simp only [createBody, createCheck_of_quota_left h hq, hn]

theorem createBody_of_no_number (hn : s.freeCtx = none) : createBody c d s = .fail noResource := by
  simp only [createBody, createCheck_of_quota_left h hq, hn]

end Create

/-! ### CTX_DESTROY -/

section Destroy
variable {c : Cmd} {s : State} (d : Option (Option Bytes))

theorem destroyBody_of_no_context (h : s.ctx? c.ctx = none) : destroyBody c d s = .doneGen s 0 := by
  simp only [destroyBody, h]

variable {x : Ctx} (hx : s.ctx? c.ctx = some x)
include hx

theorem destroyBody_of_settled (h : ((s.tearOpen c.ctx x).drainRings x.fn).recordsOf c.ctx x.fn = 0) :
    destroyBody c d s = .doneGen (((s.tearOpen c.ctx x).drainRings x.fn).freeNumber c.ctx x) x.gen := by
  simp only [destroyBody, hx]
  exact if_pos h

theorem destroyBody_of_waiting (h : ((s.tearOpen c.ctx x).drainRings x.fn).recordsOf c.ctx x.fn ≠ 0) :
    destroyBody c d s = .wait (((s.tearOpen c.ctx x).drainRings x.fn).modHost fun h => { h with ctxs := h.ctxs.map fun e =>
      if e.1 = c.ctx then (e.1, { e.2 with closing := some (s.now, c.path) }) else e }) := by
  simp only [destroyBody, hx]
  exact if_neg h

end Destroy

/-! ### RING_SET -/

/-- A ring that takes its settings anew: its old spill buffer goes, and HEAD, TAIL and the spill level are zero. -/
def State.restartRing (s : State) (f r : Nat) (b : Bytes) : State :=
  let n := ringNo f r
  (((((s.freeSpill f r).setRingRegs n b).setRing f r Ring.init).setReg (R.HIF_RINGn_HEAD n) 0).setReg
    (R.HIF_RINGn_TAIL n) 0).setReg (R.HIF_RINGn_SPILL_LEVEL n) 0

section RingSet
variable {c : Cmd} {s : State} (d : Option (Option Bytes))

theorem ringSetBody_of_error {e : CErr} (h : ringSetCheck c s = .error e) : ringSetBody c d s = .fail e := by
  simp only [ringSetBody, h]

variable (h : ringSetCheck c s = .ok ())
include h

theorem ringSetBody_of_enabled (hen : s.ringEn c.fn (u8 c.block 0) = true) (hon : u8 c.block 1 = 1) :
    ringSetBody c d s =
      .done ((s.setRingRegs (ringNo c.fn (u8 c.block 0)) c.block).ringSignal c.fn (u8 c.block 0)) [] := by
  simp only [ringSetBody, h, hen, hon, decide_true, Bool.and_self, if_true]

variable (hre : s.ringEn c.fn (u8 c.block 0) = false ∨ u8 c.block 1 ≠ 1)
include hre

omit h in
theorem ring_not_kept : ¬(s.ringEn c.fn (u8 c.block 0) && decide (u8 c.block 1 = 1)) = true := by
  rcases hre with h | h <;> simp [h]

theorem ringSetBody_of_no_spill (hsp : u8 c.block 1 ≠ 1 ∨ u32 c.block 0x1C = 0) :
    ringSetBody c d s = .done (s.restartRing c.fn (u8 c.block 0) c.block) [] := by
  simp only [ringSetBody, h]
  exact (if_neg (ring_not_kept hre)).trans (if_neg fun hboth => hsp.elim (· hboth.1) hboth.2)

variable (hon : u8 c.block 1 = 1) (hsp : u32 c.block 0x1C ≠ 0)
include hon hsp

theorem ringSetBody_of_spill {u : State} {a : Nat}
    (ha : (s.restartRing c.fn (u8 c.block 0) c.block).allocDram (u32 c.block 0x1C * 1024) 0xFFFF exSpill
      (ringNo c.fn (u8 c.block 0)) = some (u, a)) : ringSetBody c d s = .done u [] := by
  unfold State.restartRing at ha
  simp only [ringSetBody, h, ha]
  exact (if_neg (ring_not_kept hre)).trans (if_pos ⟨hon, hsp⟩)

theorem ringSetBody_of_no_room
    (ha : (s.restartRing c.fn (u8 c.block 0) c.block).allocDram (u32 c.block 0x1C * 1024) 0xFFFF exSpill
      (ringNo c.fn (u8 c.block 0)) = none) : ringSetBody c d s = .fail noResource := by
  unfold State.restartRing at ha
  simp only [ringSetBody, h, ha]
  exact (if_neg (ring_not_kept hre)).trans (if_pos ⟨hon, hsp⟩)

end RingSet

/-- Settles O38: each page's body on a command whose turn has come. -/
theorem contextsAndRings : Obligations.ContextsAndRings := by
  intro s p l
  refine ⟨fun hturn => ⟨?create, ?badRing, ?noResource⟩, fun hturn => ⟨?gone, ?destroy⟩, fun hturn => ?ring⟩
  case create =>
    intro n h hq hn
    exact congrArg Host.Outcome.next (runPage_done_of_turn hturn (createBody_of_free_number none h hq hn))
  case badRing =>
    intro e h
    exact congrArg Host.Outcome.next (runPage_fail_of_turn hturn (createBody_of_bad_ring none h))
  case noResource =>
    intro h hor
    refine congrArg Host.Outcome.next (runPage_fail_of_turn hturn ?_)
    rcases Nat.lt_or_ge (s.ctxsOf l.cmd.fn).length (s.regN (R.HIF_Fn_CTX_QUOTA l.cmd.fn)) with hq | hq
    · exact createBody_of_no_number none h hq (hor.resolve_left (Nat.not_le.mpr hq))
    · exact createBody_of_quota_used none h hq
  case gone =>
    intro h
    exact congrArg Host.Outcome.next (runPage_doneGen_of_turn hturn (destroyBody_of_no_context none h))
  case destroy =>
    intro x hx
    exact ⟨fun h => congrArg Host.Outcome.next (runPage_doneGen_of_turn hturn (destroyBody_of_settled none hx h)),
      fun h => congrArg Host.Outcome.next (runPage_wait_of_turn hturn (destroyBody_of_waiting none hx h))⟩
  case ring =>
    refine ⟨fun e h => ?_, fun h hen hon => ?_, fun h hre hsp => ?_,
      fun h hen hon hsp => ⟨fun u a ha => ?_, fun ha => ?_⟩⟩
    · exact congrArg Host.Outcome.next (runPage_fail_of_turn hturn (ringSetBody_of_error none h))
    · exact congrArg Host.Outcome.next (runPage_done_of_turn hturn (ringSetBody_of_enabled none h hen hon))
    · exact congrArg Host.Outcome.next (runPage_done_of_turn hturn (ringSetBody_of_no_spill none h hre hsp))
    · exact congrArg Host.Outcome.next
        (runPage_done_of_turn hturn (ringSetBody_of_spill none h (.inl hen) hon hsp ha))
    · exact congrArg Host.Outcome.next
        (runPage_fail_of_turn hturn (ringSetBody_of_no_room none h (.inl hen) hon hsp ha))

end Sys2Proof.Machine
end

section

namespace Sys2Proof.Machine

/-! ## The remaining pages of power, battery, interrupts and the fabric (14, 15, 16, 17 Command pages) -/

/-! ### BAT_LOAD_TABLES (17 R331) -/

/-- The checks of a BAT_LOAD_TABLES page in their order. -/
def batTablesCheck (c : Cmd) : Check :=
  allOf [inRange (u8 c.block 0) 0 3 0, reserved c.block 1 7, need (u64 c.block 8 % 8 = 0) (badParam 8)]

theorem batTablesCheck_of_fields {c : Cmd} (hn : u8 c.block 0 ≤ 3) (hres : reserved c.block 1 7 = .ok ())
    (ha : u64 c.block 8 % 8 = 0) : batTablesCheck c = .ok () := by
  refine allOf_eq_ok fun k hk => ?_
  simp only [List.mem_cons, List.not_mem_nil, or_false] at hk
  rcases hk with rfl | rfl | rfl
  · exact inRange_of_mem (Nat.zero_le _) hn 0
  · exact hres
  · exact need_of_true (decide_eq_true ha) _

section Tables
variable {c : Cmd} {s : State} (hchk : batTablesCheck c = .ok ())
include hchk

theorem batTablesBody_of_start : batTablesBody c none s = .wait (s.dmaAsk c.path (u64 c.block 8) 480) := by
  unfold batTablesCheck at hchk
  simp only [batTablesBody, hchk]

variable {r : Option Bytes}

theorem batTablesBody_of_failed_fetch (hd : s.dmaRead c.path (u64 c.block 8) 480 r = none) :
    batTablesBody c (some r) s = .failWith (s.countDmaErr c.fn) dmaError := by
  unfold batTablesCheck at hchk
  simp only [batTablesBody, hchk, hd]

variable {t : Bytes} (hd : s.dmaRead c.path (u64 c.block 8) 480 r = some t)
include hd

theorem batTablesBody_of_bad_tables (h : tablesOk t = false) : batTablesBody c (some r) s = .fail (badParam 8) := by
  unfold batTablesCheck at hchk
  simp only [batTablesBody, hchk, hd, h, Bool.false_eq_true, if_false]

theorem batTablesBody_of_tables (h : tablesOk t = true) : batTablesBody c (some r) s =
    .done (s.setStr (u8 c.block 0) { s.str (u8 c.block 0) with tablesNext := some t }) [] := by
  unfold batTablesCheck at hchk
  simp only [batTablesBody, hchk, hd, h, if_true]

end Tables

/-! ### POWER_SET_DOMAIN (16 R303) -/

/-- The state with the configuration of a domain set as POWER_SET_DOMAIN asks. -/
def State.configDomain (s : State) (b : Bytes) : State :=
  s.setReg (R.IVR_DOMd_CFG (u8 b 0)) (w32 (u8 b 1 + u8 b 2 * 2 + u32 b 4 * 0x100))

section SetDomain
variable {c : Cmd} {s : State}

theorem setDomainBody_of_error {e : CErr} (h : setDomainCheck c s = .error e) : setDomainBody c none s = .fail e := by
  simp only [setDomainBody, h]

variable (h : setDomainCheck c s = .ok ())
include h

theorem setDomainBody_of_up (hup : u8 c.block 2 = 0) :
    setDomainBody c none s = .done ((s.configDomain c.block).bringUp (u8 c.block 0)) [] := by
  simp only [setDomainBody, h]
  exact if_pos hup

variable (hdown : u8 c.block 2 ≠ 0)
include hdown

theorem setDomainBody_of_taken_down
    (ht : (((s.configDomain c.block).takeDown (u8 c.block 0) 6).ivory.draining.get? (u8 c.block 0)).isSome = false) :
    setDomainBody c none s = .done ((s.configDomain c.block).takeDown (u8 c.block 0) 6) [] := by
  simp only [setDomainBody, h]
  exact (if_neg hdown).trans (if_neg (Bool.eq_false_iff.mp ht))

theorem setDomainBody_of_draining
    (ht : (((s.configDomain c.block).takeDown (u8 c.block 0) 6).ivory.draining.get? (u8 c.block 0)).isSome = true) :
    setDomainBody c none s = .wait ((s.configDomain c.block).takeDown (u8 c.block 0) 6) := by
  simp only [setDomainBody, h]
  exact (if_neg hdown).trans (if_pos ht)

end SetDomain

/-! ### POWER_REQUEST_STATE (16 R312) -/

/-- The state that R312 chooses under the settings of a POWER_REQUEST_STATE command. -/
def State.requested (s : State) (b : Bytes) : Nat := (s.armPower b).chooseState (fun _ => true) (u8 b 0)

/-- The field checks of a POWER_REQUEST_STATE page in their order. -/
def requestFields (b : Bytes) : List Check :=
  [inRange (u8 b 0) 0 3 0, inRange (u8 b 1) 0 1 1, inRange (u8 b 2) 0 1 2, reserved b 3 1, inRange (u32 b 8) 0 86400000 8,
    inRange (u32 b 0x0C) 10 10000 0x0C]

/-- What is left to check once the fields are good: HIBERNATE without self-refresh needs a DRAM that holds nothing. -/
def requestDram (b : Bytes) (s : State) : Check := need (s.requested b ≠ 3 || u8 b 1 = 1 || s.host.dram.isEmpty) busy

theorem requestFields_of_fields {b : Bytes} (hceil : u8 b 0 ≤ 3) (hself : u8 b 1 ≤ 1) (hauto : u8 b 2 ≤ 1)
    (hres : u8 b 3 = 0) (hexp : u32 b 8 ≤ 86400000) (hlo : 10 ≤ u32 b 12) (hhi : u32 b 12 ≤ 10000) :
    allOf (requestFields b) = .ok () := by
  refine allOf_eq_ok fun k hk => ?_
  simp only [requestFields, List.mem_cons, List.not_mem_nil, or_false] at hk
  rcases hk with rfl | rfl | rfl | rfl | rfl | rfl
  · exact inRange_of_mem (Nat.zero_le _) hceil 0
  · exact inRange_of_mem (Nat.zero_le _) hself 1
  · exact inRange_of_mem (Nat.zero_le _) hauto 2
  · exact reserved_of_leNat_eq_zero hres
  · exact inRange_of_mem (Nat.zero_le _) hexp 8
  · exact inRange_of_mem hlo hhi 0x0C

section Request
variable {c : Cmd} {s : State} (hfields : allOf (requestFields c.block) = .ok ())
include hfields

theorem requestCheck_of_fields : allOf (requestFields c.block ++ [requestDram c.block s]) = requestDram c.block s := by
  rw [allOf_append_of_ok hfields]
  cases requestDram c.block s <;> rfl

theorem requestStateBody_of_ok (h : s.requested c.block ≠ 3 ∨ u8 c.block 1 = 1 ∨ s.host.dram = []) :
    requestStateBody c none s = .done s (leBytes 1 (s.requested c.block) ++ leBytes 3 0) := by
  have hdram : requestDram c.block s = .ok () := need_of_true (by rcases h with h | h | h <;> simp [h]) busy
  have hchk := (requestCheck_of_fields (s := s) hfields).trans hdram
  simp only [requestStateBody]
  split
  case _ e he => exact nomatch he.symm.trans hchk
  case _ => rfl

theorem requestStateBody_of_held_dram (hk : s.requested c.block = 3) (hself : u8 c.block 1 = 0) (hd : s.host.dram ≠ []) :
    requestStateBody c none s = .fail busy := by
  have hdram : requestDram c.block s = .error busy := need_of_false (by simp [hk, hself, hd]) busy
  have hchk := (requestCheck_of_fields (s := s) hfields).trans hdram
  simp only [requestStateBody]
  split
  case _ e he => exact congrArg PageOut.fail (Except.error.inj (he.symm.trans hchk))
  case _ he => exact nomatch he.symm.trans hchk

end Request

/-- Settles O58: the plain pages by their bodies; BAT_LOAD_TABLES, POWER_SET_DOMAIN and POWER_REQUEST_STATE by theirs. -/
theorem powerBatteryInterruptAndFabricPages : Obligations.PowerBatteryInterruptAndFabricPages := by
  refine ⟨pageDoes .powerGetStatus _ _ _ fun _ _ => rfl, pageDoes .powerSetLatency _ _ _ fun _ _ => rfl,
    pageDoes .schedSetBudget _ _ _ fun _ _ => rfl, pageDoes .schedSetThermal _ _ _ fun _ _ => rfl,
    pageDoes .schedSetBinding _ _ _ fun _ _ => rfl, pageDoes .batSetString _ _ _ fun _ _ => rfl,
    pageDoes .batSetLevels _ _ _ fun _ _ => rfl, pageDoes .batSetReport _ _ _ fun _ _ => rfl,
    pageDoes .batSetSoc _ _ _ fun _ _ => rfl, pageDoes .batGetStatus _ _ _ fun _ _ => rfl,
    pageDoes .intrSetSource _ _ _ fun _ _ => rfl, pageDoes .intrGetSource _ _ _ fun _ _ => rfl,
    pageDoes .intrSetpend _ _ _ fun _ _ => rfl, pageDoes .intrHostPending _ _ _ fun _ _ => rfl,
    pageDoes .intrHostAck _ _ _ fun _ _ => rfl, pageDoes .intrGetStats _ _ _ fun _ _ => rfl,
    pageDoes .queuePeek _ _ _ fun _ _ => rfl, pageDoes .fabricGetStats _ _ _ fun _ _ => rfl,
    pageDoes .combineReset _ _ _ fun _ _ => rfl, ?tables, ?domain, ?request⟩
  case tables =>
    intro s p l hn hres ha
    have hchk := batTablesCheck_of_fields hn hres ha
    refine ⟨fun hturn => ?_, fun r hl hs ho => ⟨fun hd => ?_, fun t hd => ⟨fun h => ?_, fun h => ?_⟩⟩⟩
    · exact congrArg Host.Outcome.next (runPage_wait_of_turn hturn (batTablesBody_of_start hchk))
    · exact congrArg Host.Outcome.next (runPage_resumed_failWith hl hs ho (batTablesBody_of_failed_fetch hchk hd))
    · exact congrArg Host.Outcome.next (runPage_resumed_fail hl hs ho (batTablesBody_of_bad_tables hchk hd h))
    · exact congrArg Host.Outcome.next
        (runPage_resumed_done _ _ _ _ _ _ _ _ hl ho hs (batTablesBody_of_tables hchk hd h))
  case domain =>
    intro s p l hturn
    refine ⟨fun e h => ?_, fun h => ⟨fun hup => ?_, fun hdown ht => ?_, fun hdown ht => ?_⟩⟩
    · exact congrArg Host.Outcome.next (runPage_fail_of_turn hturn (setDomainBody_of_error h))
    · exact congrArg Host.Outcome.next (runPage_done_of_turn hturn (setDomainBody_of_up h hup))
    · exact congrArg Host.Outcome.next (runPage_done_of_turn hturn (setDomainBody_of_taken_down h hdown ht))
    · exact congrArg Host.Outcome.next (runPage_wait_of_turn hturn (setDomainBody_of_draining h hdown ht))
  case request =>
    intro s p l hturn hceil hself hauto hres hexp hlo hhi
    have hfields := requestFields_of_fields hceil hself hauto hres hexp hlo hhi
    exact ⟨fun h => congrArg Host.Outcome.next (runPage_done_of_turn hturn (requestStateBody_of_ok hfields h)),
      fun hk hs hd =>
        congrArg Host.Outcome.next (runPage_fail_of_turn hturn (requestStateBody_of_held_dram hfields hk hs hd))⟩

end Sys2Proof.Machine
end

section

namespace Sys2Proof.Machine

/-! ## State entry, wakes, and domains going down and up (16 R303 to R314) -/

/-! ### STATE_ENTRY and AUTO_DOZE (16 R312 to R314) -/

/-- The conditions of STATE_ENTRY for a state `k` chosen, but for the armed request and an entry under way. -/
def State.mayEnter (s : State) (k : Nat) : Prop :=
  s.ivory.state = 0 ∧ k ≠ 0 ∧ s.noLatch ∧ (k = 1 ∨ (s.hostethMay ∧ s.fabIdle)) ∧ s.ivory.draining = []

section StateEntry
variable {s : State}

theorem exec_stateEntry_of_nothing_armed (h : s.ivory.armedCeiling = none) : exec .stateEntry s = .next s := by
  simp only [exec, execStateEntry, h]

theorem exec_stateEntry_of_entry_under_way (h : s.ivory.trans ≠ none) : exec .stateEntry s = .next s := by
  obtain ⟨x, hx⟩ := Option.ne_none_iff_exists'.mp h
  match hc : s.ivory.armedCeiling with
  | none => exact exec_stateEntry_of_nothing_armed hc
  | some _ => simp only [exec, execStateEntry, hc, hx]

variable {c : Nat} (hc : s.ivory.armedCeiling = some c) (ht : s.ivory.trans = none)
include hc ht

theorem exec_stateEntry_of_may (h : s.mayEnter (s.chooseState s.dramFree c)) :
    exec .stateEntry s = .next (s.enterState (s.chooseState s.dramFree c) 0 false) := by
  simp only [exec, execStateEntry, hc, ht]
  exact congrArg Host.Outcome.next (if_pos h)

theorem exec_stateEntry_of_may_not (h : ¬s.mayEnter (s.chooseState s.dramFree c)) : exec .stateEntry s = .next s := by
  simp only [exec, execStateEntry, hc, ht]
  exact congrArg Host.Outcome.next (if_neg h)

end StateEntry

/-- With a command latched no state is entered. -/
theorem exec_stateEntry_of_latch {s : State} (h : s.noLatch = false) : exec .stateEntry s = .next s := by
  by_cases ht : s.ivory.trans = none
  · match hc : s.ivory.armedCeiling with
    | none => exact exec_stateEntry_of_nothing_armed hc
    | some c => exact exec_stateEntry_of_may_not hc ht fun hmay => Bool.eq_false_iff.mp h hmay.2.2.1
  · exact exec_stateEntry_of_entry_under_way ht

/-- The conditions of AUTO_DOZE. -/
def State.mayDoze (s : State) : Prop :=
  s.ivory.state = 0 ∧ s.ivory.trans.isNone ∧ s.regBit R.IVR_REQ 2 ∧ s.noLatch ∧ s.stateFits 1 ∧
    (List.range 5).all (fun t => (s.tgt t).stack.isEmpty && (s.tgt t).prov.isNone)

theorem exec_autoDoze_of_may {s : State} (h : s.mayDoze) : exec .autoDoze s = .next (s.enterState 1 1 false) :=
  congrArg Host.Outcome.next (if_pos h)

theorem exec_autoDoze_of_may_not {s : State} (h : ¬s.mayDoze) : exec .autoDoze s = .next s :=
  congrArg Host.Outcome.next (if_neg h)

theorem processors_idle_of_forall {s : State} (h : ∀ t, t < 5 → (s.tgt t).stack = [] ∧ (s.tgt t).prov = none) :
    (List.range 5).all (fun t => (s.tgt t).stack.isEmpty && (s.tgt t).prov.isNone) = true := by
  refine List.all_eq_true.mpr fun t ht => ?_
  obtain ⟨hstack, hprov⟩ := h t (List.mem_range.mp ht)
  simp [hstack, hprov]

/-- DOZE is entered at once. -/
theorem State.enterState_doze (s : State) (cause : Nat) (forced : Bool) : s.enterState 1 cause forced =
    ((s.entryRecord 1 0 cause none s.domMask s.tickStamp).modIvory fun i => { i with state := 1 }).assertSource 384 :=
  if_pos rfl

/-! ### Wakes (16 R309 to R311) -/

section Wake
variable {s : State} {n cause : Nat}

theorem State.wakeEvent_of_not_past {x : Transition} (hx : s.ivory.trans = some x) (h : x.pnr = false) :
    s.wakeEvent n cause = s.abortEntry x n := by
  simp only [State.wakeEvent, hx, h, Bool.false_eq_true, if_false]

theorem State.wakeEvent_of_past {x : Transition} (hx : s.ivory.trans = some x) (h : x.pnr = true) :
    s.wakeEvent n cause = s.modIvory fun i => { i with trans := some { x with wake := some (x.wake.getD n) } } := by
  simp only [State.wakeEvent, hx, h, if_true]

theorem State.wakeEvent_of_no_entry (h : s.ivory.trans = none) : s.wakeEvent n cause = s.wake n cause := by
  simp only [State.wakeEvent, h]

theorem State.wake_of_run (h : s.ivory.state = 0) : s.wake n cause = s := by
  unfold State.wake
  exact if_pos h

/-- In RUN, with no entry under way, a wake event changes nothing. -/
theorem State.wakeEvent_of_run (ht : s.ivory.trans = none) (h : s.ivory.state = 0) : s.wakeEvent n cause = s :=
  (State.wakeEvent_of_no_entry ht).trans (State.wake_of_run h)

theorem exec_wakeEvent_of_may (h : s.mayWake n = true) : exec (.wakeEvent n) s = .next (s.wakeEvent n 3) :=
  congrArg Host.Outcome.next (if_pos h)

theorem exec_wakeEvent_of_may_not (h : s.mayWake n = false) : exec (.wakeEvent n) s = .next s :=
  congrArg Host.Outcome.next (if_neg (Bool.eq_false_iff.mp h))

theorem exec_wakeTimer_of_reached {t : Nat} (ht : s.wakeTimer = some t) (h : t ≤ s.now) :
    exec .wakeTimer s = .next ((s.setReg64 R.IVR_WAKE_TIMER_LO 0).wakeEvent 0x400 3) := by
  simp only [exec, execWakeTimer, ht]
  exact congrArg Host.Outcome.next (if_pos h)

theorem exec_wakeTimer_of_later (h : ∀ t, s.wakeTimer = some t → s.now < t) : exec .wakeTimer s = .next s := by
  match ht : s.wakeTimer with
  | none => simp only [exec, execWakeTimer, ht]
  | some t =>
    simp only [exec, execWakeTimer, ht]
    exact congrArg Host.Outcome.next (if_neg (Nat.not_le.mpr (h t ht)))

end Wake

/-! ### ON-DEMAND domains (16 R303) -/

section Demand
variable {s : State} {d : Nat}

theorem State.demand_of_asleep (h : s.domOnDemand d = false ∨ s.ivory.forced = true ∨ s.ivory.state = 3) :
    s.demand d = s := by
  refine if_pos (.inr ?_)
  rcases h with h | h | h
  · exact .inl (by rw [h]; rfl)
  · exact .inr (.inl h)
  · exact .inr (.inr h)

variable (hd : d < 16) (hrun : s.ivory.state = 0) (hforced : s.ivory.forced = false) (hon : s.domOnDemand d = true)
include hd hrun hforced hon

/-- In RUN a request to an ON-DEMAND domain is not refused. -/
theorem State.demand_not_refused : ¬(16 ≤ d ∨ !s.domOnDemand d ∨ s.ivory.forced ∨ s.ivory.state = 3) := by
  simp [hrun, hforced, hon, hd]

theorem State.demand_of_run (ht : s.ivory.trans = none) (hdr : s.ivory.draining.get? d = none) :
    s.demand d = s.touch d := by
  unfold State.demand
  rw [if_neg (State.demand_not_refused hd hrun hforced hon), State.wakeEvent_of_run ht hrun]
  simp only [hdr, ht, Option.isSome_none, Bool.false_eq_true, if_false]

theorem State.demand_of_draining {e : Stamp × Nat} (hdr : s.ivory.draining.get? d = some e)
    (hnew : s.ivory.wakeAfter.contains d = false) :
    s.demand d = s.modIvory fun i => { i with wakeAfter := i.wakeAfter ++ [d] } := by
  unfold State.demand
  rw [if_neg (State.demand_not_refused hd hrun hforced hon)]
  simp only [hdr, Option.isSome_some, if_true, State.modIvory, hnew, Bool.false_eq_true, if_false]

end Demand

/-! ### A domain going down (16 R303, R307) -/

section PowerDown
variable {s : State} {d : Nat}

section Entry
variable {x : Transition} (hx : s.ivory.trans = some x)
include hx

theorem exec_domainPowerDown_of_other_domain (h : x.todo.head? ≠ some d) : exec (.domainPowerDown d) s = .next s := by
  simp only [exec, execDomainPowerDown, hx]
  exact congrArg Host.Outcome.next (if_pos (.inl h))

variable (hhead : x.todo.head? = some d) (hdr : s.ivory.draining.get? d = none) (hfab : d ≠ dFAB ∨ s.fabIdle = true)
include hhead hdr hfab

omit hx in
/-- The next domain of an entry, not draining and allowed by 14 R276, is not held back. -/
theorem State.entry_not_held :
    ¬(x.todo.head? ≠ some d ∨ (s.ivory.draining.get? d).isSome ∨ (d = dFAB ∧ !s.fabIdle)) := by
  rcases hfab with h | h <;> simp [hhead, hdr, h]

theorem exec_domainPowerDown_of_idle (hb : s.quadBusy d = false) :
    exec (.domainPowerDown d) s = .next ((s.powerOff d).advanceEntry x) := by
  simp only [exec, execDomainPowerDown, hx, if_neg (State.entry_not_held hhead hdr hfab)]
  exact congrArg Host.Outcome.next (if_neg (Bool.eq_false_iff.mp hb))

theorem exec_domainPowerDown_of_busy (hb : s.quadBusy d = true) : exec (.domainPowerDown d) s =
    .next (s.modIvory fun i => { i with draining := i.draining.set d (s.tickStamp, x.cause) }) := by
  simp only [exec, execDomainPowerDown, hx, if_neg (State.entry_not_held hhead hdr hfab)]
  exact congrArg Host.Outcome.next (if_pos hb)

end Entry

theorem exec_domainPowerDown_of_set_down (ht : s.ivory.trans = none) (hrun : s.ivory.state = 0)
    (hdown : s.runDown d = true) (hdr : s.ivory.draining.get? d = none) :
    exec (.domainPowerDown d) s = .next (s.takeDown d 6) := by
  simp only [exec, execDomainPowerDown, ht]
  exact congrArg Host.Outcome.next (if_pos ⟨hrun, hdown, by rw [hdr]; rfl⟩)

theorem exec_domainDrainDone_of_not_draining (h : s.ivory.draining.get? d = none) :
    exec (.domainDrainDone d) s = .next s := by
  simp only [exec, execDomainDrainDone, h]

variable {e : Stamp × Nat} (he : s.ivory.draining.get? d = some e)
include he

theorem exec_domainDrainDone_of_busy (hb : s.quadBusy d = true) : exec (.domainDrainDone d) s = .next s := by
  simp only [exec, execDomainDrainDone, he]
  exact congrArg Host.Outcome.next (if_pos hb)

theorem exec_domainDrainDone_of_idle (hb : s.quadBusy d = false) (ht : s.ivory.trans = none) :
    exec (.domainDrainDone d) s =
      .next (((((s.modIvory fun i => { i with draining := i.draining.erase d }).powerOff d).downRecord s.domMask e.1
        e.2).resumeDomain d).wakeWaiting d) := by
  simp only [exec, execDomainDrainDone, he, ht]
  exact congrArg Host.Outcome.next (if_neg (Bool.eq_false_iff.mp hb))

end PowerDown

/-! ### DOMAIN_POWER_UP and DOMAIN_IDLE_TIMEOUT (16 R309, R313) -/

section Domain
variable {s : State} {d : Nat}

theorem exec_domainPowerUp_of_fastStart (hd : d < 16) (hrun : s.ivory.state = 0) (ht : s.ivory.trans = none)
    (hoff : s.domUp d = false) (h : s.fastStart d = true) : exec (.domainPowerUp d) s = .next ((s.powerOn d).emitPower
      { kind := 4, fromState := 0, toState := 0, outcome := 0, fromPoint := s.arrayPoint, toPoint := s.arrayPoint,
        cause := 6, wake := 0xFFFF, before := s.domMask, start := s.tickStamp }) :=
  congrArg Host.Outcome.next (if_pos ⟨hd, hrun, by rw [ht]; rfl, by rw [hoff]; rfl, h⟩)

theorem exec_domainPowerUp_of_not_fastStart (h : s.fastStart d = false) : exec (.domainPowerUp d) s = .next s :=
  congrArg Host.Outcome.next (if_neg fun ⟨_, _, _, _, hfast⟩ => Bool.eq_false_iff.mp h hfast)

/-- idle_down_us of a domain. -/
def State.idleDownUs (s : State) (d : Nat) : Nat := s.regFld (R.IVR_DOMd_CFG d) 31 8

/-- The conditions of DOMAIN_IDLE_TIMEOUT. -/
def State.idleExpired (s : State) (d : Nat) : Prop :=
  d < 16 ∧ s.ivory.state = 0 ∧ s.ivory.trans.isNone ∧ s.domOnDemand d ∧ s.domUp d ∧ s.idleDownUs d ≠ 0 ∧ !s.quadBusy d ∧
    (s.downList d).length = 1 ∧ (s.ivory.draining.get? d).isNone ∧
    s.ivory.lastUse.getD d 0 + s.idleDownUs d * 1000 ≤ s.now

theorem exec_domainIdleTimeout_of_expired (h : s.idleExpired d) :
    exec (.domainIdleTimeout d) s = .next (s.takeDown d 1) := congrArg Host.Outcome.next (if_pos h)

theorem exec_domainIdleTimeout_of_not_expired (h : ¬s.idleExpired d) : exec (.domainIdleTimeout d) s = .next s :=
  congrArg Host.Outcome.next (if_neg h)

theorem State.not_idleExpired_of_use (h : s.idleDownUs d = 0 ∨ s.now < s.ivory.lastUse.getD d 0 + s.idleDownUs d * 1000 ∨
    s.quadBusy d = true) : ¬s.idleExpired d := by
  rintro ⟨-, -, -, -, -, hus, hb, -, -, hdue⟩
  rcases h with h | h | h
  · exact hus h
  · omega
  · rw [h] at hb
    exact Bool.false_ne_true hb

theorem State.downList_of_no_child (h : (domChildren d).filter s.domUp = []) : s.downList d = [d] := by
  rw [State.downList, h, List.nil_append]

/-- A domain that is up, with no child up and no run in flight, goes down alone. -/
theorem State.takeDown_of_alone {cause : Nat} (hup : s.domUp d = true) (hb : s.quadBusy d = false)
    (h : (domChildren d).filter s.domUp = []) :
    s.takeDown d cause = (s.powerOff d).downRecord s.domMask s.tickStamp cause := by
  simp only [State.takeDown, hup, hb, State.downList_of_no_child h, Bool.not_true, Bool.false_eq_true, if_false,
    List.foldl_cons, List.foldl_nil]

end Domain

/-- Settles O59: each transition by what its conditions decide. -/
theorem powerTransitions : Obligations.PowerTransitions := by
  intro s
  refine ⟨?entry, ?noEntry, ?doze, ?noDoze, ?wakes, fun n => exec_wakeEvent_of_may_not,
    fun t => exec_wakeTimer_of_reached, exec_wakeTimer_of_later, ?demand,
    fun d h => congrArg Host.Outcome.next (State.demand_of_asleep h), ?down,
    fun d x => exec_domainPowerDown_of_other_domain, fun d => exec_domainPowerDown_of_set_down, ?drain,
    fun d => exec_domainDrainDone_of_not_draining, ?up, ?idle⟩
  case entry =>
    intro c hc ht hrun hlatch hdr
    refine ⟨fun hk => ?_, fun hk hmay => ?_, fun hk hmay => ?_⟩
    · exact exec_stateEntry_of_may_not hc ht fun ⟨_, hne, _⟩ => hne hk
    · exact exec_stateEntry_of_may hc ht ⟨hrun, hk, hlatch, hmay, hdr⟩
    · refine exec_stateEntry_of_may_not hc ht fun ⟨_, _, _, hor, _⟩ => ?_
      obtain ⟨hhost, hfab⟩ := hor.resolve_left (Nat.ne_of_gt hk)
      exact hmay.elim (Bool.eq_false_iff.mp · hhost) (Bool.eq_false_iff.mp · hfab)
  case noEntry =>
    intro h
    rcases h with h | h | h
    · exact exec_stateEntry_of_nothing_armed h
    · exact exec_stateEntry_of_entry_under_way h
    · exact exec_stateEntry_of_latch h
  case doze =>
    intro hrun ht hreq hlatch hfits hidle
    rw [← State.enterState_doze s 1 false]
    exact exec_autoDoze_of_may ⟨hrun, by rw [ht]; rfl, hreq, hlatch, hfits, processors_idle_of_forall hidle⟩
  case noDoze =>
    intro h
    refine exec_autoDoze_of_may_not fun ⟨hrun, _, hreq, hlatch, _⟩ => ?_
    rcases h with h | h | h
    · exact h hrun
    · exact Bool.eq_false_iff.mp h hreq
    · exact Bool.eq_false_iff.mp h hlatch
  case wakes =>
    intro n hmay
    have hexec := exec_wakeEvent_of_may hmay
    refine ⟨fun x hx h => ?_, fun x hx h => ?_, fun ht h => ?_, fun ht _ => ?_⟩
    · rw [hexec, State.wakeEvent_of_not_past hx h]
    · rw [hexec, State.wakeEvent_of_past hx h]
    · rw [hexec, State.wakeEvent_of_run ht h]
    · rw [hexec, State.wakeEvent_of_no_entry ht]
  case demand =>
    intro d hd hrun ht hforced hon
    exact ⟨fun hdr => congrArg Host.Outcome.next (State.demand_of_run hd hrun hforced hon ht hdr),
      fun e he hnew => congrArg Host.Outcome.next (State.demand_of_draining hd hrun hforced hon he hnew)⟩
  case down =>
    intro d x hx hhead hdr hfab
    exact ⟨exec_domainPowerDown_of_idle hx hhead hdr hfab, exec_domainPowerDown_of_busy hx hhead hdr hfab⟩
  case drain =>
    intro d e he
    exact ⟨exec_domainDrainDone_of_busy he, exec_domainDrainDone_of_idle he⟩
  case up =>
    intro d hd hrun ht hoff
    exact ⟨exec_domainPowerUp_of_fastStart hd hrun ht hoff, exec_domainPowerUp_of_not_fastStart⟩
  case idle =>
    intro d hd hrun ht hon hup hdr halone
    refine ⟨fun hus hdue hb => ?_, fun h => exec_domainIdleTimeout_of_not_expired (State.not_idleExpired_of_use h)⟩
    rw [← State.takeDown_of_alone (cause := 1) hup hb halone]
    exact exec_domainIdleTimeout_of_expired ⟨hd, hrun, by rw [ht]; rfl, hon, hup, hus, by rw [hb]; rfl,
      by rw [State.downList_of_no_child halone]; rfl, by rw [hdr]; rfl, hdue⟩

end Sys2Proof.Machine
end

section

namespace Sys2Proof.Machine

/-! ## Samples, points, the window boundary and reports (16 R315 to R322, 17 R330, R337 to R340) -/

/-! ### The regulator (16 R316) -/

section Regulator
variable {s : State}

theorem exec_voutReadback_of_no_rise (h : s.ivory.raising = none) (mv : Nat) (e : Bool) :
    exec (.voutReadback mv e) s = .next s := by
  simp only [exec, execVoutReadback, h]

theorem exec_regulatorTimeout_of_no_rise (h : s.ivory.raising = none) : exec .regulatorTimeout s = .next s := by
  simp only [exec, execRegulatorTimeout, h]

variable {p target at' : Nat} (h : s.ivory.raising = some (p, target, at'))
include h

theorem exec_voutReadback_of_error (mv : Nat) :
    exec (.voutReadback mv true) s = .next ((s.setRegFld R.IVR_PT_STATUS 1 1 1).assertSource 396) := by
  simp only [exec, execVoutReadback, h, if_true]

theorem exec_voutReadback_of_near {mv : Nat} (hlo : target ≤ mv + 10) (hhi : mv ≤ target + 10) :
    exec (.voutReadback mv false) s = .next
      ((((s.setVout mv).setRegFld R.IVR_PT_STATUS 0 0 0).modIvory fun i => { i with raising := none }).switchPoint p 4
        ((s.setVout mv).tickStamp.shift (-(((s.setVout mv).now - at' : Nat) : Int)))) := by
  simp only [exec, execVoutReadback, h, hlo, hhi, Bool.false_eq_true, if_false, and_self, if_true]

theorem exec_voutReadback_of_far {mv : Nat} (hfar : mv + 10 < target ∨ target + 10 < mv) :
    exec (.voutReadback mv false) s = .next (s.setVout mv) := by
  have hno : ¬(target ≤ mv + 10 ∧ mv ≤ target + 10) := by omega
  simp only [exec, execVoutReadback, h, hno, Bool.false_eq_true, if_false]

theorem exec_regulatorTimeout_of_due (hdue : at' + 1000000 ≤ s.now) (hs : s.regBit R.IVR_PT_STATUS 0 = false) :
    exec .regulatorTimeout s = .next ((s.setRegFld R.IVR_PT_STATUS 0 0 1).assertSource 396) := by
  simp only [exec, execRegulatorTimeout, h]
  exact congrArg Host.Outcome.next (if_pos ⟨hdue, by rw [hs]; rfl⟩)

theorem exec_regulatorTimeout_of_not_due (hno : s.now < at' + 1000000 ∨ s.regBit R.IVR_PT_STATUS 0 = true) :
    exec .regulatorTimeout s = .next s := by
  simp only [exec, execRegulatorTimeout, h]
  refine congrArg Host.Outcome.next (if_neg fun ⟨hdue, hs⟩ => ?_)
  rcases hno with hno | hno
  · omega
  · rw [hno] at hs
    exact Bool.false_ne_true hs

end Regulator

/-! ### The window boundary (16 R319 to R322) -/

/-- The boundary that the present time has reached: the last multiple of 10 ms. -/
def State.boundaryAt (s : State) : Nat := s.now / 10000000 * 10000000

/-- The window that ends: its replay window, its runs, its charges and what it sheds; a new one begins. -/
def State.rollWindow (s : State) : State :=
  ((((s.endWindow.progress.boundarySettings.modIvory fun i => { i with
    windowAt := s.boundaryAt, prevCharged := i.charged, prevRuns := i.runs, charged := [0, 0, 0, 0], runs := [] }).bump
    R.IVR_WINDOW_SEQ).setReg R.IVR_CHARGED_UJ 0).shedOverdue s.boundaryAt)

/-- The point and the budget of the window that begins. -/
def State.planWindow (s : State) : State := (s.changePoint s.choosePoint 4).setBudget

section Boundary
variable {s : State} (hrun : s.clocksRun)
include hrun

theorem exec_budgetWindowBoundary_of_early (h : s.boundaryAt ≤ s.ivory.windowAt) :
    exec .budgetWindowBoundary s = .next s :=
  (timed_of_clocksRun workBudgetWindowBoundary s hrun).trans (congrArg Host.Outcome.next (if_pos h))

theorem exec_budgetWindowBoundary_of_reached (h : s.ivory.windowAt < s.boundaryAt) :
    exec .budgetWindowBoundary s = .next (s.rollWindow.planWindow.admitWaiting s.rollWindow.planWindow.waitingRuns) :=
  (timed_of_clocksRun workBudgetWindowBoundary s hrun).trans
    (congrArg Host.Outcome.next (if_neg (Nat.not_le.mpr h)))

end Boundary

/-! ### Battery samples and reports (17 R330, R337, R338, R340) -/

section Battery
variable {s : State}

theorem State.reportBattery_of_zero (s : State) : s.reportBattery 0 = s := if_pos rfl

/-- The state of a battery sample once the due strings are converted, with E_res shown. -/
def State.sampledStrings (s : State) (codes : List BatCode) : State :=
  let r := s.applyWaiting.sampleDue codes
  r.1.setReg R.SBL_E_RES_J (w32 r.1.resJoules)

/-- The reasons that the due strings of a battery sample give. -/
def State.sampleReasons (s : State) (codes : List BatCode) : Nat := (s.applyWaiting.sampleDue codes).2

theorem State.batterySample_of_supply_not_due {codes : List BatCode} (h : s.applyWaiting.supplyDue codes = false) :
    s.batterySample codes = (s.sampledStrings codes).reportBattery (s.sampleReasons codes) := by
  simp only [State.batterySample, h, State.countSupplyIf, Bool.false_eq_true, if_false, Nat.or_zero]
  rfl

theorem State.batterySample_of_supply_due {codes : List BatCode} (h : s.applyWaiting.supplyDue codes = true) :
    s.batterySample codes = (s.sampledStrings codes).countSupply.1.reportBattery
      (s.sampleReasons codes ||| (if (s.sampledStrings codes).countSupply.2 then rnSource else 0)) := by
  simp only [State.batterySample, h, State.countSupplyIf, if_true]
  rfl

theorem State.reportBattery_of_hibernate {n : Nat} (hn : n ≠ 0) (h : s.ivory.state = 3) :
    s.reportBattery n = s.modSable fun b => { b with latched := b.latched ||| n } := by
  unfold State.reportBattery
  exact (if_neg hn).trans (if_pos h)

theorem State.reportBattery_of_awake {n : Nat} (hn : n ≠ 0) (h : s.ivory.state ≠ 3) :
    s.reportBattery n = s.emit .sable none 0x0050 s.sampleStamp s.sampleStamp.steady s.sampleStamp.flag 0x8000 0
      (s.batteryBody n) := by
  unfold State.reportBattery
  exact (if_neg hn).trans (if_neg h)

/-- The period of battery reports in ns. -/
def State.reportPeriod (s : State) : Nat := s.regN R.SBL_PERIOD_S * 1000000000

theorem exec_batteryReportPeriod_of_not_due (h : s.reportPeriod = 0 ∨ s.now < s.sable.lastReport + s.reportPeriod) :
    exec .batteryReportPeriod s = .next s := congrArg Host.Outcome.next (if_pos h)

theorem exec_batteryReportPeriod_of_due (hp : s.reportPeriod ≠ 0) (h : s.sable.lastReport + s.reportPeriod ≤ s.now) :
    exec .batteryReportPeriod s = .next
      ((s.modSable fun b => { b with lastReport := s.now / s.reportPeriod * s.reportPeriod }).reportBattery 1) :=
  congrArg Host.Outcome.next (if_neg fun hor => hor.elim hp (Nat.not_lt.mpr h))

end Battery

/-- Settles O60: each sample, boundary and report by what its conditions decide. -/
theorem thermalPointsBudgetsAndBattery : Obligations.ThermalPointsBudgetsAndBattery := by
  intro s
  refine ⟨fun _ => rfl, ?rise, ?noRise, exec_budgetWindowBoundary_of_early, exec_budgetWindowBoundary_of_reached,
    ?sample, fun n hn => ⟨State.reportBattery_of_hibernate hn, State.reportBattery_of_awake hn⟩,
    exec_batteryReportPeriod_of_not_due, exec_batteryReportPeriod_of_due⟩
  case rise =>
    intro mv p at' target h
    exact ⟨exec_voutReadback_of_error h mv, exec_voutReadback_of_near h, exec_voutReadback_of_far h,
      exec_regulatorTimeout_of_due h, exec_regulatorTimeout_of_not_due h⟩
  case noRise =>
    intro mv e h
    exact ⟨exec_voutReadback_of_no_rise h mv e, exec_regulatorTimeout_of_no_rise h⟩
  case sample =>
    intro codes
    refine ⟨fun hs hr => ?_, fun hs _ => ?_, fun hs => ?_⟩
    · refine congrArg Host.Outcome.next ((State.batterySample_of_supply_not_due hs).trans ?_)
      exact (congrArg _ hr).trans (State.reportBattery_of_zero _)
    · exact congrArg Host.Outcome.next (State.batterySample_of_supply_not_due hs)
    · exact congrArg Host.Outcome.next (State.batterySample_of_supply_due hs)

end Sys2Proof.Machine
end
